-- ==== Sys2Proof/Word.lean ====
section
/-! DEFINITION. The plain types every file uses: a register word, a byte, a table held as a sorted list of key and
value pairs, and the place of a register field. -/
namespace Sys2Proof

/-- A 32-bit register or table word (chapter 00, "Registers"). -/
abbrev Word := BitVec 32

/-- A byte of memory or of a message. -/
abbrev Byte := BitVec 8

/-- A sparse table: keys strictly rising, no entry equal to what an unlisted key reads as. -/
abbrev Cells (α : Type) := List (Nat × α)

/-- A field of a register: the register's byte offset in the register window, its lowest bit and its width (R3). -/
structure RegField where
  addr : Nat
  lo : Nat
  width : Nat
  deriving DecidableEq, Repr

/-- How the meaning of a field limits its value (R458). -/
inductive Range where
  | span (lo hi : Nat)
  | multOf (n : Nat)
  | pow2 (lo hi : Nat)
  /-- LOG_SYNC of R70: a signed 4-bit exponent. -/
  | logSync
  deriving DecidableEq, Repr

/-- A register or register array of a page: offset, up to two array dimensions (count and stride each), the bits of
each access code (R5), the bits cleared on read, the reset value and the limited fields (lowest bit, width, range). -/
structure RegDesc where
  off : Nat
  n1 : Nat
  s1 : Nat
  n2 : Nat
  s2 : Nat
  rw : Nat
  rwm : Nat
  ro : Nat
  w1c : Nat
  wo : Nat
  rws : Nat
  cor : Nat
  reset : Nat
  ranges : List (Nat × Nat × Range)
  deriving DecidableEq, Repr

end Sys2Proof
end

