-- ==== Sys2Proof/Syntax.lean ====
section
/-! DEFINITION. The commands: one constructor per row of the spec's opcode table, in the table's order. The first operand
`dt` of every command is the free-running time in ns since the command before it (assumption 1). Indexes are bounded by
their type; a register value is a `Word`; every other width is checked by `Instr.wf` (WellFormed.lean). -/
namespace Sys2Proof

/-- How a snapshot of R95 arrives: when, as `dt` of every command, and whether its check word matches. -/
structure SnapArrival where
  dt : Nat
  sound : Bool
  deriving DecidableEq, Repr

/-- What a receiver sees of a TRAIN frame beside its bytes (R242, R253): whether the lane's markers came inverted, and by how
many unit intervals lane 1 lags lane 0. -/
structure LaneArrival where
  inverted : Bool
  skew : Int
  deriving DecidableEq, Repr

/-- The line bits on the receive lanes of a link; a head port has lane 0 only (R242). -/
structure LinkBits where
  link : Fin 34
  lane0 : List Bool
  lane1 : List Bool
  deriving DecidableEq, Repr

/-- A command to the OV1316: something that reaches it from outside, a write of one of its registers, or an instant at which
one of its own units acts. -/
inductive Instr where
  /-- BEAT_BOUNDARY (R17). A beat boundary falls on the local clock and every beat-paced unit starts its work for the
  new beat. -/
  | beatBoundary (dt unit planes : Nat)
  /-- COMMIT_CANCEL (R28). PG_COMMIT mode CANCEL withdraws an armed commit whose cut-off has not passed, and is
  refused otherwise. -/
  | commitCancel (dt : Nat) (page : Fin 128)
  /-- COMMIT_IMMEDIATE (R28). PG_COMMIT mode IMMEDIATE applies the shadow half when the write's response is returned,
  unless the mode is refused for a fire-stream page. -/
  | commitImmediate (dt : Nat) (page : Fin 128)
  /-- COMMIT_NEXT_BEAT (R28). PG_COMMIT mode NEXT_BEAT arms a commit that applies at the first beat boundary at least
  100 ns after the response. -/
  | commitNextBeat (dt : Nat) (page : Fin 128)
  /-- COMMIT_AT_EPOCH (R30). PG_COMMIT mode AT_EPOCH runs the page's arming check and arms a commit for its target
  epoch, or refuses it as missed or invalid. -/
  | commitAtEpoch (dt : Nat) (page : Fin 128) (target : Nat)
  /-- PLAN_CHECK_DONE (R24). The plan checker finishes and accepts the plan, which is armed, or refuses it with a
  code, instance, demand and budget. -/
  | planCheckDone (dt : Nat)
  /-- PLAN_STOP_EPOCH (R34). PLAN_STOP MODE 1 ends the plan after the last line of the epoch in progress on every
  plane. -/
  | planStopEpoch (dt : Nat)
  /-- PLAN_STOP_LINE (R34). PLAN_STOP MODE 2 completes the line in progress on every plane and launches no later line.
  -/
  | planStopLine (dt : Nat)
  /-- PLAN_END (R34). Once every plane has ended, the plan becomes inactive, the bound blocks are released and the
  armed fire-stream commits are cancelled. -/
  | planEnd (dt : Nat)
  /-- ENC_SAMPLE (R37). A position unit produces its 50 ns position sample from the conversion or the accepted
  transitions of its input. -/
  | encSample (dt : Nat) (unit : Fin 2) (sin cos : Nat) (ref : List Bool)
  /-- QD_TRANSITION (R40). A filtered level change on a quadrature input is accepted and changes X by one count, or
  declares an illegal transition. -/
  | qdTransition (dt : Nat) (input : Fin 4) (a b z : Bool)
  /-- CAM_TRIGGER_HELD (R267). A trigger held back by the 1 / F_CAM spacing is sent when the spacing expires, and is
  counted as late. -/
  | camTriggerHeld (dt : Nat) (cam : Fin 2)
  /-- ENC_ARM (R44). ENC_CTL.ARM arms the ARMED index mode. -/
  | encArm (dt : Nat) (unit : Fin 2)
  /-- ENC_CLR_FAULT (R43). ENC_CTL.CLR_FAULT clears an encoder fault after FAULT_N good samples, and is refused
  otherwise. -/
  | encClrFault (dt : Nat) (unit : Fin 2)
  /-- ENC_LOAD (R45). ENC_CTL.LOAD sets X to INDEX_VALUE, and is refused while the unit serves an active plan. -/
  | encLoad (dt : Nat) (unit : Fin 2)
  /-- LEV_RESTORE (R57). LEV_CTL.RESTORE returns a plane to its valid primary source while the plane is in seam-stop
  or no plan is active. -/
  | levRestore (dt planes : Nat)
  /-- VENC_SAMPLE_RX (R61). A follower accepts the first copy of each published sample, translates its timestamp, or
  discards it. -/
  | vencSampleRx (dt : Nat) (sample : List Byte)
  /-- VENC_LOST (R61). No sample accepted for TMO beats while monitored declares the published position lost and fails
  the VENC source. -/
  | vencLost (dt : Nat)
  /-- PTP_MESSAGE_RX (R69). A PTP event or general message is received and timestamped, and an offset sample is formed
  where the exchange is complete. -/
  | ptpMessageRx (dt : Nat) (port : Fin 2) (msg : List Byte)
  /-- PTP_MESSAGE_TX (R69). The TIME block sends Sync as master, or Delay_Req or Pdelay messages, at its intervals. -/
  | ptpMessageTx (dt : Nat) (dom : Fin 2) (typ : Fin 3)
  /-- TIME_SET (R67). TIME_CTL.SET loads the local clock from TIME_SET, and is refused while a plan is active. -/
  | timeSet (dt : Nat)
  /-- TIME_ACT_DOM_WRITE (R71). A write of TIME_CTL.ACT_DOM switches the active domain at the next beat boundary. -/
  | timeActDomWrite (dt : Nat) (dom : Fin 2)
  /-- DOMAIN_LOST (R70). LOSS_N Sync intervals without a valid Sync declare a domain lost. -/
  | domainLost (dt : Nat) (dom : Fin 2)
  /-- TSQ_DATA0_READ (R77). A read of TSQ_DATA0 removes the head of the timestamp queue and latches its time. -/
  | tsqData0Read (dt : Nat)
  /-- TPULSE_EDGE (R83). A timed-pulse output reaches the start or end instant of a pulse of its schedule. -/
  | tpulseEdge (dt : Nat) (out : Fin 8)
  /-- ETH_RX_FRAME (R89). A received Ethernet frame is classified step by step and discarded, answered or delivered.
  -/
  | ethRxFrame (dt : Nat) (port : Fin 2) (fecUnc : Nat) (fcsOk : Bool) (frame : List Byte)
  /-- ETH_LINK_CHANGE (R90). A port's LINK_UP changes, which may select the active port or decide a switchover with
  cause 1. -/
  | ethLinkChange (dt : Nat) (port : Fin 2) (lock localFault remoteFault fec : Bool)
  /-- STBY_DUP_TIMEOUT (R91). No duplicated control message on the standby within DUP_TMO marks the standby not
  healthy. -/
  | stbyDupTimeout (dt : Nat)
  /-- SNAPSHOT_COMPLETE (R95). A snapshot arrives whole at the standby and becomes current. -/
  | snapshotComplete (arrival : SnapArrival)
  /-- PATH_ENGINE_FAULT (R98). The active engine or its power island reports a fault, which decides a switchover with
  cause 3. -/
  | pathEngineFault (dt : Nat) (island : Bool)
  /-- PATH_SWITCH_CMD (R98). PATH_CMD.SWITCH decides a switchover with cause 4. -/
  | pathSwitchCmd (dt : Nat)
  /-- PATH_DRILL_TIMER (R101). T_DRILL seconds after the last switchover, PATH starts a path drill. -/
  | pathDrillTimer (dt : Nat)
  /-- PATH_DRILL_NOW (R101). PATH_CMD.DRILL_NOW starts a drill at the next beat boundary. -/
  | pathDrillNow (dt : Nat)
  /-- DRILL_POST_TIMEOUT (R103). No correctly handled JTP message within POST_TMO beats after a drill swap reverts the
  swap with cause 6. -/
  | drillPostTimeout (dt : Nat)
  /-- TXR_TAIL_WRITE (R104). Firmware advances the transmit ring tail, handing new frame descriptors to the device. -/
  | txrTailWrite (dt : Nat) (tail : Word)
  /-- ETH_TX_FRAME (R81). A transmitter starts a frame when it is free and any launch time has come, observing the
  timed queue. -/
  | ethTxFrame (dt : Nat) (port : Fin 2)
  /-- ETH_TX_DONE (R104). A frame from the transmit ring has been sent and its descriptor receives DONE. -/
  | ethTxDone (dt : Nat) (port : Fin 2)
  /-- HELLO_OPEN (R123). A HELLO OPEN opens, retries or refuses a session, or goes to the management ring for an
  unmatched peer. -/
  | helloOpen (dt : Nat) (port : Fin 2) (known : Bool) (session : Fin 16) (seq job epoch : Word) (body : List Byte)
  /-- HELLO_PROBE (R123). A HELLO PROBE is answered with REPLY. -/
  | helloProbe (dt : Nat) (port : Fin 2) (session : Fin 16) (seq job epoch : Word) (body : List Byte)
  /-- HELLO_CLOSE (R123). A HELLO CLOSE returns the session to CONFIGURED. -/
  | helloClose (dt : Nat) (port : Fin 2) (session : Fin 16) (seq job epoch : Word) (body : List Byte)
  /-- PLAN_LOAD (R125). A PLAN_LOAD message writes words into the shadow half of the PLAN page. -/
  | planLoad (dt : Nat) (port : Fin 2) (session : Fin 16) (seq job epoch : Word) (payload : List Byte)
  /-- TABLE_WRITE (R126). A TABLE_WRITE message writes entries into a shadow table. -/
  | tableWrite (dt : Nat) (port : Fin 2) (session : Fin 16) (seq job epoch : Word) (payload : List Byte)
  /-- LAYER_SEGMENT (R127). A LAYER_SEGMENT message writes Sloe bytes into a layer stream of the job store. -/
  | layerSegment (dt : Nat) (port : Fin 2) (session : Fin 16) (seq job epoch : Word) (payload : List Byte)
  /-- COPY_ORDER (R128). A COPY_ORDER message writes descriptors into the copy-order ring. -/
  | copyOrder (dt : Nat) (port : Fin 2) (session : Fin 16) (seq job epoch : Word) (payload : List Byte)
  /-- EPOCH_COMMIT (R130). An EPOCH_COMMIT message checks and arms AT_EPOCH commits of the selected pages and is
  answered with a status. -/
  | epochCommit (dt : Nat) (port : Fin 2) (session : Fin 16) (seq job epoch : Word) (payload : List Byte)
  /-- ACK_RECEIVED (R114). An ACK from the RIP releases acknowledged reports and updates the device's credit. -/
  | ackReceived (dt : Nat) (port : Fin 2) (session : Fin 16) (seq job epoch : Word) (payload : List Byte)
  /-- NAK_RECEIVED (R114). A NAK from the RIP marks the device's messages it names for resending. -/
  | nakReceived (dt : Nat) (port : Fin 2) (session : Fin 16) (seq job epoch : Word) (payload : List Byte)
  /-- CREDIT_RECEIVED (R116). A CREDIT message from the RIP updates the device's report credit. -/
  | creditReceived (dt : Nat) (port : Fin 2) (session : Fin 16) (seq job epoch : Word) (payload : List Byte)
  /-- REG_READ (R131). A REG_READ message reads words through JTP remote under Shroud and is answered. -/
  | regRead (dt : Nat) (port : Fin 2) (session : Fin 16) (seq job epoch : Word) (payload : List Byte)
  /-- REG_WRITE (R131). A REG_WRITE message writes words through JTP remote under Shroud and is answered. -/
  | regWrite (dt : Nat) (port : Fin 2) (session : Fin 16) (seq job epoch : Word) (payload : List Byte)
  /-- DOORBELL (R132). A DOORBELL message is placed in the management receive ring, which raises the doorbell source.
  -/
  | doorbell (dt : Nat) (port : Fin 2) (session : Fin 16) (seq job epoch : Word) (payload : List Byte)
  /-- POSITION (R136). A POSITION message carrying a virtual-encoder sample is handled by VENC as one more route. -/
  | position (dt : Nat) (port : Fin 2) (session : Fin 16) (seq job epoch : Word) (payload : List Byte)
  /-- ACK_TIMER (R115). ACK_TMO after the earliest uncovered accepted message, the device sends an ACK. -/
  | ackTimer (dt : Nat) (session : Fin 16)
  /-- NAK_HOLD_TIMER (R115). While a gap remains, a NAK GAP is repeated every NAK_HOLD. -/
  | nakHoldTimer (dt : Nat) (session : Fin 16)
  /-- JTP_RETRANSMIT_TIMER (R118). A device message unacknowledged for JTP_RTO is sent again. -/
  | jtpRetransmitTimer (dt : Nat) (session : Fin 16)
  /-- REPORT_SEND (R118). A waiting report, record or event message is sent once the window and credit allow. -/
  | reportSend (dt : Nat) (session : Fin 16) (kind : Fin 4) (count : Nat)
  /-- MTX_TAIL_WRITE (R118). Firmware advances the management transmit ring tail, and the device sends the queued
  TELEMETRY, EVENT or DOORBELL. -/
  | mtxTailWrite (dt : Nat) (tail : Word)
  /-- KEY_LOAD (R120). JTP_KEY_SEL.LOAD moves the key data into a session's key slot at Monitor level and clears the
  slot's STALE bit. -/
  | keyLoad (dt : Nat) (master : Fin 48) (session : Fin 16) (slot : Fin 2)
  /-- SESSION_ENABLE (R121). Setting SESS_CFG.EN moves a session to CONFIGURED, if its credit reservation fits. -/
  | sessionEnable (dt : Nat) (session : Fin 16)
  /-- SESSION_DISABLE (R121). Clearing SESS_CFG.EN closes the session at once, performs its held bulk messages and
  makes its keys stale. -/
  | sessionDisable (dt : Nat) (session : Fin 16)
  /-- COMPRESSOR_START (R154). CMP_CMD.START starts a compressor job from DRAM or a tap. -/
  | compressorStart (dt : Nat) (tap : Bool)
  /-- COMPRESSOR_ABORT (R158). CMP_CMD.ABORT ends the job after its last complete line record. -/
  | compressorAbort (dt : Nat)
  /-- COMPRESSOR_LINE_DONE (R156). The compressor finishes and verifies a line record and appends it to the output
  chain. -/
  | compressorLineDone (dt : Nat) (fills bad : List Nat) (rawBad : Bool)
  /-- CMP_DESC_TAIL_WRITE (R158). Firmware appends output descriptors, which resumes a stalled compressor. -/
  | cmpDescTailWrite (dt : Nat) (tail : Word)
  /-- STORE_STREAM_RESET (R163). STORE_CTL.RESET zeroes the fill and drain marks of the selected stream, and is
  refused while the stream is in use. -/
  | storeStreamReset (dt : Nat)
  /-- STORE_STREAM_REWIND (R176). STORE_CTL.REWIND sets a failed stream's fill mark back to its failed record and
  discards the bytes after it. -/
  | storeStreamRewind (dt : Nat)
  /-- STORE_REISSUE (R177). STORE_CTL.REISSUE releases the re-issue of a plane's decode-error line. -/
  | storeReissue (dt planes : Nat)
  /-- STORE_SEAM (R177). STORE_CTL.SEAM puts the named planes into seam-stop with cause 9. -/
  | storeSeam (dt planes : Nat)
  /-- STORE_SEAM_CLR (R177). STORE_CTL.SEAM_CLR clears cause 9 of the named planes. -/
  | storeSeamClr (dt planes : Nat)
  /-- FIRE_FRAME_LAUNCH (R215). At its assigned instant, a line's fire frames and waveform bursts are launched on
  every port of the plane. -/
  | fireFrameLaunch (dt : Nat) (plane : Fin 8) (delays : List Nat)
  /-- FIRE_STROBE (R217). The fire strobe edge of a line is placed at its drop instant on the tap grid, after any
  floor or overlap recomputation. -/
  | fireStrobe (dt : Nat) (port : Fin 32)
  /-- NOZ_SH_LO_WRITE (R188). A write of NOZ_SH_LO writes a whole shadow nozzle table entry. -/
  | nozShLoWrite (dt : Nat) (value : Word)
  /-- NOZ_WEAR_LO_WRITE (R189). A write of NOZ_WEAR_LO sets the actuation counter of the selected nozzle. -/
  | nozWearLoWrite (dt : Nat) (value : Word)
  /-- PLOG_SENT_WRITE (R209). With LOCAL set, a write of PLOG_SENT releases print-log records. -/
  | plogSentWrite (dt : Nat) (value : Word)
  /-- PLOG_RING_REWRITE (R209). A write of PLOG_BASE or PLOG_SIZE empties the print log and counts the discarded
  records. -/
  | plogRingRewrite (dt : Nat) (reg : Fin 3) (value : Word)
  /-- STATUS_FRAME_RX (R251). A STATUS frame from a head module updates CACK and the eye fields and may carry a
  temperature report. -/
  | statusFrameRx (dt : Nat) (port : Fin 32) (frame : List Byte)
  /-- TEMP_VALID_TIMEOUT (R227). TMO beats without a temperature report clear TEMP_VALID, which is treated as above
  T_STOP. -/
  | tempValidTimeout (dt : Nat) (port : Fin 32)
  /-- HP_CUT_CMD (R231). HP_CTL.CUT cuts the head port with cause 3. -/
  | hpCutCmd (dt : Nat) (port : Fin 32)
  /-- HP_CUT_CLR (R232). HP_CTL.CUT_CLR restores a cut port when its link is up and its temperature is below T_RESUME.
  -/
  | hpCutClr (dt : Nat) (port : Fin 32)
  /-- REJECT_MARK_END (R233). REJ_WIDTH after it rose, REJECT_MARK falls unless an overflow holds it. -/
  | rejectMarkEnd (dt : Nat)
  /-- FIRE_REJ_REQ (R233). A write of FIRE_REJ_REQ marks a copy for rejection. -/
  | fireRejReq (dt : Nat) (epoch : Word)
  /-- FIRE_REJ_CLR (R234). FIRE_CTL.REJ_CLR clears REJ_OVF and releases REJECT_MARK. -/
  | fireRejClr (dt : Nat)
  /-- LANE_LOCK_CHANGE (R253). A receive lane gains or loses lock, which advances bring-up or takes the link down. -/
  | laneLockChange (dt : Nat) (link : Fin 34) (lane : Fin 2) (locked : Bool)
  /-- TRAIN_FRAME_RX (R253). A TRAIN frame advances polarity, lane order or tap training of the link. -/
  | trainFrameRx (dt : Nat) (link : Fin 34) (lane : Fin 2) (frame : List Byte) (rx : LaneArrival) (eyeW eyeH : Nat)
  /-- START_FRAME_RX (R254). A received START completes stay-port bring-up, or returns the link to stage 1 on a
  mismatch. -/
  | startFrameRx (dt : Nat) (link : Fin 34) (frame : List Byte)
  /-- LINK_TRAIN_TIMEOUT (R253). A bring-up stage not ended within TMO returns the link to stage 1. -/
  | linkTrainTimeout (dt : Nat) (link : Fin 34)
  /-- HPL_STATUS_TIMEOUT (R256). LNK_TMO beats without a valid STATUS take the head link down with cause 2. -/
  | hplStatusTimeout (dt : Nat) (port : Fin 32)
  /-- HPL_DOWN_CMD (R256). HPL_CFG.DOWN, or clearing EN, takes the head link down with cause 5. -/
  | hplDownCmd (dt : Nat) (port : Fin 32)
  /-- LINK_CYCLE (R249). At each link cycle, a CONTROL frame or NOP is sent on an up head link. -/
  | linkCycle (dt : Nat) (port : Fin 32)
  /-- SENSE_REPLY_RX (R252). A SENSE or REPLY frame is written into the back-channel ring, or dropped when it is full.
  -/
  | senseReplyRx (dt : Nat) (port : Fin 32) (frame : List Byte)
  /-- HPL_MBX_SEND (R249). HPL_MBX_CTL.SEND queues a mailbox message as CONTROL. -/
  | hplMbxSend (dt : Nat) (port : Fin 32)
  /-- MEMBER_FRAME_TX (R259). At B(k) + LAUNCH, a member sends its own MEMBER frame on both stay ports. -/
  | memberFrameTx (dt delayEast delayWest : Nat)
  /-- MEMBER_FRAME_RX (R260). A MEMBER frame is accepted or discarded as a duplicate, and forwarded when hops remain.
  -/
  | memberFrameRx (dt : Nat) (dir : Fin 2) (frame : List Byte) (hold : Nat)
  /-- CXP_HEARTBEAT_RX (R266). A camera heartbeat is received and clears HB_LOST. -/
  | cxpHeartbeatRx (dt : Nat) (cam : Fin 2)
  /-- CAM_HB_TIMEOUT (R266). No heartbeat for HB_TMO sets HB_LOST and raises the camera-lost event. -/
  | camHbTimeout (dt : Nat) (cam : Fin 2)
  /-- CAM_LINE_RX (R269). A whole camera line is matched to a trigger and checked, padded, cut or discarded. -/
  | camLineRx (dt : Nat) (cam : Fin 2) (age : Nat) (ok : Bool) (samples : List Nat)
  /-- CAM_LINE_TIMEOUT (R269). A trigger unmatched after LINE_TMO is matched to a padded MISSING line. -/
  | camLineTimeout (dt : Nat) (cam : Fin 2)
  /-- PIPELINE_LINE_DONE (R271). The inspection pipeline finishes a line and takes the next from a camera FIFO. -/
  | pipelineLineDone (dt : Nat)
  /-- CC_ACK_RX (R275). A control-channel acknowledgement completes a camera command or readies an exposure set. -/
  | ccAckRx (dt : Nat) (cam : Fin 2) (status : Nat) (value : Word)
  /-- CC_TIMEOUT (R276). A camera write not acknowledged within 1 ms fails the exposure set. -/
  | ccTimeout (dt : Nat) (cam : Fin 2)
  /-- CAM_CC_GO (R264). CAM_CC_CTL.GO issues a camera control-channel read or write. -/
  | camCcGo (dt : Nat) (cam : Fin 2) (write : Bool)
  /-- STROBE_PULSE (R277). A strobe output starts or ends its pulse after a trigger. -/
  | strobePulse (dt : Nat) (out : Fin 4)
  /-- VRD_HCLR (R289). VRD_CTL.HCLR clears a view's verdict history. -/
  | vrdHclr (dt views : Nat)
  /-- VRD_SENT_WRITE (R290). With LOCAL set, a write of VRD_SENT releases verdict records. -/
  | vrdSentWrite (dt : Nat) (value : Word)
  /-- ADC_CONVERSION (R297). The ADC converts the next enabled channel and updates its averaged value. -/
  | adcConversion (dt code : Nat)
  /-- FIN_EDGE (R299). A rising edge on a FIN input is timestamped. -/
  | finEdge (dt : Nat) (input : Fin 4)
  /-- LOOP_RST (R302). LOOP_CTL.RST resets a loop's states at its next sample. -/
  | loopRst (dt : Nat) (loops : Word)
  /-- PWM_PERIOD_START (R308). A PWM output starts a period and takes any new PERIOD and DUTY values. -/
  | pwmPeriodStart (dt : Nat) (out : Fin 24)
  /-- GPIO_OUT_WRITE (R310). A write of GPIO_OUT sets the levels driven on the enabled pins. -/
  | gpioOutWrite (dt : Nat) (value : Word)
  /-- GPIO_SET (R310). GPIO_SET sets the bits of GPIO_OUT written with 1. -/
  | gpioSet (dt : Nat) (value : Word)
  /-- GPIO_CLR (R310). GPIO_CLR clears the bits of GPIO_OUT written with 1. -/
  | gpioClr (dt : Nat) (value : Word)
  /-- GPIO_EDGE (R311). An accepted edge on a GPIO pin sets its event bit. -/
  | gpioEdge (dt : Nat) (pin : Fin 16) (level : Bool)
  /-- STP_MOVE (R313). STP_CMD.MOVE starts or retargets a move to an absolute or relative target. -/
  | stpMove (dt : Nat) (axis : Fin 8) (rel : Bool)
  /-- STP_STOP (R315). STP_CMD.STOP stops the step pulses at once, setting UNCERTAIN above VSAFE. -/
  | stpStop (dt : Nat) (axis : Fin 8)
  /-- STP_HOME (R317). STP_CMD.HOME starts homing toward HOME_DIR at homing current. -/
  | stpHome (dt : Nat) (axis : Fin 8)
  /-- STP_SET_POS (R315). STP_CMD.SET_POS loads STP_POS from STP_TARGET at standstill and clears UNCERTAIN. -/
  | stpSetPos (dt : Nat) (axis : Fin 8)
  /-- STP_CLR_FAULT (R316). STP_CMD.CLR_FAULT clears an axis fault. -/
  | stpClrFault (dt : Nat) (axis : Fin 8)
  /-- STP_DISABLE (R312). Clearing STP_CFG.EN deactivates ENA, stops a moving axis and sets UNCERTAIN. -/
  | stpDisable (dt : Nat) (axis : Fin 8)
  /-- STEP_PULSE (R314). The axis timer expires, a STEP edge is issued and the S-curve generator computes the next
  interval. -/
  | stepPulse (dt : Nat) (axis : Fin 8)
  /-- STALL_INPUT (R316). STALL holds its active level for 1 µs. -/
  | stallInput (dt : Nat) (axis : Fin 8)
  /-- BUS_TRANSACTION (R371). A bus master issues a transaction, which Shroud checks and the target performs. -/
  | busTransaction (dt : Nat) (master : Fin 48) (kind : Fin 3) (addr size data : Nat)
  /-- MEMORY_READ_COMPLETE (R335). A memory read returns and its ECC and address hash are checked and corrected. -/
  | memoryReadComplete (dt : Nat) (cls : Fin 15) (master : Fin 48) (addr word check hash word2 check2 hash2 : Nat)
  /-- DRAM_REFRESH (R327). A same-bank refresh falls due at tREFI. -/
  | dramRefresh (dt delay : Nat)
  /-- DRAM_RATE_POLL (R327). Every 16 ms the refresh-rate field of each rank is read and tREFI is halved while any
  rank runs hot. -/
  | dramRatePoll (dt : Nat) (hot : Bool)
  /-- DRAM_TRAIN (R328). DPHY_CTL.TRAIN starts training of every rank. -/
  | dramTrain (dt : Nat)
  /-- DRAM_TRAIN_DONE (R328). Training completes with READY set, or fails at a stage and lane. -/
  | dramTrainDone (dt : Nat) (fail : Option (Nat × Nat)) (eyes : List Word)
  /-- DRAM_TRACK (R329). Every TRK_MS the DQS oscillator is run and write delays are adjusted. -/
  | dramTrack (dt : Nat) (rank : Fin 2) (delta : Int)
  /-- DRAM_FCHG (R330). DRAMC_FCHG.GO starts a change of transfer rate, or is refused while a plan is active. -/
  | dramFchg (dt target : Nat)
  /-- DRAM_FCHG_DONE (R330). The rate change completes and held requests are released. -/
  | dramFchgDone (dt : Nat) (fail : Option (Nat × Nat)) (eyes : List Word)
  /-- DRAM_POWER_DOWN (R331). A rank idle for PD_IDLE enters power-down. -/
  | dramPowerDown (dt : Nat) (rank : Fin 2)
  /-- RH_WINDOW_RENEW (R333). Every 32 ms the row-activate trackers are renewed. -/
  | rhWindowRenew (dt : Nat)
  /-- DRAM_SCRUB (R337). The scrubber reads and corrects the next installed line. -/
  | dramScrub (dt : Nat)
  /-- ECC_LEAK (R340). Every LEAK ms each bucket level decreases by 1. -/
  | eccLeak (dt : Nat) (cls : Fin 15)
  /-- REMAP_INSTALL (R341). REMAP_CTL.INSTALL maps an index to a spare word or line. -/
  | remapInstall (dt : Nat)
  /-- REMAP_REMOVE (R341). REMAP_CTL.REMOVE copies a spare back and disables its entry. -/
  | remapRemove (dt : Nat)
  /-- REMAP_AUTO_INSTALL (R342). With AUTO set, the device installs a spare for a failing index after the access. -/
  | remapAutoInstall (dt : Nat) (cls : Fin 15) (index : Nat)
  /-- EVT_DOORBELL (R349). A write of EVT_DOORBELL rings a shared software source. -/
  | evtDoorbell (dt : Nat) (source : Fin 512)
  /-- EVTC_DOORBELL (R349). A write of EVTC_DOORBELL rings a private source of the core. -/
  | evtcDoorbell (dt : Nat) (core : Fin 4) (source : Fin 512)
  /-- EVENT_ACCEPT (R354). A core accepts the presented source and branches to its vector. -/
  | eventAccept (dt : Nat) (core : Fin 4) (ret : Nat)
  /-- EVTC_EOI (R356). A write of EVTC_EOI completes the source in service. -/
  | evtcEoi (dt : Nat) (core : Fin 4) (source : Fin 512)
  /-- EVENT_RETURN (R356). The handler's return instruction restores the address and level and sets EE. -/
  | eventReturn (dt : Nat) (core : Fin 4)
  /-- EVT_MSET (R357). EVT_MSET masks shared sources and withdraws a presented one. -/
  | evtMset (dt : Nat) (word : Fin 8) (mask : Word)
  /-- EVT_MCLR (R357). EVT_MCLR unmasks shared sources. -/
  | evtMclr (dt : Nat) (word : Fin 8) (mask : Word)
  /-- EVTC_MSET (R357). EVTC_MSET masks private sources. -/
  | evtcMset (dt : Nat) (core : Fin 4) (mask : Word)
  /-- EVTC_MCLR (R357). EVTC_MCLR unmasks private sources. -/
  | evtcMclr (dt : Nat) (core : Fin 4) (mask : Word)
  /-- EVT_ROUTE_WRITE (R351). A write of EVT_ROUTE moves a shared source to another core. -/
  | evtRouteWrite (dt : Nat) (master : Fin 48) (source : Fin 256) (value : Word)
  /-- CORE_WAIT (R359). A core executes WAIT and stops its clock until a source becomes presentable. -/
  | coreWait (dt : Nat) (core : Fin 4)
  /-- WAKE_EDGE (R359). A rising edge on a WAKE input is latched, rings its source and may end standby. -/
  | wakeEdge (dt : Nat) (input : Fin 8)
  /-- WDOG_KICK (R364). A write of WDOG_KICK reloads a core's watchdog. -/
  | wdogKick (dt : Nat) (core : Fin 4)
  /-- WDOG_EXPIRY (R364). A watchdog reaching 0 barks the first time and bites the next. -/
  | wdogExpiry (dt : Nat) (core : Fin 4)
  /-- MGMT_RESET_REQUEST (R365). WDOG_MCTL.MRST requests a MGMT reset with cause 1. -/
  | mgmtResetRequest (dt : Nat) (master : Fin 48)
  /-- MGMT_RESET_APPLY (R366). Once accepted transactions complete, the MGMT reset is applied to the cores and event
  pages. -/
  | mgmtResetApply (dt : Nat)
  /-- BLOCK_DISABLE (R361). Clearing PG_CTL.EN puts a block into STOPPING, or is refused with BOUND. -/
  | blockDisable (dt : Nat) (page : Fin 128)
  /-- BLOCK_ENABLE (R361). Setting PG_CTL.EN starts the block, or is held until IDLE. -/
  | blockEnable (dt : Nat) (page : Fin 128)
  /-- BLOCK_ABORT (R362). STOP_MODE aborts the block at the next clock and records the units discarded. -/
  | blockAbort (dt : Nat) (page : Fin 128)
  /-- BLOCK_IDLE (R361). A stopping block finishes its unit of work and reports IDLE. -/
  | blockIdle (dt : Nat) (page : Fin 128)
  /-- SHROUD_ENABLE (R373). Writing SHROUD_CFG.EN = 1 enables the Shroud checks. -/
  | shroudEnable (dt : Nat) (master : Fin 48)
  /-- SHROUD_APPLY (R374). SHROUD_RCTL.APPLY copies RDATA into the selected region in one step. -/
  | shroudApply (dt : Nat) (master : Fin 48)
  /-- SHROUD_READ (R374). SHROUD_RCTL.READ loads RDATA from the selected region. -/
  | shroudRead (dt : Nat) (master : Fin 48)
  /-- SHROUD_RELEASE (R378). SHROUD_RELEASE releases a cleated master to resume where it stopped. -/
  | shroudRelease (dt : Nat) (master released : Fin 48)
  /-- SHROUD_RELEASE_RESET (R378). SHROUD_RELEASE with RESET resets the cleated master before it resumes. -/
  | shroudReleaseReset (dt : Nat) (master released : Fin 48)
  /-- TAPCAL_WINDOW (R384). At the end of a calibration window, one tap's delay is measured and accepted or rejected.
  -/
  | tapcalWindow (dt : Nat) (port : Fin 32) (delay : Nat)
  /-- ENC_PAIR_SWAP (R386). Every SWAP_MS the sin/cos converter pairs swap roles, or the swap is refused. -/
  | encPairSwap (dt : Nat) (input : Fin 2) (meanSin meanCos : Int)
  /-- ADC_BANK_CAL (R387). The ADC bank starts its periodic calibration and marks its values stale. -/
  | adcBankCal (dt : Nat)
  /-- ADC_CAL_CMD (R388). TRIM_CTL.ADC_CAL starts an ADC bank calibration on command. -/
  | adcCalCmd (dt : Nat)
  /-- ADC_BANK_CAL_DONE (R387). The ADC bank calibration ends and fresh values clear STALE. -/
  | adcBankCalDone (dt : Nat)
  /-- TJ_SENSOR_CAL (R387). Once a second, one junction sensor calibrates its offset. -/
  | tjSensorCal (dt : Nat)
  /-- SUPPLY_CONV_CAL (R387). Every 10 s the supply measuring converters calibrate. -/
  | supplyConvCal (dt : Nat)
  /-- WEAR_SNAP (R392). WEAR_CTL.SNAP copies the wear table and step counters to DRAM. -/
  | wearSnap (dt : Nat)
  /-- WEAR_RESTORE (R392). WEAR_CTL.RESTORE loads the counters from the image. -/
  | wearRestore (dt : Nat)
  /-- WEAR_COPY_DONE (R392). A snapshot or restore completes and BUSY clears. -/
  | wearCopyDone (dt : Nat)
  /-- WEAR_EVALUATION (R393). Every 3,600 s the wear indicators and their life forecasts are evaluated. -/
  | wearEvaluation (dt : Nat) (monitors : List Nat)
  /-- AGEING_TICK (R395). Each powered second adds the weight of the junction band to the ageing integrator. -/
  | ageingTick (dt : Nat)
  /-- REEF_ENTER (R404). A supervised rail below its warning level enters reef, is reported, and the lines launched
  from then on are tagged. -/
  | reefEnter (dt : Nat) (rail : Fin 2)
  /-- REEF_RECOVER (R405). A rail held above warning plus hysteresis for 2 µs recovers and ends its episode. -/
  | reefRecover (dt : Nat) (rail : Fin 2)
  /-- REEF_HOLD_EXCEEDED (R406). An episode lasting T_HOLD sets HOLD_EXC and puts every plane into seam-stop with
  cause 8. -/
  | reefHoldExceeded (dt : Nat) (rail : Fin 2)
  /-- RAIL_RESET (R407). A supervised rail below its reset level for the filter time causes a SYS reset. -/
  | railReset (dt : Nat) (rail : Fin 2)
  /-- VBAT_POR (R408). The standby island's supply rising resets the standby island. -/
  | vbatPor (dt : Nat)
  /-- POR_RELEASE (R402). Power-on reset is released 2 ms after rails, detectors, RESET_N and PLLs are good. -/
  | porRelease (dt : Nat)
  /-- RESET_PIN (R447). RESET_N held low for 1 µs causes a SYS reset. -/
  | resetPin (dt : Nat)
  /-- SYS_SOFT_RESET (R408). SYS_CTL.SRST requests a SYS reset. -/
  | sysSoftReset (dt : Nat) (master : Fin 48)
  /-- BLOCK_RESET (R409). SYS_BRST.GO resets the block of the named page, unless it is bound or protected. -/
  | blockReset (dt : Nat) (master : Fin 48) (page : Fin 256)
  /-- REF_LOSS (R400). A REFIN loss holds the PLLs, stops REFOUT and takes the lane and Ethernet links down. -/
  | refLoss (dt : Nat)
  /-- REF_RESTORE (R400). REFIN valid for 1 ms clears REF_LOST and returns the PLLs to locked operation. -/
  | refRestore (dt : Nat)
  /-- PLL_UNLOCK (R400). A PLL losing lock with REFIN valid clears its LOCK bit and raises the pll-unlock event. -/
  | pllUnlock (dt : Nat) (pll : Fin 4) (locked : Bool)
  /-- PLL_RELOCK_TIMEOUT (R400). A PLL not locked again within 100 µs causes a SYS reset. -/
  | pllRelockTimeout (dt : Nat) (pll : Fin 4)
  /-- CLK_MZ_WRITE (R401). A write of CLK_MZ.SEL changes the management clock. -/
  | clkMzWrite (dt : Nat) (value : Word)
  /-- PWR_OE_WRITE (R412). A write of PWR_OE enables or releases control output groups. -/
  | pwrOeWrite (dt : Nat) (value : Word)
  /-- STANDBY_ENTER (R415). PWR_SLEEP.SLEEP releases the control outputs and starts entry into standby. -/
  | standbyEnter (dt : Nat)
  /-- PWR_EN_LOW (R415). 100 µs after SLEEP, PWR_EN falls and STANDBY is recorded. -/
  | pwrEnLow (dt : Nat)
  /-- WAKE_TIMER_EXPIRY (R415). The wake timer expires and drives PWR_EN high. -/
  | wakeTimerExpiry (dt : Nat)
  /-- BOOT_JUMP (R419). The boot ROM validates the flash slots and jumps to the accepted image, or halts. -/
  | bootJump (dt : Nat) (slotA slotB : List Byte)
  /-- BOOT_WATCHDOG_EXPIRY (R419). The boot ROM not jumping within 1 s causes a SYS reset. -/
  | bootWatchdogExpiry (dt : Nat)
  /-- ROLLBACK_ADVANCE (R420). BOOT_RBK.ADV burns rollback fuses up to TARGET. -/
  | rollbackAdvance (dt : Nat) (master : Fin 48) (target : Fin 128)
  /-- BOOT_VERIFY (R421). BOOT_VERIFY.GO starts verification of the warm image in DRAM. -/
  | bootVerify (dt : Nat) (master : Fin 48)
  /-- BOOT_VERIFY_DONE (R421). Warm image verification completes with RESULT and VALID. -/
  | bootVerifyDone (dt : Nat)
  /-- REGISTER_WRITE (R5). A write to a register that has no row of its own takes effect under its access code and the
  shared refusal rules. -/
  | registerWrite (dt : Nat) (master : Fin 48) (addr : Nat) (value : Word)
  /-- GWEAT_FRAME_DISCARD (R248). A frame on a head-port or stay-port lane is discarded and counted in HPL_CNT.BAD or
  STAY_CNT.BAD when its TYPE is unknown or its CRC-32C fails, or when a coding error under R240 breaks it off. -/
  | gweatFrameDiscard (dt : Nat) (rx : LinkBits)
  /-- CXP_LINK_CHANGE (R264). A CoaXPress downlink connection of a camera port comes up or goes down, which sets or
  clears CAM_STAT.LINK. -/
  | cxpLinkChange (dt : Nat) (cam : Fin 2) (conn : Fin 4) (up : Bool)
  /-- TJ_SENSOR_CAL_DONE (R387). A junction sensor's 100 µs offset calibration ends, and its first fresh value clears
  TRIM_TJ[i].STALE and TRIM_STALE.TJ. -/
  | tjSensorCalDone (dt value : Nat)
  /-- SUPPLY_CONV_CAL_DONE (R387). The 50 µs calibration of the supply measuring converters ends, and the first fresh
  readings clear TRIM_STALE.SUPPLY. -/
  | supplyConvCalDone (dt : Nat) (millivolts : List Nat)
  /-- SYS_RESET_RELEASE (R407). A held SYS reset is released 1 ms after the supervised rail has risen above its
  warning level plus hysteresis, after which core 0 runs the boot ROM and the boot watchdog starts. -/
  | sysResetRelease (dt : Nat)
  deriving DecidableEq, Repr

/-- The free-running time in ns from the command before to this one (assumption 1). -/
def Instr.dt : Instr → Nat
  | .beatBoundary dt _ _ => dt
  | .commitCancel dt _ => dt
  | .commitImmediate dt _ => dt
  | .commitNextBeat dt _ => dt
  | .commitAtEpoch dt _ _ => dt
  | .planCheckDone dt => dt
  | .planStopEpoch dt => dt
  | .planStopLine dt => dt
  | .planEnd dt => dt
  | .encSample dt _ _ _ _ => dt
  | .qdTransition dt _ _ _ _ => dt
  | .camTriggerHeld dt _ => dt
  | .encArm dt _ => dt
  | .encClrFault dt _ => dt
  | .encLoad dt _ => dt
  | .levRestore dt _ => dt
  | .vencSampleRx dt _ => dt
  | .vencLost dt => dt
  | .ptpMessageRx dt _ _ => dt
  | .ptpMessageTx dt _ _ => dt
  | .timeSet dt => dt
  | .timeActDomWrite dt _ => dt
  | .domainLost dt _ => dt
  | .tsqData0Read dt => dt
  | .tpulseEdge dt _ => dt
  | .ethRxFrame dt _ _ _ _ => dt
  | .ethLinkChange dt _ _ _ _ _ => dt
  | .stbyDupTimeout dt => dt
  | .snapshotComplete arrival => arrival.dt
  | .pathEngineFault dt _ => dt
  | .pathSwitchCmd dt => dt
  | .pathDrillTimer dt => dt
  | .pathDrillNow dt => dt
  | .drillPostTimeout dt => dt
  | .txrTailWrite dt _ => dt
  | .ethTxFrame dt _ => dt
  | .ethTxDone dt _ => dt
  | .helloOpen dt _ _ _ _ _ _ _ => dt
  | .helloProbe dt _ _ _ _ _ _ => dt
  | .helloClose dt _ _ _ _ _ _ => dt
  | .planLoad dt _ _ _ _ _ _ => dt
  | .tableWrite dt _ _ _ _ _ _ => dt
  | .layerSegment dt _ _ _ _ _ _ => dt
  | .copyOrder dt _ _ _ _ _ _ => dt
  | .epochCommit dt _ _ _ _ _ _ => dt
  | .ackReceived dt _ _ _ _ _ _ => dt
  | .nakReceived dt _ _ _ _ _ _ => dt
  | .creditReceived dt _ _ _ _ _ _ => dt
  | .regRead dt _ _ _ _ _ _ => dt
  | .regWrite dt _ _ _ _ _ _ => dt
  | .doorbell dt _ _ _ _ _ _ => dt
  | .position dt _ _ _ _ _ _ => dt
  | .ackTimer dt _ => dt
  | .nakHoldTimer dt _ => dt
  | .jtpRetransmitTimer dt _ => dt
  | .reportSend dt _ _ _ => dt
  | .mtxTailWrite dt _ => dt
  | .keyLoad dt _ _ _ => dt
  | .sessionEnable dt _ => dt
  | .sessionDisable dt _ => dt
  | .compressorStart dt _ => dt
  | .compressorAbort dt => dt
  | .compressorLineDone dt _ _ _ => dt
  | .cmpDescTailWrite dt _ => dt
  | .storeStreamReset dt => dt
  | .storeStreamRewind dt => dt
  | .storeReissue dt _ => dt
  | .storeSeam dt _ => dt
  | .storeSeamClr dt _ => dt
  | .fireFrameLaunch dt _ _ => dt
  | .fireStrobe dt _ => dt
  | .nozShLoWrite dt _ => dt
  | .nozWearLoWrite dt _ => dt
  | .plogSentWrite dt _ => dt
  | .plogRingRewrite dt _ _ => dt
  | .statusFrameRx dt _ _ => dt
  | .tempValidTimeout dt _ => dt
  | .hpCutCmd dt _ => dt
  | .hpCutClr dt _ => dt
  | .rejectMarkEnd dt => dt
  | .fireRejReq dt _ => dt
  | .fireRejClr dt => dt
  | .laneLockChange dt _ _ _ => dt
  | .trainFrameRx dt _ _ _ _ _ _ => dt
  | .startFrameRx dt _ _ => dt
  | .linkTrainTimeout dt _ => dt
  | .hplStatusTimeout dt _ => dt
  | .hplDownCmd dt _ => dt
  | .linkCycle dt _ => dt
  | .senseReplyRx dt _ _ => dt
  | .hplMbxSend dt _ => dt
  | .memberFrameTx dt _ _ => dt
  | .memberFrameRx dt _ _ _ => dt
  | .cxpHeartbeatRx dt _ => dt
  | .camHbTimeout dt _ => dt
  | .camLineRx dt _ _ _ _ => dt
  | .camLineTimeout dt _ => dt
  | .pipelineLineDone dt => dt
  | .ccAckRx dt _ _ _ => dt
  | .ccTimeout dt _ => dt
  | .camCcGo dt _ _ => dt
  | .strobePulse dt _ => dt
  | .vrdHclr dt _ => dt
  | .vrdSentWrite dt _ => dt
  | .adcConversion dt _ => dt
  | .finEdge dt _ => dt
  | .loopRst dt _ => dt
  | .pwmPeriodStart dt _ => dt
  | .gpioOutWrite dt _ => dt
  | .gpioSet dt _ => dt
  | .gpioClr dt _ => dt
  | .gpioEdge dt _ _ => dt
  | .stpMove dt _ _ => dt
  | .stpStop dt _ => dt
  | .stpHome dt _ => dt
  | .stpSetPos dt _ => dt
  | .stpClrFault dt _ => dt
  | .stpDisable dt _ => dt
  | .stepPulse dt _ => dt
  | .stallInput dt _ => dt
  | .busTransaction dt _ _ _ _ _ => dt
  | .memoryReadComplete dt _ _ _ _ _ _ _ _ _ => dt
  | .dramRefresh dt _ => dt
  | .dramRatePoll dt _ => dt
  | .dramTrain dt => dt
  | .dramTrainDone dt _ _ => dt
  | .dramTrack dt _ _ => dt
  | .dramFchg dt _ => dt
  | .dramFchgDone dt _ _ => dt
  | .dramPowerDown dt _ => dt
  | .rhWindowRenew dt => dt
  | .dramScrub dt => dt
  | .eccLeak dt _ => dt
  | .remapInstall dt => dt
  | .remapRemove dt => dt
  | .remapAutoInstall dt _ _ => dt
  | .evtDoorbell dt _ => dt
  | .evtcDoorbell dt _ _ => dt
  | .eventAccept dt _ _ => dt
  | .evtcEoi dt _ _ => dt
  | .eventReturn dt _ => dt
  | .evtMset dt _ _ => dt
  | .evtMclr dt _ _ => dt
  | .evtcMset dt _ _ => dt
  | .evtcMclr dt _ _ => dt
  | .evtRouteWrite dt _ _ _ => dt
  | .coreWait dt _ => dt
  | .wakeEdge dt _ => dt
  | .wdogKick dt _ => dt
  | .wdogExpiry dt _ => dt
  | .mgmtResetRequest dt _ => dt
  | .mgmtResetApply dt => dt
  | .blockDisable dt _ => dt
  | .blockEnable dt _ => dt
  | .blockAbort dt _ => dt
  | .blockIdle dt _ => dt
  | .shroudEnable dt _ => dt
  | .shroudApply dt _ => dt
  | .shroudRead dt _ => dt
  | .shroudRelease dt _ _ => dt
  | .shroudReleaseReset dt _ _ => dt
  | .tapcalWindow dt _ _ => dt
  | .encPairSwap dt _ _ _ => dt
  | .adcBankCal dt => dt
  | .adcCalCmd dt => dt
  | .adcBankCalDone dt => dt
  | .tjSensorCal dt => dt
  | .supplyConvCal dt => dt
  | .wearSnap dt => dt
  | .wearRestore dt => dt
  | .wearCopyDone dt => dt
  | .wearEvaluation dt _ => dt
  | .ageingTick dt => dt
  | .reefEnter dt _ => dt
  | .reefRecover dt _ => dt
  | .reefHoldExceeded dt _ => dt
  | .railReset dt _ => dt
  | .vbatPor dt => dt
  | .porRelease dt => dt
  | .resetPin dt => dt
  | .sysSoftReset dt _ => dt
  | .blockReset dt _ _ => dt
  | .refLoss dt => dt
  | .refRestore dt => dt
  | .pllUnlock dt _ _ => dt
  | .pllRelockTimeout dt _ => dt
  | .clkMzWrite dt _ => dt
  | .pwrOeWrite dt _ => dt
  | .standbyEnter dt => dt
  | .pwrEnLow dt => dt
  | .wakeTimerExpiry dt => dt
  | .bootJump dt _ _ => dt
  | .bootWatchdogExpiry dt => dt
  | .rollbackAdvance dt _ _ => dt
  | .bootVerify dt _ => dt
  | .bootVerifyDone dt => dt
  | .registerWrite dt _ _ _ => dt
  | .gweatFrameDiscard dt _ => dt
  | .cxpLinkChange dt _ _ _ => dt
  | .tjSensorCalDone dt _ => dt
  | .supplyConvCalDone dt _ => dt
  | .sysResetRelease dt => dt

end Sys2Proof
end

