-- ==== Sys2Proof/Config.lean ====
section
/-! DEFINITION. What one device has that the spec leaves to it: fuse and OTP contents, and the free values. Every
constant here is opaque: it has no value a proof could see, and a claim holds whatever it is. -/
namespace Sys2Proof.Config

/-- A fresh value the spec leaves open, by the step counter `Dev.freeCtr` that each use advances (log entry 11). -/
opaque freeValue : Nat → Nat

/-- SYS_UID, the 64-bit identifier in OTP (R461). -/
opaque uid : Fin (0xFFFFFFFFFFFFFFFD + 1)

/-- SYS_UID as it reads: never 0, never all ones (R461). -/
def deviceUid : Nat := uid.val + 1

/-- The die trim code of index `i` in OTP (R390). -/
opaque otpDieTrim : Nat → Nat

/-- The SHA-384 hash of key slot `i` in OTP, 48 bytes read most significant first (R419). -/
opaque otpKeyHash : Nat → Nat

/-- Whether OTP marks key slot `i` revoked (R419). -/
opaque otpKeyRevoked : Nat → Bool

/-- The number of rollback fuses burnt when the device left the factory (R420). -/
opaque otpRollback : Nat

/-- What the boot ROM holds at byte address `a` of its 128 KB: the spec does not give its contents (R422). -/
opaque bootRom : Nat → BitVec 8

/-- Where in its triangle the down-spread of the lane reference stands at free-running time 0, ps: the spec fixes no phase
(R237). -/
opaque sscPhase : Nat

/-- The time to live and the hop limit of the IP datagrams the device builds: the spec gives none (R86). -/
opaque ipTtl : Nat

end Sys2Proof.Config
end

