-- ==== Sys2Proof/Machine/Cells.lean ====
section
/-! DEFINITION. The named operations on a sparse table (`Cells`): read, write, and the canonical form. Registers,
DRAM and every on-chip table go through these. -/
namespace Sys2Proof.Machine

/-- What key `k` reads as; `d` is what an unlisted key reads as. -/
def cellGet {α : Type} (d : α) : Cells α → Nat → α
  | [], _ => d
  | (k', v) :: m, k => if k = k' then v else cellGet d m k

/-- The table without key `k`. -/
def cellErase {α : Type} : Cells α → Nat → Cells α
  | [], _ => []
  | (k', v) :: m, k => if k = k' then cellErase m k else (k', v) :: cellErase m k

/-- The table with `v` at key `k`, keys kept rising. -/
def cellInsert {α : Type} : Cells α → Nat → α → Cells α
  | [], k, v => [(k, v)]
  | (k', w) :: m, k, v =>
    if k < k' then (k, v) :: (k', w) :: m
    else if k = k' then (k, v) :: m
    else (k', w) :: cellInsert m k v

/-- Write `v` at key `k`: writing what an unlisted key reads as removes the entry, so equal tables are equal data. -/
def cellSet {α : Type} [DecidableEq α] (d : α) (m : Cells α) (k : Nat) (v : α) : Cells α :=
  if v = d then cellErase m k else cellInsert m k v

/-- Every key of `m` lies above `b` and keys rise. -/
def cellRising {α : Type} (b : Nat) : Cells α → Bool
  | [] => true
  | (k, _) :: m => decide (b < k) && cellRising k m

/-- The canonical form: keys strictly rising and no entry equal to what its key reads as when unlisted. -/
def cellWf {α : Type} [DecidableEq α] (d : Nat → α) : Cells α → Bool
  | [] => true
  | (k, v) :: m => cellRising k m && decide (v ≠ d k) && m.all (fun e => decide (e.2 ≠ d e.1))

/-- Every listed key of `m` that lies in `[lo, hi)`, removed. -/
def cellEraseRange {α : Type} (m : Cells α) (lo hi : Nat) : Cells α :=
  m.filter (fun e => e.1 < lo || hi ≤ e.1)

end Sys2Proof.Machine
end

