-- ==== Sys2Proof/Machine/Bits.lean ====
section
/-! DEFINITION. Bit fields, signed values, saturation, byte order and the small numeric helpers the chapters share
(R3, R4, sat_u and sat_s of chapter 00, the window comparison of R456). -/
namespace Sys2Proof.Machine

/-- Bits `[lo + w − 1 : lo]` of `x` (R3). -/
def bits (x lo w : Nat) : Nat := x / 2 ^ lo % 2 ^ w

/-- `x` with bits `[lo + w − 1 : lo]` replaced by the low `w` bits of `v`. -/
def setBits (x lo w v : Nat) : Nat := x - bits x lo w * 2 ^ lo + (v % 2 ^ w) * 2 ^ lo

/-- Bit `i` of `x`. -/
def bit (x i : Nat) : Bool := x.testBit i

/-- `x` with bit `i` set. -/
def setBit (x i : Nat) : Nat := x ||| 2 ^ i

/-- `x` with the bits of `m` cleared. -/
def clearBits (x m : Nat) : Nat := x - (x &&& m)

def b2n (b : Bool) : Nat := if b then 1 else 0

/-- The two's complement value of the low `w` bits of `x` (chapter 00). -/
def toSigned (w x : Nat) : Int :=
  let y := x % 2 ^ w
  if 2 * y < 2 ^ w then (y : Int) else (y : Int) - (2 ^ w : Nat)

/-- The low `w` bits of `x` as a two's complement word. -/
def ofSigned (w : Nat) (x : Int) : Nat := (x % ((2 ^ w : Nat) : Int)).toNat

/-- sat_u of chapter 00. -/
def satU (w : Nat) (x : Int) : Nat := if x < 0 then 0 else min x.toNat (2 ^ w - 1)

/-- sat_s of chapter 00. -/
def satS (w : Nat) (x : Int) : Int :=
  let h : Int := ((2 ^ (w - 1) : Nat) : Int)
  if x < -h then -h else if h - 1 < x then h - 1 else x

/-- A counter of `w` bits that saturates. -/
def satInc (w x n : Nat) : Nat := min (x + n) (2 ^ w - 1)

def ceilDiv (a b : Nat) : Nat := (a + b - 1) / b

/-- `x` precedes `y` modulo 2^32 (R456). -/
def precedes (x y : Nat) : Bool :=
  let d := (y + 2 ^ 32 - x % 2 ^ 32) % 2 ^ 32
  decide (1 ≤ d) && decide (d < 2 ^ 31)

/-- `x` follows `y` modulo 2^32 (R456). -/
def follows (x y : Nat) : Bool := precedes y x

/-- The value of `bs` read with its first byte least significant: DRAM structures and tables (R4). -/
def leNat : List Byte → Nat
  | [] => 0
  | b :: bs => b.toNat + 256 * leNat bs

/-- The value of `bs` read with its first byte most significant: the wire (R4). -/
def beNat (bs : List Byte) : Nat := bs.foldl (fun a b => a * 256 + b.toNat) 0

/-- `n` bytes of `x`, least significant first. -/
def leBytes : Nat → Nat → List Byte
  | 0, _ => []
  | n + 1, x => BitVec.ofNat 8 x :: leBytes n (x / 256)

/-- `n` bytes of `x`, most significant first. -/
def beBytes (n x : Nat) : List Byte := (leBytes n x).reverse

/-- The big-endian value of `n` bytes of `bs` from byte `o`; bytes past the end read 0. -/
def beAt (bs : List Byte) (o n : Nat) : Nat :=
  let c := (bs.drop o).take n
  beNat c * 256 ^ (n - c.length)

/-- The little-endian value of `n` bytes of `bs` from byte `o`; bytes past the end read 0. -/
def leAt (bs : List Byte) (o n : Nat) : Nat := leNat ((bs.drop o).take n)

def byteAt (bs : List Byte) (o : Nat) : Nat := ((bs.drop o).headD 0).toNat

/-- The indexes below `n` whose bit is set in `m`, rising. -/
def bitsOf (n m : Nat) : List Nat := (List.range n).filter (fun i => m.testBit i)

/-- Fold `f` over `0 … n − 1`. -/
def forN {α : Type} (n : Nat) (f : Nat → α → α) (a : α) : α := (List.range n).foldl (fun x i => f i x) a

/-- Fold `f` over a list, first element first. -/
def forL {β α : Type} (l : List β) (f : β → α → α) (a : α) : α := l.foldl (fun x i => f i x) a

def whenB {α : Type} (c : Bool) (f : α → α) (a : α) : α := if c then f a else a

/-- How many bits of `x` below `n` are set. -/
def popCount (n x : Nat) : Nat := (bitsOf n x).length

/-- Whether `x` is a power of 2. -/
def isPow2 (x : Nat) : Bool := (List.range 40).any (fun k => x == 2 ^ k)

end Sys2Proof.Machine
end

