-- ==== Sys2Proof/Machine/RegMap.lean ====
section
/-! DEFINITION. The register map: every register of every page of the spec's register tables (chapters 02 to 19),
its offset, its fields, their access codes (R5), reset values and ranges (R458), and the page index of R425. One
`RegDesc` per register or register array; `R.<NAME>` is a register's byte offset in the register window
(page × 0x1000 + offset), `F.<NAME>_<FIELD>` one of its fields. Fields the tables leave out are reserved (R6). -/
namespace Sys2Proof.Machine

abbrev R.SYS_CTL : Nat := 0x40
abbrev F.SYS_CTL_SRST : RegField := ⟨R.SYS_CTL, 0, 1⟩
abbrev R.SYS_BRST : Nat := 0x44
abbrev F.SYS_BRST_PAGE : RegField := ⟨R.SYS_BRST, 0, 8⟩
abbrev F.SYS_BRST_GO : RegField := ⟨R.SYS_BRST, 8, 1⟩
abbrev R.SYS_UID_LO : Nat := 0x48
abbrev F.SYS_UID_LO_UID : RegField := ⟨R.SYS_UID_LO, 0, 32⟩
abbrev R.SYS_UID_HI : Nat := 0x4c
abbrev F.SYS_UID_HI_UID : RegField := ⟨R.SYS_UID_HI, 0, 32⟩
abbrev R.PWR_OE : Nat := 0x1040
abbrev F.PWR_OE_FSTB : RegField := ⟨R.PWR_OE, 0, 1⟩
abbrev F.PWR_OE_HEADCUT : RegField := ⟨R.PWR_OE, 1, 1⟩
abbrev F.PWR_OE_PROCESS : RegField := ⟨R.PWR_OE, 2, 1⟩
abbrev F.PWR_OE_TPULSE : RegField := ⟨R.PWR_OE, 3, 1⟩
abbrev F.PWR_OE_LIGHT : RegField := ⟨R.PWR_OE, 4, 1⟩
abbrev F.PWR_OE_CXU : RegField := ⟨R.PWR_OE, 5, 1⟩
abbrev F.PWR_OE_PWM : RegField := ⟨R.PWR_OE, 6, 1⟩
abbrev F.PWR_OE_STEP : RegField := ⟨R.PWR_OE, 7, 1⟩
abbrev F.PWR_OE_GPIO : RegField := ⟨R.PWR_OE, 8, 1⟩
abbrev R.PWR_SLEEP : Nat := 0x1044
abbrev F.PWR_SLEEP_SLEEP : RegField := ⟨R.PWR_SLEEP, 0, 1⟩
abbrev R.PWR_WAKE_CFG : Nat := 0x1048
abbrev F.PWR_WAKE_CFG_WAKE_EN : RegField := ⟨R.PWR_WAKE_CFG, 0, 8⟩
abbrev F.PWR_WAKE_CFG_TMR_EN : RegField := ⟨R.PWR_WAKE_CFG, 8, 1⟩
abbrev R.PWR_WAKE_TMR : Nat := 0x104c
abbrev F.PWR_WAKE_TMR_TICKS : RegField := ⟨R.PWR_WAKE_TMR, 0, 32⟩
abbrev R.PWR_WAKE_STAT : Nat := 0x1050
abbrev F.PWR_WAKE_STAT_WAKE : RegField := ⟨R.PWR_WAKE_STAT, 0, 8⟩
abbrev F.PWR_WAKE_STAT_TMR : RegField := ⟨R.PWR_WAKE_STAT, 8, 1⟩
abbrev R.PWR_RST_CAUSE : Nat := 0x1054
abbrev F.PWR_RST_CAUSE_VBAT_POR : RegField := ⟨R.PWR_RST_CAUSE, 0, 1⟩
abbrev F.PWR_RST_CAUSE_POR : RegField := ⟨R.PWR_RST_CAUSE, 1, 1⟩
abbrev F.PWR_RST_CAUSE_CORE_UV : RegField := ⟨R.PWR_RST_CAUSE, 2, 1⟩
abbrev F.PWR_RST_CAUSE_IO33_UV : RegField := ⟨R.PWR_RST_CAUSE, 3, 1⟩
abbrev F.PWR_RST_CAUSE_PIN : RegField := ⟨R.PWR_RST_CAUSE, 4, 1⟩
abbrev F.PWR_RST_CAUSE_SOFT : RegField := ⟨R.PWR_RST_CAUSE, 5, 1⟩
abbrev F.PWR_RST_CAUSE_STANDBY : RegField := ⟨R.PWR_RST_CAUSE, 6, 1⟩
abbrev F.PWR_RST_CAUSE_BOOT_WD : RegField := ⟨R.PWR_RST_CAUSE, 7, 1⟩
abbrev F.PWR_RST_CAUSE_CLK : RegField := ⟨R.PWR_RST_CAUSE, 8, 1⟩
abbrev F.PWR_RST_CAUSE_COUNT : RegField := ⟨R.PWR_RST_CAUSE, 16, 16⟩
abbrev R.CLK_STAT : Nat := 0x2040
abbrev F.CLK_STAT_LOCK_P : RegField := ⟨R.CLK_STAT, 0, 1⟩
abbrev F.CLK_STAT_LOCK_M : RegField := ⟨R.CLK_STAT, 1, 1⟩
abbrev F.CLK_STAT_LOCK_T : RegField := ⟨R.CLK_STAT, 2, 1⟩
abbrev F.CLK_STAT_LOCK_D : RegField := ⟨R.CLK_STAT, 3, 1⟩
abbrev F.CLK_STAT_REF_LOST : RegField := ⟨R.CLK_STAT, 4, 1⟩
abbrev R.CLK_MZ : Nat := 0x2044
abbrev F.CLK_MZ_SEL : RegField := ⟨R.CLK_MZ, 0, 2⟩
abbrev R.CLK_CNT : Nat := 0x2048
abbrev F.CLK_CNT_REF_LOSS : RegField := ⟨R.CLK_CNT, 0, 16⟩
abbrev F.CLK_CNT_UNLOCK : RegField := ⟨R.CLK_CNT, 16, 16⟩
abbrev R.BEAT_PHASE : Nat := 0x3040
abbrev F.BEAT_PHASE_PHASE : RegField := ⟨R.BEAT_PHASE, 0, 32⟩
abbrev R.BEAT_NUM_LO : Nat := 0x3044
abbrev F.BEAT_NUM_LO_NUM_LO : RegField := ⟨R.BEAT_NUM_LO, 0, 32⟩
abbrev R.BEAT_NUM_HI : Nat := 0x3048
abbrev F.BEAT_NUM_HI_NUM_HI : RegField := ⟨R.BEAT_NUM_HI, 0, 32⟩
abbrev R.EPOCH_NOW : Nat := 0x304c
abbrev F.EPOCH_NOW_EPOCH : RegField := ⟨R.EPOCH_NOW, 0, 32⟩
abbrev R.BEAT_OVERRUN : Nat := 0x3050
abbrev F.BEAT_OVERRUN_COUNT : RegField := ⟨R.BEAT_OVERRUN, 0, 16⟩
abbrev F.BEAT_OVERRUN_UNIT : RegField := ⟨R.BEAT_OVERRUN, 16, 8⟩
abbrev R.PLAN_GLOBAL : Nat := 0x4040
abbrev F.PLAN_GLOBAL_BEAT_LEN : RegField := ⟨R.PLAN_GLOBAL, 0, 1⟩
abbrev R.PLAN_EPOCH0 : Nat := 0x4044
abbrev F.PLAN_EPOCH0_EPOCH0 : RegField := ⟨R.PLAN_EPOCH0, 0, 32⟩
abbrev R.PLAN_PLANE_A (j : Nat) : Nat := 0x4080 + j * 0x8
abbrev F.PLAN_PLANE_A_EN (j : Nat) : RegField := ⟨R.PLAN_PLANE_A j, 0, 1⟩
abbrev F.PLAN_PLANE_A_IN_MODE (j : Nat) : RegField := ⟨R.PLAN_PLANE_A j, 1, 2⟩
abbrev F.PLAN_PLANE_A_DROP_BITS (j : Nat) : RegField := ⟨R.PLAN_PLANE_A j, 3, 1⟩
abbrev F.PLAN_PLANE_A_OVL (j : Nat) : RegField := ⟨R.PLAN_PLANE_A j, 4, 1⟩
abbrev F.PLAN_PLANE_A_F_MAX (j : Nat) : RegField := ⟨R.PLAN_PLANE_A j, 8, 20⟩
abbrev R.PLAN_PLANE_B (j : Nat) : Nat := 0x4084 + j * 0x8
abbrev F.PLAN_PLANE_B_OVL_W (j : Nat) : RegField := ⟨R.PLAN_PLANE_B j, 0, 18⟩
abbrev R.PLAN_HP_A (j : Nat) : Nat := 0x4100 + j * 0x8
abbrev F.PLAN_HP_A_EN (j : Nat) : RegField := ⟨R.PLAN_HP_A j, 0, 1⟩
abbrev F.PLAN_HP_A_PLANE (j : Nat) : RegField := ⟨R.PLAN_HP_A j, 1, 3⟩
abbrev F.PLAN_HP_A_WAVE_EN (j : Nat) : RegField := ⟨R.PLAN_HP_A j, 4, 1⟩
abbrev F.PLAN_HP_A_NCOUNT (j : Nat) : RegField := ⟨R.PLAN_HP_A j, 8, 13⟩
abbrev R.PLAN_HP_B (j : Nat) : Nat := 0x4104 + j * 0x8
abbrev F.PLAN_HP_B_PLANE_OFS (j : Nat) : RegField := ⟨R.PLAN_HP_B j, 0, 18⟩
abbrev R.PLAN_CAM_A (j : Nat) : Nat := 0x4200 + j * 0x8
abbrev F.PLAN_CAM_A_EN (j : Nat) : RegField := ⟨R.PLAN_CAM_A j, 0, 1⟩
abbrev F.PLAN_CAM_A_NPLANES (j : Nat) : RegField := ⟨R.PLAN_CAM_A j, 1, 2⟩
abbrev F.PLAN_CAM_A_NPIX (j : Nat) : RegField := ⟨R.PLAN_CAM_A j, 3, 15⟩
abbrev F.PLAN_CAM_A_TAP (j : Nat) : RegField := ⟨R.PLAN_CAM_A j, 18, 1⟩
abbrev R.PLAN_CAM_B (j : Nat) : Nat := 0x4204 + j * 0x8
abbrev F.PLAN_CAM_B_F_CAM (j : Nat) : RegField := ⟨R.PLAN_CAM_B j, 0, 20⟩
abbrev R.PLAN_LOOP (j : Nat) : Nat := 0x4300 + j * 0x4
abbrev F.PLAN_LOOP_EN (j : Nat) : RegField := ⟨R.PLAN_LOOP j, 0, 1⟩
abbrev F.PLAN_LOOP_DIV_LOG2 (j : Nat) : RegField := ⟨R.PLAN_LOOP j, 1, 4⟩
abbrev F.PLAN_LOOP_PHASE (j : Nat) : RegField := ⟨R.PLAN_LOOP j, 8, 8⟩
abbrev R.PLAN_STAY : Nat := 0x4380
abbrev F.PLAN_STAY_EN : RegField := ⟨R.PLAN_STAY, 0, 1⟩
abbrev F.PLAN_STAY_RING_SIZE : RegField := ⟨R.PLAN_STAY, 1, 4⟩
abbrev F.PLAN_STAY_RING_POS : RegField := ⟨R.PLAN_STAY, 5, 4⟩
abbrev F.PLAN_STAY_PUBLISHER : RegField := ⟨R.PLAN_STAY, 9, 1⟩
abbrev F.PLAN_STAY_VENC_MCAST : RegField := ⟨R.PLAN_STAY, 10, 1⟩
abbrev F.PLAN_STAY_VMAX : RegField := ⟨R.PLAN_STAY, 16, 8⟩
abbrev R.PLAN_CHK : Nat := 0x43c0
abbrev F.PLAN_CHK_CODE : RegField := ⟨R.PLAN_CHK, 0, 8⟩
abbrev F.PLAN_CHK_UNIT_INST : RegField := ⟨R.PLAN_CHK, 8, 8⟩
abbrev F.PLAN_CHK_ADVISORY : RegField := ⟨R.PLAN_CHK, 16, 1⟩
abbrev F.PLAN_CHK_BUSY : RegField := ⟨R.PLAN_CHK, 17, 1⟩
abbrev F.PLAN_CHK_ACTIVE : RegField := ⟨R.PLAN_CHK, 18, 1⟩
abbrev R.PLAN_DEMAND : Nat := 0x43c4
abbrev F.PLAN_DEMAND_DEMAND : RegField := ⟨R.PLAN_DEMAND, 0, 32⟩
abbrev R.PLAN_BUDGET : Nat := 0x43c8
abbrev F.PLAN_BUDGET_BUDGET : RegField := ⟨R.PLAN_BUDGET, 0, 32⟩
abbrev R.PLAN_ADV : Nat := 0x43cc
abbrev F.PLAN_ADV_ADV : RegField := ⟨R.PLAN_ADV, 0, 32⟩
abbrev R.PLAN_STOP : Nat := 0x43d0
abbrev F.PLAN_STOP_MODE : RegField := ⟨R.PLAN_STOP, 0, 2⟩
abbrev R.ENC_CFG (i : Nat) : Nat := 0x5040 + i * 0x1000
abbrev F.ENC_CFG_SRC (i : Nat) : RegField := ⟨R.ENC_CFG i, 0, 3⟩
abbrev F.ENC_CFG_INVERT (i : Nat) : RegField := ⟨R.ENC_CFG i, 3, 1⟩
abbrev F.ENC_CFG_IDX_MODE (i : Nat) : RegField := ⟨R.ENC_CFG i, 4, 2⟩
abbrev F.ENC_CFG_FILT (i : Nat) : RegField := ⟨R.ENC_CFG i, 6, 4⟩
abbrev F.ENC_CFG_FAULT_N (i : Nat) : RegField := ⟨R.ENC_CFG i, 16, 16⟩
abbrev R.ENC_AMP (i : Nat) : Nat := 0x5044 + i * 0x1000
abbrev F.ENC_AMP_AMIN (i : Nat) : RegField := ⟨R.ENC_AMP i, 0, 12⟩
abbrev F.ENC_AMP_AMAX (i : Nat) : RegField := ⟨R.ENC_AMP i, 16, 12⟩
abbrev R.ENC_ADC_OFS (i : Nat) : Nat := 0x5048 + i * 0x1000
abbrev F.ENC_ADC_OFS_SIN_OFS (i : Nat) : RegField := ⟨R.ENC_ADC_OFS i, 0, 12⟩
abbrev F.ENC_ADC_OFS_COS_OFS (i : Nat) : RegField := ⟨R.ENC_ADC_OFS i, 16, 12⟩
abbrev R.ENC_IDX_LO (i : Nat) : Nat := 0x504c + i * 0x1000
abbrev F.ENC_IDX_LO_VALUE (i : Nat) : RegField := ⟨R.ENC_IDX_LO i, 0, 32⟩
abbrev R.ENC_IDX_HI (i : Nat) : Nat := 0x5050 + i * 0x1000
abbrev F.ENC_IDX_HI_VALUE (i : Nat) : RegField := ⟨R.ENC_IDX_HI i, 0, 16⟩
abbrev F.ENC_IDX_HI_TOL (i : Nat) : RegField := ⟨R.ENC_IDX_HI i, 16, 16⟩
abbrev R.ENC_CTL (i : Nat) : Nat := 0x5054 + i * 0x1000
abbrev F.ENC_CTL_ARM (i : Nat) : RegField := ⟨R.ENC_CTL i, 0, 1⟩
abbrev F.ENC_CTL_CLR_FAULT (i : Nat) : RegField := ⟨R.ENC_CTL i, 1, 1⟩
abbrev F.ENC_CTL_LOAD (i : Nat) : RegField := ⟨R.ENC_CTL i, 2, 1⟩
abbrev R.ENC_STAT (i : Nat) : Nat := 0x5058 + i * 0x1000
abbrev F.ENC_STAT_FAULT (i : Nat) : RegField := ⟨R.ENC_STAT i, 0, 1⟩
abbrev F.ENC_STAT_FCODE (i : Nat) : RegField := ⟨R.ENC_STAT i, 1, 3⟩
abbrev F.ENC_STAT_UNCERTAIN (i : Nat) : RegField := ⟨R.ENC_STAT i, 4, 1⟩
abbrev F.ENC_STAT_ARMED (i : Nat) : RegField := ⟨R.ENC_STAT i, 5, 1⟩
abbrev F.ENC_STAT_IDX_SEEN (i : Nat) : RegField := ⟨R.ENC_STAT i, 6, 1⟩
abbrev F.ENC_STAT_IDX_SLIP (i : Nat) : RegField := ⟨R.ENC_STAT i, 7, 1⟩
abbrev R.ENC_POS_LO (i : Nat) : Nat := 0x505c + i * 0x1000
abbrev F.ENC_POS_LO_X (i : Nat) : RegField := ⟨R.ENC_POS_LO i, 0, 32⟩
abbrev R.ENC_POS_HI (i : Nat) : Nat := 0x5060 + i * 0x1000
abbrev F.ENC_POS_HI_X (i : Nat) : RegField := ⟨R.ENC_POS_HI i, 0, 16⟩
abbrev R.ENC_VEL (i : Nat) : Nat := 0x5064 + i * 0x1000
abbrev F.ENC_VEL_V (i : Nat) : RegField := ⟨R.ENC_VEL i, 0, 32⟩
abbrev R.ENC_TRK (i : Nat) : Nat := 0x5068 + i * 0x1000
abbrev F.ENC_TRK_ALPHA_SH (i : Nat) : RegField := ⟨R.ENC_TRK i, 0, 4⟩
abbrev F.ENC_TRK_BETA_SH (i : Nat) : RegField := ⟨R.ENC_TRK i, 4, 4⟩
abbrev F.ENC_TRK_GAMMA_SH (i : Nat) : RegField := ⟨R.ENC_TRK i, 8, 4⟩
abbrev R.VENC_CFG : Nat := 0x7040
abbrev F.VENC_CFG_PUB_SRC : RegField := ⟨R.VENC_CFG, 0, 1⟩
abbrev F.VENC_CFG_PUB_FB_EN : RegField := ⟨R.VENC_CFG, 1, 1⟩
abbrev F.VENC_CFG_TMO : RegField := ⟨R.VENC_CFG, 8, 8⟩
abbrev R.VENC_OFS_LO : Nat := 0x7044
abbrev F.VENC_OFS_LO_OFS : RegField := ⟨R.VENC_OFS_LO, 0, 32⟩
abbrev R.VENC_OFS_HI : Nat := 0x7048
abbrev F.VENC_OFS_HI_OFS : RegField := ⟨R.VENC_OFS_HI, 0, 16⟩
abbrev R.VENC_STAT : Nat := 0x704c
abbrev F.VENC_STAT_LOST : RegField := ⟨R.VENC_STAT, 0, 1⟩
abbrev F.VENC_STAT_PUB_FAULT : RegField := ⟨R.VENC_STAT, 1, 1⟩
abbrev F.VENC_STAT_PUB_FALLBACK : RegField := ⟨R.VENC_STAT, 2, 1⟩
abbrev F.VENC_STAT_DISCARD : RegField := ⟨R.VENC_STAT, 16, 16⟩
abbrev R.LEV_CFG (j : Nat) : Nat := 0x7080 + j * 0x10
abbrev F.LEV_CFG_PRI (j : Nat) : RegField := ⟨R.LEV_CFG j, 0, 2⟩
abbrev F.LEV_CFG_FB (j : Nat) : RegField := ⟨R.LEV_CFG j, 2, 2⟩
abbrev F.LEV_CFG_FB_EN (j : Nat) : RegField := ⟨R.LEV_CFG j, 4, 1⟩
abbrev F.LEV_CFG_HYST (j : Nat) : RegField := ⟨R.LEV_CFG j, 8, 4⟩
abbrev R.LEV_PITCH (j : Nat) : Nat := 0x7084 + j * 0x10
abbrev F.LEV_PITCH_PITCH (j : Nat) : RegField := ⟨R.LEV_PITCH j, 0, 32⟩
abbrev R.LEV_ORIGIN_LO (j : Nat) : Nat := 0x7088 + j * 0x10
abbrev F.LEV_ORIGIN_LO_ORIGIN (j : Nat) : RegField := ⟨R.LEV_ORIGIN_LO j, 0, 32⟩
abbrev R.LEV_ORIGIN_HI (j : Nat) : Nat := 0x708c + j * 0x10
abbrev F.LEV_ORIGIN_HI_ORIGIN (j : Nat) : RegField := ⟨R.LEV_ORIGIN_HI j, 0, 16⟩
abbrev R.LEV_STAT (j : Nat) : Nat := 0x7100 + j * 0x4
abbrev F.LEV_STAT_REV (j : Nat) : RegField := ⟨R.LEV_STAT j, 0, 1⟩
abbrev F.LEV_STAT_FB_ACTIVE (j : Nat) : RegField := ⟨R.LEV_STAT j, 1, 1⟩
abbrev F.LEV_STAT_STOPPED (j : Nat) : RegField := ⟨R.LEV_STAT j, 2, 1⟩
abbrev F.LEV_STAT_LATE (j : Nat) : RegField := ⟨R.LEV_STAT j, 3, 1⟩
abbrev F.LEV_STAT_ERR (j : Nat) : RegField := ⟨R.LEV_STAT j, 4, 1⟩
abbrev F.LEV_STAT_ERR_MAX (j : Nat) : RegField := ⟨R.LEV_STAT j, 16, 16⟩
abbrev R.LEV_CTL : Nat := 0x7120
abbrev F.LEV_CTL_RESTORE : RegField := ⟨R.LEV_CTL, 0, 8⟩
abbrev R.LEV_VMIN : Nat := 0x7124
abbrev F.LEV_VMIN_VMIN : RegField := ⟨R.LEV_VMIN, 0, 32⟩
abbrev R.LEV_ERR_LIM : Nat := 0x7128
abbrev F.LEV_ERR_LIM_LIM : RegField := ⟨R.LEV_ERR_LIM, 0, 16⟩
abbrev R.TIME_NS : Nat := 0x8040
abbrev F.TIME_NS_NS : RegField := ⟨R.TIME_NS, 0, 30⟩
abbrev R.TIME_FRAC : Nat := 0x8044
abbrev F.TIME_FRAC_FRAC : RegField := ⟨R.TIME_FRAC, 0, 16⟩
abbrev R.TIME_SEC_LO : Nat := 0x8048
abbrev F.TIME_SEC_LO_SEC : RegField := ⟨R.TIME_SEC_LO, 0, 32⟩
abbrev R.TIME_SEC_HI : Nat := 0x804c
abbrev F.TIME_SEC_HI_SEC : RegField := ⟨R.TIME_SEC_HI, 0, 32⟩
abbrev R.TIME_SET_NS : Nat := 0x8050
abbrev F.TIME_SET_NS_NS : RegField := ⟨R.TIME_SET_NS, 0, 30⟩
abbrev R.TIME_SET_SEC_LO : Nat := 0x8054
abbrev F.TIME_SET_SEC_LO_SEC : RegField := ⟨R.TIME_SET_SEC_LO, 0, 32⟩
abbrev R.TIME_SET_SEC_HI : Nat := 0x8058
abbrev F.TIME_SET_SEC_HI_SEC : RegField := ⟨R.TIME_SET_SEC_HI, 0, 32⟩
abbrev R.TIME_CTL : Nat := 0x805c
abbrev F.TIME_CTL_SET : RegField := ⟨R.TIME_CTL, 0, 1⟩
abbrev F.TIME_CTL_SERVO_EN : RegField := ⟨R.TIME_CTL, 1, 1⟩
abbrev F.TIME_CTL_ACT_DOM : RegField := ⟨R.TIME_CTL, 2, 1⟩
abbrev F.TIME_CTL_REVERT : RegField := ⟨R.TIME_CTL, 3, 1⟩
abbrev F.TIME_CTL_SRC : RegField := ⟨R.TIME_CTL, 4, 1⟩
abbrev R.TIME_FREQ : Nat := 0x8060
abbrev F.TIME_FREQ_FREQ : RegField := ⟨R.TIME_FREQ, 0, 32⟩
abbrev R.TIME_SERVO : Nat := 0x8064
abbrev F.TIME_SERVO_KP : RegField := ⟨R.TIME_SERVO, 0, 16⟩
abbrev F.TIME_SERVO_KI : RegField := ⟨R.TIME_SERVO, 16, 16⟩
abbrev R.TIME_SLEW : Nat := 0x8068
abbrev F.TIME_SLEW_SLEW_LIM : RegField := ⟨R.TIME_SLEW, 0, 16⟩
abbrev F.TIME_SLEW_STEP_THR : RegField := ⟨R.TIME_SLEW, 16, 16⟩
abbrev R.TIME_STAT : Nat := 0x806c
abbrev F.TIME_STAT_LOCKED : RegField := ⟨R.TIME_STAT, 0, 1⟩
abbrev F.TIME_STAT_HOLDOVER : RegField := ⟨R.TIME_STAT, 1, 1⟩
abbrev F.TIME_STAT_SLEWING : RegField := ⟨R.TIME_STAT, 2, 1⟩
abbrev F.TIME_STAT_STEPPED : RegField := ⟨R.TIME_STAT, 3, 1⟩
abbrev F.TIME_STAT_SWITCHED : RegField := ⟨R.TIME_STAT, 4, 1⟩
abbrev F.TIME_STAT_SET_REFUSED : RegField := ⟨R.TIME_STAT, 5, 1⟩
abbrev R.TIME_DOM_CFG (j : Nat) : Nat := 0x8080 + j * 0x20
abbrev F.TIME_DOM_CFG_DOMAIN (j : Nat) : RegField := ⟨R.TIME_DOM_CFG j, 0, 8⟩
abbrev F.TIME_DOM_CFG_EN (j : Nat) : RegField := ⟨R.TIME_DOM_CFG j, 8, 1⟩
abbrev F.TIME_DOM_CFG_PORT (j : Nat) : RegField := ⟨R.TIME_DOM_CFG j, 9, 1⟩
abbrev F.TIME_DOM_CFG_P2P (j : Nat) : RegField := ⟨R.TIME_DOM_CFG j, 10, 1⟩
abbrev F.TIME_DOM_CFG_BC_MASTER (j : Nat) : RegField := ⟨R.TIME_DOM_CFG j, 11, 1⟩
abbrev F.TIME_DOM_CFG_TRANSPORT (j : Nat) : RegField := ⟨R.TIME_DOM_CFG j, 12, 2⟩
abbrev F.TIME_DOM_CFG_LOSS_N (j : Nat) : RegField := ⟨R.TIME_DOM_CFG j, 16, 4⟩
abbrev F.TIME_DOM_CFG_LOG_SYNC (j : Nat) : RegField := ⟨R.TIME_DOM_CFG j, 20, 4⟩
abbrev F.TIME_DOM_CFG_QUAL_N (j : Nat) : RegField := ⟨R.TIME_DOM_CFG j, 24, 8⟩
abbrev R.TIME_DOM_OFS (j : Nat) : Nat := 0x8084 + j * 0x20
abbrev F.TIME_DOM_OFS_OFS (j : Nat) : RegField := ⟨R.TIME_DOM_OFS j, 0, 32⟩
abbrev R.TIME_DOM_STAT (j : Nat) : Nat := 0x8088 + j * 0x20
abbrev F.TIME_DOM_STAT_QUAL (j : Nat) : RegField := ⟨R.TIME_DOM_STAT j, 0, 1⟩
abbrev F.TIME_DOM_STAT_LOST (j : Nat) : RegField := ⟨R.TIME_DOM_STAT j, 1, 1⟩
abbrev F.TIME_DOM_STAT_ACTIVE (j : Nat) : RegField := ⟨R.TIME_DOM_STAT j, 2, 1⟩
abbrev R.TIME_DOM_MPD (j : Nat) : Nat := 0x808c + j * 0x20
abbrev F.TIME_DOM_MPD_MPD (j : Nat) : RegField := ⟨R.TIME_DOM_MPD j, 0, 32⟩
abbrev R.TIME_DOM_PARENT0 (j : Nat) : Nat := 0x8090 + j * 0x20
abbrev F.TIME_DOM_PARENT0_PARENT (j : Nat) : RegField := ⟨R.TIME_DOM_PARENT0 j, 0, 32⟩
abbrev R.TIME_DOM_PARENT1 (j : Nat) : Nat := 0x8094 + j * 0x20
abbrev F.TIME_DOM_PARENT1_PARENT (j : Nat) : RegField := ⟨R.TIME_DOM_PARENT1 j, 0, 32⟩
abbrev R.TIME_DOM_PARENT2 (j : Nat) : Nat := 0x8098 + j * 0x20
abbrev F.TIME_DOM_PARENT2_PARENT (j : Nat) : RegField := ⟨R.TIME_DOM_PARENT2 j, 0, 16⟩
abbrev R.TIME_TSC (j : Nat) : Nat := 0x8100 + j * 0x4
abbrev F.TIME_TSC_CORR (j : Nat) : RegField := ⟨R.TIME_TSC j, 0, 32⟩
abbrev R.TSQ_DATA0 : Nat := 0x8140
abbrev F.TSQ_DATA0_ID : RegField := ⟨R.TSQ_DATA0, 0, 16⟩
abbrev F.TSQ_DATA0_PORT : RegField := ⟨R.TSQ_DATA0, 16, 1⟩
abbrev F.TSQ_DATA0_VALID : RegField := ⟨R.TSQ_DATA0, 17, 1⟩
abbrev R.TSQ_DATA1 : Nat := 0x8144
abbrev F.TSQ_DATA1_NS : RegField := ⟨R.TSQ_DATA1, 0, 30⟩
abbrev R.TSQ_DATA2 : Nat := 0x8148
abbrev F.TSQ_DATA2_FRAC : RegField := ⟨R.TSQ_DATA2, 0, 16⟩
abbrev R.TSQ_DATA3 : Nat := 0x814c
abbrev F.TSQ_DATA3_SEC : RegField := ⟨R.TSQ_DATA3, 0, 32⟩
abbrev R.TSQ_STAT : Nat := 0x8150
abbrev F.TSQ_STAT_COUNT : RegField := ⟨R.TSQ_STAT, 0, 5⟩
abbrev F.TSQ_STAT_OVF : RegField := ⟨R.TSQ_STAT, 5, 1⟩
abbrev F.TSQ_STAT_DROPS : RegField := ⟨R.TSQ_STAT, 16, 16⟩
abbrev R.TIME_ALIGN : Nat := 0x8160
abbrev F.TIME_ALIGN_LIM : RegField := ⟨R.TIME_ALIGN, 0, 8⟩
abbrev F.TIME_ALIGN_MAX : RegField := ⟨R.TIME_ALIGN, 16, 16⟩
abbrev R.TIME_LAUNCH : Nat := 0x8164
abbrev F.TIME_LAUNCH_ETH_LATE_DROP : RegField := ⟨R.TIME_LAUNCH, 0, 1⟩
abbrev F.TIME_LAUNCH_STAY_LATE_DROP : RegField := ⟨R.TIME_LAUNCH, 1, 1⟩
abbrev R.TIME_LATE : Nat := 0x8168
abbrev F.TIME_LATE_ETH : RegField := ⟨R.TIME_LATE, 0, 16⟩
abbrev F.TIME_LATE_STAY : RegField := ⟨R.TIME_LATE, 16, 16⟩
abbrev R.TP_CFG (j : Nat) : Nat := 0x9040 + j * 0x20
abbrev F.TP_CFG_EN (j : Nat) : RegField := ⟨R.TP_CFG j, 0, 1⟩
abbrev F.TP_CFG_POL (j : Nat) : RegField := ⟨R.TP_CFG j, 1, 1⟩
abbrev F.TP_CFG_COUNT (j : Nat) : RegField := ⟨R.TP_CFG j, 16, 16⟩
abbrev R.TP_START_NS (j : Nat) : Nat := 0x9044 + j * 0x20
abbrev F.TP_START_NS_NS (j : Nat) : RegField := ⟨R.TP_START_NS j, 0, 30⟩
abbrev R.TP_START_SEC (j : Nat) : Nat := 0x9048 + j * 0x20
abbrev F.TP_START_SEC_SEC (j : Nat) : RegField := ⟨R.TP_START_SEC j, 0, 32⟩
abbrev R.TP_PERIOD (j : Nat) : Nat := 0x904c + j * 0x20
abbrev F.TP_PERIOD_PERIOD (j : Nat) : RegField := ⟨R.TP_PERIOD j, 0, 32⟩
abbrev R.TP_WIDTH (j : Nat) : Nat := 0x9050 + j * 0x20
abbrev F.TP_WIDTH_WIDTH (j : Nat) : RegField := ⟨R.TP_WIDTH j, 0, 32⟩
abbrev R.TP_STAT (j : Nat) : Nat := 0x9054 + j * 0x20
abbrev F.TP_STAT_RUN (j : Nat) : RegField := ⟨R.TP_STAT j, 0, 1⟩
abbrev F.TP_STAT_LATE (j : Nat) : RegField := ⟨R.TP_STAT j, 1, 1⟩
abbrev R.ETH_CFG (i : Nat) : Nat := 0xa040 + i * 0x1000
abbrev F.ETH_CFG_RATE (i : Nat) : RegField := ⟨R.ETH_CFG i, 0, 1⟩
abbrev F.ETH_CFG_FEC (i : Nat) : RegField := ⟨R.ETH_CFG i, 1, 2⟩
abbrev F.ETH_CFG_VLAN_EN (i : Nat) : RegField := ⟨R.ETH_CFG i, 3, 1⟩
abbrev F.ETH_CFG_IP4_EN (i : Nat) : RegField := ⟨R.ETH_CFG i, 4, 1⟩
abbrev F.ETH_CFG_IP6_EN (i : Nat) : RegField := ⟨R.ETH_CFG i, 5, 1⟩
abbrev F.ETH_CFG_PCP_CTL (i : Nat) : RegField := ⟨R.ETH_CFG i, 8, 3⟩
abbrev F.ETH_CFG_PCP_BULK (i : Nat) : RegField := ⟨R.ETH_CFG i, 12, 3⟩
abbrev F.ETH_CFG_MAX_FRAME (i : Nat) : RegField := ⟨R.ETH_CFG i, 16, 14⟩
abbrev R.ETH_MAC_LO (i : Nat) : Nat := 0xa044 + i * 0x1000
abbrev F.ETH_MAC_LO_MAC (i : Nat) : RegField := ⟨R.ETH_MAC_LO i, 0, 32⟩
abbrev R.ETH_MAC_HI (i : Nat) : Nat := 0xa048 + i * 0x1000
abbrev F.ETH_MAC_HI_MAC (i : Nat) : RegField := ⟨R.ETH_MAC_HI i, 0, 16⟩
abbrev R.ETH_VLAN (i : Nat) : Nat := 0xa04c + i * 0x1000
abbrev F.ETH_VLAN_VID (i : Nat) : RegField := ⟨R.ETH_VLAN i, 0, 12⟩
abbrev R.ETH_IP4 (i : Nat) : Nat := 0xa050 + i * 0x1000
abbrev F.ETH_IP4_ADDR (i : Nat) : RegField := ⟨R.ETH_IP4 i, 0, 32⟩
abbrev R.ETH_IP6 (i : Nat) (j : Nat) : Nat := 0xa054 + i * 0x1000 + j * 0x4
abbrev F.ETH_IP6_ADDR (i : Nat) (j : Nat) : RegField := ⟨R.ETH_IP6 i j, 0, 32⟩
abbrev R.ETH_MCAST_LO (i : Nat) (j : Nat) : Nat := 0xa080 + i * 0x1000 + j * 0x8
abbrev F.ETH_MCAST_LO_MAC (i : Nat) (j : Nat) : RegField := ⟨R.ETH_MCAST_LO i j, 0, 32⟩
abbrev R.ETH_MCAST_HI (i : Nat) (j : Nat) : Nat := 0xa084 + i * 0x1000 + j * 0x8
abbrev F.ETH_MCAST_HI_MAC (i : Nat) (j : Nat) : RegField := ⟨R.ETH_MCAST_HI i j, 0, 16⟩
abbrev F.ETH_MCAST_HI_EN (i : Nat) (j : Nat) : RegField := ⟨R.ETH_MCAST_HI i j, 16, 1⟩
abbrev R.ETH_LINK (i : Nat) : Nat := 0xa0c0 + i * 0x1000
abbrev F.ETH_LINK_BLOCK_LOCK (i : Nat) : RegField := ⟨R.ETH_LINK i, 0, 1⟩
abbrev F.ETH_LINK_LOCAL_FAULT (i : Nat) : RegField := ⟨R.ETH_LINK i, 1, 1⟩
abbrev F.ETH_LINK_REMOTE_FAULT (i : Nat) : RegField := ⟨R.ETH_LINK i, 2, 1⟩
abbrev F.ETH_LINK_LINK_UP (i : Nat) : RegField := ⟨R.ETH_LINK i, 3, 1⟩
abbrev R.CNT_FCS (i : Nat) : Nat := 0xa0c4 + i * 0x1000
abbrev F.CNT_FCS_CNT (i : Nat) : RegField := ⟨R.CNT_FCS i, 0, 32⟩
abbrev R.CNT_LEN (i : Nat) : Nat := 0xa0c8 + i * 0x1000
abbrev F.CNT_LEN_CNT (i : Nat) : RegField := ⟨R.CNT_LEN i, 0, 32⟩
abbrev R.CNT_PAUSE (i : Nat) : Nat := 0xa0cc + i * 0x1000
abbrev F.CNT_PAUSE_CNT (i : Nat) : RegField := ⟨R.CNT_PAUSE i, 0, 32⟩
abbrev R.CNT_FILTER (i : Nat) : Nat := 0xa0d0 + i * 0x1000
abbrev F.CNT_FILTER_CNT (i : Nat) : RegField := ⟨R.CNT_FILTER i, 0, 32⟩
abbrev R.CNT_FRAG (i : Nat) : Nat := 0xa0d4 + i * 0x1000
abbrev F.CNT_FRAG_CNT (i : Nat) : RegField := ⟨R.CNT_FRAG i, 0, 32⟩
abbrev R.CNT_FEC_UNC (i : Nat) : Nat := 0xa0d8 + i * 0x1000
abbrev F.CNT_FEC_UNC_CNT (i : Nat) : RegField := ⟨R.CNT_FEC_UNC i, 0, 32⟩
abbrev R.CNT_STBY_BULK (i : Nat) : Nat := 0xa0dc + i * 0x1000
abbrev F.CNT_STBY_BULK_CNT (i : Nat) : RegField := ⟨R.CNT_STBY_BULK i, 0, 32⟩
abbrev R.PATH_CFG : Nat := 0xc040
abbrev F.PATH_CFG_PREF : RegField := ⟨R.PATH_CFG, 0, 1⟩
abbrev F.PATH_CFG_AUTO_SW : RegField := ⟨R.PATH_CFG, 1, 1⟩
abbrev F.PATH_CFG_DUP_TMO : RegField := ⟨R.PATH_CFG, 8, 8⟩
abbrev F.PATH_CFG_T_DRILL : RegField := ⟨R.PATH_CFG, 16, 16⟩
abbrev R.PATH_ERRLIM : Nat := 0xc044
abbrev F.PATH_ERRLIM_ERR_LIM : RegField := ⟨R.PATH_ERRLIM, 0, 16⟩
abbrev F.PATH_ERRLIM_POST_TMO : RegField := ⟨R.PATH_ERRLIM, 16, 16⟩
abbrev R.PATH_CMD : Nat := 0xc048
abbrev F.PATH_CMD_SWITCH : RegField := ⟨R.PATH_CMD, 0, 1⟩
abbrev F.PATH_CMD_DRILL_NOW : RegField := ⟨R.PATH_CMD, 1, 1⟩
abbrev R.PATH_STAT : Nat := 0xc04c
abbrev F.PATH_STAT_ACTIVE : RegField := ⟨R.PATH_STAT, 0, 1⟩
abbrev F.PATH_STAT_STBY_HEALTHY : RegField := ⟨R.PATH_STAT, 1, 1⟩
abbrev F.PATH_STAT_SOLO : RegField := ⟨R.PATH_STAT, 2, 1⟩
abbrev F.PATH_STAT_NO_PATH : RegField := ⟨R.PATH_STAT, 3, 1⟩
abbrev F.PATH_STAT_UNDRILLED : RegField := ⟨R.PATH_STAT, 4, 1⟩
abbrev F.PATH_STAT_SWITCHED : RegField := ⟨R.PATH_STAT, 5, 1⟩
abbrev F.PATH_STAT_DRILL_FAIL : RegField := ⟨R.PATH_STAT, 6, 1⟩
abbrev F.PATH_STAT_LAST_STAGE : RegField := ⟨R.PATH_STAT, 8, 3⟩
abbrev F.PATH_STAT_LAST_CAUSE : RegField := ⟨R.PATH_STAT, 12, 3⟩
abbrev F.PATH_STAT_SWITCH_COUNT : RegField := ⟨R.PATH_STAT, 16, 16⟩
abbrev R.PATH_DRILL_CNT : Nat := 0xc050
abbrev F.PATH_DRILL_CNT_PASS : RegField := ⟨R.PATH_DRILL_CNT, 0, 16⟩
abbrev F.PATH_DRILL_CNT_FAIL : RegField := ⟨R.PATH_DRILL_CNT, 16, 16⟩
abbrev R.TXR_BASE_LO : Nat := 0xc060
abbrev F.TXR_BASE_LO_BASE : RegField := ⟨R.TXR_BASE_LO, 0, 32⟩
abbrev R.TXR_BASE_HI : Nat := 0xc064
abbrev F.TXR_BASE_HI_BASE : RegField := ⟨R.TXR_BASE_HI, 0, 8⟩
abbrev R.TXR_SIZE : Nat := 0xc068
abbrev F.TXR_SIZE_SIZE : RegField := ⟨R.TXR_SIZE, 0, 16⟩
abbrev R.TXR_TAIL : Nat := 0xc06c
abbrev F.TXR_TAIL_TAIL : RegField := ⟨R.TXR_TAIL, 0, 16⟩
abbrev R.TXR_HEAD : Nat := 0xc070
abbrev F.TXR_HEAD_HEAD : RegField := ⟨R.TXR_HEAD, 0, 16⟩
abbrev R.RXR_BASE_LO : Nat := 0xc074
abbrev F.RXR_BASE_LO_BASE : RegField := ⟨R.RXR_BASE_LO, 0, 32⟩
abbrev R.RXR_BASE_HI : Nat := 0xc078
abbrev F.RXR_BASE_HI_BASE : RegField := ⟨R.RXR_BASE_HI, 0, 8⟩
abbrev R.RXR_SIZE : Nat := 0xc07c
abbrev F.RXR_SIZE_SIZE : RegField := ⟨R.RXR_SIZE, 0, 16⟩
abbrev R.RXR_TAIL : Nat := 0xc080
abbrev F.RXR_TAIL_TAIL : RegField := ⟨R.RXR_TAIL, 0, 16⟩
abbrev R.RXR_HEAD : Nat := 0xc084
abbrev F.RXR_HEAD_HEAD : RegField := ⟨R.RXR_HEAD, 0, 16⟩
abbrev R.RXR_DROPS : Nat := 0xc088
abbrev F.RXR_DROPS_DROPS : RegField := ⟨R.RXR_DROPS, 0, 32⟩
abbrev R.JTP_CFG : Nat := 0xd040
abbrev F.JTP_CFG_UDP_PORT : RegField := ⟨R.JTP_CFG, 0, 16⟩
abbrev F.JTP_CFG_ACK_N : RegField := ⟨R.JTP_CFG, 16, 8⟩
abbrev F.JTP_CFG_CREDIT_STEP : RegField := ⟨R.JTP_CFG, 24, 8⟩
abbrev R.JTP_TMR : Nat := 0xd044
abbrev F.JTP_TMR_ACK_TMO : RegField := ⟨R.JTP_TMR, 0, 16⟩
abbrev F.JTP_TMR_NAK_HOLD : RegField := ⟨R.JTP_TMR, 16, 16⟩
abbrev R.JTP_RTO : Nat := 0xd048
abbrev F.JTP_RTO_RTO : RegField := ⟨R.JTP_RTO, 0, 16⟩
abbrev R.JTP_STAGE : Nat := 0xd04c
abbrev F.JTP_STAGE_UNITS : RegField := ⟨R.JTP_STAGE, 0, 16⟩
abbrev F.JTP_STAGE_FREE : RegField := ⟨R.JTP_STAGE, 16, 16⟩
abbrev R.CNT_FORMAT : Nat := 0xd050
abbrev F.CNT_FORMAT_CNT : RegField := ⟨R.CNT_FORMAT, 0, 32⟩
abbrev R.CNT_CRC : Nat := 0xd054
abbrev F.CNT_CRC_CNT : RegField := ⟨R.CNT_CRC, 0, 32⟩
abbrev R.CNT_SESSION : Nat := 0xd058
abbrev F.CNT_SESSION_CNT : RegField := ⟨R.CNT_SESSION, 0, 32⟩
abbrev R.CNT_AUTH : Nat := 0xd05c
abbrev F.CNT_AUTH_CNT : RegField := ⟨R.CNT_AUTH, 0, 32⟩
abbrev R.CNT_STATE : Nat := 0xd060
abbrev F.CNT_STATE_CNT : RegField := ⟨R.CNT_STATE, 0, 32⟩
abbrev R.CNT_DUP : Nat := 0xd064
abbrev F.CNT_DUP_CNT : RegField := ⟨R.CNT_DUP, 0, 32⟩
abbrev R.CNT_WINDOW : Nat := 0xd068
abbrev F.CNT_WINDOW_CNT : RegField := ⟨R.CNT_WINDOW, 0, 32⟩
abbrev R.CNT_REJECT : Nat := 0xd06c
abbrev F.CNT_REJECT_CNT : RegField := ⟨R.CNT_REJECT, 0, 32⟩
abbrev R.CNT_CREDIT : Nat := 0xd070
abbrev F.CNT_CREDIT_CNT : RegField := ⟨R.CNT_CREDIT, 0, 32⟩
abbrev R.CNT_MGMT_DROP : Nat := 0xd074
abbrev F.CNT_MGMT_DROP_CNT : RegField := ⟨R.CNT_MGMT_DROP, 0, 32⟩
abbrev R.CNT_TELE_SKIP : Nat := 0xd078
abbrev F.CNT_TELE_SKIP_CNT : RegField := ⟨R.CNT_TELE_SKIP, 0, 32⟩
abbrev R.CNT_EVT_DROP : Nat := 0xd07c
abbrev F.CNT_EVT_DROP_CNT : RegField := ⟨R.CNT_EVT_DROP, 0, 32⟩
abbrev R.JTP_KEY_SEL : Nat := 0xd080
abbrev F.JTP_KEY_SEL_SESSION : RegField := ⟨R.JTP_KEY_SEL, 0, 4⟩
abbrev F.JTP_KEY_SEL_SLOT : RegField := ⟨R.JTP_KEY_SEL, 4, 1⟩
abbrev F.JTP_KEY_SEL_LOAD : RegField := ⟨R.JTP_KEY_SEL, 5, 1⟩
abbrev R.JTP_KEY_DATA (j : Nat) : Nat := 0xd084 + j * 0x4
abbrev F.JTP_KEY_DATA_KEY (j : Nat) : RegField := ⟨R.JTP_KEY_DATA j, 0, 32⟩
abbrev R.JTP_EVT_EN : Nat := 0xd0a4
abbrev F.JTP_EVT_EN_EN : RegField := ⟨R.JTP_EVT_EN, 0, 11⟩
abbrev R.MTX_BASE_LO : Nat := 0xd0c0
abbrev F.MTX_BASE_LO_BASE : RegField := ⟨R.MTX_BASE_LO, 0, 32⟩
abbrev R.MTX_BASE_HI : Nat := 0xd0c4
abbrev F.MTX_BASE_HI_BASE : RegField := ⟨R.MTX_BASE_HI, 0, 8⟩
abbrev R.MTX_SIZE : Nat := 0xd0c8
abbrev F.MTX_SIZE_SIZE : RegField := ⟨R.MTX_SIZE, 0, 16⟩
abbrev R.MTX_TAIL : Nat := 0xd0cc
abbrev F.MTX_TAIL_TAIL : RegField := ⟨R.MTX_TAIL, 0, 16⟩
abbrev R.MTX_HEAD : Nat := 0xd0d0
abbrev F.MTX_HEAD_HEAD : RegField := ⟨R.MTX_HEAD, 0, 16⟩
abbrev R.MRX_BASE_LO : Nat := 0xd0e0
abbrev F.MRX_BASE_LO_BASE : RegField := ⟨R.MRX_BASE_LO, 0, 32⟩
abbrev R.MRX_BASE_HI : Nat := 0xd0e4
abbrev F.MRX_BASE_HI_BASE : RegField := ⟨R.MRX_BASE_HI, 0, 8⟩
abbrev R.MRX_SIZE : Nat := 0xd0e8
abbrev F.MRX_SIZE_SIZE : RegField := ⟨R.MRX_SIZE, 0, 16⟩
abbrev R.MRX_TAIL : Nat := 0xd0ec
abbrev F.MRX_TAIL_TAIL : RegField := ⟨R.MRX_TAIL, 0, 16⟩
abbrev R.MRX_HEAD : Nat := 0xd0f0
abbrev F.MRX_HEAD_HEAD : RegField := ⟨R.MRX_HEAD, 0, 16⟩
abbrev R.MRX_WMARK : Nat := 0xd0f4
abbrev F.MRX_WMARK_WMARK : RegField := ⟨R.MRX_WMARK, 0, 16⟩
abbrev R.SESS_CFG (j : Nat) : Nat := 0xd100 + j * 0x40
abbrev F.SESS_CFG_EN (j : Nat) : RegField := ⟨R.SESS_CFG j, 0, 1⟩
abbrev F.SESS_CFG_AUTH_REQ (j : Nat) : RegField := ⟨R.SESS_CFG j, 1, 1⟩
abbrev F.SESS_CFG_REG_EN (j : Nat) : RegField := ⟨R.SESS_CFG j, 2, 1⟩
abbrev F.SESS_CFG_IP6 (j : Nat) : RegField := ⟨R.SESS_CFG j, 3, 1⟩
abbrev F.SESS_CFG_TX_KEY (j : Nat) : RegField := ⟨R.SESS_CFG j, 4, 1⟩
abbrev F.SESS_CFG_CREDIT_MAX (j : Nat) : RegField := ⟨R.SESS_CFG j, 8, 8⟩
abbrev F.SESS_CFG_PEER_PORT (j : Nat) : RegField := ⟨R.SESS_CFG j, 16, 16⟩
abbrev R.SESS_STAT (j : Nat) : Nat := 0xd104 + j * 0x40
abbrev F.SESS_STAT_STATE (j : Nat) : RegField := ⟨R.SESS_STAT j, 0, 2⟩
abbrev F.SESS_STAT_STALE0 (j : Nat) : RegField := ⟨R.SESS_STAT j, 2, 1⟩
abbrev F.SESS_STAT_STALE1 (j : Nat) : RegField := ⟨R.SESS_STAT j, 3, 1⟩
abbrev R.PEER_IP4 (j : Nat) : Nat := 0xd108 + j * 0x40
abbrev F.PEER_IP4_ADDR (j : Nat) : RegField := ⟨R.PEER_IP4 j, 0, 32⟩
abbrev R.PEER_IP6 (j : Nat) (k : Nat) : Nat := 0xd10c + j * 0x40 + k * 0x4
abbrev F.PEER_IP6_ADDR (j : Nat) (k : Nat) : RegField := ⟨R.PEER_IP6 j k, 0, 32⟩
abbrev R.PEER_MAC_LO (j : Nat) : Nat := 0xd11c + j * 0x40
abbrev F.PEER_MAC_LO_MAC (j : Nat) : RegField := ⟨R.PEER_MAC_LO j, 0, 32⟩
abbrev R.PEER_MAC_HI (j : Nat) : Nat := 0xd120 + j * 0x40
abbrev F.PEER_MAC_HI_MAC (j : Nat) : RegField := ⟨R.PEER_MAC_HI j, 0, 16⟩
abbrev R.WIN_BASE_LO (j : Nat) : Nat := 0xd124 + j * 0x40
abbrev F.WIN_BASE_LO_BASE (j : Nat) : RegField := ⟨R.WIN_BASE_LO j, 0, 32⟩
abbrev R.WIN_BASE_HI (j : Nat) : Nat := 0xd128 + j * 0x40
abbrev F.WIN_BASE_HI_BASE (j : Nat) : RegField := ⟨R.WIN_BASE_HI j, 0, 8⟩
abbrev R.WIN_SIZE (j : Nat) : Nat := 0xd12c + j * 0x40
abbrev F.WIN_SIZE_SIZE (j : Nat) : RegField := ⟨R.WIN_SIZE j, 0, 24⟩
abbrev R.RX_CUM (j : Nat) : Nat := 0xd130 + j * 0x40
abbrev F.RX_CUM_CUM (j : Nat) : RegField := ⟨R.RX_CUM j, 0, 32⟩
abbrev R.TX_NEXT (j : Nat) : Nat := 0xd134 + j * 0x40
abbrev F.TX_NEXT_NEXT (j : Nat) : RegField := ⟨R.TX_NEXT j, 0, 32⟩
abbrev R.JOB (j : Nat) : Nat := 0xd138 + j * 0x40
abbrev F.JOB_JOB (j : Nat) : RegField := ⟨R.JOB j, 0, 32⟩
abbrev R.STORE_SIDX : Nat := 0xe040
abbrev F.STORE_SIDX_IDX : RegField := ⟨R.STORE_SIDX, 0, 8⟩
abbrev R.STORE_SDATA0 : Nat := 0xe044
abbrev F.STORE_SDATA0_BASE : RegField := ⟨R.STORE_SDATA0, 0, 28⟩
abbrev R.STORE_SDATA1 : Nat := 0xe048
abbrev F.STORE_SDATA1_SIZE : RegField := ⟨R.STORE_SDATA1, 0, 20⟩
abbrev F.STORE_SDATA1_KIND : RegField := ⟨R.STORE_SDATA1, 20, 2⟩
abbrev F.STORE_SDATA1_PLANE : RegField := ⟨R.STORE_SDATA1, 22, 3⟩
abbrev F.STORE_SDATA1_RING : RegField := ⟨R.STORE_SDATA1, 25, 1⟩
abbrev F.STORE_SDATA1_EN : RegField := ⟨R.STORE_SDATA1, 26, 1⟩
abbrev F.STORE_SDATA1_ERR : RegField := ⟨R.STORE_SDATA1, 27, 1⟩
abbrev F.STORE_SDATA1_FAILED : RegField := ⟨R.STORE_SDATA1, 28, 1⟩
abbrev R.STORE_SDATA2 : Nat := 0xe04c
abbrev F.STORE_SDATA2_FILL : RegField := ⟨R.STORE_SDATA2, 0, 32⟩
abbrev R.STORE_SDATA3 : Nat := 0xe050
abbrev F.STORE_SDATA3_DRAIN : RegField := ⟨R.STORE_SDATA3, 0, 32⟩
abbrev R.STORE_CTL : Nat := 0xe054
abbrev F.STORE_CTL_RESET : RegField := ⟨R.STORE_CTL, 0, 1⟩
abbrev F.STORE_CTL_REWIND : RegField := ⟨R.STORE_CTL, 1, 1⟩
abbrev F.STORE_CTL_REISSUE : RegField := ⟨R.STORE_CTL, 8, 8⟩
abbrev F.STORE_CTL_SEAM : RegField := ⟨R.STORE_CTL, 16, 8⟩
abbrev F.STORE_CTL_SEAM_CLR : RegField := ⟨R.STORE_CTL, 24, 8⟩
abbrev R.STORE_COR_BASE_LO : Nat := 0xe058
abbrev F.STORE_COR_BASE_LO_BASE : RegField := ⟨R.STORE_COR_BASE_LO, 0, 32⟩
abbrev R.STORE_COR_BASE_HI : Nat := 0xe05c
abbrev F.STORE_COR_BASE_HI_BASE : RegField := ⟨R.STORE_COR_BASE_HI, 0, 8⟩
abbrev R.STORE_COR_FILL : Nat := 0xe060
abbrev F.STORE_COR_FILL_FILL : RegField := ⟨R.STORE_COR_FILL, 0, 16⟩
abbrev R.STORE_SEAM_TOL : Nat := 0xe064
abbrev F.STORE_SEAM_TOL_TOL : RegField := ⟨R.STORE_SEAM_TOL, 0, 16⟩
abbrev R.STORE_SFAIL : Nat := 0xe068
abbrev F.STORE_SFAIL_OFS : RegField := ⟨R.STORE_SFAIL, 0, 32⟩
abbrev R.STORE_SEAM_CFG (j : Nat) : Nat := 0xe080 + j * 0x10
abbrev F.STORE_SEAM_CFG_BACKUP (j : Nat) : RegField := ⟨R.STORE_SEAM_CFG j, 0, 24⟩
abbrev R.STORE_SEAM_STAT (j : Nat) : Nat := 0xe084 + j * 0x10
abbrev F.STORE_SEAM_STAT_STATE (j : Nat) : RegField := ⟨R.STORE_SEAM_STAT j, 0, 2⟩
abbrev F.STORE_SEAM_STAT_CAUSES (j : Nat) : RegField := ⟨R.STORE_SEAM_STAT j, 2, 9⟩
abbrev F.STORE_SEAM_STAT_COUNT (j : Nat) : RegField := ⟨R.STORE_SEAM_STAT j, 16, 16⟩
abbrev R.STORE_SEAM_M_LO (j : Nat) : Nat := 0xe088 + j * 0x10
abbrev F.STORE_SEAM_M_LO_M (j : Nat) : RegField := ⟨R.STORE_SEAM_M_LO j, 0, 32⟩
abbrev R.STORE_SEAM_M_HI (j : Nat) : Nat := 0xe08c + j * 0x10
abbrev F.STORE_SEAM_M_HI_M (j : Nat) : RegField := ⟨R.STORE_SEAM_M_HI j, 0, 16⟩
abbrev R.STORE_MISS (j : Nat) : Nat := 0xe100 + j * 0x4
abbrev F.STORE_MISS_DESC (j : Nat) : RegField := ⟨R.STORE_MISS j, 0, 1⟩
abbrev F.STORE_MISS_BG (j : Nat) : RegField := ⟨R.STORE_MISS j, 1, 1⟩
abbrev F.STORE_MISS_OVL (j : Nat) : RegField := ⟨R.STORE_MISS j, 2, 1⟩
abbrev F.STORE_MISS_MASK (j : Nat) : RegField := ⟨R.STORE_MISS j, 3, 1⟩
abbrev F.STORE_MISS_CFG (j : Nat) : RegField := ⟨R.STORE_MISS j, 4, 1⟩
abbrev F.STORE_MISS_DESC_CODE (j : Nat) : RegField := ⟨R.STORE_MISS j, 8, 4⟩
abbrev R.LAYER_BG (j : Nat) : Nat := 0xf040 + j * 0x8
abbrev F.LAYER_BG_STREAM (j : Nat) : RegField := ⟨R.LAYER_BG j, 0, 8⟩
abbrev F.LAYER_BG_EN (j : Nat) : RegField := ⟨R.LAYER_BG j, 8, 1⟩
abbrev R.LAYER_BG_LINES (j : Nat) : Nat := 0xf044 + j * 0x8
abbrev F.LAYER_BG_LINES_LINES (j : Nat) : RegField := ⟨R.LAYER_BG_LINES j, 0, 20⟩
abbrev R.LAYER_OV (j : Nat) : Nat := 0xf080 + j * 0x4
abbrev F.LAYER_OV_VAL_STREAM (j : Nat) : RegField := ⟨R.LAYER_OV j, 0, 8⟩
abbrev F.LAYER_OV_MASK_STREAM (j : Nat) : RegField := ⟨R.LAYER_OV j, 8, 8⟩
abbrev R.CODEC_ERR : Nat := 0x10040
abbrev F.CODEC_ERR_CODE : RegField := ⟨R.CODEC_ERR, 0, 8⟩
abbrev F.CODEC_ERR_PLANE : RegField := ⟨R.CODEC_ERR, 8, 3⟩
abbrev F.CODEC_ERR_KIND : RegField := ⟨R.CODEC_ERR, 11, 1⟩
abbrev F.CODEC_ERR_SEG : RegField := ⟨R.CODEC_ERR, 12, 7⟩
abbrev R.CODEC_ERR_LINE_LO : Nat := 0x10044
abbrev F.CODEC_ERR_LINE_LO_LINE : RegField := ⟨R.CODEC_ERR_LINE_LO, 0, 32⟩
abbrev R.CODEC_ERR_LINE_HI : Nat := 0x10048
abbrev F.CODEC_ERR_LINE_HI_LINE : RegField := ⟨R.CODEC_ERR_LINE_HI, 0, 16⟩
abbrev R.CODEC_ERR_CNT : Nat := 0x1004c
abbrev F.CODEC_ERR_CNT_COUNT : RegField := ⟨R.CODEC_ERR_CNT, 0, 16⟩
abbrev R.CMP_CFG : Nat := 0x10080
abbrev F.CMP_CFG_DEPTH : RegField := ⟨R.CMP_CFG, 0, 2⟩
abbrev F.CMP_CFG_EXHAUST : RegField := ⟨R.CMP_CFG, 2, 1⟩
abbrev F.CMP_CFG_NO_FALLBACK : RegField := ⟨R.CMP_CFG, 3, 1⟩
abbrev F.CMP_CFG_QHI : RegField := ⟨R.CMP_CFG, 8, 4⟩
abbrev F.CMP_CFG_QLO : RegField := ⟨R.CMP_CFG, 12, 4⟩
abbrev R.CMP_SRC_LO : Nat := 0x10084
abbrev F.CMP_SRC_LO_SRC : RegField := ⟨R.CMP_SRC_LO, 0, 32⟩
abbrev R.CMP_SRC_HI : Nat := 0x10088
abbrev F.CMP_SRC_HI_SRC : RegField := ⟨R.CMP_SRC_HI, 0, 8⟩
abbrev R.CMP_STRIDE : Nat := 0x1008c
abbrev F.CMP_STRIDE_STRIDE : RegField := ⟨R.CMP_STRIDE, 0, 24⟩
abbrev R.CMP_WIDTH : Nat := 0x10090
abbrev F.CMP_WIDTH_W : RegField := ⟨R.CMP_WIDTH, 0, 18⟩
abbrev R.CMP_LINES : Nat := 0x10094
abbrev F.CMP_LINES_LINES : RegField := ⟨R.CMP_LINES, 0, 32⟩
abbrev R.CMP_CMD : Nat := 0x10098
abbrev F.CMP_CMD_START : RegField := ⟨R.CMP_CMD, 0, 1⟩
abbrev F.CMP_CMD_ABORT : RegField := ⟨R.CMP_CMD, 1, 1⟩
abbrev F.CMP_CMD_SRC : RegField := ⟨R.CMP_CMD, 2, 1⟩
abbrev R.CMP_STAT : Nat := 0x1009c
abbrev F.CMP_STAT_BUSY : RegField := ⟨R.CMP_STAT, 0, 1⟩
abbrev F.CMP_STAT_STALLED : RegField := ⟨R.CMP_STAT, 1, 1⟩
abbrev F.CMP_STAT_DONE : RegField := ⟨R.CMP_STAT, 2, 1⟩
abbrev F.CMP_STAT_PARTIAL : RegField := ⟨R.CMP_STAT, 3, 1⟩
abbrev F.CMP_STAT_FAULT : RegField := ⟨R.CMP_STAT, 4, 1⟩
abbrev F.CMP_STAT_VERIFY_FAIL : RegField := ⟨R.CMP_STAT, 16, 16⟩
abbrev R.CMP_VALID_LO : Nat := 0x100a0
abbrev F.CMP_VALID_LO_VALID : RegField := ⟨R.CMP_VALID_LO, 0, 32⟩
abbrev R.CMP_VALID_HI : Nat := 0x100a4
abbrev F.CMP_VALID_HI_VALID : RegField := ⟨R.CMP_VALID_HI, 0, 32⟩
abbrev R.CMP_LINES_DONE : Nat := 0x100a8
abbrev F.CMP_LINES_DONE_LINES : RegField := ⟨R.CMP_LINES_DONE, 0, 32⟩
abbrev R.CMP_RAWFALL : Nat := 0x100ac
abbrev F.CMP_RAWFALL_COUNT : RegField := ⟨R.CMP_RAWFALL, 0, 32⟩
abbrev R.CMP_DESC_BASE_LO : Nat := 0x100c0
abbrev F.CMP_DESC_BASE_LO_BASE : RegField := ⟨R.CMP_DESC_BASE_LO, 0, 32⟩
abbrev R.CMP_DESC_BASE_HI : Nat := 0x100c4
abbrev F.CMP_DESC_BASE_HI_BASE : RegField := ⟨R.CMP_DESC_BASE_HI, 0, 8⟩
abbrev R.CMP_DESC_SIZE : Nat := 0x100c8
abbrev F.CMP_DESC_SIZE_SIZE : RegField := ⟨R.CMP_DESC_SIZE, 0, 16⟩
abbrev R.CMP_DESC_TAIL : Nat := 0x100cc
abbrev F.CMP_DESC_TAIL_TAIL : RegField := ⟨R.CMP_DESC_TAIL, 0, 16⟩
abbrev R.CMP_DESC_HEAD : Nat := 0x100d0
abbrev F.CMP_DESC_HEAD_HEAD : RegField := ⟨R.CMP_DESC_HEAD, 0, 16⟩
abbrev R.SCR_TILE_A (j : Nat) : Nat := 0x11040 + j * 0x8
abbrev F.SCR_TILE_A_BASE (j : Nat) : RegField := ⟨R.SCR_TILE_A j, 0, 20⟩
abbrev R.SCR_TILE_B (j : Nat) : Nat := 0x11044 + j * 0x8
abbrev F.SCR_TILE_B_TW_M1 (j : Nat) : RegField := ⟨R.SCR_TILE_B j, 0, 8⟩
abbrev F.SCR_TILE_B_TH_M1 (j : Nat) : RegField := ⟨R.SCR_TILE_B j, 8, 8⟩
abbrev F.SCR_TILE_B_COL0 (j : Nat) : RegField := ⟨R.SCR_TILE_B j, 16, 8⟩
abbrev F.SCR_TILE_B_ROW0 (j : Nat) : RegField := ⟨R.SCR_TILE_B j, 24, 8⟩
abbrev R.SCR_PASS : Nat := 0x11080
abbrev F.SCR_PASS_GROUP_M1 : RegField := ⟨R.SCR_PASS, 0, 2⟩
abbrev F.SCR_PASS_BIDIR : RegField := ⟨R.SCR_PASS, 2, 1⟩
abbrev F.SCR_PASS_PHASE : RegField := ⟨R.SCR_PASS, 4, 4⟩
abbrev R.SCR_PASS_STAT : Nat := 0x11084
abbrev F.SCR_PASS_STAT_PASS : RegField := ⟨R.SCR_PASS_STAT, 0, 2⟩
abbrev F.SCR_PASS_STAT_REV : RegField := ⟨R.SCR_PASS_STAT, 2, 1⟩
abbrev R.SCR_TADDR : Nat := 0x110c0
abbrev F.SCR_TADDR_ADDR : RegField := ⟨R.SCR_TADDR, 0, 20⟩
abbrev R.SCR_TDATA : Nat := 0x110c4
abbrev F.SCR_TDATA_DATA : RegField := ⟨R.SCR_TDATA, 0, 32⟩
abbrev R.NOZ_IDX : Nat := 0x12040
abbrev F.NOZ_IDX_IDX : RegField := ⟨R.NOZ_IDX, 0, 17⟩
abbrev F.NOZ_IDX_INC : RegField := ⟨R.NOZ_IDX, 31, 1⟩
abbrev R.NOZ_SH_LO : Nat := 0x12044
abbrev F.NOZ_SH_LO_ENTRY : RegField := ⟨R.NOZ_SH_LO, 0, 32⟩
abbrev R.NOZ_SH_HI : Nat := 0x12048
abbrev F.NOZ_SH_HI_ENTRY : RegField := ⟨R.NOZ_SH_HI, 0, 32⟩
abbrev R.NOZ_LIVE_LO : Nat := 0x1204c
abbrev F.NOZ_LIVE_LO_ENTRY : RegField := ⟨R.NOZ_LIVE_LO, 0, 32⟩
abbrev R.NOZ_LIVE_HI : Nat := 0x12050
abbrev F.NOZ_LIVE_HI_ENTRY : RegField := ⟨R.NOZ_LIVE_HI, 0, 32⟩
abbrev R.NOZ_WEAR_LO : Nat := 0x12054
abbrev F.NOZ_WEAR_LO_COUNT : RegField := ⟨R.NOZ_WEAR_LO, 0, 32⟩
abbrev R.NOZ_WEAR_HI : Nat := 0x12058
abbrev F.NOZ_WEAR_HI_COUNT : RegField := ⟨R.NOZ_WEAR_HI, 0, 16⟩
abbrev R.NOZ_CNT_LOST : Nat := 0x1205c
abbrev F.NOZ_CNT_LOST_LOST : RegField := ⟨R.NOZ_CNT_LOST, 0, 32⟩
abbrev R.PLOG_BASE_LO : Nat := 0x12100
abbrev F.PLOG_BASE_LO_BASE : RegField := ⟨R.PLOG_BASE_LO, 0, 32⟩
abbrev R.PLOG_BASE_HI : Nat := 0x12104
abbrev F.PLOG_BASE_HI_BASE : RegField := ⟨R.PLOG_BASE_HI, 0, 8⟩
abbrev R.PLOG_SIZE : Nat := 0x12108
abbrev F.PLOG_SIZE_SIZE : RegField := ⟨R.PLOG_SIZE, 0, 21⟩
abbrev R.PLOG_HEAD : Nat := 0x1210c
abbrev F.PLOG_HEAD_HEAD : RegField := ⟨R.PLOG_HEAD, 0, 20⟩
abbrev R.PLOG_SENT : Nat := 0x12110
abbrev F.PLOG_SENT_SENT : RegField := ⟨R.PLOG_SENT, 0, 20⟩
abbrev R.PLOG_CFG : Nat := 0x12114
abbrev F.PLOG_CFG_STOP_FULL : RegField := ⟨R.PLOG_CFG, 0, 1⟩
abbrev F.PLOG_CFG_LOCAL : RegField := ⟨R.PLOG_CFG, 1, 1⟩
abbrev R.PLOG_STAT : Nat := 0x12118
abbrev F.PLOG_STAT_FULL : RegField := ⟨R.PLOG_STAT, 0, 1⟩
abbrev F.PLOG_STAT_DROPS : RegField := ⟨R.PLOG_STAT, 16, 16⟩
abbrev R.PLOG_SEQ : Nat := 0x1211c
abbrev F.PLOG_SEQ_SEQ : RegField := ⟨R.PLOG_SEQ, 0, 32⟩
abbrev R.FIRE_CFG : Nat := 0x13040
abbrev F.FIRE_CFG_REJ_PLANE : RegField := ⟨R.FIRE_CFG, 0, 3⟩
abbrev F.FIRE_CFG_REJ_EN : RegField := ⟨R.FIRE_CFG, 3, 1⟩
abbrev F.FIRE_CFG_REJ_WIDTH : RegField := ⟨R.FIRE_CFG, 8, 16⟩
abbrev R.FIRE_REJ_DIST_LO : Nat := 0x13044
abbrev F.FIRE_REJ_DIST_LO_DIST : RegField := ⟨R.FIRE_REJ_DIST_LO, 0, 32⟩
abbrev R.FIRE_REJ_DIST_HI : Nat := 0x13048
abbrev F.FIRE_REJ_DIST_HI_DIST : RegField := ⟨R.FIRE_REJ_DIST_HI, 0, 16⟩
abbrev R.FIRE_REJ_REQ : Nat := 0x1304c
abbrev F.FIRE_REJ_REQ_EPOCH : RegField := ⟨R.FIRE_REJ_REQ, 0, 32⟩
abbrev R.FIRE_STAT : Nat := 0x13050
abbrev F.FIRE_STAT_REJ_PEND : RegField := ⟨R.FIRE_STAT, 0, 7⟩
abbrev F.FIRE_STAT_REJ_OVF : RegField := ⟨R.FIRE_STAT, 7, 1⟩
abbrev F.FIRE_STAT_REJ_LATE : RegField := ⟨R.FIRE_STAT, 8, 1⟩
abbrev R.FIRE_CTL : Nat := 0x13054
abbrev F.FIRE_CTL_REJ_CLR : RegField := ⟨R.FIRE_CTL, 0, 1⟩
abbrev R.WAVE_TSEL : Nat := 0x14040
abbrev F.WAVE_TSEL_INST : RegField := ⟨R.WAVE_TSEL, 0, 6⟩
abbrev F.WAVE_TSEL_IDX : RegField := ⟨R.WAVE_TSEL, 16, 9⟩
abbrev F.WAVE_TSEL_INC : RegField := ⟨R.WAVE_TSEL, 31, 1⟩
abbrev R.WAVE_TDATA : Nat := 0x14044
abbrev F.WAVE_TDATA_DATA : RegField := ⟨R.WAVE_TDATA, 0, 32⟩
abbrev R.WAVE_CHK : Nat := 0x14048
abbrev F.WAVE_CHK_CODE : RegField := ⟨R.WAVE_CHK, 0, 8⟩
abbrev F.WAVE_CHK_INST : RegField := ⟨R.WAVE_CHK, 8, 6⟩
abbrev F.WAVE_CHK_SEG : RegField := ⟨R.WAVE_CHK, 16, 8⟩
abbrev R.WAVE_WSET : Nat := 0x1404c
abbrev F.WAVE_WSET_WSET : RegField := ⟨R.WAVE_WSET, 0, 32⟩
abbrev R.HP_FIRE (i : Nat) : Nat := 0x20040 + i * 0x1000
abbrev F.HP_FIRE_FLAT (i : Nat) : RegField := ⟨R.HP_FIRE i, 0, 12⟩
abbrev F.HP_FIRE_SETUP (i : Nat) : RegField := ⟨R.HP_FIRE i, 12, 8⟩
abbrev R.HP_OFS_FWD (i : Nat) : Nat := 0x20044 + i * 0x1000
abbrev F.HP_OFS_FWD_OFS (i : Nat) : RegField := ⟨R.HP_OFS_FWD i, 0, 20⟩
abbrev R.HP_OFS_REV (i : Nat) : Nat := 0x20048 + i * 0x1000
abbrev F.HP_OFS_REV_OFS (i : Nat) : RegField := ⟨R.HP_OFS_REV i, 0, 20⟩
abbrev R.HP_EXT_DUR (i : Nat) : Nat := 0x2004c + i * 0x1000
abbrev F.HP_EXT_DUR_DUR (i : Nat) : RegField := ⟨R.HP_EXT_DUR i, 0, 12⟩
abbrev R.HP_TEMP_A (i : Nat) : Nat := 0x20050 + i * 0x1000
abbrev F.HP_TEMP_A_T_WARN (i : Nat) : RegField := ⟨R.HP_TEMP_A i, 0, 12⟩
abbrev F.HP_TEMP_A_T_STOP (i : Nat) : RegField := ⟨R.HP_TEMP_A i, 16, 12⟩
abbrev R.HP_TEMP_B (i : Nat) : Nat := 0x20054 + i * 0x1000
abbrev F.HP_TEMP_B_T_CUT (i : Nat) : RegField := ⟨R.HP_TEMP_B i, 0, 12⟩
abbrev F.HP_TEMP_B_T_RESUME (i : Nat) : RegField := ⟨R.HP_TEMP_B i, 16, 12⟩
abbrev F.HP_TEMP_B_TMO (i : Nat) : RegField := ⟨R.HP_TEMP_B i, 28, 4⟩
abbrev R.HP_CTL (i : Nat) : Nat := 0x20058 + i * 0x1000
abbrev F.HP_CTL_CUT_CLR (i : Nat) : RegField := ⟨R.HP_CTL i, 0, 1⟩
abbrev F.HP_CTL_CUT (i : Nat) : RegField := ⟨R.HP_CTL i, 1, 1⟩
abbrev R.HP_STAT (i : Nat) : Nat := 0x2005c + i * 0x1000
abbrev F.HP_STAT_TEMP (i : Nat) : RegField := ⟨R.HP_STAT i, 0, 12⟩
abbrev F.HP_STAT_TEMP_VALID (i : Nat) : RegField := ⟨R.HP_STAT i, 12, 1⟩
abbrev F.HP_STAT_WARN (i : Nat) : RegField := ⟨R.HP_STAT i, 13, 1⟩
abbrev F.HP_STAT_STOP (i : Nat) : RegField := ⟨R.HP_STAT i, 14, 1⟩
abbrev F.HP_STAT_CUT (i : Nat) : RegField := ⟨R.HP_STAT i, 15, 1⟩
abbrev F.HP_STAT_CUT_CAUSE (i : Nat) : RegField := ⟨R.HP_STAT i, 16, 2⟩
abbrev F.HP_STAT_TAP_PASS (i : Nat) : RegField := ⟨R.HP_STAT i, 18, 1⟩
abbrev R.HP_CNT (i : Nat) : Nat := 0x20060 + i * 0x1000
abbrev F.HP_CNT_LATE (i : Nat) : RegField := ⟨R.HP_CNT i, 0, 16⟩
abbrev F.HP_CNT_SHIFT (i : Nat) : RegField := ⟨R.HP_CNT i, 16, 16⟩
abbrev R.HP_TRIM (i : Nat) : Nat := 0x20064 + i * 0x1000
abbrev F.HP_TRIM_DT (i : Nat) : RegField := ⟨R.HP_TRIM i, 0, 20⟩
abbrev R.HP_AG (i : Nat) : Nat := 0x20068 + i * 0x1000
abbrev F.HP_AG_AG0 (i : Nat) : RegField := ⟨R.HP_AG i, 0, 13⟩
abbrev F.HP_AG_AG1 (i : Nat) : RegField := ⟨R.HP_AG i, 16, 13⟩
abbrev R.HP_TAP_SEL (i : Nat) : Nat := 0x2006c + i * 0x1000
abbrev F.HP_TAP_SEL_TAP (i : Nat) : RegField := ⟨R.HP_TAP_SEL i, 0, 8⟩
abbrev R.HP_TAP_VAL (i : Nat) : Nat := 0x20070 + i * 0x1000
abbrev F.HP_TAP_VAL_TAU (i : Nat) : RegField := ⟨R.HP_TAP_VAL i, 0, 16⟩
abbrev R.HPL_CFG (i : Nat) : Nat := 0x20080 + i * 0x1000
abbrev F.HPL_CFG_EN (i : Nat) : RegField := ⟨R.HPL_CFG i, 0, 1⟩
abbrev F.HPL_CFG_AUTO (i : Nat) : RegField := ⟨R.HPL_CFG i, 1, 1⟩
abbrev F.HPL_CFG_DOWN (i : Nat) : RegField := ⟨R.HPL_CFG i, 2, 1⟩
abbrev F.HPL_CFG_LNK_TMO (i : Nat) : RegField := ⟨R.HPL_CFG i, 8, 4⟩
abbrev R.HPL_STAT (i : Nat) : Nat := 0x20084 + i * 0x1000
abbrev F.HPL_STAT_STAGE (i : Nat) : RegField := ⟨R.HPL_STAT i, 0, 3⟩
abbrev F.HPL_STAT_INV (i : Nat) : RegField := ⟨R.HPL_STAT i, 3, 1⟩
abbrev F.HPL_STAT_SLOTS (i : Nat) : RegField := ⟨R.HPL_STAT i, 4, 1⟩
abbrev F.HPL_STAT_DOWN_CAUSE (i : Nat) : RegField := ⟨R.HPL_STAT i, 5, 3⟩
abbrev F.HPL_STAT_CACK (i : Nat) : RegField := ⟨R.HPL_STAT i, 8, 8⟩
abbrev F.HPL_STAT_CSEQ (i : Nat) : RegField := ⟨R.HPL_STAT i, 16, 8⟩
abbrev R.HPL_TAPS (i : Nat) (j : Nat) : Nat := 0x20088 + i * 0x1000 + j * 0x4
abbrev F.HPL_TAPS_PRE (i : Nat) (j : Nat) : RegField := ⟨R.HPL_TAPS i j, 0, 6⟩
abbrev F.HPL_TAPS_MAIN (i : Nat) (j : Nat) : RegField := ⟨R.HPL_TAPS i j, 8, 6⟩
abbrev F.HPL_TAPS_POST (i : Nat) (j : Nat) : RegField := ⟨R.HPL_TAPS i j, 16, 6⟩
abbrev R.HPL_EYE (i : Nat) : Nat := 0x20090 + i * 0x1000
abbrev F.HPL_EYE_RX_W (i : Nat) : RegField := ⟨R.HPL_EYE i, 0, 8⟩
abbrev F.HPL_EYE_RX_H (i : Nat) : RegField := ⟨R.HPL_EYE i, 8, 8⟩
abbrev F.HPL_EYE_TX_W (i : Nat) : RegField := ⟨R.HPL_EYE i, 16, 16⟩
abbrev R.HPL_CNT (i : Nat) : Nat := 0x20094 + i * 0x1000
abbrev F.HPL_CNT_BAD (i : Nat) : RegField := ⟨R.HPL_CNT i, 0, 16⟩
abbrev F.HPL_CNT_DOWN (i : Nat) : RegField := ⟨R.HPL_CNT i, 16, 16⟩
abbrev R.HPL_MBX_CTL (i : Nat) : Nat := 0x20098 + i * 0x1000
abbrev F.HPL_MBX_CTL_OP (i : Nat) : RegField := ⟨R.HPL_MBX_CTL i, 0, 8⟩
abbrev F.HPL_MBX_CTL_LEN (i : Nat) : RegField := ⟨R.HPL_MBX_CTL i, 8, 7⟩
abbrev F.HPL_MBX_CTL_SEND (i : Nat) : RegField := ⟨R.HPL_MBX_CTL i, 15, 1⟩
abbrev F.HPL_MBX_CTL_BUSY (i : Nat) : RegField := ⟨R.HPL_MBX_CTL i, 16, 1⟩
abbrev R.HPL_MBX_DATA (i : Nat) (j : Nat) : Nat := 0x200a0 + i * 0x1000 + j * 0x4
abbrev F.HPL_MBX_DATA_DATA (i : Nat) (j : Nat) : RegField := ⟨R.HPL_MBX_DATA i j, 0, 32⟩
abbrev R.LANES_CFG : Nat := 0x40040
abbrev F.LANES_CFG_RATE_M : RegField := ⟨R.LANES_CFG, 0, 7⟩
abbrev F.LANES_CFG_SSC : RegField := ⟨R.LANES_CFG, 7, 1⟩
abbrev F.LANES_CFG_REFOUT_EN : RegField := ⟨R.LANES_CFG, 8, 8⟩
abbrev R.LANES_TRAIN : Nat := 0x40044
abbrev F.LANES_TRAIN_TMO : RegField := ⟨R.LANES_TRAIN, 0, 16⟩
abbrev F.LANES_TRAIN_FAILS : RegField := ⟨R.LANES_TRAIN, 16, 16⟩
abbrev R.LANES_PRESET : Nat := 0x40048
abbrev F.LANES_PRESET_PRE : RegField := ⟨R.LANES_PRESET, 0, 6⟩
abbrev F.LANES_PRESET_MAIN : RegField := ⟨R.LANES_PRESET, 8, 6⟩
abbrev F.LANES_PRESET_POST : RegField := ⟨R.LANES_PRESET, 16, 6⟩
abbrev R.BCR_BASE_LO : Nat := 0x40060
abbrev F.BCR_BASE_LO_BASE : RegField := ⟨R.BCR_BASE_LO, 0, 32⟩
abbrev R.BCR_BASE_HI : Nat := 0x40064
abbrev F.BCR_BASE_HI_BASE : RegField := ⟨R.BCR_BASE_HI, 0, 8⟩
abbrev R.BCR_SIZE : Nat := 0x40068
abbrev F.BCR_SIZE_SIZE : RegField := ⟨R.BCR_SIZE, 0, 16⟩
abbrev R.BCR_TAIL : Nat := 0x4006c
abbrev F.BCR_TAIL_TAIL : RegField := ⟨R.BCR_TAIL, 0, 16⟩
abbrev R.BCR_HEAD : Nat := 0x40070
abbrev F.BCR_HEAD_HEAD : RegField := ⟨R.BCR_HEAD, 0, 16⟩
abbrev R.BCR_DROPS : Nat := 0x40074
abbrev F.BCR_DROPS_DROPS : RegField := ⟨R.BCR_DROPS, 0, 32⟩
abbrev R.CAM_CFG (i : Nat) : Nat := 0x41040 + i * 0x1000
abbrev F.CAM_CFG_NCONN (i : Nat) : RegField := ⟨R.CAM_CFG i, 0, 2⟩
abbrev F.CAM_CFG_CXP (i : Nat) : RegField := ⟨R.CAM_CFG i, 2, 3⟩
abbrev F.CAM_CFG_REF_PLANE (i : Nat) : RegField := ⟨R.CAM_CFG i, 5, 3⟩
abbrev F.CAM_CFG_PAD (i : Nat) : RegField := ⟨R.CAM_CFG i, 16, 12⟩
abbrev R.CAM_CPITCH (i : Nat) : Nat := 0x41044 + i * 0x1000
abbrev F.CAM_CPITCH_CPITCH (i : Nat) : RegField := ⟨R.CAM_CPITCH i, 0, 32⟩
abbrev R.CAM_DIST_LO (i : Nat) : Nat := 0x41048 + i * 0x1000
abbrev F.CAM_DIST_LO_DIST (i : Nat) : RegField := ⟨R.CAM_DIST_LO i, 0, 32⟩
abbrev R.CAM_DIST_HI (i : Nat) : Nat := 0x4104c + i * 0x1000
abbrev F.CAM_DIST_HI_DIST (i : Nat) : RegField := ⟨R.CAM_DIST_HI i, 0, 16⟩
abbrev R.CAM_TMO (i : Nat) : Nat := 0x41050 + i * 0x1000
abbrev F.CAM_TMO_LINE_TMO (i : Nat) : RegField := ⟨R.CAM_TMO i, 0, 16⟩
abbrev F.CAM_TMO_HB_TMO (i : Nat) : RegField := ⟨R.CAM_TMO i, 16, 8⟩
abbrev F.CAM_TMO_TRIG_LAT (i : Nat) : RegField := ⟨R.CAM_TMO i, 24, 8⟩
abbrev R.CAM_UMLINE (i : Nat) : Nat := 0x41054 + i * 0x1000
abbrev F.CAM_UMLINE_UMLINE (i : Nat) : RegField := ⟨R.CAM_UMLINE i, 0, 16⟩
abbrev R.CAM_STAT (i : Nat) : Nat := 0x41058 + i * 0x1000
abbrev F.CAM_STAT_LINK (i : Nat) : RegField := ⟨R.CAM_STAT i, 0, 1⟩
abbrev F.CAM_STAT_HB_LOST (i : Nat) : RegField := ⟨R.CAM_STAT i, 1, 1⟩
abbrev F.CAM_STAT_FRAME (i : Nat) : RegField := ⟨R.CAM_STAT i, 2, 1⟩
abbrev F.CAM_STAT_TRIG_LATE (i : Nat) : RegField := ⟨R.CAM_STAT i, 3, 1⟩
abbrev R.CNT_SHORT (i : Nat) : Nat := 0x4105c + i * 0x1000
abbrev F.CNT_SHORT_CNT (i : Nat) : RegField := ⟨R.CNT_SHORT i, 0, 32⟩
abbrev R.CNT_LONG (i : Nat) : Nat := 0x41060 + i * 0x1000
abbrev F.CNT_LONG_CNT (i : Nat) : RegField := ⟨R.CNT_LONG i, 0, 32⟩
abbrev R.CNT_MISSING (i : Nat) : Nat := 0x41064 + i * 0x1000
abbrev F.CNT_MISSING_CNT (i : Nat) : RegField := ⟨R.CNT_MISSING i, 0, 32⟩
abbrev R.CNT_EXCESS (i : Nat) : Nat := 0x41068 + i * 0x1000
abbrev F.CNT_EXCESS_CNT (i : Nat) : RegField := ⟨R.CNT_EXCESS i, 0, 32⟩
abbrev R.CNT_DROP (i : Nat) : Nat := 0x4106c + i * 0x1000
abbrev F.CNT_DROP_CNT (i : Nat) : RegField := ⟨R.CNT_DROP i, 0, 32⟩
abbrev R.CNT_TRIG_LATE (i : Nat) : Nat := 0x41070 + i * 0x1000
abbrev F.CNT_TRIG_LATE_CNT (i : Nat) : RegField := ⟨R.CNT_TRIG_LATE i, 0, 32⟩
abbrev R.CAM_CC_ADDR (i : Nat) : Nat := 0x41078 + i * 0x1000
abbrev F.CAM_CC_ADDR_ADDR (i : Nat) : RegField := ⟨R.CAM_CC_ADDR i, 0, 32⟩
abbrev R.CAM_CC_DATA (i : Nat) : Nat := 0x4107c + i * 0x1000
abbrev F.CAM_CC_DATA_DATA (i : Nat) : RegField := ⟨R.CAM_CC_DATA i, 0, 32⟩
abbrev R.CAM_CC_CTL (i : Nat) : Nat := 0x41080 + i * 0x1000
abbrev F.CAM_CC_CTL_GO (i : Nat) : RegField := ⟨R.CAM_CC_CTL i, 0, 1⟩
abbrev F.CAM_CC_CTL_WRITE (i : Nat) : RegField := ⟨R.CAM_CC_CTL i, 1, 1⟩
abbrev F.CAM_CC_CTL_BUSY (i : Nat) : RegField := ⟨R.CAM_CC_CTL i, 2, 1⟩
abbrev F.CAM_CC_CTL_RESULT (i : Nat) : RegField := ⟨R.CAM_CC_CTL i, 3, 2⟩
abbrev R.INS_SHD_SEL : Nat := 0x43040
abbrev F.INS_SHD_SEL_IDX : RegField := ⟨R.INS_SHD_SEL, 0, 14⟩
abbrev F.INS_SHD_SEL_CH : RegField := ⟨R.INS_SHD_SEL, 14, 2⟩
abbrev F.INS_SHD_SEL_PORT : RegField := ⟨R.INS_SHD_SEL, 16, 1⟩
abbrev F.INS_SHD_SEL_TAB : RegField := ⟨R.INS_SHD_SEL, 17, 1⟩
abbrev F.INS_SHD_SEL_INC : RegField := ⟨R.INS_SHD_SEL, 31, 1⟩
abbrev R.INS_SHD_DATA : Nat := 0x43044
abbrev F.INS_SHD_DATA_DATA : RegField := ⟨R.INS_SHD_DATA, 0, 16⟩
abbrev R.INS_MAP_SEL : Nat := 0x43048
abbrev F.INS_MAP_SEL_IDX : RegField := ⟨R.INS_MAP_SEL, 0, 8⟩
abbrev F.INS_MAP_SEL_INC : RegField := ⟨R.INS_MAP_SEL, 31, 1⟩
abbrev R.INS_MAP_A : Nat := 0x4304c
abbrev F.INS_MAP_A_PLANE_OFS : RegField := ⟨R.INS_MAP_A, 0, 18⟩
abbrev F.INS_MAP_A_NCOUNT : RegField := ⟨R.INS_MAP_A, 18, 13⟩
abbrev R.INS_MAP_B : Nat := 0x43050
abbrev F.INS_MAP_B_HP : RegField := ⟨R.INS_MAP_B, 0, 5⟩
abbrev R.INS_STAT : Nat := 0x43054
abbrev F.INS_STAT_PASS_OFF : RegField := ⟨R.INS_STAT, 0, 1⟩
abbrev R.INS_TAP_CFG : Nat := 0x43058
abbrev F.INS_TAP_CFG_EN : RegField := ⟨R.INS_TAP_CFG, 0, 1⟩
abbrev F.INS_TAP_CFG_PORT : RegField := ⟨R.INS_TAP_CFG, 1, 1⟩
abbrev F.INS_TAP_CFG_POINT : RegField := ⟨R.INS_TAP_CFG, 2, 2⟩
abbrev F.INS_TAP_CFG_CMP : RegField := ⟨R.INS_TAP_CFG, 4, 1⟩
abbrev F.INS_TAP_CFG_FRAMES : RegField := ⟨R.INS_TAP_CFG, 16, 16⟩
abbrev R.INS_TAP_BASE_LO : Nat := 0x4305c
abbrev F.INS_TAP_BASE_LO_BASE : RegField := ⟨R.INS_TAP_BASE_LO, 0, 32⟩
abbrev R.INS_TAP_BASE_HI : Nat := 0x43060
abbrev F.INS_TAP_BASE_HI_BASE : RegField := ⟨R.INS_TAP_BASE_HI, 0, 8⟩
abbrev R.INS_TAP_SIZE : Nat := 0x43064
abbrev F.INS_TAP_SIZE_SIZE : RegField := ⟨R.INS_TAP_SIZE, 0, 24⟩
abbrev R.INS_TAP_READ : Nat := 0x43068
abbrev F.INS_TAP_READ_READ : RegField := ⟨R.INS_TAP_READ, 0, 24⟩
abbrev R.INS_TAP_DROPS : Nat := 0x4306c
abbrev F.INS_TAP_DROPS_DROPS : RegField := ⟨R.INS_TAP_DROPS, 0, 32⟩
abbrev R.INS_CCM (j : Nat) (k : Nat) : Nat := 0x43080 + j * 0x30 + k * 0x4
abbrev F.INS_CCM_M (j : Nat) (k : Nat) : RegField := ⟨R.INS_CCM j k, 0, 16⟩
abbrev R.INS_COFS (j : Nat) (k : Nat) : Nat := 0x430a4 + j * 0x30 + k * 0x4
abbrev F.INS_COFS_OFS (j : Nat) (k : Nat) : RegField := ⟨R.INS_COFS j k, 0, 13⟩
abbrev R.VIEW_CFG (j : Nat) : Nat := 0x43100 + j * 0x40
abbrev F.VIEW_CFG_EN (j : Nat) : RegField := ⟨R.VIEW_CFG j, 0, 1⟩
abbrev F.VIEW_CFG_PORT (j : Nat) : RegField := ⟨R.VIEW_CFG j, 1, 1⟩
abbrev F.VIEW_CFG_CH (j : Nat) : RegField := ⟨R.VIEW_CFG j, 2, 2⟩
abbrev F.VIEW_CFG_DEST (j : Nat) : RegField := ⟨R.VIEW_CFG j, 4, 4⟩
abbrev F.VIEW_CFG_PLANE (j : Nat) : RegField := ⟨R.VIEW_CFG j, 8, 3⟩
abbrev F.VIEW_CFG_P (j : Nat) : RegField := ⟨R.VIEW_CFG j, 11, 2⟩
abbrev R.VIEW_X0 (j : Nat) : Nat := 0x43104 + j * 0x40
abbrev F.VIEW_X0_X (j : Nat) : RegField := ⟨R.VIEW_X0 j, 0, 18⟩
abbrev R.VIEW_X1 (j : Nat) : Nat := 0x43108 + j * 0x40
abbrev F.VIEW_X1_X (j : Nat) : RegField := ⟨R.VIEW_X1 j, 0, 18⟩
abbrev R.VIEW_GEOM (j : Nat) : Nat := 0x4310c + j * 0x40
abbrev F.VIEW_GEOM_RS_H (j : Nat) : RegField := ⟨R.VIEW_GEOM j, 0, 8⟩
abbrev F.VIEW_GEOM_FID_H (j : Nat) : RegField := ⟨R.VIEW_GEOM j, 8, 8⟩
abbrev F.VIEW_GEOM_RS_GAP (j : Nat) : RegField := ⟨R.VIEW_GEOM j, 16, 8⟩
abbrev F.VIEW_GEOM_EDGE (j : Nat) : RegField := ⟨R.VIEW_GEOM j, 24, 8⟩
abbrev R.VIEW_LPP (j : Nat) : Nat := 0x43110 + j * 0x40
abbrev F.VIEW_LPP_LPP (j : Nat) : RegField := ⟨R.VIEW_LPP j, 0, 32⟩
abbrev R.VIEW_Y (j : Nat) : Nat := 0x43114 + j * 0x40
abbrev F.VIEW_Y_YNOM (j : Nat) : RegField := ⟨R.VIEW_Y j, 0, 24⟩
abbrev F.VIEW_Y_SRCH (j : Nat) : RegField := ⟨R.VIEW_Y j, 24, 8⟩
abbrev R.VIEW_EL (j : Nat) : Nat := 0x43118 + j * 0x40
abbrev F.VIEW_EL_E (j : Nat) : RegField := ⟨R.VIEW_EL j, 0, 18⟩
abbrev F.VIEW_EL_XSRCH (j : Nat) : RegField := ⟨R.VIEW_EL j, 24, 8⟩
abbrev R.VIEW_ER (j : Nat) : Nat := 0x4311c + j * 0x40
abbrev F.VIEW_ER_E (j : Nat) : RegField := ⟨R.VIEW_ER j, 0, 18⟩
abbrev R.VIEW_JUDGE (j : Nat) : Nat := 0x43120 + j * 0x40
abbrev F.VIEW_JUDGE_D0 (j : Nat) : RegField := ⟨R.VIEW_JUDGE j, 0, 12⟩
abbrev F.VIEW_JUDGE_WIN (j : Nat) : RegField := ⟨R.VIEW_JUDGE j, 16, 5⟩
abbrev R.VIEW_HBASE (j : Nat) : Nat := 0x43124 + j * 0x40
abbrev F.VIEW_HBASE_HBASE (j : Nat) : RegField := ⟨R.VIEW_HBASE j, 0, 18⟩
abbrev R.STS_CFG : Nat := 0x44040
abbrev F.STS_CFG_ZX_M1 : RegField := ⟨R.STS_CFG, 0, 6⟩
abbrev F.STS_CFG_ZY_M1 : RegField := ⟨R.STS_CFG, 6, 4⟩
abbrev R.STS_BASE_LO (j : Nat) : Nat := 0x44080 + j * 0x20
abbrev F.STS_BASE_LO_BASE (j : Nat) : RegField := ⟨R.STS_BASE_LO j, 0, 32⟩
abbrev R.STS_BASE_HI (j : Nat) : Nat := 0x44084 + j * 0x20
abbrev F.STS_BASE_HI_BASE (j : Nat) : RegField := ⟨R.STS_BASE_HI j, 0, 8⟩
abbrev R.STS_SLOT (j : Nat) : Nat := 0x44088 + j * 0x20
abbrev F.STS_SLOT_SLOT (j : Nat) : RegField := ⟨R.STS_SLOT j, 0, 16⟩
abbrev R.STS_COUNT (j : Nat) : Nat := 0x4408c + j * 0x20
abbrev F.STS_COUNT_COUNT (j : Nat) : RegField := ⟨R.STS_COUNT j, 0, 16⟩
abbrev R.STS_HEAD (j : Nat) : Nat := 0x44090 + j * 0x20
abbrev F.STS_HEAD_HEAD (j : Nat) : RegField := ⟨R.STS_HEAD j, 0, 16⟩
abbrev R.STS_READ (j : Nat) : Nat := 0x44094 + j * 0x20
abbrev F.STS_READ_READ (j : Nat) : RegField := ⟨R.STS_READ j, 0, 16⟩
abbrev R.STS_DROPS (j : Nat) : Nat := 0x44098 + j * 0x20
abbrev F.STS_DROPS_DROPS (j : Nat) : RegField := ⟨R.STS_DROPS j, 0, 32⟩
abbrev R.VRD_CFG : Nat := 0x45040
abbrev F.VRD_CFG_MISS : RegField := ⟨R.VRD_CFG, 0, 8⟩
abbrev F.VRD_CFG_WEAK : RegField := ⟨R.VRD_CFG, 8, 8⟩
abbrev F.VRD_CFG_DEV : RegField := ⟨R.VRD_CFG, 16, 8⟩
abbrev F.VRD_CFG_CONFIRM : RegField := ⟨R.VRD_CFG, 24, 4⟩
abbrev F.VRD_CFG_AUTO : RegField := ⟨R.VRD_CFG, 28, 1⟩
abbrev F.VRD_CFG_PROMOTE : RegField := ⟨R.VRD_CFG, 29, 1⟩
abbrev F.VRD_CFG_REEF_HOLD : RegField := ⟨R.VRD_CFG, 30, 1⟩
abbrev R.VRD_CTL : Nat := 0x45044
abbrev F.VRD_CTL_HOLD : RegField := ⟨R.VRD_CTL, 0, 1⟩
abbrev F.VRD_CTL_HCLR : RegField := ⟨R.VRD_CTL, 8, 8⟩
abbrev R.VRD_EPOCH_MIN : Nat := 0x45048
abbrev F.VRD_EPOCH_MIN_EPOCH : RegField := ⟨R.VRD_EPOCH_MIN, 0, 32⟩
abbrev R.VRD_BASE_LO : Nat := 0x4504c
abbrev F.VRD_BASE_LO_BASE : RegField := ⟨R.VRD_BASE_LO, 0, 32⟩
abbrev R.VRD_BASE_HI : Nat := 0x45050
abbrev F.VRD_BASE_HI_BASE : RegField := ⟨R.VRD_BASE_HI, 0, 8⟩
abbrev R.VRD_SIZE : Nat := 0x45054
abbrev F.VRD_SIZE_SIZE : RegField := ⟨R.VRD_SIZE, 0, 21⟩
abbrev R.VRD_HEAD : Nat := 0x45058
abbrev F.VRD_HEAD_HEAD : RegField := ⟨R.VRD_HEAD, 0, 20⟩
abbrev R.VRD_SENT : Nat := 0x4505c
abbrev F.VRD_SENT_SENT : RegField := ⟨R.VRD_SENT, 0, 20⟩
abbrev R.VRD_RING_CFG : Nat := 0x45060
abbrev F.VRD_RING_CFG_LOCAL : RegField := ⟨R.VRD_RING_CFG, 0, 1⟩
abbrev R.VRD_CNT_APPLIED : Nat := 0x45064
abbrev F.VRD_CNT_APPLIED_CNT : RegField := ⟨R.VRD_CNT_APPLIED, 0, 32⟩
abbrev R.VRD_CNT_STALE : Nat := 0x45068
abbrev F.VRD_CNT_STALE_CNT : RegField := ⟨R.VRD_CNT_STALE, 0, 32⟩
abbrev R.VRD_CNT_UNMAPPED : Nat := 0x4506c
abbrev F.VRD_CNT_UNMAPPED_CNT : RegField := ⟨R.VRD_CNT_UNMAPPED, 0, 32⟩
abbrev R.VRD_CNT_OVERLAP : Nat := 0x45070
abbrev F.VRD_CNT_OVERLAP_CNT : RegField := ⟨R.VRD_CNT_OVERLAP, 0, 32⟩
abbrev R.VRD_CNT_RINGDROP : Nat := 0x45074
abbrev F.VRD_CNT_RINGDROP_CNT : RegField := ⟨R.VRD_CNT_RINGDROP, 0, 32⟩
abbrev R.VRD_CNT_FORMED : Nat := 0x45078
abbrev F.VRD_CNT_FORMED_CNT : RegField := ⟨R.VRD_CNT_FORMED, 0, 32⟩
abbrev R.LGT_STRB (j : Nat) : Nat := 0x46040 + j * 0x4
abbrev F.LGT_STRB_EN (j : Nat) : RegField := ⟨R.LGT_STRB j, 0, 1⟩
abbrev F.LGT_STRB_PORT (j : Nat) : RegField := ⟨R.LGT_STRB j, 1, 1⟩
abbrev F.LGT_STRB_POL (j : Nat) : RegField := ⟨R.LGT_STRB j, 2, 1⟩
abbrev F.LGT_STRB_DLY (j : Nat) : RegField := ⟨R.LGT_STRB j, 8, 12⟩
abbrev R.EXP_WIDTH (j : Nat) : Nat := 0x46060 + j * 0x4
abbrev F.EXP_WIDTH_WIDTH (j : Nat) : RegField := ⟨R.EXP_WIDTH j, 0, 16⟩
abbrev R.EXP_CAMREG_A (j : Nat) (k : Nat) : Nat := 0x46080 + j * 0x20 + k * 0x8
abbrev F.EXP_CAMREG_A_ADDR (j : Nat) (k : Nat) : RegField := ⟨R.EXP_CAMREG_A j k, 0, 32⟩
abbrev R.EXP_CAMREG_V (j : Nat) (k : Nat) : Nat := 0x46084 + j * 0x20 + k * 0x8
abbrev F.EXP_CAMREG_V_VALUE (j : Nat) (k : Nat) : RegField := ⟨R.EXP_CAMREG_V j k, 0, 32⟩
abbrev R.EXP_GEN (j : Nat) : Nat := 0x460c0 + j * 0x4
abbrev F.EXP_GEN_G (j : Nat) : RegField := ⟨R.EXP_GEN j, 0, 32⟩
abbrev R.EXP_STAT (j : Nat) : Nat := 0x460c8 + j * 0x4
abbrev F.EXP_STAT_PENDING (j : Nat) : RegField := ⟨R.EXP_STAT j, 0, 1⟩
abbrev F.EXP_STAT_FAIL (j : Nat) : RegField := ⟨R.EXP_STAT j, 1, 1⟩
abbrev R.LOOP_FREE (j : Nat) : Nat := 0x48040 + j * 0x4
abbrev F.LOOP_FREE_EN (j : Nat) : RegField := ⟨R.LOOP_FREE j, 0, 1⟩
abbrev F.LOOP_FREE_DIV_LOG2 (j : Nat) : RegField := ⟨R.LOOP_FREE j, 1, 4⟩
abbrev F.LOOP_FREE_PHASE (j : Nat) : RegField := ⟨R.LOOP_FREE j, 8, 8⟩
abbrev R.LOOP_CFG (j : Nat) : Nat := 0x48100 + j * 0x10
abbrev F.LOOP_CFG_SP_SRC (j : Nat) : RegField := ⟨R.LOOP_CFG j, 0, 2⟩
abbrev F.LOOP_CFG_SP_CH (j : Nat) : RegField := ⟨R.LOOP_CFG j, 2, 4⟩
abbrev F.LOOP_CFG_MEAS_CH (j : Nat) : RegField := ⟨R.LOOP_CFG j, 6, 4⟩
abbrev F.LOOP_CFG_REVERSE (j : Nat) : RegField := ⟨R.LOOP_CFG j, 10, 1⟩
abbrev F.LOOP_CFG_DEST (j : Nat) : RegField := ⟨R.LOOP_CFG j, 11, 1⟩
abbrev F.LOOP_CFG_PWM_SEL (j : Nat) : RegField := ⟨R.LOOP_CFG j, 12, 5⟩
abbrev F.LOOP_CFG_NREG_M1 (j : Nat) : RegField := ⟨R.LOOP_CFG j, 17, 3⟩
abbrev F.LOOP_CFG_SCHED (j : Nat) : RegField := ⟨R.LOOP_CFG j, 20, 1⟩
abbrev F.LOOP_CFG_SAFE_EN (j : Nat) : RegField := ⟨R.LOOP_CFG j, 21, 1⟩
abbrev R.LOOP_SP (j : Nat) : Nat := 0x48104 + j * 0x10
abbrev F.LOOP_SP_SP (j : Nat) : RegField := ⟨R.LOOP_SP j, 0, 18⟩
abbrev R.LOOP_SPK (j : Nat) : Nat := 0x48108 + j * 0x10
abbrev F.LOOP_SPK_SPK (j : Nat) : RegField := ⟨R.LOOP_SPK j, 0, 18⟩
abbrev R.LOOP_SAFE (j : Nat) : Nat := 0x4810c + j * 0x10
abbrev F.LOOP_SAFE_SAFE (j : Nat) : RegField := ⟨R.LOOP_SAFE j, 0, 18⟩
abbrev R.LOOP_STAT (j : Nat) : Nat := 0x48300 + j * 0x4
abbrev F.LOOP_STAT_REGION (j : Nat) : RegField := ⟨R.LOOP_STAT j, 0, 3⟩
abbrev F.LOOP_STAT_AW (j : Nat) : RegField := ⟨R.LOOP_STAT j, 3, 1⟩
abbrev F.LOOP_STAT_LIM (j : Nat) : RegField := ⟨R.LOOP_STAT j, 4, 2⟩
abbrev F.LOOP_STAT_RECLAMP (j : Nat) : RegField := ⟨R.LOOP_STAT j, 6, 1⟩
abbrev F.LOOP_STAT_STALE (j : Nat) : RegField := ⟨R.LOOP_STAT j, 7, 1⟩
abbrev F.LOOP_STAT_OVF (j : Nat) : RegField := ⟨R.LOOP_STAT j, 8, 1⟩
abbrev R.LOOP_OUT (j : Nat) : Nat := 0x48380 + j * 0x4
abbrev F.LOOP_OUT_OUT (j : Nat) : RegField := ⟨R.LOOP_OUT j, 0, 18⟩
abbrev R.LOOP_CSEL : Nat := 0x48400
abbrev F.LOOP_CSEL_IDX : RegField := ⟨R.LOOP_CSEL, 0, 13⟩
abbrev F.LOOP_CSEL_INC : RegField := ⟨R.LOOP_CSEL, 31, 1⟩
abbrev R.LOOP_CDATA : Nat := 0x48404
abbrev F.LOOP_CDATA_DATA : RegField := ⟨R.LOOP_CDATA, 0, 32⟩
abbrev R.LOOP_CTL : Nat := 0x48408
abbrev F.LOOP_CTL_RST : RegField := ⟨R.LOOP_CTL, 0, 32⟩
abbrev R.LOOP_CHK : Nat := 0x4840c
abbrev F.LOOP_CHK_CODE : RegField := ⟨R.LOOP_CHK, 0, 8⟩
abbrev F.LOOP_CHK_LOOP : RegField := ⟨R.LOOP_CHK, 8, 5⟩
abbrev R.FIN_CFG : Nat := 0x48410
abbrev F.FIN_CFG_WIN0 : RegField := ⟨R.FIN_CFG, 0, 4⟩
abbrev F.FIN_CFG_WIN1 : RegField := ⟨R.FIN_CFG, 4, 4⟩
abbrev F.FIN_CFG_WIN2 : RegField := ⟨R.FIN_CFG, 8, 4⟩
abbrev F.FIN_CFG_WIN3 : RegField := ⟨R.FIN_CFG, 12, 4⟩
abbrev R.FIN_FREQ (j : Nat) : Nat := 0x48420 + j * 0x4
abbrev F.FIN_FREQ_F (j : Nat) : RegField := ⟨R.FIN_FREQ j, 0, 32⟩
abbrev R.ADC_EN : Nat := 0x49040
abbrev F.ADC_EN_EN : RegField := ⟨R.ADC_EN, 0, 16⟩
abbrev R.ADC_CH (j : Nat) : Nat := 0x49080 + j * 0x4
abbrev F.ADC_CH_AVG (j : Nat) : RegField := ⟨R.ADC_CH j, 0, 3⟩
abbrev R.ADC_DATA (j : Nat) : Nat := 0x490c0 + j * 0x4
abbrev F.ADC_DATA_VALUE (j : Nat) : RegField := ⟨R.ADC_DATA j, 0, 12⟩
abbrev F.ADC_DATA_STALE (j : Nat) : RegField := ⟨R.ADC_DATA j, 12, 1⟩
abbrev F.ADC_DATA_SEQ (j : Nat) : RegField := ⟨R.ADC_DATA j, 16, 16⟩
abbrev R.PWM_CFG (j : Nat) : Nat := 0x4a040 + j * 0x4
abbrev F.PWM_CFG_EN (j : Nat) : RegField := ⟨R.PWM_CFG j, 0, 1⟩
abbrev F.PWM_CFG_POL (j : Nat) : RegField := ⟨R.PWM_CFG j, 1, 1⟩
abbrev R.PWM_PERIOD (j : Nat) : Nat := 0x4a0a0 + j * 0x4
abbrev F.PWM_PERIOD_PERIOD (j : Nat) : RegField := ⟨R.PWM_PERIOD j, 0, 24⟩
abbrev R.PWM_DUTY (j : Nat) : Nat := 0x4a100 + j * 0x4
abbrev F.PWM_DUTY_DUTY (j : Nat) : RegField := ⟨R.PWM_DUTY j, 0, 24⟩
abbrev R.STEP_CFG : Nat := 0x4b040
abbrev F.STEP_CFG_PULSE : RegField := ⟨R.STEP_CFG, 0, 8⟩
abbrev F.STEP_CFG_DIR_SETUP : RegField := ⟨R.STEP_CFG, 8, 8⟩
abbrev R.STP_CFG (j : Nat) : Nat := 0x4b100 + j * 0x40
abbrev F.STP_CFG_EN (j : Nat) : RegField := ⟨R.STP_CFG j, 0, 1⟩
abbrev F.STP_CFG_DIR_INV (j : Nat) : RegField := ⟨R.STP_CFG j, 1, 1⟩
abbrev F.STP_CFG_STALL_SRC (j : Nat) : RegField := ⟨R.STP_CFG j, 2, 2⟩
abbrev F.STP_CFG_STALL_POL (j : Nat) : RegField := ⟨R.STP_CFG j, 4, 1⟩
abbrev F.STP_CFG_HOME_DIR (j : Nat) : RegField := ⟨R.STP_CFG j, 5, 1⟩
abbrev R.STP_VMAX (j : Nat) : Nat := 0x4b104 + j * 0x40
abbrev F.STP_VMAX_V (j : Nat) : RegField := ⟨R.STP_VMAX j, 0, 19⟩
abbrev R.STP_VSTART (j : Nat) : Nat := 0x4b108 + j * 0x40
abbrev F.STP_VSTART_V (j : Nat) : RegField := ⟨R.STP_VSTART j, 0, 19⟩
abbrev R.STP_AMAX (j : Nat) : Nat := 0x4b10c + j * 0x40
abbrev F.STP_AMAX_A (j : Nat) : RegField := ⟨R.STP_AMAX j, 0, 24⟩
abbrev R.STP_JMAX (j : Nat) : Nat := 0x4b110 + j * 0x40
abbrev F.STP_JMAX_J (j : Nat) : RegField := ⟨R.STP_JMAX j, 0, 32⟩
abbrev R.STP_VSAFE (j : Nat) : Nat := 0x4b114 + j * 0x40
abbrev F.STP_VSAFE_V (j : Nat) : RegField := ⟨R.STP_VSAFE j, 0, 19⟩
abbrev R.STP_TARGET (j : Nat) : Nat := 0x4b118 + j * 0x40
abbrev F.STP_TARGET_T (j : Nat) : RegField := ⟨R.STP_TARGET j, 0, 32⟩
abbrev R.STP_POS (j : Nat) : Nat := 0x4b11c + j * 0x40
abbrev F.STP_POS_POS (j : Nat) : RegField := ⟨R.STP_POS j, 0, 32⟩
abbrev R.STP_CMD (j : Nat) : Nat := 0x4b120 + j * 0x40
abbrev F.STP_CMD_MOVE (j : Nat) : RegField := ⟨R.STP_CMD j, 0, 1⟩
abbrev F.STP_CMD_REL (j : Nat) : RegField := ⟨R.STP_CMD j, 1, 1⟩
abbrev F.STP_CMD_STOP (j : Nat) : RegField := ⟨R.STP_CMD j, 2, 1⟩
abbrev F.STP_CMD_HOME (j : Nat) : RegField := ⟨R.STP_CMD j, 3, 1⟩
abbrev F.STP_CMD_SET_POS (j : Nat) : RegField := ⟨R.STP_CMD j, 4, 1⟩
abbrev F.STP_CMD_CLR_FAULT (j : Nat) : RegField := ⟨R.STP_CMD j, 5, 1⟩
abbrev R.STP_STAT (j : Nat) : Nat := 0x4b124 + j * 0x40
abbrev F.STP_STAT_MOVING (j : Nat) : RegField := ⟨R.STP_STAT j, 0, 1⟩
abbrev F.STP_STAT_HOMING (j : Nat) : RegField := ⟨R.STP_STAT j, 1, 1⟩
abbrev F.STP_STAT_HOMED (j : Nat) : RegField := ⟨R.STP_STAT j, 2, 1⟩
abbrev F.STP_STAT_BY_OVR (j : Nat) : RegField := ⟨R.STP_STAT j, 3, 1⟩
abbrev F.STP_STAT_UNCERTAIN (j : Nat) : RegField := ⟨R.STP_STAT j, 4, 1⟩
abbrev F.STP_STAT_FAULT (j : Nat) : RegField := ⟨R.STP_STAT j, 5, 2⟩
abbrev R.STP_HOME (j : Nat) : Nat := 0x4b128 + j * 0x40
abbrev F.STP_HOME_VHOME (j : Nat) : RegField := ⟨R.STP_HOME j, 0, 19⟩
abbrev F.STP_HOME_BACKOFF (j : Nat) : RegField := ⟨R.STP_HOME j, 19, 13⟩
abbrev R.STP_HOME_OVR (j : Nat) : Nat := 0x4b12c + j * 0x40
abbrev F.STP_HOME_OVR_OVR (j : Nat) : RegField := ⟨R.STP_HOME_OVR j, 0, 32⟩
abbrev R.STP_HOME_POS (j : Nat) : Nat := 0x4b130 + j * 0x40
abbrev F.STP_HOME_POS_POS (j : Nat) : RegField := ⟨R.STP_HOME_POS j, 0, 32⟩
abbrev R.STP_STEPS_LO (j : Nat) : Nat := 0x4b134 + j * 0x40
abbrev F.STP_STEPS_LO_STEPS (j : Nat) : RegField := ⟨R.STP_STEPS_LO j, 0, 32⟩
abbrev R.STP_STEPS_HI (j : Nat) : Nat := 0x4b138 + j * 0x40
abbrev F.STP_STEPS_HI_STEPS (j : Nat) : RegField := ⟨R.STP_STEPS_HI j, 0, 16⟩
abbrev R.GPIO_OUT : Nat := 0x4c040
abbrev F.GPIO_OUT_OUT : RegField := ⟨R.GPIO_OUT, 0, 16⟩
abbrev R.GPIO_SET : Nat := 0x4c044
abbrev F.GPIO_SET_SET : RegField := ⟨R.GPIO_SET, 0, 16⟩
abbrev R.GPIO_CLR : Nat := 0x4c048
abbrev F.GPIO_CLR_CLR : RegField := ⟨R.GPIO_CLR, 0, 16⟩
abbrev R.GPIO_IN : Nat := 0x4c04c
abbrev F.GPIO_IN_IN : RegField := ⟨R.GPIO_IN, 0, 16⟩
abbrev R.GPIO_CFG (j : Nat) : Nat := 0x4c080 + j * 0x4
abbrev F.GPIO_CFG_OE (j : Nat) : RegField := ⟨R.GPIO_CFG j, 0, 1⟩
abbrev F.GPIO_CFG_RISE (j : Nat) : RegField := ⟨R.GPIO_CFG j, 1, 1⟩
abbrev F.GPIO_CFG_FALL (j : Nat) : RegField := ⟨R.GPIO_CFG j, 2, 1⟩
abbrev F.GPIO_CFG_FILT (j : Nat) : RegField := ⟨R.GPIO_CFG j, 8, 8⟩
abbrev R.DRAMC_CFG : Nat := 0x50040
abbrev F.DRAMC_CFG_RANKS : RegField := ⟨R.DRAMC_CFG, 0, 1⟩
abbrev F.DRAMC_CFG_WIDTH : RegField := ⟨R.DRAMC_CFG, 1, 1⟩
abbrev F.DRAMC_CFG_DENS : RegField := ⟨R.DRAMC_CFG, 2, 2⟩
abbrev R.DRAMC_FCHG : Nat := 0x50044
abbrev F.DRAMC_FCHG_TARGET : RegField := ⟨R.DRAMC_FCHG, 0, 3⟩
abbrev F.DRAMC_FCHG_GO : RegField := ⟨R.DRAMC_FCHG, 4, 1⟩
abbrev F.DRAMC_FCHG_BUSY : RegField := ⟨R.DRAMC_FCHG, 5, 1⟩
abbrev F.DRAMC_FCHG_RESULT : RegField := ⟨R.DRAMC_FCHG, 6, 2⟩
abbrev F.DRAMC_FCHG_RATE : RegField := ⟨R.DRAMC_FCHG, 8, 3⟩
abbrev F.DRAMC_FCHG_LIVE : RegField := ⟨R.DRAMC_FCHG, 11, 1⟩
abbrev R.DRAMC_PD : Nat := 0x5004c
abbrev F.DRAMC_PD_PD_IDLE : RegField := ⟨R.DRAMC_PD, 0, 16⟩
abbrev F.DRAMC_PD_PD_EN : RegField := ⟨R.DRAMC_PD, 16, 1⟩
abbrev R.DRAMC_RH : Nat := 0x50050
abbrev F.DRAMC_RH_RH_THR : RegField := ⟨R.DRAMC_RH, 0, 16⟩
abbrev F.DRAMC_RH_RH_GAP : RegField := ⟨R.DRAMC_RH, 16, 16⟩
abbrev R.DRAMC_RH_STAT : Nat := 0x50054
abbrev F.DRAMC_RH_STAT_MASTER : RegField := ⟨R.DRAMC_RH_STAT, 0, 6⟩
abbrev F.DRAMC_RH_STAT_BANK : RegField := ⟨R.DRAMC_RH_STAT, 8, 7⟩
abbrev F.DRAMC_RH_STAT_COUNT : RegField := ⟨R.DRAMC_RH_STAT, 16, 16⟩
abbrev R.DRAMC_STAT : Nat := 0x50058
abbrev F.DRAMC_STAT_READY : RegField := ⟨R.DRAMC_STAT, 0, 1⟩
abbrev F.DRAMC_STAT_SELFREF : RegField := ⟨R.DRAMC_STAT, 1, 1⟩
abbrev F.DRAMC_STAT_HOT : RegField := ⟨R.DRAMC_STAT, 2, 1⟩
abbrev F.DRAMC_STAT_OOR : RegField := ⟨R.DRAMC_STAT, 3, 1⟩
abbrev F.DRAMC_STAT_CAP : RegField := ⟨R.DRAMC_STAT, 16, 16⟩
abbrev R.DRAMC_SCRUB : Nat := 0x5005c
abbrev F.DRAMC_SCRUB_EN : RegField := ⟨R.DRAMC_SCRUB, 0, 1⟩
abbrev F.DRAMC_SCRUB_PERIOD : RegField := ⟨R.DRAMC_SCRUB, 8, 8⟩
abbrev R.DRAMC_QOS : Nat := 0x50060
abbrev F.DRAMC_QOS_AGE_LIM : RegField := ⟨R.DRAMC_QOS, 0, 16⟩
abbrev R.DRAMC_TSET (j : Nat) (k : Nat) : Nat := 0x50080 + j * 0x40 + k * 0x4
abbrev F.DRAMC_TSET_TLO (j : Nat) (k : Nat) : RegField := ⟨R.DRAMC_TSET j k, 0, 16⟩
abbrev F.DRAMC_TSET_THI (j : Nat) (k : Nat) : RegField := ⟨R.DRAMC_TSET j k, 16, 16⟩
abbrev R.DPHY_CTL : Nat := 0x51040
abbrev F.DPHY_CTL_TRAIN : RegField := ⟨R.DPHY_CTL, 0, 1⟩
abbrev F.DPHY_CTL_TRACK_EN : RegField := ⟨R.DPHY_CTL, 1, 1⟩
abbrev F.DPHY_CTL_TRK_MS : RegField := ⟨R.DPHY_CTL, 8, 8⟩
abbrev R.DPHY_STAT : Nat := 0x51044
abbrev F.DPHY_STAT_STAGE : RegField := ⟨R.DPHY_STAT, 0, 3⟩
abbrev F.DPHY_STAT_FAIL : RegField := ⟨R.DPHY_STAT, 3, 1⟩
abbrev F.DPHY_STAT_LANE : RegField := ⟨R.DPHY_STAT, 4, 5⟩
abbrev R.DPHY_LSEL : Nat := 0x51048
abbrev F.DPHY_LSEL_LANE : RegField := ⟨R.DPHY_LSEL, 0, 5⟩
abbrev R.DPHY_EYE : Nat := 0x5104c
abbrev F.DPHY_EYE_RD_CTR : RegField := ⟨R.DPHY_EYE, 0, 8⟩
abbrev F.DPHY_EYE_RD_W : RegField := ⟨R.DPHY_EYE, 8, 8⟩
abbrev F.DPHY_EYE_WR_CTR : RegField := ⟨R.DPHY_EYE, 16, 8⟩
abbrev F.DPHY_EYE_WR_W : RegField := ⟨R.DPHY_EYE, 24, 8⟩
abbrev R.ECC_UE_LO : Nat := 0x52040
abbrev F.ECC_UE_LO_ADDR : RegField := ⟨R.ECC_UE_LO, 0, 32⟩
abbrev R.ECC_UE_HI : Nat := 0x52044
abbrev F.ECC_UE_HI_ADDR : RegField := ⟨R.ECC_UE_HI, 0, 8⟩
abbrev F.ECC_UE_HI_CLASS : RegField := ⟨R.ECC_UE_HI, 8, 4⟩
abbrev F.ECC_UE_HI_MASTER : RegField := ⟨R.ECC_UE_HI, 12, 6⟩
abbrev F.ECC_UE_HI_ADDR_ERR : RegField := ⟨R.ECC_UE_HI, 18, 1⟩
abbrev F.ECC_UE_HI_VALID : RegField := ⟨R.ECC_UE_HI, 31, 1⟩
abbrev R.ECC_UE_CNT : Nat := 0x52048
abbrev F.ECC_UE_CNT_COUNT : RegField := ⟨R.ECC_UE_CNT, 0, 16⟩
abbrev R.ECC_BKT_CFG (j : Nat) : Nat := 0x52080 + j * 0x4
abbrev F.ECC_BKT_CFG_THR (j : Nat) : RegField := ⟨R.ECC_BKT_CFG j, 0, 16⟩
abbrev F.ECC_BKT_CFG_LEAK (j : Nat) : RegField := ⟨R.ECC_BKT_CFG j, 16, 16⟩
abbrev R.ECC_BKT (j : Nat) : Nat := 0x520c0 + j * 0x4
abbrev F.ECC_BKT_LEVEL (j : Nat) : RegField := ⟨R.ECC_BKT j, 0, 16⟩
abbrev F.ECC_BKT_OVER (j : Nat) : RegField := ⟨R.ECC_BKT j, 16, 1⟩
abbrev R.ECC_CE_ADDR (j : Nat) : Nat := 0x52100 + j * 0x4
abbrev F.ECC_CE_ADDR_INDEX (j : Nat) : RegField := ⟨R.ECC_CE_ADDR j, 0, 29⟩
abbrev R.REMAP_SEL : Nat := 0x53040
abbrev F.REMAP_SEL_GROUP : RegField := ⟨R.REMAP_SEL, 0, 4⟩
abbrev F.REMAP_SEL_ENTRY : RegField := ⟨R.REMAP_SEL, 16, 6⟩
abbrev R.REMAP_ENT : Nat := 0x53044
abbrev F.REMAP_ENT_INDEX : RegField := ⟨R.REMAP_ENT, 0, 29⟩
abbrev F.REMAP_ENT_POISON : RegField := ⟨R.REMAP_ENT, 30, 1⟩
abbrev F.REMAP_ENT_VALID : RegField := ⟨R.REMAP_ENT, 31, 1⟩
abbrev R.REMAP_CTL : Nat := 0x53048
abbrev F.REMAP_CTL_INSTALL : RegField := ⟨R.REMAP_CTL, 0, 1⟩
abbrev F.REMAP_CTL_REMOVE : RegField := ⟨R.REMAP_CTL, 1, 1⟩
abbrev R.REMAP_CFG : Nat := 0x5304c
abbrev F.REMAP_CFG_AUTO : RegField := ⟨R.REMAP_CFG, 0, 1⟩
abbrev R.REMAP_STAT : Nat := 0x53050
abbrev F.REMAP_STAT_FULL : RegField := ⟨R.REMAP_STAT, 0, 15⟩
abbrev R.SHROUD_CFG : Nat := 0x54040
abbrev F.SHROUD_CFG_EN : RegField := ⟨R.SHROUD_CFG, 0, 1⟩
abbrev R.SHROUD_RSEL : Nat := 0x54044
abbrev F.SHROUD_RSEL_REGION : RegField := ⟨R.SHROUD_RSEL, 0, 7⟩
abbrev R.SHROUD_RDATA0 : Nat := 0x54048
abbrev F.SHROUD_RDATA0_BASE : RegField := ⟨R.SHROUD_RDATA0, 0, 28⟩
abbrev F.SHROUD_RDATA0_EN : RegField := ⟨R.SHROUD_RDATA0, 31, 1⟩
abbrev R.SHROUD_RDATA1 : Nat := 0x5404c
abbrev F.SHROUD_RDATA1_LIMIT : RegField := ⟨R.SHROUD_RDATA1, 0, 28⟩
abbrev R.SHROUD_RDATA2 : Nat := 0x54050
abbrev F.SHROUD_RDATA2_PERM : RegField := ⟨R.SHROUD_RDATA2, 0, 32⟩
abbrev R.SHROUD_RDATA3 : Nat := 0x54054
abbrev F.SHROUD_RDATA3_PERM : RegField := ⟨R.SHROUD_RDATA3, 0, 32⟩
abbrev R.SHROUD_RCTL : Nat := 0x54058
abbrev F.SHROUD_RCTL_APPLY : RegField := ⟨R.SHROUD_RCTL, 0, 1⟩
abbrev F.SHROUD_RCTL_READ : RegField := ⟨R.SHROUD_RCTL, 1, 1⟩
abbrev R.SHROUD_VIO_LO : Nat := 0x54060
abbrev F.SHROUD_VIO_LO_ADDR : RegField := ⟨R.SHROUD_VIO_LO, 0, 32⟩
abbrev R.SHROUD_VIO_HI : Nat := 0x54064
abbrev F.SHROUD_VIO_HI_ADDR : RegField := ⟨R.SHROUD_VIO_HI, 0, 8⟩
abbrev R.SHROUD_VIO_INFO : Nat := 0x54068
abbrev F.SHROUD_VIO_INFO_MASTER : RegField := ⟨R.SHROUD_VIO_INFO, 0, 6⟩
abbrev F.SHROUD_VIO_INFO_KIND : RegField := ⟨R.SHROUD_VIO_INFO, 6, 2⟩
abbrev F.SHROUD_VIO_INFO_LVL : RegField := ⟨R.SHROUD_VIO_INFO, 8, 2⟩
abbrev F.SHROUD_VIO_INFO_REGION : RegField := ⟨R.SHROUD_VIO_INFO, 10, 7⟩
abbrev F.SHROUD_VIO_INFO_NOMATCH : RegField := ⟨R.SHROUD_VIO_INFO, 17, 1⟩
abbrev F.SHROUD_VIO_INFO_VALID : RegField := ⟨R.SHROUD_VIO_INFO, 31, 1⟩
abbrev R.SHROUD_VIO_CNT : Nat := 0x5406c
abbrev F.SHROUD_VIO_CNT_COUNT : RegField := ⟨R.SHROUD_VIO_CNT, 0, 32⟩
abbrev R.SHROUD_CLEAT_LO : Nat := 0x54070
abbrev F.SHROUD_CLEAT_LO_CLEAT : RegField := ⟨R.SHROUD_CLEAT_LO, 0, 32⟩
abbrev R.SHROUD_CLEAT_HI : Nat := 0x54074
abbrev F.SHROUD_CLEAT_HI_CLEAT : RegField := ⟨R.SHROUD_CLEAT_HI, 0, 16⟩
abbrev R.SHROUD_MASTER (j : Nat) : Nat := 0x54100 + j * 0x4
abbrev F.SHROUD_MASTER_GROUP (j : Nat) : RegField := ⟨R.SHROUD_MASTER j, 0, 3⟩
abbrev F.SHROUD_MASTER_LVL (j : Nat) : RegField := ⟨R.SHROUD_MASTER j, 3, 2⟩
abbrev F.SHROUD_MASTER_RT (j : Nat) : RegField := ⟨R.SHROUD_MASTER j, 5, 1⟩
abbrev R.SHROUD_RELEASE (j : Nat) : Nat := 0x54200 + j * 0x4
abbrev F.SHROUD_RELEASE_RELEASE (j : Nat) : RegField := ⟨R.SHROUD_RELEASE j, 0, 1⟩
abbrev F.SHROUD_RELEASE_RESET (j : Nat) : RegField := ⟨R.SHROUD_RELEASE j, 1, 1⟩
abbrev R.EVT_DOORBELL : Nat := 0x55040
abbrev F.EVT_DOORBELL_SRC : RegField := ⟨R.EVT_DOORBELL, 0, 9⟩
abbrev R.EVT_PEND (j : Nat) : Nat := 0x55080 + j * 0x4
abbrev F.EVT_PEND_PEND (j : Nat) : RegField := ⟨R.EVT_PEND j, 0, 32⟩
abbrev R.EVT_MASK (j : Nat) : Nat := 0x550a0 + j * 0x4
abbrev F.EVT_MASK_MASK (j : Nat) : RegField := ⟨R.EVT_MASK j, 0, 32⟩
abbrev R.EVT_MSET (j : Nat) : Nat := 0x550c0 + j * 0x4
abbrev F.EVT_MSET_SET (j : Nat) : RegField := ⟨R.EVT_MSET j, 0, 32⟩
abbrev R.EVT_MCLR (j : Nat) : Nat := 0x550e0 + j * 0x4
abbrev F.EVT_MCLR_CLR (j : Nat) : RegField := ⟨R.EVT_MCLR j, 0, 32⟩
abbrev R.EVT_ROUTE (j : Nat) : Nat := 0x55100 + j * 0x4
abbrev F.EVT_ROUTE_CORE (j : Nat) : RegField := ⟨R.EVT_ROUTE j, 0, 2⟩
abbrev F.EVT_ROUTE_MON (j : Nat) : RegField := ⟨R.EVT_ROUTE j, 2, 1⟩
abbrev F.EVT_ROUTE_LEVEL (j : Nat) : RegField := ⟨R.EVT_ROUTE j, 3, 1⟩
abbrev R.EVTC_DOORBELL (i : Nat) : Nat := 0x56040 + i * 0x1000
abbrev F.EVTC_DOORBELL_SRC (i : Nat) : RegField := ⟨R.EVTC_DOORBELL i, 0, 9⟩
abbrev R.EVTC_EOI (i : Nat) : Nat := 0x56044 + i * 0x1000
abbrev F.EVTC_EOI_SRC (i : Nat) : RegField := ⟨R.EVTC_EOI i, 0, 9⟩
abbrev R.EVTC_ACTIVE (i : Nat) : Nat := 0x56048 + i * 0x1000
abbrev F.EVTC_ACTIVE_SRC (i : Nat) : RegField := ⟨R.EVTC_ACTIVE i, 0, 9⟩
abbrev F.EVTC_ACTIVE_VALID (i : Nat) : RegField := ⟨R.EVTC_ACTIVE i, 31, 1⟩
abbrev R.EVTC_PRES (i : Nat) : Nat := 0x5604c + i * 0x1000
abbrev F.EVTC_PRES_SRC (i : Nat) : RegField := ⟨R.EVTC_PRES i, 0, 9⟩
abbrev F.EVTC_PRES_VALID (i : Nat) : RegField := ⟨R.EVTC_PRES i, 31, 1⟩
abbrev R.EVTC_MASK (i : Nat) : Nat := 0x56050 + i * 0x1000
abbrev F.EVTC_MASK_MASK (i : Nat) : RegField := ⟨R.EVTC_MASK i, 0, 32⟩
abbrev R.EVTC_MSET (i : Nat) : Nat := 0x56054 + i * 0x1000
abbrev F.EVTC_MSET_SET (i : Nat) : RegField := ⟨R.EVTC_MSET i, 0, 32⟩
abbrev R.EVTC_MCLR (i : Nat) : Nat := 0x56058 + i * 0x1000
abbrev F.EVTC_MCLR_CLR (i : Nat) : RegField := ⟨R.EVTC_MCLR i, 0, 32⟩
abbrev R.EVTC_PEND (i : Nat) : Nat := 0x5605c + i * 0x1000
abbrev F.EVTC_PEND_PEND (i : Nat) : RegField := ⟨R.EVTC_PEND i, 0, 32⟩
abbrev R.EVTC_VEC_LO (i : Nat) : Nat := 0x56060 + i * 0x1000
abbrev F.EVTC_VEC_LO_VEC (i : Nat) : RegField := ⟨R.EVTC_VEC_LO i, 12, 20⟩
abbrev R.EVTC_VEC_HI (i : Nat) : Nat := 0x56064 + i * 0x1000
abbrev F.EVTC_VEC_HI_VEC (i : Nat) : RegField := ⟨R.EVTC_VEC_HI i, 0, 8⟩
abbrev R.EVTC_RET_LO (i : Nat) : Nat := 0x56068 + i * 0x1000
abbrev F.EVTC_RET_LO_RET (i : Nat) : RegField := ⟨R.EVTC_RET_LO i, 0, 32⟩
abbrev R.EVTC_RET_HI (i : Nat) : Nat := 0x5606c + i * 0x1000
abbrev F.EVTC_RET_HI_RET (i : Nat) : RegField := ⟨R.EVTC_RET_HI i, 0, 8⟩
abbrev F.EVTC_RET_HI_LVL (i : Nat) : RegField := ⟨R.EVTC_RET_HI i, 8, 2⟩
abbrev R.EVTC_CORE (i : Nat) : Nat := 0x56070 + i * 0x1000
abbrev F.EVTC_CORE_EE (i : Nat) : RegField := ⟨R.EVTC_CORE i, 0, 1⟩
abbrev F.EVTC_CORE_LVL (i : Nat) : RegField := ⟨R.EVTC_CORE i, 1, 2⟩
abbrev F.EVTC_CORE_WAIT (i : Nat) : RegField := ⟨R.EVTC_CORE i, 3, 1⟩
abbrev R.EVTC_TICK (i : Nat) : Nat := 0x56074 + i * 0x1000
abbrev F.EVTC_TICK_TICK_EN (i : Nat) : RegField := ⟨R.EVTC_TICK i, 0, 1⟩
abbrev F.EVTC_TICK_TICK_LOG2 (i : Nat) : RegField := ⟨R.EVTC_TICK i, 1, 4⟩
abbrev F.EVTC_TICK_BCMP_EN (i : Nat) : RegField := ⟨R.EVTC_TICK i, 5, 1⟩
abbrev R.EVTC_BCMP (i : Nat) : Nat := 0x56078 + i * 0x1000
abbrev F.EVTC_BCMP_BEAT (i : Nat) : RegField := ⟨R.EVTC_BCMP i, 0, 32⟩
abbrev R.EVTC_CNT (i : Nat) : Nat := 0x5607c + i * 0x1000
abbrev F.EVTC_CNT_SPURIOUS (i : Nat) : RegField := ⟨R.EVTC_CNT i, 0, 16⟩
abbrev F.EVTC_CNT_COAL (i : Nat) : RegField := ⟨R.EVTC_CNT i, 16, 16⟩
abbrev R.WDOG_CFG (j : Nat) : Nat := 0x5a040 + j * 0x4
abbrev F.WDOG_CFG_TMO (j : Nat) : RegField := ⟨R.WDOG_CFG j, 0, 16⟩
abbrev F.WDOG_CFG_EN (j : Nat) : RegField := ⟨R.WDOG_CFG j, 16, 1⟩
abbrev R.WDOG_KICK (j : Nat) : Nat := 0x5a050 + j * 0x4
abbrev F.WDOG_KICK_KICK (j : Nat) : RegField := ⟨R.WDOG_KICK j, 0, 1⟩
abbrev R.WDOG_MCTL : Nat := 0x5a060
abbrev F.WDOG_MCTL_MRST : RegField := ⟨R.WDOG_MCTL, 0, 1⟩
abbrev F.WDOG_MCTL_RUN : RegField := ⟨R.WDOG_MCTL, 1, 4⟩
abbrev R.WDOG_STAT : Nat := 0x5a064
abbrev F.WDOG_STAT_BARK : RegField := ⟨R.WDOG_STAT, 0, 4⟩
abbrev F.WDOG_STAT_CAUSE : RegField := ⟨R.WDOG_STAT, 4, 3⟩
abbrev F.WDOG_STAT_BITE_CORE : RegField := ⟨R.WDOG_STAT, 7, 2⟩
abbrev F.WDOG_STAT_MCOUNT : RegField := ⟨R.WDOG_STAT, 16, 16⟩
abbrev R.TRIM_CFG : Nat := 0x5b040
abbrev F.TRIM_CFG_ADC_CAL_S : RegField := ⟨R.TRIM_CFG, 0, 8⟩
abbrev F.TRIM_CFG_TAPCAL_EN : RegField := ⟨R.TRIM_CFG, 8, 1⟩
abbrev R.TRIM_STALE : Nat := 0x5b044
abbrev F.TRIM_STALE_ADC : RegField := ⟨R.TRIM_STALE, 0, 1⟩
abbrev F.TRIM_STALE_TJ : RegField := ⟨R.TRIM_STALE, 1, 1⟩
abbrev F.TRIM_STALE_SUPPLY : RegField := ⟨R.TRIM_STALE, 2, 1⟩
abbrev F.TRIM_STALE_AGE : RegField := ⟨R.TRIM_STALE, 3, 1⟩
abbrev R.TRIM_DSEL : Nat := 0x5b048
abbrev F.TRIM_DSEL_IDX : RegField := ⟨R.TRIM_DSEL, 0, 9⟩
abbrev F.TRIM_DSEL_INC : RegField := ⟨R.TRIM_DSEL, 31, 1⟩
abbrev R.TRIM_DDATA : Nat := 0x5b04c
abbrev F.TRIM_DDATA_VALUE : RegField := ⟨R.TRIM_DDATA, 0, 16⟩
abbrev R.TRIM_FSEL : Nat := 0x5b050
abbrev F.TRIM_FSEL_PORT : RegField := ⟨R.TRIM_FSEL, 0, 5⟩
abbrev F.TRIM_FSEL_IDX : RegField := ⟨R.TRIM_FSEL, 8, 8⟩
abbrev F.TRIM_FSEL_INC : RegField := ⟨R.TRIM_FSEL, 31, 1⟩
abbrev R.TRIM_FDATA : Nat := 0x5b054
abbrev F.TRIM_FDATA_DATA : RegField := ⟨R.TRIM_FDATA, 0, 32⟩
abbrev R.TRIM_ENC_CFG : Nat := 0x5b058
abbrev F.TRIM_ENC_CFG_SWAP_MS : RegField := ⟨R.TRIM_ENC_CFG, 0, 16⟩
abbrev F.TRIM_ENC_CFG_SWAP_LIM : RegField := ⟨R.TRIM_ENC_CFG, 16, 8⟩
abbrev R.TRIM_ENC_STAT : Nat := 0x5b05c
abbrev F.TRIM_ENC_STAT_PAIR0 : RegField := ⟨R.TRIM_ENC_STAT, 0, 1⟩
abbrev F.TRIM_ENC_STAT_PAIR1 : RegField := ⟨R.TRIM_ENC_STAT, 1, 1⟩
abbrev F.TRIM_ENC_STAT_REFUSED : RegField := ⟨R.TRIM_ENC_STAT, 16, 16⟩
abbrev R.TRIM_TAPCAL : Nat := 0x5b060
abbrev F.TRIM_TAPCAL_FAULT : RegField := ⟨R.TRIM_TAPCAL, 0, 32⟩
abbrev R.TRIM_CTL : Nat := 0x5b064
abbrev F.TRIM_CTL_ADC_CAL : RegField := ⟨R.TRIM_CTL, 0, 1⟩
abbrev R.TRIM_TJMAX : Nat := 0x5b068
abbrev F.TRIM_TJMAX_TJ : RegField := ⟨R.TRIM_TJMAX, 0, 12⟩
abbrev R.TRIM_TJ (j : Nat) : Nat := 0x5b080 + j * 0x4
abbrev F.TRIM_TJ_TJ (j : Nat) : RegField := ⟨R.TRIM_TJ j, 0, 12⟩
abbrev F.TRIM_TJ_STALE (j : Nat) : RegField := ⟨R.TRIM_TJ j, 12, 1⟩
abbrev R.WEAR_CFG : Nat := 0x5c040
abbrev F.WEAR_CFG_W_SH : RegField := ⟨R.WEAR_CFG, 0, 4⟩
abbrev R.WEAR_DLIM : Nat := 0x5c044
abbrev F.WEAR_DLIM_D_LIM : RegField := ⟨R.WEAR_DLIM, 0, 16⟩
abbrev R.WEAR_WARN : Nat := 0x5c048
abbrev F.WEAR_WARN_HOURS : RegField := ⟨R.WEAR_WARN, 0, 24⟩
abbrev R.WEAR_CTL : Nat := 0x5c04c
abbrev F.WEAR_CTL_SNAP : RegField := ⟨R.WEAR_CTL, 0, 1⟩
abbrev F.WEAR_CTL_RESTORE : RegField := ⟨R.WEAR_CTL, 1, 1⟩
abbrev R.WEAR_STAT : Nat := 0x5c050
abbrev F.WEAR_STAT_BUSY : RegField := ⟨R.WEAR_STAT, 0, 1⟩
abbrev R.WEAR_SNAP_BASE_LO : Nat := 0x5c054
abbrev F.WEAR_SNAP_BASE_LO_BASE : RegField := ⟨R.WEAR_SNAP_BASE_LO, 0, 32⟩
abbrev R.WEAR_SNAP_BASE_HI : Nat := 0x5c058
abbrev F.WEAR_SNAP_BASE_HI_BASE : RegField := ⟨R.WEAR_SNAP_BASE_HI, 0, 8⟩
abbrev R.WEAR_SEL : Nat := 0x5c05c
abbrev F.WEAR_SEL_IND : RegField := ⟨R.WEAR_SEL, 0, 6⟩
abbrev R.WEAR_L : Nat := 0x5c060
abbrev F.WEAR_L_L : RegField := ⟨R.WEAR_L, 0, 32⟩
abbrev R.WEAR_L90 : Nat := 0x5c064
abbrev F.WEAR_L90_L90 : RegField := ⟨R.WEAR_L90, 0, 32⟩
abbrev R.WEAR_USED : Nat := 0x5c068
abbrev F.WEAR_USED_USED : RegField := ⟨R.WEAR_USED, 0, 16⟩
abbrev R.WEAR_EW_LO : Nat := 0x5c06c
abbrev F.WEAR_EW_LO_EW : RegField := ⟨R.WEAR_EW_LO, 0, 32⟩
abbrev R.WEAR_EW_HI : Nat := 0x5c070
abbrev F.WEAR_EW_HI_EW : RegField := ⟨R.WEAR_EW_HI, 0, 9⟩
abbrev R.WEAR_TEQ_LO : Nat := 0x5c074
abbrev F.WEAR_TEQ_LO_TEQ : RegField := ⟨R.WEAR_TEQ_LO, 0, 32⟩
abbrev R.WEAR_TEQ_HI : Nat := 0x5c078
abbrev F.WEAR_TEQ_HI_TEQ : RegField := ⟨R.WEAR_TEQ_HI, 0, 16⟩
abbrev R.WEAR_HRATED (j : Nat) : Nat := 0x5c080 + j * 0x4
abbrev F.WEAR_HRATED_RATED (j : Nat) : RegField := ⟨R.WEAR_HRATED j, 0, 32⟩
abbrev R.WEAR_ARATED (j : Nat) : Nat := 0x5c100 + j * 0x4
abbrev F.WEAR_ARATED_RATED (j : Nat) : RegField := ⟨R.WEAR_ARATED j, 0, 32⟩
abbrev R.WEAR_AGE (j : Nat) : Nat := 0x5c180 + j * 0x4
abbrev F.WEAR_AGE_D (j : Nat) : RegField := ⟨R.WEAR_AGE j, 0, 16⟩
abbrev R.SUPV_CFG : Nat := 0x5d040
abbrev F.SUPV_CFG_T_HOLD : RegField := ⟨R.SUPV_CFG, 0, 10⟩
abbrev R.SUPV_STAT : Nat := 0x5d044
abbrev F.SUPV_STAT_REEF_CORE : RegField := ⟨R.SUPV_STAT, 0, 1⟩
abbrev F.SUPV_STAT_REEF_IO33 : RegField := ⟨R.SUPV_STAT, 1, 1⟩
abbrev F.SUPV_STAT_HOLD_EXC : RegField := ⟨R.SUPV_STAT, 2, 1⟩
abbrev R.SUPV_CNT : Nat := 0x5d048
abbrev F.SUPV_CNT_REEFS : RegField := ⟨R.SUPV_CNT, 0, 16⟩
abbrev F.SUPV_CNT_HOLDS : RegField := ⟨R.SUPV_CNT, 16, 16⟩
abbrev R.SUPV_V (j : Nat) : Nat := 0x5d080 + j * 0x4
abbrev F.SUPV_V_MV (j : Nat) : RegField := ⟨R.SUPV_V j, 0, 16⟩
abbrev R.BOOT_STAT : Nat := 0x5e040
abbrev F.BOOT_STAT_SLOT : RegField := ⟨R.BOOT_STAT, 0, 1⟩
abbrev F.BOOT_STAT_TRIED : RegField := ⟨R.BOOT_STAT, 1, 1⟩
abbrev F.BOOT_STAT_RES_A : RegField := ⟨R.BOOT_STAT, 2, 3⟩
abbrev F.BOOT_STAT_RES_B : RegField := ⟨R.BOOT_STAT, 5, 3⟩
abbrev F.BOOT_STAT_RBK : RegField := ⟨R.BOOT_STAT, 8, 7⟩
abbrev F.BOOT_STAT_WARM : RegField := ⟨R.BOOT_STAT, 15, 1⟩
abbrev R.BOOT_TRY : Nat := 0x5e044
abbrev F.BOOT_TRY_SLOT : RegField := ⟨R.BOOT_TRY, 0, 1⟩
abbrev F.BOOT_TRY_EN : RegField := ⟨R.BOOT_TRY, 1, 1⟩
abbrev R.BOOT_RBK : Nat := 0x5e048
abbrev F.BOOT_RBK_TARGET : RegField := ⟨R.BOOT_RBK, 0, 7⟩
abbrev F.BOOT_RBK_ADV : RegField := ⟨R.BOOT_RBK, 7, 1⟩
abbrev R.BOOT_VER : Nat := 0x5e04c
abbrev F.BOOT_VER_VERSION : RegField := ⟨R.BOOT_VER, 0, 32⟩
abbrev R.BOOT_WARM_LO : Nat := 0x5e050
abbrev F.BOOT_WARM_LO_ADDR : RegField := ⟨R.BOOT_WARM_LO, 0, 32⟩
abbrev R.BOOT_WARM_HI : Nat := 0x5e054
abbrev F.BOOT_WARM_HI_ADDR : RegField := ⟨R.BOOT_WARM_HI, 0, 8⟩
abbrev R.BOOT_VERIFY : Nat := 0x5e058
abbrev F.BOOT_VERIFY_GO : RegField := ⟨R.BOOT_VERIFY, 0, 1⟩
abbrev F.BOOT_VERIFY_BUSY : RegField := ⟨R.BOOT_VERIFY, 1, 1⟩
abbrev F.BOOT_VERIFY_VALID : RegField := ⟨R.BOOT_VERIFY, 2, 1⟩
abbrev F.BOOT_VERIFY_RESULT : RegField := ⟨R.BOOT_VERIFY, 3, 3⟩
abbrev R.STAY_CFG : Nat := 0x5f040
abbrev F.STAY_CFG_EN_E : RegField := ⟨R.STAY_CFG, 0, 1⟩
abbrev F.STAY_CFG_EN_W : RegField := ⟨R.STAY_CFG, 1, 1⟩
abbrev F.STAY_CFG_AUTO : RegField := ⟨R.STAY_CFG, 2, 1⟩
abbrev F.STAY_CFG_LAUNCH : RegField := ⟨R.STAY_CFG, 8, 12⟩
abbrev R.STAY_STAT : Nat := 0x5f044
abbrev F.STAY_STAT_STAGE_E : RegField := ⟨R.STAY_STAT, 0, 3⟩
abbrev F.STAY_STAT_STAGE_W : RegField := ⟨R.STAY_STAT, 3, 3⟩
abbrev F.STAY_STAT_BREAK : RegField := ⟨R.STAY_STAT, 6, 1⟩
abbrev F.STAY_STAT_WIRING : RegField := ⟨R.STAY_STAT, 7, 1⟩
abbrev F.STAY_STAT_MEMBERS : RegField := ⟨R.STAY_STAT, 16, 16⟩
abbrev R.STAY_DELAY_E : Nat := 0x5f048
abbrev F.STAY_DELAY_E_D : RegField := ⟨R.STAY_DELAY_E, 0, 32⟩
abbrev R.STAY_DELAY_W : Nat := 0x5f04c
abbrev F.STAY_DELAY_W_D : RegField := ⟨R.STAY_DELAY_W, 0, 32⟩
abbrev R.STAY_CNT : Nat := 0x5f050
abbrev F.STAY_CNT_BAD : RegField := ⟨R.STAY_CNT, 0, 16⟩
abbrev F.STAY_CNT_VDROP : RegField := ⟨R.STAY_CNT, 16, 16⟩

/-! The common page header, R426 to R438: one copy per page `p`. -/
abbrev R.PG_CTL (p : Nat) : Nat := p * 0x1000 + 0xc
abbrev F.PG_CTL_EN (p : Nat) : RegField := ⟨R.PG_CTL p, 0, 1⟩
abbrev F.PG_CTL_STOP_MODE (p : Nat) : RegField := ⟨R.PG_CTL p, 1, 1⟩
abbrev R.PG_STAT (p : Nat) : Nat := p * 0x1000 + 0x10
abbrev F.PG_STAT_ACTIVE (p : Nat) : RegField := ⟨R.PG_STAT p, 0, 1⟩
abbrev F.PG_STAT_IDLE (p : Nat) : RegField := ⟨R.PG_STAT p, 1, 1⟩
abbrev F.PG_STAT_STOPPING (p : Nat) : RegField := ⟨R.PG_STAT p, 2, 1⟩
abbrev F.PG_STAT_CLEATED (p : Nat) : RegField := ⟨R.PG_STAT p, 3, 1⟩
abbrev F.PG_STAT_STALE (p : Nat) : RegField := ⟨R.PG_STAT p, 4, 1⟩
abbrev F.PG_STAT_BOUND (p : Nat) : RegField := ⟨R.PG_STAT p, 5, 1⟩
abbrev F.PG_STAT_STATE (p : Nat) : RegField := ⟨R.PG_STAT p, 8, 8⟩
abbrev R.PG_EVT (p : Nat) : Nat := p * 0x1000 + 0x14
abbrev F.PG_EVT_FAULT (p : Nat) : RegField := ⟨R.PG_EVT p, 0, 1⟩
abbrev F.PG_EVT_APPLIED (p : Nat) : RegField := ⟨R.PG_EVT p, 1, 1⟩
abbrev F.PG_EVT_REFUSED (p : Nat) : RegField := ⟨R.PG_EVT p, 2, 1⟩
abbrev F.PG_EVT_IDLE (p : Nat) : RegField := ⟨R.PG_EVT p, 3, 1⟩
abbrev F.PG_EVT_CLEATED (p : Nat) : RegField := ⟨R.PG_EVT p, 4, 1⟩
abbrev F.PG_EVT_BLOCK (p : Nat) : RegField := ⟨R.PG_EVT p, 8, 24⟩
abbrev R.PG_EVT_EN (p : Nat) : Nat := p * 0x1000 + 0x18
abbrev F.PG_EVT_EN_EN (p : Nat) : RegField := ⟨R.PG_EVT_EN p, 0, 32⟩
abbrev R.PG_EVT_SRC (p : Nat) : Nat := p * 0x1000 + 0x1c
abbrev F.PG_EVT_SRC_SRC (p : Nat) : RegField := ⟨R.PG_EVT_SRC p, 0, 9⟩
abbrev R.PG_COMMIT (p : Nat) : Nat := p * 0x1000 + 0x20
abbrev F.PG_COMMIT_MODE (p : Nat) : RegField := ⟨R.PG_COMMIT p, 0, 2⟩
abbrev F.PG_COMMIT_TARGET (p : Nat) : RegField := ⟨R.PG_COMMIT p, 2, 30⟩
abbrev R.PG_COMMIT_STAT (p : Nat) : Nat := p * 0x1000 + 0x24
abbrev F.PG_COMMIT_STAT_STATUS (p : Nat) : RegField := ⟨R.PG_COMMIT_STAT p, 0, 4⟩
abbrev F.PG_COMMIT_STAT_CHECKING (p : Nat) : RegField := ⟨R.PG_COMMIT_STAT p, 4, 1⟩
abbrev F.PG_COMMIT_STAT_MODE (p : Nat) : RegField := ⟨R.PG_COMMIT_STAT p, 5, 3⟩
abbrev F.PG_COMMIT_STAT_SOURCE (p : Nat) : RegField := ⟨R.PG_COMMIT_STAT p, 8, 2⟩
abbrev F.PG_COMMIT_STAT_EPOCH_LO (p : Nat) : RegField := ⟨R.PG_COMMIT_STAT p, 16, 16⟩
abbrev R.PG_FAULT (p : Nat) : Nat := p * 0x1000 + 0x28
abbrev F.PG_FAULT_CODE (p : Nat) : RegField := ⟨R.PG_FAULT p, 0, 8⟩
abbrev F.PG_FAULT_OVF (p : Nat) : RegField := ⟨R.PG_FAULT p, 8, 1⟩
abbrev F.PG_FAULT_VALID (p : Nat) : RegField := ⟨R.PG_FAULT p, 31, 1⟩
abbrev R.PG_FAULT_INFO (p : Nat) : Nat := p * 0x1000 + 0x2c
abbrev F.PG_FAULT_INFO_OFFSET (p : Nat) : RegField := ⟨R.PG_FAULT_INFO p, 0, 12⟩
abbrev F.PG_FAULT_INFO_SHADOW (p : Nat) : RegField := ⟨R.PG_FAULT_INFO p, 12, 1⟩
abbrev F.PG_FAULT_INFO_DISCARDED (p : Nat) : RegField := ⟨R.PG_FAULT_INFO p, 16, 16⟩
abbrev R.PG_HEALTH (p : Nat) : Nat := p * 0x1000 + 0x30
abbrev F.PG_HEALTH_CE (p : Nat) : RegField := ⟨R.PG_HEALTH p, 0, 16⟩
abbrev F.PG_HEALTH_UE (p : Nat) : RegField := ⟨R.PG_HEALTH p, 16, 1⟩
abbrev F.PG_HEALTH_REMAP (p : Nat) : RegField := ⟨R.PG_HEALTH p, 17, 1⟩

/-- Registers of SYS (page 0x00), chapter 18. -/
def regsSYS0 : List RegDesc := [
  ⟨0x40, 1, 0, 1, 0, 0, 0x1, 0, 0, 0, 0, 0, 0, []⟩,  -- SYS_CTL
  ⟨0x44, 1, 0, 1, 0, 0, 0x1ff, 0, 0, 0, 0, 0, 0, []⟩,  -- SYS_BRST
  ⟨0x48, 1, 0, 1, 0, 0, 0, 0xffffffff, 0, 0, 0, 0, 0, []⟩,  -- SYS_UID_LO
  ⟨0x4c, 1, 0, 1, 0, 0, 0, 0xffffffff, 0, 0, 0, 0, 0, []⟩]  -- SYS_UID_HI
def regsSYS : List RegDesc := regsSYS0

/-- Registers of PWRCTL (page 0x01), chapter 18. -/
def regsPWRCTL0 : List RegDesc := [
  ⟨0x40, 1, 0, 1, 0, 0x1ff, 0, 0, 0, 0, 0, 0, 0, []⟩,  -- PWR_OE
  ⟨0x44, 1, 0, 1, 0, 0, 0, 0, 0, 0x1, 0, 0, 0, []⟩,  -- PWR_SLEEP
  ⟨0x48, 1, 0, 1, 0, 0x1ff, 0, 0, 0, 0, 0, 0, 0, []⟩,  -- PWR_WAKE_CFG
  ⟨0x4c, 1, 0, 1, 0, 0xffffffff, 0, 0, 0, 0, 0, 0, 0, []⟩,  -- PWR_WAKE_TMR
  ⟨0x50, 1, 0, 1, 0, 0, 0, 0, 0x1ff, 0, 0, 0, 0, []⟩,  -- PWR_WAKE_STAT
  ⟨0x54, 1, 0, 1, 0, 0, 0, 0xffff0000, 0x1ff, 0, 0, 0, 0x10003, []⟩]  -- PWR_RST_CAUSE
def regsPWRCTL : List RegDesc := regsPWRCTL0

/-- Registers of CLK (page 0x02), chapter 18. -/
def regsCLK0 : List RegDesc := [
  ⟨0x40, 1, 0, 1, 0, 0, 0, 0x1f, 0, 0, 0, 0, 0x7, []⟩,  -- CLK_STAT
  ⟨0x44, 1, 0, 1, 0, 0x3, 0, 0, 0, 0, 0, 0, 0, []⟩,  -- CLK_MZ
  ⟨0x48, 1, 0, 1, 0, 0, 0, 0xffffffff, 0, 0, 0, 0xffffffff, 0, []⟩]  -- CLK_CNT
def regsCLK : List RegDesc := regsCLK0

/-- Registers of BEAT (page 0x03), chapter 02. -/
def regsBEAT0 : List RegDesc := [
  ⟨0x40, 1, 0, 1, 0, 0xffffffff, 0, 0, 0, 0, 0, 0, 0, []⟩,  -- BEAT_PHASE
  ⟨0x44, 1, 0, 1, 0, 0, 0, 0xffffffff, 0, 0, 0, 0, 0, []⟩,  -- BEAT_NUM_LO
  ⟨0x48, 1, 0, 1, 0, 0, 0, 0xffffffff, 0, 0, 0, 0, 0, []⟩,  -- BEAT_NUM_HI
  ⟨0x4c, 1, 0, 1, 0, 0, 0, 0xffffffff, 0, 0, 0, 0, 0, []⟩,  -- EPOCH_NOW
  ⟨0x50, 1, 0, 1, 0, 0xffff, 0, 0xff0000, 0, 0, 0, 0, 0, []⟩]  -- BEAT_OVERRUN
def regsBEAT : List RegDesc := regsBEAT0

/-- Registers of PLAN (page 0x04), chapter 02. -/
def regsPLAN0 : List RegDesc := [
  ⟨0x40, 1, 0, 1, 0, 0, 0, 0, 0, 0, 0x1, 0, 0, []⟩,  -- PLAN_GLOBAL
  ⟨0x44, 1, 0, 1, 0, 0, 0, 0, 0, 0, 0xffffffff, 0, 0, []⟩,  -- PLAN_EPOCH0
  ⟨0x80, 8, 8, 1, 0, 0, 0, 0, 0, 0, 0xfffff1f, 0, 0, []⟩,  -- PLAN_PLANE_A
  ⟨0x84, 8, 8, 1, 0, 0, 0, 0, 0, 0, 0x3ffff, 0, 0, []⟩,  -- PLAN_PLANE_B
  ⟨0x100, 32, 8, 1, 0, 0, 0, 0, 0, 0, 0x1fff1f, 0, 0, []⟩,  -- PLAN_HP_A
  ⟨0x104, 32, 8, 1, 0, 0, 0, 0, 0, 0, 0x3ffff, 0, 0, []⟩,  -- PLAN_HP_B
  ⟨0x200, 2, 8, 1, 0, 0, 0, 0, 0, 0, 0x7ffff, 0, 0, []⟩,  -- PLAN_CAM_A
  ⟨0x204, 2, 8, 1, 0, 0, 0, 0, 0, 0, 0xfffff, 0, 0, []⟩,  -- PLAN_CAM_B
  ⟨0x300, 32, 4, 1, 0, 0, 0, 0, 0, 0, 0xff1f, 0, 0, []⟩,  -- PLAN_LOOP
  ⟨0x380, 1, 0, 1, 0, 0, 0, 0, 0, 0, 0xff07ff, 0, 0, []⟩,  -- PLAN_STAY
  ⟨0x3c0, 1, 0, 1, 0, 0, 0, 0x7ffff, 0, 0, 0, 0, 0, []⟩,  -- PLAN_CHK
  ⟨0x3c4, 1, 0, 1, 0, 0, 0, 0xffffffff, 0, 0, 0, 0, 0, []⟩,  -- PLAN_DEMAND
  ⟨0x3c8, 1, 0, 1, 0, 0, 0, 0xffffffff, 0, 0, 0, 0, 0, []⟩,  -- PLAN_BUDGET
  ⟨0x3cc, 1, 0, 1, 0, 0, 0, 0xffffffff, 0, 0, 0, 0, 0, []⟩,  -- PLAN_ADV
  ⟨0x3d0, 1, 0, 1, 0, 0, 0, 0, 0, 0x3, 0, 0, 0, []⟩]  -- PLAN_STOP
def regsPLAN : List RegDesc := regsPLAN0

/-- Registers of ENC (page 0x05), chapter 03. -/
def regsENC0 : List RegDesc := [
  ⟨0x40, 1, 0, 1, 0, 0xffff03ff, 0, 0, 0, 0, 0, 0, 0x100080, [(16, 16, .span 1 65535)]⟩,  -- ENC_CFG
  ⟨0x44, 1, 0, 1, 0, 0xfff0fff, 0, 0, 0, 0, 0, 0, 0x76c0190, []⟩,  -- ENC_AMP
  ⟨0x48, 1, 0, 1, 0, 0xfff0fff, 0, 0, 0, 0, 0, 0, 0x8000800, []⟩,  -- ENC_ADC_OFS
  ⟨0x4c, 1, 0, 1, 0, 0xffffffff, 0, 0, 0, 0, 0, 0, 0, []⟩,  -- ENC_IDX_LO
  ⟨0x50, 1, 0, 1, 0, 0xffffffff, 0, 0, 0, 0, 0, 0, 0x1000000, []⟩,  -- ENC_IDX_HI
  ⟨0x54, 1, 0, 1, 0, 0, 0, 0, 0, 0x7, 0, 0, 0, []⟩,  -- ENC_CTL
  ⟨0x58, 1, 0, 1, 0, 0, 0, 0x3f, 0xc0, 0, 0, 0, 0x10, []⟩,  -- ENC_STAT
  ⟨0x5c, 1, 0, 1, 0, 0, 0, 0xffffffff, 0, 0, 0, 0, 0, []⟩,  -- ENC_POS_LO
  ⟨0x60, 1, 0, 1, 0, 0, 0, 0xffff, 0, 0, 0, 0, 0, []⟩,  -- ENC_POS_HI
  ⟨0x64, 1, 0, 1, 0, 0, 0, 0xffffffff, 0, 0, 0, 0, 0, []⟩,  -- ENC_VEL
  ⟨0x68, 1, 0, 1, 0, 0xfff, 0, 0, 0, 0, 0, 0, 0xe83, []⟩]  -- ENC_TRK
def regsENC : List RegDesc := regsENC0

/-- Registers of VENC (page 0x07), chapter 03. -/
def regsVENC0 : List RegDesc := [
  ⟨0x40, 1, 0, 1, 0, 0xff03, 0, 0, 0, 0, 0, 0, 0x400, [(8, 8, .span 1 255)]⟩,  -- VENC_CFG
  ⟨0x44, 1, 0, 1, 0, 0xffffffff, 0, 0, 0, 0, 0, 0, 0, []⟩,  -- VENC_OFS_LO
  ⟨0x48, 1, 0, 1, 0, 0xffff, 0, 0, 0, 0, 0, 0, 0, []⟩,  -- VENC_OFS_HI
  ⟨0x4c, 1, 0, 1, 0, 0, 0, 0xffff0007, 0, 0, 0, 0xffff0000, 0, []⟩,  -- VENC_STAT
  ⟨0x80, 8, 16, 1, 0, 0xf1f, 0, 0, 0, 0, 0, 0, 0x300, []⟩,  -- LEV_CFG
  ⟨0x84, 8, 16, 1, 0, 0xffffffff, 0, 0, 0, 0, 0, 0, 0, []⟩,  -- LEV_PITCH
  ⟨0x88, 8, 16, 1, 0, 0xffffffff, 0, 0, 0, 0, 0, 0, 0, []⟩,  -- LEV_ORIGIN_LO
  ⟨0x8c, 8, 16, 1, 0, 0xffff, 0, 0, 0, 0, 0, 0, 0, []⟩,  -- LEV_ORIGIN_HI
  ⟨0x100, 8, 4, 1, 0, 0, 0, 0xffff0007, 0x18, 0, 0, 0xffff0000, 0x4, []⟩,  -- LEV_STAT
  ⟨0x120, 1, 0, 1, 0, 0, 0, 0, 0, 0xff, 0, 0, 0, []⟩,  -- LEV_CTL
  ⟨0x124, 1, 0, 1, 0, 0xffffffff, 0, 0, 0, 0, 0, 0, 0x1000, []⟩,  -- LEV_VMIN
  ⟨0x128, 1, 0, 1, 0, 0xffff, 0, 0, 0, 0, 0, 0, 0x14, []⟩]  -- LEV_ERR_LIM
def regsVENC : List RegDesc := regsVENC0

/-- Registers of TIME (page 0x08), chapter 04. -/
def regsTIME0 : List RegDesc := [
  ⟨0x40, 1, 0, 1, 0, 0, 0, 0x3fffffff, 0, 0, 0, 0, 0, []⟩,  -- TIME_NS
  ⟨0x44, 1, 0, 1, 0, 0, 0, 0xffff, 0, 0, 0, 0, 0, []⟩,  -- TIME_FRAC
  ⟨0x48, 1, 0, 1, 0, 0, 0, 0xffffffff, 0, 0, 0, 0, 0, []⟩,  -- TIME_SEC_LO
  ⟨0x4c, 1, 0, 1, 0, 0, 0, 0xffffffff, 0, 0, 0, 0, 0, []⟩,  -- TIME_SEC_HI
  ⟨0x50, 1, 0, 1, 0, 0x3fffffff, 0, 0, 0, 0, 0, 0, 0, []⟩,  -- TIME_SET_NS
  ⟨0x54, 1, 0, 1, 0, 0xffffffff, 0, 0, 0, 0, 0, 0, 0, []⟩,  -- TIME_SET_SEC_LO
  ⟨0x58, 1, 0, 1, 0, 0xffffffff, 0, 0, 0, 0, 0, 0, 0, []⟩,  -- TIME_SET_SEC_HI
  ⟨0x5c, 1, 0, 1, 0, 0x1e, 0, 0, 0, 0x1, 0, 0, 0, []⟩,  -- TIME_CTL
  ⟨0x60, 1, 0, 1, 0, 0xffffffff, 0, 0, 0, 0, 0, 0, 0, []⟩,  -- TIME_FREQ
  ⟨0x64, 1, 0, 1, 0, 0xffffffff, 0, 0, 0, 0, 0, 0, 0x4000100, []⟩,  -- TIME_SERVO
  ⟨0x68, 1, 0, 1, 0, 0xffffffff, 0, 0, 0, 0, 0, 0, 0x642710, [(0, 16, .span 100 50000)]⟩,  -- TIME_SLEW
  ⟨0x6c, 1, 0, 1, 0, 0, 0, 0x7, 0x38, 0, 0, 0, 0, []⟩,  -- TIME_STAT
  ⟨0x80, 2, 32, 1, 0, 0xffff3fff, 0, 0, 0, 0, 0, 0, 0x10d30000, [(16, 4, .span 1 15), (20, 4, .logSync), (24, 8, .span 1 255)]⟩,  -- TIME_DOM_CFG
  ⟨0x84, 2, 32, 1, 0, 0, 0, 0xffffffff, 0, 0, 0, 0, 0, []⟩,  -- TIME_DOM_OFS
  ⟨0x88, 2, 32, 1, 0, 0, 0, 0x7, 0, 0, 0, 0, 0, []⟩,  -- TIME_DOM_STAT
  ⟨0x8c, 2, 32, 1, 0, 0, 0, 0xffffffff, 0, 0, 0, 0, 0, []⟩,  -- TIME_DOM_MPD
  ⟨0x90, 2, 32, 1, 0, 0xffffffff, 0, 0, 0, 0, 0, 0, 0, []⟩,  -- TIME_DOM_PARENT0
  ⟨0x94, 2, 32, 1, 0, 0xffffffff, 0, 0, 0, 0, 0, 0, 0, []⟩,  -- TIME_DOM_PARENT1
  ⟨0x98, 2, 32, 1, 0, 0xffff, 0, 0, 0, 0, 0, 0, 0, []⟩,  -- TIME_DOM_PARENT2
  ⟨0x100, 8, 4, 1, 0, 0xffffffff, 0, 0, 0, 0, 0, 0, 0, []⟩]  -- TIME_TSC
/-- Registers of TIME (page 0x08), chapter 04. -/
def regsTIME1 : List RegDesc := [
  ⟨0x140, 1, 0, 1, 0, 0, 0, 0x3ffff, 0, 0, 0, 0, 0, []⟩,  -- TSQ_DATA0
  ⟨0x144, 1, 0, 1, 0, 0, 0, 0x3fffffff, 0, 0, 0, 0, 0, []⟩,  -- TSQ_DATA1
  ⟨0x148, 1, 0, 1, 0, 0, 0, 0xffff, 0, 0, 0, 0, 0, []⟩,  -- TSQ_DATA2
  ⟨0x14c, 1, 0, 1, 0, 0, 0, 0xffffffff, 0, 0, 0, 0, 0, []⟩,  -- TSQ_DATA3
  ⟨0x150, 1, 0, 1, 0, 0, 0, 0xffff001f, 0x20, 0, 0, 0xffff0000, 0, []⟩,  -- TSQ_STAT
  ⟨0x160, 1, 0, 1, 0, 0xff, 0, 0xffff0000, 0, 0, 0, 0xffff0000, 0x10, []⟩,  -- TIME_ALIGN
  ⟨0x164, 1, 0, 1, 0, 0x3, 0, 0, 0, 0, 0, 0, 0, []⟩,  -- TIME_LAUNCH
  ⟨0x168, 1, 0, 1, 0, 0, 0, 0xffffffff, 0, 0, 0, 0xffffffff, 0, []⟩]  -- TIME_LATE
def regsTIME : List RegDesc := regsTIME0 ++ regsTIME1

/-- Registers of TPULSE (page 0x09), chapter 04. -/
def regsTPULSE0 : List RegDesc := [
  ⟨0x40, 8, 32, 1, 0, 0, 0, 0, 0, 0, 0xffff0003, 0, 0x10000, []⟩,  -- TP_CFG
  ⟨0x44, 8, 32, 1, 0, 0, 0, 0, 0, 0, 0x3fffffff, 0, 0, []⟩,  -- TP_START_NS
  ⟨0x48, 8, 32, 1, 0, 0, 0, 0, 0, 0, 0xffffffff, 0, 0, []⟩,  -- TP_START_SEC
  ⟨0x4c, 8, 32, 1, 0, 0, 0, 0, 0, 0, 0xffffffff, 0, 0, []⟩,  -- TP_PERIOD
  ⟨0x50, 8, 32, 1, 0, 0, 0, 0, 0, 0, 0xffffffff, 0, 0, []⟩,  -- TP_WIDTH
  ⟨0x54, 8, 32, 1, 0, 0, 0, 0x1, 0x2, 0, 0, 0, 0, []⟩]  -- TP_STAT
def regsTPULSE : List RegDesc := regsTPULSE0

/-- Registers of ETH (page 0x0A), chapter 05. A write of FEC 2 with RATE 1 is stored as it comes: the spec says that RS-FEC is
for 25GBASE-R and not what such a write does (DESIGN CHOICE, log entry 100). -/
def regsETH0 : List RegDesc := [
  ⟨0x40, 1, 0, 1, 0, 0x3fff773f, 0, 0, 0, 0, 0, 0, 0x25802600, [(16, 14, .span 64 9600)]⟩,  -- ETH_CFG
  ⟨0x44, 1, 0, 1, 0, 0xffffffff, 0, 0, 0, 0, 0, 0, 0, []⟩,  -- ETH_MAC_LO
  ⟨0x48, 1, 0, 1, 0, 0xffff, 0, 0, 0, 0, 0, 0, 0, []⟩,  -- ETH_MAC_HI
  ⟨0x4c, 1, 0, 1, 0, 0xfff, 0, 0, 0, 0, 0, 0, 0, []⟩,  -- ETH_VLAN
  ⟨0x50, 1, 0, 1, 0, 0xffffffff, 0, 0, 0, 0, 0, 0, 0, []⟩,  -- ETH_IP4
  ⟨0x54, 4, 4, 1, 0, 0xffffffff, 0, 0, 0, 0, 0, 0, 0, []⟩,  -- ETH_IP6
  ⟨0x80, 8, 8, 1, 0, 0xffffffff, 0, 0, 0, 0, 0, 0, 0, []⟩,  -- ETH_MCAST_LO
  ⟨0x84, 8, 8, 1, 0, 0x1ffff, 0, 0, 0, 0, 0, 0, 0, []⟩,  -- ETH_MCAST_HI
  ⟨0xc0, 1, 0, 1, 0, 0, 0, 0xf, 0, 0, 0, 0, 0, []⟩,  -- ETH_LINK
  ⟨0xc4, 1, 0, 1, 0, 0, 0, 0xffffffff, 0, 0, 0, 0xffffffff, 0, []⟩,  -- CNT_FCS
  ⟨0xc8, 1, 0, 1, 0, 0, 0, 0xffffffff, 0, 0, 0, 0xffffffff, 0, []⟩,  -- CNT_LEN
  ⟨0xcc, 1, 0, 1, 0, 0, 0, 0xffffffff, 0, 0, 0, 0xffffffff, 0, []⟩,  -- CNT_PAUSE
  ⟨0xd0, 1, 0, 1, 0, 0, 0, 0xffffffff, 0, 0, 0, 0xffffffff, 0, []⟩,  -- CNT_FILTER
  ⟨0xd4, 1, 0, 1, 0, 0, 0, 0xffffffff, 0, 0, 0, 0xffffffff, 0, []⟩,  -- CNT_FRAG
  ⟨0xd8, 1, 0, 1, 0, 0, 0, 0xffffffff, 0, 0, 0, 0xffffffff, 0, []⟩,  -- CNT_FEC_UNC
  ⟨0xdc, 1, 0, 1, 0, 0, 0, 0xffffffff, 0, 0, 0, 0xffffffff, 0, []⟩]  -- CNT_STBY_BULK
def regsETH : List RegDesc := regsETH0

/-- Registers of PATH (page 0x0C), chapter 05. -/
def regsPATH0 : List RegDesc := [
  ⟨0x40, 1, 0, 1, 0, 0xffffff03, 0, 0, 0, 0, 0, 0, 0x3c6402, [(8, 8, .span 1 255)]⟩,  -- PATH_CFG
  ⟨0x44, 1, 0, 1, 0, 0xffffffff, 0, 0, 0, 0, 0, 0, 0x3e80010, []⟩,  -- PATH_ERRLIM
  ⟨0x48, 1, 0, 1, 0, 0, 0, 0, 0, 0x3, 0, 0, 0, []⟩,  -- PATH_CMD
  ⟨0x4c, 1, 0, 1, 0, 0, 0, 0xffff771f, 0x60, 0, 0, 0, 0xc, []⟩,  -- PATH_STAT
  ⟨0x50, 1, 0, 1, 0, 0, 0, 0xffffffff, 0, 0, 0, 0, 0, []⟩,  -- PATH_DRILL_CNT
  ⟨0x60, 1, 0, 1, 0, 0xffffffff, 0, 0, 0, 0, 0, 0, 0, [(0, 32, .multOf 32)]⟩,  -- TXR_BASE_LO
  ⟨0x64, 1, 0, 1, 0, 0xff, 0, 0, 0, 0, 0, 0, 0, []⟩,  -- TXR_BASE_HI
  ⟨0x68, 1, 0, 1, 0, 0xffff, 0, 0, 0, 0, 0, 0, 0, [(0, 16, .pow2 16 32768)]⟩,  -- TXR_SIZE
  ⟨0x6c, 1, 0, 1, 0, 0xffff, 0, 0, 0, 0, 0, 0, 0, []⟩,  -- TXR_TAIL
  ⟨0x70, 1, 0, 1, 0, 0, 0, 0xffff, 0, 0, 0, 0, 0, []⟩,  -- TXR_HEAD
  ⟨0x74, 1, 0, 1, 0, 0xffffffff, 0, 0, 0, 0, 0, 0, 0, [(0, 32, .multOf 32)]⟩,  -- RXR_BASE_LO
  ⟨0x78, 1, 0, 1, 0, 0xff, 0, 0, 0, 0, 0, 0, 0, []⟩,  -- RXR_BASE_HI
  ⟨0x7c, 1, 0, 1, 0, 0xffff, 0, 0, 0, 0, 0, 0, 0, [(0, 16, .pow2 16 32768)]⟩,  -- RXR_SIZE
  ⟨0x80, 1, 0, 1, 0, 0xffff, 0, 0, 0, 0, 0, 0, 0, []⟩,  -- RXR_TAIL
  ⟨0x84, 1, 0, 1, 0, 0, 0, 0xffff, 0, 0, 0, 0, 0, []⟩,  -- RXR_HEAD
  ⟨0x88, 1, 0, 1, 0, 0, 0, 0xffffffff, 0, 0, 0, 0xffffffff, 0, []⟩]  -- RXR_DROPS
def regsPATH : List RegDesc := regsPATH0

/-- Registers of JTP (page 0x0D), chapter 06. -/
def regsJTP0 : List RegDesc := [
  ⟨0x40, 1, 0, 1, 0, 0xffffffff, 0, 0, 0, 0, 0, 0, 0x1008b806, [(16, 8, .span 1 64), (24, 8, .span 1 255)]⟩,  -- JTP_CFG
  ⟨0x44, 1, 0, 1, 0, 0xffffffff, 0, 0, 0, 0, 0, 0, 0x14000a, [(0, 16, .span 1 65535), (16, 16, .span 1 65535)]⟩,  -- JTP_TMR
  ⟨0x48, 1, 0, 1, 0, 0xffff, 0, 0, 0, 0, 0, 0, 0x3e8, [(0, 16, .span 10 65535)]⟩,  -- JTP_RTO
  ⟨0x4c, 1, 0, 1, 0, 0, 0, 0xffffffff, 0, 0, 0, 0, 0x1000100, []⟩,  -- JTP_STAGE
  ⟨0x50, 1, 0, 1, 0, 0, 0, 0xffffffff, 0, 0, 0, 0xffffffff, 0, []⟩,  -- CNT_FORMAT
  ⟨0x54, 1, 0, 1, 0, 0, 0, 0xffffffff, 0, 0, 0, 0xffffffff, 0, []⟩,  -- CNT_CRC
  ⟨0x58, 1, 0, 1, 0, 0, 0, 0xffffffff, 0, 0, 0, 0xffffffff, 0, []⟩,  -- CNT_SESSION
  ⟨0x5c, 1, 0, 1, 0, 0, 0, 0xffffffff, 0, 0, 0, 0xffffffff, 0, []⟩,  -- CNT_AUTH
  ⟨0x60, 1, 0, 1, 0, 0, 0, 0xffffffff, 0, 0, 0, 0xffffffff, 0, []⟩,  -- CNT_STATE
  ⟨0x64, 1, 0, 1, 0, 0, 0, 0xffffffff, 0, 0, 0, 0xffffffff, 0, []⟩,  -- CNT_DUP
  ⟨0x68, 1, 0, 1, 0, 0, 0, 0xffffffff, 0, 0, 0, 0xffffffff, 0, []⟩,  -- CNT_WINDOW
  ⟨0x6c, 1, 0, 1, 0, 0, 0, 0xffffffff, 0, 0, 0, 0xffffffff, 0, []⟩,  -- CNT_REJECT
  ⟨0x70, 1, 0, 1, 0, 0, 0, 0xffffffff, 0, 0, 0, 0xffffffff, 0, []⟩,  -- CNT_CREDIT
  ⟨0x74, 1, 0, 1, 0, 0, 0, 0xffffffff, 0, 0, 0, 0xffffffff, 0, []⟩,  -- CNT_MGMT_DROP
  ⟨0x78, 1, 0, 1, 0, 0, 0, 0xffffffff, 0, 0, 0, 0xffffffff, 0, []⟩,  -- CNT_TELE_SKIP
  ⟨0x7c, 1, 0, 1, 0, 0, 0, 0xffffffff, 0, 0, 0, 0xffffffff, 0, []⟩,  -- CNT_EVT_DROP
  ⟨0x80, 1, 0, 1, 0, 0, 0x3f, 0, 0, 0, 0, 0, 0, []⟩,  -- JTP_KEY_SEL
  ⟨0x84, 8, 4, 1, 0, 0, 0xffffffff, 0, 0, 0, 0, 0, 0, []⟩,  -- JTP_KEY_DATA
  ⟨0xa4, 1, 0, 1, 0, 0x7ff, 0, 0, 0, 0, 0, 0, 0x7ff, []⟩,  -- JTP_EVT_EN
  ⟨0xc0, 1, 0, 1, 0, 0xffffffff, 0, 0, 0, 0, 0, 0, 0, [(0, 32, .multOf 32)]⟩]  -- MTX_BASE_LO
/-- Registers of JTP (page 0x0D), chapter 06. -/
def regsJTP1 : List RegDesc := [
  ⟨0xc4, 1, 0, 1, 0, 0xff, 0, 0, 0, 0, 0, 0, 0, []⟩,  -- MTX_BASE_HI
  ⟨0xc8, 1, 0, 1, 0, 0xffff, 0, 0, 0, 0, 0, 0, 0, [(0, 16, .pow2 16 32768)]⟩,  -- MTX_SIZE
  ⟨0xcc, 1, 0, 1, 0, 0xffff, 0, 0, 0, 0, 0, 0, 0, []⟩,  -- MTX_TAIL
  ⟨0xd0, 1, 0, 1, 0, 0, 0, 0xffff, 0, 0, 0, 0, 0, []⟩,  -- MTX_HEAD
  ⟨0xe0, 1, 0, 1, 0, 0xffffffff, 0, 0, 0, 0, 0, 0, 0, [(0, 32, .multOf 32)]⟩,  -- MRX_BASE_LO
  ⟨0xe4, 1, 0, 1, 0, 0xff, 0, 0, 0, 0, 0, 0, 0, []⟩,  -- MRX_BASE_HI
  ⟨0xe8, 1, 0, 1, 0, 0xffff, 0, 0, 0, 0, 0, 0, 0, [(0, 16, .pow2 16 32768)]⟩,  -- MRX_SIZE
  ⟨0xec, 1, 0, 1, 0, 0xffff, 0, 0, 0, 0, 0, 0, 0, []⟩,  -- MRX_TAIL
  ⟨0xf0, 1, 0, 1, 0, 0, 0, 0xffff, 0, 0, 0, 0, 0, []⟩,  -- MRX_HEAD
  ⟨0xf4, 1, 0, 1, 0, 0xffff, 0, 0, 0, 0, 0, 0, 0x100, []⟩,  -- MRX_WMARK
  ⟨0x100, 16, 64, 1, 0, 0xffffff1f, 0, 0, 0, 0, 0, 0, 0xb8064000, [(8, 8, .span 1 255)]⟩,  -- SESS_CFG
  ⟨0x104, 16, 64, 1, 0, 0, 0, 0xf, 0, 0, 0, 0, 0xc, []⟩,  -- SESS_STAT
  ⟨0x108, 16, 64, 1, 0, 0xffffffff, 0, 0, 0, 0, 0, 0, 0, []⟩,  -- PEER_IP4
  ⟨0x10c, 16, 64, 4, 4, 0xffffffff, 0, 0, 0, 0, 0, 0, 0, []⟩,  -- PEER_IP6
  ⟨0x11c, 16, 64, 1, 0, 0xffffffff, 0, 0, 0, 0, 0, 0, 0, []⟩,  -- PEER_MAC_LO
  ⟨0x120, 16, 64, 1, 0, 0xffff, 0, 0, 0, 0, 0, 0, 0, []⟩,  -- PEER_MAC_HI
  ⟨0x124, 16, 64, 1, 0, 0xffffffff, 0, 0, 0, 0, 0, 0, 0, [(0, 32, .multOf 4096)]⟩,  -- WIN_BASE_LO
  ⟨0x128, 16, 64, 1, 0, 0xff, 0, 0, 0, 0, 0, 0, 0, []⟩,  -- WIN_BASE_HI
  ⟨0x12c, 16, 64, 1, 0, 0xffffff, 0, 0, 0, 0, 0, 0, 0, []⟩,  -- WIN_SIZE
  ⟨0x130, 16, 64, 1, 0, 0, 0, 0xffffffff, 0, 0, 0, 0, 0, []⟩]  -- RX_CUM
/-- Registers of JTP (page 0x0D), chapter 06. -/
def regsJTP2 : List RegDesc := [
  ⟨0x134, 16, 64, 1, 0, 0, 0, 0xffffffff, 0, 0, 0, 0, 0, []⟩,  -- TX_NEXT
  ⟨0x138, 16, 64, 1, 0, 0, 0, 0xffffffff, 0, 0, 0, 0, 0, []⟩]  -- JOB
def regsJTP : List RegDesc := regsJTP0 ++ regsJTP1 ++ regsJTP2

/-- Registers of STORE (page 0x0E), chapter 08. -/
def regsSTORE0 : List RegDesc := [
  ⟨0x40, 1, 0, 1, 0, 0xff, 0, 0, 0, 0, 0, 0, 0, []⟩,  -- STORE_SIDX
  ⟨0x44, 1, 0, 1, 0, 0xfffffff, 0, 0, 0, 0, 0, 0, 0, []⟩,  -- STORE_SDATA0
  ⟨0x48, 1, 0, 1, 0, 0x7ffffff, 0, 0x18000000, 0, 0, 0, 0, 0, [(0, 20, .span 1 1048575)]⟩,  -- STORE_SDATA1
  ⟨0x4c, 1, 0, 1, 0, 0, 0, 0xffffffff, 0, 0, 0, 0, 0, []⟩,  -- STORE_SDATA2
  ⟨0x50, 1, 0, 1, 0, 0, 0, 0xffffffff, 0, 0, 0, 0, 0, []⟩,  -- STORE_SDATA3
  ⟨0x54, 1, 0, 1, 0, 0, 0, 0, 0, 0xffffff03, 0, 0, 0, []⟩,  -- STORE_CTL
  ⟨0x58, 1, 0, 1, 0, 0xffffffff, 0, 0, 0, 0, 0, 0, 0, [(0, 32, .multOf 4096)]⟩,  -- STORE_COR_BASE_LO
  ⟨0x5c, 1, 0, 1, 0, 0xff, 0, 0, 0, 0, 0, 0, 0, []⟩,  -- STORE_COR_BASE_HI
  ⟨0x60, 1, 0, 1, 0, 0, 0, 0xffff, 0, 0, 0, 0, 0, []⟩,  -- STORE_COR_FILL
  ⟨0x64, 1, 0, 1, 0, 0xffff, 0, 0, 0, 0, 0, 0, 0x64, []⟩,  -- STORE_SEAM_TOL
  ⟨0x68, 1, 0, 1, 0, 0, 0, 0xffffffff, 0, 0, 0, 0, 0, []⟩,  -- STORE_SFAIL
  ⟨0x80, 8, 16, 1, 0, 0xffffff, 0, 0, 0, 0, 0, 0, 0x400, []⟩,  -- STORE_SEAM_CFG
  ⟨0x84, 8, 16, 1, 0, 0, 0, 0xffff07ff, 0, 0, 0, 0, 0, []⟩,  -- STORE_SEAM_STAT
  ⟨0x88, 8, 16, 1, 0, 0, 0, 0xffffffff, 0, 0, 0, 0, 0, []⟩,  -- STORE_SEAM_M_LO
  ⟨0x8c, 8, 16, 1, 0, 0, 0, 0xffff, 0, 0, 0, 0, 0, []⟩,  -- STORE_SEAM_M_HI
  ⟨0x100, 8, 4, 1, 0, 0, 0, 0xf1f, 0, 0, 0, 0, 0, []⟩]  -- STORE_MISS
def regsSTORE : List RegDesc := regsSTORE0

/-- Registers of COMPOSE (page 0x0F), chapter 08. -/
def regsCOMPOSE0 : List RegDesc := [
  ⟨0x40, 8, 8, 1, 0, 0, 0, 0, 0, 0, 0x1ff, 0, 0, []⟩,  -- LAYER_BG
  ⟨0x44, 8, 8, 1, 0, 0, 0, 0, 0, 0, 0xfffff, 0, 0, [(0, 20, .span 1 1048575)]⟩,  -- LAYER_BG_LINES
  ⟨0x80, 8, 4, 1, 0, 0, 0, 0, 0, 0, 0xffff, 0, 0, []⟩]  -- LAYER_OV
def regsCOMPOSE : List RegDesc := regsCOMPOSE0

/-- Registers of CODEC (page 0x10), chapter 07. -/
def regsCODEC0 : List RegDesc := [
  ⟨0x40, 1, 0, 1, 0, 0, 0, 0x7ffff, 0, 0, 0, 0, 0, []⟩,  -- CODEC_ERR
  ⟨0x44, 1, 0, 1, 0, 0, 0, 0xffffffff, 0, 0, 0, 0, 0, []⟩,  -- CODEC_ERR_LINE_LO
  ⟨0x48, 1, 0, 1, 0, 0, 0, 0xffff, 0, 0, 0, 0, 0, []⟩,  -- CODEC_ERR_LINE_HI
  ⟨0x4c, 1, 0, 1, 0, 0, 0, 0xffff, 0, 0, 0, 0xffff, 0, []⟩,  -- CODEC_ERR_CNT
  ⟨0x80, 1, 0, 1, 0, 0xff0f, 0, 0, 0, 0, 0, 0, 0x4c00, []⟩,  -- CMP_CFG
  ⟨0x84, 1, 0, 1, 0, 0xffffffff, 0, 0, 0, 0, 0, 0, 0, []⟩,  -- CMP_SRC_LO
  ⟨0x88, 1, 0, 1, 0, 0xff, 0, 0, 0, 0, 0, 0, 0, []⟩,  -- CMP_SRC_HI
  ⟨0x8c, 1, 0, 1, 0, 0xffffff, 0, 0, 0, 0, 0, 0, 0, []⟩,  -- CMP_STRIDE
  ⟨0x90, 1, 0, 1, 0, 0x3ffff, 0, 0, 0, 0, 0, 0, 0, [(0, 18, .span 1 131072)]⟩,  -- CMP_WIDTH
  ⟨0x94, 1, 0, 1, 0, 0xffffffff, 0, 0, 0, 0, 0, 0, 0, []⟩,  -- CMP_LINES
  ⟨0x98, 1, 0, 1, 0, 0, 0, 0, 0, 0x7, 0, 0, 0, []⟩,  -- CMP_CMD
  ⟨0x9c, 1, 0, 1, 0, 0, 0, 0xffff001b, 0x4, 0, 0, 0, 0, []⟩,  -- CMP_STAT
  ⟨0xa0, 1, 0, 1, 0, 0, 0, 0xffffffff, 0, 0, 0, 0, 0, []⟩,  -- CMP_VALID_LO
  ⟨0xa4, 1, 0, 1, 0, 0, 0, 0xffffffff, 0, 0, 0, 0, 0, []⟩,  -- CMP_VALID_HI
  ⟨0xa8, 1, 0, 1, 0, 0, 0, 0xffffffff, 0, 0, 0, 0, 0, []⟩,  -- CMP_LINES_DONE
  ⟨0xac, 1, 0, 1, 0, 0, 0, 0xffffffff, 0, 0, 0, 0xffffffff, 0, []⟩,  -- CMP_RAWFALL
  ⟨0xc0, 1, 0, 1, 0, 0xffffffff, 0, 0, 0, 0, 0, 0, 0, [(0, 32, .multOf 32)]⟩,  -- CMP_DESC_BASE_LO
  ⟨0xc4, 1, 0, 1, 0, 0xff, 0, 0, 0, 0, 0, 0, 0, []⟩,  -- CMP_DESC_BASE_HI
  ⟨0xc8, 1, 0, 1, 0, 0xffff, 0, 0, 0, 0, 0, 0, 0, [(0, 16, .pow2 16 32768)]⟩,  -- CMP_DESC_SIZE
  ⟨0xcc, 1, 0, 1, 0, 0xffff, 0, 0, 0, 0, 0, 0, 0, []⟩]  -- CMP_DESC_TAIL
/-- Registers of CODEC (page 0x10), chapter 07. -/
def regsCODEC1 : List RegDesc := [
  ⟨0xd0, 1, 0, 1, 0, 0, 0, 0xffff, 0, 0, 0, 0, 0, []⟩]  -- CMP_DESC_HEAD
def regsCODEC : List RegDesc := regsCODEC0 ++ regsCODEC1

/-- Registers of SCREEN (page 0x11), chapter 09. -/
def regsSCREEN0 : List RegDesc := [
  ⟨0x40, 8, 8, 1, 0, 0, 0, 0, 0, 0, 0xfffff, 0, 0, []⟩,  -- SCR_TILE_A
  ⟨0x44, 8, 8, 1, 0, 0, 0, 0, 0, 0, 0xffffffff, 0, 0, []⟩,  -- SCR_TILE_B
  ⟨0x80, 1, 0, 1, 0, 0, 0, 0, 0, 0, 0xf7, 0, 0, []⟩,  -- SCR_PASS
  ⟨0x84, 1, 0, 1, 0, 0, 0, 0x7, 0, 0, 0, 0, 0, []⟩,  -- SCR_PASS_STAT
  ⟨0xc0, 1, 0, 1, 0, 0xfffff, 0, 0, 0, 0, 0, 0, 0, []⟩,  -- SCR_TADDR
  ⟨0xc4, 1, 0, 1, 0, 0xffffffff, 0, 0, 0, 0, 0, 0, 0xfff0fff, []⟩]  -- SCR_TDATA
def regsSCREEN : List RegDesc := regsSCREEN0

/-- Registers of NOZZLE (page 0x12), chapter 09. -/
def regsNOZZLE0 : List RegDesc := [
  ⟨0x40, 1, 0, 1, 0, 0x8001ffff, 0, 0, 0, 0, 0, 0, 0, []⟩,  -- NOZ_IDX
  ⟨0x44, 1, 0, 1, 0, 0xffffffff, 0, 0, 0, 0, 0, 0, 0, []⟩,  -- NOZ_SH_LO
  ⟨0x48, 1, 0, 1, 0, 0xffffffff, 0, 0, 0, 0, 0, 0, 0, []⟩,  -- NOZ_SH_HI
  ⟨0x4c, 1, 0, 1, 0, 0, 0, 0xffffffff, 0, 0, 0, 0, 0, []⟩,  -- NOZ_LIVE_LO
  ⟨0x50, 1, 0, 1, 0, 0, 0, 0xffffffff, 0, 0, 0, 0, 0, []⟩,  -- NOZ_LIVE_HI
  ⟨0x54, 1, 0, 1, 0, 0xffffffff, 0, 0, 0, 0, 0, 0, 0, []⟩,  -- NOZ_WEAR_LO
  ⟨0x58, 1, 0, 1, 0, 0xffff, 0, 0, 0, 0, 0, 0, 0, []⟩,  -- NOZ_WEAR_HI
  ⟨0x5c, 1, 0, 1, 0, 0, 0, 0xffffffff, 0, 0, 0, 0xffffffff, 0, []⟩,  -- NOZ_CNT_LOST
  ⟨0x100, 1, 0, 1, 0, 0xffffffff, 0, 0, 0, 0, 0, 0, 0, [(0, 32, .multOf 4096)]⟩,  -- PLOG_BASE_LO
  ⟨0x104, 1, 0, 1, 0, 0xff, 0, 0, 0, 0, 0, 0, 0, []⟩,  -- PLOG_BASE_HI
  ⟨0x108, 1, 0, 1, 0, 0x1fffff, 0, 0, 0, 0, 0, 0, 0, [(0, 21, .pow2 64 1048576)]⟩,  -- PLOG_SIZE
  ⟨0x10c, 1, 0, 1, 0, 0, 0, 0xfffff, 0, 0, 0, 0, 0, []⟩,  -- PLOG_HEAD
  ⟨0x110, 1, 0, 1, 0, 0xfffff, 0, 0, 0, 0, 0, 0, 0, []⟩,  -- PLOG_SENT
  ⟨0x114, 1, 0, 1, 0, 0x3, 0, 0, 0, 0, 0, 0, 0, []⟩,  -- PLOG_CFG
  ⟨0x118, 1, 0, 1, 0, 0, 0, 0xffff0001, 0, 0, 0, 0xffff0000, 0, []⟩,  -- PLOG_STAT
  ⟨0x11c, 1, 0, 1, 0, 0, 0, 0xffffffff, 0, 0, 0, 0, 0, []⟩]  -- PLOG_SEQ
def regsNOZZLE : List RegDesc := regsNOZZLE0

/-- Registers of FIRE (page 0x13), chapter 10. -/
def regsFIRE0 : List RegDesc := [
  ⟨0x40, 1, 0, 1, 0, 0xffff0f, 0, 0, 0, 0, 0, 0, 0x3e800, [(8, 16, .span 1 65535)]⟩,  -- FIRE_CFG
  ⟨0x44, 1, 0, 1, 0, 0xffffffff, 0, 0, 0, 0, 0, 0, 0, []⟩,  -- FIRE_REJ_DIST_LO
  ⟨0x48, 1, 0, 1, 0, 0xffff, 0, 0, 0, 0, 0, 0, 0, []⟩,  -- FIRE_REJ_DIST_HI
  ⟨0x4c, 1, 0, 1, 0, 0, 0, 0, 0, 0xffffffff, 0, 0, 0, []⟩,  -- FIRE_REJ_REQ
  ⟨0x50, 1, 0, 1, 0, 0, 0, 0xff, 0x100, 0, 0, 0, 0, []⟩,  -- FIRE_STAT
  ⟨0x54, 1, 0, 1, 0, 0, 0, 0, 0, 0x1, 0, 0, 0, []⟩]  -- FIRE_CTL
def regsFIRE : List RegDesc := regsFIRE0

/-- Registers of WAVE (page 0x14), chapter 10. -/
def regsWAVE0 : List RegDesc := [
  ⟨0x40, 1, 0, 1, 0, 0x81ff003f, 0, 0, 0, 0, 0, 0, 0, []⟩,  -- WAVE_TSEL
  ⟨0x44, 1, 0, 1, 0, 0xffffffff, 0, 0, 0, 0, 0, 0, 0, []⟩,  -- WAVE_TDATA
  ⟨0x48, 1, 0, 1, 0, 0, 0, 0xff3fff, 0, 0, 0, 0, 0, []⟩,  -- WAVE_CHK
  ⟨0x4c, 1, 0, 1, 0, 0, 0, 0xffffffff, 0, 0, 0, 0, 0, []⟩]  -- WAVE_WSET
def regsWAVE : List RegDesc := regsWAVE0

/-- Registers of HP (page 0x20), chapter 10. -/
def regsHP0 : List RegDesc := [
  ⟨0x40, 1, 0, 1, 0, 0, 0, 0, 0, 0, 0xfffff, 0, 0x5f096, []⟩,  -- HP_FIRE
  ⟨0x44, 1, 0, 1, 0, 0, 0, 0, 0, 0, 0xfffff, 0, 0, []⟩,  -- HP_OFS_FWD
  ⟨0x48, 1, 0, 1, 0, 0, 0, 0, 0, 0, 0xfffff, 0, 0, []⟩,  -- HP_OFS_REV
  ⟨0x4c, 1, 0, 1, 0, 0, 0, 0, 0, 0, 0xfff, 0, 0, []⟩,  -- HP_EXT_DUR
  ⟨0x50, 1, 0, 1, 0, 0xfff0fff, 0, 0, 0, 0, 0, 0, 0x3c00370, []⟩,  -- HP_TEMP_A
  ⟨0x54, 1, 0, 1, 0, 0xffff0fff, 0, 0, 0, 0, 0, 0, 0x43200460, [(28, 4, .span 1 15)]⟩,  -- HP_TEMP_B
  ⟨0x58, 1, 0, 1, 0, 0, 0, 0, 0, 0x3, 0, 0, 0, []⟩,  -- HP_CTL
  ⟨0x5c, 1, 0, 1, 0, 0, 0, 0x7ffff, 0, 0, 0, 0, 0x8000, []⟩,  -- HP_STAT
  ⟨0x60, 1, 0, 1, 0, 0, 0, 0xffffffff, 0, 0, 0, 0xffffffff, 0, []⟩,  -- HP_CNT
  ⟨0x64, 1, 0, 1, 0, 0, 0, 0xfffff, 0, 0, 0, 0, 0, []⟩,  -- HP_TRIM
  ⟨0x68, 1, 0, 1, 0, 0, 0, 0x1fff1fff, 0, 0, 0, 0, 0x10001000, []⟩,  -- HP_AG
  ⟨0x6c, 1, 0, 1, 0, 0xff, 0, 0, 0, 0, 0, 0, 0, []⟩,  -- HP_TAP_SEL
  ⟨0x70, 1, 0, 1, 0, 0, 0, 0xffff, 0, 0, 0, 0, 0, []⟩,  -- HP_TAP_VAL
  ⟨0x80, 1, 0, 1, 0, 0xf03, 0, 0, 0, 0x4, 0, 0, 0x402, [(8, 4, .span 1 15)]⟩,  -- HPL_CFG
  ⟨0x84, 1, 0, 1, 0, 0, 0, 0xffffff, 0, 0, 0, 0, 0, []⟩,  -- HPL_STAT
  ⟨0x88, 2, 4, 1, 0, 0, 0, 0x3f3f3f, 0, 0, 0, 0, 0xc2f04, []⟩,  -- HPL_TAPS
  ⟨0x90, 1, 0, 1, 0, 0, 0, 0xffffffff, 0, 0, 0, 0, 0, []⟩,  -- HPL_EYE
  ⟨0x94, 1, 0, 1, 0, 0, 0, 0xffffffff, 0, 0, 0, 0xffffffff, 0, []⟩,  -- HPL_CNT
  ⟨0x98, 1, 0, 1, 0, 0x7fff, 0, 0x10000, 0, 0x8000, 0, 0, 0x80, [(0, 8, .span 128 255), (8, 7, .span 0 112)]⟩,  -- HPL_MBX_CTL
  ⟨0xa0, 28, 4, 1, 0, 0xffffffff, 0, 0, 0, 0, 0, 0, 0, []⟩]  -- HPL_MBX_DATA
def regsHP : List RegDesc := regsHP0

/-- Registers of LANES (page 0x40), chapter 11. -/
def regsLANES0 : List RegDesc := [
  ⟨0x40, 1, 0, 1, 0, 0xffff, 0, 0, 0, 0, 0, 0, 0x64, [(0, 7, .span 50 125)]⟩,  -- LANES_CFG
  ⟨0x44, 1, 0, 1, 0, 0xffff, 0, 0xffff0000, 0, 0, 0, 0xffff0000, 0x64, []⟩,  -- LANES_TRAIN
  ⟨0x48, 1, 0, 1, 0, 0x3f3f3f, 0, 0, 0, 0, 0, 0, 0xc2f04, []⟩,  -- LANES_PRESET
  ⟨0x60, 1, 0, 1, 0, 0xffffffff, 0, 0, 0, 0, 0, 0, 0, [(0, 32, .multOf 32)]⟩,  -- BCR_BASE_LO
  ⟨0x64, 1, 0, 1, 0, 0xff, 0, 0, 0, 0, 0, 0, 0, []⟩,  -- BCR_BASE_HI
  ⟨0x68, 1, 0, 1, 0, 0xffff, 0, 0, 0, 0, 0, 0, 0, [(0, 16, .pow2 16 32768)]⟩,  -- BCR_SIZE
  ⟨0x6c, 1, 0, 1, 0, 0xffff, 0, 0, 0, 0, 0, 0, 0, []⟩,  -- BCR_TAIL
  ⟨0x70, 1, 0, 1, 0, 0, 0, 0xffff, 0, 0, 0, 0, 0, []⟩,  -- BCR_HEAD
  ⟨0x74, 1, 0, 1, 0, 0, 0, 0xffffffff, 0, 0, 0, 0xffffffff, 0, []⟩]  -- BCR_DROPS
def regsLANES : List RegDesc := regsLANES0

/-- Registers of CAM (page 0x41), chapter 12. -/
def regsCAM0 : List RegDesc := [
  ⟨0x40, 1, 0, 1, 0, 0xfff00ff, 0, 0, 0, 0, 0, 0, 0, []⟩,  -- CAM_CFG
  ⟨0x44, 1, 0, 1, 0, 0xffffffff, 0, 0, 0, 0, 0, 0, 0, []⟩,  -- CAM_CPITCH
  ⟨0x48, 1, 0, 1, 0, 0xffffffff, 0, 0, 0, 0, 0, 0, 0, []⟩,  -- CAM_DIST_LO
  ⟨0x4c, 1, 0, 1, 0, 0xffff, 0, 0, 0, 0, 0, 0, 0, []⟩,  -- CAM_DIST_HI
  ⟨0x50, 1, 0, 1, 0, 0xffffffff, 0, 0, 0, 0, 0, 0, 0xa0a0064, [(16, 8, .span 1 255)]⟩,  -- CAM_TMO
  ⟨0x54, 1, 0, 1, 0, 0xffff, 0, 0, 0, 0, 0, 0, 0, []⟩,  -- CAM_UMLINE
  ⟨0x58, 1, 0, 1, 0, 0, 0, 0x7, 0x8, 0, 0, 0, 0, []⟩,  -- CAM_STAT
  ⟨0x5c, 1, 0, 1, 0, 0, 0, 0xffffffff, 0, 0, 0, 0xffffffff, 0, []⟩,  -- CNT_SHORT
  ⟨0x60, 1, 0, 1, 0, 0, 0, 0xffffffff, 0, 0, 0, 0xffffffff, 0, []⟩,  -- CNT_LONG
  ⟨0x64, 1, 0, 1, 0, 0, 0, 0xffffffff, 0, 0, 0, 0xffffffff, 0, []⟩,  -- CNT_MISSING
  ⟨0x68, 1, 0, 1, 0, 0, 0, 0xffffffff, 0, 0, 0, 0xffffffff, 0, []⟩,  -- CNT_EXCESS
  ⟨0x6c, 1, 0, 1, 0, 0, 0, 0xffffffff, 0, 0, 0, 0xffffffff, 0, []⟩,  -- CNT_DROP
  ⟨0x70, 1, 0, 1, 0, 0, 0, 0xffffffff, 0, 0, 0, 0xffffffff, 0, []⟩,  -- CNT_TRIG_LATE
  ⟨0x78, 1, 0, 1, 0, 0xffffffff, 0, 0, 0, 0, 0, 0, 0, []⟩,  -- CAM_CC_ADDR
  ⟨0x7c, 1, 0, 1, 0, 0xffffffff, 0, 0, 0, 0, 0, 0, 0, []⟩,  -- CAM_CC_DATA
  ⟨0x80, 1, 0, 1, 0, 0x2, 0, 0x1c, 0, 0x1, 0, 0, 0, []⟩]  -- CAM_CC_CTL
def regsCAM : List RegDesc := regsCAM0

/-- Registers of INSPECT (page 0x43), chapter 12. -/
def regsINSPECT0 : List RegDesc := [
  ⟨0x40, 1, 0, 1, 0, 0x8003ffff, 0, 0, 0, 0, 0, 0, 0, []⟩,  -- INS_SHD_SEL
  ⟨0x44, 1, 0, 1, 0, 0, 0, 0, 0, 0, 0xffff, 0, 0, []⟩,  -- INS_SHD_DATA
  ⟨0x48, 1, 0, 1, 0, 0x800000ff, 0, 0, 0, 0, 0, 0, 0, []⟩,  -- INS_MAP_SEL
  ⟨0x4c, 1, 0, 1, 0, 0, 0, 0, 0, 0, 0x7fffffff, 0, 0, []⟩,  -- INS_MAP_A
  ⟨0x50, 1, 0, 1, 0, 0, 0, 0, 0, 0, 0x1f, 0, 0, []⟩,  -- INS_MAP_B
  ⟨0x54, 1, 0, 1, 0, 0, 0, 0x1, 0, 0, 0, 0, 0, []⟩,  -- INS_STAT
  ⟨0x58, 1, 0, 1, 0, 0, 0, 0, 0, 0, 0xffff001f, 0, 0, []⟩,  -- INS_TAP_CFG
  ⟨0x5c, 1, 0, 1, 0, 0xffffffff, 0, 0, 0, 0, 0, 0, 0, [(0, 32, .multOf 4096)]⟩,  -- INS_TAP_BASE_LO
  ⟨0x60, 1, 0, 1, 0, 0xff, 0, 0, 0, 0, 0, 0, 0, []⟩,  -- INS_TAP_BASE_HI
  ⟨0x64, 1, 0, 1, 0, 0xffffff, 0, 0, 0, 0, 0, 0, 0, []⟩,  -- INS_TAP_SIZE
  ⟨0x68, 1, 0, 1, 0, 0xffffff, 0, 0, 0, 0, 0, 0, 0, []⟩,  -- INS_TAP_READ
  ⟨0x6c, 1, 0, 1, 0, 0, 0, 0xffffffff, 0, 0, 0, 0xffffffff, 0, []⟩,  -- INS_TAP_DROPS
  ⟨0x80, 2, 48, 9, 4, 0, 0, 0, 0, 0, 0xffff, 0, 0, []⟩,  -- INS_CCM
  ⟨0xa4, 2, 48, 3, 4, 0, 0, 0, 0, 0, 0x1fff, 0, 0, []⟩,  -- INS_COFS
  ⟨0x100, 8, 64, 1, 0, 0, 0, 0, 0, 0, 0x1fff, 0, 0, []⟩,  -- VIEW_CFG
  ⟨0x104, 8, 64, 1, 0, 0, 0, 0, 0, 0, 0x3ffff, 0, 0, []⟩,  -- VIEW_X0
  ⟨0x108, 8, 64, 1, 0, 0, 0, 0, 0, 0, 0x3ffff, 0, 0, []⟩,  -- VIEW_X1
  ⟨0x10c, 8, 64, 1, 0, 0, 0, 0, 0, 0, 0xffffffff, 0, 0x1000000, []⟩,  -- VIEW_GEOM
  ⟨0x110, 8, 64, 1, 0, 0, 0, 0, 0, 0, 0xffffffff, 0, 0, []⟩,  -- VIEW_LPP
  ⟨0x114, 8, 64, 1, 0, 0, 0, 0, 0, 0, 0xffffffff, 0, 0x5000000, []⟩]  -- VIEW_Y
/-- Registers of INSPECT (page 0x43), chapter 12. -/
def regsINSPECT1 : List RegDesc := [
  ⟨0x118, 8, 64, 1, 0, 0, 0, 0, 0, 0, 0xff03ffff, 0, 0x10000000, []⟩,  -- VIEW_EL
  ⟨0x11c, 8, 64, 1, 0, 0, 0, 0, 0, 0, 0x3ffff, 0, 0, []⟩,  -- VIEW_ER
  ⟨0x120, 8, 64, 1, 0, 0, 0, 0, 0, 0, 0x1f0fff, 0, 0x50100, [(16, 5, .span 1 31)]⟩,  -- VIEW_JUDGE
  ⟨0x124, 8, 64, 1, 0, 0, 0, 0, 0, 0, 0x3ffff, 0, 0, []⟩]  -- VIEW_HBASE
def regsINSPECT : List RegDesc := regsINSPECT0 ++ regsINSPECT1

/-- Registers of STATS (page 0x44), chapter 12. -/
def regsSTATS0 : List RegDesc := [
  ⟨0x40, 1, 0, 1, 0, 0, 0, 0, 0, 0, 0x3ff, 0, 0x3ff, []⟩,  -- STS_CFG
  ⟨0x80, 2, 32, 1, 0, 0xffffffff, 0, 0, 0, 0, 0, 0, 0, [(0, 32, .multOf 4096)]⟩,  -- STS_BASE_LO
  ⟨0x84, 2, 32, 1, 0, 0xff, 0, 0, 0, 0, 0, 0, 0, []⟩,  -- STS_BASE_HI
  ⟨0x88, 2, 32, 1, 0, 0xffff, 0, 0, 0, 0, 0, 0, 0, []⟩,  -- STS_SLOT
  ⟨0x8c, 2, 32, 1, 0, 0xffff, 0, 0, 0, 0, 0, 0, 0, [(0, 16, .span 2 65535)]⟩,  -- STS_COUNT
  ⟨0x90, 2, 32, 1, 0, 0, 0, 0xffff, 0, 0, 0, 0, 0, []⟩,  -- STS_HEAD
  ⟨0x94, 2, 32, 1, 0, 0xffff, 0, 0, 0, 0, 0, 0, 0, []⟩,  -- STS_READ
  ⟨0x98, 2, 32, 1, 0, 0, 0, 0xffffffff, 0, 0, 0, 0xffffffff, 0, []⟩]  -- STS_DROPS
def regsSTATS : List RegDesc := regsSTATS0

/-- Registers of VERDICT (page 0x45), chapter 12. -/
def regsVERDICT0 : List RegDesc := [
  ⟨0x40, 1, 0, 1, 0, 0, 0, 0, 0, 0, 0x7fffffff, 0, 0x4318b340, [(24, 4, .span 1 15)]⟩,  -- VRD_CFG
  ⟨0x44, 1, 0, 1, 0, 0x1, 0, 0, 0, 0xff00, 0, 0, 0, []⟩,  -- VRD_CTL
  ⟨0x48, 1, 0, 1, 0, 0xffffffff, 0, 0, 0, 0, 0, 0, 0, []⟩,  -- VRD_EPOCH_MIN
  ⟨0x4c, 1, 0, 1, 0, 0xffffffff, 0, 0, 0, 0, 0, 0, 0, [(0, 32, .multOf 4096)]⟩,  -- VRD_BASE_LO
  ⟨0x50, 1, 0, 1, 0, 0xff, 0, 0, 0, 0, 0, 0, 0, []⟩,  -- VRD_BASE_HI
  ⟨0x54, 1, 0, 1, 0, 0x1fffff, 0, 0, 0, 0, 0, 0, 0, [(0, 21, .pow2 64 1048576)]⟩,  -- VRD_SIZE
  ⟨0x58, 1, 0, 1, 0, 0, 0, 0xfffff, 0, 0, 0, 0, 0, []⟩,  -- VRD_HEAD
  ⟨0x5c, 1, 0, 1, 0, 0xfffff, 0, 0, 0, 0, 0, 0, 0, []⟩,  -- VRD_SENT
  ⟨0x60, 1, 0, 1, 0, 0x1, 0, 0, 0, 0, 0, 0, 0, []⟩,  -- VRD_RING_CFG
  ⟨0x64, 1, 0, 1, 0, 0, 0, 0xffffffff, 0, 0, 0, 0xffffffff, 0, []⟩,  -- VRD_CNT_APPLIED
  ⟨0x68, 1, 0, 1, 0, 0, 0, 0xffffffff, 0, 0, 0, 0xffffffff, 0, []⟩,  -- VRD_CNT_STALE
  ⟨0x6c, 1, 0, 1, 0, 0, 0, 0xffffffff, 0, 0, 0, 0xffffffff, 0, []⟩,  -- VRD_CNT_UNMAPPED
  ⟨0x70, 1, 0, 1, 0, 0, 0, 0xffffffff, 0, 0, 0, 0xffffffff, 0, []⟩,  -- VRD_CNT_OVERLAP
  ⟨0x74, 1, 0, 1, 0, 0, 0, 0xffffffff, 0, 0, 0, 0xffffffff, 0, []⟩,  -- VRD_CNT_RINGDROP
  ⟨0x78, 1, 0, 1, 0, 0, 0, 0xffffffff, 0, 0, 0, 0xffffffff, 0, []⟩]  -- VRD_CNT_FORMED
def regsVERDICT : List RegDesc := regsVERDICT0

/-- Registers of LIGHT (page 0x46), chapter 12. -/
def regsLIGHT0 : List RegDesc := [
  ⟨0x40, 4, 4, 1, 0, 0xfff07, 0, 0, 0, 0, 0, 0, 0, []⟩,  -- LGT_STRB
  ⟨0x60, 2, 4, 1, 0, 0, 0, 0, 0, 0, 0xffff, 0, 0, []⟩,  -- EXP_WIDTH
  ⟨0x80, 2, 32, 4, 8, 0, 0, 0, 0, 0, 0xffffffff, 0, 0, []⟩,  -- EXP_CAMREG_A
  ⟨0x84, 2, 32, 4, 8, 0, 0, 0, 0, 0, 0xffffffff, 0, 0, []⟩,  -- EXP_CAMREG_V
  ⟨0xc0, 2, 4, 1, 0, 0, 0, 0xffffffff, 0, 0, 0, 0, 0, []⟩,  -- EXP_GEN
  ⟨0xc8, 2, 4, 1, 0, 0, 0, 0x1, 0x2, 0, 0, 0, 0, []⟩]  -- EXP_STAT
def regsLIGHT : List RegDesc := regsLIGHT0

/-- Registers of LOOP (page 0x48), chapter 13. -/
def regsLOOP0 : List RegDesc := [
  ⟨0x40, 32, 4, 1, 0, 0, 0, 0, 0, 0, 0xff1f, 0, 0, []⟩,  -- LOOP_FREE
  ⟨0x100, 32, 16, 1, 0, 0, 0, 0, 0, 0, 0x3fffff, 0, 0, [(12, 5, .span 0 23)]⟩,  -- LOOP_CFG
  ⟨0x104, 32, 16, 1, 0, 0, 0, 0, 0, 0, 0x3ffff, 0, 0, []⟩,  -- LOOP_SP
  ⟨0x108, 32, 16, 1, 0, 0, 0, 0, 0, 0, 0x3ffff, 0, 0, []⟩,  -- LOOP_SPK
  ⟨0x10c, 32, 16, 1, 0, 0, 0, 0, 0, 0, 0x3ffff, 0, 0, []⟩,  -- LOOP_SAFE
  ⟨0x300, 32, 4, 1, 0, 0, 0, 0x3f, 0x1c0, 0, 0, 0, 0, []⟩,  -- LOOP_STAT
  ⟨0x380, 32, 4, 1, 0, 0, 0, 0x3ffff, 0, 0, 0, 0, 0, []⟩,  -- LOOP_OUT
  ⟨0x400, 1, 0, 1, 0, 0x80001fff, 0, 0, 0, 0, 0, 0, 0, []⟩,  -- LOOP_CSEL
  ⟨0x404, 1, 0, 1, 0, 0, 0, 0, 0, 0, 0xffffffff, 0, 0, []⟩,  -- LOOP_CDATA
  ⟨0x408, 1, 0, 1, 0, 0, 0, 0, 0, 0xffffffff, 0, 0, 0, []⟩,  -- LOOP_CTL
  ⟨0x40c, 1, 0, 1, 0, 0, 0, 0x1fff, 0, 0, 0, 0, 0, []⟩,  -- LOOP_CHK
  ⟨0x410, 1, 0, 1, 0, 0xffff, 0, 0, 0, 0, 0, 0, 0x4444, [(0, 4, .span 0 12), (4, 4, .span 0 12), (8, 4, .span 0 12), (12, 4, .span 0 12)]⟩,  -- FIN_CFG
  ⟨0x420, 4, 4, 1, 0, 0, 0, 0xffffffff, 0, 0, 0, 0, 0, []⟩]  -- FIN_FREQ
def regsLOOP : List RegDesc := regsLOOP0

/-- Registers of ADC (page 0x49), chapter 13. -/
def regsADC0 : List RegDesc := [
  ⟨0x40, 1, 0, 1, 0, 0xffff, 0, 0, 0, 0, 0, 0, 0, []⟩,  -- ADC_EN
  ⟨0x80, 16, 4, 1, 0, 0x7, 0, 0, 0, 0, 0, 0, 0, []⟩,  -- ADC_CH
  ⟨0xc0, 16, 4, 1, 0, 0, 0, 0xffff1fff, 0, 0, 0, 0, 0, []⟩]  -- ADC_DATA
def regsADC : List RegDesc := regsADC0

/-- Registers of PWM (page 0x4A), chapter 13. -/
def regsPWM0 : List RegDesc := [
  ⟨0x40, 24, 4, 1, 0, 0x3, 0, 0, 0, 0, 0, 0, 0, []⟩,  -- PWM_CFG
  ⟨0xa0, 24, 4, 1, 0, 0xffffff, 0, 0, 0, 0, 0, 0, 0x2710, [(0, 24, .span 2 16777215)]⟩,  -- PWM_PERIOD
  ⟨0x100, 24, 4, 1, 0, 0xffffff, 0, 0, 0, 0, 0, 0, 0, []⟩]  -- PWM_DUTY
def regsPWM : List RegDesc := regsPWM0

/-- Registers of STEP (page 0x4B), chapter 13. -/
def regsSTEP0 : List RegDesc := [
  ⟨0x40, 1, 0, 1, 0, 0xffff, 0, 0, 0, 0, 0, 0, 0x2828, [(0, 8, .span 2 200)]⟩,  -- STEP_CFG
  ⟨0x100, 8, 64, 1, 0, 0x3f, 0, 0, 0, 0, 0, 0, 0, []⟩,  -- STP_CFG
  ⟨0x104, 8, 64, 1, 0, 0x7ffff, 0, 0, 0, 0, 0, 0, 0x3e8, [(0, 19, .span 1 500000)]⟩,  -- STP_VMAX
  ⟨0x108, 8, 64, 1, 0, 0x7ffff, 0, 0, 0, 0, 0, 0, 0x3e8, [(0, 19, .span 1 500000)]⟩,  -- STP_VSTART
  ⟨0x10c, 8, 64, 1, 0, 0xffffff, 0, 0, 0, 0, 0, 0, 0x2710, []⟩,  -- STP_AMAX
  ⟨0x110, 8, 64, 1, 0, 0xffffffff, 0, 0, 0, 0, 0, 0, 0xf4240, []⟩,  -- STP_JMAX
  ⟨0x114, 8, 64, 1, 0, 0x7ffff, 0, 0, 0, 0, 0, 0, 0x3e8, [(0, 19, .span 1 500000)]⟩,  -- STP_VSAFE
  ⟨0x118, 8, 64, 1, 0, 0xffffffff, 0, 0, 0, 0, 0, 0, 0, []⟩,  -- STP_TARGET
  ⟨0x11c, 8, 64, 1, 0, 0, 0, 0xffffffff, 0, 0, 0, 0, 0, []⟩,  -- STP_POS
  ⟨0x120, 8, 64, 1, 0, 0, 0, 0, 0, 0x3f, 0, 0, 0, []⟩,  -- STP_CMD
  ⟨0x124, 8, 64, 1, 0, 0, 0, 0x7f, 0, 0, 0, 0, 0x10, []⟩,  -- STP_STAT
  ⟨0x128, 8, 64, 1, 0, 0xffffffff, 0, 0, 0, 0, 0, 0, 0x32001f4, []⟩,  -- STP_HOME
  ⟨0x12c, 8, 64, 1, 0, 0xffffffff, 0, 0, 0, 0, 0, 0, 0, []⟩,  -- STP_HOME_OVR
  ⟨0x130, 8, 64, 1, 0, 0xffffffff, 0, 0, 0, 0, 0, 0, 0, []⟩,  -- STP_HOME_POS
  ⟨0x134, 8, 64, 1, 0, 0, 0, 0xffffffff, 0, 0, 0, 0, 0, []⟩,  -- STP_STEPS_LO
  ⟨0x138, 8, 64, 1, 0, 0, 0, 0xffff, 0, 0, 0, 0, 0, []⟩]  -- STP_STEPS_HI
def regsSTEP : List RegDesc := regsSTEP0

/-- Registers of GPIO (page 0x4C), chapter 13. -/
def regsGPIO0 : List RegDesc := [
  ⟨0x40, 1, 0, 1, 0, 0xffff, 0, 0, 0, 0, 0, 0, 0, []⟩,  -- GPIO_OUT
  ⟨0x44, 1, 0, 1, 0, 0, 0, 0, 0, 0xffff, 0, 0, 0, []⟩,  -- GPIO_SET
  ⟨0x48, 1, 0, 1, 0, 0, 0, 0, 0, 0xffff, 0, 0, 0, []⟩,  -- GPIO_CLR
  ⟨0x4c, 1, 0, 1, 0, 0, 0, 0xffff, 0, 0, 0, 0, 0, []⟩,  -- GPIO_IN
  ⟨0x80, 16, 4, 1, 0, 0xff07, 0, 0, 0, 0, 0, 0, 0, []⟩]  -- GPIO_CFG
def regsGPIO : List RegDesc := regsGPIO0

/-- Registers of DRAMC (page 0x50), chapter 14. -/
def regsDRAMC0 : List RegDesc := [
  ⟨0x40, 1, 0, 1, 0, 0xf, 0, 0, 0, 0, 0, 0, 0, []⟩,  -- DRAMC_CFG
  ⟨0x44, 1, 0, 1, 0, 0x7, 0, 0xfe0, 0, 0x10, 0, 0, 0, []⟩,  -- DRAMC_FCHG
  ⟨0x4c, 1, 0, 1, 0, 0x1ffff, 0, 0, 0, 0, 0, 0, 0x10064, []⟩,  -- DRAMC_PD
  ⟨0x50, 1, 0, 1, 0, 0xffffffff, 0, 0, 0, 0, 0, 0, 0x641000, [(0, 16, .span 256 65535)]⟩,  -- DRAMC_RH
  ⟨0x54, 1, 0, 1, 0, 0, 0, 0xffff7f3f, 0, 0, 0, 0xffff0000, 0, []⟩,  -- DRAMC_RH_STAT
  ⟨0x58, 1, 0, 1, 0, 0, 0, 0xffff0007, 0x8, 0, 0, 0, 0, []⟩,  -- DRAMC_STAT
  ⟨0x5c, 1, 0, 1, 0, 0xff01, 0, 0, 0, 0, 0, 0, 0x1801, []⟩,  -- DRAMC_SCRUB
  ⟨0x60, 1, 0, 1, 0, 0xffff, 0, 0, 0, 0, 0, 0, 0xc8, []⟩,  -- DRAMC_QOS
  ⟨0x80, 2, 64, 8, 4, 0xffffffff, 0, 0, 0, 0, 0, 0, 0, []⟩]  -- DRAMC_TSET
def regsDRAMC : List RegDesc := regsDRAMC0

/-- Registers of DPHY (page 0x51), chapter 14. -/
def regsDPHY0 : List RegDesc := [
  ⟨0x40, 1, 0, 1, 0, 0xff02, 0, 0, 0, 0x1, 0, 0, 0x102, [(8, 8, .span 1 255)]⟩,  -- DPHY_CTL
  ⟨0x44, 1, 0, 1, 0, 0, 0, 0x1ff, 0, 0, 0, 0, 0, []⟩,  -- DPHY_STAT
  ⟨0x48, 1, 0, 1, 0, 0x1f, 0, 0, 0, 0, 0, 0, 0, []⟩,  -- DPHY_LSEL
  ⟨0x4c, 1, 0, 1, 0, 0, 0, 0xffffffff, 0, 0, 0, 0, 0, []⟩]  -- DPHY_EYE
def regsDPHY : List RegDesc := regsDPHY0

/-- Registers of ECC (page 0x52), chapter 14. -/
def regsECC0 : List RegDesc := [
  ⟨0x40, 1, 0, 1, 0, 0, 0, 0xffffffff, 0, 0, 0, 0, 0, []⟩,  -- ECC_UE_LO
  ⟨0x44, 1, 0, 1, 0, 0, 0, 0x7ffff, 0x80000000, 0, 0, 0, 0, []⟩,  -- ECC_UE_HI
  ⟨0x48, 1, 0, 1, 0, 0, 0, 0xffff, 0, 0, 0, 0xffff, 0, []⟩,  -- ECC_UE_CNT
  ⟨0x80, 15, 4, 1, 0, 0xffffffff, 0, 0, 0, 0, 0, 0, 0x3e80010, [(0, 16, .span 1 65535), (16, 16, .span 1 65535)]⟩,  -- ECC_BKT_CFG
  ⟨0xc0, 15, 4, 1, 0, 0, 0, 0x1ffff, 0, 0, 0, 0, 0, []⟩,  -- ECC_BKT
  ⟨0x100, 15, 4, 1, 0, 0, 0, 0x1fffffff, 0, 0, 0, 0, 0, []⟩]  -- ECC_CE_ADDR
def regsECC : List RegDesc := regsECC0

/-- Registers of REMAP (page 0x53), chapter 14. -/
def regsREMAP0 : List RegDesc := [
  ⟨0x40, 1, 0, 1, 0, 0x3f000f, 0, 0, 0, 0, 0, 0, 0, []⟩,  -- REMAP_SEL
  ⟨0x44, 1, 0, 1, 0, 0x1fffffff, 0, 0xc0000000, 0, 0, 0, 0, 0, []⟩,  -- REMAP_ENT
  ⟨0x48, 1, 0, 1, 0, 0, 0, 0, 0, 0x3, 0, 0, 0, []⟩,  -- REMAP_CTL
  ⟨0x4c, 1, 0, 1, 0, 0x1, 0, 0, 0, 0, 0, 0, 0x1, []⟩,  -- REMAP_CFG
  ⟨0x50, 1, 0, 1, 0, 0, 0, 0x7fff, 0, 0, 0, 0, 0, []⟩]  -- REMAP_STAT
def regsREMAP : List RegDesc := regsREMAP0

/-- Registers of SHROUD (page 0x54), chapter 16. -/
def regsSHROUD0 : List RegDesc := [
  ⟨0x40, 1, 0, 1, 0, 0, 0x1, 0, 0, 0, 0, 0, 0, []⟩,  -- SHROUD_CFG
  ⟨0x44, 1, 0, 1, 0, 0, 0x7f, 0, 0, 0, 0, 0, 0, []⟩,  -- SHROUD_RSEL
  ⟨0x48, 1, 0, 1, 0, 0, 0x8fffffff, 0, 0, 0, 0, 0, 0, []⟩,  -- SHROUD_RDATA0
  ⟨0x4c, 1, 0, 1, 0, 0, 0xfffffff, 0, 0, 0, 0, 0, 0, []⟩,  -- SHROUD_RDATA1
  ⟨0x50, 1, 0, 1, 0, 0, 0x1f1f1f1f, 0, 0, 0, 0, 0, 0, []⟩,  -- SHROUD_RDATA2: PERM bytes, bits [7:5] reserved
  ⟨0x54, 1, 0, 1, 0, 0, 0x1f1f1f1f, 0, 0, 0, 0, 0, 0, []⟩,  -- SHROUD_RDATA3
  ⟨0x58, 1, 0, 1, 0, 0, 0x3, 0, 0, 0, 0, 0, 0, []⟩,  -- SHROUD_RCTL
  ⟨0x60, 1, 0, 1, 0, 0, 0, 0xffffffff, 0, 0, 0, 0, 0, []⟩,  -- SHROUD_VIO_LO
  ⟨0x64, 1, 0, 1, 0, 0, 0, 0xff, 0, 0, 0, 0, 0, []⟩,  -- SHROUD_VIO_HI
  ⟨0x68, 1, 0, 1, 0, 0, 0, 0x3ffff, 0x80000000, 0, 0, 0, 0, []⟩,  -- SHROUD_VIO_INFO
  ⟨0x6c, 1, 0, 1, 0, 0, 0, 0xffffffff, 0, 0, 0, 0xffffffff, 0, []⟩,  -- SHROUD_VIO_CNT
  ⟨0x70, 1, 0, 1, 0, 0, 0, 0xffffffff, 0, 0, 0, 0, 0, []⟩,  -- SHROUD_CLEAT_LO
  ⟨0x74, 1, 0, 1, 0, 0, 0, 0xffff, 0, 0, 0, 0, 0, []⟩,  -- SHROUD_CLEAT_HI
  ⟨0x100, 48, 4, 1, 0, 0, 0x1f, 0x20, 0, 0, 0, 0, 0x8, []⟩,  -- SHROUD_MASTER
  ⟨0x200, 48, 4, 1, 0, 0, 0x3, 0, 0, 0, 0, 0, 0, []⟩]  -- SHROUD_RELEASE
def regsSHROUD : List RegDesc := regsSHROUD0

/-- Registers of EVT (page 0x55), chapter 15. -/
def regsEVT0 : List RegDesc := [
  ⟨0x40, 1, 0, 1, 0, 0, 0, 0, 0, 0x1ff, 0, 0, 0, []⟩,  -- EVT_DOORBELL
  ⟨0x80, 8, 4, 1, 0, 0, 0, 0xffffffff, 0, 0, 0, 0, 0, []⟩,  -- EVT_PEND
  ⟨0xa0, 8, 4, 1, 0, 0, 0, 0xffffffff, 0, 0, 0, 0, 0xffffffff, []⟩,  -- EVT_MASK
  ⟨0xc0, 8, 4, 1, 0, 0, 0, 0, 0, 0xffffffff, 0, 0, 0, []⟩,  -- EVT_MSET
  ⟨0xe0, 8, 4, 1, 0, 0, 0, 0, 0, 0xffffffff, 0, 0, 0, []⟩,  -- EVT_MCLR
  ⟨0x100, 256, 4, 1, 0, 0, 0x7, 0x8, 0, 0, 0, 0, 0, []⟩]  -- EVT_ROUTE
def regsEVT : List RegDesc := regsEVT0

/-- Registers of EVTC (page 0x56), chapter 15. -/
def regsEVTC0 : List RegDesc := [
  ⟨0x40, 1, 0, 1, 0, 0, 0, 0, 0, 0x1ff, 0, 0, 0, []⟩,  -- EVTC_DOORBELL
  ⟨0x44, 1, 0, 1, 0, 0, 0, 0, 0, 0x1ff, 0, 0, 0, []⟩,  -- EVTC_EOI
  ⟨0x48, 1, 0, 1, 0, 0, 0, 0x800001ff, 0, 0, 0, 0, 0, []⟩,  -- EVTC_ACTIVE
  ⟨0x4c, 1, 0, 1, 0, 0, 0, 0x800001ff, 0, 0, 0, 0, 0, []⟩,  -- EVTC_PRES
  ⟨0x50, 1, 0, 1, 0, 0, 0, 0xffffffff, 0, 0, 0, 0, 0xffffffff, []⟩,  -- EVTC_MASK
  ⟨0x54, 1, 0, 1, 0, 0, 0, 0, 0, 0xffffffff, 0, 0, 0, []⟩,  -- EVTC_MSET
  ⟨0x58, 1, 0, 1, 0, 0, 0, 0, 0, 0xffffffff, 0, 0, 0, []⟩,  -- EVTC_MCLR
  ⟨0x5c, 1, 0, 1, 0, 0, 0, 0xffffffff, 0, 0, 0, 0, 0, []⟩,  -- EVTC_PEND
  ⟨0x60, 1, 0, 1, 0, 0, 0xfffff000, 0, 0, 0, 0, 0, 0, []⟩,  -- EVTC_VEC_LO
  ⟨0x64, 1, 0, 1, 0, 0, 0xff, 0, 0, 0, 0, 0, 0, []⟩,  -- EVTC_VEC_HI
  ⟨0x68, 1, 0, 1, 0, 0, 0, 0xffffffff, 0, 0, 0, 0, 0, []⟩,  -- EVTC_RET_LO
  ⟨0x6c, 1, 0, 1, 0, 0, 0, 0x3ff, 0, 0, 0, 0, 0, []⟩,  -- EVTC_RET_HI
  ⟨0x70, 1, 0, 1, 0, 0x1, 0, 0xe, 0, 0, 0, 0, 0, []⟩,  -- EVTC_CORE
  ⟨0x74, 1, 0, 1, 0, 0x3f, 0, 0, 0, 0, 0, 0, 0, []⟩,  -- EVTC_TICK
  ⟨0x78, 1, 0, 1, 0, 0xffffffff, 0, 0, 0, 0, 0, 0, 0, []⟩,  -- EVTC_BCMP
  ⟨0x7c, 1, 0, 1, 0, 0, 0, 0xffffffff, 0, 0, 0, 0xffffffff, 0, []⟩]  -- EVTC_CNT
def regsEVTC : List RegDesc := regsEVTC0

/-- Registers of WDOG (page 0x5A), chapter 15. -/
def regsWDOG0 : List RegDesc := [
  ⟨0x40, 4, 4, 1, 0, 0, 0x1ffff, 0, 0, 0, 0, 0, 0x3e8, [(0, 16, .span 1 65535)]⟩,  -- WDOG_CFG
  ⟨0x50, 4, 4, 1, 0, 0, 0, 0, 0, 0x1, 0, 0, 0, []⟩,  -- WDOG_KICK
  ⟨0x60, 1, 0, 1, 0, 0, 0x1f, 0, 0, 0, 0, 0, 0x2, []⟩,  -- WDOG_MCTL
  ⟨0x64, 1, 0, 1, 0, 0, 0, 0xffff01f0, 0xf, 0, 0, 0, 0, []⟩]  -- WDOG_STAT
def regsWDOG : List RegDesc := regsWDOG0

/-- Registers of TRIM (page 0x5B), chapter 17. -/
def regsTRIM0 : List RegDesc := [
  ⟨0x40, 1, 0, 1, 0, 0x1ff, 0, 0, 0, 0, 0, 0, 0x13c, []⟩,  -- TRIM_CFG
  ⟨0x44, 1, 0, 1, 0, 0, 0, 0xf, 0, 0, 0, 0, 0, []⟩,  -- TRIM_STALE
  ⟨0x48, 1, 0, 1, 0, 0x800001ff, 0, 0, 0, 0, 0, 0, 0, []⟩,  -- TRIM_DSEL
  ⟨0x4c, 1, 0, 1, 0, 0, 0, 0, 0, 0, 0xffff, 0, 0, []⟩,  -- TRIM_DDATA
  ⟨0x50, 1, 0, 1, 0, 0x8000ff1f, 0, 0, 0, 0, 0, 0, 0, []⟩,  -- TRIM_FSEL
  ⟨0x54, 1, 0, 1, 0, 0, 0, 0, 0, 0, 0xffffffff, 0, 0, []⟩,  -- TRIM_FDATA
  ⟨0x58, 1, 0, 1, 0, 0xffffff, 0, 0, 0, 0, 0, 0, 0x80064, [(0, 16, .span 10 65535)]⟩,  -- TRIM_ENC_CFG
  ⟨0x5c, 1, 0, 1, 0, 0, 0, 0xffff0003, 0, 0, 0, 0xffff0000, 0, []⟩,  -- TRIM_ENC_STAT
  ⟨0x60, 1, 0, 1, 0, 0, 0, 0, 0xffffffff, 0, 0, 0, 0, []⟩,  -- TRIM_TAPCAL
  ⟨0x64, 1, 0, 1, 0, 0, 0, 0, 0, 0x1, 0, 0, 0, []⟩,  -- TRIM_CTL
  ⟨0x68, 1, 0, 1, 0, 0, 0, 0xfff, 0, 0, 0, 0, 0, []⟩,  -- TRIM_TJMAX
  ⟨0x80, 8, 4, 1, 0, 0, 0, 0x1fff, 0, 0, 0, 0, 0, []⟩]  -- TRIM_TJ
def regsTRIM : List RegDesc := regsTRIM0

/-- Registers of WEAR (page 0x5C), chapter 17. -/
def regsWEAR0 : List RegDesc := [
  ⟨0x40, 1, 0, 1, 0, 0xf, 0, 0, 0, 0, 0, 0, 0x4, []⟩,  -- WEAR_CFG
  ⟨0x44, 1, 0, 1, 0, 0xffff, 0, 0, 0, 0, 0, 0, 0x7530, []⟩,  -- WEAR_DLIM
  ⟨0x48, 1, 0, 1, 0, 0xffffff, 0, 0, 0, 0, 0, 0, 0x7d0, []⟩,  -- WEAR_WARN
  ⟨0x4c, 1, 0, 1, 0, 0, 0, 0, 0, 0x3, 0, 0, 0, []⟩,  -- WEAR_CTL
  ⟨0x50, 1, 0, 1, 0, 0, 0, 0x1, 0, 0, 0, 0, 0, []⟩,  -- WEAR_STAT
  ⟨0x54, 1, 0, 1, 0, 0xffffffff, 0, 0, 0, 0, 0, 0, 0, [(0, 32, .multOf 4096)]⟩,  -- WEAR_SNAP_BASE_LO
  ⟨0x58, 1, 0, 1, 0, 0xff, 0, 0, 0, 0, 0, 0, 0, []⟩,  -- WEAR_SNAP_BASE_HI
  ⟨0x5c, 1, 0, 1, 0, 0x3f, 0, 0, 0, 0, 0, 0, 0, [(0, 6, .span 0 40)]⟩,  -- WEAR_SEL
  ⟨0x60, 1, 0, 1, 0, 0, 0, 0xffffffff, 0, 0, 0, 0, 0xffffffff, []⟩,  -- WEAR_L
  ⟨0x64, 1, 0, 1, 0, 0, 0, 0xffffffff, 0, 0, 0, 0, 0xffffffff, []⟩,  -- WEAR_L90
  ⟨0x68, 1, 0, 1, 0, 0, 0, 0xffff, 0, 0, 0, 0, 0, []⟩,  -- WEAR_USED
  ⟨0x6c, 1, 0, 1, 0, 0, 0, 0, 0xffffffff, 0, 0, 0, 0, []⟩,  -- WEAR_EW_LO
  ⟨0x70, 1, 0, 1, 0, 0, 0, 0, 0x1ff, 0, 0, 0, 0, []⟩,  -- WEAR_EW_HI
  ⟨0x74, 1, 0, 1, 0, 0, 0, 0xffffffff, 0, 0, 0, 0, 0, []⟩,  -- WEAR_TEQ_LO
  ⟨0x78, 1, 0, 1, 0, 0, 0, 0xffff, 0, 0, 0, 0, 0, []⟩,  -- WEAR_TEQ_HI
  ⟨0x80, 32, 4, 1, 0, 0xffffffff, 0, 0, 0, 0, 0, 0, 0, []⟩,  -- WEAR_HRATED
  ⟨0x100, 8, 4, 1, 0, 0xffffffff, 0, 0, 0, 0, 0, 0, 0, []⟩,  -- WEAR_ARATED
  ⟨0x180, 24, 4, 1, 0, 0, 0, 0xffff, 0, 0, 0, 0, 0, []⟩]  -- WEAR_AGE
def regsWEAR : List RegDesc := regsWEAR0

/-- Registers of SUPV (page 0x5D), chapter 18. -/
def regsSUPV0 : List RegDesc := [
  ⟨0x40, 1, 0, 1, 0, 0x3ff, 0, 0, 0, 0, 0, 0, 0x14, [(0, 10, .span 1 1000)]⟩,  -- SUPV_CFG
  ⟨0x44, 1, 0, 1, 0, 0, 0, 0x3, 0x4, 0, 0, 0, 0, []⟩,  -- SUPV_STAT
  ⟨0x48, 1, 0, 1, 0, 0, 0, 0xffffffff, 0, 0, 0, 0xffffffff, 0, []⟩,  -- SUPV_CNT
  ⟨0x80, 10, 4, 1, 0, 0, 0, 0xffff, 0, 0, 0, 0, 0, []⟩]  -- SUPV_V
def regsSUPV : List RegDesc := regsSUPV0

/-- Registers of BOOT (page 0x5E), chapter 18. -/
def regsBOOT0 : List RegDesc := [
  ⟨0x40, 1, 0, 1, 0, 0, 0, 0xffff, 0, 0, 0, 0, 0, []⟩,  -- BOOT_STAT
  ⟨0x44, 1, 0, 1, 0, 0, 0x3, 0, 0, 0, 0, 0, 0, []⟩,  -- BOOT_TRY
  ⟨0x48, 1, 0, 1, 0, 0, 0xff, 0, 0, 0, 0, 0, 0, []⟩,  -- BOOT_RBK
  ⟨0x4c, 1, 0, 1, 0, 0, 0, 0xffffffff, 0, 0, 0, 0, 0, []⟩,  -- BOOT_VER
  ⟨0x50, 1, 0, 1, 0, 0, 0xffffffff, 0, 0, 0, 0, 0, 0, [(0, 32, .multOf 4096)]⟩,  -- BOOT_WARM_LO
  ⟨0x54, 1, 0, 1, 0, 0, 0xff, 0, 0, 0, 0, 0, 0, []⟩,  -- BOOT_WARM_HI
  ⟨0x58, 1, 0, 1, 0, 0, 0x1, 0x3e, 0, 0, 0, 0, 0, []⟩]  -- BOOT_VERIFY
def regsBOOT : List RegDesc := regsBOOT0

/-- Registers of STAY (page 0x5F), chapter 11. -/
def regsSTAY0 : List RegDesc := [
  ⟨0x40, 1, 0, 1, 0, 0xfff07, 0, 0, 0, 0, 0, 0, 0x19004, []⟩,  -- STAY_CFG
  ⟨0x44, 1, 0, 1, 0, 0, 0, 0xffff007f, 0x80, 0, 0, 0, 0, []⟩,  -- STAY_STAT
  ⟨0x48, 1, 0, 1, 0, 0, 0, 0xffffffff, 0, 0, 0, 0, 0, []⟩,  -- STAY_DELAY_E
  ⟨0x4c, 1, 0, 1, 0, 0, 0, 0xffffffff, 0, 0, 0, 0, 0, []⟩,  -- STAY_DELAY_W
  ⟨0x50, 1, 0, 1, 0, 0, 0, 0xffffffff, 0, 0, 0, 0xffffffff, 0, []⟩]  -- STAY_CNT
def regsSTAY : List RegDesc := regsSTAY0

/-- The registers from offset 0x040 of a page, by the page index of R425; none for a page the index does not list. -/
def pageDescs (p : Nat) : Option (List RegDesc) :=
  match p with
  | 0x0 => some regsSYS
  | 0x1 => some regsPWRCTL
  | 0x2 => some regsCLK
  | 0x3 => some regsBEAT
  | 0x4 => some regsPLAN
  | 0x5 => some regsENC
  | 0x6 => some regsENC
  | 0x7 => some regsVENC
  | 0x8 => some regsTIME
  | 0x9 => some regsTPULSE
  | 0xa => some regsETH
  | 0xb => some regsETH
  | 0xc => some regsPATH
  | 0xd => some regsJTP
  | 0xe => some regsSTORE
  | 0xf => some regsCOMPOSE
  | 0x10 => some regsCODEC
  | 0x11 => some regsSCREEN
  | 0x12 => some regsNOZZLE
  | 0x13 => some regsFIRE
  | 0x14 => some regsWAVE
  | 0x40 => some regsLANES
  | 0x41 => some regsCAM
  | 0x42 => some regsCAM
  | 0x43 => some regsINSPECT
  | 0x44 => some regsSTATS
  | 0x45 => some regsVERDICT
  | 0x46 => some regsLIGHT
  | 0x48 => some regsLOOP
  | 0x49 => some regsADC
  | 0x4a => some regsPWM
  | 0x4b => some regsSTEP
  | 0x4c => some regsGPIO
  | 0x50 => some regsDRAMC
  | 0x51 => some regsDPHY
  | 0x52 => some regsECC
  | 0x53 => some regsREMAP
  | 0x54 => some regsSHROUD
  | 0x55 => some regsEVT
  | 0x56 => some regsEVTC
  | 0x57 => some regsEVTC
  | 0x58 => some regsEVTC
  | 0x59 => some regsEVTC
  | 0x5a => some regsWDOG
  | 0x5b => some regsTRIM
  | 0x5c => some regsWEAR
  | 0x5d => some regsSUPV
  | 0x5e => some regsBOOT
  | 0x5f => some regsSTAY
  | _ => if 0x20 ≤ p ∧ p ≤ 0x3F then some regsHP else none

/-- TYPE of PG_ID: the page of the block type's first instance (R425, R427). -/
def pageType (p : Nat) : Nat :=
  if 0x20 ≤ p ∧ p ≤ 0x3F then 0x20 else
  match p with
  | 0x6 => 0x5
  | 0xb => 0xa
  | 0x42 => 0x41
  | 0x57 => 0x56
  | 0x58 => 0x56
  | 0x59 => 0x56
  | _ => p

end Sys2Proof.Machine
end

