-- ==== Sys2Proof/Machine/State.lean ====
section
/-! DEFINITION. The state of the OV1316 as plain data: `Dev` holds what a SYS reset returns to its reset values and what
the standby island keeps; `State` adds the rollback fuses, the record of everything put on the balls and links, and the
queue of waiting commands. One structure per unit the spec describes, in chapter order; every field names its rule. -/
namespace Sys2Proof.Machine

/-- What the supplies and resets let the block do (R402, R407, R415, R416): running; in power-on reset; in a SYS reset
that a supervised rail holds; in standby with the core rails removed. -/
inductive Power where
  | run
  | por
  | sysHeld
  | standby
  deriving DecidableEq, Repr

/-- The output balls that hold a level (R411). -/
inductive OutPin where
  | headCutN
  | seamReq
  | rejectMark
  | tpulse
  | strb
  | cxu
  | pwm
  | step
  | dir
  | ena
  | isel
  | gpio
  deriving DecidableEq, Repr

/-- What the block has put on its balls and links, one entry per change or frame (assumption 9). -/
inductive Out where
  /-- Ball `i` of an output group taking level `v`, while its group is driven (R411, R412). -/
  | pin (p : OutPin) (i v : Nat)
  /-- A period of PWM[o]: PERIOD and DUTY in cycles and POL (R308). -/
  | pwm (o period duty : Nat) (pol : Bool)
  /-- POL of PWM[o] takes this value in mid-period (R308). -/
  | pwmPol (o : Nat) (pol : Bool)
  /-- Output group of PWR_OE bit `g` starts (1) or stops (0) being driven (R411, R412, R415). -/
  | group (g v : Nat)
  /-- PWR_EN taking level `v` (R415). -/
  | pwrEn (v : Nat)
  /-- An Ethernet frame on port `port`, without preamble and FCS. -/
  | eth (port : Nat) (frame : List Byte)
  /-- A Gweat frame on head port `hp`: TYPE and body (chapter 11). -/
  | head (hp : Nat) (type : Nat) (body : List Byte)
  /-- A Gweat frame on the stay port `dir` (0 east, 1 west): TYPE and body. -/
  | stay (dir : Nat) (type : Nat) (body : List Byte)
  /-- FSTB[hp] rises at local time `t` ns by delay tap `tap` and falls at `fall` ns (R217). -/
  | strobe (hp t fall tap : Nat)
  /-- Waveform samples of one burst on channel `ch` of head port `hp`, from round `round` since START on (R223, R245). -/
  | wave (hp ch round : Nat) (samples : List Nat)
  /-- A TRAIN frame of link `link`, TYPE and all, leaves transmit lane `lane` `n` times, once every 1,024 UI (R253). -/
  | train (link lane n : Nat) (frame : List Byte)
  /-- Line bits of transmit lanes 0 and 1 of link `link` (0 to 31 head ports, 32 east, 33 west), from bonded bit `start` on:
  since the start of round 0 of its START, or since the marker of a START or TRAIN frame (R239 to R246). -/
  | lanes (link start : Nat) (lane0 lane1 : List Bool)
  /-- REFOUT[j] stops (0), carries the lane reference (1), or carries it with down-spread (2) (R237). -/
  | refout (j v : Nat)
  /-- DRAM_RESET_N and every CS_x_N: held low and high (1), or left to the protocol of the DRAM (0) (R411, R441). -/
  | dramHeld (v : Nat)
  /-- A trigger sent to camera port `cam` (R267). -/
  | trigger (cam : Nat) (gen : Nat)
  /-- A control-channel request to camera port `cam` (R264). -/
  | camReg (cam : Nat) (write : Bool) (addr value : Nat)
  deriving DecidableEq, Repr

/-- The answer of the last bus transaction: poison with an error, or the value read (R423, R376). -/
inductive BusResp where
  | none
  | ok (value : Nat)
  | poison
  deriving DecidableEq, Repr

/-- A commit armed on a page (R28, R434, R435). -/
structure Armed where
  /-- Mode code of R28: 2 NEXT_BEAT or 3 AT_EPOCH. -/
  mode : Nat
  /-- The epoch aimed at, full 32 bits; none for "the first epoch whose cut-off is met". -/
  target : Option Nat
  /-- 0 PG_COMMIT, 1 EPOCH_COMMIT, 2 VERDICT (R438). -/
  source : Nat
  /-- JOB of the EPOCH_COMMIT, otherwise 0 (R107). -/
  job : Nat := 0
  /-- Free-running time of the arming write's response, ns. -/
  at_ : Nat
  deriving DecidableEq, Repr

/-- What the plan checker found (R24 to R26). -/
structure PlanResult where
  code : Nat := 0
  inst : Nat := 0
  demand : Nat := 0
  budget : Nat := 0
  adv : Nat := 0
  advisory : Bool := false
  deriving DecidableEq, Repr

/-- An arming check of page 0x04 in progress (R24, R436): what to arm when the plan is accepted. -/
structure PlanCheck where
  target : Option Nat
  source : Nat
  job : Nat
  /-- Every page to arm: 0x04, with those an EPOCH_COMMIT names (R130). -/
  pages : List Nat
  /-- What the checker finds. -/
  result : PlanResult
  /-- The first refusal of another page's check: page, instance, code and segment (R130). -/
  other : Option (Nat × Nat × Nat × Nat)
  /-- The EPOCH_COMMIT waiting for its answer: session and SEQ of the request (R130). -/
  reply : Option (Nat × Nat)
  deriving DecidableEq, Repr

/-- An EVENT message waiting in the queue of 32 (R118, R133): its payload, and the sessions it is still to be sent in, bit s. -/
structure EventMsg where
  todo : Nat
  payload : List Byte
  deriving DecidableEq, Repr

/-- The committed contents of the fire-stream pages that one epoch uses (R29, R31): the RWS registers by live address, and
the nozzle, tile, waveform, firing-trim and die-trim tables. -/
structure FireCfg where
  regs : Cells Word := []
  noz : Cells Nat := []
  tile : Cells Word := []
  wave : Cells Word := []
  ftrim : Cells Word := []
  dtrim : Cells Nat := []
  deriving DecidableEq, Repr

/-- The shadow halves of all pages: registers by byte offset, and the tables (R432, R437). -/
structure Shadows where
  regs : Cells Word := []
  noz : Cells Nat := []
  tile : Cells Word := []
  wave : Cells Word := []
  ftrim : Cells Word := []
  dtrim : Cells Nat := []
  coef : Cells Nat := []
  shd : Cells Nat := []
  map : Cells Nat := []
  /-- SCR_PASS has been written since page 0x11 was last captured (R203). -/
  pass : Bool := false
  deriving DecidableEq, Repr

/-- A captured configuration and the first epoch (counted from plan activation) that uses it (R31). -/
structure Version where
  ord : Nat := 0
  cfg : FireCfg := {}
  /-- E_A of the pass programme in force from it on, counted from activation (R203). -/
  passBase : Nat := 0
  /-- JOB of the EPOCH_COMMIT that applied its plan, or 0 (R107). -/
  job : Nat := 0
  /-- A plan came into force with it (R32, R33). -/
  plan : Bool := false
  /-- WAVE_WSET as its lines carry it (R224). -/
  wset : Nat := 0
  deriving DecidableEq, Repr

/-- A position unit, ENC[0] or ENC[1] (R37 to R46). -/
structure Enc where
  /-- X at the latest sample, counts (R37). -/
  x : Int := 0
  /-- Local-clock time of the latest sample, 2^-16 ns. -/
  t : Nat := 0
  /-- A sample has been taken and was valid (R43). -/
  valid : Bool := false
  /-- The phase of the sample before, and whether there was one (R38). -/
  phi : Nat := 0
  phiSeen : Bool := false
  /-- Consecutive samples outside the amplitude window (R41). -/
  badRun : Nat := 0
  /-- Consecutive samples inside it with no other fault (R43). -/
  goodRun : Nat := 0
  /-- Accepted quadrature changes since the last sample, and an illegal transition among them (R40). -/
  qd : Int := 0
  qdBad : Bool := false
  /-- Accepted levels of A, B and Z; for a sin/cos input `z` is that of REF (R40). -/
  a : Bool := false
  b : Bool := false
  z : Bool := false
  /-- The 5 ns samples of a quadrature input before this one have been taken (R40). -/
  qdAt : Nat := 0
  /-- The 5 ns sample that first showed a level of A, B or Z which FILT has not accepted yet (R40). -/
  pa : Option Nat := none
  pb : Option Nat := none
  pz : Option Nat := none
  /-- How many 5 ns samples in a row have shown REF at the level that is not the accepted one (R40). -/
  refRun : Nat := 0
  /-- The 5 ns sample, plus 1, of the last accepted change of A or B, and what it added to X (R40). -/
  accAt : Nat := 0
  accStep : Int := 0
  /-- A rising edge of Z or REF has been accepted since the last sample (R44). -/
  edge : Bool := false
  /-- The tracking filter: 2^-16 counts, 2^-24 counts/ns, 2^-40 counts/ns² (R46). -/
  xh : Int := 0
  vh : Int := 0
  ah : Int := 0
  /-- The filter restarts at the next sample (R43). -/
  restart : Bool := true
  /-- X and local-clock time (2^-16 ns) of the latest valid sample (R50, R59), and its 50 ns instant of free-running time
  (R55). -/
  vx : Int := 0
  vt : Nat := 0
  vn : Nat := 0
  deriving DecidableEq, Repr

/-- The latest published sample accepted by a follower (R60 to R62). -/
structure VencSample where
  /-- Sample time in the follower's own clock, 2^-16 ns. -/
  t : Int := 0
  x : Int := 0
  v : Int := 0
  a : Int := 0
  flags : Nat := 0
  seq : Nat := 0
  deriving DecidableEq, Repr

/-- A line assigned to a beat (R50, R51); instants in 2^-16 ns of local time. -/
structure Assign where
  line : Nat
  /-- Launch instant. -/
  t : Int
  /-- Whether it was assigned as a late event. -/
  late : Bool
  /-- The prediction error has been recorded (R51). -/
  seen : Bool
  deriving DecidableEq, Repr

/-- A PTP domain being measured (R69, R70); instants in 2^-16 ns. -/
structure Dom where
  /-- Consecutive valid offset samples since it was last lost (R70, R73). -/
  good : Nat := 0
  /-- Free-running time of the last valid Sync, ns (R70). -/
  syncAt : Nat := 0
  /-- A Sync waiting for its Follow_Up or used last: sequence, arrival, correction, and whether it is two-step. -/
  syncSeq : Nat := 0
  syncRx : Int := 0
  syncCorr : Int := 0
  syncTwo : Bool := false
  /-- Domain time at the last complete Sync, corrected, and its arrival: the pair of R66. -/
  t1 : Int := 0
  t2 : Int := 0
  synced : Bool := false
  /-- Delay request in flight: sequence and departure (R69). -/
  reqSeq : Nat := 0
  t3 : Int := 0
  reqOut : Bool := false
  /-- A two-step Pdelay_Resp waits for its follow-up: its arrival, and its receipt timestamp less its correction. -/
  respTwo : Bool := false
  respRx : Int := 0
  respT : Int := 0
  /-- The mean path delay, once measured, 2^-16 ns. -/
  mpd : Option Int := none
  /-- Sequence of the next Sync sent as master. -/
  txSeq : Nat := 0
  deriving DecidableEq, Repr

/-- A timed-pulse output (R83, R84); instants in ns of local time. -/
structure Tp where
  /-- START of the schedule in force, resolved to the window nearest its commit. -/
  start : Int := 0
  /-- Pulses begun or skipped. -/
  k : Nat := 0
  /-- End of the pulse in progress. -/
  endT : Option Int := none
  /-- No pulse begins before this instant, 2^-48 ns (R84). -/
  hold : Int := 0
  deriving DecidableEq, Repr

/-- The TIME and TPULSE blocks beyond their registers (chapter 04). -/
structure TimeSt where
  /-- I_q, 2^-10 ppb (R66). -/
  iq : Int := 0
  /-- A domain switch to be made at the next beat boundary (R71). -/
  switchTo : Option Nat := none
  doms : Cells Dom := []
  /-- The timestamp queue, oldest first: ID, port, and time in 2^-16 ns (R77). -/
  tsq : List (Nat × Nat × Nat) := []
  tps : Cells Tp := []
  /-- Ring time: the domains and standby offset that the ring time master reports (R74). -/
  ringAct : Nat := 0
  ringStby : Nat := 0
  ringOfs : Int := 0
  /-- The beats of the master's latest check by the direction with fewer hops, and by the other one (R74). -/
  ringNear : Option Nat := none
  ringFar : Option Nat := none
  /-- Since a switch of domain |θ| has stayed above STEP_THR: the clock is slewed, not stepped (R71). -/
  noStep : Bool := false
  /-- The cycle of the time clock in which a read made room in the full timestamp queue (R78). -/
  tsqRoom : Option Nat := none
  /-- The latest Pdelay_Req messages received, newest first: port, source port identity, sequence, and receipt timestamp in
  2^-16 ns (R76). -/
  pdReq : List (Nat × Nat × Nat × Int) := []
  deriving DecidableEq, Repr


/-- A JTP message after the checks of R124 up to step 4: the port it came in by, its header fields and its payload, read. -/
structure JtpMsg where
  port : Nat
  type : Nat
  session : Nat
  seq : Nat
  job : Nat
  epoch : Nat
  payload : List Byte
  /-- The whole message as received, for the management ring and for its length. -/
  raw : List Byte
  deriving DecidableEq, Repr

/-- A snapshot of the active engine's receive state (R95). -/
structure Snap where
  /-- The beat it was taken in. -/
  beat : Nat
  /-- Sessions that were OPEN, bit s. -/
  opened : Nat := 0
  /-- CUM and the received sequences from it on, by session; control messages entered later are added (R96). -/
  rx : Cells (Nat × Nat) := []
  /-- The credit last granted, by session. -/
  credit : Cells Nat := []
  /-- Fill mark of each layer stream, as an offset and as bytes filled ever. -/
  fills : Cells (Nat × Nat) := []
  /-- Fill mark of the copy-order ring. -/
  corFill : Nat := 0
  deriving DecidableEq, Repr

/-- The verdicts of the two engines on one control message: the ports where it passed and where it failed (R93). -/
structure PortVerdict where
  session : Nat
  seq : Nat
  fb : Bool
  passed : Nat := 0
  failed : Nat := 0
  deriving DecidableEq, Repr

/-- PATH and the two ports (chapter 05). Port masks have bit 0 for ETH[A] and bit 1 for ETH[B]. -/
structure PathSt where
  /-- An active port has been chosen since PATH was enabled (R90). -/
  elected : Bool := false
  /-- Ports whose power island has failed (R91, R98): off until a SYS reset (log entry 112). -/
  broken : Nat := 0
  /-- Ports that passed the initial check or the last drill (R91). -/
  checked : Nat := 0
  /-- When a duplicated control message last came on each port, ns plus 1 (R91). -/
  dupAt : Cells Nat := []
  /-- When the standby became healthy, ns, while it is (R101). -/
  healthyAt : Option Nat := none
  /-- Snapshot that is current at the standby, and the one on its way (R95). -/
  cur : Option Snap := none
  coming : Option Snap := none
  /-- Cause of the switchover that takes effect at the next boundary (R99, R100). -/
  decided : Option Nat := none
  /-- Cause of the switchover whose new active has not resumed yet (R99). -/
  resume : Option Nat := none
  /-- Messages that the new active holds until it resumes, oldest first (R99). -/
  held : List JtpMsg := []
  /-- When roles last changed, ns: the drill timer counts from it (R101). -/
  switchAt : Nat := 0
  /-- A drill starts at the next boundary; a drill put off because SOLO was set (R101). -/
  drill : Bool := false
  drillLate : Bool := false
  /-- Ports whose LINK_UP has stayed set since the last drill, or since they first came up before any, and the running error
  totals of each port then and now (R102). -/
  linkKept : Nat := 0
  /-- Ports that have come up before: the initial check is over (R91). -/
  seenUp : Nat := 0
  fecTot : Cells Nat := []
  fcsTot : Cells Nat := []
  fecBase : Cells Nat := []
  fcsBase : Cells Nat := []
  /-- A standby verdict has differed since the last drill (R93, R102). -/
  mismatch : Bool := false
  verdicts : List PortVerdict := []
  /-- Beat of the swap of a drill whose POST stage runs (R103). -/
  post : Option Nat := none
  /-- Errors of the active port in the last 1 ms, newest first: time in ns and count (R98). -/
  errs : List (Nat × Nat) := []
  /-- Ports that have started the transmit descriptor at TXR_HEAD (R104). -/
  txStarted : Nat := 0
  /-- Transmit descriptors in transmission: ring index, ports still sending (R104). -/
  txFlight : List (Nat × Nat) := []
  /-- Untimed frames of the device's own that wait for a timed one, oldest first: port and frame (R81). -/
  txWait : List (Nat × List Byte) := []
  deriving DecidableEq, Repr


/-- A bulk message received and not yet performed in full (R113, R116): the writes done so far. -/
structure HeldMsg where
  msg : JtpMsg
  done : Nat
  deriving DecidableEq, Repr

/-- A data-space message sent and not acknowledged (R117, R118). -/
structure SentMsg where
  seq : Nat
  type : Nat
  cost : Nat
  /-- When it was last sent, ns, and when it was last sent again. -/
  at_ : Nat
  again : Option Nat := none
  /-- The message, header byte 0 to the end of the CRC. -/
  bytes : List Byte
  /-- Records it carries. -/
  records : Nat
  deriving DecidableEq, Repr

/-- A JTP session (R111 to R123). CUM, TX_NEXT and the state stand in its registers. -/
structure Sess where
  /-- Bit i: sequence CUM + 1 + i has been received. -/
  got : Nat := 0
  /-- Messages received above CUM. -/
  waiting : List JtpMsg := []
  /-- Messages that CUM has passed and that are not dealt with yet, in order (R113). -/
  todo : List JtpMsg := []
  /-- Bulk messages not yet performed, oldest first. -/
  held : List HeldMsg := []
  /-- The last feedback counter accepted (R112). -/
  fbRx : Option Nat := none
  /-- Control sequences whose copy on the other port has not come: sequence and first port (R93). -/
  copies : List (Nat × Nat) := []
  /-- Send counters, not wrapped: data and feedback. -/
  txNum : Nat := 0
  fbNum : Nat := 0
  /-- Counters used under each loaded key, at 2 × slot + space: intervals modulo 2^32, the latest first (R120). -/
  keyUse : Cells (List (Nat × Nat)) := []
  keys : Cells (Option Nat) := []
  /-- The RIP's latest CUM, BITMAP and CREDIT. -/
  peerCum : Nat := 0
  peerMap : Nat := 0
  credit : Nat := 0
  /-- The largest LENGTH that the RIP accepts (R122). -/
  maxPayload : Nat := 9216
  sent : List SentMsg := []
  /-- Responses and DOORBELL messages that wait for window or credit: TYPE and payload. -/
  queue : List (Nat × List Byte) := []
  /-- Messages accepted since the last feedback, and when the earliest was, ns (R115). -/
  since : Nat := 0
  firstAt : Option Nat := none
  /-- CUM of the last NAK GAP and when it was sent, ns (R115). -/
  nakCum : Option Nat := none
  nakAt : Nat := 0
  /-- CREDIT as last sent (R115). -/
  creditSent : Nat := 0
  deriving DecidableEq, Repr

/-- The JTP engine (chapter 06). -/
structure JtpSt where
  sess : Cells Sess := []
  /-- Records held in the management receive ring (R137). -/
  mrxHeld : Nat := 0
  /-- Records of the verdict ring and of the print log that have been sent and not released (R134). -/
  vrdSent : Nat := 0
  plogSent : Nat := 0
  deriving DecidableEq, Repr

/-- A compressor job in progress (R154 to R158). -/
structure CmpJob where
  /-- The source is the raw tap. -/
  tap : Bool := false
  /-- Samples of the line before (R143). -/
  ref : List Nat := []
  /-- Lines appended so far. -/
  lines : Nat := 0
  /-- Stream bytes put into buffers, and up to the last complete line record. -/
  written : Nat := 0
  valid : Nat := 0
  /-- The current buffer: address, size and bytes used; none before one is taken. -/
  buf : Option (Nat × Nat × Nat) := none
  /-- The buffer that the job filled last, while no other has been taken: its descriptor's index, and its bytes. -/
  full : Option (Nat × Nat) := none
  /-- Bytes waiting for a buffer while the chain is exhausted. -/
  rest : List Byte := []
  /-- Tap lines waiting (R287). -/
  queue : List (List Nat) := []
  /-- The RAW fall-back is on (R155). -/
  raw : Bool := false
  /-- The source has ended: no more lines come (tap frames done). -/
  ended : Bool := false
  deriving DecidableEq, Repr

/-- A layer stream of the job store (R160, R162, R176). -/
structure Stream where
  base : Nat := 0
  size : Nat := 0
  kind : Nat := 0
  plane : Nat := 0
  ring : Bool := false
  en : Bool := false
  err : Bool := false
  failed : Bool := false
  /-- FILL and DRAIN as the registers report them. -/
  fill : Nat := 0
  drain : Nat := 0
  /-- Bytes held from DRAIN up to FILL: tells a full ring from an empty one. -/
  held : Nat := 0
  /-- Bytes drained ever; readers of a ring count their position from the same origin. -/
  drained : Nat := 0
  /-- Offset of the failed record (R176). -/
  sfail : Nat := 0
  /-- COPY of the last message that advanced the fill mark (R161). -/
  copy : Nat := 0
  deriving DecidableEq, Repr

/-- A captured copy-order descriptor (R165, R166). -/
structure Desc where
  repeat_ : Nat := 0
  ovlPlanes : Nat := 0
  x0 : Nat := 0
  y0 : Nat := 0
  wv : Nat := 0
  hv : Nat := 0
  tag : Nat := 0
  deriving DecidableEq, Repr

/-- A captured copy (R166, R207, R208). Plane masks have bit p for plane p. -/
structure Copy where
  desc : Desc := {}
  /-- D(E): the sum of REPEAT before it (R167). -/
  start : Nat := 0
  /-- Ω(E): the sum of REPEAT before it over epochs of pass 1 or more (R204). -/
  omega : Nat := 0
  /-- Fire digest of each plane (R207). -/
  digest : Cells Nat := []
  torn : Nat := 0
  reef : Nat := 0
  seam : Nat := 0
  ecc : Bool := false
  reject : Bool := false
  /-- Planes that have launched or passed over its last line (R208). -/
  done : Nat := 0
  /-- Its COPY record has been written. -/
  logged : Bool := false
  deriving DecidableEq, Repr

/-- Where a plane's layer streams stand before a line, and the decoded samples of the line before (R173). -/
structure DecState where
  /-- The line this state is for. -/
  line : Nat := 0
  bgPos : Nat := 0
  bgRef : List Nat := []
  ovPos : Nat := 0
  ovRef : List Nat := []
  maskPos : Nat := 0
  /-- The rings these positions are in, as counts of bytes from their `drained` (R170). -/
  ovId : Option Nat := none
  maskId : Option Nat := none
  /-- Overlay value records passed over and still to be skipped in the ring before `ovPos`: width, depth, count (R172). -/
  skips : List (Nat × Nat × Nat) := []
  /-- The reference line failed decode (R153). -/
  bgBad : Bool := false
  ovBad : Bool := false
  deriving DecidableEq, Repr

/-- A line in the pipeline (R21). -/
structure Slot where
  line : Nat
  /-- Epoch, counted from activation. -/
  ord : Nat
  /-- Line index in the copy. -/
  j : Nat
  /-- 1 decode, 2 composition, screening and compensation, 3 framing, 4 framed. -/
  stage : Nat
  /-- Why it cannot be launched: 0 it can, 2 its layer data failed decode, 3 a unit overran (R153, R175). -/
  why : Nat
  /-- Composed samples (R171). -/
  samples : List Nat
  /-- Final levels of each bound head port, ports ascending (R201, R213). -/
  levels : List (Nat × List Nat)
  /-- The stream state after this line. -/
  after : DecState
  deriving DecidableEq, Repr

/-- A plane's line-event unit and pipeline (R21, R49 to R57, R177 to R182, R205). -/
structure Plane where
  /-- HWM, none before the first sample since activation or re-arm (R49). -/
  hwm : Option Int := none
  /-- c_p: the lowest line not yet assigned (R49). -/
  cursor : Nat := 0
  /-- The next line to issue (R21). -/
  issue : Nat := 0
  /-- The lowest line not yet launched. -/
  next : Nat := 0
  slots : List Slot := []
  assigns : List Assign := []
  /-- Event instant of the line assigned last (R20). -/
  lastEvent : Option Int := none
  /-- Lines at or above the cursor that HWM has reached, with the sample's time (R51). -/
  crossed : List (Nat × Nat) := []
  /-- Δ_p, once taken (R55). -/
  delta : Option Int := none
  /-- Resume line and beat of entry of a seam-stop (R177, R182). -/
  resume : Nat := 0
  seamBeat : Nat := 0
  /-- It entered seam-stop with cause 6: it does not resume while its source is UNCERTAIN (R56). -/
  encStop : Bool := false
  /-- Ports whose cut stopped it with cause 5 and has not been seen restored, bit h (R177, R232). -/
  cutPorts : Nat := 0
  /-- Firmware has released the re-issue after a decode error (R177). -/
  reissued : Bool := false
  /-- The plane waits at a change of pass transform: 0 no, 1 for the next sample, 2 for the web (R205). -/
  turn : Nat := 0
  /-- Stream state before line `next` (R173). -/
  dec : DecState := {}
  deriving DecidableEq, Repr


/-- A fire strobe waiting to be placed (R216 to R218). -/
structure Strobe where
  line : Nat
  ord : Nat
  /-- T, 2^-16 ns of local time. -/
  t : Int
  /-- S: when the port's fire frame started, ps. -/
  start : Int
  /-- t_tgt, ps. -/
  target : Int
  /-- SETUP and the waveform length N in samples. -/
  setup : Nat
  n : Nat
  deriving DecidableEq, Repr

/-- A line in progress on a head port, until `endT` ps, none while its strobe is not placed (R219). -/
structure Busy where
  plane : Nat
  line : Nat
  ord : Nat
  endT : Option Int
  deriving DecidableEq, Repr

/-- A head port (R216 to R232). -/
structure Head where
  strobes : List Strobe := []
  /-- Drop instant (ps) and length of the previous line (R218). -/
  lastDrop : Option (Int × Nat) := none
  /-- Lines in progress, oldest first (R219). -/
  prog : List Busy := []
  /-- Reports in this beat, and consecutive beats without one (R227). -/
  reports : Nat := 0
  idleBeats : Nat := 0
  /-- The head-warning event may be raised (R228). -/
  warnArmed : Bool := true
  deriving DecidableEq, Repr

/-- A control message on a head link (R249, R250). -/
structure Ctrl where
  seq : Nat
  op : Nat
  payload : List Byte
  /-- Times sent, and the link cycle of the last sending, counted since the link came up. -/
  sends : Nat
  cycle : Nat
  deriving DecidableEq, Repr

/-- The adaptation of one receive lane (R255). -/
structure RxAdapt where
  /-- The tap being adapted: 0 POST, 1 PRE, 2 finished. -/
  tap : Nat := 0
  /-- The request in force: 0 HOLD, 1 INC, 2 DEC. -/
  req : Nat := 0
  /-- Eye product before the step in flight, and successive steps that did not raise it. -/
  best : Nat := 0
  fails : Nat := 0
  deriving DecidableEq, Repr

/-- The state of a line coder: the last 58 scrambled payload bits, the latest in bit 0, the last line bit, and the length of
the run of equal line bits that it ends (R239, R240). -/
structure Coder where
  hist : Nat := 0
  last : Bool := false
  run : Nat := 1
  deriving DecidableEq, Repr

/-- The transmit stream of a Gweat link, bit by bit (R239 to R246). -/
structure LineTx where
  coder : Coder := {}
  /-- Bonded line bits sent since round 0 of the link's START. -/
  pos : Nat := 0
  /-- The next bit goes on lane 1 (R242). -/
  odd : Bool := false
  /-- Bits of the marker in progress still to be sent, its guard bit the last. -/
  mark : Nat := 0
  /-- Bits of the slot field in progress, and of the frame in progress. -/
  slot : List Bool := []
  cur : List Bool := []
  /-- Frames that wait, each with the bit from which it is due and its bytes from TYPE to CRC. -/
  q : List (Nat × List Byte) := []
  deriving DecidableEq, Repr

/-- The receiver of a lane, or of a bonded pair, while line bits come in (R239 to R242): the last line bit and its run, the
payload ones of a run of ones not yet known to be no marker, the line bits taken so far and whether they come inverted; the
scrambled payload bits, the frame in progress, its bytes so far with the bits of the next one, and the line bits since its
marker began. -/
structure LineRx where
  last : Bool := false
  run : Nat := 0
  ones : Nat := 0
  pos : Nat := 0
  inv : Bool := false
  hist : Nat := 0
  cur : Option (List Byte) := none
  acc : Nat := 0
  got : Nat := 0
  since : Nat := 0
  /-- Where its latest marker ended, in line bits taken. -/
  markAt : Nat := 0
  deriving DecidableEq, Repr

/-- The bursts of one line on a head port: the round since START in which they begin, the line, and the samples of each
generator that streams (R245). -/
structure Burst where
  round : Nat
  line : Nat
  g0 : List Nat
  g1 : List Nat
  deriving DecidableEq, Repr

/-- A Gweat link: a head port, or a direction of the stay port (R253 to R256). -/
structure Link where
  /-- Receive lanes locked, lanes whose markers were found, lanes whose LANE was read; bit l for lane l. -/
  locks : Nat := 0
  marked : Nat := 0
  ordered : Nat := 0
  swapped : Bool := false
  /-- Receive lanes inverted (R253). -/
  inverted : Nat := 0
  adapt0 : RxAdapt := {}
  adapt1 : RxAdapt := {}
  peerReady : Bool := false
  /-- The eye product of each receive lane in a TRAIN frame that answers the requests in force (R255). -/
  eye0 : Option Nat := none
  eye1 : Option Nat := none
  /-- REQ_SEQ of this end, and the peer's REQ_SEQ answered last with the answers STAT0, STAT1. -/
  reqSeq : Nat := 0
  statSeq : Option Nat := none
  stat0 : Nat := 0
  stat1 : Nat := 0
  /-- Taps in force on the two transmit lanes: PRE in [5:0], MAIN in [13:8], POST in [21:16]. -/
  taps0 : Nat := 0x000C2F04
  taps1 : Nat := 0x000C2F04
  /-- When the present stage began, ns. -/
  stageAt : Nat := 0
  /-- When the next TRAIN frame is due, ps of the lanes' time (R253). -/
  trainAt : Int := 0
  startSent : Bool := false
  /-- The link is up: stage 5 has ended (R253). -/
  up : Bool := false
  startRx : Bool := false
  /-- When START was sent, ns of free-running time; and round 0 of link cycle 0, ps of the lanes' time (R253, R254). -/
  start : Nat := 0
  origin : Int := 0
  /-- Settings of the START in force (R247). -/
  wave : Bool := false
  cyc250 : Bool := false
  /-- A valid STATUS has been received since START, and when the latest was, ns. -/
  statusAt : Nat := 0
  /-- Link cycles performed since START, and since the link came up. -/
  cycle : Nat := 0
  cycles : Nat := 0
  cseq : Nat := 0
  /-- Control messages not sent yet, and sent but not acknowledged, oldest first (R250). -/
  queue : List (Nat × List Byte) := []
  sent : List Ctrl := []
  /-- How many of the newest of them are still to be sent again (R250). -/
  back : Nat := 0
  /-- End of the last burst on the port, ps of the lanes' time (R245). -/
  burstEnd : Int := 0
  /-- RATE_M of the link, taken at its last bring-up (R236). -/
  rate : Nat := 100
  /-- By how many unit intervals receive lane 1 lags lane 0, measured in stage 3 (R242, R253). -/
  skew : Int := 0
  /-- The transmit stream, and what its slot fields carry: the cycle word, the generators that stream (bit g), and the latest
  bursts, oldest first (R243 to R245). -/
  line : LineTx := {}
  word : List Byte := []
  gens : Nat := 0
  bursts : List Burst := []
  /-- When the last frame sent has left at the latest, ps of the lanes' time (R219). -/
  txEnd : Int := 0
  /-- The receivers: of lane 0 or of the bonded pair, and of lane 1; line bits of the lanes that wait for their partner, and
  whether the skew has been taken off them (R242). -/
  rx0 : LineRx := {}
  rx1 : LineRx := {}
  rest0 : List Bool := []
  rest1 : List Bool := []
  deskewed : Bool := false
  /-- Frames that wait for a timed frame (R81): for a stay port, each with HOPS as received, the delay of the link it came by
  and the instant it arrived, 2^-8 ns (R260). -/
  wait : List (List Byte × Int × Int) := []
  deriving DecidableEq, Repr

/-- A verdict record waiting to be sent on the ring (R262). -/
structure VerdRec where
  dest : Nat
  state : Nat
  nozzle : Nat
  epoch : Nat
  vseq : Nat
  deriving DecidableEq, Repr

/-- The stay ring beyond its registers (R259 to R263). -/
structure StaySt where
  /-- (SRC, BEAT) accepted lately, newest first (R260). -/
  seen : List (Nat × Nat) := []
  /-- Positions accepted in the beat in progress. -/
  heard : Nat := 0
  /-- Own frames sent: direction, BEAT[15:0] and send time, 2^-8 ns, newest first (R261). -/
  sentAt : List (Nat × Nat × Int) := []
  /-- The neighbour's latest own frame on each direction: BEAT[15:0] and arrival, 2^-8 ns (R259). -/
  lastE : Option (Nat × Int) := none
  lastW : Option (Nat × Int) := none
  /-- Epoch and SEQ of this chip's latest COPY record (R259). -/
  xref : Option (Nat × Nat) := none
  /-- The last (XEPOCH, XSEQ) accepted from each position (R263). -/
  peers : Cells (Nat × Nat) := []
  /-- Verdict records to send, oldest first, at most 1,024 (R262). -/
  verdicts : List VerdRec := []
  /-- The west port's frames are discarded until its next bring-up (R258). -/
  wiring : Bool := false
  /-- The beat of the own frame sent last (R259). -/
  sentBeat : Option Nat := none
  deriving DecidableEq, Repr


/-- A camera line of a frame after colour conversion: components in pixel order, the first `n` of them real; none are for
a MISSING or DROPPED line (R269 to R274). -/
structure FLine where
  n : Nat
  px : List Nat
  deriving DecidableEq, Repr

/-- A frame from its first trigger to its close, with the settings in force at its start (R268 to R276). -/
structure CamFrame where
  ord : Nat
  /-- Triggers sent and triggers matched. -/
  sent : Nat := 0
  matched : Nat := 0
  /-- Registers of pages 0x41 to 0x46 and the shading and map tables at its start (R272). -/
  regs : Cells Word := []
  shd : Cells Nat := []
  map : Cells Nat := []
  npix : Nat := 0
  npl : Nat := 0
  gen : Nat := 0
  width : Nat := 0
  beat : Nat := 0
  incomplete : Bool := false
  mixed : Bool := false
  hb : Bool := false
  tapped : Bool := false
  tapInc : Bool := false
  /-- The pages of INSPECT, STATS and VERDICT that were enabled at its start (R270, R361). -/
  on : List Nat := []
  short : Nat := 0
  long : Nat := 0
  missing : Nat := 0
  dropped : Nat := 0
  excess : Nat := 0
  lines : List FLine := []
  deriving DecidableEq, Repr

/-- A trigger sent and not matched: its number, epoch and time, ns (R267, R269). -/
structure Trig where
  idx : Nat
  ord : Nat
  at_ : Nat
  deriving DecidableEq, Repr

/-- A matched line in a camera FIFO, with its tap samples when its frame is tapped (R271, R287). -/
structure FifoLine where
  ord : Nat
  tap : Option (List Nat)
  /-- Its frame taps through the compressor. -/
  cmp : Bool := false
  deriving DecidableEq, Repr

/-- A control-channel command outstanding (R264, R275). -/
structure CcCmd where
  /-- It belongs to the exposure set of this generation; none for firmware's own. -/
  gen : Option Nat
  write : Bool
  at_ : Nat
  deriving DecidableEq, Repr

/-- An exposure set that is not ready yet (R275, R276). -/
structure ExpSet where
  gen : Nat
  width : Nat
  /-- Writes not issued yet, and whether the set issued any. -/
  writes : List (Nat × Nat)
  issued : Bool
  deriving DecidableEq, Repr

/-- A camera port (R264 to R277). -/
structure Cam where
  /-- Connections that are up, bit n. -/
  conns : Nat := 0
  /-- CHWM (R267). -/
  chwm : Option Int := none
  /-- Number of the next trigger and time of the last one, ns. -/
  next : Nat := 0
  lastTrig : Option Nat := none
  /-- The next trigger is due and held back by the spacing. -/
  heldBack : Bool := false
  /-- The latest epoch, plus 1, that lost a trigger to the pass programme: its frame is not assembled (R268). -/
  void : Nat := 0
  trigs : List Trig := []
  frames : List CamFrame := []
  fifo : List FifoLine := []
  /-- When the last heartbeat came, ns. -/
  hbAt : Nat := 0
  /-- Generation and width in force, the set that is ready for the next frame, and the set in progress. -/
  gen : Nat := 0
  width : Nat := 0
  ready : Option (Nat × Nat) := none
  pending : Option ExpSet := none
  /-- The last set failed: frames are mixed until a set is ready. -/
  failed : Bool := false
  cc : Option CcCmd := none
  /-- Statistics records held (R285). -/
  stsHeld : Nat := 0
  deriving DecidableEq, Repr

/-- Inspection (chapter 12). -/
structure InspSt where
  cams : Cells Cam := []
  /-- Shading tables by INS_SHD_SEL [17:0], and the port map by entry, A + B × 2^32: shadow and live (R273, R278). -/
  shdSh : Cells Nat := []
  shdLive : Cells Nat := []
  mapSh : Cells Nat := []
  mapLive : Cells Nat := []
  /-- Verdict history, RES + 4 RUN + 64 SENT (R289). -/
  hist : Cells Nat := []
  /-- yF of each view's last frame with STATUS OK (R280). -/
  yPrev : Cells (Option Int) := []
  /-- Number of the next verdict record, and records held in the verdict ring (R290). -/
  vseq : Nat := 0
  vrdHeld : Nat := 0
  /-- VERDICT has written entries that no commit it armed or found covers yet (R293). -/
  vrdDirty : Bool := false
  /-- The tap waits for a frame start, runs, and has done this many frames (R287). -/
  tapArmed : Bool := false
  tapRun : Bool := false
  tapDone : Nat := 0
  /-- The last tap frame has started: the tap ends with its last line. -/
  tapEnding : Bool := false
  /-- The last tap frame goes through the compressor. -/
  tapCmp : Bool := false
  /-- Bytes written into the direct tap ring. -/
  tapPos : Nat := 0
  /-- The line in the pipeline, and the port served last (R271). -/
  pipe : Option (Nat × FifoLine) := none
  served : Nat := 1
  /-- Strobe pulses: output, start and end, ns (R277). -/
  pulses : List (Nat × Nat × Nat) := []
  deriving DecidableEq, Repr


/-- The states of a control loop, in units of 2^-22 LU where R296 says so (R301 to R305). -/
structure Loop where
  i : Int := 0
  d : Int := 0
  /-- Notch and lead-lag states. -/
  n1 : Int := 0
  n2 : Int := 0
  l1 : Int := 0
  l2 : Int := 0
  outPrev : Int := 0
  yPrev : Int := 0
  awSide : Int := 0
  limSide : Int := 0
  region : Nat := 0
  /-- The next sample is the first after reset or RST. -/
  fresh : Bool := true
  /-- The coefficient record the previous sample used. -/
  record : List Nat := []
  /-- It was in the schedule in force at the last beat. -/
  inSched : Bool := false
  deriving DecidableEq, Repr

/-- A PWM output: the period that runs (R308). -/
structure Pwm where
  running : Bool := false
  /-- When the period began, ns, and its PERIOD and DUTY, cycles. -/
  since : Nat := 0
  period : Nat := 0
  duty : Nat := 0
  deriving DecidableEq, Repr

/-- What a stepper axis does (R313 to R317). -/
inductive AxisMode where
  | still
  | move
  | homing
  deriving DecidableEq, Repr

/-- A stepper axis (R312 to R320). -/
structure Axis where
  mode : AxisMode := .still
  /-- Direction of travel of the next pulse: positive. -/
  up : Bool := true
  /-- The generator decelerates to reverse. -/
  turn : Bool := false
  /-- Signed steps still to go to the target. -/
  left : Int := 0
  /-- v and a of R314, in units of 2^-16. -/
  v : Nat := 0
  a : Int := 0
  /-- Homing steps issued. -/
  homed : Nat := 0
  /-- When the next STEP edge is due and when the last pulse ends, ns. -/
  due : Nat := 0
  pulseEnd : Nat := 0
  /-- DIR_INV as the DIR ball has it: taken only while v is 0 (R313). -/
  inv : Bool := false
  deriving DecidableEq, Repr

/-- Loops, converters, PWM, pins and axes (chapter 13). -/
structure MotionSt where
  loops : Cells Loop := []
  /-- Coefficient memory by LOOP_CSEL.IDX: shadow and live. -/
  coefSh : Cells Nat := []
  coefLive : Cells Nat := []
  /-- The latest codes of each channel since it was enabled, newest first, and the channel converted last (R297). -/
  codes : Cells (List Nat) := []
  adcLast : Nat := 15
  /-- The ADC bank calibrates (R298, R387). -/
  adcCal : Bool := false
  /-- Accepted edges of each FIN input, newest first: time in 5 ns cycles and beat (R299). -/
  fin : Cells (List (Nat × Nat)) := []
  pwm : Cells Pwm := []
  /-- Accepted levels of the GPIO pins, bit n (R311). -/
  gpioIn : Nat := 0
  axes : Cells Axis := []
  deriving DecidableEq, Repr

/-- A remap entry: an index served by a spare word or line (R341). -/
structure Remap where
  valid : Bool := false
  index : Nat := 0
  poison : Bool := false
  deriving DecidableEq, Repr

/-- A row counted in a bank's tracker of 16 rows (R333). -/
structure RowCount where
  bank : Nat
  row : Nat
  count : Nat
  deriving DecidableEq, Repr



/-- A DRAM request waiting for its column command: requester, row and the instant it came, ns, its 64-byte line, and whether
it writes (R325, R326, R337). -/
structure DramReq where
  master : Nat
  row : Nat
  at_ : Nat
  line : Nat
  write : Bool
  deriving DecidableEq, Repr

/-- A bank of DRAM: the requests accepted, oldest first, at most 8; those that wait for a place or for the end of a change of
rate (R330), and its open row with the column commands that the row has served (R325). -/
structure DramBank where
  queue : List DramReq := []
  wait : List DramReq := []
  open_ : Option (Nat × Nat) := none
  deriving DecidableEq, Repr

/-- A requester that a bank's hot row throttles, and when it was last admitted there, ns (R333). -/
structure Throttle where
  master : Nat
  bank : Nat
  at_ : Nat
  deriving DecidableEq, Repr

/-- What an engine does once a write of it has been performed (R105, R137, R156, R209, R252, R285, R287, R290, R417). -/
inductive AfterWrite where
  /-- The print log's record, a verdict record, a record of port `c`'s statistics, a back-channel record: HEAD advances. -/
  | plog
  | verdict
  | stats (c : Nat)
  | bcr
  /-- `n` bytes of a direct tap. -/
  | tap (n : Nat)
  /-- A received frame, a management message of type `t`. -/
  | rxr
  | mrx (t : Nat)
  /-- DONE in transmit descriptor `h`. -/
  | txDone (h : Nat)
  /-- `k` bytes of the compressor's output; a full buffer's descriptor; a descriptor that cannot be used; the end of the job,
  with HEAD advanced when `adv`. -/
  | cmpData (k : Nat)
  | cmpFull
  | cmpBad
  | cmpEnd (adv part fault : Bool)
  /-- The image of slot `s`, of VERSION `v`, ENTRY `e` and ROLLBACK `r`, is in L2. -/
  | boot (s v e r : Nat)
  /-- A record of the management transmit ring, or port `q`'s share of transmit descriptor `h` for the ports `mask`, whose
  reading was a violation, is passed over (R378). -/
  | mtxSkip
  | txSkip (h q mask : Nat)
  deriving DecidableEq, Repr

/-- What an engine that is held still has to do, in order (R330, R377, R378). -/
inductive HeldStep where
  /-- A write transaction within one line that is not issued yet. -/
  | write (m a : Nat) (bs : List Byte)
  /-- The write that cleated it: passed over at the release, issued again when its bus interface is reset (R409). -/
  | violated (m a : Nat) (bs : List Byte)
  /-- A write issued and permitted that DRAM holds while it changes its rate. -/
  | dram (m a : Nat) (bs : List Byte)
  /-- What follows its writes. -/
  | after (m : Nat) (x : AfterWrite)
  deriving DecidableEq, Repr

/-- A bus transaction issued and permitted that stalls while DRAM changes its rate (R330). -/
structure Stalled where
  master : Nat
  kind : Nat
  addr : Nat
  size : Nat
  data : Nat
  deriving DecidableEq, Repr

/-- A wear indicator (R393): the consumed count at the last evaluation, the running rate and its spread, and what WEAR_L,
WEAR_L90 and WEAR_USED read for it. -/
structure Indicator where
  c : Nat := 0
  r : Int := 0
  s2 : Int := 0
  l : Nat := 0xFFFFFFFF
  l90 : Nat := 0xFFFFFFFF
  used : Nat := 0
  deriving DecidableEq, Repr

/-- A snapshot or restore in progress (R392). A snapshot holds its content once a beat boundary has passed. -/
structure WearCopy where
  restore : Bool
  taken : Bool := false
  wear : Cells Nat := []
  steps : List Nat := []
  deriving DecidableEq, Repr

/-- Calibration and wear (chapter 17). -/
structure TrimSt where
  /-- When the wear indicators were last evaluated, ns (R387, R393). -/
  evalAt : Nat := 0
  /-- Applied values of the die trim codes (R391); one not listed stands at its 35 °C value of OTP. -/
  applied : Cells (Option Int) := []
  /-- The tap each port's calibrator measures next, its rejects in a row, and the beat measured last, plus 1 (R384). -/
  tapNext : Cells Nat := []
  tapRejects : Cells Nat := []
  tapBeat : Cells Nat := []
  /-- The correction of pair `q` of input `e`, sine and cosine, at key 4 e + 2 q + channel, 1/16 code (R386). -/
  pairCorr : Cells Int := []
  /-- The junction sensor that calibrates, and the next one (R387). -/
  tjCal : Option Nat := none
  tjNext : Nat := 0
  /-- A plan was active at a beat boundary of this hour (R393). -/
  inService : Bool := false
  indicators : Cells Indicator := []
  /-- t_eq at the last evaluation (R395). -/
  teqLast : Nat := 0
  copy : Option WearCopy := none
  deriving DecidableEq, Repr


/-- A reef episode in progress on a supervised rail (R403 to R406). -/
structure Reef where
  /-- Free-running time of entry, ns. -/
  since : Nat
  /-- Beat of entry. -/
  beat : Nat
  /-- The hold has been exceeded and the REEF record written (R406). -/
  held : Bool
  deriving DecidableEq, Repr

/-- The block. Every default is the reset value. -/
structure Dev where
  -- Power, time and the register window
  /-- Power phase (R402, R407, R415). -/
  power : Power := .run
  /-- PWR_EN is driven high (R415). -/
  pwrEn : Bool := true
  /-- When PWR_SLEEP.SLEEP was accepted, ns; entry into standby is then under way (R415). -/
  sleepAt : Option Nat := none
  /-- Free-running time since power was applied, ns (assumption 1). -/
  now : Nat := 0
  /-- `now` at the last SYS reset's release: the boot watchdog starts there (R419). -/
  resetAt : Nat := 0
  /-- The local clock in units of 2^-48 ns (R64, assumption 6). -/
  clk : Nat := 0
  /-- The registers, by byte offset in the register window; an unlisted one reads its reset value (R425). -/
  regs : Cells Word := []
  /-- A SYS reset requested by this command, with its PWR_RST_CAUSE bit; performed at the command's end (R408). -/
  sysReq : Option Nat := none
  /-- Whether the requested reset is held until its rail recovers (R407). -/
  sysHold : Bool := false
  /-- Rollback fuses this command asks to have burnt up to; performed at the command's end (R420). -/
  burnReq : Nat := 0
  /-- What this command puts on the balls and links, newest first; moved to `State.wire` at its end. -/
  out : List Out := []
  /-- Free values drawn so far (the model's own counter, log entry 11). -/
  freeCtr : Nat := 0
  /-- The answer of the last bus transaction (the model's own, assumption 9). -/
  busResp : BusResp := .none
  /-- The level each block gives its output balls, by ball key (`pinKey`); an unlisted one is 0 (R411). -/
  pins : Cells Nat := []
  /-- The beat number at the last beat boundary performed (R17). -/
  lastBeat : Nat := 0
  -- Commits (chapters 02, 19)
  /-- The armed commit of each page (R435). -/
  armed : Cells (Option Armed) := []
  /-- The plan check in progress (R24). -/
  planCheck : Option PlanCheck := none
  /-- EVENT messages waiting to be sent, oldest first, at most 32 (R118). -/
  evq : List EventMsg := []
  -- Plans and epochs (chapter 02); epochs are counted from plan activation, number = EPOCH0 + count (R32)
  /-- Captured configurations, newest first; the last one is the configuration before any capture. -/
  versions : List Version := [{}]
  /-- The newest epoch, plus 1, whose first line has entered stage 2 on any plane: the live half of fire-stream pages; 0 while
  none has, and it shows the configuration before any capture (R433). -/
  liveOrd : Nat := 0
  /-- The same for each plane, for table ports that name one (R433, NOZ_LIVE). -/
  planeLive : Cells Nat := []
  /-- Number of the first epoch of the active plan (R32). -/
  epoch0 : Nat := 0
  /-- The newest epoch whose cut-off has passed, plus 1; 0 before any (R30). -/
  cutoffDone : Nat := 0
  /-- A pending PLAN_STOP: 0 none, 1 after the epoch in `stopOrd`, 2 after the line in progress (R34). -/
  stopMode : Nat := 0
  stopOrd : Nat := 0
  /-- JOB of the plan in force (R107, R211). -/
  planJob : Nat := 0
  /-- SCR_PASS has been written since page 0x11 was last captured (R203). -/
  passWritten : Bool := false
  /-- Shadow tables of the fire-stream pages (R188, R190, R220, R389, R390). -/
  nozSh : Cells Nat := []
  tileSh : Cells Word := []
  waveSh : Cells Word := []
  ftrimSh : Cells Word := []
  dtrimSh : Cells Nat := []
  /-- The cycle, plus 1, of the latest write of a shadow half, and the shadow halves before that cycle's writes (R437). -/
  shAt : Nat := 0
  shOld : Shadows := {}
  -- Web position (chapter 03)
  encs : Cells Enc := []
  /-- Levels on the balls of QD[i]: A in bit 0, B in bit 1, Z in bit 2 (R40). -/
  qdIn : Cells Nat := []
  /-- The latest accepted published sample (R61). -/
  venc : Option VencSample := none
  /-- Beats without an accepted sample while monitored (R61). -/
  vencIdle : Nat := 0
  /-- A sample has been accepted, or the count of beats begun, in the beat in progress (R61). -/
  vencFresh : Bool := false
  /-- The publisher has fallen back to the other unit, and the offset it subtracts (R59). -/
  pubFb : Bool := false
  pubDelta : Option Int := none
  /-- The SEQs accepted lately, newest first (R61). -/
  vencSeqs : List Nat := []
  /-- The last 50 ns instant at which the VENC position was derived (R62). -/
  vencAt : Nat := 0
  /-- The sample that a publisher sends in the beat in progress: it is formed at every boundary (R59, R60). -/
  vencOut : List Byte := []
  /-- The one of the beat before, for a launch that falls in the next beat (R259). -/
  vencPrev : List Byte := []
  -- Network time and timed pulses (chapter 04)
  tm : TimeSt := {}
  -- Ethernet ports and paths (chapter 05)
  path : PathSt := {}
  -- Jeulay Transport Protocol (chapter 06)
  jtp : JtpSt := {}
  -- Codec (chapter 07)
  /-- The compressor's job; BUSY is CMP_STAT.BUSY. -/
  cmp : CmpJob := {}
  /-- CODEC_ERR holds the first failure since CODEC_ERR_CNT was last read (R153). -/
  codecErrHeld : Bool := false
  -- Job store and pipeline (chapter 08)
  streams : Cells Stream := []
  /-- Copy-order slots written by messages that CUM has not passed, with a count (R164, R166). -/
  corPending : Cells Nat := []
  /-- Captured copies, by epoch counted from activation. -/
  copies : Cells Copy := []
  planes : Cells Plane := []
  -- Print log and wear (chapter 09)
  /-- Records held in the print-log ring (R209). -/
  plogHeld : Nat := 0
  /-- Records in the on-chip reserve, oldest first, at most 64 (R210). -/
  plogReserve : List (List Byte) := []
  /-- Records dropped and not yet stated by a LOSS record (R210). -/
  plogLost : Nat := 0
  /-- Actuation counters by global nozzle index (R189). -/
  wear : Cells Nat := []
  /-- The values last written to NOZ_SH_HI and NOZ_WEAR_HI, which a write of the _LO register takes (chapter 09). -/
  nozHi : Nat := 0
  wearHi : Nat := 0
  -- Firing and head protection (chapter 10)
  heads : Cells Head := []
  /-- Calibrated tap delays of each port, tap t of port h at 256 h + t, in ps plus 1; unlisted is the nominal 40 t (R217). -/
  taus : Cells Nat := []
  /-- Taps measured since SYS reset, at 256 h + t (R217, R384). -/
  tapSeen : Cells Bool := []
  /-- Copies marked for rejection and not yet driven, oldest first (R233, R234). -/
  rejects : List Nat := []
  /-- Mark points of copies of plans that have ended, as counts of plane REJ_PLANE, oldest first (R233). -/
  rejectPts : List Int := []
  /-- When REJECT_MARK falls, ns of free-running time (R233). -/
  rejectEnd : Option Nat := none
  /-- Ports whose new schedule is to be sent in the next beat, bit h (R224). -/
  schedDue : Nat := 0
  -- Gweat lanes (chapter 11)
  /-- The links: 0 to 31 the head ports, 32 the east and 33 the west stay port (R253). -/
  links : Cells Link := []
  /-- By how much the down-spread had put the head-port lanes back, ps, when LANES_CFG.SSC was last changed, and when that was,
  ns (R237). -/
  sscLag : Int := 0
  sscAt : Nat := 0
  /-- The stay ring (R258 to R263). -/
  stay : StaySt := {}
  -- In-line inspection (chapter 12)
  insp : InspSt := {}
  -- Fluid loops and maintenance motion (chapter 13)
  mot : MotionSt := {}
  -- External memory and error correction (chapter 14)
  /-- DRAM by physical address (R322); an unlisted byte reads 0 (assumption 3). -/
  dram : Cells Byte := []
  /-- Poisoned words and lines: at `ueKey class index`, the mask of bytes not yet rewritten; 0 when sound (R338, R341). -/
  ue : Cells Nat := []
  /-- Remap entries, entry e of group g at key 64 g + e (R341). -/
  remap : Cells Remap := []
  /-- Class and index pairs waiting for an automatic install (R342). -/
  autoWant : List (Nat × Nat) := []
  /-- A training run started by DPHY_CTL.TRAIN is in progress (R328). -/
  training : Bool := false
  /-- The rates whose training results are stored, with the results, the latest first, at most two (R330). -/
  trainedRates : List (Nat × List Word) := []
  /-- DPHY_EYE of each lane (R328, R329). -/
  eyes : Cells Word := []
  /-- Same-bank refreshes done (R327, R329). -/
  refsbCount : Nat := 0
  /-- The lane whose read delay is recentred next (R329). -/
  trackLane : Nat := 0
  /-- Ranks in power-down, bit r (R331). -/
  rankDown : Nat := 0
  /-- When each rank last received a command, ns (R331). -/
  rankUsed : Cells Nat := []
  /-- The row-activate trackers, at most 16 rows per bank (R333). -/
  rows : List RowCount := []
  /-- Requesters throttled on a bank until the window ends (R333). -/
  throttled : List Throttle := []
  /-- The DRAM interface holds RESET_n low and CS_n high, from the moment VDDQ is present until the DRAM is trained (R411). -/
  dramHeld : Bool := true
  /-- The banks with requests or an open row (R325). -/
  banks : Cells DramBank := []
  /-- The bank of each subchannel that last received an ACTIVATE, plus 1 (R325). -/
  lastAct : Cells Nat := []
  /-- Transactions that wait for a change of rate to end (R330). -/
  stalled : List Stalled := []
  /-- The 64-byte line the scrubber reads next (R337). -/
  scrubPos : Nat := 0
  /-- When each bucket last leaked, ns (R340). -/
  leakAt : Cells Nat := []
  /-- The last leak of each bucket with LEVEL and OVER before it, while a correction in the same cycle can cancel it
  (R340). -/
  leakUndo : Cells (Option (Nat × Nat × Bool)) := []
  -- Management domain (chapter 15)
  /-- Address each core executes at (R343, R354); core 0 starts in the boot ROM (R367). -/
  corePc : Cells Nat := []
  /-- The level source each core accepted whose status register it has not read yet, plus 1 (R358). -/
  spurWatch : Cells Nat := []
  /-- A MGMT reset requested and not yet applied, with its cause (R365). -/
  mgmtReq : Option Nat := none
  /-- When each core's watchdog counter was last reloaded, ns; while its RUN bit is 0, the ns it had counted (R364). -/
  wdogAt : Cells Nat := []
  /-- Whether each core's watchdog has reached 0 since its last kick (R364). -/
  wdogHit : Cells Bool := []
  /-- Wake latches, bit i for WAKE[i] (R359, R414). -/
  wakeLatch : Nat := 0
  /-- L2 serves as on-chip RAM, as the boot ROM sets it up (R417, R422, R423). -/
  l2Ram : Bool := true
  /-- L2's bytes while it is on-chip RAM, by offset (R417, R422). -/
  l2 : Cells Byte := []
  /-- Pages whose write of EN = 1 during STOPPING is held until IDLE (R361). -/
  enHeld : Cells Bool := []
  -- Shroud (chapter 16)
  /-- The 128 regions, word j of region r at key 4 r + j (R371, R374). -/
  regions : Cells Word := []
  /-- What engines that are held still have to do (R330, R377, R378). -/
  heldSteps : List HeldStep := []
  /-- Writes of engines to registers, performed at the end of the command: byte offset in the register window, size and
  value (R424). -/
  regWrites : List (Nat × Nat × Nat) := []
  /-- When SHROUD_VIO_INFO was captured, ns (R376). -/
  vioAt : Nat := 0
  -- Calibration and wear (chapter 17)
  trim : TrimSt := {}
  -- Supervision, reset and boot (chapter 18)
  /-- The reef episode of each supervised rail: 0 VDD_CORE, 1 VDD_IO33 (R403). -/
  reef : Cells (Option Reef) := []
  /-- The boot ROM has jumped, which stops the boot watchdog (R419). -/
  booted : Bool := false
  /-- Core 0 has halted in the boot ROM: neither slot was valid (R419). -/
  bootHalted : Bool := false
  /-- ROLLBACK of the running image (R420). -/
  runRollback : Nat := 0
  /-- When each PLL lost its lock, ns: P, M, T, D (R400). -/
  pllLostAt : Cells (Option Nat) := []
  /-- LENGTH of the verified warm image (R421). -/
  warmLen : Nat := 0
  /-- ENTRY, ROLLBACK and VERSION of the verified warm image (R421). -/
  warmEntry : Nat := 0
  warmRollback : Nat := 0
  warmVersion : Nat := 0
  /-- When the wake timer started counting, ns (R415). -/
  standbyAt : Nat := 0
  deriving DecidableEq, Repr

/-- The machine: the block, its rollback fuses, its outputs so far and the commands waiting. -/
structure State where
  /-- The block. -/
  dev : Dev := {}
  /-- Rollback fuses burnt since manufacture, beyond `Config.otpRollback`; burning is permanent (R420). -/
  fuses : Nat := 0
  /-- Everything put on the balls and links, newest first (the model's own record, assumption 9). -/
  wire : List Out := []
  /-- The commands waiting, first in, first out. -/
  pending : List Instr := []
  deriving DecidableEq, Repr

/-- Why the machine can stop with a fault. No command of the table raises one: every command has an effect the spec
gives (log entry 8). -/
inductive Fault where
  /-- Raised by no command; kept so that the interface has a named reason. Safe: it would only stop a run. -/
  | unreachable
  deriving DecidableEq, Repr

/-- Why the machine can refuse a command. -/
inductive Refusal where
  /-- The command has no meaning in the model. Raised only by an arm of `exec` that says so. Safe. -/
  | notModelled (mnemonic : String)
  deriving DecidableEq, Repr

/-- The block right after reset: every field at its reset value, VBAT and the core rails just applied, so that
PWR_RST_CAUSE reads VBAT_POR, POR and COUNT 1 (R410, assumption 13). -/
def Dev.reset : Dev := {}

/-- The machine right after reset. -/
def State.reset : State := {}

end Sys2Proof.Machine
end

