-- ==== Sys2Proof/Machine/Ops.lean ====
section
/-! DEFINITION. The operations every unit shares: reading and writing registers and their fields, the page header,
page faults (R429, R431), block events and the event sources they ring (R346 to R350), time and beats (R17, R64), output
balls (R411), the EVENT queue (R133) and free values. -/
namespace Sys2Proof.Machine

/-! ### The register map -/

/-- Whether page offset `off` is one of the words of register (array) `d`. -/
def descCovers (d : RegDesc) (off : Nat) : Bool :=
  decide (d.off ≤ off) &&
  (let r := off - d.off
   let i := if d.s1 = 0 then 0 else r / d.s1
   let q := if d.s1 = 0 then r else r % d.s1
   let j := if d.s2 = 0 then 0 else q / d.s2
   let z := if d.s2 = 0 then q else q % d.s2
   decide (i < d.n1) && decide (j < d.n2) && z == 0)

/-- The always-on pages (R428). -/
def pageAlwaysOn (p : Nat) : Bool :=
  [0x00, 0x01, 0x02, 0x54, 0x55, 0x56, 0x57, 0x58, 0x59, 0x5A, 0x5D, 0x5E].contains p

/-- The fire-stream pages (R29). -/
def pageFire (p : Nat) : Bool :=
  [0x04, 0x0F, 0x11, 0x12, 0x13, 0x14, 0x5B].contains p || (decide (0x20 ≤ p) && decide (p ≤ 0x3F))

/-- Whether the page index lists page `p` (R425). -/
def pageListed (p : Nat) : Bool := (pageDescs p).isSome

/-- PG_CAP.SHADOW: the page has RWS fields or shadow tables (R427). -/
def pageShadow (p : Nat) : Bool :=
  [0x12, 0x14].contains p || ((pageDescs p).getD []).any (fun d => d.rws != 0)

/-- PG_CAP.BINDS: the page can be bound under R363. -/
def pageBinds (p : Nat) : Bool :=
  [0x03, 0x04, 0x08, 0x05, 0x06, 0x07, 0x0E, 0x0F, 0x11, 0x12, 0x13, 0x14, 0x40, 0x5F, 0x41, 0x42, 0x43, 0x44, 0x45,
    0x48, 0x50, 0x51].contains p || (decide (0x20 ≤ p) && decide (p ≤ 0x3F))

/-- PG_CAP.NEVT: block event bits from PG_EVT bit 8 (R430). -/
def pageNevt (p : Nat) : Nat :=
  if 0x20 ≤ p ∧ p ≤ 0x3F then 3 else
  match p with
  | 0x02 => 2 | 0x03 => 1 | 0x05 => 2 | 0x06 => 2 | 0x07 => 6 | 0x08 => 4 | 0x0A => 1 | 0x0B => 1 | 0x0C => 3
  | 0x0D => 2 | 0x0E => 3 | 0x10 => 3 | 0x12 => 1 | 0x40 => 1 | 0x41 => 1 | 0x42 => 1 | 0x43 => 1 | 0x44 => 1
  | 0x46 => 1 | 0x48 => 1 | 0x4B => 1 | 0x4C => 16 | 0x50 => 2 | 0x52 => 16 | 0x53 => 1 | 0x54 => 1 | 0x5B => 1
  | 0x5C => 1 | 0x5D => 2 | 0x5F => 2 | _ => 0

/-- The shared source a page raises, 0x1FF where it owns none (R347, R348). -/
def pageSource (p : Nat) : Nat :=
  if 0x20 ≤ p ∧ p ≤ 0x3F then p else
  match p with
  | 0x54 => 0 | 0x5A => 1 | 0x5D => 2 | 0x52 => 3 | 0x50 => 4 | 0x51 => 5 | 0x53 => 6 | 0x03 => 7 | 0x04 => 8
  | 0x0E => 9 | 0x0F => 10 | 0x10 => 11 | 0x11 => 12 | 0x12 => 13 | 0x13 => 14 | 0x14 => 15 | 0x05 => 16 | 0x06 => 17
  | 0x07 => 18 | 0x08 => 19 | 0x09 => 20 | 0x0A => 21 | 0x0B => 22 | 0x0C => 23 | 0x0D => 24 | 0x40 => 28 | 0x5F => 30
  | 0x5B => 31 | 0x41 => 64 | 0x42 => 65 | 0x43 => 66 | 0x44 => 67 | 0x45 => 68 | 0x46 => 69 | 0x48 => 70 | 0x49 => 71
  | 0x4A => 72 | 0x4B => 73 | 0x4C => 74 | 0x5C => 75 | 0x01 => 76 | 0x02 => 77 | 0x00 => 78 | 0x5E => 79
  | _ => 0x1FF

/-- The page that owns level source `n` through its PG_EVT, if any (R347, R348). -/
def sourcePage (n : Nat) : Option Nat :=
  if 32 ≤ n ∧ n ≤ 63 then some n else
  (List.range 0x60).find? (fun p => decide (n < 256) && pageSource p == n && pageListed p)

/-- Whether shared source `n` is a level source (R348). -/
def sourceLevel (n : Nat) : Bool :=
  decide (n ≤ 79) && !([25, 26, 27, 29].contains n) || (decide (88 ≤ n) && decide (n ≤ 91))

/-- Whether the handler of source `n` runs at Monitor level in any case (R348). -/
def sourceMonFixed (n : Nat) : Bool := n == 0 || n == 1 || (decide (88 ≤ n) && decide (n ≤ 91))

/-- The default group of master `m` (R369); identities 18 to 47 are reserved and read group 0. -/
def masterGroup (m : Nat) : Nat :=
  match m with
  | 4 => 1 | 5 => 2 | 6 => 1 | 7 => 1 | 8 => 3 | 9 => 4 | 10 => 3 | 11 => 4 | 12 => 4 | 13 => 4 | 14 => 1 | 15 => 5
  | 16 => 5 | 17 => 6 | _ => 0

/-- The page of the block that owns master `m` (R369). -/
def masterPage (m : Nat) : Nat :=
  match m with
  | 0 => 0x56 | 1 => 0x57 | 2 => 0x58 | 3 => 0x59 | 4 => 0x0D | 5 => 0x0D | 6 => 0x0D | 7 => 0x0C | 8 => 0x0E
  | 9 => 0x10 | 10 => 0x12 | 11 => 0x43 | 12 => 0x44 | 13 => 0x45 | 14 => 0x40 | 15 => 0x50 | 16 => 0x53 | _ => 0x5E

/-- TIME_TSC[i] at reset (R450). -/
def tscReset (i : Nat) : Nat :=
  match i % 4 with
  | 0 => 0x00268000 | 1 => 0x00184000 | 2 => 0x003D8000 | _ => 0x00290000

/-- The reset value of the header word at offset `off` of page `p` (R427, R429). -/
def headerReset (p off : Nat) : Nat :=
  match off with
  | 0x00 => p + (p - pageType p) * 2 ^ 8 + pageType p * 2 ^ 16
  | 0x04 => 0xA1
  | 0x08 => b2n (pageShadow p) + 2 * b2n (pageFire p) + 4 * b2n (pageBinds p) + 8 * b2n (pageAlwaysOn p)
      + pageNevt p * 2 ^ 8
  | 0x0C => if pageAlwaysOn p then 1 else 0
  | 0x10 => if pageAlwaysOn p then 1 else 2
  | 0x1C => pageSource p
  | _ => 0

/-- Reset values the register tables do not give as a plain number: the identifier, timestamp corrections, the colour
matrix diagonal, master groups, event routes, die trims, the rollback counter and the forecast table (R390, R420, R450,
R369, R348, R461). -/
def specialReset (p off : Nat) : Option Nat :=
  match p with
  | 0x00 => if off = 0x48 then some (Config.deviceUid % 2 ^ 32)
            else if off = 0x4C then some (Config.deviceUid / 2 ^ 32 % 2 ^ 32) else none
  | 0x08 => if 0x100 ≤ off ∧ off < 0x120 then some (tscReset ((off - 0x100) / 4)) else none
  | 0x43 => if 0x80 ≤ off ∧ off < 0xE0 then
              let k := (off - 0x80) % 0x30
              if k = 0 ∨ k = 16 ∨ k = 32 then some 0x1000 else none
            else none
  | 0x54 => if 0x100 ≤ off ∧ off < 0x1C0 then
              let m := (off - 0x100) / 4
              some (masterGroup m + 1 * 2 ^ 3 + b2n (m == 8) * 2 ^ 5)
            else none
  | 0x55 => if 0x100 ≤ off ∧ off < 0x500 then
              let n := (off - 0x100) / 4
              some (b2n (sourceMonFixed n) * 4 + b2n (sourceLevel n) * 8)
            else none
  | 0x5E => if off = 0x40 then some (Config.otpRollback % 128 * 2 ^ 8) else none
  | _ => none

/-- The register (array) at page offset `off` (0x040 to 0x7FF) of page `p`, if the tables have one. -/
def regDesc (p off : Nat) : Option RegDesc := ((pageDescs p).getD []).find? (fun d => descCovers d off)

/-- What the register at byte offset `a` of the register window reads after reset, live or shadow half. -/
def resetWord (a : Nat) : Word :=
  let p := a / 0x1000
  let off := a % 0x1000
  if off < 0x40 then BitVec.ofNat 32 (headerReset p off) else
  let x := if 0x840 ≤ off then off - 0x800 else off
  match specialReset p x with
  | some v => BitVec.ofNat 32 v
  | none => match regDesc p x with
    | some d => BitVec.ofNat 32 d.reset
    | none => 0

/-- The register at byte offset `a` of the register window; `a + 0x800` is its shadow (R432). -/
def Dev.reg (d : Dev) (a : Nat) : Word := cellGet (resetWord a) d.regs a

def Dev.setReg (d : Dev) (a : Nat) (w : Word) : Dev := { d with regs := cellSet (resetWord a) d.regs a w }

/-- A register field as an unsigned number. -/
def Dev.get (d : Dev) (f : RegField) : Nat := bits (d.reg f.addr).toNat f.lo f.width

/-- A one-bit field as a truth value. -/
def Dev.getB (d : Dev) (f : RegField) : Bool := d.get f != 0

/-- A register field as a two's complement number. -/
def Dev.getI (d : Dev) (f : RegField) : Int := toSigned f.width (d.get f)

/-- Put `v` into a field, whatever its access code: what the hardware does to its own registers. -/
def Dev.put (d : Dev) (f : RegField) (v : Nat) : Dev :=
  d.setReg f.addr (BitVec.ofNat 32 (setBits (d.reg f.addr).toNat f.lo f.width v))

def Dev.putB (d : Dev) (f : RegField) (b : Bool) : Dev := d.put f (b2n b)

def Dev.putI (d : Dev) (f : RegField) (v : Int) : Dev := d.put f (ofSigned f.width v)

/-- A counter field that saturates at its width. -/
def Dev.count (d : Dev) (f : RegField) (n : Nat) : Dev := d.put f (satInc f.width (d.get f) n)

/-- The shadow of a field (R432). -/
def shadowOf (f : RegField) : RegField := { f with addr := f.addr + 0x800 }

/-- A 40-bit or wider address held in a LO and a HI field. -/
def Dev.get2 (d : Dev) (lo hi : RegField) : Nat := d.get lo + d.get hi * 2 ^ 32

def Dev.put2 (d : Dev) (lo hi : RegField) (v : Nat) : Dev := (d.put lo v).put hi (v / 2 ^ 32)

/-! ### Event sources -/

/-- The core that shared source `n` is routed to (R351). -/
def Dev.routeOf (d : Dev) (n : Nat) : Nat := d.get (F.EVT_ROUTE_CORE n)

def Dev.sharedPending (d : Dev) (n : Nat) : Bool := bit (d.get (F.EVT_PEND_PEND (n / 32))) (n % 32)

def Dev.setSharedPending (d : Dev) (n : Nat) (b : Bool) : Dev :=
  let w := d.get (F.EVT_PEND_PEND (n / 32))
  d.put (F.EVT_PEND_PEND (n / 32)) (if b then setBit w (n % 32) else clearBits w (2 ^ (n % 32)))

/-- Ring shared source `n`: it becomes pending, or is coalesced into the pending one and counted at its core (R349). -/
def Dev.ring (d : Dev) (n : Nat) : Dev :=
  if d.sharedPending n then d.count (F.EVTC_CNT_COAL (d.routeOf n)) 1 else d.setSharedPending n true

/-- Ring private source `n` (256 to 287) of core `c` (R348, R349). -/
def Dev.ringPrivate (d : Dev) (c n : Nat) : Dev :=
  let w := d.get (F.EVTC_PEND_PEND c)
  if bit w (n - 256) then d.count (F.EVTC_CNT_COAL c) 1 else d.put (F.EVTC_PEND_PEND c) (setBit w (n - 256))

/-- The condition of level source `n` (R347, R348). -/
def Dev.sourceCond (d : Dev) (n : Nat) : Bool :=
  if 88 ≤ n ∧ n ≤ 91 then bit (d.get F.WDOG_STAT_BARK) (n - 88)
  else match sourcePage n with
    | some p => (d.get (F.PG_EVT_EN_EN p) &&& (d.reg (R.PG_EVT p)).toNat) != 0
    | none => false

/-- Perform `f` and let level source `n` follow its condition: rung when it becomes true, no longer pending when it
becomes false before acceptance (R346, R349). -/
def Dev.withSource (d : Dev) (n : Nat) (f : Dev → Dev) : Dev :=
  let c0 := d.sourceCond n
  let e := f d
  let c1 := e.sourceCond n
  if !c0 && c1 then e.ring n else if c0 && !c1 then e.setSharedPending n false else e

/-- Set the bits `m` of PG_EVT of page `p` (R429); the page's source follows (R347). -/
def Dev.raiseBits (d : Dev) (p m : Nat) : Dev :=
  d.withSource (pageSource p) (fun e => e.setReg (R.PG_EVT p) (e.reg (R.PG_EVT p) ||| BitVec.ofNat 32 m))

/-- Raise block event `k` of page `p`, counted from PG_EVT bit 8 in the order of R430. -/
def Dev.raise (d : Dev) (p k : Nat) : Dev := d.raiseBits p (2 ^ (8 + k))

/-- Write PG_EVT of page `p` with `w`: bits written 1 clear (R5, R429). -/
def Dev.clearEvt (d : Dev) (p : Nat) (w : Word) : Dev :=
  d.withSource (pageSource p) (fun e => e.setReg (R.PG_EVT p) (e.reg (R.PG_EVT p) &&& ~~~w))

def Dev.setEvtEn (d : Dev) (p : Nat) (w : Word) : Dev :=
  d.withSource (pageSource p) (fun e => e.setReg (R.PG_EVT_EN p) w)

/-! ### Page faults -/

/-- PG_FAULT codes (R431). -/
def faultRefused : Nat := 0x01
def faultBound : Nat := 0x02
def faultWidth : Nat := 0x03
def faultCommitBusy : Nat := 0x04

/-- Capture fault `code` on page `p`, caused by an access at page offset `off`: the first one is held with its offset and
raises PG_EVT.FAULT, a later one sets OVF (R429, R431). -/
def Dev.pgFault (d : Dev) (p code off : Nat) : Dev :=
  if d.getB (F.PG_FAULT_VALID p) then d.put (F.PG_FAULT_OVF p) 1
  else
    ((((d.put (F.PG_FAULT_CODE p) code).put (F.PG_FAULT_VALID p) 1).put (F.PG_FAULT_INFO_OFFSET p) off).put
      (F.PG_FAULT_INFO_SHADOW p) (b2n (decide (0x840 ≤ off)))).raiseBits p 1

/-- A write at byte offset `a` of the register window refused by its block's own rule. -/
def Dev.refuseAt (d : Dev) (a : Nat) : Dev := d.pgFault (a / 0x1000) faultRefused (a % 0x1000)

/-! ### Time and beats -/

/-- 1 ns of the local clock (R64: 48 fraction bits). -/
def nsUnit : Nat := 2 ^ 48

/-- The local clock as N_t = seconds × 1,000,000,000 + nanoseconds (R17). -/
def Dev.nt (d : Dev) : Nat := d.clk / nsUnit

/-- The beat length, ns, as the live PLAN_GLOBAL.BEAT_LEN gives it (R17). -/
def Dev.beatLen (d : Dev) : Nat := if d.getB F.PLAN_GLOBAL_BEAT_LEN then 5000 else 4000

/-- The number of the beat in progress (R17). -/
def Dev.beatNum (d : Dev) : Nat := (d.nt - d.get F.BEAT_PHASE_PHASE % d.beatLen) / d.beatLen % 2 ^ 64

/-- The local-clock instant (N_t, ns) at which beat `k` opens (R17). -/
def Dev.beatStart (d : Dev) (k : Nat) : Nat := k * d.beatLen + d.get F.BEAT_PHASE_PHASE % d.beatLen

/-- What one cycle of the 500 MHz time clock adds to the local clock: 2 × (1 + FREQ × 2^-10 × 10^-9) ns, in 2^-48 ns (R64).
R64 states no rounding: the step is rounded down, and a reading drops the bits below its own fraction (DESIGN CHOICE, log entry
118). -/
def clockStep (freq : Int) : Nat := ((2 * nsUnit : Nat) + 2 * freq * (2 ^ 38 : Nat) / 1000000000).toNat

/-- The cycles of the time clock from free-running time `a` to `b`, ns: one ends at every even ns (assumption 6). -/
def clockCycles (a b : Nat) : Nat := b / 2 - a / 2

/-- Let `dt` ns of free-running time pass: the local clock advances at every cycle in it (R64). -/
def Dev.elapse (d : Dev) (dt : Nat) : Dev :=
  { d with
    now := d.now + dt
    clk := d.clk + clockCycles d.now (d.now + dt) * clockStep (d.getI F.TIME_FREQ_FREQ) }

/-! ### Outputs -/

/-- The key of a ball in `Dev.pins`. -/
def pinKey (p : OutPin) (i : Nat) : Nat :=
  i + 64 * match p with
    | .headCutN => 0 | .seamReq => 1 | .rejectMark => 2 | .tpulse => 3 | .strb => 4 | .cxu => 5 | .pwm => 6 | .step => 7
    | .dir => 8 | .ena => 9 | .isel => 10 | .gpio => 11

/-- The PWR_OE bit of a ball's group (R411). -/
def pinGroup (p : OutPin) : Nat :=
  match p with
  | .headCutN => 1 | .seamReq => 2 | .rejectMark => 2 | .tpulse => 3 | .strb => 4 | .cxu => 5 | .pwm => 6 | .step => 7
  | .dir => 7 | .ena => 7 | .isel => 7 | .gpio => 8

def Dev.emit (d : Dev) (o : Out) : Dev := { d with out := o :: d.out }

/-- What REFOUT[j] carries: nothing while its bit is 0 or the reference is lost (R237, R400). -/
def refoutLevel (d : Dev) (j : Nat) : Nat :=
  if bit (d.get F.LANES_CFG_REFOUT_EN) j && !d.getB F.CLK_STAT_REF_LOST then 1 + d.get F.LANES_CFG_SSC else 0

/-- The REFOUT pairs change from what they carried in `old`. -/
def refoutFollow (old d : Dev) : Dev :=
  forN 8 (fun j e => if refoutLevel old j = refoutLevel d j then e else e.emit (.refout j (refoutLevel d j))) d

/-- The REFOUT pairs stop with LANES_CFG at its reset value (R237). -/
def refoutOff (d : Dev) : Dev := forN 8 (fun j e => if refoutLevel d j = 0 then e else e.emit (.refout j 0)) d

/-- The DRAM interface is held in reset (R411), or released. -/
def dramHold (v : Bool) (d : Dev) : Dev := if d.dramHeld = v then d else { d with dramHeld := v }.emit (.dramHeld (b2n v))

def Dev.pinLevel (d : Dev) (p : OutPin) (i : Nat) : Nat := cellGet 0 d.pins (pinKey p i)

/-- A block gives its ball a level; the ball shows it while its group is driven (R411). -/
def Dev.drive (d : Dev) (p : OutPin) (i v : Nat) : Dev :=
  let e := { d with pins := cellSet 0 d.pins (pinKey p i) v }
  if d.pinLevel p i != v && bit (d.reg R.PWR_OE).toNat (pinGroup p) then e.emit (.pin p i v) else e

/-! ### EVENT messages and free values -/

/-- The sessions that are OPEN, bit s (R121). -/
def Dev.openSessions (d : Dev) : Nat :=
  ((List.range 16).filter (fun s => d.get (F.SESS_STAT_STATE s) == 2)).foldl setBit 0

/-- Put an EVENT payload into the queue for the sessions of `todo`; with 32 waiting it is dropped (R118). -/
def Dev.queueEvent (d : Dev) (todo : Nat) (payload : List Byte) : Dev :=
  if todo = 0 then d
  else if 32 ≤ d.evq.length then d.count F.CNT_EVT_DROP_CNT 1
  else { d with evq := d.evq ++ [⟨todo, payload⟩] }

/-- Queue the hardware EVENT `code` for every OPEN session, if JTP_EVT_EN has its bit (R118, R133). -/
def Dev.sendEvent (d : Dev) (code plane line info0 info1 : Nat) : Dev :=
  if !bit (d.get F.JTP_EVT_EN_EN) (code - 1) then d
  else d.queueEvent d.openSessions
    (beBytes 1 code ++ beBytes 1 plane ++ beBytes 2 0 ++ beBytes 4 d.beatNum ++ beBytes 6 line ++ beBytes 2 0
      ++ beBytes 4 info0 ++ beBytes 4 info1)

/-- Records of type `t` under way in JTP messages are no longer those of their ring: it has been emptied (R209, R290). -/
def Dev.forgetRecords (d : Dev) (t : Nat) : Dev :=
  let f (m : SentMsg) : SentMsg := if m.type = t then { m with records := 0 } else m
  { d with jtp := { d.jtp with
      sess := d.jtp.sess.map (fun e => (e.1, { e.2 with sent := e.2.sent.map f }))
      vrdSent := if t = 0x0B then 0 else d.jtp.vrdSent
      plogSent := if t = 0x0D then 0 else d.jtp.plogSent } }

/-- The shadow halves with the note that SCR_PASS is new (R432). -/
def shadowsOf (d : Dev) : Shadows :=
  { regs := d.regs.filter (fun c => decide (0x800 ≤ c.1 % 0x1000)), noz := d.nozSh, tile := d.tileSh, wave := d.waveSh
    ftrim := d.ftrimSh, dtrim := d.dtrimSh, coef := d.mot.coefSh, shd := d.insp.shdSh, map := d.insp.mapSh
    pass := d.passWritten }

/-- A write is about to reach a shadow half: what the halves held before this cycle's writes is noted (R437). -/
def shadowNote (d : Dev) : Dev :=
  if d.shAt = d.now / 2 + 1 then d else { d with shAt := d.now / 2 + 1, shOld := shadowsOf d }

/-- Draw a fresh free value of `w` bits (log entry 11). -/
def Dev.free (d : Dev) (w : Nat) : Nat × Dev :=
  (Config.freeValue d.freeCtr % 2 ^ w, { d with freeCtr := d.freeCtr + 1 })

/-- Whether a plan is active (PLAN_CHK.ACTIVE, R26). -/
def Dev.planActive (d : Dev) : Bool := d.getB F.PLAN_CHK_ACTIVE

/-- Whether page `p` takes new units of work: PG_CTL.EN is 1 (R361, R427). -/
def Dev.enabled (d : Dev) (p : Nat) : Bool := d.getB (F.PG_CTL_EN p)

/-- The block of page `p` is at work: enabled, or finishing its unit of work (R361). -/
def Dev.working (d : Dev) (p : Nat) : Bool := d.enabled p || d.getB (F.PG_STAT_STOPPING p)

end Sys2Proof.Machine
end

