-- ==== Sys2Proof/Machine/Events.lean ====
section
/-! DEFINITION. The event controller, the watchdogs and the MGMT reset (chapter 15). -/
namespace Sys2Proof.Machine

/-- The page of core `c`'s event controller (R343). -/
def corePage (c : Nat) : Nat := 0x56 + c

/-- Whether source `n` is pending, unmasked and routed to core `c` (R353). -/
def presentable (d : Dev) (c n : Nat) : Bool :=
  if n < 256 then
    d.sharedPending n && !bit (d.get (F.EVT_MASK_MASK (n / 32))) (n % 32) && d.routeOf n == c
  else
    bit (d.get (F.EVTC_PEND_PEND c)) (n - 256) && !bit (d.get (F.EVTC_MASK_MASK c)) (n - 256)

/-- The source presented to core `c`: the lowest-numbered presentable one, none while a source is in service (R353,
R355). -/
def presented (d : Dev) (c : Nat) : Option Nat :=
  if d.getB (F.EVTC_ACTIVE_VALID c) then none else (List.range 288).find? (presentable d c)

/-- Whether core `c` may execute: its RUN bit is set, it is not cleated and no MGMT reset is waiting (R364, R365, R377). -/
def coreLives (d : Dev) (c : Nat) : Bool :=
  bit (d.get F.WDOG_MCTL_RUN) c && !bit (d.get F.SHROUD_CLEAT_LO_CLEAT) c && d.mgmtReq.isNone

/-- Whether core `c` executes: in WAIT its clock is stopped until a source becomes presentable to it (R359). -/
def coreRuns (d : Dev) (c : Nat) : Bool :=
  coreLives d c && (!d.getB (F.EVTC_CORE_WAIT c) || (presented d c).isSome)

/-- Ring shared source `n` by doorbell (R349, R350). -/
def evtDoorbell (n : Nat) (d : Dev) : Dev :=
  if 128 ≤ n ∧ n ≤ 255 then d.ring n else d.refuseAt R.EVT_DOORBELL

/-- Ring private source `n` of core `c` by doorbell; sources 258 to 271 are never rung (R348 to R350, log entry 20). -/
def evtcDoorbell (c n : Nat) (d : Dev) : Dev :=
  if n = 256 ∨ n = 257 ∨ (272 ≤ n ∧ n ≤ 287) then d.ringPrivate c n else d.refuseAt (R.EVTC_DOORBELL c)

/-- The page whose PG_EVT is the status register of level source `n`: a bark's is page 0x5A's (R348, R358, R364). -/
def statusPage (n : Nat) : Option Nat := if 88 ≤ n ∧ n ≤ 91 then some 0x5A else sourcePage n

/-- Core `c` accepts the presented source at an instruction boundary whose return address is `ret` (R354). -/
def eventAccept (c ret : Nat) (d : Dev) : Dev :=
  if !coreLives d c then d else
  if !(d.getB (F.EVTC_CORE_EE c) || d.getB (F.EVTC_CORE_WAIT c)) then d else
  match presented d c with
  | none => d
  | some n =>
    let d := if n < 256 then d.setSharedPending n false
      else d.put (F.EVTC_PEND_PEND c) (clearBits (d.get (F.EVTC_PEND_PEND c)) (2 ^ (n - 256)))
    let d := (d.put (F.EVTC_ACTIVE_SRC c) n).put (F.EVTC_ACTIVE_VALID c) 1
    let d := d.put2 (F.EVTC_RET_LO_RET c) (F.EVTC_RET_HI_RET c) ret
    let d := d.put (F.EVTC_RET_HI_LVL c) (d.get (F.EVTC_CORE_LVL c))
    let mon := n < 256 && d.getB (F.EVT_ROUTE_MON n)
    let d := ((d.put (F.EVTC_CORE_EE c) 0).put (F.EVTC_CORE_WAIT c) 0).put (F.EVTC_CORE_LVL c) (if mon then 0 else 1)
    let watch := if (statusPage n).isSome then n + 1 else 0
    { d with
      corePc := cellSet 0 d.corePc c (d.get (F.EVTC_VEC_LO_VEC c) * 0x1000 + d.get (F.EVTC_VEC_HI_VEC c) * 2 ^ 32
        + n * 0x40)
      spurWatch := cellSet 0 d.spurWatch c watch }

/-- Core `c`'s first read of the status register of the level source it accepted: an empty one is a spurious acceptance
(R358). -/
def noteStatusRead (c p : Nat) (d : Dev) : Dev :=
  let w := cellGet 0 d.spurWatch c
  if w = 0 then d else
  if statusPage (w - 1) = some p then
    let d := if d.sourceCond (w - 1) then d else d.count (F.EVTC_CNT_SPURIOUS c) 1
    { d with spurWatch := cellSet 0 d.spurWatch c 0 }
  else d

/-- Complete source `n` on core `c` (R356). -/
def evtcEoi (c n : Nat) (d : Dev) : Dev :=
  if d.getB (F.EVTC_ACTIVE_VALID c) && d.get (F.EVTC_ACTIVE_SRC c) == n then
    let d := (d.put (F.EVTC_ACTIVE_VALID c) 0).put (F.EVTC_ACTIVE_SRC c) 0
    let d := { d with spurWatch := cellSet 0 d.spurWatch c 0 }
    if n < 256 && sourceLevel n && d.sourceCond n then d.ring n else d
  else d.refuseAt (R.EVTC_EOI c)

/-- The handler's return instruction on core `c` (R356). -/
def eventReturn (c : Nat) (d : Dev) : Dev :=
  if !coreRuns d c then d else
  let d := (d.put (F.EVTC_CORE_LVL c) (d.get (F.EVTC_RET_HI_LVL c))).put (F.EVTC_CORE_EE c) 1
  { d with corePc := cellSet 0 d.corePc c (d.get2 (F.EVTC_RET_LO_RET c) (F.EVTC_RET_HI_RET c)) }

/-- Mask the shared sources of word `w` named in `m` (R357). -/
def evtMset (w m : Nat) (d : Dev) : Dev := d.put (F.EVT_MASK_MASK w) (d.get (F.EVT_MASK_MASK w) ||| m)

/-- Whether source `n` is in service on any core (R352). -/
def inService (d : Dev) (n : Nat) : Bool :=
  (List.range 4).any (fun c => d.getB (F.EVTC_ACTIVE_VALID c) && d.get (F.EVTC_ACTIVE_SRC c) == n)

/-- Unmask the shared sources of word `w` named in `m`; a level source whose condition holds and which a MGMT reset left
idle rings (R357, R366). -/
def evtMclr (w m : Nat) (d : Dev) : Dev :=
  let d := d.put (F.EVT_MASK_MASK w) (clearBits (d.get (F.EVT_MASK_MASK w)) m)
  forL (bitsOf 32 m) (fun i e =>
    let n := 32 * w + i
    if sourceLevel n && e.sourceCond n && !e.sharedPending n && !inService e n then e.ring n else e) d

def evtcMset (c m : Nat) (d : Dev) : Dev := d.put (F.EVTC_MASK_MASK c) (d.get (F.EVTC_MASK_MASK c) ||| m)

def evtcMclr (c m : Nat) (d : Dev) : Dev := d.put (F.EVTC_MASK_MASK c) (clearBits (d.get (F.EVTC_MASK_MASK c)) m)

/-- Write EVT_ROUTE[n]: CORE and, unless fixed, MON. Pending follows the route, in service does not (R348, R351). -/
def evtRouteWrite (n v : Nat) (d : Dev) : Dev :=
  let d := d.put (F.EVT_ROUTE_CORE n) v
  if sourceMonFixed n then d else d.put (F.EVT_ROUTE_MON n) (v / 4)

/-- Core `c` executes WAIT and stops its clock (R359). -/
def coreWait (c : Nat) (d : Dev) : Dev := if coreRuns d c then d.put (F.EVTC_CORE_WAIT c) 1 else d

/-- Ring the sources of the wake latches and clear them (R359). -/
def ringWakeLatches (d : Dev) : Dev :=
  forL (bitsOf 8 d.wakeLatch) (fun i e => e.ring (80 + i)) { d with wakeLatch := 0 }

/-- A rising edge on WAKE[i]: latched, rung while the controller runs, and in standby it drives PWR_EN high when enabled
(R359, R415). -/
def wakeEdge (i : Nat) (d : Dev) : Dev :=
  let d := { d with wakeLatch := setBit d.wakeLatch i }
  match d.power with
  | .run => ringWakeLatches d
  | .standby =>
    if bit (d.get F.PWR_WAKE_CFG_WAKE_EN) i then
      let d := d.put F.PWR_WAKE_STAT_WAKE (setBit (d.get F.PWR_WAKE_STAT_WAKE) i)
      { d with pwrEn := true, power := .por }.emit (.pwrEn 1)
    else d
  | _ => d

/-- Kick the watchdog of core `c`: its counter reloads (R364). -/
def wdogKick (c : Nat) (d : Dev) : Dev :=
  let run := bit (d.get F.WDOG_MCTL_RUN) c
  { d with wdogAt := cellSet 0 d.wdogAt c (if run then d.now else 0), wdogHit := cellSet false d.wdogHit c false }

/-- RUN takes the value `v`: a counter whose core stops keeps what it has counted, and goes on from it when the core runs
again (R364). -/
def wdogRun (v : Nat) (d : Dev) : Dev :=
  let was := d.get F.WDOG_MCTL_RUN
  forN 4 (fun c e => if bit was c == bit v c then e else { e with wdogAt := cellSet 0 e.wdogAt c (e.now - cellGet 0 e.wdogAt c) })
    (d.put F.WDOG_MCTL_RUN v)

/-- Request a MGMT reset; the first request's cause stands until it is applied (R365). -/
def mgmtRequest (cause : Nat) (d : Dev) : Dev :=
  if d.mgmtReq.isSome then d else { d with mgmtReq := some cause }

/-- Set BARK[c], which rings source 88 + c (R348, R364). -/
def setBark (c : Nat) (d : Dev) : Dev :=
  d.withSource (88 + c) (fun e => e.put F.WDOG_STAT_BARK (setBit (e.get F.WDOG_STAT_BARK) c))

/-- Clear the BARK bits written 1 (R364). -/
def clearBark (m : Nat) (d : Dev) : Dev :=
  forL (bitsOf 4 m) (fun c e =>
    e.withSource (88 + c) (fun x => x.put F.WDOG_STAT_BARK (clearBits (x.get F.WDOG_STAT_BARK) (2 ^ c)))) d

/-- The watchdog of core `c` reaches 0, TMO ms after it was last loaded: it barks the first time and bites the next
(R364). -/
def wdogExpiry (c : Nat) (d : Dev) : Dev :=
  if !(d.getB (F.WDOG_CFG_EN c) && bit (d.get F.WDOG_MCTL_RUN) c) then d else
  if d.now < cellGet 0 d.wdogAt c + 1000000 * d.get (F.WDOG_CFG_TMO c) then d else
  let e := { d with wdogAt := cellSet 0 d.wdogAt c d.now, wdogHit := cellSet false d.wdogHit c true }
  if cellGet false d.wdogHit c then mgmtRequest 2 (e.put F.WDOG_STAT_BITE_CORE c) else setBark c e

/-- WDOG_MCTL.MRST (R365). -/
def mgmtResetRequest (d : Dev) : Dev := mgmtRequest 1 d

/-- The hardware message sources, which keep their pending state over a MGMT reset (R366). -/
def hardwareMessageMask (w : Nat) : Nat :=
  match w with
  | 0 => 2 ^ 25 + 2 ^ 26 + 2 ^ 27 + 2 ^ 29
  | 2 => 0xFF0000
  | _ => 0

/-- Pages 0x55 to 0x5A return to their reset values except WDOG_STAT; hardware message sources stay pending (R366). -/
def resetMgmtPages (d : Dev) : Dev :=
  let pend := (List.range 8).map (fun w => d.get (F.EVT_PEND_PEND w) &&& hardwareMessageMask w)
  let stat := d.reg R.WDOG_STAT
  let e := { d with regs := cellEraseRange d.regs 0x55000 0x5B000 }
  let e := e.setReg R.WDOG_STAT stat
  forN 8 (fun w x => x.put (F.EVT_PEND_PEND w) (pend.getD w 0)) e

/-- Where core 0 starts: the verified warm image when there is one and DRAM serves, else the boot ROM (R367, R417,
R421). -/
def bootAfterMgmt (d : Dev) : Dev :=
  if d.getB F.BOOT_VERIFY_VALID && d.getB F.DRAMC_STAT_READY then
    let a := d.get2 F.BOOT_WARM_LO_ADDR F.BOOT_WARM_HI_ADDR
    let d := (d.put F.BOOT_STAT_WARM 1).put F.BOOT_VER_VERSION d.warmVersion
    { d with
      corePc := cellSet 0 [] 0 (a + 512 + d.warmEntry)
      booted := true
      bootHalted := false
      l2Ram := false
      runRollback := d.warmRollback }
  else { d with corePc := [], booted := false, bootHalted := false, resetAt := d.now, l2Ram := true }

/-- The MGMT reset is applied: cores, caches and pages 0x55 to 0x5A (R365, R366, R381). -/
def mgmtResetApply (d : Dev) : Dev :=
  match d.mgmtReq with
  | none => d
  | some cause =>
    let d := resetMgmtPages d
    let d := (d.put F.WDOG_STAT_CAUSE cause).count F.WDOG_STAT_MCOUNT 1
    let d := d.put F.SHROUD_CLEAT_LO_CLEAT (clearBits (d.get F.SHROUD_CLEAT_LO_CLEAT) 15)
    bootAfterMgmt { d with mgmtReq := none, stalled := [], spurWatch := [], wdogAt := [], wdogHit := [], l2 := [] }

end Sys2Proof.Machine
end

