-- ==== Sys2Proof/Machine/Memory.lean ====
section
/-! DEFINITION. Shroud (chapter 16) and memory (chapter 14): the check of every transaction, the cleat, DRAM and L2
accesses by the block's engines, error correction, remapping, training, refresh and row protection. -/
namespace Sys2Proof.Machine

/-! ### Shroud -/

def kindRead : Nat := 0
def kindWrite : Nat := 1
def kindExec : Nat := 2

/-- Whether master `m` is cleated (R376). -/
def cleated (d : Dev) (m : Nat) : Bool :=
  if m < 32 then bit (d.get F.SHROUD_CLEAT_LO_CLEAT) m else bit (d.get F.SHROUD_CLEAT_HI_CLEAT) (m - 32)

def setCleat (m : Nat) (b : Bool) (d : Dev) : Dev :=
  let f := if m < 32 then F.SHROUD_CLEAT_LO_CLEAT else F.SHROUD_CLEAT_HI_CLEAT
  let i := if m < 32 then m else m - 32
  let d := d.put f (if b then setBit (d.get f) i else clearBits (d.get f) (2 ^ i))
  let p := masterPage m
  d.putB (F.PG_STAT_CLEATED p) ((List.range 18).any (fun k => masterPage k == p && cleated d k))

/-- The level of master `m`: a core's present level, otherwise its LVL field (R370). -/
def masterLevel (d : Dev) (m : Nat) : Nat := if m < 4 then d.get (F.EVTC_CORE_LVL m) else d.get (F.SHROUD_MASTER_LVL m)

/-- Word `j` of region `r` (R374). -/
def regionWord (d : Dev) (r j : Nat) : Nat := (cellGet 0 d.regions (4 * r + j)).toNat

/-- Whether enabled region `r` contains 4 KB page `pg` (R371). -/
def regionHas (d : Dev) (r pg : Nat) : Bool :=
  bit (regionWord d r 0) 31 && decide (bits (regionWord d r 0) 0 28 ≤ pg) && decide (pg ≤ bits (regionWord d r 1) 0 28)

/-- The PERM byte of group `g` in region `r`. -/
def regionPerm (d : Dev) (r g : Nat) : Nat := bits (regionWord d r (2 + g / 4)) (8 * (g % 4)) 8

/-- The deciding region of 4 KB page `pg`: the lowest-numbered enabled one that contains it (R371). -/
def decidingRegion (d : Dev) (pg : Nat) : Option Nat := (List.range 128).find? (fun r => regionHas d r pg)

/-- Whether an address lies in the register window, and its offset there (R422). -/
def regOffset (a : Nat) : Option Nat := if 0x40000000 ≤ a ∧ a < 0x40080000 then some (a - 0x40000000) else none

def inRom (a : Nat) : Bool := decide (a < 0x20000)
def inL2 (a : Nat) : Bool := decide (0x20000000 ≤ a) && decide (a < 0x20400000)
def inDram (a : Nat) : Bool := decide (0x1000000000 ≤ a) && decide (a < 0x1800000000)

/-- Whether an address is unmapped: outside the map, in the L2 window while L2 is a cache, or on a page that the index does not
list (R423). -/
def unmapped (d : Dev) (a : Nat) : Bool :=
  match regOffset a with
  | some o => !pageListed (o / 0x1000)
  | none => !(inRom a || (inL2 a && d.l2Ram) || inDram a)

/-- The verdict of Shroud on a transaction: permitted or not, with the region that decided; none when no region
contained the page or R372 applied. `rwm` says that it writes an RWM field (R5, R371 to R373). With the checks enabled, an
access to an unmapped address and a write to the boot ROM are violations whatever the regions grant (R423). -/
def shroudCheck (d : Dev) (m kind a : Nat) (rwm : Bool) : Bool × Option Nat :=
  let lvl := masterLevel d m
  let core := decide (m < 4)
  let page54 := decide (0x40054000 ≤ a) && decide (a < 0x40055000)
  let reg := decidingRegion d (a / 0x1000)
  let nowhere := unmapped d a || (inRom a && kind == kindWrite)
  if page54 && !(core && lvl == 0 && kind == kindExec) then (core && lvl == 0, none)
  else if core && lvl == 0 && inRom a && kind != kindWrite then (true, none)
  else if rwm && lvl != 0 then (false, if d.getB F.SHROUD_CFG_EN then reg else none)
  else if !d.getB F.SHROUD_CFG_EN then (true, none)
  else if nowhere then (false, reg)
  else match reg with
    | none => (false, none)
    | some r =>
      let p := regionPerm d r (d.get (F.SHROUD_MASTER_GROUP m))
      (bit p kind && decide (lvl ≤ bits p 3 2), some r)

/-- A violation: the master is cleated, the violation counted, captured and reported; the cleat of all four cores
requests a MGMT reset (R376, R380). A capture of the same 2 ns cycle gives way to a lower identity. -/
def violation (m kind a : Nat) (region : Option Nat) (d : Dev) : Dev :=
  let lvl := masterLevel d m
  let d := (setCleat m true d).raiseBits (masterPage m) 16
  let d := d.count F.SHROUD_VIO_CNT_COUNT 1
  let held := d.getB F.SHROUD_VIO_INFO_VALID &&
    !(d.vioAt / 2 == d.now / 2 && decide (m < d.get F.SHROUD_VIO_INFO_MASTER))
  let d := if held then d else
    let d := { d with vioAt := d.now }
    let d := d.put2 F.SHROUD_VIO_LO_ADDR F.SHROUD_VIO_HI_ADDR a
    let d := ((d.put F.SHROUD_VIO_INFO_MASTER m).put F.SHROUD_VIO_INFO_KIND kind).put F.SHROUD_VIO_INFO_LVL lvl
    let d := (d.put F.SHROUD_VIO_INFO_REGION (region.getD 0)).put F.SHROUD_VIO_INFO_NOMATCH (b2n region.isNone)
    d.put F.SHROUD_VIO_INFO_VALID 1
  let d := (d.raise 0x54 0).sendEvent 0x0B 0xFF 0 m (a % 2 ^ 32)
  if d.get F.SHROUD_CLEAT_LO_CLEAT % 16 = 15 then mgmtRequest 3 d else d

/-- SHROUD_CFG.EN: 1 enables the checks, a later 0 is refused (R373). -/
def shroudEnable (v : Bool) (d : Dev) : Dev :=
  if v then d.put F.SHROUD_CFG_EN 1
  else if d.getB F.SHROUD_CFG_EN then d.refuseAt R.SHROUD_CFG else d

/-- SHROUD_RCTL.APPLY (R374). -/
def shroudApply (d : Dev) : Dev :=
  let r := d.get F.SHROUD_RSEL_REGION
  let w0 := d.reg R.SHROUD_RDATA0
  let w1 := d.reg R.SHROUD_RDATA1
  let w2 := d.reg R.SHROUD_RDATA2
  let w3 := d.reg R.SHROUD_RDATA3
  let priv3 := (List.range 4).any (fun g => bits w2.toNat (8 * g + 3) 2 == 3 || bits w3.toNat (8 * g + 3) 2 == 3)
  if bit w0.toNat 31 && (decide (bits w1.toNat 0 28 < bits w0.toNat 0 28) || priv3) then d.refuseAt R.SHROUD_RCTL
  else
    let g := cellSet 0 (cellSet 0 d.regions (4 * r) w0) (4 * r + 1) w1
    { d with regions := cellSet 0 (cellSet 0 g (4 * r + 2) w2) (4 * r + 3) w3 }

/-- SHROUD_RCTL.READ (R374). -/
def shroudRead (d : Dev) : Dev :=
  let r := d.get F.SHROUD_RSEL_REGION
  let w := fun j => BitVec.ofNat 32 (regionWord d r j)
  (((d.setReg R.SHROUD_RDATA0 (w 0)).setReg R.SHROUD_RDATA1 (w 1)).setReg R.SHROUD_RDATA2 (w 2)).setReg R.SHROUD_RDATA3 (w 3)

/-- Write SHROUD_MASTER[m]; LVL is fixed for cores, and 0 or 3 is refused for the others (R374, R375). -/
def shroudMasterWrite (m v : Nat) (d : Dev) : Dev :=
  if m < 4 then d.put (F.SHROUD_MASTER_GROUP m) v else
  let l := bits v 3 2
  if l = 0 ∨ l = 3 then d.refuseAt (R.SHROUD_MASTER m)
  else (d.put (F.SHROUD_MASTER_GROUP m) v).put (F.SHROUD_MASTER_LVL m) l

/-! ### DRAM -/

/-- Whether a supported configuration is set (R321): density code, width and ranks. -/
def dramCfgOk (ranks width dens : Nat) : Bool :=
  decide (dens ≤ 2) && (ranks == 0 || (if width = 0 then dens == 0 else true)) && decide (ranks ≤ 1) && decide (width ≤ 1)

/-- Installed capacity in GB of a configuration (R321). -/
def dramCapGb (ranks width dens : Nat) : Nat :=
  let perRank := (if width = 0 then 8 else 4) * (2 + dens) / 2
  perRank * 2 * (ranks + 1)

/-- Installed capacity in bytes. -/
def dramCap (d : Dev) : Nat :=
  dramCapGb (d.get F.DRAMC_CFG_RANKS) (d.get F.DRAMC_CFG_WIDTH) (d.get F.DRAMC_CFG_DENS) * 2 ^ 30

/-- Whether DRAM serves address `a`: READY, and within the installed capacity (R322). -/
def dramServes (d : Dev) (a : Nat) : Bool :=
  d.getB F.DRAMC_STAT_READY && inDram a && decide (a < 0x1000000000 + dramCap d)

/-- A DRAM request beyond the capacity or before READY (R322). -/
def dramOutOfRange (d : Dev) : Dev := (d.put F.DRAMC_STAT_OOR 1).raise 0x50 0

/-- The bank (subchannel, rank, bank group, bank) and row that address `a` decodes to (R324). -/
def dramBankRow (d : Dev) (a : Nat) : Nat × Nat :=
  let o := a - 0x1000000000
  let bgw := if d.getB F.DRAMC_CFG_WIDTH then 2 else 3
  let rkw := if d.getB F.DRAMC_CFG_RANKS then 1 else 0
  let row := o / 2 ^ (15 + bgw + rkw)
  let sub := bits o 6 1
  let bg := Nat.xor (bits o 7 bgw) (row % 2 ^ bgw)
  let bank := Nat.xor (bits o (7 + bgw) 2) (row / 2 ^ bgw % 4)
  let rank := bits o (15 + bgw) rkw
  (bank + 4 * bg + 32 * rank + 64 * sub, row)

def Dev.bank (d : Dev) (b : Nat) : DramBank := cellGet {} d.banks b

def Dev.setBank (d : Dev) (b : Nat) (x : DramBank) : Dev := { d with banks := cellSet {} d.banks b x }

/-- Master `m` is admitted to ACTIVATE bank `b`: a throttled one once per RH_GAP × 10 ns (R333). -/
def dramAdmitted (d : Dev) (m b : Nat) : Bool :=
  d.throttled.all (fun t => t.master != m || t.bank != b || decide (t.at_ + d.get F.DRAMC_RH_RH_GAP * 10 ≤ d.now))

/-- Count an ACTIVATE of `row` of `bank` by master `m`: a row that reaches RH_THR is refreshed, its count cleared, a
non-real-time requester throttled and the event raised (R333). A tracker full of 16 rows drops its lowest count (log entry
21). -/
def dramActivate (m bank row : Nat) (d : Dev) : Dev :=
  let d := { d with
    lastAct := cellSet 0 d.lastAct (bank / 64) (bank + 1)
    throttled := d.throttled.map (fun (t : Throttle) => if t.master = m ∧ t.bank = bank then { t with at_ := d.now } else t) }
  let mine := d.rows.filter (fun r => r.bank == bank)
  let rest := d.rows.filter (fun r => r.bank != bank)
  let n : Nat := ((mine.find? (fun r => r.row == row)).map (fun r => r.count)).getD 0 + 1
  let others : List RowCount := mine.filter (fun r => r.row != row)
  let low := (others.map (fun r => r.count)).foldl min (2 ^ 16)
  let others : List RowCount := if others.length < 16 then others else others.eraseP (fun r => r.count == low)
  if n < d.get F.DRAMC_RH_RH_THR then { d with rows := ⟨bank, row, n⟩ :: others ++ rest }
  else
    let d := { d with rows := others ++ rest }
    let d := if m = 8 then d else
      { d with throttled := ⟨m, bank, d.now⟩ :: d.throttled.filter (fun (t : Throttle) => t.master != m || t.bank != bank) }
    let d := (d.put F.DRAMC_RH_STAT_BANK bank).count F.DRAMC_RH_STAT_COUNT 1
    (d.put F.DRAMC_RH_STAT_MASTER m).raise 0x50 1

/-! ### The schedule of DRAM (R325, R326, R331) -/

/-- Whether request `r` finds its row open in a bank, with column commands left (R325). -/
def dramHit (x : DramBank) (r : DramReq) : Bool :=
  match x.open_ with
  | some (row, n) => row == r.row && decide (n < 16)
  | none => false

/-- Whether request `r` is from a real-time requester, or has waited AGE_LIM (R325, R326). -/
def dramUrgent (d : Dev) (r : DramReq) : Bool := r.master == 8 || decide (r.at_ + d.get F.DRAMC_QOS_AGE_LIM * 10 ≤ d.now)

/-- The request that a bank serves next: its row stays open while its queue holds hits, so the oldest hit, else the head
(R325, log entry 119). -/
def DramBank.next (x : DramBank) : Option DramReq :=
  match x.queue.find? (dramHit x) with
  | some r => some r
  | none => x.queue.head?

/-- The banks of subchannel `sub` that have a ready command, in rotation from the bank after the one that last received an
ACTIVATE: each with the request that it serves next and whether its head request is real-time. -/
def dramReady (d : Dev) (sub : Nat) : List (Nat × DramReq × Bool) :=
  let last := cellGet 0 d.lastAct sub
  let l := d.banks.filterMap (fun e => match e.2.next with
    | none => none
    | some r =>
      if e.1 / 64 = sub ∧ (dramHit e.2 r || dramAdmitted d r.master e.1) = true then
        some (e.1, r, e.2.queue.head?.any (dramUrgent d))
      else none)
  l.filter (fun e => decide (last ≤ e.1)) ++ l.filter (fun e => decide (e.1 < last))

/-- The command that subchannel `sub` picks: bank and request (R325). -/
def dramPick (d : Dev) (sub : Nat) : Option (Nat × DramReq) :=
  let l := dramReady d sub
  match l.find? (fun e => e.2.2) with
  | some e => some (e.1, e.2.1)
  | none => l.head?.map (fun e => (e.1, e.2.1))

/-- Whether DRAM takes requests: not while it changes its rate, nor while its block is not enabled (R330, R361). -/
def dramTakes (d : Dev) : Bool := !d.getB F.DRAMC_FCHG_BUSY && d.enabled 0x50

/-- A bank accepts the requests that wait for it, as far as its queue of 8 has places. -/
def DramBank.fill (x : DramBank) : DramBank :=
  let n := 8 - x.queue.length
  { x with queue := x.queue ++ x.wait.take n, wait := x.wait.drop n }

/-- Every rank has received a command (R331). -/
def ranksUsed (d : Dev) : Dev := { d with rankUsed := cellSet 0 (cellSet 0 d.rankUsed 0 d.now) 1 d.now }

/-- Request `r` of bank `b` is served: a hit of the open row takes one more column command, any other opens its row with an
ACTIVATE; the row is precharged once the queue holds no hit or 16 commands have been made. A request that waited takes the
place. The rank leaves power-down, and its idle time starts anew (R331). -/
def dramServe (b : Nat) (r : DramReq) (d : Dev) : Dev :=
  let x := d.bank b
  let o : Nat × Nat := match x.open_ with
    | some (row, n) => if dramHit x r then (row, n + 1) else (r.row, 1)
    | none => (r.row, 1)
  let y : DramBank := { x with queue := x.queue.erase r, open_ := some o }
  let y := if dramTakes d then y.fill else y
  let rank := b / 32 % 2
  let d := d.setBank b (if y.queue.any (dramHit y) then y else { y with open_ := none })
  let d := { d with rankDown := clearBits d.rankDown (2 ^ rank), rankUsed := cellSet 0 d.rankUsed rank d.now }
  if dramHit x r then d else dramActivate r.master b r.row d

/-- Subchannel `sub` serves what is ready, at most `n` requests (R325). -/
def dramServeAll : Nat → Nat → Dev → Dev
  | 0, _, d => d
  | n + 1, sub, d =>
    match dramPick d sub with
    | none => d
    | some e => dramServeAll n sub (dramServe e.1 e.2 d)

/-- The requests that the banks have accepted or keep waiting. -/
def dramWaiting (d : Dev) : Nat := (d.banks.map (fun e => e.2.queue.length + e.2.wait.length)).sum

/-- Every accepted request is complete: the change of rate goes on with self-refresh on all ranks (R330 step 2). -/
def selfRefresh (d : Dev) : Dev :=
  { (d.put F.DRAMC_STAT_SELFREF 1).put F.CLK_STAT_LOCK_D 0 with rankDown := 0 }

/-- DRAM accepts what it may and serves what is ready, while its block works (R325, R361); during a change of rate it completes
what it has accepted, and then goes on with the change (R330). -/
def dramRun (d : Dev) : Dev :=
  let d := if d.banks.isEmpty || !d.working 0x50 then d else
    let d := if dramTakes d then { d with banks := d.banks.map (fun e => (e.1, e.2.fill)) } else d
    dramServeAll (dramWaiting d) 1 (dramServeAll (dramWaiting d) 0 d)
  if d.getB F.DRAMC_FCHG_BUSY && !d.getB F.DRAMC_STAT_SELFREF && d.banks.all (fun e => e.2.queue.isEmpty) then selfRefresh d
  else d

/-- Serve the banks of a subchannel until bank `b` has a place in its queue of 8, or nothing more is ready. -/
def dramPlace : Nat → Nat → Dev → Dev
  | 0, _, d => d
  | n + 1, b, d =>
    if (d.bank b).queue.length < 8 then d else
    match dramPick d (b / 64) with
    | none => d
    | some e => dramPlace n b (dramServe e.1 e.2 d)

/-- The DRAM line index of an address (R340). -/
def lineIndex (a : Nat) : Nat := (a - 0x1000000000) / 64

/-- A request of master `m` at address `a`, a write or not, enters its bank's queue, or waits until that has a place and DRAM
takes requests (R325, R330): its data is read or written in the order in which requests come, as R325 orders them line by
line (log entry 100). -/
def dramAccept (m a : Nat) (write : Bool) (d : Dev) : Dev :=
  let br := dramBankRow d a
  let d := if dramTakes d then dramPlace (dramWaiting d) br.1 d else d
  let x := d.bank br.1
  let x := { x with wait := x.wait ++ [⟨m, br.2, d.now, lineIndex a, write⟩] }
  d.setBank br.1 (if dramTakes d then x.fill else x)

/-- Whether a write to the line of address `a` is accepted or waits (R337). -/
def lineWritten (d : Dev) (a : Nat) : Bool :=
  let x := d.bank (dramBankRow d a).1
  (x.queue ++ x.wait).any (fun r => r.write && r.line == lineIndex a)
    || d.heldSteps.any (fun s => match s with
      | .dram _ b _ => inDram b && lineIndex b == lineIndex a
      | _ => false)
    || d.stalled.any (fun s => s.kind == kindWrite && lineIndex s.addr == lineIndex a)

/-- The key of a word or line in `Dev.ue`. -/
def ueKey (cls idx : Nat) : Nat := cls * 2 ^ 32 + idx

def poisoned (d : Dev) (cls idx : Nat) : Bool := cellGet 0 d.ue (ueKey cls idx) != 0

/-- Store bytes into DRAM from physical address `a`. -/
def dramStore (a : Nat) (bs : List Byte) (m : Cells Byte) : Cells Byte :=
  (bs.foldl (fun (p : Nat × Cells Byte) b => (p.1 + 1, cellSet 0 p.2 p.1 b)) (a, m)).2

/-- DRAM as a request that comes now will find it: with the writes that a change of rate holds performed (R325, R330). -/
def dramView (d : Dev) : Cells Byte :=
  if !d.getB F.DRAMC_FCHG_BUSY then d.dram else
  let m := d.stalled.foldl (fun m x => if x.kind = kindWrite then dramStore x.addr (leBytes x.size x.data) m else m) d.dram
  d.heldSteps.foldl (fun m x => match x with
    | .dram _ a bs => if dramServes d a then dramStore a bs m else m
    | _ => m) m

/-- The `n` bytes of DRAM from physical address `a`, as a read finds them. -/
def dramLoad (d : Dev) (a n : Nat) : List Byte :=
  let m := dramView d
  (List.range n).map (fun i => cellGet 0 m (a + i))

/-- The canonical form of the block's memories, DRAM and L2: addresses strictly rising, no entry equal to 0, what an unlisted
address reads as (log entry 3). -/
abbrev Memory.wf (d : Dev) : Prop := cellWf (fun _ => (0 : Byte)) d.dram = true ∧ cellWf (fun _ => (0 : Byte)) d.l2 = true

/-- Mark `n` bytes of a poisoned word or line from byte `o` as rewritten; a remap entry's POISON falls with the last of
them (R341). -/
def ueRewrite (cls idx o n : Nat) (d : Dev) : Dev :=
  let w := cellGet 0 d.ue (ueKey cls idx)
  if w = 0 then d else
  let w' := clearBits w ((2 ^ n - 1) * 2 ^ o)
  let d := { d with ue := cellSet 0 d.ue (ueKey cls idx) w' }
  if w' = 0 then
    { d with remap := d.remap.map (fun e => if e.1 / 64 = cls ∧ e.2.index = idx then (e.1, { e.2 with poison := false }) else e) }
  else d

/-- Whether index `i` of class `c` is served by a spare marked POISON (R341). -/
def spareBad (d : Dev) (c i : Nat) : Bool :=
  d.remap.any (fun e => e.1 / 64 == c && e.2.valid && e.2.index == i && e.2.poison)

/-- Whether a codeword (R334) that the `n` bytes of a DRAM line from address `a` touch holds poison, or the whole line is a
spare that has not been written whole (R341). -/
def dramPoisoned (d : Dev) (a n : Nat) : Bool :=
  let k := a % 64 / 8
  spareBad d 14 (lineIndex a) || bits (cellGet 0 d.ue (ueKey 14 (lineIndex a))) (8 * k) (8 * ((a % 64 + n + 7) / 8 - k)) != 0

/-- The index, within its group, at which the shadow half of the tables of a fire-stream page starts, and the group
(R339; the live half first: log entry 104). -/
def tableGroup (page : Nat) : Option (Nat × Nat) :=
  match page with
  | 0x12 => some (0, 131072) | 0x11 => some (2, 524288) | 0x14 => some (3, 16384) | _ => none

/-- A capture of page `p` writes the live words of its tables from the shadow words: their poison goes with the content
(R31, R188, R338). -/
def ueCaptured (p : Nat) (d : Dev) : Dev :=
  match tableGroup p with
  | none => d
  | some (c, half) =>
    let live (k : Nat) : Bool := decide (ueKey c 0 ≤ k) && decide (k < ueKey c half)
    let shadow (k : Nat) : Bool := decide (ueKey c half ≤ k) && decide (k < ueKey c (2 * half))
    let ue := (d.ue.filter (fun e => shadow e.1)).foldl (fun m e => cellSet 0 m (e.1 - half) e.2)
      (d.ue.filter (fun e => !live e.1))
    { d with
      ue := ue
      remap := d.remap.map (fun e => if e.1 / 64 = c then
        (e.1, { e.2 with poison := e.2.valid && cellGet 0 ue (ueKey c e.2.index) != 0 }) else e) }

/-- Every word of group `c` is written anew: no poison is left in it (R338, R409). -/
def ueErase (c : Nat) (d : Dev) : Dev :=
  { d with
    ue := d.ue.filter (fun e => decide (e.1 / 2 ^ 32 ≠ c))
    remap := d.remap.map (fun e => if e.1 / 64 = c then (e.1, { e.2 with poison := false }) else e) }

/-- Words of 64 bits in each SRAM group (R339). -/
def groupWords (c : Nat) : Nat :=
  ([2048, 768, 8192, 256, 3072, 2048, 1024, 1152, 768, 576, 1280, 4096, 512, 768].getD c 0) * 128

/-- Whether `i` is a word of group `c`, or an installed line of DRAM (R339, R340). -/
def indexExists (d : Dev) (c i : Nat) : Bool := decide (i < if c = 14 then dramCap d / 64 else groupWords c)

/-- The words of plane `p` in a line or prefetch buffer, group 4 or 5: an eighth of the group (log entry 104). -/
def inLinePart (p k : Nat) : Bool :=
  [4, 5].any (fun c => decide (ueKey c (p * (groupWords c / 8)) ≤ k) && decide (k < ueKey c ((p + 1) * (groupWords c / 8))))

/-- Whether the line and prefetch buffers of plane `p` hold poison (R338). -/
def lineBufferBad (d : Dev) (p : Nat) : Bool := d.ue.any (fun e => inLinePart p e.1)

/-- The line and prefetch buffers of plane `p` are filled anew. -/
def lineBufferFill (p : Nat) (d : Dev) : Dev :=
  { d with
    ue := d.ue.filter (fun e => !inLinePart p e.1)
    remap := d.remap.map (fun e => if inLinePart p (ueKey (e.1 / 64) e.2.index) then (e.1, { e.2 with poison := false }) else e) }

/-- A write to the warm image's range clears BOOT_VERIFY.VALID (R421). -/
def warmTouched (a n : Nat) (d : Dev) : Dev :=
  let w := d.get2 F.BOOT_WARM_LO_ADDR F.BOOT_WARM_HI_ADDR
  if decide (a < w + 512 + d.warmLen) && decide (w < a + n) then d.put F.BOOT_VERIFY_VALID 0 else d

/-- Split `n` bytes from `a` into pieces that each lie within one 64-byte line (R370). -/
def linePieces : Nat → Nat → Nat → List (Nat × Nat)
  | 0, _, _ => []
  | fuel + 1, a, n =>
    if n = 0 then [] else
    let k := min n (64 - a % 64)
    (a, k) :: linePieces fuel (a + k) (n - k)

/-- Writing `n` bytes of L2 from offset `o` writes their words of group 11 anew, byte by byte (R338, R341). -/
def l2Rewrite (o n : Nat) (d : Dev) : Dev :=
  if d.ue.isEmpty then d else
  (List.range ((o + n + 7) / 8 - o / 8)).foldl (fun d j =>
    let w := o / 8 + j
    let lo := max o (8 * w)
    ueRewrite 11 w (lo % 8) (min (o + n) (8 * w + 8) - lo) d) d

/-- Whether one of the words of L2 that `n` bytes from offset `o` touch holds poison (R338). -/
def l2Poisoned (d : Dev) (o n : Nat) : Bool :=
  (List.range ((o + n + 7) / 8 - o / 8)).any (fun j => poisoned d 11 (o / 8 + j))

/-- Perform a write of `bs` (within one line) by master `m` that Shroud has permitted (R322, R423); one to a register is
performed at the end of the command (R424). -/
def targetWrite (m a : Nat) (bs : List Byte) (d : Dev) : Dev :=
  if inDram a then
    if dramServes d a then
      let d := dramAccept m a true d
      let d := { d with dram := dramStore a bs d.dram }
      warmTouched a bs.length (ueRewrite 14 (lineIndex a) (a % 64) bs.length d)
    else dramOutOfRange d
  else if inL2 a && d.l2Ram then l2Rewrite (a - 0x20000000) bs.length { d with l2 := dramStore (a - 0x20000000) bs d.l2 }
  else match regOffset a with
    | some o => if pageListed (o / 0x1000) then { d with regWrites := d.regWrites ++ [(o, bs.length, leNat bs)] } else d
    | none => d

/-- Whether `n` bytes at `a` are a naturally aligned access of a size that a register page takes (R424). -/
def aligned (a n : Nat) : Bool := (n == 1 || n == 2 || n == 4 || n == 8) && a % n == 0

/-- An engine reads the register at byte offset `a`: the word it holds, and what the read clears. A register that computes its
value reads as the word it last held (log entry 119). -/
def plainRead (a : Nat) (d : Dev) : Nat × Dev :=
  ((d.reg a).toNat, match regDesc (a / 0x1000) (a % 0x1000) with
    | some r => if r.cor = 0 then d else d.setReg a (BitVec.ofNat 32 (clearBits (d.reg a).toNat r.cor))
    | none => d)

/-- Perform a read of `n` bytes (within one line) by master `m` that Shroud has permitted; none is poison (R322, R338,
R423, R424). -/
def targetRead (m a n : Nat) (d : Dev) : Option (List Byte) × Dev :=
  if inDram a then
    if dramServes d a then
      let d := dramAccept m a false d
      (if dramPoisoned d a n then none else some (dramLoad d a n), d)
    else (none, dramOutOfRange d)
  else if inL2 a && d.l2Ram then
    (if l2Poisoned d (a - 0x20000000) n then none
     else some ((List.range n).map (fun i => cellGet 0 d.l2 (a - 0x20000000 + i))), d)
  else if inRom a then (some ((List.range n).map (fun i => Config.bootRom (a + i))), d)
  else match regOffset a with
    | some o =>
      if !pageListed (o / 0x1000) then (none, d)
      else if !aligned o n then (none, d.pgFault (o / 0x1000) faultWidth (o % 0x1000))
      else if n = 8 then
        let lo := plainRead o d
        let hi := plainRead (o + 4) lo.2
        (some (leBytes 4 lo.1 ++ leBytes 4 hi.1), hi.2)
      else
        let w := plainRead (o - o % 4) d
        (some (((leBytes 4 w.1).drop (o % 4)).take n), w.2)
    | none => (none, d)

/-- Whether a write at byte offset `a` of the register window writes a field of access code RWM (R5). -/
def writesRwm (a : Nat) : Bool :=
  match regDesc (a / 0x1000) (a % 0x1000) with
  | some r => r.rwm != 0
  | none => false

/-- Whether a write of `n` bytes at `a` reaches an RWM field (R5, R371). -/
def reachesRwm (a n : Nat) : Bool :=
  match regOffset a with
  | some o => (List.range n).any (fun i => writesRwm (o + i - (o + i) % 4))
  | none => false

/-- The master that a held step belongs to. -/
def HeldStep.master : HeldStep → Nat
  | .write m _ _ => m
  | .violated m _ _ => m
  | .dram m _ _ => m
  | .after m _ => m

/-- Whether engine `m` has steps that are held. -/
def stepsHeld (d : Dev) (m : Nat) : Bool := d.heldSteps.any (fun x => x.master == m)

/-- One engine's write transaction within a line, checked by Shroud when it is issued, then performed (R369, R376); a cleated
engine stops before it (R377), and DRAM holds it during a change of rate (R330). -/
def engineWrite1 (m a : Nat) (bs : List Byte) (d : Dev) : Dev :=
  if cleated d m then { d with heldSteps := d.heldSteps ++ [.write m a bs] } else
  let v := shroudCheck d m kindWrite a (reachesRwm a bs.length)
  if !v.1 then
    let d := violation m kindWrite a v.2 d
    { d with heldSteps := d.heldSteps ++ [.violated m a bs] }
  else if (inDram a && d.getB F.DRAMC_FCHG_BUSY) || stepsHeld d m then { d with heldSteps := d.heldSteps ++ [.dram m a bs] }
  else targetWrite m a bs d

/-- One engine's read transaction within a line; none when it is cleated, refused or poisoned. -/
def engineRead1 (m a n : Nat) (d : Dev) : Option (List Byte) × Dev :=
  if cleated d m then (none, d) else
  let v := shroudCheck d m kindRead a false
  if v.1 then targetRead m a n d else (none, violation m kindRead a v.2 d)

/-- An engine's write of `bs` from address `a`, one transaction per line (R370): after a violation the transactions that are
left wait for the release (R377, R378). -/
def engineWrite (m a : Nat) (bs : List Byte) (d : Dev) : Dev :=
  dramRun ((linePieces (bs.length + 1) a bs.length).foldl
    (fun (p : List Byte × Dev) q => (p.1.drop q.2, engineWrite1 m q.1 (p.1.take q.2) p.2)) (bs, d)).2

/-- What a cleated engine `m` does after its release (R378): behind the violation that cleated it. -/
def afterCleat (m : Nat) (x : AfterWrite) (d : Dev) : Dev :=
  let stop : List HeldStep := if stepsHeld d m then [] else [.violated m 0 []]
  { d with heldSteps := d.heldSteps ++ stop ++ [.after m x] }

/-- What engine `m` does once the writes before it have been performed: at once, or when they are (R330, R377, R378). -/
def afterWrite (m : Nat) (x : AfterWrite) (f : Dev → Dev) (d : Dev) : Dev :=
  if cleated d m then afterCleat m x d
  else if stepsHeld d m then { d with heldSteps := d.heldSteps ++ [.after m x] }
  else f d

/-- An engine's read of `n` bytes from address `a`; none when any transaction of it gave poison. -/
def engineRead (m a n : Nat) (d : Dev) : Option (List Byte) × Dev :=
  let r := (linePieces (n + 1) a n).foldl
    (fun (p : Option (List Byte) × Dev) q =>
      let r := engineRead1 m q.1 q.2 p.2
      (match p.1, r.1 with
        | some x, some y => some (x ++ y)
        | _, _ => none, r.2)) (some [], d)
  (r.1, dramRun r.2)

/-- What engine `m` still had to do is given up. -/
def heldDrop (m : Nat) (d : Dev) : Dev := { d with heldSteps := d.heldSteps.filter (fun x => x.master != m) }

/-! ### Error correction -/

/-- The number of set bits of a byte. -/
def weight8 (x : Nat) : Nat := popCount 8 x

/-- The column of each data bit: the 56 bytes of weight 3 in ascending order, then the first 8 of weight 5 (R335). -/
def secdedColumns : List Nat :=
  (List.range 256).filter (fun x => weight8 x == 3) ++ ((List.range 256).filter (fun x => weight8 x == 5)).take 8

/-- The check bits of a 64-bit word (R335). -/
def secdedCheck (w : Nat) : Nat :=
  (bitsOf 64 w).foldl (fun c i => Nat.xor c (secdedColumns.getD i 0)) 0

/-- What a read makes of a stored word and check: sound, corrected to a word, or uncorrectable (R335). -/
inductive EccResult where
  | sound
  | corrected (w : Nat)
  | uncorrectable
  deriving DecidableEq, Repr

def secdedRead (w c : Nat) : EccResult :=
  let s := Nat.xor (c % 256) (secdedCheck w)
  if s = 0 then .sound
  else if weight8 s = 1 then .corrected w
  else match secdedColumns.findIdx? (fun x => x == s) with
    | some i => .corrected (Nat.xor w (2 ^ i))
    | none => .uncorrectable

/-- The address hash of a codeword at physical address `a` (R336). -/
def addressHash (a : Nat) : Nat :=
  (List.range 37).foldl (fun h i => if bit a (i + 3) then Nat.xor h (2 ^ (i % 8)) else h) 0

/-- The page whose PG_HEALTH counts a memory group's errors; none for the caches, the spare group and DRAM (R339, R429,
log entry 22). -/
def classPage (c : Nat) : Option Nat :=
  match c with
  | 0 => some 0x12 | 1 => some 0x12 | 2 => some 0x11 | 3 => some 0x14 | 4 => some 0x0F | 5 => some 0x0E | 6 => some 0x13
  | 7 => some 0x0D | 8 => some 0x10 | 9 => some 0x41 | 10 => some 0x43 | _ => none

/-- Whether index `i` of class `c` has a remap entry (R341). -/
def remapped (d : Dev) (c i : Nat) : Bool := d.remap.any (fun e => e.1 / 64 == c && e.2.valid && e.2.index == i)

/-- A correction and a leak in the same 2 ns cycle cancel (R340): the leak was this cycle's, or falls due in it. -/
def leakCancels (c : Nat) (d : Dev) : Option Dev :=
  let due := cellGet 0 d.leakAt c + 1000000 * d.get (F.ECC_BKT_CFG_LEAK c)
  if due / 2 = d.now / 2 then some { d with leakAt := cellSet 0 d.leakAt c d.now }
  else match cellGet none d.leakUndo c with
    | none => none
    | some (at_, l, o) =>
      let e := { d with leakUndo := cellSet none d.leakUndo c none }
      if at_ / 2 = d.now / 2 then some ((e.put (F.ECC_BKT_LEVEL c) l).putB (F.ECC_BKT_OVER c) o) else none

/-- The bucket of class `c` takes a corrected error (R340). -/
def bucketFill (c : Nat) (d : Dev) : Dev :=
  match leakCancels c d with
  | some d => d
  | none =>
    let d := d.count (F.ECC_BKT_LEVEL c) 1
    if d.get (F.ECC_BKT_LEVEL c) = d.get (F.ECC_BKT_CFG_THR c) && !d.getB (F.ECC_BKT_OVER c) then
      (d.put (F.ECC_BKT_OVER c) 1).raise 0x52 (1 + c)
    else d

/-- Count a corrected error of class `c` at index `i` (R340, R342). -/
def countCorrected (c i : Nat) (d : Dev) : Dev :=
  let d := match classPage c with
    | some p => d.count (F.PG_HEALTH_CE p) 1
    | none => d
  let again := decide (d.get (F.ECC_CE_ADDR_INDEX c) = i)
  let d := d.put (F.ECC_CE_ADDR_INDEX c) i
  bucketFill c
    (if again && d.getB F.REMAP_CFG_AUTO && !remapped d c i then { d with autoWant := (c, i) :: d.autoWant } else d)

/-- Count, capture and report an uncorrectable error of class `c` at index `i`, address `a`, requester `m` (R338,
R342). -/
def countUncorrectable (c i a m : Nat) (addrErr : Bool) (d : Dev) : Dev :=
  let d := match classPage c with
    | some p => d.put (F.PG_HEALTH_UE p) 1
    | none => d
  let d := { d with ue := cellSet 0 d.ue (ueKey c i) (if c = 14 then cellGet 0 d.ue (ueKey c i) ||| 255 * 2 ^ (8 * (a % 64 / 8)) else 255) }
  let d := d.count F.ECC_UE_CNT_COUNT 1
  let d := if d.getB F.ECC_UE_HI_VALID then d else
    let d := (d.put2 F.ECC_UE_LO_ADDR F.ECC_UE_HI_ADDR a).put F.ECC_UE_HI_CLASS c
    ((d.put F.ECC_UE_HI_MASTER m).put F.ECC_UE_HI_ADDR_ERR (b2n addrErr)).put F.ECC_UE_HI_VALID 1
  let d := if d.getB F.REMAP_CFG_AUTO && !remapped d c i then { d with autoWant := (c, i) :: d.autoWant } else d
  d.raise 0x52 0

/-- A memory read returns the stored word `w`, check `c` and, for DRAM, hash `h`; `second` is what a second read gives
(R335 to R338); a spare marked POISON gives poison (R341), and a corrected line is written back unless a write to it is on its
way (R337). `a` is the word's address: physical for DRAM, word index for SRAM group `cls`; there is no read of a word that
the group or the installed DRAM does not have. -/
def memoryReadComplete (cls m a w c h w2 c2 h2 : Nat) (d : Dev) : Dev :=
  let idx := if cls = 14 then lineIndex a else a
  if !indexExists d cls idx then d else
  if spareBad d cls idx then { d with busResp := .poison } else
  let finish (w : Nat) (r : EccResult) (d : Dev) : Dev :=
    match r with
    | .sound => { d with busResp := .ok w }
    | .corrected v =>
      let d := if cls = 14 && dramServes d a && !lineWritten d a then { d with dram := dramStore a (leBytes 8 v) d.dram } else d
      { countCorrected cls idx d with busResp := .ok v }
    | .uncorrectable => { countUncorrectable cls idx a m false d with busResp := .poison }
  let r := secdedRead w c
  if cls = 14 && decide (r ≠ .uncorrectable) && addressHash a != h then
    let r2 := secdedRead w2 c2
    if decide (r2 ≠ .uncorrectable) && addressHash a == h2 then
      let v := match r2 with
        | .corrected x => x
        | _ => w2
      let d := if r2 ≠ .sound && dramServes d a && !lineWritten d a then { d with dram := dramStore a (leBytes 8 v) d.dram } else d
      { countCorrected cls idx d with busResp := .ok v }
    else { countUncorrectable cls idx a m true d with busResp := .poison }
  else finish w r d

/-- Every LEAK ms a bucket level falls by 1; OVER clears below half the threshold (R340). -/
def eccLeak (c : Nat) (d : Dev) : Dev :=
  if d.now < cellGet 0 d.leakAt c + 1000000 * d.get (F.ECC_BKT_CFG_LEAK c) then d else
  let d := { d with
    leakAt := cellSet 0 d.leakAt c d.now
    leakUndo := cellSet none d.leakUndo c (some (d.now, d.get (F.ECC_BKT_LEVEL c), d.getB (F.ECC_BKT_OVER c))) }
  let l := d.get (F.ECC_BKT_LEVEL c) - 1
  let d := d.put (F.ECC_BKT_LEVEL c) l
  if l < d.get (F.ECC_BKT_CFG_THR c) / 2 then d.put (F.ECC_BKT_OVER c) 0 else d

/-! ### Remapping -/

/-- A free entry. -/
def noRemap : Remap := {}

def remapSize (g : Nat) : Nat := if g = 14 then 64 else 16

/-- FULL of group `g` follows its entries; a group that fills raises the event (R341). -/
def remapFull (g : Nat) (d : Dev) : Dev :=
  let full := (List.range (remapSize g)).all (fun e => (cellGet noRemap d.remap (64 * g + e)).valid)
  let was := bit (d.get F.REMAP_STAT_FULL) g
  let d := match classPage g with
    | some p => d.putB (F.PG_HEALTH_REMAP p) (d.remap.any (fun e => e.2.valid && classPage (e.1 / 64) == some p))
    | none => d
  let v := d.get F.REMAP_STAT_FULL
  let d := d.put F.REMAP_STAT_FULL (if full then setBit v g else clearBits v (2 ^ g))
  if full && !was then d.raise 0x53 0 else d

/-- The remap engine, master 16, reads or writes a DRAM line that it copies (R369): done, or a violation, or the engine is
cleated (R377). -/
def remapAccess (g i kind : Nat) (d : Dev) : Bool × Dev :=
  if g ≠ 14 then (true, d) else
  if cleated d 16 then (false, d) else
  let a := 0x1000000000 + 64 * i
  let v := shroudCheck d 16 kind a false
  if v.1 then (true, if dramServes d a then dramAccept 16 a (kind == kindWrite) d else d) else (false, violation 16 kind a v.2 d)

/-- Put index `i` of group `g` on entry `e`, once its content has been read; a spare with uncorrectable content is marked
POISON (R341). -/
def remapPut (g e i : Nat) (d : Dev) : Dev :=
  let r := remapAccess g i kindRead d
  if !r.1 then r.2 else
  let d := dramRun r.2
  let bad := poisoned d g i
  let d := if g = 14 && bad then { d with ue := cellSet 0 d.ue (ueKey g i) (2 ^ 64 - 1) } else d
  remapFull g { d with remap := cellSet noRemap d.remap (64 * g + e) { valid := true, index := i, poison := bad } }

/-- REMAP_CTL.INSTALL of INDEX on the selected entry (R341); an index that the group does not have is refused. -/
def remapInstall (d : Dev) : Dev :=
  let g := d.get F.REMAP_SEL_GROUP
  let e := d.get F.REMAP_SEL_ENTRY
  let i := d.get F.REMAP_ENT_INDEX
  if g = 15 || decide (remapSize g ≤ e) || !indexExists d g i || (cellGet noRemap d.remap (64 * g + e)).valid || remapped d g i then
    d.refuseAt R.REMAP_CTL
  else remapPut g e i d

/-- REMAP_CTL.REMOVE of the selected entry (R341): a spare still marked POISON leaves its index wholly poisoned. -/
def remapRemove (d : Dev) : Dev :=
  let g := d.get F.REMAP_SEL_GROUP
  let e := d.get F.REMAP_SEL_ENTRY
  let x := cellGet noRemap d.remap (64 * g + e)
  if x.valid then
    let r := remapAccess g x.index kindWrite d
    if !r.1 then r.2 else
    let d := dramRun r.2
    let d := if x.poison then { d with ue := cellSet 0 d.ue (ueKey g x.index) (if g = 14 then 2 ^ 64 - 1 else 255) } else d
    remapFull g { d with remap := cellSet noRemap d.remap (64 * g + e) noRemap }
  else d.refuseAt R.REMAP_CTL

/-- The device installs a spare for a failing index, after the access (R342); a full group is reported (R341). -/
def remapAutoInstall (g i : Nat) (d : Dev) : Dev :=
  if !(d.autoWant.contains (g, i)) then d else
  let d := { d with autoWant := d.autoWant.filter (fun x => x != (g, i)) }
  if !d.getB F.REMAP_CFG_AUTO || remapped d g i then d else
  match (List.range (remapSize g)).find? (fun e => !(cellGet noRemap d.remap (64 * g + e)).valid) with
  | some e => remapPut g e i d
  | none => d.refuseAt R.REMAP_CTL

/-! ### Training, refresh, frequency change -/

/-- DPHY_CTL.TRAIN (R328): RESET_n and CS_n are released (R411). -/
def dramTrain (d : Dev) : Dev :=
  if d.planActive || d.getB F.DRAMC_STAT_READY then d.refuseAt R.DPHY_CTL
  else { dramHold false ((d.put F.DPHY_STAT_STAGE 1).put F.DPHY_STAT_FAIL 0) with training := true }

/-- Store the results of the rate just trained among the two most recent (R330). -/
def storeTrained (r : Nat) (es : List Word) (d : Dev) : Dev :=
  { d with trainedRates := ((r, es) :: d.trainedRates.filter (fun x => x.1 != r)).take 2 }

/-- Write the eyes found by training, lane by lane (R328). -/
def putEyes (es : List Word) (d : Dev) : Dev :=
  (es.foldl (fun (p : Nat × Dev) w => (p.1 + 1, { p.2 with eyes := cellSet 0 p.2.eyes p.1 w })) (0, d)).2

/-- Training ends: every lane passed, or stage `stage` failed on `lane` (R328). -/
def dramTrainDone (fail : Option (Nat × Nat)) (es : List Word) (d : Dev) : Dev :=
  if !d.training then d else
  let d := { d with training := false }
  match fail with
  | some (st, lane) => ((d.put F.DPHY_STAT_STAGE st).put F.DPHY_STAT_FAIL 1).put F.DPHY_STAT_LANE lane
  | none =>
    let d := ranksUsed (putEyes es (storeTrained (d.get F.DRAMC_FCHG_RATE) es d))
    let d := ((d.put F.DPHY_STAT_STAGE 7).put F.DPHY_STAT_FAIL 0).put F.DRAMC_STAT_READY 1
    let d := d.put F.DRAMC_STAT_CAP
      (dramCapGb (d.get F.DRAMC_CFG_RANKS) (d.get F.DRAMC_CFG_WIDTH) (d.get F.DRAMC_CFG_DENS))
    d.put F.CLK_STAT_LOCK_D 1

/-- Every TRK_MS a rank's write delays move by the measured drift, in UI/64 (R329). -/
def dramTrack (rank : Nat) (delta : Int) (d : Dev) : Dev :=
  if !(d.getB F.DPHY_CTL_TRACK_EN && d.getB F.DRAMC_STAT_READY) then d else
  let d := { d with rankUsed := cellSet 0 d.rankUsed rank d.now }
  forN 10 (fun l e =>
    let k := 10 * rank + l
    let w := (cellGet 0 e.eyes k).toNat
    { e with eyes := cellSet 0 e.eyes k (BitVec.ofNat 32 (setBits w 16 8 (ofSigned 8 ((bits w 16 8 : Int) + delta)))) }) d

/-- A same-bank refresh, a command that every rank receives (R331); every 16th window recentres the read delay of one lane to `rd` (R327, R329). -/
def dramRefresh (rd : Nat) (d : Dev) : Dev :=
  if !d.getB F.DRAMC_STAT_READY then d else
  let d := { ranksUsed d with refsbCount := d.refsbCount + 1 }
  if d.refsbCount % 16 = 0 && d.getB F.DPHY_CTL_TRACK_EN then
    let w := (cellGet 0 d.eyes d.trackLane).toNat
    let lanes := if d.getB F.DRAMC_CFG_RANKS then 20 else 10
    { d with
      eyes := cellSet 0 d.eyes d.trackLane (BitVec.ofNat 32 (setBits w 0 8 rd))
      trackLane := (d.trackLane + 1) % lanes }
  else d

/-- Every 16 ms the refresh rate field of each rank is read, a command to it (R331); `hot` says that some rank runs above nominal (R327). -/
def dramRatePoll (hot : Bool) (d : Dev) : Dev :=
  if !d.getB F.DRAMC_STAT_READY then d else (ranksUsed d).putB F.DRAMC_STAT_HOT hot

/-- DRAMC_FCHG.GO with TARGET (R27, R330): requests are held from now on, and what is accepted is completed; a reserved target
is refused (R458). -/
def dramFchg (target : Nat) (d : Dev) : Dev :=
  if 4 < target then d.refuseAt R.DRAMC_FCHG else
  let d := d.put F.DRAMC_FCHG_TARGET target
  if d.planActive then d.put F.DRAMC_FCHG_RESULT 1
  else if d.getB F.DRAMC_FCHG_BUSY || !d.getB F.DRAMC_STAT_READY then d.refuseAt R.DRAMC_FCHG
  else dramRun (d.put F.DRAMC_FCHG_BUSY 1)

/-- The change of rate completes: the training results stored for the rate are applied; with none it retrains, and `fail` is
that training's outcome. The requests held are served (R330). One that was BUSY as a plan activated completes during the plan,
RATE and all: R27 refuses only a change asked for while a plan is active (DESIGN CHOICE, log entry 107). -/
def dramFchgDone (fail : Option (Nat × Nat)) (es : List Word) (d : Dev) : Dev :=
  if !(d.getB F.DRAMC_FCHG_BUSY && d.getB F.DRAMC_STAT_SELFREF) then d else
  let t := d.get F.DRAMC_FCHG_TARGET
  let d := ((ranksUsed d).put F.DRAMC_FCHG_BUSY 0).put F.DRAMC_STAT_SELFREF 0
  let d := (d.put F.DRAMC_FCHG_LIVE (1 - d.get F.DRAMC_FCHG_LIVE)).put F.CLK_STAT_LOCK_D 1
  let d := d.put F.DRAMC_FCHG_RATE t
  match d.trainedRates.find? (fun x => x.1 == t), fail with
  | some x, _ => dramRun ((putEyes x.2 d).put F.DRAMC_FCHG_RESULT 0)
  | none, some (st, lane) =>
    let d := ((d.put F.DPHY_STAT_STAGE st).put F.DPHY_STAT_FAIL 1).put F.DPHY_STAT_LANE lane
    dramRun ((d.put F.DRAMC_STAT_READY 0).put F.DRAMC_FCHG_RESULT 2)
  | none, none => dramRun ((putEyes es (storeTrained t es d)).put F.DRAMC_FCHG_RESULT 0)

/-- A rank idle for PD_IDLE × 10 ns enters power-down (R331). -/
def dramPowerDown (rank : Nat) (d : Dev) : Dev :=
  if d.getB F.DRAMC_PD_PD_EN && d.getB F.DRAMC_STAT_READY &&
      decide (cellGet 0 d.rankUsed rank + d.get F.DRAMC_PD_PD_IDLE * 10 ≤ d.now) then
    { d with rankDown := setBit d.rankDown rank }
  else d

/-- Every 32 ms the trackers are renewed and throttling ends (R333). -/
def rhWindowRenew (d : Dev) : Dev := dramRun { d with rows := [], throttled := [] }

/-- The scrubber reads the next installed line through its own master (R337, R369), while DRAM takes requests. -/
def dramScrub (d : Dev) : Dev :=
  if !(d.getB F.DRAMC_SCRUB_EN && d.getB F.DRAMC_STAT_READY && dramTakes d) || cleated d 15 then d else
  let r := engineRead1 15 (0x1000000000 + 64 * d.scrubPos) 64 d
  { dramRun r.2 with scrubPos := (d.scrubPos + 1) % (dramCap d / 64) }

end Sys2Proof.Machine
end

