-- ==== Sys2Proof/Machine/Print.lean ====
section
/-! DEFINITION. What the print pipeline shares: configurations in force per epoch (R31), copies and lines (R167, R203,
R204), the print log (R209 to R212), rejection marks (R233, R234), PLAN_STOP (R34) and seam-stop (R177 to R184). -/
namespace Sys2Proof.Machine

/-! ### Configurations in force -/

/-- The configuration that applies to the lines of epoch `ord` (R31). -/
def cfgVersion (d : Dev) (ord : Nat) : Version := (d.versions.find? (fun v => decide (v.ord ≤ ord))).getD {}

def cfgFor (d : Dev) (ord : Nat) : FireCfg := (cfgVersion d ord).cfg

/-- A field of a fire-stream page as epoch `ord` uses it. -/
def cfgGet (c : FireCfg) (f : RegField) : Nat := bits (cellGet (resetWord f.addr) c.regs f.addr).toNat f.lo f.width

def cfgGetB (c : FireCfg) (f : RegField) : Bool := cfgGet c f != 0

def cfgGetI (c : FireCfg) (f : RegField) : Int := toSigned f.width (cfgGet c f)

/-- Enabled planes under a configuration (R23). -/
def cfgPlanes (c : FireCfg) : List Nat := (List.range 8).filter (fun p => cfgGetB c (F.PLAN_PLANE_A_EN p))

/-- Bound head ports of a plane, ascending (R23). -/
def cfgPorts (c : FireCfg) (p : Nat) : List Nat :=
  (List.range 32).filter (fun h => cfgGetB c (F.PLAN_HP_A_EN h) && cfgGet c (F.PLAN_HP_A_PLANE h) == p)

/-- W_p of "Admission" (chapter 02). -/
def cfgWidth (c : FireCfg) (p : Nat) : Nat :=
  (cfgPorts c p).foldl (fun w h => max w (cfgGet c (F.PLAN_HP_B_PLANE_OFS h) + cfgGet c (F.PLAN_HP_A_NCOUNT h))) 0

/-- b_p: the stored sample width, bits (chapter 02). -/
def cfgDepth (c : FireCfg) (p : Nat) : Nat :=
  match cfgGet c (F.PLAN_PLANE_A_IN_MODE p) with
  | 0 => 8 | 1 => 12 | 2 => 2 | _ => 3

/-- The configuration the live halves show (R433). -/
def liveCfg (d : Dev) : FireCfg :=
  if d.liveOrd = 0 then (d.versions.getLastD {}).cfg else cfgFor d (d.liveOrd - 1)

/-! ### Copies and lines -/

def Dev.plane (d : Dev) (p : Nat) : Plane := cellGet {} d.planes p

def Dev.setPlane (d : Dev) (p : Nat) (x : Plane) : Dev := { d with planes := cellSet {} d.planes p x }

def Dev.copyAt (d : Dev) (ord : Nat) : Copy := cellGet {} d.copies ord

def Dev.setCopy (d : Dev) (ord : Nat) (c : Copy) : Dev := { d with copies := cellSet {} d.copies ord c }

/-- Whether the descriptor of epoch `ord` has been captured (R166): its REPEAT is then at least 1. -/
def captured (d : Dev) (ord : Nat) : Bool := (d.copyAt ord).desc.repeat_ != 0

/-- The epoch number of the `ord`th epoch since activation (R32). -/
def epochNumber (d : Dev) (ord : Nat) : Nat := (d.epoch0 + ord) % 2 ^ 32

/-- D(E) (R167). -/
def copyStart (d : Dev) (ord : Nat) : Nat :=
  if ord = 0 then 0 else (d.copyAt (ord - 1)).start + (d.copyAt (ord - 1)).desc.repeat_

def pitchOf (d : Dev) (p : Nat) : Nat := d.get (F.LEV_PITCH_PITCH p)

def originOf (d : Dev) (p : Nat) : Int := toSigned 48 (d.get2 (F.LEV_ORIGIN_LO_ORIGIN p) (F.LEV_ORIGIN_HI_ORIGIN p))

/-- n(E, p): the first line of epoch `ord` on plane `p` (R167). -/
def firstLine (d : Dev) (ord p : Nat) : Nat :=
  if pitchOf d p = 0 then 0 else ceilDiv (copyStart d ord * 65536) (pitchOf d p)

/-- P(n): the boundary of line `n` (R47). -/
def boundary (d : Dev) (p n : Nat) : Int := originOf d p + ((n * pitchOf d p / 65536 : Nat) : Int)

/-- The epoch, counted from activation, that contains line `n` of plane `p`, among those whose first line is known: the
last one that starts at or before it (R167, R460). -/
def ordOfLine (d : Dev) (p n : Nat) : Nat :=
  let k := ((List.range (d.copies.length + 1)).filter (fun o => (o == 0 || captured d (o - 1)) && decide (firstLine d o p ≤ n)))
  k.getLastD 0

/-- The pass number k(E) (R203). -/
def passOf (d : Dev) (ord : Nat) : Nat :=
  let v := cfgVersion d ord
  (ord - v.passBase) % (cfgGet v.cfg F.SCR_PASS_GROUP_M1 + 1)

/-- Whether epoch `ord` runs in reverse (R203). -/
def passReverse (d : Dev) (ord : Nat) : Bool := cfgGetB (cfgFor d ord) F.SCR_PASS_BIDIR && passOf d ord % 2 == 1

/-- Ω(E) (R204). -/
def copyOmega (d : Dev) (ord : Nat) : Nat :=
  if ord = 0 then 0 else
  (d.copyAt (ord - 1)).omega + (if passOf d (ord - 1) = 0 then 0 else (d.copyAt (ord - 1)).desc.repeat_)

/-- The transform of epoch `ord` on plane `p`: X_eff = sign × X + offset (R204). -/
def transform (d : Dev) (p ord : Nat) : Bool × Int :=
  let k := passOf d ord
  let g := ord - k
  let phi : Int := (copyStart d g : Int) - copyOmega d g
  let ph : Int := if bit (cfgGet (cfgFor d ord) F.SCR_PASS_PHASE) k then ((pitchOf d p / 131072 : Nat) : Int) else 0
  let dE : Int := copyStart d ord
  if passReverse d ord then
    let rep := (d.copyAt (if captured d ord then ord else g)).desc.repeat_
    (true, 2 * originOf d p + phi + dE + rep - ph)
  else (false, dE - phi - ph)

/-- X_eff of a count `x` (R204). -/
def effective (tr : Bool × Int) (x : Int) : Int := if tr.1 then tr.2 - x else x + tr.2

/-- The epoch that EPOCH_NOW names, counted from activation. -/
def ordNow (d : Dev) : Nat := (d.get F.EPOCH_NOW_EPOCH + 2 ^ 32 - d.epoch0) % 2 ^ 32

/-! ### PLAN_STOP -/

/-- What a PLAN_STOP takes out of the pipelines: lines of later epochs under MODE 1, every line not launched under MODE 2
(R34). -/
def stopWithdraw (d : Dev) : Dev :=
  forN 8 (fun p d =>
    let x := d.plane p
    let keep (n : Nat) : Bool := d.stopMode == 1 && decide (ordOfLine d p n ≤ d.stopOrd)
    d.setPlane p { x with
      slots := x.slots.filter (fun s => keep s.line)
      assigns := x.assigns.filter (fun a => keep a.line) }) d

/-- Apply PLAN_STOP MODE 1 or 2 (R34): mode 2 overrides a pending mode 1, mode 1 is ignored while mode 2 is pending. -/
def applyStop (mode : Nat) (d : Dev) : Dev :=
  if !d.planActive then d
  else if mode = 2 then stopWithdraw { d with stopMode := 2 }
  else if d.stopMode = 0 then stopWithdraw { d with stopMode := 1, stopOrd := ordNow d }
  else d

/-! ### The print log -/

/-- A record of 96 bytes: header and body (R211). -/
def logBytes (typ plane seq epoch beat job : Nat) (body : List Byte) : List Byte :=
  let h := leBytes 1 typ ++ leBytes 1 plane ++ leBytes 2 0 ++ leBytes 4 seq ++ leBytes 4 epoch ++ leBytes 4 beat
    ++ leBytes 4 job
  (h ++ body ++ List.replicate 76 0).take 96

/-- The record at the ring's head has been written (R209). -/
def plogWrote (d : Dev) : Dev :=
  let d := d.put F.PLOG_HEAD_HEAD ((d.get F.PLOG_HEAD_HEAD + 1) % d.get F.PLOG_SIZE_SIZE)
  { d with plogHeld := d.plogHeld + 1 }

/-- Put a finished record at the ring's head (R209). -/
def plogRing (r : List Byte) (d : Dev) : Dev :=
  let a := d.get2 F.PLOG_BASE_LO_BASE F.PLOG_BASE_HI_BASE + d.get F.PLOG_HEAD_HEAD * 96
  afterWrite 10 .plog plogWrote (engineWrite 10 a r d)

/-- Append a record: to the ring, else to the reserve of 64, else it is dropped and counted (R210); while the log's master is
cleated nothing goes to the ring (R360, R377). -/
def plogAppend (r : List Byte) (d : Dev) : Dev :=
  if d.plogReserve.isEmpty && !cleated d 10 && decide (d.plogHeld < d.get F.PLOG_SIZE_SIZE) then plogRing r d
  else if d.plogReserve.length < 64 then
    let d := { d with plogReserve := d.plogReserve ++ [r] }
    let d := (d.put F.PLOG_STAT_FULL 1).raise 0x12 0
    if d.getB F.PLOG_CFG_STOP_FULL then applyStop 1 d else d
  else { d.count F.PLOG_STAT_DROPS 1 with plogLost := d.plogLost + 1 }

/-- Whether a record can be kept: in the ring or in the reserve (R210). -/
def plogRoom (d : Dev) : Bool := decide (d.plogReserve.length < 64)

/-- Make a record of the next SEQ. -/
def plogMake (typ plane epoch : Nat) (body : List Byte) (d : Dev) : List Byte × Dev :=
  (logBytes typ plane (d.get F.PLOG_SEQ_SEQ) epoch (d.beatNum % 2 ^ 32) d.planJob body,
   d.put F.PLOG_SEQ_SEQ (d.get F.PLOG_SEQ_SEQ + 1))

/-- State the records lost, when there is room again (R210, R211). -/
def plogLoss (d : Dev) : Dev :=
  if d.plogLost != 0 && plogRoom d then
    let r := plogMake 0x09 0xFF (d.get F.EPOCH_NOW_EPOCH) (leBytes 4 0 ++ leBytes 4 d.plogLost) { d with plogLost := 0 }
    plogAppend r.1 r.2
  else d

/-- Write a print-log record (R209 to R211); `body` starts at byte 20. -/
def plogWrite (typ plane epoch : Nat) (body : List Byte) (d : Dev) : Dev :=
  let d := plogLoss d
  let r := plogMake typ plane epoch body d
  plogAppend r.1 r.2

/-- Move records from the reserve into the ring while it has space (R210). -/
def plogDrain : Nat → Dev → Dev
  | 0, d => d
  | k + 1, d =>
    match d.plogReserve with
    | [] => d.put F.PLOG_STAT_FULL 0
    | r :: rs =>
      if d.plogHeld < d.get F.PLOG_SIZE_SIZE ∧ cleated d 10 = false then plogDrain k (plogRing r { d with plogReserve := rs }) else d

/-- Release the `k` oldest records of the ring (R209, R134). -/
def plogRelease (k : Nat) (d : Dev) : Dev :=
  let d := { d with plogHeld := d.plogHeld - k }
  let d := d.put F.PLOG_SENT_SENT ((d.get F.PLOG_SENT_SENT + k) % d.get F.PLOG_SIZE_SIZE)
  plogLoss (plogDrain 66 d)

/-- The `k` oldest records of the print log are released by firmware: those of them under way in PRINT_LOG messages are no longer
theirs to release (R209). -/
def plogUnsend (k : Nat) (d : Dev) : Dev :=
  let n := min k d.jtp.plogSent
  let f (b : Nat) (x : Sess) : Nat × Sess :=
    let r := x.sent.foldl (fun (r : Nat × List SentMsg) m =>
      if m.type = 0x0D then (r.1 - min r.1 m.records, r.2 ++ [{ m with records := m.records - min r.1 m.records }])
      else (r.1, r.2 ++ [m])) (b, [])
    (r.1, { x with sent := r.2 })
  let r := d.jtp.sess.foldl (fun (r : Nat × Cells Sess) e => let y := f r.1 e.2; (y.1, r.2 ++ [(e.1, y.2)])) (n, [])
  { d with jtp := { d.jtp with sess := r.2, plogSent := d.jtp.plogSent - n } }

/-- A write of PLOG_SENT with LOCAL set (R209); without LOCAL the field is read-only. -/
def plogSentWrite (v : Nat) (d : Dev) : Dev :=
  if !d.getB F.PLOG_CFG_LOCAL then d else
  let n := d.get F.PLOG_SIZE_SIZE
  let k := (v % 2 ^ 20 + n - d.get F.PLOG_SENT_SENT % n) % n
  if d.plogHeld < k then d.refuseAt R.PLOG_SENT else plogRelease k (plogUnsend k d)

/-- A write of PLOG_BASE or PLOG_SIZE empties the ring; the records held are counted as dropped (R209). `put` is the
write itself. -/
def plogRewrite (put : Dev → Dev) (d : Dev) : Dev :=
  let n := d.plogHeld + d.plogReserve.length
  let d := heldDrop 10 (put d)
  let d := ((d.put F.PLOG_HEAD_HEAD 0).put F.PLOG_SENT_SENT 0).put F.PLOG_STAT_FULL 0
  let d := d.count F.PLOG_STAT_DROPS n
  { d.forgetRecords 0x0D with plogHeld := 0, plogReserve := [], plogLost := d.plogLost + n }

/-! ### Line records -/

/-- The bound L of R148, bytes. -/
def lineBound (w b : Nat) : Nat := ceilDiv (w * b + 16 * ceilDiv w 2048 + 32) 8

/-- The extent of a line record, bytes, from its header word (R459). -/
def recordExtent (w b h : Nat) : Nat :=
  let n := h % 2 ^ 24
  if h / 2 ^ 28 != 11 || bit h 24 || decide (n < 4) || decide (lineBound w b < n) then 4 else n

/-! ### Copy records -/

/-- The COPY record of epoch `ord` (R208, R211, R212). -/
def copyRecord (partial_ : Bool) (ord : Nat) (d : Dev) : Dev :=
  let c := d.copyAt ord
  if c.logged || c.desc.repeat_ == 0 then d else
  let en := cfgPlanes (cfgFor d ord)
  let mask := en.foldl setBit 0
  let flags := b2n partial_ + 2 * b2n c.reject + 4 * b2n c.ecc
  let body := leBytes 3 0 ++ leBytes 1 flags ++ leBytes 4 c.desc.tag ++ leBytes 1 mask ++ leBytes 1 c.torn
    ++ leBytes 1 c.reef ++ leBytes 1 c.seam
    ++ ((List.range 8).map (fun p => leBytes 8 (if en.contains p then cellGet 0 c.digest p else 0))).flatten
  let d := plogWrite 0x01 0xFF (epochNumber d ord) body d
  let d := { d with stay := { d.stay with xref := some (epochNumber d ord, (d.get F.PLOG_SEQ_SEQ + 2 ^ 32 - 1) % 2 ^ 32) } }
  d.setCopy ord { c with logged := true }

/-- `n` bytes of the layer stream `s` from byte offset `o`, with wrap; none where a byte is poisoned (R160, R338). -/
def streamRead (s : Stream) (o n : Nat) (d : Dev) : Option (List Byte) × Dev :=
  let base := s.base * 4096
  let cap := max 1 (s.size * 4096)
  let o := if s.ring then o % cap else o
  let n0 := if s.ring then min n (cap - o) else n
  let a := engineRead 8 (base + o) n0 d
  if n0 = n then a else
  let b := engineRead 8 base (n - n0) a.2
  (match a.1, b.1 with
    | some x, some y => some (x ++ y)
    | _, _ => none, b.2)

/-- The byte offset in ring `s` of a reader at count `pos`. -/
def ringOffset (s : Stream) (pos : Nat) : Nat := (s.drain + (pos - s.drained)) % max 1 (s.size * 4096)

/-- Bytes of ring `s` from count `pos` up to the fill mark. -/
def ringAvail (s : Stream) (pos : Nat) : Nat := s.drained + s.held - pos

/-- The extent of the value record of width `w` and depth `b` at count `pos` of ring `s`; none while it is absent (R174,
R459), or where the store prefetch may not read it (R377). -/
def ringRecord (s : Stream) (w b pos : Nat) (d : Dev) : Option Nat × Dev :=
  if ringAvail s pos < 4 then (none, d) else
  let h := streamRead s (ringOffset s pos) 4 d
  if cleated h.2 8 then (none, h.2) else
  let n := recordExtent w b (beAt (h.1.getD []) 0 4)
  (if ringAvail s pos < n then none else some n, h.2)

/-- Pass over the value records still to be skipped, as far as they are present (R172). -/
def resolveSkips : Nat → DecState → Dev → DecState × Dev
  | 0, s, d => (s, d)
  | fuel + 1, s, d =>
    match s.skips with
    | [] => (s, d)
    | (_, _, 0) :: r => resolveSkips fuel { s with skips := r } d
    | (w, b, k + 1) :: r =>
      let x := ringRecord (cellGet {} d.streams (s.ovId.getD 0)) w b s.ovPos d
      match x.1 with
      | none => (s, x.2)
      | some n => resolveSkips fuel { s with ovPos := s.ovPos + n, skips := (w, b, k) :: r } x.2

/-- How many steps passing over every record of `s` can take. -/
def skipFuel (s : DecState) : Nat := (s.skips.map (fun q => q.2.2 + 1)).sum

/-- Drain ring `id` up to count `pos`, or to its fill mark (R172). -/
def ringDrain (id : Option Nat) (pos : Nat) (d : Dev) : Dev :=
  match id with
  | none => d
  | some i =>
    let s : Stream := cellGet {} d.streams i
    let k := min (pos - s.drained) s.held
    { d with streams := cellSet {} d.streams i { s with
        drain := (s.drain + k) % max 1 (s.size * 4096)
        held := s.held - k
        drained := s.drained + k } }

/-- Plane `p` has launched or passed over every line of epoch `ord`; the COPY record follows the last plane, and the
overlay rings drain past the copy (R172, R208). -/
def copyDone (p ord : Nat) (d : Dev) : Dev :=
  let c := d.copyAt ord
  if bit c.done p then d else
  let d := d.setCopy ord { c with done := setBit c.done p }
  let d := if bit c.desc.ovlPlanes p then
      let x := d.plane p
      let r := resolveSkips (skipFuel x.dec) x.dec d
      let d := r.2.setPlane p { x with dec := r.1 }
      ringDrain r.1.maskId r.1.maskPos (ringDrain r.1.ovId r.1.ovPos d)
    else d
  if (cfgPlanes (cfgFor d ord)).all (fun q => bit (d.copyAt ord).done q) then copyRecord false ord d else d

/-! ### Rejection marks -/

/-- Drive REJECT_MARK for REJ_WIDTH µs from now; overlapping marks merge (R233). -/
def rejectStart (d : Dev) : Dev :=
  if !d.getB F.FIRE_CFG_REJ_EN then d else
  let e := d.now + d.get F.FIRE_CFG_REJ_WIDTH * 1000
  { d.drive .rejectMark 0 1 with rejectEnd := some (max e (d.rejectEnd.getD 0)) }

/-- FIRE_STAT.REJ_PEND counts the marks that wait (R234). -/
def rejectPend (d : Dev) : Dev := d.put F.FIRE_STAT_REJ_PEND (d.rejects.length + d.rejectPts.length)

/-- The count of plane REJ_PLANE at which copy `ord` is marked; none before its first line is known (R167, R233). -/
def rejectPoint (d : Dev) (ord : Nat) : Option Int :=
  let q := d.get F.FIRE_CFG_REJ_PLANE
  if ord = 0 ∨ captured d (ord - 1) = true then
    some (boundary d q (firstLine d ord q) + toSigned 48 (d.get2 F.FIRE_REJ_DIST_LO_DIST F.FIRE_REJ_DIST_HI_DIST))
  else none

/-- Mark copy `ord` of the active plan for rejection (R233, R234). -/
def rejectMark (ord : Nat) (d : Dev) : Dev :=
  let d := d.setCopy ord { d.copyAt ord with reject := true }
  if d.rejects.contains ord then d
  else if 64 ≤ d.rejects.length + d.rejectPts.length then (d.put F.FIRE_STAT_REJ_OVF 1).drive .rejectMark 0 1
  else match (d.plane (d.get F.FIRE_CFG_REJ_PLANE)).hwm, rejectPoint d ord with
    | some h, some x =>
      if x ≤ h then (rejectStart d).put F.FIRE_STAT_REJ_LATE 1 else rejectPend { d with rejects := d.rejects ++ [ord] }
    | _, _ => rejectPend { d with rejects := d.rejects ++ [ord] }

/-- The position of plane REJ_PLANE reaches `x` (X_eff): marks whose point is reached rise (R233). -/
def rejectReach (x : Int) (d : Dev) : Dev :=
  let hit (o : Nat) : Bool := match rejectPoint d o with
    | some y => decide (y ≤ x)
    | none => false
  if !d.rejects.any hit then d else
  rejectStart (rejectPend { d with rejects := d.rejects.filter (fun o => !hit o) })

/-- The count of plane REJ_PLANE, before any pass transform, reaches `x`: marks of copies of plans that have ended rise where
their point is reached (R233, log entry 55). -/
def rejectPassed (x : Int) (d : Dev) : Dev :=
  if !d.rejectPts.any (fun y => decide (y ≤ x)) then d else
  rejectStart (rejectPend { d with rejectPts := d.rejectPts.filter (fun y => decide (x < y)) })

/-- The mark point of copy `ord` as a count before any pass transform, `tr` being the transform in force (R204, R233). -/
def rejectCount (d : Dev) (tr : Bool × Int) (ord : Nat) : Option Int :=
  (rejectPoint d ord).map (fun y => if tr.1 then tr.2 - y else y - tr.2)

/-- The plan ends: the marks that wait keep their points on the web. A copy whose first line was never known is not printed, and
has none (R233, log entry 55). -/
def rejectKeep (d : Dev) : Dev :=
  let q := d.get F.FIRE_CFG_REJ_PLANE
  let tr := transform d q (ordOfLine d q (d.plane q).cursor)
  rejectPend { d with rejects := [], rejectPts := d.rejectPts ++ d.rejects.filterMap (rejectCount d tr) }

/-- REJ_WIDTH after it rose REJECT_MARK falls, unless an overflow holds it (R233, R234). -/
def rejectMarkEnd (d : Dev) : Dev :=
  match d.rejectEnd with
  | some e =>
    if d.now < e then d else
    let d := { d with rejectEnd := none }
    if d.getB F.FIRE_STAT_REJ_OVF then d else d.drive .rejectMark 0 0
  | none => d

/-- A copy `ord` of the plan that ended last is marked (R233): its mark waits for its point, or rises at once where the plane's
latest position `x` has passed it. -/
def rejectEnded (x : Option Int) (ord : Nat) (d : Dev) : Dev :=
  let q := d.get F.FIRE_CFG_REJ_PLANE
  if !captured d ord then d
  else if 64 ≤ d.rejectPts.length then (d.put F.FIRE_STAT_REJ_OVF 1).drive .rejectMark 0 1
  else match rejectCount d (transform d q (ordOfLine d q (d.plane q).cursor)) ord with
    | none => d
    | some y =>
      if x.any (fun x => decide (y ≤ x)) then (rejectStart d).put F.FIRE_STAT_REJ_LATE 1
      else rejectPend { d with rejectPts := d.rejectPts ++ [y] }

/-- FIRE_CTL.REJ_CLR (R234): the overflow clears and REJECT_MARK is released, unless a mark is still running. -/
def fireRejClr (d : Dev) : Dev :=
  let d := d.put F.FIRE_STAT_REJ_OVF 0
  if d.rejectEnd.isSome then d else d.drive .rejectMark 0 0

/-! ### Seam-stop -/

def seamRun : Nat := 0
def seamStopped : Nat := 1
def seamRearmed : Nat := 2

def causeLate : Nat := 1
def causeDecode : Nat := 2
def causeOverrun : Nat := 3
def causeHeadTemp : Nat := 4
def causeHeadCut : Nat := 5
def causeEncoder : Nat := 6
def causeCleat : Nat := 7
def causeReef : Nat := 8
def causeFirmware : Nat := 9

/-- Whether plane `p` is in seam-stop: stopped and not re-armed (R177, R180). -/
def inSeamStop (d : Dev) (p : Nat) : Bool := d.get (F.STORE_SEAM_STAT_STATE p) == seamStopped

/-- Whether plane `p` holds seam-stop cause `code` (STORE_SEAM_STAT.CAUSES). -/
def holdsCause (d : Dev) (p code : Nat) : Bool := bit (d.get (F.STORE_SEAM_STAT_CAUSES p)) (code - 1)

/-- SEAM_REQ is high while a plane of the chip is in seam-stop (R178, R180). -/
def seamReq (d : Dev) : Dev := d.drive .seamReq 0 (b2n ((List.range 8).any (inSeamStop d)))

/-- The stream state at the start of copy `ord` on plane `p`: line 0 of its background, and its overlay where the rings
stand; a ring selected anew starts at its DRAIN (R169, R170). -/
def enterCopy (d : Dev) (p ord : Nat) (s : DecState) : DecState :=
  let s := { s with bgPos := 0, bgRef := [], bgBad := false, ovRef := [], ovBad := false }
  if !bit (d.copyAt ord).desc.ovlPlanes p then s else
  let c := cfgFor d ord
  let v := cfgGet c (F.LAYER_OV_VAL_STREAM p)
  let m := cfgGet c (F.LAYER_OV_MASK_STREAM p)
  let s := if s.ovId = some v then s
    else { s with ovId := some v, ovPos := (cellGet {} d.streams v : Stream).drained, skips := [] }
  if s.maskId = some m then s else { s with maskId := some m, maskPos := (cellGet {} d.streams m : Stream).drained }

/-- The overlay lines of copy `ord` on plane `p` from line `j` on are passed over: their value records are to be skipped,
their mask bytes are (R170, R172). -/
def skipOverlay (d : Dev) (p ord j : Nat) (s : DecState) : DecState :=
  let e := (d.copyAt ord).desc
  if !bit e.ovlPlanes p then s else
  let k := e.hv - (j - e.y0)
  { s with
    skips := if k = 0 then s.skips else s.skips ++ [(e.wv, cfgDepth (cfgFor d ord) p, k)]
    maskPos := s.maskPos + k * ceilDiv e.wv 8 }

/-- Lines from `next` up to `m` of plane `p` are passed over: the copies they end are complete on it (R177, R208). -/
def passOver (p m : Nat) (d : Dev) : Dev :=
  let x := d.plane p
  if m ≤ x.next then d else
  let o0 := ordOfLine d p x.next
  let o1 := ordOfLine d p m
  let s := if x.next = firstLine d o0 p then enterCopy d p o0 x.dec else x.dec
  let s := skipOverlay d p o0 (x.next - firstLine d o0 p) s
  let s := (List.range (o1 - o0 - 1)).foldl (fun s i => skipOverlay d p (o0 + 1 + i) 0 (enterCopy d p (o0 + 1 + i) s)) s
  let d := d.setPlane p { x with next := m, dec := { s with line := m } }
  forL (List.range (o1 - o0)) (fun i e => copyDone p (o0 + i) e) d

/-- Plane `p` takes seam-stop cause `code` with resume line `m0`: on entry the pipeline is flushed from the resume line,
SEAM_REQ rises, EVENT 0x01 goes out and the stop is logged; while held, causes add up and the larger resume line counts
(R178, R179). Cause 5 passes over the lines from the next one up to its own resume line `m0`, the first line of the next copy
(R177, R183); other lines below the resume line that are assigned still launch. A line launched already is no resume line (log
entry 107). -/
def seamStop (p code m0 : Nat) (d : Dev) : Dev :=
  let x := d.plane p
  let st := d.get (F.STORE_SEAM_STAT_STATE p)
  let m := max x.next (if st = seamRun then m0 else max m0 x.resume)
  let pass := if code = causeHeadCut then max x.next m0 else x.next
  let cur := min (max x.cursor pass) m
  let x := { x with
    resume := m
    seamBeat := if st = seamRun then d.beatNum else x.seamBeat
    slots := x.slots.filter (fun s => decide (pass ≤ s.line) && decide (s.line < m))
    assigns := x.assigns.filter (fun a => decide (pass ≤ a.line) && decide (a.line < m))
    issue := m
    cursor := cur
    hwm := if x.cursor < cur ∧ transform d p (ordOfLine d p x.cursor) ≠ transform d p (ordOfLine d p cur) then none else x.hwm
    reissued := if code = causeDecode then false else x.reissued }
  let d := d.setPlane p x
  let d := d.put (F.STORE_SEAM_STAT_STATE p) seamStopped
  let d := d.put (F.STORE_SEAM_STAT_CAUSES p) (setBit (d.get (F.STORE_SEAM_STAT_CAUSES p)) (code - 1))
  let d := d.put2 (F.STORE_SEAM_M_LO_M p) (F.STORE_SEAM_M_HI_M p) m
  let d := if code = causeHeadCut then passOver p pass d else d
  let e := epochNumber d (ordOfLine d p m)
  let d := (seamReq d).sendEvent 0x01 p m code e
  let d := plogWrite 0x03 p e (leBytes 4 0 ++ leBytes 6 m ++ leBytes 2 (d.get (F.STORE_SEAM_STAT_CAUSES p))) d
  d.raise 0x0E 1

/-- A seam-stop at the first line of the plane not launched (R177). -/
def seamStopNext (p code : Nat) (d : Dev) : Dev := seamStop p code (d.plane p).next d

/-- Cause `code` of plane `p` is cleared (R177). -/
def seamClear (p code : Nat) (d : Dev) : Dev :=
  d.put (F.STORE_SEAM_STAT_CAUSES p) (clearBits (d.get (F.STORE_SEAM_STAT_CAUSES p)) (2 ^ (code - 1)))

/-- The planes at work while a plan is active: those enabled for their next line or by the newest plan captured. -/
def activePlanes (d : Dev) : List Nat :=
  if d.planActive then
    (List.range 8).filter (fun p => cfgGetB (d.versions.headD {}).cfg (F.PLAN_PLANE_A_EN p)
      || cfgGetB (cfgFor d (ordOfLine d p (d.plane p).next)) (F.PLAN_PLANE_A_EN p))
  else []

/-- Every enabled plane enters seam-stop with `code` at its first unlaunched line. -/
def seamStopAll (code : Nat) (d : Dev) : Dev := forL (activePlanes d) (fun p e => seamStopNext p code e) d

/-- After any transaction: the cleat of the store prefetch during a plan stops every enabled plane with cause 7 (R382). -/
def cleatSeam (d : Dev) : Dev :=
  if cleated d 8 && d.planActive then
    forL (activePlanes d) (fun p e => if holdsCause e p causeCleat then e else seamStopNext p causeCleat e) d
  else d

end Sys2Proof.Machine
end

