-- ==== Sys2Proof/Machine/Codec.lean ====
section
/-! DEFINITION. The Sloe raster codec (chapter 07): decoding a line record, encoding one, and the compressor with its
chained output. -/
namespace Sys2Proof.Machine

/-! ### Bits -/

/-- The bits of a byte string, most significant first (R138). -/
def bitsOfBytes (bs : List Byte) : List Bool :=
  (bs.map (fun b => (List.range 8).map (fun i => b.toNat.testBit (7 - i)))).flatten

/-- `n` bits of `x`, most significant first. -/
def natBits (n x : Nat) : List Bool := (List.range n).map (fun i => x.testBit (n - 1 - i))

/-- The value of a bit string, most significant first. -/
def bitsNat (l : List Bool) : Nat := l.foldl (fun a b => 2 * a + b2n b) 0

/-- Pack bits into bytes, most significant first, padding with zero bits (R141). -/
def packBits : Nat → List Bool → List Byte
  | 0, _ => []
  | fuel + 1, l =>
    if l.isEmpty then [] else
    BitVec.ofNat 8 (bitsNat ((l.take 8) ++ List.replicate (8 - (l.take 8).length) false)) :: packBits fuel (l.drop 8)

/-- Read `n` bits; none when the string ends first. -/
def getBits (n : Nat) (l : List Bool) : Option (Nat × List Bool) :=
  if l.length < n then none else some (bitsNat (l.take n), l.drop n)

/-! ### Decoding -/

/-- Error codes of R152. -/
def codecSync : Nat := 0x01
def codecDepth : Nat := 0x02
def codecBytes : Nat := 0x03
def codecBadHeader : Nat := 0x04
def codecPredSize : Nat := 0x05
def codecKcode : Nat := 0x06
def codecResidual : Nat := 0x07
def codecOverrun : Nat := 0x08
def codecPadding : Nat := 0x09
def codecRefInvalid : Nat := 0x0A

/-- What a segment record gives: its samples and the bits after it (`short`: the extent ends within its padding), or the
code of its first failing check. -/
inductive SegResult where
  | ok (x : List Nat) (rest : List Bool) (short : Bool)
  | fail (code : Nat)
  deriving DecidableEq, Repr

/-- The prediction of R144 from the neighbours left, above and above-left. -/
def predict (code a b c : Nat) : Nat :=
  match code with
  | 0 => a
  | 1 => b
  | 2 => (a + b) / 2
  | _ => if max a b ≤ c then min a b else if c ≤ min a b then max a b else a + b - c

/-- The quotient of a Rice code: ones up to 16; the terminator is consumed (R147). -/
def riceOnes : Nat → Nat → List Bool → Option (Nat × List Bool)
  | 0, q, l => some (q, l)
  | _ + 1, _, [] => none
  | fuel + 1, q, b :: l => if b then riceOnes fuel (q + 1) l else some (q, l)

/-- One Rice code with parameter `k` at depth `b` (R147). -/
def riceGet (b k : Nat) (l : List Bool) : Option (Nat × List Bool) :=
  match riceOnes 16 0 l with
  | none => none
  | some (q, l) =>
    if q = 16 then getBits b l
    else match getBits k l with
      | none => none
      | some (r, l) => some (q * 2 ^ k + r, l)

/-- The residual of a zigzag value (R145). -/
def unzig (z : Nat) : Int := if z % 2 = 0 then (z / 2 : Nat) else -(((z + 1) / 2 : Nat) : Int)

/-- The samples of a PRED payload (R144 to R147), over the reference `up`: `i` is the sample index, `a` and `c` its left
and above-left neighbours, `kc` the group's KCODE; `total` is the length of the string at the payload's start and `limit`
its 4 × NIB bits. Every code is read before a check is named, because a code beyond the extent and a reserved KCODE come
before RESIDUAL and OVERRUN in the order of R152: `soft` is the first of those two in that order met so far, 0 for none. -/
def predLoop (b p limit total : Nat) :
    List Nat → Nat → Nat → Nat → Nat → Nat → List Bool → List Nat → SegResult
  | [], _, _, _, _, soft, l, acc =>
    let pad := limit - (total - l.length)
    if soft != 0 then .fail soft
    else if 3 < pad || (l.take pad).any (fun z => z) then .fail codecPadding
    else .ok acc.reverse (l.drop pad) (decide (l.length < pad))
  | u :: us, i, a, c, kc, soft, l, acc =>
    let kr := if i % 64 = 0 then getBits 4 l else some (kc, l)
    match kr with
    | none => .fail codecBytes
    | some (kc, l) =>
      if 12 < kc then .fail codecKcode else
      match (if kc = 12 then some (0, l) else riceGet b kc l) with
      | none => .fail codecBytes
      | some (z, l) =>
        let soft := if 2 ^ b ≤ z then codecResidual
          else if soft = 0 ∧ limit < total - l.length then codecOverrun else soft
        let x := (((predict p a u c : Nat) : Int) + unzig z) % ((2 ^ b : Nat) : Int)
        predLoop b p limit total us (i + 1) x.toNat u kc soft l (x.toNat :: acc)

/-- Decode one segment record of the samples that `up` is the reference of (R142 to R148, R151). A PRED segment of a refused
size has no payload, and so no code that the extent could cut. -/
def decodeSegment (b : Nat) (up : List Nat) (l : List Bool) : SegResult :=
  let n := up.length
  match getBits 16 l with
  | none => .fail codecBytes
  | some (h, l) =>
    match h / 2 ^ 14 with
    | 0 =>
      if l.length < n * b then .fail codecBytes
      else if h % 2 ^ 14 != 0 then .fail codecBadHeader
      else .ok ((List.range n).map (fun i => bitsNat ((l.drop (i * b)).take b))) (l.drop (n * b)) false
    | 1 =>
      if bits h 12 2 != 0 || decide (2 ^ b ≤ h % 2 ^ 12) then .fail codecBadHeader
      else .ok (List.replicate n (h % 2 ^ 12)) l false
    | 2 => if h % 2 ^ 14 != 0 then .fail codecBadHeader else .ok up l false
    | _ =>
      let nib := h % 2 ^ 14
      if nib = 0 ∨ n * b < 4 * nib then .fail codecPredSize
      else match getBits 2 l with
        | none => .fail codecBytes
        | some (p, l') => predLoop b p (4 * nib) l.length up 0 (up.headD 0) (up.headD 0) 0 0 l' []

/-- Split a line of samples into segments of 2,048 (R139). -/
def segments : Nat → List Nat → List (List Nat)
  | 0, _ => []
  | fuel + 1, x => if x.isEmpty then [] else x.take 2048 :: segments fuel (x.drop 2048)

/-- Decode the segments of a line in order: all samples and the bits left, or the failing code and segment. A last segment
whose padding is cut off by the extent leaves a record that is not ceil(T / 8) bytes. -/
def decodeSegments (b : Nat) : List (List Nat) → Nat → Bool → List Bool → List Nat → (List Nat × List Bool) ⊕ (Nat × Nat)
  | [], _, short, l, acc => if short then .inr (codecBytes, 0) else .inl (acc, l)
  | up :: ups, s, _, l, acc =>
    match decodeSegment b up l with
    | .fail c => .inr (c, s)
    | .ok x l short => decodeSegments b ups (s + 1) short l (acc ++ x)

/-- The DEPTH code of a stored width (R140). -/
def depthCode (b : Nat) : Nat :=
  match b with
  | 2 => 0 | 3 => 1 | 8 => 2 | _ => 3

/-- Decode the line record `bs` (its whole extent) of `w` samples at depth `b` against `ref`; `bad` says that the
reference is invalid. The samples, or the failing code and segment (R152, R153). A record whose BYTES gives no extent fails
BYTES once SYNC passes (R459), whatever its DEPTH. -/
def decodeLine (w b : Nat) (ref : List Nat) (bad : Bool) (bs : List Byte) : List Nat ⊕ (Nat × Nat) :=
  let h := beAt bs 0 4
  let n := h % 2 ^ 24
  let indep := bit h 25
  if h / 2 ^ 28 != 11 || bit h 24 then .inr (codecSync, 0)
  else if n < 4 ∨ lineBound w b < n then .inr (codecBytes, 0)
  else if bits h 26 2 != depthCode b then .inr (codecDepth, 0)
  else
    let zero := List.replicate w 0
    let up := if indep || bad || ref.length != w then zero else ref
    match decodeSegments b (segments (w + 1) up) 0 false (bitsOfBytes (bs.drop 4)) [] with
    | .inr e => .inr e
    | .inl (x, l) =>
      if 8 ≤ l.length || l.any (fun z => z) then .inr (codecBytes, 0)
      else if bad && !indep then .inr (codecRefInvalid, 0)
      else .inl x

/-- The value a lane delivers for a stored sample (R149). -/
def deliver (mode v : Nat) : Nat := if mode = 0 then v * 16 + v / 16 else v

/-! ### Encoding -/

/-- The zigzag value of sample `x` predicted as `p` at depth `b` (R145). -/
def zigzag (b x p : Nat) : Nat :=
  let m := 2 ^ b
  let e := (x + m - p % m) % m
  if e < m / 2 then 2 * e else 2 * (m - e) - 1

/-- The zigzag values of a segment under predictor `p` (R144). -/
def zigLoop (b p : Nat) : List Nat → List Nat → Nat → Nat → List Nat
  | u :: us, x :: xs, a, c => zigzag b x (predict p a u c) :: zigLoop b p us xs x u
  | _, _, _, _ => []

/-- The bits of one value at parameter `k` (R147, R155: the escape exactly when q ≥ 16). -/
def riceBits (b k z : Nat) : List Bool :=
  let q := z / 2 ^ k
  if 16 ≤ q then List.replicate 16 true ++ natBits b z
  else List.replicate q true ++ [false] ++ natBits k z

def riceLen (b k z : Nat) : Nat :=
  let q := z / 2 ^ k
  if 16 ≤ q then 16 + b else q + 1 + k

/-- The KCODE of a group: ZERO, or the k from 0 to 11 with the fewest bits, the lower on a tie (R155). -/
def groupK (b : Nat) (zs : List Nat) : Nat :=
  if zs.all (· == 0) then 12 else
  let cost (k : Nat) : Nat := (zs.map (riceLen b k)).sum
  (List.range 12).foldl (fun best k => if cost k < cost best then k else best) 0

/-- The bits of the groups of a segment. -/
def groupBits (b : Nat) : Nat → List Nat → List Bool
  | 0, _ => []
  | fuel + 1, zs =>
    if zs.isEmpty then [] else
    let g := zs.take 64
    let k := groupK b g
    natBits 4 k ++ (if k = 12 then [] else (g.map (riceBits b k)).flatten) ++ groupBits b fuel (zs.drop 64)

/-- A PRED candidate: its segment record, when it fits (R148, R155). -/
def predCandidate (b p : Nat) (up x : List Nat) : Option (List Bool) :=
  let zs := zigLoop b p up x (up.headD 0) (up.headD 0)
  let payload := natBits 2 p ++ groupBits b (x.length + 1) zs
  let nib := ceilDiv payload.length 4
  if 4 * nib ≤ x.length * b then
    some (natBits 16 (3 * 2 ^ 14 + nib) ++ payload ++ List.replicate (4 * nib - payload.length) false)
  else none

def rawSegment (b : Nat) (x : List Nat) : List Bool := natBits 16 0 ++ (x.map (natBits b)).flatten

/-- The segment record the compressor chooses (R155). -/
def encodeSegment (b : Nat) (raw : Bool) (up x : List Nat) : List Bool :=
  if raw then rawSegment b x else
  let fill := if x.all (· == x.headD 0) then [natBits 16 (2 ^ 14 + x.headD 0)] else []
  let above := if x = up then [natBits 16 (2 * 2 ^ 14)] else []
  let preds := (List.range 4).filterMap (fun p => predCandidate b p up x)
  let cands := fill ++ above ++ preds ++ [rawSegment b x]
  cands.foldl (fun best c => if c.length < best.length then c else best) (cands.headD [])

/-- A line record (R140, R141); `raws` are the segments written RAW by fallback or after a mismatch. -/
def encodeLine (b : Nat) (indep : Bool) (raws : List Nat) (ref x : List Nat) : List Byte :=
  let up := if indep then List.replicate x.length 0 else ref
  let ss := (segments (x.length + 1) up).zip (segments (x.length + 1) x)
  let body := (ss.zipIdx.map (fun q => encodeSegment b (raws.contains q.2) q.1.1 q.1.2)).flatten
  let n := ceilDiv (32 + body.length) 8
  let h := 11 * 2 ^ 28 + depthCode b * 2 ^ 26 + b2n indep * 2 ^ 25 + n
  beBytes 4 h ++ packBits (body.length + 1) body

/-! ### The compressor -/

def cmpDepth (d : Dev) : Nat :=
  match d.get F.CMP_CFG_DEPTH with
  | 0 => 2 | 1 => 3 | 2 => 8 | _ => 12

/-- Byte address of the descriptor at index `i` (R157). -/
def cmpDescAddr (d : Dev) (i : Nat) : Nat := d.get2 F.CMP_DESC_BASE_LO_BASE F.CMP_DESC_BASE_HI_BASE + 16 * i

/-- Write STATUS of the descriptor at index `h`, with DONE (R157). -/
def cmpStatus (h used : Nat) (last partial_ fault : Bool) (d : Dev) : Dev :=
  engineWrite 9 (cmpDescAddr d h + 12)
    (leBytes 4 (used + b2n last * 2 ^ 28 + b2n partial_ * 2 ^ 29 + b2n fault * 2 ^ 30 + 2 ^ 31)) d

/-- HEAD advances past a descriptor that has its STATUS (R157). -/
def cmpHeadNext (d : Dev) : Dev :=
  d.put F.CMP_DESC_HEAD_HEAD ((d.get F.CMP_DESC_HEAD_HEAD + 1) % max 1 (d.get F.CMP_DESC_SIZE_SIZE))

/-- The job has ended, its last STATUS written; `adv` says that this was the descriptor at HEAD (R157, R158). -/
def cmpEnded (adv partial_ fault : Bool) (d : Dev) : Dev :=
  let d := if adv then cmpHeadNext d else d
  let d := ((d.put F.CMP_STAT_BUSY 0).put F.CMP_STAT_STALLED 0).put F.CMP_STAT_DONE 1
  let d := (d.putB F.CMP_STAT_PARTIAL partial_).putB F.CMP_STAT_FAULT fault
  let d := d.put2 F.CMP_VALID_LO_VALID F.CMP_VALID_HI_VALID d.cmp.valid
  { d.put F.CMP_LINES_DONE_LINES d.cmp.lines with cmp := {} }

/-- The job ends: the current buffer, be it already full, receives LAST (R156 to R158). -/
def cmpEnd (partial_ fault : Bool) (d : Dev) : Dev :=
  match d.cmp.buf, d.cmp.full with
  | some (_, _, used), _ =>
    afterWrite 9 (.cmpEnd true partial_ fault) (cmpEnded true partial_ fault)
      (cmpStatus (d.get F.CMP_DESC_HEAD_HEAD) used true partial_ fault d)
  | none, some (h, n) =>
    afterWrite 9 (.cmpEnd false partial_ fault) (cmpEnded false partial_ fault) (cmpStatus h n true partial_ fault d)
  | none, none => cmpEnded false partial_ fault d

/-- A descriptor that cannot be used receives DONE and FAULT, and the job ends (R157). -/
def cmpBad (d : Dev) : Dev :=
  afterWrite 9 (.cmpEnd true true true) (cmpEnded true true true)
    (cmpStatus (d.get F.CMP_DESC_HEAD_HEAD) 0 false false true { d with cmp := { d.cmp with buf := none, full := none } })

/-- Take the next buffer of the chain (R157); false when the chain is exhausted (R158). -/
def cmpTakeBuf (d : Dev) : Bool × Dev :=
  let h := d.get F.CMP_DESC_HEAD_HEAD
  if h = d.get F.CMP_DESC_TAIL_TAIL then (false, d) else
  let r := engineRead 9 (cmpDescAddr d h) 16 d
  let bs := r.1.getD []
  let a := leAt bs 0 8 % 2 ^ 40
  let n := leAt bs 8 4
  if r.1.isSome && n % 4096 == 0 && decide (4096 ≤ n) && decide (n ≤ 1048576) then
    (true, { r.2 with cmp := { r.2.cmp with buf := some (a, n, 0), full := none } })
  else (true, afterWrite 9 .cmpBad cmpBad r.2)

/-- The descriptor of a full buffer has its STATUS (R157). -/
def cmpFilled (d : Dev) : Dev :=
  let h := d.get F.CMP_DESC_HEAD_HEAD
  match d.cmp.buf with
  | some (_, n, _) => { cmpHeadNext d with cmp := { d.cmp with buf := none, full := some (h, n) } }
  | none => d

/-- `k` bytes of the waiting ones are in the current buffer; a full one receives DONE (R157). -/
def cmpWrote (k : Nat) (d : Dev) : Dev :=
  match d.cmp.buf with
  | none => d
  | some (a, n, used) =>
    let d := { d with cmp := { d.cmp with rest := d.cmp.rest.drop k, written := d.cmp.written + k
                                          buf := some (a, n, used + k) } }
    if used + k = n then
      afterWrite 9 .cmpFull cmpFilled (cmpStatus (d.get F.CMP_DESC_HEAD_HEAD) n false false false d)
    else d

/-- Put the waiting bytes into the chain's buffers (R157, R158); the compressor stops where its master is cleated (R377). -/
def cmpFlush : Nat → Dev → Dev
  | 0, d => d
  | fuel + 1, d =>
    if d.cmp.rest.isEmpty || cleated d 9 || !d.getB F.CMP_STAT_BUSY then d else
    match d.cmp.buf with
    | none =>
      match cmpTakeBuf d with
      | (true, d) => cmpFlush fuel d
      | (false, d) =>
        if d.getB F.CMP_CFG_EXHAUST then cmpEnd true false d else (d.raise 0x10 2).put F.CMP_STAT_STALLED 1
    | some (a, n, used) =>
      let k := min (n - used) d.cmp.rest.length
      cmpFlush fuel (afterWrite 9 (.cmpData k) (cmpWrote k) (engineWrite 9 (a + used) (d.cmp.rest.take k) d))

/-- CMP_CMD.START (R154). -/
def compressorStart (tap : Bool) (d : Dev) : Dev :=
  if !d.enabled 0x10 || d.getB F.CMP_STAT_BUSY then d.refuseAt R.CMP_CMD else
  let d := (((d.put F.CMP_STAT_BUSY 1).put F.CMP_STAT_STALLED 0).put F.CMP_STAT_PARTIAL 0).put F.CMP_STAT_FAULT 0
  let d := (d.put2 F.CMP_VALID_LO_VALID F.CMP_VALID_HI_VALID 0).put F.CMP_LINES_DONE_LINES 0
  { d with cmp := { tap := tap } }

/-- CMP_CMD.ABORT (R158). -/
def compressorAbort (d : Dev) : Dev := if d.getB F.CMP_STAT_BUSY then cmpEnd true false d else d

/-! ### The input queue (R155) -/

/-- Bytes in the input queue: a sample takes 2 (log entry 114). -/
def cmpQueued (d : Dev) : Nat := 2 * (d.cmp.queue.map List.length).sum

/-- Whether the queue has no room for a line of `n` samples. -/
def cmpQueueFull (d : Dev) (n : Nat) : Bool := decide (512 * 1024 < cmpQueued d + 2 * n)

/-- The fall-back at a fill of `b` bytes: on beyond QHI sixteenths, off below QLO sixteenths, else as it was. -/
def cmpFallback (d : Dev) (b : Nat) (on : Bool) : Bool :=
  if d.get F.CMP_CFG_QHI * 32768 < b then true else if b < d.get F.CMP_CFG_QLO * 32768 then false else on

/-- A tap line enters the queue. -/
def cmpEnqueue (px : List Nat) (d : Dev) : Dev :=
  let d := { d with cmp := { d.cmp with queue := d.cmp.queue ++ [px] } }
  { d with cmp := { d.cmp with raw := cmpFallback d (cmpQueued d) d.cmp.raw } }

/-- The segments of a line of `n` samples that are written RAW, and the fall-back after it; `fill s` is what the queue holds as
segment `s` is taken, bytes. -/
def cmpRawSegments (d : Dev) (fill : Nat → Nat) (n : Nat) : List Nat × Bool :=
  (List.range (ceilDiv n 2048)).foldl (fun (a : List Nat × Bool) s =>
    let on := cmpFallback d (fill s) a.2
    (if on then a.1 ++ [s] else a.1, on)) ([], d.cmp.raw)

/-- What the queue holds as segment `s` of a line is taken: a tap's queue falls by a segment's samples; how fast DRAM fills it is
not the spec's, and `fills` says it segment by segment (log entry 114). -/
def cmpFill (d : Dev) (fills : List Nat) (s : Nat) : Nat :=
  if d.cmp.tap then cmpQueued d - 4096 * s else min (fills.getD s 0) (512 * 1024)

/-- Whether a line record is under way (R158): bytes wait for a buffer, or the source has a line. -/
def cmpInRecord (d : Dev) : Bool :=
  d.getB F.CMP_STAT_BUSY && (!d.cmp.rest.isEmpty || !d.cmp.tap || !d.cmp.queue.isEmpty)

/-- The next source line: from DRAM, or from the tap's queue (R154). -/
def cmpSource (d : Dev) : Option (List Nat) × Dev :=
  if d.cmp.tap then
    match d.cmp.queue with
    | [] => (none, d)
    | x :: xs => (some (x.map (· % 2 ^ cmpDepth d)), { d with cmp := { d.cmp with queue := xs } })
  else
    let w := d.get F.CMP_WIDTH_W
    let sz := if cmpDepth d = 12 then 2 else 1
    let a := d.get2 F.CMP_SRC_LO_SRC F.CMP_SRC_HI_SRC + d.cmp.lines * d.get F.CMP_STRIDE_STRIDE
    let r := engineRead 9 a (w * sz) d
    (r.1.map (fun bs => (List.range w).map (fun i => leAt bs (i * sz) sz % 2 ^ cmpDepth d)), r.2)

/-- After a line record's bytes are in buffers, the line is complete; the job ends with its last line (R158), and after the
line where the block is STOPPING. -/
def cmpLineComplete (d : Dev) : Dev :=
  if !d.getB F.CMP_STAT_BUSY || !d.cmp.rest.isEmpty || cleated d 9 || d.cmp.written == d.cmp.valid then d else
  let d := { d with cmp := { d.cmp with lines := d.cmp.lines + 1, valid := d.cmp.written } }
  let d := d.put2 F.CMP_VALID_LO_VALID F.CMP_VALID_HI_VALID d.cmp.valid
  let d := d.put F.CMP_LINES_DONE_LINES d.cmp.lines
  if d.get F.CMP_LINES_LINES != 0 && d.cmp.lines == d.get F.CMP_LINES_LINES then cmpEnd false false d
  else if d.getB (F.PG_STAT_STOPPING 0x10) then cmpEnd true false d
  else d

/-- Output goes on after the release of the compressor's master (R378). -/
def cmpResume (d : Dev) : Dev :=
  if !d.getB F.CMP_STAT_BUSY || d.getB F.CMP_STAT_STALLED then d
  else cmpLineComplete (cmpFlush (d.cmp.rest.length + 600) d)

/-- The compressor finishes, verifies and appends a line record (R155, R156). `fills` is what the input queue of a DRAM line
holds as each segment is taken, `bad` are the segments whose verification failed, `rawBad` says that a RAW rewrite failed too. -/
def compressorLineDone (fills bad : List Nat) (rawBad : Bool) (d : Dev) : Dev :=
  if !d.getB F.CMP_STAT_BUSY || d.getB F.CMP_STAT_STALLED || cleated d 9 || !d.cmp.rest.isEmpty then d else
  let raws := cmpRawSegments d (cmpFill d fills) (if d.cmp.tap then (d.cmp.queue.headD []).length else d.get F.CMP_WIDTH_W)
  match cmpSource d with
  | (none, d) => if d.cmp.tap then (if d.cmp.ended then cmpEnd (d.get F.CMP_LINES_LINES != 0) false d else d)
                 else cmpEnd true true d
  | (some x, d) =>
    let b := cmpDepth d
    let fb := if d.getB F.CMP_CFG_NO_FALLBACK then [] else raws.1
    let d := { d with cmp := { d.cmp with raw := if d.cmp.tap then cmpFallback d (cmpQueued d) raws.2 else raws.2 } }
    let nseg := ceilDiv x.length 2048
    let bad := bad.filter (fun s => decide (s < nseg))
    let d := d.count F.CMP_RAWFALL_COUNT fb.length
    let d := if bad.isEmpty then d else (d.count F.CMP_STAT_VERIFY_FAIL bad.length).raise 0x10 1
    if rawBad && !bad.isEmpty then cmpEnd true true d else
    let indep := d.cmp.lines == 0
    let bs := encodeLine b indep (fb ++ bad) d.cmp.ref x
    let d := { d with cmp := { d.cmp with ref := x, rest := bs } }
    cmpLineComplete (cmpFlush (bs.length + 600) d)

/-- A write of CMP_DESC_TAIL: the first advance resumes a stalled job (R157, R158). -/
def cmpDescTailWrite (v : Nat) (d : Dev) : Dev :=
  let d := d.put F.CMP_DESC_TAIL_TAIL v
  if d.getB F.CMP_STAT_STALLED && d.get F.CMP_DESC_TAIL_TAIL != d.get F.CMP_DESC_HEAD_HEAD then
    cmpResume (d.put F.CMP_STAT_STALLED 0)
  else d

end Sys2Proof.Machine
end

