-- ==== Sys2Proof/Machine/Crypto.lean ====
section
/-! DEFINITION. The checks and ciphers the spec names: CRC-32C (R109), AES-256-GCM (R119),
SHA-384 and ECDSA on P-384 (R419). -/
namespace Sys2Proof.Machine

/-! ### Cyclic checks -/

/-- One byte of a reflected CRC with polynomial `poly` (reflected form). -/
def crcByte (poly : Nat) (c b : Nat) : Nat :=
  (List.range 8).foldl (fun c _ => if c % 2 = 1 then Nat.xor (c / 2) poly else c / 2) (Nat.xor c b)

/-- CRC-32C of a byte string (R109). -/
def crc32c (bs : List Byte) : Nat :=
  Nat.xor (bs.foldl (fun c b => crcByte 0x82F63B78 c b.toNat) 0xFFFFFFFF) 0xFFFFFFFF

/-! ### AES-256 -/

def aesBox : List Nat :=
  [0x63, 0x7c, 0x77, 0x7b, 0xf2, 0x6b, 0x6f, 0xc5, 0x30, 0x1, 0x67, 0x2b, 0xfe, 0xd7, 0xab, 0x76] ++
  [0xca, 0x82, 0xc9, 0x7d, 0xfa, 0x59, 0x47, 0xf0, 0xad, 0xd4, 0xa2, 0xaf, 0x9c, 0xa4, 0x72, 0xc0] ++
  [0xb7, 0xfd, 0x93, 0x26, 0x36, 0x3f, 0xf7, 0xcc, 0x34, 0xa5, 0xe5, 0xf1, 0x71, 0xd8, 0x31, 0x15] ++
  [0x4, 0xc7, 0x23, 0xc3, 0x18, 0x96, 0x5, 0x9a, 0x7, 0x12, 0x80, 0xe2, 0xeb, 0x27, 0xb2, 0x75] ++
  [0x9, 0x83, 0x2c, 0x1a, 0x1b, 0x6e, 0x5a, 0xa0, 0x52, 0x3b, 0xd6, 0xb3, 0x29, 0xe3, 0x2f, 0x84] ++
  [0x53, 0xd1, 0x0, 0xed, 0x20, 0xfc, 0xb1, 0x5b, 0x6a, 0xcb, 0xbe, 0x39, 0x4a, 0x4c, 0x58, 0xcf] ++
  [0xd0, 0xef, 0xaa, 0xfb, 0x43, 0x4d, 0x33, 0x85, 0x45, 0xf9, 0x2, 0x7f, 0x50, 0x3c, 0x9f, 0xa8] ++
  [0x51, 0xa3, 0x40, 0x8f, 0x92, 0x9d, 0x38, 0xf5, 0xbc, 0xb6, 0xda, 0x21, 0x10, 0xff, 0xf3, 0xd2] ++
  [0xcd, 0xc, 0x13, 0xec, 0x5f, 0x97, 0x44, 0x17, 0xc4, 0xa7, 0x7e, 0x3d, 0x64, 0x5d, 0x19, 0x73] ++
  [0x60, 0x81, 0x4f, 0xdc, 0x22, 0x2a, 0x90, 0x88, 0x46, 0xee, 0xb8, 0x14, 0xde, 0x5e, 0xb, 0xdb] ++
  [0xe0, 0x32, 0x3a, 0xa, 0x49, 0x6, 0x24, 0x5c, 0xc2, 0xd3, 0xac, 0x62, 0x91, 0x95, 0xe4, 0x79] ++
  [0xe7, 0xc8, 0x37, 0x6d, 0x8d, 0xd5, 0x4e, 0xa9, 0x6c, 0x56, 0xf4, 0xea, 0x65, 0x7a, 0xae, 0x8] ++
  [0xba, 0x78, 0x25, 0x2e, 0x1c, 0xa6, 0xb4, 0xc6, 0xe8, 0xdd, 0x74, 0x1f, 0x4b, 0xbd, 0x8b, 0x8a] ++
  [0x70, 0x3e, 0xb5, 0x66, 0x48, 0x3, 0xf6, 0xe, 0x61, 0x35, 0x57, 0xb9, 0x86, 0xc1, 0x1d, 0x9e] ++
  [0xe1, 0xf8, 0x98, 0x11, 0x69, 0xd9, 0x8e, 0x94, 0x9b, 0x1e, 0x87, 0xe9, 0xce, 0x55, 0x28, 0xdf] ++
  [0x8c, 0xa1, 0x89, 0xd, 0xbf, 0xe6, 0x42, 0x68, 0x41, 0x99, 0x2d, 0xf, 0xb0, 0x54, 0xbb, 0x16]

def aesSub (x : Nat) : Nat := aesBox.getD x 0

/-- Multiply by x in the AES field. -/
def aesX (a : Nat) : Nat := if 128 ≤ a then Nat.xor (a * 2 % 256) 0x1B else a * 2

/-- Bytewise exclusive or. -/
def xorL (a b : List Nat) : List Nat := List.zipWith Nat.xor a b

/-- The next key words: `k` more words, `i` the index of the next one, `w` the words so far, newest first. -/
def aesExpand : Nat → Nat → Nat → List (List Nat) → List (List Nat)
  | 0, _, _, w => w
  | k + 1, i, rc, w =>
    let t := w.headD []
    let t := if i % 8 = 0 then
        let r := (t.drop 1 ++ t.take 1).map aesSub
        xorL r [rc, 0, 0, 0]
      else if i % 8 = 4 then t.map aesSub else t
    aesExpand k (i + 1) (if i % 8 = 0 then aesX rc else rc) (xorL (w.getD 7 []) t :: w)

/-- The 15 round keys of a 32-byte key. -/
def aesKeys (key : List Nat) : List (List Nat) :=
  let w0 := (List.range 8).map (fun i => (key.drop (4 * i)).take 4)
  let w := (aesExpand 52 8 1 w0.reverse).reverse
  (List.range 15).map (fun r => ((w.drop (4 * r)).take 4).flatten)

/-- ShiftRows on a column-major state. -/
def aesShift (s : List Nat) : List Nat := (List.range 16).map (fun i => s.getD ((i + 4 * (i % 4)) % 16) 0)

def aesMixCol (c : List Nat) : List Nat :=
  let t := c.foldl Nat.xor 0
  (List.range 4).map (fun i => Nat.xor (c.getD i 0) (Nat.xor t (aesX (Nat.xor (c.getD i 0) (c.getD ((i + 1) % 4) 0)))))

def aesMix (s : List Nat) : List Nat := ((List.range 4).map (fun c => aesMixCol ((s.drop (4 * c)).take 4))).flatten

/-- Encrypt one 16-byte block. -/
def aesBlock (ks : List (List Nat)) (b : List Nat) : List Nat :=
  let s := xorL b (ks.getD 0 [])
  let s := (List.range 13).foldl (fun s r => xorL (aesMix (aesShift (s.map aesSub))) (ks.getD (r + 1) [])) s
  xorL (aesShift (s.map aesSub)) (ks.getD 14 [])

/-! ### Galois counter mode -/

def natOf (bs : List Nat) : Nat := bs.foldl (fun a b => a * 256 + b) 0

def bytesOf (n x : Nat) : List Nat := (beBytes n x).map (fun b => b.toNat)

/-- Multiplication in the GCM field, bit 127 the first. -/
def ghashMul (x y : Nat) : Nat :=
  ((List.range 128).foldl (fun (p : Nat × Nat) i =>
    (if x.testBit (127 - i) then Nat.xor p.1 p.2 else p.1,
     if p.2 % 2 = 1 then Nat.xor (p.2 / 2) (0xE1 * 2 ^ 120) else p.2 / 2)) (0, y)).1

/-- Split into 16-byte blocks, the last one padded with zeros. -/
def blocks16 : Nat → List Nat → List (List Nat)
  | 0, _ => []
  | f + 1, l => if l.isEmpty then [] else
      (l.take 16 ++ List.replicate (16 - (l.take 16).length) 0) :: blocks16 f (l.drop 16)

/-- The keystream applied to `data`, from counter block value `c`. -/
def gcmCtr (ks : List (List Nat)) : Nat → Nat → List Nat → List Nat
  | 0, _, _ => []
  | f + 1, c, l => if l.isEmpty then [] else
      let c' := c - c % 2 ^ 32 + (c + 1) % 2 ^ 32
      List.zipWith Nat.xor (l.take 16) (aesBlock ks (bytesOf 16 c')) ++ gcmCtr ks f c' (l.drop 16)

/-- The tag over additional data `aad` and ciphertext `ct`. -/
def gcmTag (ks : List (List Nat)) (j0 : Nat) (aad ct : List Nat) : List Nat :=
  let h := natOf (aesBlock ks (List.replicate 16 0))
  let bl := blocks16 (aad.length + 1) aad ++ blocks16 (ct.length + 1) ct
    ++ [bytesOf 8 (8 * aad.length) ++ bytesOf 8 (8 * ct.length)]
  let y := bl.foldl (fun y b => ghashMul (Nat.xor y (natOf b)) h) 0
  xorL (bytesOf 16 y) (aesBlock ks (bytesOf 16 j0))

/-- AES-256-GCM: the transformed data, and the tag over `aad` and the ciphertext (R119). -/
def gcmSeal (key iv aad pt : List Nat) : List Nat × List Nat :=
  let ks := aesKeys key
  let j0 := natOf iv * 2 ^ 32 + 1
  let ct := gcmCtr ks (pt.length + 1) j0 pt
  (ct, gcmTag ks j0 aad ct)

def gcmOpen (key iv aad ct tag : List Nat) : Option (List Nat) :=
  let ks := aesKeys key
  let j0 := natOf iv * 2 ^ 32 + 1
  if gcmTag ks j0 aad ct = tag then some (gcmCtr ks (ct.length + 1) j0 ct) else none

/-! ### SHA-384 -/

def shaK : List Nat :=
  [0x428a2f98d728ae22, 0x7137449123ef65cd, 0xb5c0fbcfec4d3b2f, 0xe9b5dba58189dbbc] ++
  [0x3956c25bf348b538, 0x59f111f1b605d019, 0x923f82a4af194f9b, 0xab1c5ed5da6d8118] ++
  [0xd807aa98a3030242, 0x12835b0145706fbe, 0x243185be4ee4b28c, 0x550c7dc3d5ffb4e2] ++
  [0x72be5d74f27b896f, 0x80deb1fe3b1696b1, 0x9bdc06a725c71235, 0xc19bf174cf692694] ++
  [0xe49b69c19ef14ad2, 0xefbe4786384f25e3, 0xfc19dc68b8cd5b5, 0x240ca1cc77ac9c65] ++
  [0x2de92c6f592b0275, 0x4a7484aa6ea6e483, 0x5cb0a9dcbd41fbd4, 0x76f988da831153b5] ++
  [0x983e5152ee66dfab, 0xa831c66d2db43210, 0xb00327c898fb213f, 0xbf597fc7beef0ee4] ++
  [0xc6e00bf33da88fc2, 0xd5a79147930aa725, 0x6ca6351e003826f, 0x142929670a0e6e70] ++
  [0x27b70a8546d22ffc, 0x2e1b21385c26c926, 0x4d2c6dfc5ac42aed, 0x53380d139d95b3df] ++
  [0x650a73548baf63de, 0x766a0abb3c77b2a8, 0x81c2c92e47edaee6, 0x92722c851482353b] ++
  [0xa2bfe8a14cf10364, 0xa81a664bbc423001, 0xc24b8b70d0f89791, 0xc76c51a30654be30] ++
  [0xd192e819d6ef5218, 0xd69906245565a910, 0xf40e35855771202a, 0x106aa07032bbd1b8] ++
  [0x19a4c116b8d2d0c8, 0x1e376c085141ab53, 0x2748774cdf8eeb99, 0x34b0bcb5e19b48a8] ++
  [0x391c0cb3c5c95a63, 0x4ed8aa4ae3418acb, 0x5b9cca4f7763e373, 0x682e6ff3d6b2b8a3] ++
  [0x748f82ee5defb2fc, 0x78a5636f43172f60, 0x84c87814a1f0ab72, 0x8cc702081a6439ec] ++
  [0x90befffa23631e28, 0xa4506cebde82bde9, 0xbef9a3f7b2c67915, 0xc67178f2e372532b] ++
  [0xca273eceea26619c, 0xd186b8c721c0c207, 0xeada7dd6cde0eb1e, 0xf57d4f7fee6ed178] ++
  [0x6f067aa72176fba, 0xa637dc5a2c898a6, 0x113f9804bef90dae, 0x1b710b35131c471b] ++
  [0x28db77f523047d84, 0x32caab7b40c72493, 0x3c9ebe0a15c9bebc, 0x431d67c49c100d4c] ++
  [0x4cc5d4becb3e42b6, 0x597f299cfc657e2a, 0x5fcb6fab3ad6faec, 0x6c44198c4a475817]

def shaInit : List Nat :=
  [0xcbbb9d5dc1059ed8, 0x629a292a367cd507, 0x9159015a3070dd17, 0x152fecd8f70e5939] ++
  [0x67332667ffc00b31, 0x8eb44a8768581511, 0xdb0c2e0d64f98fa7, 0x47b5481dbefa4fa4]

def rotr64 (n x : Nat) : Nat := x / 2 ^ n + x % 2 ^ n * 2 ^ (64 - n)

def xor3 (a b c : Nat) : Nat := Nat.xor a (Nat.xor b c)

/-- The message schedule, newest word first. -/
def shaSched : Nat → List Nat → List Nat
  | 0, w => w
  | k + 1, w =>
    let a := w.getD 14 0
    let b := w.getD 1 0
    let s0 := xor3 (rotr64 1 a) (rotr64 8 a) (a / 2 ^ 7)
    let s1 := xor3 (rotr64 19 b) (rotr64 61 b) (b / 2 ^ 6)
    shaSched k ((w.getD 15 0 + s0 + w.getD 6 0 + s1) % 2 ^ 64 :: w)

/-- One round on the working variables. -/
def shaRound (v : List Nat) (kw : Nat) : List Nat :=
  match v with
  | [a, b, c, d, e, f, g, h] =>
    let s1 := xor3 (rotr64 14 e) (rotr64 18 e) (rotr64 41 e)
    let ch := Nat.xor (Nat.land e f) (Nat.land (2 ^ 64 - 1 - e) g)
    let t1 := h + s1 + ch + kw
    let s0 := xor3 (rotr64 28 a) (rotr64 34 a) (rotr64 39 a)
    let mj := xor3 (Nat.land a b) (Nat.land a c) (Nat.land b c)
    [(t1 + s0 + mj) % 2 ^ 64, a, b, c, (d + t1) % 2 ^ 64, e, f, g]
  | _ => v

def shaBlock (h : List Nat) (bl : List Byte) : List Nat :=
  let w0 := (List.range 16).map (fun i => beAt bl (8 * i) 8)
  let w := (shaSched 64 w0.reverse).reverse
  let v := (List.zip shaK w).foldl (fun v p => shaRound v (p.1 + p.2)) h
  List.zipWith (fun x y => (x + y) % 2 ^ 64) h v

def shaBlocks : Nat → List Nat → List Byte → List Nat
  | 0, h, _ => h
  | f + 1, h, l => if l.length < 128 then h else shaBlocks f (shaBlock h (l.take 128)) (l.drop 128)

/-- SHA-384 of a byte string, as a 384-bit number. -/
def sha384 (bs : List Byte) : Nat :=
  let pad := (128 - (bs.length + 17) % 128) % 128
  let m := bs ++ [0x80] ++ List.replicate pad 0 ++ beBytes 16 (8 * bs.length)
  ((shaBlocks (m.length / 128 + 1) shaInit m).take 6).foldl (fun a x => a * 2 ^ 64 + x) 0

/-! ### ECDSA on P-384 -/

def p384 : Nat := 0xfffffffffffffffffffffffffffffffffffffffffffffffffffffffffffffffeffffffff0000000000000000ffffffff
def n384 : Nat := 0xffffffffffffffffffffffffffffffffffffffffffffffffc7634d81f4372ddf581a0db248b0a77aecec196accc52973
def b384 : Nat := 0xb3312fa7e23ee7e4988e056be3f82d19181d9c6efe8141120314088f5013875ac656398d8a2ed19d2a85c8edd3ec2aef
def g384 : Nat × Nat :=
  (0xaa87ca22be8b05378eb1c71ef320ad746e1d3b628ba79b9859f741e082542a385502f25dbf55296c3a545e3872760ab7,
   0x3617de4a96262c6f5d9e98bf9292dc29f8f41dbd289a147ce9da3113b5f0b8c00a60b1ce1d7e819d7a431d7c90ea0e5f)

/-- `a ^ e mod m`, the low `f` bits of `e`. -/
def powMod (m : Nat) : Nat → Nat → Nat → Nat → Nat
  | 0, _, _, r => r
  | f + 1, a, e, r => powMod m f (a * a % m) (e / 2) (if e % 2 = 1 then r * a % m else r)

def invMod (m a : Nat) : Nat := powMod m 384 (a % m) (m - 2) 1

def subMod (m a b : Nat) : Nat := (a + (m - b % m)) % m

/-- A point in Jacobian coordinates; Z = 0 is the point at infinity. -/
structure Jac where
  x : Nat
  y : Nat
  z : Nat
  deriving DecidableEq, Repr

def jacDouble (p : Jac) : Jac :=
  let m := p384
  let yy := p.y * p.y % m
  let s := 4 * p.x * yy % m
  let zz := p.z * p.z % m
  let t := 3 * subMod m p.x zz * (p.x + zz) % m
  let x := subMod m (t * t % m) (2 * s)
  ⟨x, subMod m (t * subMod m s x % m) (8 * yy * yy), 2 * p.y * p.z % m⟩

def jacAdd (p q : Jac) : Jac :=
  let m := p384
  if p.z = 0 then q else if q.z = 0 then p else
  let z1 := p.z * p.z % m
  let z2 := q.z * q.z % m
  let u1 := p.x * z2 % m
  let u2 := q.x * z1 % m
  let s1 := p.y * z2 % m * q.z % m
  let s2 := q.y * z1 % m * p.z % m
  if u1 = u2 then (if s1 = s2 then jacDouble p else ⟨1, 1, 0⟩) else
  let h := subMod m u2 u1
  let r := subMod m s2 s1
  let h2 := h * h % m
  let h3 := h * h2 % m
  let v := u1 * h2 % m
  let x := subMod m (subMod m (r * r % m) h3) (2 * v)
  ⟨x, subMod m (r * subMod m v x % m) (s1 * h3 % m), h * p.z % m * q.z % m⟩

/-- `k` times a point, by the low `f` bits of `k`. -/
def jacMul : Nat → Nat → Jac → Jac → Jac
  | 0, _, _, a => a
  | f + 1, k, p, a => jacMul f (k / 2) (jacDouble p) (if k % 2 = 1 then jacAdd a p else a)

/-- ECDSA verification of hash `e` with public key (qx, qy) and signature (r, s). -/
def ecdsaVerify (qx qy e r s : Nat) : Bool :=
  let m := p384
  if r = 0 ∨ n384 ≤ r ∨ s = 0 ∨ n384 ≤ s ∨ m ≤ qx ∨ m ≤ qy then false
  else if qy * qy % m ≠ (qx * qx % m * qx + (m - 3) * qx + b384) % m then false
  else
    let w := invMod n384 s
    let u1 := e * w % n384
    let u2 := r * w % n384
    let z := jacAdd (jacMul 384 u1 ⟨g384.1, g384.2, 1⟩ ⟨1, 1, 0⟩) (jacMul 384 u2 ⟨qx, qy, 1⟩ ⟨1, 1, 0⟩)
    if z.z = 0 then false else
    let zi := invMod m (z.z * z.z % m)
    decide (z.x * zi % m % n384 = r)

end Sys2Proof.Machine
end

