-- ==== Sys2Proof/Machine/Position.lean ====
section
/-! DEFINITION. Web position (chapter 03): the position units, the index, the tracking filter, the high-water mark and
direction flag of each plane, fall-back, re-arming, pass transforms (R204, R205) and the virtual encoder. -/
namespace Sys2Proof.Machine

/-! ### Phase of a sin/cos input (R38) -/

/-- tan(2πk / 1,024) × 2^64, rounded down, for k = 1 to 128. -/
def tanTable : List Nat :=
  [113189224543920364, 226386972670087609, 339601770528375557, 452842149405555710] ++
  [566116648297857376, 679433816488466393, 792802216131617111, 906230424844939521] ++
  [1019727038311732522, 1133300672894845279, 1246959968263861405, 1360713590037295457] ++
  [1474570232441527795, 1588538620988222493, 1702627515171993486, 1816845711190106721] ++
  [1931202044686030682, 2045705393518674351, 2160364680559180532, 2275188876517173469] ++
  [2390187002798392960, 2505368134395682751, 2620741402815338926, 2736315999040864331] ++
  [2852101176536217990, 2968106254290693837, 3084340619907611211, 3200813732739050392] ++
  [3317535127068920081, 3434514415346700351, 3551761291474264181, 3669285534148243471] ++
  [3787097010260471422, 3905205678359102561, 4023621592173084581, 4142354904202732709] ++
  [4261415869379237595, 4380814848796022011, 4500562313514949955, 4620668848450484397] ++
  [4741145156334986934, 4862002061768454333, 4983250515356093432, 5104901597937247461] ++
  [5226966524909303637, 5349456650650334224, 5472383473044351317, 5595758638113189652] ++
  [5719593944759172114, 5843901349622859515, 5968692972060340009, 6093981099244674494] ++
  [6219778191396282871, 6346096887147232470, 6472950009044574645, 6600350569198068924] ++
  [6728311775077836599, 6856847035467697681, 6985969966580167227, 7115694398339319622] ++
  [7246034380837973098, 7377004190975902013, 7508618339286051927, 7640891576956012808] ++
  [7773838903052299564, 7907475571955297071, 8041817101013049876, 8176879278422415423] ++
  [8312678171346454921, 8449230134277308656, 8586551817654193664, 8724660176746572097] ++
  [8863572480812969508, 9003306322546374698, 9143879627817627874, 9285310665728702999] ++
  [9427618058988314614, 9570820794622830549, 9714938235036051321, 9859990129432026165] ++
  [10005996625615716418, 10152978282186990947, 10300956081144147659, 10449951440913901675] ++
  [10599986229825566835, 10751082780047985006, 10903263902008629788, 11056552899315230174] ++
  [11210973584201228372, 11366550293517407350, 11523307905293100842, 11681271855891535024] ++
  [11840468157785050414, 12000923417977218679, 12162664857100206077, 12325720329217147637] ++
  [12490118342360788665, 12655888079841227758, 12823059422357263677, 12991662970947612995] ++
  [13161730070820132513, 13333292836099156826, 13506384175533154119, 13681037819207120043] ++
  [13857288346306478484, 14035171213981748109, 14214722787365874056, 14395980370798925447] ++
  [14578982240317832127, 14763767677471990324, 14950377004528919021, 15138851621137710681] ++
  [15329234042521806003, 15521567939276648491, 15715898178852057811, 15912270868803719535] ++
  [16110733401903042736, 16311334503199807412, 16514124279137533992, 16719154268827382157] ++
  [16926477497592652970, 17136148532902656013, 17348223542821843615, 17562760357107741474] ++
  [17779818531099356387, 17999459412546457518, 18221746211539451548, 18446744073709551616]

/-- floor(atan(y / x) × 1,024 / 2π) for 0 ≤ y ≤ x, x > 0. The table decides every ratio of 18-bit numbers exactly. -/
def octantPhase (y x : Nat) : Nat :=
  if y = x then 128 else ((tanTable.take 127).filter (fun t => decide (x * t < y * 2 ^ 64))).length

/-- The same for any x > 0, y ≥ 0: 0 to 255. -/
def quadrantPhase (y x : Nat) : Nat := if y ≤ x then octantPhase y x else 255 - octantPhase x y

/-- floor(atan2(s, c) × 1,024 / 2π) mod 1,024; s and c are not both 0 (R38). -/
def phase (s c : Int) : Nat :=
  if 0 ≤ s ∧ 0 < c then quadrantPhase s.toNat c.toNat
  else if c ≤ 0 ∧ 0 < s then 256 + quadrantPhase (-c).toNat s.toNat
  else if s ≤ 0 ∧ c < 0 then 512 + quadrantPhase (-s).toNat (-c).toNat
  else 768 + quadrantPhase c.toNat (-s).toNat

/-! ### Position units -/

def Dev.enc (d : Dev) (e : Nat) : Enc := cellGet {} d.encs e

def Dev.setEnc (d : Dev) (e : Nat) (x : Enc) : Dev := { d with encs := cellSet {} d.encs e x }

def encPage (e : Nat) : Nat := 0x05 + e

/-- The count limits of R42. -/
def countMax : Int := 2 ^ 47 - 1
def countMin : Int := -(2 ^ 47)

def clampCount (x : Int) : Int := if x < countMin then countMin else if countMax < x then countMax else x

def encFaulty (d : Dev) (e : Nat) : Bool := d.getB (F.ENC_STAT_FAULT e)

/-- Declare a fault of position unit `e`: a further one leaves FCODE unchanged (R43). -/
def encFault (e code : Nat) (d : Dev) : Dev :=
  let d := d.put (F.ENC_STAT_UNCERTAIN e) 1
  if encFaulty d e then d
  else (((d.put (F.ENC_STAT_FAULT e) 1).put (F.ENC_STAT_FCODE e) code).raise (encPage e) 0).sendEvent 8 0xFF 0 code e

/-- INDEX_VALUE (R44). -/
def indexValue (d : Dev) (e : Nat) : Int := toSigned 48 (d.get2 (F.ENC_IDX_LO_VALUE e) (F.ENC_IDX_HI_VALUE e))

/-- Put the count of the latest sample into ENC_POS_LO; ENC_POS_HI is latched by a read of it. -/
def putPos (e : Nat) (x : Int) (d : Dev) : Dev := d.put (F.ENC_POS_LO_X e) (ofSigned 32 x)

/-- `x` moved by `n` counts: saturated (R42), and while a fault is declared an `x` at a limit stays there (R43). -/
def moveCount (faulty : Bool) (x n : Int) : Int :=
  if faulty && (x == countMax || x == countMin) then x else clampCount (x + n)

/-- A saturation fault where X of unit `e` stands at a limit (R42). -/
def saturationFault (e : Nat) (x : Int) (d : Dev) : Dev := if x = countMax ∨ x = countMin then encFault e 4 d else d

/-- The unit accepts the levels `a`, `b` and `z` at the 5 ns sample `i` (R40). Changes of A and B accepted in one sample are an
illegal transition and change nothing. -/
def qdAccept (e i : Nat) (a b z : Bool) (d : Dev) : Dev :=
  let u := d.enc e
  let ca := a != u.a
  let cb := b != u.b
  let u1 := { u with a := a, b := b, z := z, edge := u.edge || (z && !u.z) }
  if (ca && cb) || ((ca || cb) && u.accAt == i + 1) then
    encFault e 3 (d.setEnc e { u1 with
      qd := if ca && cb then u.qd else u.qd - u.accStep, accAt := i + 1, accStep := 0, qdBad := true, goodRun := 0 })
  else if ca || cb then
    -- A leads B while counting up: A changes to differ from B, or B changes to equal A.
    let up := if ca then a != b else a == b
    let s : Int := if up == d.getB (F.ENC_CFG_INVERT e) then -1 else 1
    let x := moveCount (encFaulty d e) (u.x + u.qd) s
    saturationFault e x (d.setEnc e { u1 with qd := x - u.x, accAt := i + 1, accStep := x - (u.x + u.qd) })
  else d.setEnc e u1

/-- The 200 MHz sample that first shows a level present from now on (R40). -/
def Dev.fastSample (d : Dev) : Nat := (d.now + 4) / 5

/-- Whether unit `e` reads a quadrature input (R37). -/
def quadrature (d : Dev) (e : Nat) : Bool :=
  decide (3 ≤ d.get (F.ENC_CFG_SRC e)) && decide (d.get (F.ENC_CFG_SRC e) < 7)

/-- What waits to be accepted once the samples from `i` on show level `x`, while `y` is the accepted level (R40). -/
def qdWait (p : Option Nat) (i : Nat) (x y : Bool) : Option Nat :=
  if x == y then none else some (p.getD i)

/-- The 200 MHz samples of unit `e` before sample `n` that have not been taken yet are taken; its input has shown the levels
`l` since the last one taken. A level is accepted at the sample that has shown it for FILT × 5 ns (R40). -/
def qdSamples (e n l : Nat) (d : Dev) : Dev :=
  let u := d.enc e
  if n ≤ u.qdAt then d else
  let d := d.setEnc e { u with
    qdAt := n
    pa := qdWait u.pa u.qdAt (bit l 0) u.a, pb := qdWait u.pb u.qdAt (bit l 1) u.b, pz := qdWait u.pz u.qdAt (bit l 2) u.z }
  let ripe (p : Option Nat) : Option Nat := p.bind (fun i =>
    let j := i + d.get (F.ENC_CFG_FILT e)
    if j < n then some (max j u.qdAt) else none)
  forN 3 (fun _ d =>
    let u := d.enc e
    match ([u.pa, u.pb, u.pz].filterMap ripe).min? with
    | none => d
    | some i =>
      let now (p : Option Nat) : Bool := ripe p == some i
      let d' := d.setEnc e { u with
        pa := if now u.pa then none else u.pa
        pb := if now u.pb then none else u.pb
        pz := if now u.pz then none else u.pz }
      qdAccept e i (u.a != now u.pa) (u.b != now u.pb) (u.z != now u.pz) d') d

/-- The levels on the balls of unit `e`'s quadrature input. -/
def qdLevels (d : Dev) (e : Nat) : Nat := cellGet 0 d.qdIn (d.get (F.ENC_CFG_SRC e) - 3)

/-- The levels of unit `e`'s input are about to change: every sample before now has shown the present ones (R40). -/
def qdBefore (e : Nat) (d : Dev) : Dev := if quadrature d e then qdSamples e d.fastSample (qdLevels d e) d else d

/-- Every 200 MHz sample of unit `e`'s quadrature input up to now is taken (R40). -/
def encNow (e : Nat) (d : Dev) : Dev := if quadrature d e then qdSamples e (d.now / 5 + 1) (qdLevels d e) d else d

/-- A 200 MHz sample of REF shows level `l`, with the filter set to `n` (R40). -/
def refSample (n : Nat) (u : Enc) (l : Bool) : Enc :=
  if l == u.z then { u with refRun := 0 }
  else if u.refRun < n then { u with refRun := u.refRun + 1 }
  else { u with z := l, refRun := 0, edge := u.edge || l }

/-- The 200 MHz samples of REF since the last conversion, oldest first (R40). The first one of a source taken up is the level
that it starts from. -/
def refSamples (n : Nat) (ref : List Bool) (u : Enc) : Enc :=
  ref.foldl (refSample n) (if u.phiSeen then u else { u with z := ref.headD u.z, refRun := 0 })

/-- Unit `e` takes up a new source: there is no earlier phase, and a quadrature input stands at the levels its balls show.
The runs of good and bad samples go on: R43 does not say that a change of source restarts them (DESIGN CHOICE, log entry
117). -/
def sourceTaken (e : Nat) (d : Dev) : Dev :=
  let u := d.enc e
  let l := if quadrature d e then qdLevels d e else 0
  d.setEnc e { u with
    x := u.x + u.qd, qd := 0, phiSeen := false, qdAt := d.now / 5 + 1
    a := bit l 0, b := bit l 1, z := bit l 2, pa := none, pb := none, pz := none, refRun := 0 }

/-! ### Position sources -/

/-- The position source in use by plane `p`: 0 or 1 a unit, 2 VENC, 3 reserved (R55). -/
def sourceInUse (d : Dev) (p : Nat) : Nat :=
  if d.getB (F.LEV_STAT_FB_ACTIVE p) then d.get (F.LEV_CFG_FB p) else d.get (F.LEV_CFG_PRI p)

/-- Whether position source `s` has failed (R55). -/
def sourceFailed (d : Dev) (s : Nat) : Bool :=
  if s < 2 then d.get (F.ENC_CFG_SRC s) == 0 || encFaulty d s
  else if s = 2 then d.getB F.VENC_STAT_LOST
  else true

/-- OFS of VENC (R62). -/
def vencOfs (d : Dev) : Int := toSigned 48 (d.get2 F.VENC_OFS_LO_OFS F.VENC_OFS_HI_OFS)

/-- Local time in 2^-16 ns. -/
def Dev.t16 (d : Dev) : Int := ((d.clk / 2 ^ 32 : Nat) : Int)

/-- `ps` in 2^-16 ns, rounded up. -/
def t16Of (ps : Int) : Int := -(-(ps * 65536) / 1000)

/-! ### The lanes' time (R236, R237, R243)

Lanes run from the lane reference, which is that of free-running time; the local clock is slewed and set apart from it. -/

/-- By how much a 0.5 % triangular down-spread of 31.25 kHz has put a lane back `t` ps after it began (R237). -/
def spreadLag (t : Nat) : Nat :=
  let r := t % 32000000
  (16000000 * (t / 32000000) + (if r ≤ 16000000 then r * r / 32000000
    else 16000000 - (32000000 - r) * (32000000 - r) / 32000000)) / 200

/-- By how much head-port lanes are put back at free-running instant `ps`. Where in its triangle the spread stands is open
(log entry 111). -/
def sscLagAt (d : Dev) (ps : Int) : Int :=
  d.sscLag + (if d.getB F.LANES_CFG_SSC then
    (spreadLag (ps.toNat + Config.sscPhase) : Int) - (spreadLag (d.sscAt * 1000 + Config.sscPhase) : Int) else 0)

/-- The time of the lanes of link `i` at free-running instant `ps`: those of a head port follow the spread, those of a stay port
are never spread (R237). -/
def laneAt (d : Dev) (i : Nat) (ps : Int) : Int := if i < 32 then ps - sscLagAt d ps else ps

/-- The same now. -/
def laneNow (d : Dev) (i : Nat) : Int := laneAt d i ((d.now : Int) * 1000)

/-- The free-running instant, ps, at which local time is `t` (2^-16 ns), at the present rate of the local clock (R64). -/
def refPs (d : Dev) (t : Int) : Int :=
  (d.now : Int) * 1000 - -((t - d.t16) * (2 * nsUnit * 1000 : Nat)) / ((65536 * clockStep (d.getI F.TIME_FREQ_FREQ) : Nat) : Int)

/-- Local time, 2^-16 ns, at free-running instant `ps`. -/
def localAt (d : Dev) (ps : Int) : Int :=
  d.t16 - -((ps - (d.now : Int) * 1000) * (65536 * clockStep (d.getI F.TIME_FREQ_FREQ) : Nat)) / ((2 * nsUnit * 1000 : Nat) : Int)

/-- The time of the lanes of link `i` when local time is `t` (2^-16 ns). -/
def laneOf (d : Dev) (i : Nat) (t : Int) : Int := laneAt d i (refPs d t)

/-! ### Own frames of the stay ring -/

/-- The launch instant of the own frame of beat `k`, ns (R259). -/
def memberLaunch (d : Dev) (k : Nat) : Nat := d.beatStart k + d.get F.STAY_CFG_LAUNCH

/-- The beat whose launch instant was the latest to pass; LAUNCH may reach into the next beat (R259). -/
def memberPassed (d : Dev) : Option Nat :=
  let k := d.beatNum
  if memberLaunch d k ≤ d.nt then some k else if memberLaunch d (k - 1) ≤ d.nt then some (k - 1) else none

/-- Beat numbers or the local clock have changed: own frames go on with the next launch instant. A beat whose launch instant
has passed by then is not sent again. The master was last heard in this beat at the latest. -/
def memberRebase (d : Dev) : Dev :=
  { d with
    stay := { d.stay with sentBeat := d.stay.sentBeat.bind (fun b => (memberPassed d).map (fun j => min b j)) }
    tm := { d.tm with
      ringNear := d.tm.ringNear.map (fun b => min b d.beatNum)
      ringFar := d.tm.ringFar.map (fun b => min b d.beatNum) } }

/-- The block as it stood `back` ns ago, its two clocks alone put back (R64). -/
def Dev.rewound (d : Dev) (back : Nat) : Dev :=
  { d with
    now := d.now - back
    clk := d.clk - clockCycles (d.now - back) d.now * clockStep (d.getI F.TIME_FREQ_FREQ) }

/-- The latest 50 ns sample instant, in 2^-16 ns of local time (R62). The instants are those of free-running time, as the
position units' samples are (log entry 28). -/
def Dev.sample16 (d : Dev) : Int := (d.rewound (d.now % 50)).t16

/-- The VENC position at the latest sample instant, counts (R62). -/
def vencX (d : Dev) (v : VencSample) : Int :=
  let dt := d.sample16 - v.t
  -- v × dt in 2^-40 counts, a × dt² / 2 in 2^-72 / 2 counts
  v.x + (v.v * dt * 2 ^ 33 + v.a * dt * dt) / 2 ^ 73 + vencOfs d

/-- What source `s` gives at its latest sample: X, and x̂, v̂, â of R46 with the sample's time in 2^-16 ns. -/
structure Track where
  x : Int
  xh : Int
  vh : Int
  ah : Int
  t : Int
  deriving DecidableEq, Repr

def sourceTrack (d : Dev) (s : Nat) : Option Track :=
  if sourceFailed d s then none
  else if s < 2 then
    let u := d.enc s
    if u.valid then some ⟨u.vx, u.xh, u.vh, u.ah, u.vt⟩ else none
  else match d.venc with
    | some v => let x := vencX d v; some ⟨x, x * 65536, v.v, v.a, d.sample16⟩
    | none => none

/-- The fall-back source of plane `p` is valid (R55). -/
def fallbackValid (d : Dev) (p : Nat) : Bool :=
  d.getB (F.LEV_CFG_FB_EN p) && d.get (F.LEV_CFG_FB p) != d.get (F.LEV_CFG_PRI p)
    && (sourceTrack d (d.get (F.LEV_CFG_FB p))).isSome && (d.plane p).delta.isSome

/-- The position of plane `p` before any pass transform: X = X_fb − Δ on the fall-back (R55). -/
def planeTrack (d : Dev) (p : Nat) : Option Track :=
  match sourceTrack d (sourceInUse d p) with
  | none => none
  | some k =>
    if d.getB (F.LEV_STAT_FB_ACTIVE p) then
      let dl := (d.plane p).delta.getD 0
      some { k with x := k.x - dl, xh := k.xh - dl * 65536 }
    else some k

/-- A track in the effective count of R204. -/
def effTrack (tr : Bool × Int) (k : Track) : Track :=
  if tr.1 then { k with x := tr.2 - k.x, xh := tr.2 * 65536 - k.xh, vh := -k.vh, ah := -k.ah }
  else { k with x := k.x + tr.2, xh := k.xh + tr.2 * 65536 }

/-- The epoch (counted from activation) of plane `p`'s cursor line. -/
def cursorOrd (d : Dev) (p : Nat) : Nat := ordOfLine d p (d.plane p).cursor

/-- The effective position of plane `p` (R204). -/
def effPlane (d : Dev) (p : Nat) : Option Track :=
  (planeTrack d p).map (effTrack (transform d p (cursorOrd d p)))

/-- UNCERTAIN of source `s` (R56). -/
def sourceUncertain (d : Dev) (s : Nat) : Bool :=
  if s < 2 then d.getB (F.ENC_STAT_UNCERTAIN s)
  else match d.venc with
    | some v => bit v.flags 2
    | none => true

/-- Whether any plane of the active plan takes its position from unit `e` now (R45). -/
def servesPlan (d : Dev) (e : Nat) : Bool := (activePlanes d).any (fun p => sourceInUse d p == e)

/-- Whether unit `e` serves the active plan, as primary or fall-back of a plane (R363). -/
def boundToPlan (d : Dev) (e : Nat) : Bool :=
  (activePlanes d).any (fun p => d.get (F.LEV_CFG_PRI p) == e || (d.getB (F.LEV_CFG_FB_EN p) && d.get (F.LEV_CFG_FB p) == e))

/-- The prediction error of an assigned line, in 2^-16 ns (R51). -/
def recordError (p : Nat) (e : Int) (d : Dev) : Dev :=
  let d := if d.get (F.LEV_STAT_ERR_MAX p) < e.natAbs / 65536 then
      d.put (F.LEV_STAT_ERR_MAX p) (satU 16 ((e.natAbs / 65536 : Nat) : Int)) else d
  if d.get F.LEV_ERR_LIM_LIM * 65536 < e.natAbs then (d.put (F.LEV_STAT_ERR p) 1).raise 0x07 3 else d

/-- The highest line whose boundary is at or below `h`, if any (R47). -/
def lineReached (d : Dev) (p : Nat) (h : Int) : Option Nat :=
  let k := h - originOf d p
  if k < 0 ∨ pitchOf d p = 0 then none else some (((k.toNat + 1) * 65536 - 1) / pitchOf d p)

/-- HWM of plane `p` has risen to `h` at a sample of time `t`: assigned lines it reaches record their error, lines above
the cursor note the crossing, and rejection marks that are reached rise (R49, R51, R233). -/
def hwmReached (p : Nat) (h t : Int) (d : Dev) : Dev :=
  let x := d.plane p
  match lineReached d p h with
  | none => d
  | some n =>
    let hit := x.assigns.filter (fun a => !a.seen && !a.late && decide (a.line ≤ n))
    let x := { x with assigns := x.assigns.map (fun a => if !a.late && decide (a.line ≤ n) then { a with seen := true } else a) }
    let top := (x.crossed.getLast?.map (fun c => c.1)).getD 0
    let x := if decide (x.cursor ≤ n) && (x.crossed.isEmpty || decide (top < n)) then { x with crossed := x.crossed ++ [(n, t.toNat)] } else x
    forL hit (fun a d => recordError p (t - a.t) d) (d.setPlane p x)

/-- Set X of unit `e` to INDEX_VALUE: the high-water marks of its planes, the camera ports' marks on them and x̂ move by D
(R45, R267). A mark that passes a line boundary by it crosses the boundary at this sample (R51), and a limit of X is a
saturation fault (R42). -/
def setToIndex (e : Nat) (d : Dev) : Dev :=
  let u := d.enc e
  let iv := indexValue d e
  let dx := iv - (u.x + u.qd)
  let d := d.setEnc e { u with x := iv, qd := 0, accStep := 0, xh := u.xh + dx * 65536, vx := if u.valid then iv else u.vx }
  let d := saturationFault e iv (putPos e iv (d.put (F.ENC_STAT_UNCERTAIN e) 0))
  forL ((List.range 8).filter (fun p => sourceInUse d p == e)) (fun p d =>
    let x := d.plane p
    let s : Int := if (transform d p (cursorOrd d p)).1 then -dx else dx
    let d := d.setPlane p { x with hwm := x.hwm.map (fun h => h + s) }
    let d := match (d.plane p).hwm with
      | some h => if 0 < s then hwmReached p h u.t d else d
      | none => d
    forN 2 (fun c d =>
      if d.get (F.CAM_CFG_REF_PLANE c) = p then
        let k := cellGet {} d.insp.cams c
        { d with insp := { d.insp with cams := cellSet {} d.insp.cams c { k with chwm := k.chwm.map (fun h => h + s) } } }
      else d) d) d

/-- The index of unit `e` is recognised (R44, R45). -/
def indexReset (e : Nat) (d : Dev) : Dev :=
  let u := d.enc e
  let dx := indexValue d e - u.x
  if servesPlan d e && decide (d.get (F.ENC_IDX_HI_TOL e) < dx.natAbs) then
    (d.put (F.ENC_STAT_IDX_SLIP e) 1).raise (encPage e) 1
  else
    let d := (setToIndex e d).put (F.ENC_STAT_IDX_SEEN e) 1
    if d.get (F.ENC_CFG_IDX_MODE e) = 2 then d.put (F.ENC_STAT_ARMED e) 0 else d

/-- The tracking filter of R46 at one sample. The first sample since reset restarts it as R43 says of a cleared fault: R46 gives
it no state before that (DESIGN CHOICE, log entry 105). -/
def trackFilter (e : Nat) (d : Dev) : Dev :=
  let u := d.enc e
  let u := if u.restart then { u with xh := u.x * 65536, vh := 0, ah := 0, restart := false } else
    let al : Int := 2 ^ d.get (F.ENC_TRK_ALPHA_SH e)
    let be : Int := 2 ^ d.get (F.ENC_TRK_BETA_SH e)
    let ga : Int := 2 ^ d.get (F.ENC_TRK_GAMMA_SH e)
    let xp := (u.xh * 2 ^ 24 + u.vh * 50 * 2 ^ 16 + u.ah * 1250) / 2 ^ 24
    let r := u.x * 65536 - xp
    let xh := xp + r / al
    let vh := (u.vh * (2 ^ 16 * 50 * be) + u.ah * (2500 * be) + r * 2 ^ 24) / (2 ^ 16 * 50 * be)
    let ah := (u.ah * (2500 * ga) + 2 * r * 2 ^ 24) / (2500 * ga)
    { u with xh := xh, vh := vh, ah := ah }
  (d.setEnc e u).put (F.ENC_VEL_V e) (ofSigned 32 (satS 32 u.vh))

/-- What the pair that serves sin/cos input `i` has subtracted from its output: sine (`c` 0) or cosine (1), 1/16 code (R386). -/
def pairCorr (d : Dev) (i c : Nat) : Int :=
  cellGet 0 d.trim.pairCorr (4 * i + 2 * d.get (if i = 0 then F.TRIM_ENC_STAT_PAIR0 else F.TRIM_ENC_STAT_PAIR1) + c)

/-- One sample of position unit `e` (R37 to R46): ADC codes of the pair that serves a sin/cos input, and the 200 MHz samples of
its REF since the last one. A unit with SRC 0 produces none. `s` and `c` are in 1/16 code, as the pair's correction is (R386).
The first sample of a source has no phi_prev (R38 does not say what its d is): it counts 0 (DESIGN CHOICE, log entry 105). An
X that still stands at a limit after CLR_FAULT has reached it at the next sample too (DESIGN CHOICE, log entry 117: R42). -/
def unitSample (e sin cos : Nat) (ref : List Bool) (d : Dev) : Dev :=
  let src := d.get (F.ENC_CFG_SRC e)
  if src = 0 ∨ src = 7 then d else
  let analog := decide (src < 3)
  let d := if analog then d.setEnc e (refSamples (d.get (F.ENC_CFG_FILT e)) ref (d.enc e)) else encNow e d
  let u := d.enc e
  let s : Int := 16 * ((sin % 4096 : Nat) - (d.get (F.ENC_ADC_OFS_SIN_OFS e) : Int)) - pairCorr d (src - 1) 0
  let c : Int := 16 * ((cos % 4096 : Nat) - (d.get (F.ENC_ADC_OFS_COS_OFS e) : Int)) - pairCorr d (src - 1) 1
  let pf := if s = 0 ∧ c = 0 then d.free 10 else (phase s c, d)
  let d := if analog then pf.2 else d
  let step : Int :=
    if !analog then u.qd
    else if !u.phiSeen then 0
    else
      let q : Int := ((pf.1 + 1024 - u.phi + 512) % 1024 : Nat) - 512
      if d.getB (F.ENC_CFG_INVERT e) then -q else q
  let x := moveCount (encFaulty d e) u.x step
  let amp := s * s + c * c
  let amin : Int := 256 * (d.get (F.ENC_AMP_AMIN e) * d.get (F.ENC_AMP_AMIN e) : Nat)
  let amax : Int := 256 * (d.get (F.ENC_AMP_AMAX e) * d.get (F.ENC_AMP_AMAX e) : Nat)
  let inWin := !analog || (decide (amin ≤ amp) && decide (amp ≤ amax))
  let badRun := if inWin then 0 else u.badRun + 1
  let track := analog && decide (256 < step.natAbs)
  let ampBad := decide (d.get (F.ENC_CFG_FAULT_N e) ≤ badRun)
  let sat := decide (x = countMax) || decide (x = countMin)
  let good := inWin && !track && !u.qdBad
  let edge := u.edge
  let d := d.setEnc e { u with
    x := x
    t := d.clk / 2 ^ 32
    phi := if analog then pf.1 else u.phi
    phiSeen := analog
    badRun := badRun
    goodRun := if good then u.goodRun + 1 else 0
    qd := if analog then u.qd else 0
    accStep := 0
    qdBad := false
    edge := false }
  let d := if ampBad then encFault e 1 d else if track then encFault e 2 d else if sat then encFault e 4 d else d
  let ok := !encFaulty d e
  let u := d.enc e
  let d := putPos e x (d.setEnc e (if ok then { u with valid := true, vx := x, vt := u.t, vn := d.now / 50 } else { u with valid := false }))
  if !ok then d else
  let d := trackFilter e d
  let mode := d.get (F.ENC_CFG_IDX_MODE e)
  if edge && decide (0 < step) && (mode == 1 || (mode == 2 && d.getB (F.ENC_STAT_ARMED e))) then indexReset e d else d

/-- ENC_CTL.ARM (R44). -/
def encArm (e : Nat) (d : Dev) : Dev := d.put (F.ENC_STAT_ARMED e) 1

/-- ENC_CTL.CLR_FAULT (R43). -/
def encClrFault (e : Nat) (d : Dev) : Dev :=
  let d := encNow e d
  if !encFaulty d e then d
  else if (d.enc e).qdBad || decide ((d.enc e).goodRun < d.get (F.ENC_CFG_FAULT_N e)) then d.refuseAt (R.ENC_CTL e)
  else
    let d := (d.put (F.ENC_STAT_FAULT e) 0).put (F.ENC_STAT_FCODE e) 0
    d.setEnc e { d.enc e with restart := true, badRun := 0 }

/-! ### Line-event units -/

/-- P(n) of plane `p` in effective counts. -/
def boundaryOf (d : Dev) (p n : Nat) : Int := boundary d p n

/-- B_p (R180). -/
def backup (d : Dev) (p : Nat) : Nat := max (d.get (F.STORE_SEAM_CFG_BACKUP p)) (d.get (F.LEV_CFG_HYST p) + 1)

/-- R54: high-water mark at `x`, direction forward, cursor at `m`. -/
def rearm (p m : Nat) (x : Int) (d : Dev) : Dev :=
  (d.setPlane p { d.plane p with hwm := some x, cursor := m, crossed := [], turn := 0, encStop := false }).put (F.LEV_STAT_REV p) 0

/-- Whether plane `p` stands at or below `P(m) − b` on its way back, or has not yet come that far (R54, R180). -/
def backFar (d : Dev) (p m b : Nat) (x : Int) : Bool :=
  let lim := boundaryOf d p m - b
  (d.getB (F.LEV_STAT_REV p) && decide (x ≤ lim)) ||
  (match (d.plane p).hwm with
    | some h => decide (h ≤ lim)
    | none => false)

/-- The mark and camera reference: plane `p`'s position reaches `h`. -/
def reachHooks (p : Nat) (h : Int) (d : Dev) : Dev :=
  if p = d.get F.FIRE_CFG_REJ_PLANE && !d.rejects.isEmpty then rejectReach h d else d

/-- R49 for plane `p` at a valid sample `k` of its source, and the waits of R54, R180 and R205. HWM is none until the first
sample since the plane was activated; a REV kept from an earlier plan clears at that sample, with the forward event (DESIGN
CHOICE, log entry 105: R49 gives neither a value at activation). -/
def hwmUpdate (p : Nat) (d : Dev) : Dev :=
  match effPlane d p with
  | none => d
  | some k =>
    let x := d.plane p
    let stopped := decide (k.vh ≤ 0) || decide (k.vh < (d.get F.LEV_VMIN_VMIN : Int))
    let d := d.putB (F.LEV_STAT_STOPPED p) stopped
    if x.turn = 1 then
      (d.setPlane p { x with hwm := some k.x, crossed := [], turn := 2 }).put (F.LEV_STAT_REV p) 0
    else
    let h0 := x.hwm
    let up := match h0 with
      | some h => decide (h < k.x)
      | none => true
    let d := if up then
        let d := d.setPlane p { x with hwm := some k.x }
        let d := if d.getB (F.LEV_STAT_REV p) then (d.put (F.LEV_STAT_REV p) 0).raise 0x07 1 else d
        reachHooks p k.x (hwmReached p k.x k.t d)
      else
        let h := h0.getD k.x
        if decide ((d.get (F.LEV_CFG_HYST p) : Int) < h - k.x) && !d.getB (F.LEV_STAT_REV p) then
          (d.put (F.LEV_STAT_REV p) 1).raise 0x07 0
        else d
    let x := d.plane p
    let d := if x.turn = 2 then
        let m := x.cursor
        if d.getB (F.LEV_STAT_REV p) && decide (k.x ≤ boundaryOf d p m - backup d p) then rearm p m k.x d else d
      else d
    -- R180: re-arm out of seam-stop; R56: not on a source that is UNCERTAIN after a stop for its failure
    if inSeamStop d p && d.get (F.STORE_SEAM_STAT_CAUSES p) == 0 && !(x.encStop && sourceUncertain d (sourceInUse d p))
        && backFar d p x.resume (backup d p) k.x then
      seamReq ((rearm p x.resume k.x d).put (F.STORE_SEAM_STAT_STATE p) seamRearmed)
    else d

/-- The 50 ns instant of the latest valid sample of source `s`; VENC has one at every instant (R55, R62). -/
def sourceInstant (d : Dev) (s : Nat) : Nat := if s < 2 then (d.enc s).vn else d.now / 50

/-- X of source `b` less X of source `a` at a sample at which both are valid (R55). -/
def sourceDelta (d : Dev) (a b : Nat) : Option Int :=
  if sourceInstant d a ≠ sourceInstant d b then none
  else match sourceTrack d a, sourceTrack d b with
    | some x, some y => some (y.x - x.x)
    | _, _ => none

/-- Δ_p follows both valid sources at every sample while the plane is on its primary (R55, R57). -/
def trackDelta (p : Nat) (d : Dev) : Dev :=
  if !d.getB (F.LEV_CFG_FB_EN p) || d.getB (F.LEV_STAT_FB_ACTIVE p) || d.get (F.LEV_CFG_FB p) == d.get (F.LEV_CFG_PRI p) then d
  else match sourceDelta d (d.get (F.LEV_CFG_PRI p)) (d.get (F.LEV_CFG_FB p)) with
    | some x => d.setPlane p { d.plane p with delta := some x }
    | none => d

/-- Plane `p` enters seam-stop with cause encoder fault (R56, R63). -/
def encoderStop (p : Nat) (d : Dev) : Dev :=
  seamStopNext p causeEncoder (d.setPlane p { d.plane p with encStop := true })

/-- Plane `p` answers the state of its source: it falls back, or stops with cause 6, or has that cause cleared (R55, R56,
R177). -/
def sourceCheck (p : Nat) (d : Dev) : Dev :=
  let d := if sourceFailed d (sourceInUse d p) && !d.getB (F.LEV_STAT_FB_ACTIVE p) && fallbackValid d p then
      (d.put (F.LEV_STAT_FB_ACTIVE p) 1).raise 0x07 2
    else d
  if !(activePlanes d).contains p then d
  else if sourceFailed d (sourceInUse d p) then
    if holdsCause d p causeEncoder then d else encoderStop p d
  else if holdsCause d p causeEncoder && !sourceUncertain d (sourceInUse d p)
      && !(sourceInUse d p == 2 && d.getB F.VENC_STAT_PUB_FAULT) then seamClear p causeEncoder d
  else d

/-- The publisher's own fall-back (R59). R59 gives it no end: the unit it fell back to and the offset stand until reset (DESIGN
CHOICE, log entry 117). -/
def publisherTrack (d : Dev) : Dev :=
  if !d.getB F.PLAN_STAY_PUBLISHER then d else
  let s := d.get F.VENC_CFG_PUB_SRC
  match sourceTrack d s, sourceTrack d (1 - s) with
  | some _, some _ => if d.pubFb then d else { d with pubDelta := (sourceDelta d s (1 - s)).or d.pubDelta }
  | none, some _ => if d.getB F.VENC_CFG_PUB_FB_EN && d.pubDelta.isSome then { d with pubFb := true } else d
  | _, _ => d

/-- Every plane answers the sources' state at a sample. -/
def planesAnswer (d : Dev) : Dev :=
  let d := forN 8 (fun p d => sourceCheck p (trackDelta p d)) d
  publisherTrack d

/-- ENC_CTL.LOAD (R45). -/
def encLoad (e : Nat) (d : Dev) : Dev :=
  if boundToPlan d e then d.refuseAt (R.ENC_CTL e) else planesAnswer (setToIndex e (encNow e d))

/-- The web carries marks of copies of ended plans on: they follow every valid sample of plane REJ_PLANE (R233). -/
def marksFollow (s : Nat) (d : Dev) : Dev :=
  let q := d.get F.FIRE_CFG_REJ_PLANE
  if d.rejectPts.isEmpty || sourceInUse d q != s then d else
  match planeTrack d q with
  | some k => rejectPassed k.x d
  | none => d

/-- Planes whose source in use is `s` follow its sample (R49). -/
def planesFollow (s : Nat) (d : Dev) : Dev :=
  marksFollow s (forL (activePlanes d) (fun p d => if sourceInUse d p = s then hwmUpdate p d else d) d)

/-- A write of FIRE_REJ_REQ marks copy `epoch` of the active plan, or a copy that the plan that ended last has printed (R233). -/
def fireRejReq (epoch : Nat) (d : Dev) : Dev :=
  let o : Int := (ordNow d : Int) + toSigned 32 (epoch + 2 ^ 32 - d.get F.EPOCH_NOW_EPOCH)
  if o < 0 then d
  else if d.planActive then rejectMark o.toNat d
  else rejectEnded ((planeTrack d (d.get F.FIRE_CFG_REJ_PLANE)).map (fun k => k.x)) o.toNat d

/-- The planes answer a sample of source `s`: those on it follow it, and a plane that falls back at it follows its new source
at the same instant where that has been sampled already (R55). -/
def sampleFollowed (s : Nat) (d : Dev) : Dev :=
  let e := planesAnswer d
  marksFollow s (forL (activePlanes e) (fun p x =>
    let q := sourceInUse x p
    if q = s || (q != sourceInUse d p && sourceInstant x q == x.now / 50) then hwmUpdate p x else x) e)

/-- One 50 ns sample of position unit `e` with everything that follows from it. -/
def encSample (e sin cos : Nat) (ref : List Bool) (d : Dev) : Dev := sampleFollowed e (unitSample e sin cos ref d)

/-- LEV_CTL.RESTORE of plane `p` (R57). -/
def levRestore1 (p : Nat) (d : Dev) : Dev :=
  let allowed := !d.planActive || inSeamStop d p
  if allowed && (sourceTrack d (d.get (F.LEV_CFG_PRI p))).isSome then d.put (F.LEV_STAT_FB_ACTIVE p) 0
  else d.refuseAt R.LEV_CTL

def levRestore (m : Nat) (d : Dev) : Dev := forL (bitsOf 8 m) levRestore1 d

/-! ### The virtual encoder -/

/-- The sample the publisher sends in beat `k` (R59, R60). -/
def vencBytes (k : Nat) (d : Dev) : List Byte :=
  let s0 := d.get F.VENC_CFG_PUB_SRC
  let s := if d.pubFb then 1 - s0 else s0
  let dl := if d.pubFb then d.pubDelta.getD 0 else 0
  let tr := sourceTrack d s
  let u := d.enc s
  let seam := (List.range 8).any (inSeamStop d)
  let flags := b2n tr.isSome + 2 * b2n tr.isNone + 4 * b2n (sourceUncertain d s) + 8 * b2n d.pubFb + 16 * b2n seam
  let dom := if d.getB F.TIME_CTL_SRC then d.tm.ringAct
    else if d.getB (F.TIME_DOM_STAT_ACTIVE 1) then d.get (F.TIME_DOM_CFG_DOMAIN 1) else d.get (F.TIME_DOM_CFG_DOMAIN 0)
  let ns := u.vt / 65536
  beBytes 1 1 ++ beBytes 1 flags ++ beBytes 1 dom ++ beBytes 1 (d.get F.PLAN_STAY_RING_POS) ++ beBytes 4 k
    ++ beBytes 6 (ns / 1000000000) ++ beBytes 4 (ns % 1000000000) ++ beBytes 2 (u.vt % 65536)
    ++ beBytes 6 (ofSigned 48 (u.vx - dl)) ++ beBytes 4 (ofSigned 32 (satS 32 u.vh)) ++ beBytes 2 (ofSigned 16 (satS 16 u.ah))

/-- Planes that use VENC, as primary or as active fall-back, stop when the publisher has no valid source (R63). -/
def vencFaultStop (d : Dev) : Dev :=
  forL (activePlanes d) (fun p d =>
    if sourceInUse d p = 2 && !holdsCause d p causeEncoder then encoderStop p d else d) d

/-- A published sample arrives by either route (R61 to R63): the first copy of each SEQ is accepted and its time moved to
the local clock, or it is discarded. R61 does not say how long a SEQ is remembered: 64 of them are; nor what becomes of a
sample of another FORMAT or length: it is dropped and not counted (DESIGN CHOICE, log entry 106). The standby domain is the
domain that is not active, TIME_DOM_CFG.EN set or not (DESIGN CHOICE, log entry 117). -/
def vencAccept (bs : List Byte) (d : Dev) : Dev :=
  if d.getB F.PLAN_STAY_PUBLISHER || bs.length != 32 || byteAt bs 0 != 1 then d else
  let seq := beAt bs 4 4
  if d.vencSeqs.contains seq then d else
  let dom := byteAt bs 2
  let ring := d.getB F.TIME_CTL_SRC
  let a := b2n (d.getB (F.TIME_DOM_STAT_ACTIVE 1))
  let act := if ring then d.tm.ringAct else d.get (F.TIME_DOM_CFG_DOMAIN a)
  let stby := if ring then d.tm.ringStby else d.get (F.TIME_DOM_CFG_DOMAIN (1 - a))
  let ofs : Int := if ring then d.tm.ringOfs else d.getI (F.TIME_DOM_OFS_OFS (1 - a)) * 256
  let ts : Int := ((beAt bs 8 6 * 1000000000 + beAt bs 14 4) * 65536 + beAt bs 18 2 : Nat)
  if dom ≠ act ∧ dom ≠ stby then d.count F.VENC_STAT_DISCARD 1 else
  let t := if dom = act then ts else ts - ofs
  let flags := byteAt bs 1
  let d := { d with
    vencSeqs := (seq :: d.vencSeqs).take 64
    vencIdle := 0
    vencFresh := true
    venc := some { t := t, x := toSigned 48 (beAt bs 20 6), v := toSigned 32 (beAt bs 26 4), a := toSigned 16 (beAt bs 30 2),
                   flags := flags, seq := seq } }
  let d := ((d.put F.VENC_STAT_LOST 0).putB F.VENC_STAT_PUB_FAULT (bit flags 1)).putB F.VENC_STAT_PUB_FALLBACK (bit flags 3)
  let d := if bit flags 1 then vencFaultStop d else d
  sampleFollowed 2 d

/-- Whether published position is monitored (R61). -/
def vencMonitored (d : Dev) : Bool :=
  d.planActive && ((d.getB F.PLAN_STAY_EN && !d.getB F.PLAN_STAY_PUBLISHER) ||
    (activePlanes d).any (fun p => d.get (F.LEV_CFG_PRI p) == 2 || (d.getB (F.LEV_CFG_FB_EN p) && d.get (F.LEV_CFG_FB p) == 2)))

/-- PUBLISHER comes into force in mid-beat: the sample of the beat in progress is the one built at its boundary, with the ring
position of the plan (R59, R60), and with ENC_FAULT it stops this chip's planes on VENC too (R63). -/
def vencRepublish (d : Dev) : Dev :=
  if !d.getB F.PLAN_STAY_PUBLISHER then d else
  let o := if d.vencOut.isEmpty then vencBytes d.beatNum d else d.vencOut
  let d := { d with vencOut := o.take 3 ++ beBytes 1 (d.get F.PLAN_STAY_RING_POS) ++ o.drop 4 }
  if bit (byteAt d.vencOut 1) 1 then vencFaultStop d else d

/-- Published position is not monitored, or is from now on: LOST stays clear and its beats are counted from now (R61). -/
def vencRestart (d : Dev) : Dev := { d.put F.VENC_STAT_LOST 0 with vencIdle := 0, vencFresh := true }

/-- A beat ends: one more without an accepted sample, unless one was accepted in it or the count began in it (R61). -/
def vencCount (d : Dev) : Dev :=
  if !vencMonitored d then vencRestart d
  else if d.vencFresh then { d with vencFresh := false }
  else { d with vencIdle := d.vencIdle + 1 }

/-- TMO beats without an accepted sample while monitored: position is lost (R61). -/
def vencLost (d : Dev) : Dev :=
  if vencMonitored d && !d.getB F.VENC_STAT_LOST && decide (d.get F.VENC_CFG_TMO ≤ d.vencIdle) then
    sampleFollowed 2 (((d.put F.VENC_STAT_LOST 1).raise 0x07 5).sendEvent 9 0xFF 0 0 0)
  else d

end Sys2Proof.Machine
end

