-- ==== Sys2Proof/Machine/Tables.lean ====
section
/-! DEFINITION. The tables of the fire-stream pages and their ports: the nozzle table and wear counters (R186 to R189),
the tile memory (R190), the waveform tables (R220) and the firing and die trims (R389, R390). The shadow halves stand in
`Dev`, the live ones in the configuration of each epoch. -/
namespace Sys2Proof.Machine

/-! ### Reset contents and reserved bits -/

def tileReset : Word := 0x0FFF0FFF

/-- Word `i` of a waveform table after SYS reset (R220). -/
def waveReset (i : Nat) : Word := if i < 256 then 0x00010800 else if i = 264 then 0x00000800 else 0

/-- The bits of word `i` of a waveform table that are not reserved (R220). -/
def waveMask (i : Nat) : Word :=
  if i < 256 then 0x0FFFFFFF else if i < 264 then 0xFF else if i = 264 then 0x01FF0FFF else 0

def ftrimIsDt (i : Nat) : Bool := decide (i ≤ 4)
def ftrimIsAg (i : Nat) : Bool := (decide (8 ≤ i) && decide (i ≤ 12)) || (decide (16 ≤ i) && decide (i ≤ 20))

/-- Word `i` of a firing trim table after SYS reset (R389). -/
def ftrimReset (i : Nat) : Word := if ftrimIsAg i then 0x1000 else 0

def ftrimMask (i : Nat) : Word := if ftrimIsDt i then 0xFFFFF else if ftrimIsAg i then 0x1FFF else 0

/-- Entry `e` of the die trim table after SYS reset; codes 38 to 63 are reserved and read 0 (R390, R6). -/
def dtrimReset (e : Nat) : Nat := if e < 190 then Config.otpDieTrim e % 65536 else 0

/-! ### Shadow halves -/

/-- A nozzle entry with its reserved bit 59 zero (R186). -/
def nozClean (v : Nat) : Nat := setBits (v % 2 ^ 64) 59 1 0

def nozShadow (d : Dev) (g : Nat) : Nat := cellGet 0 d.nozSh g

/-- Put a shadow nozzle entry. -/
def nozShadowPut (g v : Nat) (d : Dev) : Dev := { d with nozSh := cellSet 0 d.nozSh g (nozClean v) }

/-- Write a whole shadow nozzle entry, which ends its poison (R186, R338). -/
def nozShadowSet (g v : Nat) (d : Dev) : Dev := ueRewrite 0 (131072 + g) 0 8 (nozShadowPut g v d)

def tileShadowSet (a v : Nat) (d : Dev) : Dev :=
  ueRewrite 2 (524288 + a / 2) (a % 2 * 4) 4
    { d with tileSh := cellSet tileReset d.tileSh a (BitVec.ofNat 32 v &&& tileReset) }

def waveShadow (d : Dev) (inst i : Nat) : Word := cellGet (waveReset i) d.waveSh (inst * 512 + i)

def waveShadowSet (inst i v : Nat) (d : Dev) : Dev :=
  ueRewrite 3 (16384 + (inst * 512 + i) / 2) (i % 2 * 4) 4
    { d with waveSh := cellSet (waveReset i) d.waveSh (inst * 512 + i) (BitVec.ofNat 32 v &&& waveMask i) }

def ftrimShadowSet (port i v : Nat) (d : Dev) : Dev :=
  { d with ftrimSh := cellSet (ftrimReset i) d.ftrimSh (port * 256 + i) (BitVec.ofNat 32 v &&& ftrimMask i) }

def dtrimShadow (d : Dev) (e : Nat) : Nat := cellGet (dtrimReset e) d.dtrimSh e

def dtrimShadowSet (e v : Nat) (d : Dev) : Dev :=
  if 190 ≤ e then d else { d with dtrimSh := cellSet (dtrimReset e) d.dtrimSh e (v % 65536) }

/-! ### Live halves, in the configuration an epoch uses -/

def nozLive (c : FireCfg) (g : Nat) : Nat := cellGet 0 c.noz g

def tileLive (c : FireCfg) (a : Nat) : Nat := (cellGet tileReset c.tile (a % 1048576)).toNat

def waveLive (c : FireCfg) (inst i : Nat) : Nat := (cellGet (waveReset i) c.wave (inst * 512 + i)).toNat

def ftrimLive (c : FireCfg) (port i : Nat) : Nat := (cellGet (ftrimReset i) c.ftrim (port * 256 + i)).toNat

def dtrimLive (c : FireCfg) (e : Nat) : Nat := cellGet (dtrimReset e) c.dtrim e

/-! ### Fields of a nozzle entry (R186) -/

def nozState (v : Nat) : Nat := bits v 0 2
def nozCmode (v : Nat) : Nat := bits v 2 2
def nozCap (v : Nat) : Nat := bits v 4 3
def nozNoRecv (v : Nat) : Bool := bit v 7
def nozPartner (v : Nat) : Int := toSigned 18 (bits v 8 18)
def nozGain (v : Nat) : Nat := bits v 26 12
def nozOffset (v : Nat) : Int := toSigned 12 (bits v 38 12)
def nozStitch (v : Nat) : Nat := min 256 (bits v 50 9)
def nozPasses (v : Nat) : Nat := bits v 60 4

/-! ### Ports -/

/-- NOZ_IDX advances after an access to a _LO register (chapter 09). -/
def nozAdvance (d : Dev) : Dev :=
  if d.getB F.NOZ_IDX_INC then d.put F.NOZ_IDX_IDX ((d.get F.NOZ_IDX_IDX + 1) % 131072) else d

/-- The plane that maps nozzle `g` in the plan in force, if an enabled one does. -/
def nozPlane (d : Dev) (g : Nat) : Option Nat :=
  let c := liveCfg d
  let h := g / 4096
  let p := cfgGet c (F.PLAN_HP_A_PLANE h)
  if cfgGetB c (F.PLAN_HP_A_EN h) && decide (g % 4096 < cfgGet c (F.PLAN_HP_A_NCOUNT h)) && cfgGetB c (F.PLAN_PLANE_A_EN p)
  then some p else none

/-- The entry NOZ_LIVE shows for nozzle `g` (chapter 09). -/
def nozLiveShown (d : Dev) (g : Nat) : Nat :=
  let last := (d.versions.headD {}).cfg
  if !d.planActive then nozLive last g else
  let o := match nozPlane d g with
    | some p => cellGet 0 d.planeLive p
    | none => (List.range 8).foldl (fun m p => max m (cellGet 0 d.planeLive p)) 0
  if o = 0 then nozLive last g else nozLive (cfgFor d (o - 1)) g

def nozShLoRead (d : Dev) : Nat × Dev :=
  let v := nozShadow d (d.get F.NOZ_IDX_IDX)
  (v % 2 ^ 32, nozAdvance (d.put F.NOZ_SH_HI_ENTRY (v / 2 ^ 32)))

def nozLiveLoRead (d : Dev) : Nat × Dev :=
  let v := nozLiveShown d (d.get F.NOZ_IDX_IDX)
  (v % 2 ^ 32, nozAdvance (d.put F.NOZ_LIVE_HI_ENTRY (v / 2 ^ 32)))

/-- Whether counter `k` of the wear table, bytes 6 k to 6 k + 5 of group 1, lies in a word that holds poison (R338, R339). -/
def wearBad (d : Dev) (k : Nat) : Bool := poisoned d 1 (6 * k / 8) || poisoned d 1 ((6 * k + 5) / 8)

/-- NOZ_WEAR_LO: the actuation counter; a poisoned one has no stated value (R189, R338). -/
def nozWearLoRead (d : Dev) : Nat × Dev :=
  let k := d.get F.NOZ_IDX_IDX
  let f := d.free 48
  let v := if wearBad d k then f.1 else cellGet 0 d.wear k
  let d := if wearBad d k then f.2 else d
  (v % 2 ^ 32, nozAdvance (d.put F.NOZ_WEAR_HI_COUNT (v / 2 ^ 32)))

/-- A write of NOZ_SH_LO writes the whole entry, its upper bits as last written to NOZ_SH_HI (R188). -/
def nozShLoWrite (v : Nat) (d : Dev) : Dev :=
  nozAdvance (nozShadowSet (d.get F.NOZ_IDX_IDX) (v % 2 ^ 32 + d.nozHi * 2 ^ 32) d)

def nozShHiWrite (v : Nat) (d : Dev) : Dev := { d.put F.NOZ_SH_HI_ENTRY v with nozHi := v % 2 ^ 32 }

/-- A write of NOZ_WEAR_LO sets the selected actuation counter (R189). -/
def nozWearLoWrite (v : Nat) (d : Dev) : Dev :=
  nozAdvance { d with wear := cellSet 0 d.wear (d.get F.NOZ_IDX_IDX) (v % 2 ^ 32 + d.wearHi * 2 ^ 32) }

def nozWearHiWrite (v : Nat) (d : Dev) : Dev := { d.put F.NOZ_WEAR_HI_COUNT v with wearHi := v % 2 ^ 16 }

def tileAdvance (d : Dev) : Dev := d.put F.SCR_TADDR_ADDR (d.get F.SCR_TADDR_ADDR + 1)

def scrTdataRead (d : Dev) : Nat × Dev := ((cellGet tileReset d.tileSh (d.get F.SCR_TADDR_ADDR)).toNat, tileAdvance d)

def scrTdataWrite (v : Nat) (d : Dev) : Dev := tileAdvance (tileShadowSet (d.get F.SCR_TADDR_ADDR) v d)

def waveAdvance (d : Dev) : Dev :=
  if d.getB F.WAVE_TSEL_INC then d.put F.WAVE_TSEL_IDX (d.get F.WAVE_TSEL_IDX + 1) else d

def waveTdataRead (d : Dev) : Nat × Dev :=
  ((waveShadow d (d.get F.WAVE_TSEL_INST) (d.get F.WAVE_TSEL_IDX)).toNat, waveAdvance d)

def waveTdataWrite (v : Nat) (d : Dev) : Dev :=
  waveAdvance (waveShadowSet (d.get F.WAVE_TSEL_INST) (d.get F.WAVE_TSEL_IDX) v d)

def trimDAdvance (d : Dev) : Dev :=
  if d.getB F.TRIM_DSEL_INC then d.put F.TRIM_DSEL_IDX (d.get F.TRIM_DSEL_IDX + 1) else d

/-- TRIM_DDATA and TRIM_FDATA: the live entry at the live offset, the shadow entry at the shadow offset (R5, R432). -/
def trimDdataRead (d : Dev) : Nat × Dev := (dtrimLive (liveCfg d) (d.get F.TRIM_DSEL_IDX), trimDAdvance d)

def trimDdataWrite (v : Nat) (d : Dev) : Dev := trimDAdvance (dtrimShadowSet (d.get F.TRIM_DSEL_IDX) v d)

def trimFAdvance (d : Dev) : Dev :=
  if d.getB F.TRIM_FSEL_INC then d.put F.TRIM_FSEL_IDX (d.get F.TRIM_FSEL_IDX + 1) else d

def trimFdataRead (d : Dev) : Nat × Dev :=
  (ftrimLive (liveCfg d) (d.get F.TRIM_FSEL_PORT) (d.get F.TRIM_FSEL_IDX), trimFAdvance d)

def trimFdataShadow (d : Dev) : Nat :=
  let i := d.get F.TRIM_FSEL_IDX
  (cellGet (ftrimReset i) d.ftrimSh (d.get F.TRIM_FSEL_PORT * 256 + i)).toNat

def trimFdataWrite (v : Nat) (d : Dev) : Dev :=
  trimFAdvance (ftrimShadowSet (d.get F.TRIM_FSEL_PORT) (d.get F.TRIM_FSEL_IDX) v d)

/-- τ[t] of port `h`, ps (R217). -/
def tauOf (d : Dev) (h t : Nat) : Nat :=
  match cellGet 0 d.taus (256 * h + t) with
  | 0 => 40 * t
  | v => v - 1

/-! ### Entries by message (R126) -/

/-- Write TABLE_WRITE entries into a shadow table. -/
def tableWrite (table inst first count : Nat) (data : List Byte) (d : Dev) : Dev :=
  let w (k : Nat) : Nat := beAt data (4 * k) 4
  forN count (fun k d =>
    let i := first + k
    match table with
    | 1 => nozShadowSet i (w (2 * k) + w (2 * k + 1) * 2 ^ 32) d
    | 2 => tileShadowSet i (w k) d
    | 3 => waveShadowSet inst i (w k) d
    | _ => ftrimShadowSet inst i (w k) d) d

/-- Number of instances and of entries of a table, and words per entry; none for an unknown TABLE. -/
def tableShape (table : Nat) : Option (Nat × Nat × Nat) :=
  match table with
  | 1 => some (1, 131072, 2)
  | 2 => some (1, 1048576, 1)
  | 3 => some (64, 512, 1)
  | 4 => some (32, 256, 1)
  | _ => none

end Sys2Proof.Machine
end

