-- ==== Sys2Proof/Machine/Head.lean ====
section
/-! DEFINITION. Waveform tables and trims (R220 to R226) and head protection (R227 to R232). -/
namespace Sys2Proof.Machine

def Dev.head (d : Dev) (h : Nat) : Head := cellGet {} d.heads h

def Dev.setHead (d : Dev) (h : Nat) (x : Head) : Dev := { d with heads := cellSet {} d.heads h x }

def hpPage (h : Nat) : Nat := 0x20 + h

/-! ### Waveforms -/

/-- A waveform table read by word index. -/
abbrev WaveTab := Nat → Nat

def waveEn (w : WaveTab) : Bool := bit (w 264) 24
def waveRest (w : WaveTab) : Nat := bits (w 264) 0 12

/-- The played segments (R220). -/
def waveSegs (w : WaveTab) : List Nat := (List.range (bits (w 264) 16 8 + 1)).map w

def segEnd (s : Nat) : Nat := bits s 0 12
def segSp (s : Nat) : Nat := bits s 12 3
def segMasked (s : Nat) : Bool := bit s 15
def segDur (s : Nat) : Nat := bits s 16 12

/-- Σ DUR. -/
def waveDur (w : WaveTab) : Nat := (waveSegs w).foldl (fun a s => a + segDur s) 0

/-- The segment at which SP_ORDER of R221 fails, from segment `i`; `prev` is the SP of the MASKED segment just before and
`last` the SP of the latest MASKED group. -/
def spOrderFail : List Nat → Nat → Option Nat → Option Nat → Option Nat
  | [], _, _, _ => none
  | s :: ss, i, prev, last =>
    if !segMasked s then spOrderFail ss (i + 1) none last
    else
      let sp := segSp s
      if prev = some sp then spOrderFail ss (i + 1) prev last
      else match last with
        | some l => if sp ≤ l then some i else spOrderFail ss (i + 1) (some sp) (some sp)
        | none => spOrderFail ss (i + 1) (some sp) (some sp)

/-- The first check of R221 that a table with EN = 1 fails: its code and segment. -/
def waveTabCheck (w : WaveTab) : Option (Nat × Nat) :=
  let segs := waveSegs w
  match segs.findIdx? (fun s => segDur s == 0) with
  | some i => some (1, i)
  | none =>
    if segEnd (segs.getLastD 0) ≠ waveRest w then some (2, segs.length - 1)
    else (spOrderFail segs 0 none none).map (fun i => (3, i))

/-- The arming check of page 0x14 on the shadow tables: code, instance and segment of the first failure (R221). -/
def waveCheck (d : Dev) : Option (Nat × Nat × Nat) :=
  (List.range 64).foldl (fun r inst =>
    match r with
    | some x => some x
    | none =>
      let w : WaveTab := fun i => (waveShadow d inst i).toNat
      if waveEn w then (waveTabCheck w).map (fun q => (q.1, inst, q.2)) else none) none

/-- Generators of port `h` that stream under `c` (R220). -/
def streams (c : FireCfg) (h g : Nat) : Bool := waveEn (waveLive c (2 * h + g))

/-- The waveform length N of a line on port `h`, samples (R218). -/
def waveLen (c : FireCfg) (h : Nat) : Nat :=
  if cfgGetB c (F.PLAN_HP_A_WAVE_EN h) && (streams c h 0 || streams c h 1) then
    max (if streams c h 0 then waveDur (waveLive c (2 * h)) else 0)
      (if streams c h 1 then waveDur (waveLive c (2 * h + 1)) else 0)
  else cfgGet c (F.HP_EXT_DUR_DUR h)

/-- The samples of one segment that starts at level `a` (R223). -/
def segSamples (ag a s : Nat) : List Nat :=
  let e : Int := segEnd s
  let dd : Int := segDur s
  (List.range (segDur s)).map (fun (k : Nat) =>
    let y : Int := a + (2 * (e - a) * (k + 1) + dd) / (2 * dd)
    satU 12 ((y * ag + 2048) / 4096))

/-- The burst of a generator with amplitude gain `ag` (R223). -/
def waveSamples (w : WaveTab) (ag : Nat) : List Nat :=
  ((waveSegs w).foldl (fun (p : Nat × List (List Nat)) s => (segEnd s, segSamples ag p.1 s :: p.2))
    (waveRest w, [])).2.reverse.flatten

/-- SP_START[s] and SP_END[s] (R222). -/
def spWindow (w : WaveTab) (s : Nat) : Nat × Nat :=
  let r := (waveSegs w).foldl (fun (p : Nat × Option (Nat × Nat)) x =>
      let e := p.1 + segDur x
      (e, if segMasked x && segSp x == s then
          some (match p.2 with
            | some q => (q.1, e)
            | none => (p.1, e))
        else p.2)) (0, none)
  r.2.getD (0, 0)

/-- The payload of the schedule message of port `h` (R224). -/
def scheduleBody (c : FireCfg) (h wset : Nat) : List Byte :=
  let gen (g : Nat) : List Byte :=
    let w := waveLive c (2 * h + g)
    ((List.range 8).map (fun l => leBytes 1 (w (256 + l)))).flatten
    ++ ((List.range 8).map (fun s => beBytes 2 (spWindow w s).1 ++ beBytes 2 (spWindow w s).2)).flatten
  leBytes 1 wset ++ leBytes 1 (b2n (streams c h 0) + 2 * b2n (streams c h 1)) ++ leBytes 2 0 ++ gen 0 ++ gen 1

/-! ### Temperature trims (R226) -/

/-- Interpolate the five values `v` at head temperature θ, 1/16 °C. -/
def trimAt (v : Nat → Int) (theta : Int) : Int :=
  let u : Int := (if theta < 400 then 400 else if 1040 < theta then 1040 else theta) - 400
  let i : Nat := min (u.toNat / 160) 3
  let f : Int := u - 160 * i
  v i + ((v (i + 1) - v i) * f + 80) / 160

def headTheta (d : Dev) (h : Nat) : Int := d.getI (F.HP_STAT_TEMP h)

/-- DT of port `h` at θ, ps. -/
def delayTrim (c : FireCfg) (h : Nat) (theta : Int) : Int := trimAt (fun i => toSigned 20 (ftrimLive c h i)) theta

/-- AG of generator `g` of port `h` at θ, 1/4,096. -/
def ampGain (c : FireCfg) (h g : Nat) (theta : Int) : Nat :=
  (trimAt (fun i => (bits (ftrimLive c h (8 + 8 * g + i)) 0 13 : Int)) theta).toNat

/-! ### Head protection -/

/-- The configuration under which plane `p` prints its next line: the resume line's while it is in seam-stop. Under R33 planes
pass from the old plan to the new one each at its own line. -/
def planeCfg (d : Dev) (p : Nat) : FireCfg :=
  let x := d.plane p
  cfgFor d (ordOfLine d p (if inSeamStop d p then max x.next x.resume else x.next))

/-- The planes that port `h` carries while a plan is active. -/
def boundPlanes (d : Dev) (h : Nat) : List Nat :=
  (activePlanes d).filter (fun p =>
    let c := planeCfg d p
    cfgGetB c (F.PLAN_HP_A_EN h) && cfgGet c (F.PLAN_HP_A_PLANE h) == p)

/-- Whether port `h` is bound to an active plan (R363). -/
def portBound (d : Dev) (h : Nat) : Bool := !(boundPlanes d h).isEmpty || (d.planActive && cfgGetB (liveCfg d) (F.PLAN_HP_A_EN h))

/-- Whether port `h` permits cause 4 of its plane to clear (R229). -/
def headFit (d : Dev) (h : Nat) : Bool :=
  d.getB (F.HP_STAT_TEMP_VALID h) && decide (headTheta d h < d.getI (F.HP_TEMP_B_T_RESUME h)) && !d.getB (F.HP_STAT_CUT h)

/-- Cause 4 of plane `p` clears once all its ports permit it (R229). -/
def headStopClear (p : Nat) (d : Dev) : Dev :=
  let ports := cfgPorts (planeCfg d p) p
  if holdsCause d p causeHeadTemp && ports.all (headFit d) then
    forL (ports ++ cfgPorts (liveCfg d) p) (fun h d => d.put (F.HP_STAT_STOP h) 0) (seamClear p causeHeadTemp d)
  else d

/-- Cause 5 of plane `p` clears once no port of it is cut: those it prints with, and those whose cut stopped it, though a new
plan has unbound them since (R177, R232). -/
def headCutClear (p : Nat) (d : Dev) : Dev :=
  if holdsCause d p causeHeadCut
      && (cfgPorts (planeCfg d p) p ++ bitsOf 32 (d.plane p).cutPorts).all (fun h => !d.getB (F.HP_STAT_CUT h)) then
    seamClear p causeHeadCut (d.setPlane p { d.plane p with cutPorts := 0 })
  else d

/-- The first line of plane `p` with T later than now: lines assigned up to now still complete (R229). -/
def firstAfterNow (d : Dev) (p : Nat) : Nat :=
  let x := d.plane p
  (x.assigns.filter (fun a => decide (x.next ≤ a.line) && decide (a.t ≤ d.t16))).foldl (fun m a => max m (a.line + 1)) x.next

/-- Port `h` is too hot, without a valid temperature, or cut with no line in progress: the planes `ps` that it carries take cause
4 unless they hold it already (R229, R230). -/
def headStopPlanes (h : Nat) (ps : List Nat) (d : Dev) : Dev :=
  forL ps (fun p d =>
    let d := d.put (F.HP_STAT_STOP h) 1
    if holdsCause d p causeHeadTemp then d else seamStop p causeHeadTemp (firstAfterNow d p) d) d

/-- The same for every plane that port `h` carries (R229). -/
def headStop (h : Nat) (d : Dev) : Dev := headStopPlanes h (boundPlanes d h) d

/-- One line in progress on a cut port is torn (R230, R211). -/
def tornLine (h cause : Nat) (b : Busy) (d : Dev) : Dev :=
  let p := b.plane
  let d := d.setPlane p { d.plane p with cutPorts := setBit (d.plane p).cutPorts h }
  let e := epochNumber d b.ord
  let d := d.sendEvent 0x03 p b.line (h + 256 * cause) e
  let d := plogWrite 0x06 p e (leBytes 4 0 ++ leBytes 6 b.line ++ leBytes 1 h) d
  let c := d.copyAt b.ord
  let d := d.setCopy b.ord { c with torn := setBit c.torn p }
  seamStop p causeHeadCut (firstLine d (b.ord + 1) p) (rejectMark b.ord d)

/-- Lines in progress on port `h` now (R219). -/
def inProgress (d : Dev) (h : Nat) : List Busy :=
  (d.head h).prog.filter (fun b => match b.endT with
    | some e => decide (d.t16 * 1000 < e * 65536)
    | none => true)

/-- The bursts of port `h` that have not begun are not sent (R230, R245). -/
def burstsDrop (h : Nat) (d : Dev) : Dev :=
  let x : Link := cellGet {} d.links h
  { d with links := cellSet {} d.links h { x with
      bursts := x.bursts.filter (fun b => decide (x.origin + (20000 * b.round : Nat) ≤ laneNow d h)) } }

/-- Port `h` is cut with `cause` (R230, R231): 1 T_CUT, 2 link, 3 firmware. A port already cut keeps its cause. -/
def headCut (h cause : Nat) (d : Dev) : Dev :=
  if d.getB (F.HP_STAT_CUT h) then d else
  let busy := inProgress d h
  let ps := boundPlanes d h
  let d := ((d.drive .headCutN h 0).put (F.HP_STAT_CUT h) 1).put (F.HP_STAT_CUT_CAUSE h) cause
  let d := burstsDrop h (d.setHead h { d.head h with strobes := [], prog := [] })
  if !d.planActive then d else
  headStopPlanes h (ps.filter (fun p => !busy.any (fun b => b.plane == p))) (forL busy (tornLine h cause) d)

/-- A temperature report θ on port `h` (R227 to R230). -/
def temperatureReport (h : Nat) (theta : Int) (d : Dev) : Dev :=
  let d := (d.putI (F.HP_STAT_TEMP h) theta).put (F.HP_STAT_TEMP_VALID h) 1
  let d := d.setHead h { d.head h with reports := (d.head h).reports + 1 }
  let warn := d.getI (F.HP_TEMP_A_T_WARN h)
  let d := d.putB (F.HP_STAT_WARN h) (decide (warn < theta))
  let d := if warn < theta then
      (if (d.head h).warnArmed then (d.setHead h { d.head h with warnArmed := false }).raise (hpPage h) 0 else d)
    else if theta ≤ warn - 16 then d.setHead h { d.head h with warnArmed := true } else d
  let d := if d.getI (F.HP_TEMP_A_T_STOP h) < theta then headStop h d else d
  let d := if d.getI (F.HP_TEMP_B_T_CUT h) < theta then headCut h 1 d else d
  forL (boundPlanes d h) headStopClear d

/-- The beat just ended is checked for reports (R227). -/
def tempBeat (h : Nat) (d : Dev) : Dev :=
  let x := d.head h
  if x.reports = 0 && x.idleBeats == 0 && !d.getB (F.HP_STAT_TEMP_VALID h) then d else
  d.setHead h { x with reports := 0, idleBeats := if x.reports = 0 then min 15 (x.idleBeats + 1) else 0 }

/-- TMO beats in a row brought no report: TEMP_VALID clears and the port counts as above T_STOP (R227, R229). -/
def tempValidTimeout (h : Nat) (d : Dev) : Dev :=
  if d.getB (F.HP_STAT_TEMP_VALID h) && decide (d.get (F.HP_TEMP_B_TMO h) ≤ (d.head h).idleBeats) then
    headStop h (d.put (F.HP_STAT_TEMP_VALID h) 0)
  else d

/-- A plan comes into force on plane `p` with configuration `c`: with a bound port without a valid temperature the plane
takes cause 4 at its first line `m` under the plan (R229). -/
def headActivatePlane (c : FireCfg) (p m : Nat) (d : Dev) : Dev :=
  let bad := (cfgPorts c p).filter (fun h => !d.getB (F.HP_STAT_TEMP_VALID h))
  if bad.isEmpty then d else
  let d := forL bad (fun h d => d.put (F.HP_STAT_STOP h) 1) d
  if holdsCause d p causeHeadTemp then d else seamStop p causeHeadTemp m d

/-- The same for every plane, from line 0 (R32, R229). -/
def headActivate (c : FireCfg) (d : Dev) : Dev := forL (cfgPlanes c) (fun p d => headActivatePlane c p 0 d) d

/-- HP_CTL.CUT (R231). -/
def hpCutCmd (h : Nat) (d : Dev) : Dev := headCut h 3 d

/-- Whether the link of head port `h` is up (R253). -/
def headLinkUp (d : Dev) (h : Nat) : Bool := (cellGet {} d.links h).up

/-- HP_CTL.CUT_CLR (R232). -/
def hpCutClr (h : Nat) (d : Dev) : Dev :=
  if headLinkUp d h && d.getB (F.HP_STAT_TEMP_VALID h) && decide (headTheta d h < d.getI (F.HP_TEMP_B_T_RESUME h)) then
    let d := (d.drive .headCutN h 1).put (F.HP_STAT_CUT h) 0
    let d := d.put (F.HP_STAT_CUT_CAUSE h) 0
    forL (activePlanes d) (fun p d => headCutClear p (headStopClear p d)) d
  else d.refuseAt (R.HP_CTL h)

/-- A write of HP_CTL: both bits together are refused (R231). -/
def hpCtlWrite (h v : Nat) (d : Dev) : Dev :=
  if bit v 0 && bit v 1 then d.refuseAt (R.HP_CTL h)
  else if bit v 1 then hpCutCmd h d
  else if bit v 0 then hpCutClr h d
  else d

/-- A write of HP_TEMP_A or HP_TEMP_B: refused where it breaks T_RESUME < T_WARN ≤ T_STOP < T_CUT or sets TMO 0 (R227,
R458). -/
def hpTempWrite (h : Nat) (isB : Bool) (v : Nat) (d : Dev) : Dev :=
  let e := if isB then ((d.put (F.HP_TEMP_B_T_CUT h) v).put (F.HP_TEMP_B_T_RESUME h) (bits v 16 12)).put (F.HP_TEMP_B_TMO h) (bits v 28 4)
    else (d.put (F.HP_TEMP_A_T_WARN h) v).put (F.HP_TEMP_A_T_STOP h) (bits v 16 12)
  let ok := decide (e.getI (F.HP_TEMP_B_T_RESUME h) < e.getI (F.HP_TEMP_A_T_WARN h))
    && decide (e.getI (F.HP_TEMP_A_T_WARN h) ≤ e.getI (F.HP_TEMP_A_T_STOP h))
    && decide (e.getI (F.HP_TEMP_A_T_STOP h) < e.getI (F.HP_TEMP_B_T_CUT h))
    && e.get (F.HP_TEMP_B_TMO h) != 0
  if ok then e else d.refuseAt (if isB then R.HP_TEMP_B h else R.HP_TEMP_A h)

end Sys2Proof.Machine
end

