-- ==== Sys2Proof/Machine/Line.lean ====
section
/-! DEFINITION. The Gweat line code (R239 to R243, R246): scrambler, stuffing, markers, bonded lanes, rounds with slot fields
on the transmit side; deskew, marker search, stuff-bit removal and descrambler on the receive side. A line bit is a Bool, and
a bit list is in line order. -/
namespace Sys2Proof.Machine

/-! ### Bits -/

/-- The `n` bits of `v`, most significant first (R242). -/
def msbBits (n v : Nat) : List Bool := (List.range n).map (fun i => bit v (n - 1 - i))

/-- The bits of bytes, each most significant first (R242). -/
def lineBits (bs : List Byte) : List Bool := (bs.map (fun b => msbBits 8 b.toNat)).flatten

/-- The value of bits, the first most significant. -/
def lineNat (l : List Bool) : Nat := l.foldl (fun a b => 2 * a + b2n b) 0

/-- The first `n` bytes of a bit list; bytes that it does not hold in full are left out. -/
def bitsBytes : Nat → List Bool → List Byte
  | 0, _ => []
  | n + 1, l => if l.length < 8 then [] else BitVec.ofNat 8 (lineNat (l.take 8)) :: bitsBytes n (l.drop 8)

/-- Every other element, from the first on. -/
def everyOther : List Bool → List Bool
  | a :: _ :: t => a :: everyOther t
  | l => l

/-! ### Scrambler (R239) -/

/-- The 58 scrambled bits with `s` sent after `h`. -/
def histPush (h : Nat) (s : Bool) : Nat := (2 * h + b2n s) % 2 ^ 58

/-- s(n − 39) XOR s(n − 58). -/
def histTap (h : Nat) : Bool := xor (bit h 38) (bit h 57)

/-- The scrambled bits of payload `l` after the scrambled bits `h`. -/
def scramble : Nat → List Bool → List Bool
  | _, [] => []
  | h, d :: l => let s := xor d (histTap h); s :: scramble (histPush h s) l

/-- The payload bits of the scrambled bits `l` received after `h`. -/
def descramble : Nat → List Bool → List Bool
  | _, [] => []
  | h, s :: l => xor s (histTap h) :: descramble (histPush h s) l

/-! ### The transmit stream -/

/-- A line bit goes out: it prolongs the run or begins one. -/
def Coder.send (c : Coder) (b : Bool) : Coder := { c with last := b, run := if b == c.last then c.run + 1 else 1 }

/-- A payload bit goes out, scrambled. -/
def Coder.payload (c : Coder) (d : Bool) : Bool × Coder :=
  let s := xor d (histTap c.hist)
  (s, { c.send s with hist := histPush c.hist s })

/-- A stream with no frame to send. -/
def LineTx.idle (x : LineTx) : Bool := x.mark == 0 && x.cur.isEmpty && x.q.isEmpty

/-- The next line bit of a stream that carries the slot fields `slots`, by round since START, in rounds of `rb` bits; `rb` is
0 where there are none. A stuff bit is owed after 31 equal bits (R240); a marker goes out whole, with its guard bit (R241); a
slot field begins with its round, but for a marker in progress, and a frame that is due waits for a slot field in progress
(R243, R246); then the frame in progress, and scrambled zeros between frames. -/
def lineStep (rb : Nat) (slots : Nat → List Bool) (x : LineTx) : Bool × LineTx :=
  let x := if rb != 0 && x.pos % rb == 0 then { x with slot := x.slot ++ slots (x.pos / rb) } else x
  let y := { x with pos := x.pos + 1, odd := !x.odd }
  if x.mark ≠ 0 then
    let b := decide (1 < x.mark)
    (b, { y with mark := x.mark - 1, coder := x.coder.send b })
  else if x.coder.run = 31 then (!x.coder.last, { y with coder := x.coder.send (!x.coder.last) })
  else match x.slot with
    | s :: rest => let r := x.coder.payload s; (r.1, { y with coder := r.2, slot := rest })
    | [] => match x.cur with
      | b :: rest => let r := x.coder.payload b; (r.1, { y with coder := r.2, cur := rest })
      | [] =>
        let idle := let r := x.coder.payload false; (r.1, { y with coder := r.2 })
        match x.q with
        | f :: rest =>
          if f.1 ≤ x.pos then (true, { y with mark := 32, cur := lineBits f.2, q := rest, coder := x.coder.send true }) else idle
        | [] => idle

/-- The next `n` line bits, after those of `acc`, which is in reverse. -/
def lineRun (rb : Nat) (slots : Nat → List Bool) : Nat → LineTx → List Bool → List Bool × LineTx
  | 0, x, acc => (acc.reverse, x)
  | n + 1, x, acc => let r := lineStep rb slots x; lineRun rb slots n r.2 (r.1 :: acc)

/-- `n` line bits of a stream without slot fields go by between frames: scrambled zeros (R243). -/
def lineIdle : Nat → LineTx → LineTx
  | 0, x => x
  | n + 1, x => lineIdle n (lineStep 0 (fun _ => []) x).2

/-- The line bits up to the last bit of the last frame that waits; `n` bounds them. -/
def lineFlush (rb : Nat) (slots : Nat → List Bool) : Nat → LineTx → List Bool → List Bool × LineTx
  | 0, x, acc => (acc.reverse, x)
  | n + 1, x, acc =>
    if x.idle then (acc.reverse, x) else let r := lineStep rb slots x; lineFlush rb slots n r.2 (r.1 :: acc)

/-- A bound on the line bits of a frame of `n` bytes: its marker and one stuff bit in 31. -/
def frameBound (n : Nat) : Nat := 34 + 8 * n + (34 + 8 * n) / 31

/-- Lanes 0 and 1 of a bonded bit list whose first bit goes on lane 1 when `odd` (R242). -/
def laneSplit (odd : Bool) (l : List Bool) : List Bool × List Bool :=
  if odd then (everyOther (l.drop 1), everyOther l) else (everyOther l, everyOther (l.drop 1))

/-! ### The receive stream -/

/-- What the receiver finds on the line: a scrambled payload bit, a stuff bit, a marker that ends at the `n`th line bit, a
coding error, an inverted lane. -/
inductive RxItem where
  | bit (b : Bool)
  | stuff
  | mark (n : Nat)
  | error
  | inverted
  deriving DecidableEq, Repr

/-- The ones held back, `n` of them, are payload. -/
def heldOnes (n : Nat) : List RxItem := List.replicate n (.bit true)

/-- One line bit is received: the receiver after it, and what it finds, in order (R240, R241, R253). After 31 equal bits a
complement is a stuff bit, a further one belongs to a marker, which is the last 32 ones of its run, with the guard bit that ends
it, and a further zero is a coding error. While polarity is sought (`seek`), 32 zeros or more ended by a 1 are a marker of an
inverted lane. -/
def rxStep (seek : Bool) (x : LineRx) (raw : Bool) : LineRx × List RxItem :=
  let x := { x with pos := x.pos + 1 }
  if raw != x.inv then
    if x.last then ({ x with run := x.run + 1, ones := x.ones + 1 }, [])
    else if seek && decide (32 ≤ x.run) then
      ({ x with last := false, run := 1, ones := 0, inv := !x.inv }, [.inverted, .mark x.pos])
    else ({ x with last := true, run := 1, ones := if x.run = 31 then 0 else 1 }, if x.run = 31 then [.stuff] else [])
  else if x.last then
    let y := { x with last := false, run := 1, ones := 0 }
    if 32 ≤ x.run then (y, heldOnes (x.ones - 32) ++ [.mark x.pos])
    else (y, heldOnes x.ones ++ [if x.run = 31 then .stuff else .bit false])
  else ({ x with run := x.run + 1 }, if x.run < 31 then [.bit false] else if x.run = 31 ∧ !seek then [.error] else [])

/-- How long a frame with the bytes `bs` so far is, by its TYPE and what its head says, on a head port or else a stay port;
none for a TYPE that the link does not receive, or a LEN beyond its limit. -/
def rxFrameLen (head : Bool) (bs : List Byte) : Option Nat :=
  let longs : Option Nat := if head && decide (beAt bs 2 2 ≤ 512) then some (beAt bs 2 2 + 8) else none
  match byteAt bs 0 with
  | 0x0F => some 14
  | 0x0E => if head then none else some 8
  | 0x10 => if head then none else some (42 + (if bit (byteAt bs 2) 0 then 32 else 0) + 12 * byteAt bs 3)
  | 0x81 => if head then some 24 else none
  | 0x82 => longs
  | 0x83 => longs
  | _ => none

/-- What comes of the line: a whole frame, from TYPE to CRC, with the line bits since its marker began; something discarded; a
lane found inverted. -/
inductive RxEvent where
  | frame (bs : List Byte) (since : Nat)
  | bad
  | inverted
  deriving DecidableEq, Repr

/-- A payload bit is descrambled and joins the frame in progress, which is complete with its last byte and is given up once its
TYPE or LEN is none that the link receives (R239, R248). -/
def rxPayload (head : Bool) (x : LineRx) (s : Bool) : LineRx × List RxEvent :=
  let d := xor s (histTap x.hist)
  let y := { x with hist := histPush x.hist s, since := x.since + 1 }
  match x.cur with
  | none => (y, [])
  | some bs =>
    let acc := 2 * x.acc + b2n d
    if x.got < 7 then ({ y with acc := acc, got := x.got + 1 }, []) else
    let bs := bs ++ [BitVec.ofNat 8 acc]
    let z := { y with acc := 0, got := 0 }
    match rxFrameLen head bs with
    | none => ({ z with cur := none }, [.bad])
    | some n => if bs.length = n then ({ z with cur := none }, [.frame bs y.since]) else ({ z with cur := some bs }, [])

/-- One thing found on the line: a marker breaks off the frame in progress and begins the next one, and a coding error discards
it, and counts without one too (R240, R241). -/
def rxItem (head : Bool) (x : LineRx) : RxItem → LineRx × List RxEvent
  | .bit s => rxPayload head x s
  | .stuff => ({ x with since := x.since + 1 }, [])
  | .mark n => ({ x with cur := some [], acc := 0, got := 0, since := 33, markAt := n }, if x.cur.isSome then [.bad] else [])
  | .error => ({ x with cur := none }, [.bad])
  | .inverted => (x, [.inverted])

/-- A receiver takes line bits: what it found, in order. -/
def rxItems (seek : Bool) (x : LineRx) (l : List Bool) : LineRx × List RxItem :=
  let r := l.foldl (fun (r : LineRx × List (List RxItem)) b => let q := rxStep seek r.1 b; (q.1, q.2 :: r.2)) (x, [])
  (r.1, r.2.reverse.flatten)

/-- A receiver takes line bits: what comes of them, in order. -/
def rxEvents (head seek : Bool) (x : LineRx) (l : List Bool) : LineRx × List RxEvent :=
  let i := rxItems seek x l
  let r := i.2.foldl (fun (r : LineRx × List (List RxEvent)) e => let q := rxItem head r.1 e; (q.1, q.2 :: r.2)) (i.1, [])
  (r.1, r.2.reverse.flatten)

/-- The bits of lanes 0 and 1, and those that wait for their partner, once they are bonded (R242). -/
def rxBond : List Bool → List Bool → List Bool × List Bool × List Bool
  | a :: s, b :: t => let r := rxBond s t; (a :: b :: r.1, r.2)
  | s, t => ([], s, t)

end Sys2Proof.Machine
end

