-- ==== Sys2Proof/Machine/Time.lean ====
section
/-! DEFINITION. Network time and timed pulses (chapter 04): the servo, the two PTP domains, ring time, the timestamp
queue, launch times and TPULSE. Instants are in 2^-16 ns of the local clock unless a name says otherwise. -/
namespace Sys2Proof.Machine

/-! ### The clock and its servo -/

/-- The index of the active domain (R71). -/
def actDom (d : Dev) : Nat := if d.getB (F.TIME_DOM_STAT_ACTIVE 1) then 1 else 0

def Dev.dom (d : Dev) (k : Nat) : Dom := cellGet {} d.tm.doms k

def Dev.setDom (d : Dev) (k : Nat) (x : Dom) : Dev := { d with tm := { d.tm with doms := cellSet {} d.tm.doms k x } }

def Dev.tp (d : Dev) (i : Nat) : Tp := cellGet {} d.tm.tps i

def Dev.setTp (d : Dev) (i : Nat) (x : Tp) : Dev := { d with tm := { d.tm with tps := cellSet {} d.tm.tps i x } }

/-- Local time in ns, rounded down. -/
def Dev.tNs (d : Dev) : Int := (d.nt : Int)

def clampI (x lim : Int) : Int := if x < -lim then -lim else if lim < x then lim else x

/-- LOCKED and SLEWING for the offset `th` of the followed time; `clamped` says that the proportional term was limited
(R67, TIME_STAT). -/
def timeStatus (qual clamped : Bool) (th : Int) (d : Dev) : Dev :=
  let d := d.putB F.TIME_STAT_LOCKED (qual && decide (th.natAbs ≤ 100 * 65536))
  d.putB F.TIME_STAT_SLEWING (clamped || (d.getB F.TIME_STAT_SLEWING && decide (10 * 65536 < th.natAbs)))

/-- The instant with low bits `v` modulo `p` in the window from `t` − p/2 up to `t` + p/2. -/
def nearestInstant (v t p : Int) : Int := t + ((v - t + p / 2) % p - p / 2)

/-- START of output `i` as a full instant, ns, in the window of 2^32 s nearest the present (R84). -/
def tpStart (d : Dev) (i : Nat) : Int :=
  nearestInstant ((1000000000 * d.get (F.TP_START_SEC_SEC i) + d.get (F.TP_START_NS_NS i) : Nat) : Int) d.tNs
    (2 ^ 32 * 1000000000)

/-- The present in 2^-48 ns (R64). -/
def Dev.t48 (d : Dev) : Int := ((d.clk : Nat) : Int)

/-- Pulses of a schedule from `start`, ns, that begin before `t`, 2^-48 ns (R84). -/
def tpBefore (d : Dev) (i : Nat) (start t : Int) : Nat :=
  let u : Int := nsUnit
  if t ≤ start * u then 0
  else if d.get (F.TP_CFG_COUNT i) = 1 ∨ d.get (F.TP_PERIOD_PERIOD i) = 0 then 1
  else ((t - start * u - 1) / ((d.get (F.TP_PERIOD_PERIOD i) : Int) * u)).toNat + 1

def tpLeft (d : Dev) (i : Nat) (x : Tp) : Bool :=
  d.getB (F.TP_CFG_EN i) && (d.get (F.TP_CFG_COUNT i) == 0 || decide (x.k < d.get (F.TP_CFG_COUNT i)))

/-- Drive TPULSE[i] and report RUN (R83). -/
def tpShow (i : Nat) (d : Dev) : Dev :=
  let x := d.tp i
  let d := d.putB (F.TP_STAT_RUN i) (x.endT.isSome || tpLeft d i x)
  d.drive .tpulse i (if x.endT.isSome then 1 - d.get (F.TP_CFG_POL i) else d.get (F.TP_CFG_POL i))

/-- New settings of TPULSE take effect at the commit instant (R84). -/
def tpApply (d : Dev) : Dev :=
  forN 8 (fun i d =>
    let x := d.tp i
    let st := tpStart d i
    let k := tpBefore d i st d.t48
    let d := if d.getB (F.TP_CFG_EN i) && k != 0 then d.put (F.TP_STAT_LATE i) 1 else d
    tpShow i (d.setTp i { x with start := st, k := k, hold := (x.endT.map (fun e => e * (nsUnit : Int))).getD d.t48 })) d

/-- Pulses of output `i` that begin before `t`, 2^-48 ns, and have not begun are skipped; LATE reports it when `late` says
that R84 skips them. -/
def tpSkip (late : Bool) (i : Nat) (t : Int) (d : Dev) : Dev :=
  let x := d.tp i
  let k := tpBefore d i x.start t
  if tpLeft d i x && decide (x.k < k) then
    tpShow i ((if late then d.put (F.TP_STAT_LATE i) 1 else d).setTp i { x with k := k })
  else d

/-- The clock has stepped: pulses that the step skips count toward COUNT (R84). -/
def tpStep (d : Dev) : Dev := forN 8 (fun i d => tpSkip true i d.t48 d) d

/-- Page 0x09 is enabled: pulses whose instants have passed are not made up for, since pulse k stands at START + k × PERIOD
(R83, R361). -/
def tpEnable (d : Dev) : Dev := forN 8 (fun i d => tpSkip false i d.t48 d) d

/-- Output `i` reaches the start or end instant of a pulse (R83, R84). -/
def tpulseEdge (i : Nat) (d : Dev) : Dev :=
  let x := d.tp i
  match x.endT with
  | some e => if e ≤ d.tNs then tpShow i (d.setTp i { x with endT := none }) else d
  | none =>
    if !d.enabled 0x09 || !tpLeft d i x then d else
    let d := tpSkip true i x.hold d
    let x := d.tp i
    let st := x.start + (x.k : Int) * d.get (F.TP_PERIOD_PERIOD i)
    if tpLeft d i x && decide (st ≤ d.tNs) then
      let e := st + d.get (F.TP_WIDTH_WIDTH i)
      tpShow i (d.setTp i { x with k := x.k + 1, endT := some e, hold := e * nsUnit })
    else tpShow i (d.setTp i x)

/-- The arming check of page 0x09 on the shadow half: the first failing output and its code (R83). -/
def tpulseCheck (d : Dev) : Option (Nat × Nat) :=
  (List.range 8).findSome? (fun i =>
    if !d.getB (shadowOf (F.TP_CFG_EN i)) then none else
    let w := d.get (shadowOf (F.TP_WIDTH_WIDTH i))
    let p := d.get (shadowOf (F.TP_PERIOD_PERIOD i))
    let many := d.get (shadowOf (F.TP_CFG_COUNT i)) != 1
    if w < 4 then some (1, i)
    else if many && decide (p < 40) then some (2, i)
    else if many && decide (p ≤ w) then some (3, i)
    else none)

/-- Set the local clock to `t`, 2^-16 ns (R67). -/
def clockSet (t : Int) (d : Dev) : Dev := memberRebase (tpStep { d with clk := t.toNat * 2 ^ 32 })

/-- One offset sample θ of the followed time (R66, R67, R74). After a switch of domain the clock does not step until |θ| has
come under STEP_THR once (R71, log entry 109). Under a plan an offset beyond STEP_THR is one that is slewed, and sets SLEWING:
R67 does not say from which offset on (DESIGN CHOICE, log entry 118). -/
def servo (th : Int) (qual : Bool) (d : Dev) : Dev :=
  if !d.getB F.TIME_CTL_SERVO_EN || d.getB F.TIME_STAT_HOLDOVER then timeStatus qual false th d
  else
    let far := decide (d.get F.TIME_SLEW_STEP_THR * 10 * 65536 < th.natAbs)
    if !d.planActive && !d.tm.noStep && far then
      let d := clockSet (d.t16 + th) d
      timeStatus qual false 0 ((d.put F.TIME_STAT_STEPPED 1).raise 0x08 0)
    else
    let d := { d with tm := { d.tm with noStep := d.tm.noStep && far } }
    let lim : Int := d.get F.TIME_SLEW_SLEW_LIM
    let p0 := (d.get F.TIME_SERVO_KP : Int) * th / 2 ^ 14
    let p := clampI p0 (lim * 1024)
    let di := clampI ((d.get F.TIME_SERVO_KI : Int) * th / 2 ^ 22) (lim * 64)
    let iq := satS 32 (d.tm.iq + di)
    let d := { d with tm := { d.tm with iq := iq } }
    let slew := p != p0 || ((d.planActive || d.tm.noStep) && far)
    timeStatus qual slew th (d.putI F.TIME_FREQ_FREQ (satS 32 (iq + p)))

/-- TIME_CTL.SET (R67). -/
def timeSet (d : Dev) : Dev :=
  if d.planActive then (d.put F.TIME_STAT_SET_REFUSED 1).refuseAt R.TIME_CTL
  else clockSet ((65536 * (1000000000 * d.get2 F.TIME_SET_SEC_LO_SEC F.TIME_SET_SEC_HI_SEC + d.get F.TIME_SET_NS_NS) : Nat) : Int) d

/-! ### Domains -/

/-- TIME_CTL.ACT_DOM written with `v` (R71). A write that leaves the field as it is switches nothing and leaves a pending
switch alone. -/
def timeActDom (v : Nat) (d : Dev) : Dev :=
  if v % 2 = d.get F.TIME_CTL_ACT_DOM then d else
  let d := d.put F.TIME_CTL_ACT_DOM v
  { d with tm := { d.tm with switchTo := if v % 2 = actDom d then none else some (v % 2) } }

/-- The clock enters holdover: FREQ is held at I_q (R72). -/
def holdover (d : Dev) : Dev :=
  let d := (d.putI F.TIME_FREQ_FREQ d.tm.iq).put F.TIME_STAT_LOCKED 0
  if d.getB F.TIME_STAT_HOLDOVER then d else
  let d := (d.put F.TIME_STAT_HOLDOVER 1).raise 0x08 2
  d.sendEvent 10 0xFF 0 (d.reg R.TIME_STAT).toNat 0

/-- The active domain is lost: the clock switches to the other one at the next boundary if that is qualified (R71), and is in
holdover if it is not (R72); with SRC 1 it follows ring time instead (R74). -/
def domainCheck (d : Dev) : Dev :=
  let k := actDom d
  if d.getB F.TIME_CTL_SRC || !d.getB (F.TIME_DOM_STAT_LOST k) then d
  else if d.getB (F.TIME_DOM_STAT_QUAL (1 - k)) then { d with tm := { d.tm with switchTo := some (1 - k) } }
  else holdover { d with tm := { d.tm with switchTo := none } }

/-- The clock leaves ring time for the active domain: a holdover that the loss of ring time began ends unless that domain is
lost (R71, R72, R74). -/
def ringLeft (d : Dev) : Dev :=
  domainCheck (if d.getB (F.TIME_DOM_STAT_LOST (actDom d)) then d else d.put F.TIME_STAT_HOLDOVER 0)

/-- The switch of domain at a beat boundary (R71). With SRC 1 the clock goes on with ring time (R74). -/
def domainSwitch (d : Dev) : Dev :=
  match d.tm.switchTo with
  | none => d
  | some k =>
    let d := { d with tm := { d.tm with switchTo := none } }
    if k = actDom d then d else
    let d := ((d.put (F.TIME_DOM_STAT_ACTIVE k) 1).put (F.TIME_DOM_STAT_ACTIVE (1 - k)) 0).put F.TIME_CTL_ACT_DOM k
    let th := d.getI (F.TIME_DOM_OFS_OFS k) * 256
    let q := d.getB (F.TIME_DOM_STAT_QUAL k)
    let d := if d.getB F.TIME_CTL_SRC then d else
      let d := { d with tm := { d.tm with noStep := true } }
      let d := if q then d.put F.TIME_STAT_HOLDOVER 0 else d
      timeStatus q (decide (10 * 65536 < th.natAbs)) th d
    let d := (d.put F.TIME_STAT_SWITCHED 1).raise 0x08 1
    domainCheck (d.sendEvent 10 0xFF 0 (d.reg R.TIME_STAT).toNat 0)

/-- Domain `k` is declared lost (R70): the clock may have to switch, or the switch that waits to end (R71, R72). -/
def domainLose (k : Nat) (d : Dev) : Dev :=
  let d := (d.put (F.TIME_DOM_STAT_QUAL k) 0).put (F.TIME_DOM_STAT_LOST k) 1
  domainCheck (d.setDom k { d.dom k with good := 0 })

/-- The interval 2^LOG_SYNC s of domain `k`, in ns (R70). -/
def syncInterval (d : Dev) (k : Nat) : Nat :=
  1000000000 / 2 ^ (d.getI (F.TIME_DOM_CFG_LOG_SYNC k)).natAbs

/-- LOSS_N Sync intervals have passed without a valid Sync (R70): a domain that is lost already has to start its QUAL_N fresh
samples again. -/
def domainLost (k : Nat) (d : Dev) : Dev :=
  if !d.getB (F.TIME_DOM_CFG_EN k) then d
  else if d.now < (d.dom k).syncAt + d.get (F.TIME_DOM_CFG_LOSS_N k) * syncInterval d k then d
  else if d.getB (F.TIME_DOM_STAT_LOST k) then d.setDom k { d.dom k with good := 0 }
  else domainLose k d

/-- A valid offset sample θ of domain `k` (R66, R70, R72, R73). Samples are consecutive until the domain is lost: R70 does not
say that a missed Sync or exchange short of that breaks a run (DESIGN CHOICE, log entry 109). -/
def offsetSample (k : Nat) (th : Int) (d : Dev) : Dev :=
  let x := d.dom k
  let d := d.setDom k { x with good := x.good + 1 }
  let d := d.putI (F.TIME_DOM_OFS_OFS k) (satS 32 (th / 256))
  let qn := d.get (F.TIME_DOM_CFG_QUAL_N k)
  let fresh := decide (qn ≤ x.good + 1) && !d.getB (F.TIME_DOM_STAT_QUAL k)
  let d := if fresh then
      let d := (d.put (F.TIME_DOM_STAT_QUAL k) 1).put (F.TIME_DOM_STAT_LOST k) 0
      let ring := d.getB F.TIME_CTL_SRC
      if k = actDom d then
        let d := d.put (F.TIME_DOM_STAT_ACTIVE k) 1
        if ring then d else d.put F.TIME_STAT_HOLDOVER 0
      else if d.getB F.TIME_STAT_HOLDOVER && !ring then { d with tm := { d.tm with switchTo := some k } }
      else d
    else d
  let d := if d.getB F.TIME_CTL_REVERT && k == 0 && actDom d == 1 && decide (qn + 64 ≤ x.good + 1) then
      { d with tm := { d.tm with switchTo := some 0 } }
    else d
  if k = actDom d && !d.getB F.TIME_CTL_SRC then servo th (d.getB (F.TIME_DOM_STAT_QUAL k)) d else d

/-! ### Timestamps (R75) -/

/-- TIME_TSC of a port and direction, 2^-16 ns (R75). -/
def tsc (d : Dev) (q dir : Nat) : Int := d.getI (F.TIME_TSC_CORR (4 * q + 2 * d.get (F.ETH_CFG_RATE q) + dir))

def rxStamp (d : Dev) (q : Nat) : Int := d.t16 - tsc d q 0
def txStamp (d : Dev) (q : Nat) : Int := d.t16 + tsc d q 1

/-! ### Ring time -/

/-- A ring-time offset sample from a beat-alignment check (R74): the master's domains and standby offset are taken over. Ring time
counts as qualified whatever the master's own LOCKED says: R74 makes nothing depend on it (DESIGN CHOICE, log entry 118). -/
def ringTime (th : Int) (act stby : Nat) (ofs : Int) (d : Dev) : Dev :=
  if !d.getB F.TIME_CTL_SRC then d else
  let d := { d with tm := { d.tm with ringAct := act, ringStby := stby, ringOfs := ofs } }
  servo th true (d.put F.TIME_STAT_HOLDOVER 0)

/-- The difference of beat boundaries seen in a check, 2^-16 ns (R74). -/
def alignCheck (diff : Nat) (d : Dev) : Dev :=
  let q := diff * 4 / 65536
  let d := if d.get F.TIME_ALIGN_MAX < q then d.put F.TIME_ALIGN_MAX (min q 0xFFFF) else d
  if d.get F.TIME_ALIGN_LIM * 16384 < diff then d.raise 0x08 3 else d

/-! ### The timestamp queue (R77, R78) -/

/-- A transmit stamp enters the queue, or is dropped when 16 are held or the read that ended that stands in the same cycle
(R78). -/
def tsqPush (id q : Nat) (t : Int) (d : Dev) : Dev :=
  if 16 ≤ d.tm.tsq.length ∨ d.tm.tsqRoom = some (d.now / 2) then (d.put F.TSQ_STAT_OVF 1).count F.TSQ_STAT_DROPS 1
  else
    let l := d.tm.tsq ++ [(id % 65536, q, t.toNat)]
    { d with tm := { d.tm with tsq := l } }.put F.TSQ_STAT_COUNT l.length

/-- A read of TSQ_DATA0 removes the head and latches its time; with the queue empty VALID is 0. -/
def tsqRead (d : Dev) : Dev :=
  match d.tm.tsq with
  | [] => d.put F.TSQ_DATA0_VALID 0
  | (id, q, t) :: l =>
    let d := ((d.put F.TSQ_DATA0_ID id).put F.TSQ_DATA0_PORT q).put F.TSQ_DATA0_VALID 1
    let ns := t / 65536
    let d := (d.put F.TSQ_DATA1_NS (ns % 1000000000)).put F.TSQ_DATA2_FRAC (t % 65536)
    let d := d.put F.TSQ_DATA3_SEC (ns / 1000000000)
    { d with tm := { d.tm with
        tsq := l
        tsqRoom := if l.length = 15 then some (d.now / 2) else d.tm.tsqRoom } }.put F.TSQ_STAT_COUNT l.length

/-! ### Timed launch (R79 to R82) -/

/-- The instant a launch time word names, 2^-16 ns: the one with its low bits in the window of ±32,768 s (R79). -/
def launchInstant (d : Dev) (w : Nat) : Int :=
  nearestInstant (((65536 * (1000000000 * bits w 46 16 + bits w 16 30) + bits w 0 16 : Nat)) : Int) d.t16
    (65536 * 1000000000 * 65536)

def launchTimed (w : Nat) : Bool := bit w 63

/-- The end of the R80 window of an Ethernet frame on port `q` with launch time `t`. -/
def ethWindow (d : Dev) (q : Nat) (t : Int) : Int :=
  t + (if d.getB (F.ETH_CFG_RATE q) then 419430 else 167772)

end Sys2Proof.Machine
end

