-- ==== Sys2Proof/Machine/Links.lean ====
section
/-! DEFINITION. Gweat links (chapter 11): bring-up, control messages, the back-channel, link loss. Links 0 to 31 are the
head ports, 32 the east and 33 the west stay port. A frame sent is recorded as its bytes and as its line bits. -/
namespace Sys2Proof.Machine

def linkE : Nat := 32
def linkW : Nat := 33

def Dev.link (d : Dev) (i : Nat) : Link := cellGet {} d.links i

def Dev.setLink (d : Dev) (i : Nat) (x : Link) : Dev := { d with links := cellSet {} d.links i x }

def linkPage (i : Nat) : Nat := if i < 32 then hpPage i else 0x5F

/-- Whether the port of link `i` is enabled (R238). -/
def linkEnabled (d : Dev) (i : Nat) : Bool :=
  if i < 32 then d.getB (F.HPL_CFG_EN i) else if i = linkE then d.getB F.STAY_CFG_EN_E else d.getB F.STAY_CFG_EN_W

def stageField (i : Nat) : RegField :=
  if i < 32 then F.HPL_STAT_STAGE i else if i = linkE then F.STAY_STAT_STAGE_E else F.STAY_STAT_STAGE_W

def linkStage (d : Dev) (i : Nat) : Nat := d.get (stageField i)

/-- Enter stage `s` (R253). -/
def setStage (i s : Nat) (d : Dev) : Dev := (d.put (stageField i) s).setLink i { d.link i with stageAt := d.now }

/-- Receive lanes of a link. -/
def rxLanes (i : Nat) : Nat := if i < 32 then 1 else 2

/-- Whether the lanes of link `i` run: its receivers take nothing while they are held off (R238). -/
def lanesOn (d : Dev) (i : Nat) : Bool := linkEnabled d i && linkStage d i != 0

/-! ### Sending (R239 to R248) -/

/-- A frame with its CRC-32C (R248). -/
def withCrc (bs : List Byte) : List Byte := bs ++ beBytes 4 (crc32c bs)

/-- An instant in 2^-16 ns as ps, rounded down. -/
def psOf (t : Int) : Int := t * 1000 / 65536

/-- The first line bit of a link since START that begins at `ps` of the lanes' time or after (R236, R243). -/
def bitAt (x : Link) (ps : Int) : Nat := (-(-((ps - x.origin) * x.rate) / 10000)).toNat

/-- `n` unit intervals of a link, ps (R236). -/
def uiTime (x : Link) (n : Nat) : Nat := n * 20000 / x.rate

/-- The longest that a frame of `n` bytes takes on a link, with its marker, ps (R219). -/
def frameTime (x : Link) (n : Nat) : Nat :=
  ceilDiv ((33 + 8 * n) * 32000000) (x.rate * 3100 - (if x.wave then 1232 * 32 else 0))

/-- A coder whose state the spec does not state: that of a stream that begins (log entry 111). -/
def freeCoder (d : Dev) : Coder × Dev :=
  let r := d.free 64
  ({ hist := r.1 % 2 ^ 58, last := bit r.1 58, run := 1 + r.1 / 2 ^ 59 % 30 }, r.2)

/-- Line bits `l` that began at bit `start` and lane 1 if `odd` go out (R242). -/
def emitLanes (i start : Nat) (odd : Bool) (l : List Bool) (d : Dev) : Dev :=
  let s := laneSplit odd l
  d.emit (.lanes i start s.1 s.2)

/-- The frame `f` joins the transmit stream of link `i`, due at `ps`. On a link without slot fields the stream goes on to the
instant through scrambled zeros, which the record does not list, and the frame's bits go out; on one with slot fields the end of
the frame is the latest one of R219. -/
def lineSend (i : Nat) (ps : Int) (f : List Byte) (d : Dev) : Dev :=
  let x := d.link i
  let due := bitAt x ps
  if x.wave then
    d.setLink i { x with line := { x.line with q := x.line.q ++ [(due, f)] }, txEnd := max ps x.txEnd + frameTime x f.length }
  else
    let y := lineIdle (due - x.line.pos) x.line
    let z := lineFlush 0 (fun _ => []) (frameBound f.length) { y with q := [(due, f)] } []
    emitLanes i y.pos y.odd z.1 (d.setLink i { x with
      line := z.2, txEnd := max ps x.txEnd + ((z.2.pos - y.pos) * 10000 / x.rate : Nat) })

/-- A frame of an up link put on it, due at `ps` of the lanes' time: bytes from TYPE on, its CRC-32C added (R248). -/
def sendFrameAt (i : Nat) (ps : Int) (bs : List Byte) (d : Dev) : Dev :=
  let f := withCrc bs
  let d := d.emit (if i < 32 then .head i (byteAt bs 0) (f.drop 1) else .stay (i - 32) (byteAt bs 0) (f.drop 1))
  lineSend i ps f d

/-- The same, due now. -/
def sendFrame (i : Nat) (bs : List Byte) (d : Dev) : Dev := sendFrameAt i (laneNow d i) bs d

/-! ### Slot fields (R243 to R245) -/

/-- Rounds of a link cycle (R243). -/
def Link.rounds (x : Link) : Nat := if x.cyc250 then 250 else 200

/-- The cycle word of a cycle in which no burst starts (R244). -/
def idleWord (gens n : Nat) : List Byte :=
  withCrc (beBytes 1 0xC7 ++ beBytes 1 (gens * 2) ++ beBytes 2 n ++ beBytes 8 0)

/-- The cycle word of link cycle `n`. -/
def Link.wordOf (x : Link) (n : Nat) : List Byte := if beAt x.word 2 2 = n % 65536 then x.word else idleWord x.gens n

/-- The samples of generator `g` in a burst. -/
def Burst.gen (b : Burst) (g : Nat) : List Nat := if g = 0 then b.g0 else b.g1

/-- What generator `g`'s slot carries in round `r` since START (R245): the sample of the burst in progress, which runs to its end;
outside bursts the last one sent, 2,048 before any, and 0 for a generator that does not stream. -/
def Link.sample (x : Link) (g r : Nat) : Nat :=
  match x.bursts.reverse.find? (fun b => decide (b.round ≤ r) && !(b.gen g).isEmpty) with
  | some b =>
    if r - b.round < (b.gen g).length then (b.gen g).getD (r - b.round) 2048
    else if bit x.gens g then (b.gen g).getLastD 2048 else 0
  | none => if bit x.gens g then 2048 else 0

/-- The slot field of round `r` since START (R243). -/
def Link.slotField (x : Link) (r : Nat) : List Bool :=
  let n := r % x.rounds
  (if n < 8 then ((lineBits (x.wordOf (r / x.rounds))).drop (16 * n)).take 16 else [])
    ++ msbBits 12 (x.sample 0 r) ++ msbBits 12 (x.sample 1 r)

/-- Line bits of a round (R243). -/
def Link.roundBits (x : Link) : Nat := 2 * x.rate

/-- The line of a link goes on to bit `upto`: its slot fields and frames, or scrambled zeros. -/
def lineCatch (i upto : Nat) (d : Dev) : Dev :=
  let x := d.link i
  if upto ≤ x.line.pos then d
  else if !x.wave then d.setLink i { x with line := lineIdle (upto - x.line.pos) x.line } else
  let z := lineRun x.roundBits x.slotField (upto - x.line.pos) x.line []
  emitLanes i x.line.pos x.line.odd z.1 (d.setLink i { x with line := z.2 })

/-- Whether a received frame passes its CRC-32C (R248). -/
def frameOk (bs : List Byte) : Bool :=
  decide (5 ≤ bs.length) && beAt bs (bs.length - 4) 4 == crc32c (bs.take (bs.length - 4))

/-- A frame discarded on link `i` (R248). -/
def frameDiscard (i : Nat) (d : Dev) : Dev := d.count (if i < 32 then F.HPL_CNT_BAD i else F.STAY_CNT_BAD) 1

/-! ### What a link cycle carries (R244, R245, R249) -/

/-- The round since START in which the bursts of a line assigned to `ps` of the lanes' time start: the first one that begins then
or after, or the one after the port's last burst (R245). -/
def burstRound (x : Link) (ps : Int) : Nat := (-(-(max ps x.burstEnd - x.origin) / 20000)).toNat

/-- The set of settings in force for line `n` of plane `p` (R244). -/
def lineCfg (d : Dev) (p n : Nat) : FireCfg := cfgFor d (ordOfLine d p n)

/-- Whether port `h` sends bursts under `c` (R223, R245). -/
def burstsOn (c : FireCfg) (h : Nat) : Bool :=
  cfgGetB c (F.PLAN_HP_A_EN h) && cfgGetB c (F.PLAN_HP_A_WAVE_EN h) && (streams c h 0 || streams c h 1)

/-- The generators that stream under `c`, bit g. -/
def genBits (c : FireCfg) (h : Nat) : Nat := b2n (streams c h 0) + 2 * b2n (streams c h 1)

/-- Line `n` of plane `p` prints on port `h` under its own set of settings (R33). -/
def lineOnPort (d : Dev) (p n h : Nat) : Bool :=
  cfgGetB (lineCfg d p n) (F.PLAN_HP_A_EN h) && cfgGet (lineCfg d p n) (F.PLAN_HP_A_PLANE h) == p

/-- The generators that stream in a burst, bit g. -/
def Burst.gens (b : Burst) : Nat := b2n (!b.g0.isEmpty) + 2 * b2n (!b.g1.isEmpty)

/-- The burst that starts in link cycle `n` of port `h`, as round, line and generators: one of a line launched, or of a line
assigned (R245). -/
def burstIn (d : Dev) (h n : Nat) : Option (Nat × Nat × Nat) :=
  let x := d.link h
  match x.bursts.find? (fun b => b.round / x.rounds == n) with
  | some b => some (b.round, b.line, b.gens)
  | none =>
    if !d.planActive || d.getB (F.HP_STAT_CUT h) then none else
    (activePlanes d).findSome? (fun p =>
      ((d.plane p).assigns.find? (fun a => decide ((d.plane p).next ≤ a.line) && lineOnPort d p a.line h
        && burstsOn (lineCfg d p a.line) h && burstRound x (laneOf d h a.t) / x.rounds == n)).map (fun a =>
          (burstRound x (laneOf d h a.t), a.line, genBits (lineCfg d p a.line) h)))

/-- The generators that stream in link cycle `n` (R244): those of the burst that starts in it, else of a burst still in progress
at its start, else those of the set under which the next line of a plane on the port prints. -/
def cycleGens (d : Dev) (h n : Nat) : Nat :=
  let x := d.link h
  match burstIn d h n with
  | some b => b.2.2
  | none =>
    match x.bursts.find? (fun b => decide (b.round ≤ n * x.rounds)
        && decide (n * x.rounds < b.round + max b.g0.length b.g1.length)) with
    | some b => b.gens
    | none => match boundPlanes d h with
      | p :: _ => genBits (planeCfg d p) h
      | [] => genBits (liveCfg d) h

/-- The cycle word of link cycle `n` of port `h` (R244, R245). -/
def cycleWord (h n : Nat) (d : Dev) : List Byte :=
  match burstIn d h n with
  | some b => withCrc (beBytes 1 0xC7 ++ beBytes 1 (1 + 2 * cycleGens d h n) ++ beBytes 2 n
      ++ beBytes 1 (b.1 % (d.link h).rounds) ++ beBytes 1 0 ++ beBytes 4 (b.2.1 % 2 ^ 31 * 2) ++ beBytes 2 0)
  | none => idleWord (cycleGens d h n) n

/-- Whether a fire frame of port `h` is due before `ps` of the lanes' time (R81). -/
def fireBefore (d : Dev) (h : Nat) (ps : Int) : Bool :=
  (activePlanes d).any (fun p => (d.plane p).assigns.any (fun a =>
    decide ((d.plane p).next ≤ a.line) && lineOnPort d p a.line h && decide (laneOf d h a.t < ps)))

/-- A CONTROL frame, which is untimed, is sent, or waits for the fire frame that it would delay (R81, R249). -/
def sendControl (h : Nat) (bs : List Byte) (d : Dev) : Dev :=
  let x := d.link h
  if fireBefore d h (max (laneNow d h) x.txEnd + frameTime x (bs.length + 4)) then
    d.setLink h { x with wait := x.wait ++ [(bs, 0, 0)] }
  else sendFrame h bs d

/-- The CONTROL frames that waited are sent (R81). -/
def controlRelease (h : Nat) (d : Dev) : Dev :=
  let l := (d.link h).wait
  forL l (fun e d => sendFrame h e.1 d) (d.setLink h { d.link h with wait := [] })

/-- The cycle word of the link cycle that begins, where slots are carried (R243, R244). -/
def beginCycle (h n : Nat) (d : Dev) : Dev :=
  let x := d.link h
  if !x.wave then d else
  let d := lineCatch h (n * x.rounds * x.roundBits) d
  let w := cycleWord h n d
  let x := d.link h
  (d.setLink h { x with word := w, gens := cycleGens d h n
                        bursts := x.bursts.drop (x.bursts.length - 8) }).emit (.head h 0xC7 (w.drop 1))

/-! ### Control messages (R249, R250) -/

/-- BUSY of the mailbox: a mailbox message is queued or unacknowledged. -/
def mailboxBusy (x : Link) : Bool := x.queue.any (fun m => decide (0x80 ≤ m.1)) || x.sent.any (fun m => decide (0x80 ≤ m.op))

/-- Queue a control message. -/
def queueControl (h op : Nat) (body : List Byte) (d : Dev) : Dev :=
  let x := d.link h
  d.setLink h { x with queue := x.queue ++ [(op, body)] }

/-- The schedule of port `h` under `c`, for set `wset` (R224). -/
def queueSchedule (c : FireCfg) (h wset : Nat) (d : Dev) : Dev := queueControl h 1 (scheduleBody c h wset) d

/-- CACK acknowledges cumulatively (R250). -/
def controlAck (h cack : Nat) (d : Dev) : Dev :=
  let d := d.put (F.HPL_STAT_CACK h) cack
  let x := d.link h
  match x.sent.findIdx? (fun m => m.seq == cack) with
  | some k =>
    let rest := x.sent.drop (k + 1)
    let y := { x with sent := rest, back := min x.back rest.length }
    (d.setLink h y).putB (F.HPL_MBX_CTL_BUSY h) (mailboxBusy y)
  | none => d

/-- The SCHEDULE message of `wset` is queued or unacknowledged (R250). -/
def schedulePending (d : Dev) (h wset : Nat) : Bool :=
  let x := d.link h
  x.queue.any (fun m => m.1 == 1 && byteAt m.2 0 == wset) || x.sent.any (fun m => m.op == 1 && byteAt m.payload 0 == wset)

/-- HPL_MBX_CTL.SEND (R249). -/
def hplMbxSend (h : Nat) (d : Dev) : Dev :=
  let op := d.get (F.HPL_MBX_CTL_OP h)
  let len := d.get (F.HPL_MBX_CTL_LEN h)
  if d.getB (F.HPL_MBX_CTL_BUSY h) || decide (op < 0x80) || decide (112 < len) then d.refuseAt (R.HPL_MBX_CTL h)
  else
    let words := ((List.range 28).map (fun i => beBytes 4 (d.reg (R.HPL_MBX_DATA h i)).toNat)).flatten
    (queueControl h op (words.take len) d).put (F.HPL_MBX_CTL_BUSY h) 1

/-! ### Bring-up (R253 to R255) -/

/-- The link's settings for a START: WAVE_EN of the plan in force, cycle length (R247, R254). -/
def startFlags (d : Dev) (i : Nat) : Nat :=
  (if i < 32 then b2n (d.getB (F.PLAN_HP_A_WAVE_EN i)) else 0) + 2 * b2n (d.getB F.PLAN_GLOBAL_BEAT_LEN)

/-- START ends now, after the frames in progress: round 0 of link cycle 0 begins (R243, R247, R254). -/
def sendStart (i : Nat) (d : Dev) : Dev :=
  let fl := startFlags d i
  let d := if (d.link i).startSent then lineCatch i (bitAt (d.link i) (laneNow d i)) d else d
  let x := d.link i
  let bs := beBytes 1 0x0E ++ beBytes 1 x.rate ++ beBytes 1 fl ++ beBytes 1 0
  let f := withCrc bs
  let d := d.emit (if i < 32 then .head i 0x0E (f.drop 1) else .stay (i - 32) 0x0E (f.drop 1))
  let r := if x.startSent then (x.line.coder, d) else freeCoder d
  let y : LineTx := { x.line with coder := r.1, q := x.line.q.map (fun e => (0, e.2)) ++ [(0, f)] }
  let n := 3 * (y.cur.length + (y.q.map (fun e => frameBound e.2.length)).foldl (· + ·) 100)
  let z := lineFlush (if x.wave then x.roundBits else 0) x.slotField n y []
  let d := emitLanes i y.pos y.odd z.1 r.2
  let d := d.setLink i { x with
    startSent := true, start := d.now, origin := laneNow d i, wave := bit fl 0, cyc250 := bit fl 1, cycle := 0, word := [], bursts := [], txEnd := laneNow d i
    line := { z.2 with pos := 0, slot := [] } }
  if i < 32 then d.putB (F.HPL_STAT_SLOTS i) (bit fl 0) else d

/-- At plan activation a fresh START goes out on every bound head port whose link is up or waits for STATUS (R247). -/
def startBound (d : Dev) : Dev :=
  forN 32 (fun h d => if d.getB (F.PLAN_HP_A_EN h) && linkStage d h == 5 && (d.link h).startSent then sendStart h d else d) d

/-- A head link comes up: control frames begin with the next link cycle (R249), and the schedule of the live tables goes out
in set 0 (R224). The cycles since START have carried their slots (R243). -/
def headLinkRise (h : Nat) (d : Dev) : Dev :=
  let x := d.link h
  let n := (laneNow d h - x.origin).toNat / (20000 * x.rounds) + 1
  let d := forN (n - x.cycle) (fun k d => beginCycle h (x.cycle + k) d) d
  let d := d.setLink h { d.link h with up := true, cycle := n, cycles := n }
  let d := d.put F.WAVE_WSET_WSET (clearBits (d.get F.WAVE_WSET_WSET) (2 ^ h))
  let d := { d with versions := d.versions.map (fun v => { v with wset := clearBits v.wset (2 ^ h) }) }
  queueSchedule (liveCfg d) h 0 d

/-- BREAK is set while one stay link of the ring is down (R260), and stays when the other one goes down too; the ring-break
event is raised when it sets (log entry 37). -/
def stayBreak (d : Dev) : Dev :=
  match (d.link linkE).up, (d.link linkW).up with
  | true, true => d.put F.STAY_STAT_BREAK 0
  | false, false => d
  | _, _ => if d.getB F.STAY_STAT_BREAK then d else (d.put F.STAY_STAT_BREAK 1).raise 0x5F 0

/-- A stay link comes up once both STARTs have passed (R253). -/
def stayLinkRise (i : Nat) (d : Dev) : Dev :=
  let x := d.link i
  if linkStage d i == 5 && x.startSent && x.startRx && !x.up then
    let d := d.setLink i { x with up := true }
    let d := if i = linkW then { d with stay := { d.stay with wiring := false } } else d
    stayBreak d
  else d

/-- Taps a transmitter may hold (R255). -/
def tapsLegal (pre main post : Int) : Bool :=
  decide (0 ≤ pre) && decide (pre ≤ 15) && decide (0 ≤ post) && decide (post ≤ 31) && decide (0 ≤ main) &&
    decide (pre + main + post ≤ 63) && decide (16 ≤ main - pre - post)

/-- One tap request (0 HOLD, 1 INC, 2 DEC, 3 PRESET) on tap `k` (0 PRE, 1 MAIN, 2 POST): new taps and the reply. -/
def tapStep (k req taps : Nat) : Nat × Nat :=
  let lo := 8 * k
  let v := bits taps lo 6
  let want : Int := if req = 1 then v + 1 else if req = 2 then (v : Int) - 1
    else if req = 3 then (if k = 0 then 4 else if k = 1 then 47 else 12) else v
  let f (j : Nat) : Int := if j = k then want else (bits taps (8 * j) 6 : Int)
  if req = 0 then (taps, 0)
  else if tapsLegal (f 0) (f 1) (f 2) then (setBits taps lo 6 want.toNat, 1)
  else (taps, if req = 2 then 2 else 3)

/-- A request byte REQ0 or REQ1 applied to a transmit lane: new taps and the reply byte. -/
def tapRequest (req taps : Nat) : Nat × Nat :=
  let a := tapStep 0 (bits req 0 2) taps
  let b := tapStep 1 (bits req 2 2) a.1
  let c := tapStep 2 (bits req 4 2) b.1
  (c.1, a.2 + 4 * b.2 + 16 * c.2)

/-- One step of a receive lane's adaptation at eye product `pr`, once its last request is answered (R255). -/
def adaptStep (pr : Nat) (a : RxAdapt) : RxAdapt :=
  if 2 ≤ a.tap then a
  else if a.req = 0 then { a with req := 1, best := pr, fails := 0 }
  else if a.best < pr then { a with best := pr, fails := 0 }
  else if 1 ≤ a.fails then { tap := a.tap + 1, req := if a.tap = 0 then 1 else 0, best := a.best, fails := 0 }
  else { a with req := 3 - a.req, fails := a.fails + 1 }

/-- The requests that this end makes are those of its adaptation after the step: a lane that still asks for a step asks for a
new one (R255, log entry 36). -/
def adaptAgain (old new : RxAdapt) : Bool := decide (new.tap < 2) || old.tap != new.tap

/-- The request byte of a receive lane. -/
def adaptReq (a : RxAdapt) : Nat := if a.tap = 0 then a.req * 16 else if a.tap = 1 then a.req else 0

/-- RX_READY of this end: every receive lane has finished (R255). -/
def rxReady (i : Nat) (x : Link) : Bool := x.adapt0.tap == 2 && (rxLanes i == 1 || x.adapt1.tap == 2)

def putTaps (i : Nat) (d : Dev) : Dev :=
  if 32 ≤ i then d else
  let x := d.link i
  (d.setReg (R.HPL_TAPS i 0) (BitVec.ofNat 32 x.taps0)).setReg (R.HPL_TAPS i 1) (BitVec.ofNat 32 x.taps1)

def allLanes (i m : Nat) : Bool := m % 2 ^ rxLanes i == 2 ^ rxLanes i - 1

/-- The TRAIN frame that this end sends on transmit lane `lane` (R253). -/
def trainBytes (i lane : Nat) (d : Dev) : List Byte :=
  let x := d.link i
  withCrc (beBytes 1 0x0F ++ beBytes 1 lane ++ beBytes 1 (linkStage d i) ++ beBytes 1 (adaptReq x.adapt0)
    ++ beBytes 1 (adaptReq x.adapt1) ++ beBytes 1 x.stat0 ++ beBytes 1 x.stat1 ++ beBytes 1 (b2n (rxReady i x))
    ++ beBytes 1 x.reqSeq ++ beBytes 1 (x.statSeq.getD 0))

/-- The TRAIN frame leaves lane `lane` `n` times, unbonded: on the lane its bits are coded for themselves. The record gives the
line bits of one of them (log entry 36). -/
def trainFrame (i n lane : Nat) (d : Dev) : Dev :=
  let f := trainBytes i lane d
  let d := d.emit (.train i lane n f)
  let r := freeCoder d
  let z := lineFlush 0 (fun _ => []) (frameBound f.length) { coder := r.1, q := [(0, f)] } []
  r.2.emit (if lane = 0 then .lanes i 0 z.1 [] else .lanes i 0 [] z.1)

/-- 1,024 unit intervals of a link, ps (R253). -/
def trainGap (x : Link) : Nat := 1024 * 20000 / x.rate

/-- During stages 1 to 4 every lane sends a TRAIN frame every 1,024 UI (R253): those due up to now go out, with what the link has
to say so far. -/
def trainFrames (i : Nat) (d : Dev) : Dev :=
  let x := d.link i
  let s := linkStage d i
  if s = 0 ∨ 4 < s ∨ laneNow d i < x.trainAt then d else
  let n := (laneNow d i - x.trainAt).toNat / trainGap x + 1
  trainFrame i n 1 (trainFrame i n 0 (d.setLink i { x with trainAt := x.trainAt + (n * trainGap x : Nat) }))

/-- Move through the stages whose ends are reached (R253); stage 4 starts at LANES_PRESET (R255), stage 5 sends START. A skew
beyond 64 UI is not deskewed (R242), and stage 3 does not end. -/
def linkAdvance : Nat → Nat → Dev → Dev
  | 0, _, d => d
  | n + 1, i, d =>
    let x := d.link i
    match linkStage d i with
    | 1 => if allLanes i x.locks then linkAdvance n i (setStage i 2 d) else d
    | 2 => if allLanes i x.marked then linkAdvance n i (setStage i 3 d) else d
    | 3 =>
      if allLanes i x.ordered && decide (x.skew.natAbs ≤ 64) then
        let t := d.get F.LANES_PRESET_PRE + d.get F.LANES_PRESET_MAIN * 2 ^ 8 + d.get F.LANES_PRESET_POST * 2 ^ 16
        let d := setStage i 4 d
        linkAdvance n i (putTaps i (d.setLink i { d.link i with taps0 := t, taps1 := t }))
      else d
    | 4 =>
      if rxReady i x && x.peerReady then
        let d := setStage i 5 d
        let d := if 32 ≤ i then d.setLink i { d.link i with rx0 := {}, rx1 := {} } else d
        stayLinkRise' i (sendStart i d)
      else d
    | _ => d
where
  /-- A stay port whose peer has already sent START is up at once. -/
  stayLinkRise' (i : Nat) (d : Dev) : Dev := if 32 ≤ i then stayLinkRise i d else d

/-- Return a link to stage 1, where the rate of LANES_CFG applies to it, or hold its lanes off (R236, R238, R253). -/
def linkRestart (i s : Nat) (d : Dev) : Dev :=
  let x := d.link i
  let rate := if s = 1 then d.get F.LANES_CFG_RATE_M else x.rate
  let d := d.setLink i { locks := if s = 0 then 0 else x.locks, taps0 := x.taps0, taps1 := x.taps1, cseq := x.cseq,
                         burstEnd := x.burstEnd, rate := rate, trainAt := laneNow d i }
  let d := if i < 32 then (d.put (F.HPL_STAT_INV i) 0).put (F.HPL_MBX_CTL_BUSY i) 0 else d
  let d := trainFrames i (setStage i s d)
  if s = 0 then d else linkAdvance 6 i d

/-- An up head link is taken down with `cause` (R256): a cut with CUT_CAUSE 2. -/
def headLinkDown (h cause : Nat) (d : Dev) : Dev :=
  let d := ((d.put (F.HPL_STAT_DOWN_CAUSE h) cause).count (F.HPL_CNT_DOWN h) 1).raise (hpPage h) 2
  let d := d.setLink h { d.link h with up := false }
  let d := linkRestart h (if d.getB (F.HPL_CFG_EN h) && d.getB (F.HPL_CFG_AUTO h) then 1 else 0) d
  headCut h 2 d

/-- A follower that has lost ring time in both directions enters holdover (R72, R74). -/
def ringTimeLost (d : Dev) : Dev :=
  if d.getB F.TIME_CTL_SRC && !(d.link linkE).up && !(d.link linkW).up then holdover d else d

/-- The same at a beat boundary: a follower of ring time that neither direction has brought a check of the master in this beat
or the two before (R74, log entry 110). -/
def ringSilent (d : Dev) : Dev :=
  let old (b : Option Nat) : Bool := match b with
    | some k => decide (k + 2 < d.beatNum)
    | none => true
  if d.getB F.TIME_CTL_SRC && (d.tm.ringNear.isSome || d.tm.ringFar.isSome) && old d.tm.ringNear && old d.tm.ringFar then
    holdover { d with tm := { d.tm with ringNear := none, ringFar := none } }
  else d

/-- An up stay link goes down: BREAK (R260), and ring time may be lost (R74). -/
def stayLinkDown (i : Nat) (d : Dev) : Dev :=
  let d := d.setLink i { d.link i with up := false }
  let d := stayBreak d
  ringTimeLost (linkRestart i (if linkEnabled d i && d.getB F.STAY_CFG_AUTO then 1 else 0) d)

def linkDown (i cause : Nat) (d : Dev) : Dev := if i < 32 then headLinkDown i cause d else stayLinkDown i d

/-- A receive lane gains or loses lock (R253, R256). -/
def laneLockChange (i lane : Nat) (locked : Bool) (d : Dev) : Dev :=
  if !lanesOn d i || decide (rxLanes i ≤ lane) then d else
  let d := trainFrames i d
  let x := d.link i
  if locked then linkAdvance 6 i (d.setLink i { x with locks := setBit x.locks lane })
  else
    let d := d.setLink i { x with locks := clearBits x.locks (2 ^ lane) }
    if x.up then linkDown i 1 d else if linkStage d i ≤ 1 then d else linkRestart i 1 d

/-- Receive lane `lane` has shown its markers: it is inverted if they were (R253). -/
def laneMarked (i lane : Nat) (inv : Bool) (d : Dev) : Dev :=
  let x := d.link i
  if bit x.marked lane then d else
  let x := { x with marked := setBit x.marked lane, inverted := if inv then setBit x.inverted lane else x.inverted }
  let d := d.setLink i x
  if i < 32 then d.putB (F.HPL_STAT_INV i) (bit x.inverted 0) else d

/-- Lane `one` has shown the eye product `pr` in a TRAIN frame that answers the requests in force. Once every receive lane has,
each adaptation makes its step, and the new requests go out together under the next REQ_SEQ (R255). -/
def adaptAnswered (i : Nat) (one : Bool) (pr : Nat) (x : Link) : Link :=
  let x := if one then { x with eye1 := some pr } else { x with eye0 := some pr }
  match x.eye0, if rxLanes i = 1 then some 0 else x.eye1 with
  | some p0, some p1 =>
    let a := adaptStep p0 x.adapt0
    let b := if rxLanes i = 1 then x.adapt1 else adaptStep p1 x.adapt1
    let again := adaptAgain x.adapt0 a || (rxLanes i != 1 && adaptAgain x.adapt1 b)
    { x with adapt0 := a, adapt1 := b, eye0 := none, eye1 := none
             reqSeq := if again then (x.reqSeq + 1) % 256 else x.reqSeq }
  | _, _ => x

/-- A TRAIN frame arrives on receive lane `lane` (R253, R255). `inv` says that the lane's markers came inverted; `skew` is by
how many unit intervals lane 1 lags lane 0, and `w` and `ht` are the eye measured on the lane. The answer goes out in the
link's next TRAIN frames. A lane that carries LANE 1 on input 0 is lane 1 once the lanes are in order. -/
def trainFrameRx (i lane : Nat) (bs : List Byte) (inv : Bool) (skew : Int) (w ht : Nat) (d : Dev) : Dev :=
  if !lanesOn d i || decide (rxLanes i ≤ lane) then d
  else if !(frameOk bs && byteAt bs 0 == 0x0F && bs.length == 14) then frameDiscard i d
  else if linkStage d i < 2 || 4 < linkStage d i then d
  else
    let d := laneMarked i lane inv (trainFrames i d)
    let d := if i < 32 then (d.put (F.HPL_EYE_RX_W i) w).put (F.HPL_EYE_RX_H i) ht else d
    let d := linkAdvance 1 i d
    let d := if linkStage d i < 3 then d else
      let x := d.link i
      let ln := byteAt bs 1 % 2
      d.setLink i { x with
        ordered := setBit x.ordered lane
        swapped := if lane = 0 then ln == 1 && rxLanes i == 2 else x.swapped
        skew := if rxLanes i == 2 then skew else x.skew }
    let d := linkAdvance 1 i d
    let d := if linkStage d i < 4 then d else
      let x := d.link i
      let seq := byteAt bs 8
      let x := if x.statSeq = some seq then x else
        let a := tapRequest (byteAt bs 3) x.taps0
        let b := tapRequest (byteAt bs 4) x.taps1
        { x with taps0 := a.1, stat0 := a.2, taps1 := b.1, stat1 := b.2, statSeq := some seq }
      let x := { x with peerReady := bit (byteAt bs 7) 0 }
      let one := x.swapped != (lane == 1)
      let a := if one then x.adapt1 else x.adapt0
      putTaps i (d.setLink i (if byteAt bs 9 == x.reqSeq || a.req == 0 then adaptAnswered i one (w * ht) x else x))
    linkAdvance 2 i d

/-- The cycle length of link `i` is 250 rounds: that of its last START, or of the one it would send (R247, R254). -/
def ownCyc250 (d : Dev) (i : Nat) : Bool :=
  if (d.link i).startSent then (d.link i).cyc250 else d.getB F.PLAN_GLOBAL_BEAT_LEN

/-- A START arrives on a stay port (R254). -/
def startFrameRx (i : Nat) (bs : List Byte) (d : Dev) : Dev :=
  if i < 32 || !lanesOn d i then d
  else if !(frameOk bs && byteAt bs 0 == 0x0E && bs.length == 8) then frameDiscard i d
  else if byteAt bs 1 != (d.link i).rate || bit (byteAt bs 2) 1 != ownCyc250 d i then
    linkRestart i 1 (if (d.link i).up then stayLinkDown i d else d)
  else stayLinkRise i (d.setLink i { d.link i with startRx := true })

/-- A bring-up stage has lasted TMO ms: back to stage 1 (R253). -/
def linkTrainTimeout (i : Nat) (d : Dev) : Dev :=
  let x := d.link i
  if x.up || linkStage d i == 0 || decide (d.now < x.stageAt + 1000000 * d.get F.LANES_TRAIN_TMO) then d
  else linkRestart i 1 (trainFrames i (d.count F.LANES_TRAIN_FAILS 1))

/-! ### The back-channel -/

/-- The receive lane of an up head link has re-centred and adapted itself in the idle bits between frames, and HPL_EYE reports the
eye that this gives, which no rule bounds: a free width and height (R385, log entry 120). -/
def eyeFollow (h : Nat) (d : Dev) : Dev :=
  if !(d.link h).up then d else
  let w := d.free 8
  let t := w.2.free 8
  (t.2.put (F.HPL_EYE_RX_W h) w.1).put (F.HPL_EYE_RX_H h) t.1

/-- A frame of TYPE STATUS arrives (R251): CACK and the eye fields, the end of stage 5, and a temperature report. -/
def statusFrameRx (h : Nat) (bs : List Byte) (d : Dev) : Dev :=
  if !lanesOn d h then d
  else if !(frameOk bs && byteAt bs 0 == 0x81 && bs.length == 24) then frameDiscard h d
  else
    let d := controlAck h (byteAt bs 2) d
    let d := eyeFollow h (d.put (F.HPL_EYE_TX_W h) (byteAt bs 14 + byteAt bs 16 * 256))
    let x := d.link h
    let d := d.setLink h { x with statusAt := d.now }
    let d := if linkStage d h == 5 && x.startSent && !x.up && decide (d.now ≤ x.start + 100000) then headLinkRise h d else d
    if linkStage d h == 5 && x.startSent && bit (byteAt bs 1) 0 then temperatureReport h (toSigned 12 (beAt bs 4 2)) d else d

/-- LNK_TMO beats without a valid STATUS (R256). -/
def hplStatusTimeout (h : Nat) (d : Dev) : Dev :=
  let x := d.link h
  if x.up && decide (x.statusAt + d.get (F.HPL_CFG_LNK_TMO h) * d.beatLen ≤ d.now) then headLinkDown h 2 d else d

/-- HPL_CFG.DOWN (R256). -/
def hplDown (h : Nat) (d : Dev) : Dev := if (d.link h).up then headLinkDown h 5 d else d

/-- A write of HPL_CFG (R253, R256); LNK_TMO 0 is refused (R458). -/
def hplCfgWrite (h v : Nat) (d : Dev) : Dev :=
  if bits v 8 4 = 0 then d.refuseAt (R.HPL_CFG h) else
  let was := d.getB (F.HPL_CFG_EN h)
  let d := ((d.put (F.HPL_CFG_EN h) v).put (F.HPL_CFG_AUTO h) (bits v 1 1)).put (F.HPL_CFG_LNK_TMO h) (bits v 8 4)
  if bit v 0 && !was then linkRestart h 1 d
  else if !bit v 0 && was then (if (d.link h).up then headLinkDown h 5 d else linkRestart h 0 d)
  else if bit v 2 then hplDown h d
  else d

/-- A write of STAY_CFG (R238, R253). -/
def stayCfgWrite (v : Nat) (d : Dev) : Dev :=
  let e0 := d.getB F.STAY_CFG_EN_E
  let w0 := d.getB F.STAY_CFG_EN_W
  let d := ((d.put F.STAY_CFG_EN_E v).put F.STAY_CFG_EN_W (bits v 1 1)).put F.STAY_CFG_AUTO (bits v 2 1)
  let d := d.put F.STAY_CFG_LAUNCH (bits v 8 12)
  let turn (i : Nat) (was now_ : Bool) (d : Dev) : Dev :=
    if now_ && !was then linkRestart i 1 d
    else if !now_ && was then (if (d.link i).up then stayLinkDown i d else linkRestart i 0 d)
    else d
  turn linkW w0 (bit v 1) (turn linkE e0 (bit v 0) d)

/-- LANES_CFG (R27, R236): a rate outside 50 to 125, or a change of rate during a plan, is refused. REFOUT[j] carries the
reference while bit j of REFOUT_EN is 1, and it and the head-port lanes are spread with SSC (R237). -/
def lanesCfgWrite (v : Nat) (d : Dev) : Dev :=
  let r := bits v 0 7
  if r < 50 ∨ 125 < r then d.refuseAt R.LANES_CFG
  else if d.planActive && r != d.get F.LANES_CFG_RATE_M then d.refuseAt R.LANES_CFG
  else
    let e := if d.get F.LANES_CFG_SSC = bits v 7 1 then d else { d with sscLag := sscLagAt d ((d.now : Int) * 1000), sscAt := d.now }
    refoutFollow d (((e.put F.LANES_CFG_RATE_M r).put F.LANES_CFG_SSC (bits v 7 1)).put F.LANES_CFG_REFOUT_EN (bits v 8 8))

/-! ### Link cycles (R243 to R250) -/

/-- One link cycle of a head link: the line up to its start and its cycle word; on an up link a CONTROL frame, or NOP, while the
block of page 0x40 takes up frames (R243, R244, R249, R250, R361). -/
def linkCycle (h : Nat) (d : Dev) : Dev :=
  let x := d.link h
  let n := x.cycle
  if !x.startSent || decide (laneNow d h < x.origin + n * (20000 * x.rounds : Nat)) then d
  else if !x.up || !d.working 0x40 then
    let d := beginCycle h n d
    d.setLink h { d.link h with cycle := n + 1 }
  else
  let late := x.back = 0 && (match x.sent.head? with
    | some m => decide (m.cycle + 2 ≤ x.cycles)
    | none => false)
  if late && x.sent.any (fun m => decide (4 ≤ m.sends)) then headLinkDown h 3 d else
  let d := controlRelease h (beginCycle h n d)
  let x := d.link h
  let now_ := x.cycles
  let x := { x with back := if late then x.sent.length else x.back, cycle := n + 1, cycles := now_ + 1 }
  let frame (seq op : Nat) (body : List Byte) : List Byte :=
    beBytes 1 0x02 ++ beBytes 1 seq ++ beBytes 1 op ++ beBytes 1 body.length ++ body
  if 0 < x.back then
    let k := x.sent.length - x.back
    match x.sent[k]? with
    | some m =>
      let sent := x.sent.set k { m with sends := m.sends + 1, cycle := now_ }
      sendControl h (frame m.seq m.op m.payload) (d.setLink h { x with sent := sent, back := x.back - 1 })
    | none => d.setLink h { x with back := 0 }
  else match x.queue with
    | (op, body) :: q =>
      if x.sent.length < 4 then
        let seq := (x.cseq + 1) % 256
        let x := { x with cseq := seq, queue := q, sent := x.sent ++ [{ seq := seq, op := op, payload := body, sends := 1, cycle := now_ }] }
        sendControl h (frame seq op body) ((d.setLink h x).put (F.HPL_STAT_CSEQ h) seq)
      else sendControl h (frame 0 0 []) (d.setLink h x)
    | [] => sendControl h (frame 0 0 []) (d.setLink h x)

/-- A back-channel record has been written (R252, R348). -/
def bcrWrote (d : Dev) : Dev :=
  ((d.put F.BCR_HEAD_HEAD ((d.get F.BCR_HEAD_HEAD + 1) % max 1 (d.get F.BCR_SIZE_SIZE))).raise 0x40 0).ring 29

/-- A SENSE or REPLY frame (R252): into the back-channel ring, or dropped when the ring is full. -/
def senseReplyRx (h : Nat) (bs : List Byte) (d : Dev) : Dev :=
  let len := beAt bs 2 2
  let typ := byteAt bs 0
  if !lanesOn d h then d
  else if !(frameOk bs && (typ == 0x82 || typ == 0x83) && decide (len ≤ 512) && bs.length == len + 8) then frameDiscard h d
  else if d.get F.BCR_HEAD_HEAD = d.get F.BCR_TAIL_TAIL ∨ cleated d 14 = true then d.count F.BCR_DROPS_DROPS 1
  else
    let r := leBytes 1 h ++ leBytes 1 typ ++ leBytes 2 len ++ leBytes 4 d.beatNum ++ leBytes 8 0
      ++ (((bs.drop 4).take len) ++ List.replicate 512 0).take 512
    afterWrite 14 .bcr bcrWrote
      (engineWrite 14 (d.get2 F.BCR_BASE_LO_BASE F.BCR_BASE_HI_BASE + d.get F.BCR_HEAD_HEAD * 528) r d)

end Sys2Proof.Machine
end

