-- ==== Sys2Proof/Machine/Verdict.lean ====
section
/-! DEFINITION. Verdicts (R289 to R293) and the stay ring (R258 to R263). -/
namespace Sys2Proof.Machine

/-! ### Applying verdicts (R292) -/

/-- The rank of a nozzle state (R292). -/
def stateRank (s : Nat) : Nat := match s % 4 with
  | 0 => 0 | 1 => 1 | 2 => 3 | _ => 2

def setInsp (d : Dev) (f : InspSt → InspSt) : Dev := { d with insp := f d.insp }

/-- Put a state into a shadow nozzle entry, changing no other field (R188). -/
def verdictWrite (g st : Nat) (d : Dev) : Dev :=
  setInsp ((nozShadowPut g (setBits (nozShadow d g) 0 2 st) (shadowNote d)).count F.VRD_CNT_APPLIED_CNT 1) (fun i => { i with vrdDirty := true })

/-- The VERDICT block of the carrying chip takes a verdict (R292). -/
def verdictApply (g st epoch : Nat) (d : Dev) : Dev :=
  let m := d.get F.VRD_EPOCH_MIN_EPOCH
  if precedes epoch m || (epoch + 2 ^ 32 - m) % 2 ^ 32 == 2 ^ 31 then d.count F.VRD_CNT_STALE_CNT 1
  else if !d.planActive || (nozPlane d g).isNone then d.count F.VRD_CNT_UNMAPPED_CNT 1
  else
    let old := nozState (nozShadow d g)
    if stateRank old < stateRank st then verdictWrite g st d
    else if d.getB F.VRD_CFG_PROMOTE && decide (stateRank st < stateRank old) && old != 2 then verdictWrite g st d
    else d

/-! ### The verdict ring (R290) -/

/-- Release the `k` oldest records (R290, R134). -/
def vrdRelease (k : Nat) (d : Dev) : Dev :=
  let d := setInsp d (fun i => { i with vrdHeld := i.vrdHeld - k })
  d.put F.VRD_SENT_SENT ((d.get F.VRD_SENT_SENT + k) % max 1 (d.get F.VRD_SIZE_SIZE))

/-- A write of VRD_SENT with LOCAL set (R290 after R209). -/
def vrdSentWrite (v : Nat) (d : Dev) : Dev :=
  if !d.getB F.VRD_RING_CFG_LOCAL then d else
  let n := max 1 (d.get F.VRD_SIZE_SIZE)
  let k := (v % 2 ^ 20 + n - d.get F.VRD_SENT_SENT % n) % n
  if d.insp.vrdHeld < k then d.refuseAt R.VRD_SENT else vrdRelease k d

/-- A write of VRD_BASE or VRD_SIZE empties the ring (R290 after R209). `put` is the write itself. -/
def vrdRewrite (put : Dev → Dev) (d : Dev) : Dev :=
  let n := d.insp.vrdHeld
  let d := ((heldDrop 13 (put d)).put F.VRD_HEAD_HEAD 0).put F.VRD_SENT_SENT 0
  setInsp ((d.count F.VRD_CNT_RINGDROP_CNT n).forgetRecords 0x0B) (fun i => { i with vrdHeld := 0 })

/-- Queue a verdict record for the ring (R262). -/
def stayVerdict (v : VerdRec) (d : Dev) : Dev :=
  if d.stay.verdicts.length < 1024 then { d with stay := { d.stay with verdicts := d.stay.verdicts ++ [v] } }
  else d.count F.STAY_CNT_VDROP 1

/-- This chip's ring position, or that of a chip that stands alone (R278). -/
def ringPos (d : Dev) : Nat := if d.getB F.PLAN_STAY_EN then d.get F.PLAN_STAY_RING_POS else 0

/-- A verdict record has been written (R290). -/
def verdictWrote (d : Dev) : Dev :=
  setInsp (d.put F.VRD_HEAD_HEAD ((d.get F.VRD_HEAD_HEAD + 1) % d.get F.VRD_SIZE_SIZE)) (fun i => { i with vrdHeld := i.vrdHeld + 1 })

/-- A formed verdict is recorded and routed (R290, R291). -/
def verdictRoute (view dest st nozzle epoch : Nat) (off : Int) (ratio : Nat) (held : Bool) (d : Dev) : Dev :=
  let seq := d.insp.vseq % 65536
  let d := d.count F.VRD_CNT_FORMED_CNT 1
  let rec16 := leBytes 1 (view + dest * 8) ++ leBytes 1 (st + 4 * b2n held) ++ leBytes 2 (ofSigned 16 (satS 16 off))
    ++ leBytes 4 nozzle ++ leBytes 4 epoch ++ leBytes 2 (min ratio 65535) ++ leBytes 2 seq
  let n := d.get F.VRD_SIZE_SIZE
  let d := if d.insp.vrdHeld < n ∧ cleated d 13 = false then
      let h := d.get F.VRD_HEAD_HEAD
      afterWrite 13 .verdict verdictWrote
        (engineWrite 13 (d.get2 F.VRD_BASE_LO_BASE F.VRD_BASE_HI_BASE + h * 16) rec16 d)
    else d.count F.VRD_CNT_RINGDROP_CNT 1
  let d := setInsp d (fun i => { i with vseq := (i.vseq + 1) % 65536 })
  if held then d
  else if dest = ringPos d || !d.getB F.PLAN_STAY_EN then verdictApply nozzle st epoch d
  else stayVerdict { dest := dest, state := st, nozzle := nozzle, epoch := epoch, vseq := seq } d

/-- VRD_CTL.HCLR of view `v`: its history entries return to GOOD (R289). -/
def vrdHclr1 (v : Nat) (d : Dev) : Dev :=
  let n := d.get (F.VIEW_X1_X v) - d.get (F.VIEW_X0_X v)
  setInsp d (fun i => { i with hist := cellEraseRange i.hist (d.get (F.VIEW_HBASE_HBASE v)) (d.get (F.VIEW_HBASE_HBASE v) + n) })

def vrdHclr (m : Nat) (d : Dev) : Dev := forL (bitsOf 8 m) vrdHclr1 d

/-! ### The stay ring -/

/-- Local time, 2^-8 ns. -/
def Dev.t8 (d : Dev) : Int := d.t16 / 256

def ringSize (d : Dev) : Nat := d.get F.PLAN_STAY_RING_SIZE + 1

/-- The delay of the link on direction `dir` (0 east, 1 west), 2^-8 ns (R261). -/
def stayDelay (d : Dev) (dir : Nat) : Int := if dir = 0 then d.getI F.STAY_DELAY_E_D else d.getI F.STAY_DELAY_W_D

/-- This chip's MEMBER frame for beat `k` on direction `dir`, its marker at `at_`, 2^-16 ns (R259). -/
def memberBytes (dir k : Nat) (vs : List VerdRec) (at_ : Int) (d : Dev) : List Byte :=
  let pub := d.getB F.PLAN_STAY_PUBLISHER
  let rtm := !d.getB F.TIME_CTL_SRC
  let last := if dir = 0 then d.stay.lastE else d.stay.lastW
  let flags := b2n pub + 2 * b2n d.stay.xref.isSome + 4 * b2n rtm + 8 * b2n (d.getB F.TIME_STAT_LOCKED) + 16 * b2n last.isSome
  let act := actDom d
  let dom (i : Nat) : Nat := d.get (F.TIME_DOM_CFG_DOMAIN i)
  let a := if rtm then dom act else d.tm.ringAct
  let b := if rtm then dom (1 - act) else d.tm.ringStby
  let ofs : Int := if rtm then d.getI (F.TIME_DOM_OFS_OFS (1 - act)) else d.tm.ringOfs / 256
  let turn : Int := match last with
    | some l => at_ / 256 - l.2
    | none => 0
  let x := d.stay.xref.getD (0, 0)
  beBytes 1 0x10 ++ beBytes 1 (d.get F.PLAN_STAY_RING_POS + d.get F.PLAN_STAY_RING_SIZE * 16) ++ beBytes 1 flags
    ++ beBytes 1 vs.length ++ beBytes 4 k ++ beBytes 4 (at_.toNat / 65536 % 1000000000) ++ beBytes 2 (at_.toNat % 65536)
    ++ beBytes 1 a ++ beBytes 1 b ++ beBytes 4 (ofSigned 32 ofs) ++ beBytes 4 0 ++ beBytes 4 (ofSigned 32 turn)
    ++ beBytes 2 ((last.map (fun l => l.1)).getD 0) ++ beBytes 4 x.1 ++ beBytes 4 x.2
    ++ (if pub then (if k = d.beatNum then d.vencOut else d.vencPrev) else [])
    ++ (vs.map (fun v => beBytes 1 v.dest ++ beBytes 1 v.state ++ beBytes 4 v.nozzle ++ beBytes 4 v.epoch ++ beBytes 2 v.vseq)).flatten

/-- The beat whose own frame is due and not sent; LAUNCH may reach into the next beat (R259). -/
def memberDue (d : Dev) : Option Nat :=
  (memberPassed d).filter (fun j => match d.stay.sentBeat with
    | some b => decide (b < j)
    | none => true)

/-- The launch instant of the next own frame, ns. -/
def memberNext (d : Dev) : Nat :=
  match memberDue d with
  | some k => memberLaunch d k
  | none => if memberLaunch d d.beatNum ≤ d.nt then memberLaunch d (d.beatNum + 1) else memberLaunch d d.beatNum

/-- When a frame may start on direction `dir`: at once, or as soon as the transmitter is free (R80, R82). -/
def memberStart (d : Dev) (dir : Nat) : Int := max d.t16 (localAt d (d.link (32 + dir)).txEnd)

/-- The end of the window of the own frame of beat `k`, 2^-16 ns (R80). -/
def memberWindow (d : Dev) (dir k : Nat) : Int :=
  (memberLaunch d k : Int) * 65536 + t16Of (uiTime (d.link (32 + dir)) 32)

/-- Its window has passed by then: it is late (R80, R82). -/
def memberLate (d : Dev) (dir k : Nat) : Bool := decide (memberWindow d dir k < memberStart d dir)

/-- When the own frame of beat `k` starts, `delay` ps after it may, but within its window; a late one starts at once (R80,
R82; where in the window is open: log entry 83). -/
def memberGo (d : Dev) (dir k delay : Nat) : Int :=
  max (memberStart d dir) (min (memberStart d dir + t16Of delay) (memberWindow d dir k))

/-- Whether the own frame of beat `k` leaves on direction `dir` (R82). -/
def memberLeaves (d : Dev) (k dir : Nat) : Bool :=
  (d.link (32 + dir)).up && !(memberLate d dir k && d.getB F.TIME_LAUNCH_STAY_LATE_DROP)

/-- The own frame of beat `k` on direction `dir`, with the verdict records `vs` (R82, R259). -/
def memberSend (k : Nat) (vs : List VerdRec) (dir delay : Nat) (d : Dev) : Dev :=
  if !(d.link (32 + dir)).up then d else
  let go := memberLeaves d k dir
  let d := if memberLate d dir k then d.count F.TIME_LATE_STAY 1 else d
  if !go then d else
  let s := memberGo d dir k delay
  let d := sendFrameAt (32 + dir) (refPs d s) (memberBytes dir k vs s d) d
  { d with stay := { d.stay with sentAt := (dir, k % 65536, s / 256) :: d.stay.sentAt.take 15 } }

/-- The frame's own bytes end: its length without CRC. -/
def memberLen (bs : List Byte) : Nat := 38 + (if bit (byteAt bs 2) 0 then 32 else 0) + 12 * byteAt bs 3

/-- A forwarded frame: HOPS one less, CORR more by `more`, 2^-8 ns (R260). -/
def forwardBytes (bs : List Byte) (more : Int) : List Byte :=
  bs.take 1 ++ beBytes 1 (byteAt bs 1 - 16) ++ (bs.take 20).drop 2 ++ beBytes 4 (ofSigned 32 (toSigned 32 (beAt bs 20 4) + more))
    ++ (bs.take (bs.length - 4)).drop 24

/-- The frames that the own frame held back on direction `dir` are forwarded, CORR with the time that each has waited (R81,
R260). -/
def forwardRelease (dir : Nat) (d : Dev) : Dev :=
  let l := (d.link (32 + dir)).wait
  forL l (fun e d =>
    let s := memberStart d dir
    sendFrameAt (32 + dir) (refPs d s) (forwardBytes e.1 (e.2.1 + (s / 256 - e.2.2))) d)
    (d.setLink (32 + dir) { d.link (32 + dir) with wait := [] })

/-- At B(k) + LAUNCH a member sends its own frame on both stay ports, as a timed frame (R259, R80 to R82); the records that
it carries leave the queue once a frame has left (R262). -/
def memberFrameTx (delayEast delayWest : Nat) (d : Dev) : Dev :=
  if !d.getB F.PLAN_STAY_EN || !d.working 0x5F then d else
  match memberDue d with
  | none => d
  | some k =>
    let n := d.get F.PLAN_STAY_VMAX
    let left := memberLeaves d k 0 || memberLeaves d k 1
    let d := memberSend k (d.stay.verdicts.take n) 1 delayWest (memberSend k (d.stay.verdicts.take n) 0 delayEast d)
    let d := { d with stay := { d.stay with
      sentBeat := some k, verdicts := if left then d.stay.verdicts.drop n else d.stay.verdicts } }
    forwardRelease 1 (forwardRelease 0 d)

/-- Whether a frame of `n` bytes that would be forwarded on direction `dir` from `at_` (2^-16 ns) on has to wait for the own
frame (R81). -/
def forwardWaits (d : Dev) (dir n : Nat) (at_ : Int) : Bool :=
  let x := d.link (32 + dir)
  d.getB F.PLAN_STAY_EN && (!x.wait.isEmpty || decide ((memberNext d : Int) * 65536 < at_ + t16Of (frameTime x n)))

/-- Forward a frame on the opposite port `hold` 2^-8 ns after it arrived, once the transmitter is free, or after the own frame that
it would delay (R81, R260): HOPS, CORR and the CRC are rewritten. A block of page 0x5F out of service takes up no frame (R361). -/
def memberForward (dir : Nat) (bs : List Byte) (hold : Nat) (d : Dev) : Dev :=
  let y := d.link (33 - dir)
  let s := max (d.t16 + hold * 256) (memberStart d (1 - dir))
  if byteAt bs 1 / 16 < 2 || !y.up || !d.working 0x5F then d
  else if forwardWaits d (1 - dir) bs.length s then
    d.setLink (33 - dir) { y with wait := y.wait ++ [(bs, stayDelay d dir, d.t8)] }
  else sendFrameAt (33 - dir) (refPs d s) (forwardBytes bs (stayDelay d dir + (s / 256 - d.t8))) d

/-- The delay of the link on `dir`, from the neighbour's own frame with ECHO valid (R261). -/
def stayMeasure (dir : Nat) (bs : List Byte) (d : Dev) : Dev :=
  let own := byteAt bs 1 / 16 == d.get F.PLAN_STAY_RING_SIZE
  if !own then d else
  let d := if bit (byteAt bs 2) 4 then
      match d.stay.sentAt.find? (fun s => s.1 == dir && s.2.1 == beAt bs 28 2) with
      | some s =>
        let v := (d.t8 - s.2.2 - toSigned 32 (beAt bs 24 4)) / 2
        d.putI (if dir = 0 then F.STAY_DELAY_E_D else F.STAY_DELAY_W_D) v
      | none => d
    else d
  let l := some (beAt bs 4 4 % 65536, d.t8)
  { d with stay := if dir = 0 then { d.stay with lastE := l } else { d.stay with lastW := l } }

/-- θ of a received frame, 2^-16 ns (R261): its TS within the second is taken nearest to the arrival. -/
def memberTheta (dir : Nat) (bs : List Byte) (d : Dev) : Int :=
  let s : Int := 1000000000 * 65536
  let ts : Int := ((beAt bs 8 4 * 65536 + beAt bs 12 2 : Nat) : Int)
  let x := ts + (toSigned 32 (beAt bs 20 4) + stayDelay d dir) * 256 - d.t16
  (x + s / 2) % s - s / 2

/-- A check of the ring time master with `hops` left arrives by direction `dir` (R74, R261): the direction with fewer hops
serves, east on a tie, and the other one when its link is down or it has brought no check in this beat or the one before
(log entry 110). -/
def ringCheck (dir hops : Nat) (th : Int) (bs : List Byte) (d : Dev) : Dev :=
  let ht := d.get F.PLAN_STAY_RING_SIZE - hops + 1
  let near := decide (2 * ht < ringSize d) || (2 * ht == ringSize d && dir == 0)
  let fresh := match d.tm.ringNear with
    | some k => decide (d.beatNum ≤ k + 1)
    | none => false
  let serves := near || !(d.link (33 - dir)).up || !fresh
  let b := some d.beatNum
  let d := { d with tm := if near then { d.tm with ringNear := b } else { d.tm with ringFar := b } }
  if serves then ringTime th (byteAt bs 14) (byteAt bs 15) (toSigned 32 (beAt bs 16 4) * 256) d else d

/-- A MEMBER frame arrives on direction `dir`; `hold` is the time until it leaves again (R258 to R263). -/
def memberFrameRx (dir : Nat) (bs : List Byte) (hold : Nat) (d : Dev) : Dev :=
  if !((d.link (32 + dir)).up || lanesOn d (32 + dir)) || 1 < dir then d
  else if !(frameOk bs && byteAt bs 0 == 0x10 && bs.length == memberLen bs + 4) then frameDiscard (32 + dir) d
  else if !(d.link (32 + dir)).up then d
  else if dir = 1 && d.stay.wiring then frameDiscard linkW d
  else
    let src := byteAt bs 1 % 16
    let hops := byteAt bs 1 / 16
    let pos := d.get F.PLAN_STAY_RING_POS
    if dir = 1 && hops == d.get F.PLAN_STAY_RING_SIZE && src != (pos + ringSize d - 1) % ringSize d then
      let d := { d with stay := { d.stay with wiring := true } }
      ((frameDiscard linkW d).put F.STAY_STAT_WIRING 1).raise 0x5F 1
    else
      let beat := beAt bs 4 4
      let d := stayMeasure dir bs d
      let th := memberTheta dir bs d
      let d := alignCheck th.natAbs d
      let master := bit (byteAt bs 2) 2
      let d := if master then ringCheck dir hops th bs d else d
      let d := memberForward dir bs hold d
      if d.stay.seen.contains (src, beat) || src == pos then d else
      let d := { d with stay := { d.stay with seen := (src, beat) :: d.stay.seen.take 63, heard := setBit d.stay.heard src } }
      let v := bit (byteAt bs 2) 0
      let d := if v then vencAccept ((bs.drop 38).take 32) d else d
      let d := if bit (byteAt bs 2) 1 then
          let x := (beAt bs 30 4, beAt bs 34 4)
          if d.stay.peers.any (fun q => q.1 == src && q.2 == x) then d else
          let d := { d with stay := { d.stay with peers := cellInsert (cellErase d.stay.peers src) src x } }
          plogWrite 0x08 0xFF x.1 (leBytes 4 0 ++ leBytes 1 src ++ leBytes 3 0 ++ leBytes 4 x.2) d
        else d
      forN (byteAt bs 3) (fun i d =>
        let o := 38 + (if v then 32 else 0) + 12 * i
        if byteAt bs o % 16 = pos then
          verdictApply (beAt bs (o + 2) 4 % 131072) (byteAt bs (o + 1) % 4) (beAt bs (o + 6) 4) d
        else d) d

/-- Beat work of the stay ring: MEMBERS reports the positions accepted in the beat just ended, and ring time may be lost
(R74). -/
def stayBeat (d : Dev) : Dev :=
  ringSilent { d.put F.STAY_STAT_MEMBERS d.stay.heard with stay := { d.stay with heard := 0 } }

/-! ### The receive lines (R239 to R242, R248) -/

/-- What comes of the line bits on receive lane `lane` of link `i`, or on its bonded pair: a frame goes to its receiver, which tests
its CRC-32C; a frame broken off, one of unknown TYPE and a coding error count as discarded (R240, R248). A TRAIN frame shows the
skew of the lanes by where its marker ended; the eye measured on the lane is a free value (R253, R255, log entry 111). -/
def rxEventTake (i lane : Nat) (e : RxEvent) (d : Dev) : Dev :=
  match e with
  | .bad => frameDiscard i d
  | .inverted => laneMarked i lane true d
  | .frame bs since =>
    match byteAt bs 0 with
    | 0x0F =>
      let x := d.link i
      let skew : Int := if x.rx0.markAt = 0 ∨ x.rx1.markAt = 0 then x.skew else
        ((x.rx1.markAt : Int) - x.rx0.markAt + 512) % 1024 - 512
      let w := d.free 8
      let h := w.2.free 8
      trainFrameRx i lane bs (bit x.inverted lane) skew w.1 h.1 h.2
    | 0x0E => startFrameRx i bs d
    | 0x10 => memberFrameRx (i - 32) bs (since * 2560 / (d.link i).rate) d
    | 0x81 => statusFrameRx i bs d
    | _ => senseReplyRx i bs d

/-- Line bits arrive on receive lane `lane` of link `i`, which is not bonded: a head port's, or a stay port's in bring-up
(R239 to R242, R253). In stage 2 the lane's polarity is sought. -/
def laneRx (i lane : Nat) (l : List Bool) (d : Dev) : Dev :=
  let x := d.link i
  let seek := linkStage d i == 2 && !bit x.marked lane
  let r := rxEvents (decide (i < 32)) seek { (if lane = 0 then x.rx0 else x.rx1) with inv := bit x.inverted lane } l
  forL r.2 (rxEventTake i lane) (d.setLink i (if lane = 0 then { x with rx0 := r.1 } else { x with rx1 := r.1 }))

/-- Line bits arrive on both lanes of a stay port in stage 5: inverted lanes are put right, swapped ones exchanged, lane 1 brought
back by the skew measured, or lane 0 by its opposite, and the bonded stream is taken in (R242, R253). -/
def pairRx (i : Nat) (l0 l1 : List Bool) (d : Dev) : Dev :=
  let x := d.link i
  let right (k : Nat) (l : List Bool) : List Bool := if bit x.inverted k then l.map (fun b => !b) else l
  let a := x.rest0 ++ right 0 l0
  let b := x.rest1 ++ right 1 l1
  let a := if x.deskewed then a else a.drop (-x.skew).toNat
  let b := if x.deskewed then b else b.drop x.skew.toNat
  let p := if x.swapped then rxBond b a else rxBond a b
  let r := rxEvents false false x.rx0 p.1
  let y := { x with
    rx0 := r.1, deskewed := true, rest0 := if x.swapped then p.2.2 else p.2.1, rest1 := if x.swapped then p.2.1 else p.2.2 }
  forL r.2 (rxEventTake i 0) (d.setLink i y)

/-- The next line bits arrive on receive lanes 0 and 1 of link `i`, after those of the command before. -/
def lineRx (i : Nat) (l0 l1 : List Bool) (d : Dev) : Dev :=
  if !lanesOn d i then d
  else if rxLanes i = 1 then laneRx i 0 l0 d
  else if linkStage d i < 5 then laneRx i 1 l1 (laneRx i 0 l0 d)
  else pairRx i l0 l1 d

end Sys2Proof.Machine
end

