-- ==== Sys2Proof/Machine/Inspect.lean ====
section
/-! DEFINITION. In-line inspection (chapter 12): camera ports, triggers, frames, exposure sets, strobes, the pipeline with
shading, colour conversion, registration and judging, statistics and raw taps. -/
namespace Sys2Proof.Machine

def Dev.cam (d : Dev) (c : Nat) : Cam := cellGet {} d.insp.cams c

def Dev.setCam (d : Dev) (c : Nat) (x : Cam) : Dev := setInsp d (fun i => { i with cams := cellSet {} i.cams c x })

/-- A field as frame `f` captured it at its start (R272). -/
def CamFrame.get (f : CamFrame) (r : RegField) : Nat := bits (cellGet (resetWord r.addr) f.regs r.addr).toNat r.lo r.width

/-- Change the frame of epoch `ord` of a port. -/
def Cam.onFrame (x : Cam) (ord : Nat) (g : CamFrame → CamFrame) : Cam :=
  { x with frames := x.frames.map (fun f => if f.ord = ord then g f else f) }

def camFrameBit (c : Nat) (d : Dev) : Dev := d.putB (F.CAM_STAT_FRAME c) (!(d.cam c).frames.isEmpty)

/-! ### Links, heartbeats and the control channel -/

/-- CAM_STAT.LINK is set while every connection of NCONN is up (R264). -/
def camLinkShow (c : Nat) (d : Dev) : Dev :=
  let need := 2 ^ (2 ^ d.get (F.CAM_CFG_NCONN c)) - 1
  d.putB (F.CAM_STAT_LINK c) (((d.cam c).conns &&& need) == need)

/-- A downlink connection comes up or goes down (R264). -/
def cxpLinkChange (c conn : Nat) (up : Bool) (d : Dev) : Dev :=
  let x := d.cam c
  camLinkShow c (d.setCam c { x with conns := if up then setBit x.conns conn else clearBits x.conns (2 ^ conn) })

/-- What the uplink CXU[c] carries: nothing shows while its output group is not driven (R277, R411). -/
def camUplink (o : Out) (d : Dev) : Dev := if bit (d.reg R.PWR_OE).toNat (pinGroup .cxu) then d.emit o else d

/-- Whether the block of camera port `c` is at work: enabled, or finishing its frames (R270, R361). -/
def camWorks (d : Dev) (c : Nat) : Bool := d.enabled (0x41 + c) || d.getB (F.PG_STAT_STOPPING (0x41 + c))

/-- A heartbeat (R266). -/
def cxpHeartbeatRx (c : Nat) (d : Dev) : Dev := (d.setCam c { d.cam c with hbAt := d.now }).put (F.CAM_STAT_HB_LOST c) 0

/-- No heartbeat for HB_TMO ms (R266). -/
def camHbTimeout (c : Nat) (d : Dev) : Dev :=
  let x := d.cam c
  if d.getB (F.CAM_STAT_HB_LOST c) || decide (d.now < x.hbAt + 1000000 * d.get (F.CAM_TMO_HB_TMO c)) then d else
  let d := d.setCam c { x with frames := x.frames.map (fun f => { f with incomplete := true, hb := true }) }
  (d.put (F.CAM_STAT_HB_LOST c) 1).raise (0x41 + c) 0

/-- BUSY of the control channel: a command outstanding or an exposure set in progress. -/
def ccBusy (c : Nat) (d : Dev) : Dev :=
  let x := d.cam c
  (d.putB (F.CAM_CC_CTL_BUSY c) (x.cc.isSome || x.pending.isSome)).putB (F.EXP_STAT_PENDING c) x.pending.isSome

/-- An exposure set becomes ready: frames in progress are mixed when it issued writes (R275, R276). -/
def expReady (c : Nat) (s : ExpSet) (d : Dev) : Dev :=
  let x := d.cam c
  d.setCam c { x with
    pending := none
    ready := some (s.gen, s.width)
    failed := false
    frames := if s.issued then x.frames.map (fun f => { f with mixed := true }) else x.frames }

/-- Issue the next write of the set in progress, once the channel is free; a set with none left is ready (R275). -/
def ccNext (c : Nat) (d : Dev) : Dev :=
  let x := d.cam c
  if x.cc.isSome then d else
  match x.pending with
  | none => d
  | some s => match s.writes with
    | [] => expReady c s d
    | (a, v) :: ws =>
      let d := d.setCam c { x with
        cc := some { gen := some s.gen, write := true, at_ := d.now }
        pending := some { s with writes := ws, issued := true } }
      camUplink (.camReg c true a v) d

/-- A commit of page 0x46 applied a changed set of port `c` (R275, R276). -/
def exposureApply (c : Nat) (d : Dev) : Dev :=
  let g := (d.get (F.EXP_GEN_G c) + 1) % 2 ^ 32
  let d := d.put (F.EXP_GEN_G c) g
  let ws := (List.range 4).filterMap (fun i =>
    let a := d.get (F.EXP_CAMREG_A_ADDR c i)
    if a = 0 then none else some (a, d.get (F.EXP_CAMREG_V_VALUE c i)))
  let s : ExpSet := { gen := g, width := d.get (F.EXP_WIDTH_WIDTH c), writes := ws, issued := false }
  let d := if ws.isEmpty then expReady c s d else d.setCam c { d.cam c with pending := some s }
  ccBusy c (ccNext c d)

/-- A write of the set failed (R276). -/
def exposureFail (c g : Nat) (d : Dev) : Dev :=
  let x := d.cam c
  let p := match x.pending with
    | some s => if s.gen = g then none else some s
    | none => none
  let d := d.setCam c { x with cc := none, pending := p, failed := true }
  (d.put (F.EXP_STAT_FAIL c) 1).raise 0x46 0

/-- CAM_CC_CTL.GO (R264). -/
def camCcGo (c : Nat) (write : Bool) (d : Dev) : Dev :=
  if d.getB (F.CAM_CC_CTL_BUSY c) then d.refuseAt (R.CAM_CC_CTL c)
  else
    let d := d.putB (F.CAM_CC_CTL_WRITE c) write
    let d := d.setCam c { d.cam c with cc := some { gen := none, write := write, at_ := d.now } }
    ccBusy c (camUplink (.camReg c write (d.get (F.CAM_CC_ADDR_ADDR c)) (if write then d.get (F.CAM_CC_DATA_DATA c) else 0)) d)

/-- A control-channel acknowledgement: `status` 0 OK, 1 refused, 3 CRC error; `v` is the value read (R264, R275, R276). -/
def ccAckRx (c status v : Nat) (d : Dev) : Dev :=
  let x := d.cam c
  match x.cc with
  | none => d
  | some k => match k.gen with
    | none =>
      let d := (d.setCam c { x with cc := none }).put (F.CAM_CC_CTL_RESULT c) status
      let d := if status = 0 && !k.write then d.put (F.CAM_CC_DATA_DATA c) v else d
      ccBusy c (ccNext c d)
    | some g =>
      if status = 0 then ccBusy c (ccNext c (d.setCam c { x with cc := none }))
      else if status = 1 then ccBusy c (ccNext c (exposureFail c g d))
      else d

/-- A command is not acknowledged within 1 ms (R276). -/
def ccTimeout (c : Nat) (d : Dev) : Dev :=
  let x := d.cam c
  match x.cc with
  | none => d
  | some k =>
    if d.now < k.at_ + 1000000 then d else
    match k.gen with
    | none => ccBusy c (ccNext c ((d.setCam c { x with cc := none }).put (F.CAM_CC_CTL_RESULT c) 2))
    | some g => ccBusy c (ccNext c (exposureFail c g d))

/-! ### Triggers and frames -/

def camOrigin (d : Dev) (c : Nat) : Int := originOf d (d.get (F.CAM_CFG_REF_PLANE c))

def camDist (d : Dev) (c : Nat) : Int := toSigned 48 (d.get2 (F.CAM_DIST_LO_DIST c) (F.CAM_DIST_HI_DIST c))

/-- X_T(i) (R267). -/
def trigCount (d : Dev) (c i : Nat) : Int := camOrigin d c + camDist d c + ((i * d.get (F.CAM_CPITCH_CPITCH c) / 65536 : Nat) : Int)

/-- The first trigger at or above boundary P(n(ord, ref)) + CAM_DIST (R268). -/
def firstTrig (d : Dev) (c ord : Nat) : Nat :=
  let q := d.get (F.CAM_CFG_REF_PLANE c)
  let y := (boundary d q (firstLine d ord q) - camOrigin d c).toNat
  let cp := d.get (F.CAM_CPITCH_CPITCH c)
  if cp = 0 then 0 else ceilDiv (y * 65536) cp

/-- The epoch of trigger `i`: the last whose first trigger is at or before it, among those known (R268). -/
def trigOrd (d : Dev) (c i : Nat) : Nat :=
  ((List.range (d.copies.length + 1)).filter (fun o => (o == 0 || captured d (o - 1)) && decide (firstTrig d c o ≤ i))).getLastD 0

/-- NL(ord) once the copy's length is known (R268). -/
def frameTrigs (d : Dev) (c ord : Nat) : Option Nat :=
  if captured d ord then some (firstTrig d c (ord + 1) - firstTrig d c ord) else none

/-- Whether port `c` is bound to the active plan (R270). -/
def camBound (d : Dev) (c : Nat) : Bool := d.planActive && d.getB (F.PLAN_CAM_A_EN c)

/-- The level of strobe output `j` now (R277). -/
def strobeShow (j : Nat) (d : Dev) : Dev :=
  let on := d.getB (F.LGT_STRB_EN j) && d.insp.pulses.any (fun p => p.1 == j && decide (p.2.1 ≤ d.now) && decide (d.now < p.2.2))
  d.drive .strb j (b2n (on != d.getB (F.LGT_STRB_POL j)))

/-- A strobe output starts or ends a pulse (R277); pulses that have ended are forgotten. -/
def strobePulse (j : Nat) (d : Dev) : Dev :=
  let d := strobeShow j d
  setInsp d (fun i => { i with pulses := i.pulses.filter (fun p => p.1 != j || decide (d.now < p.2.2)) })

/-- A frame starts with its first trigger (R268, R270, R275, R276, R287). -/
def frameStart (c ord : Nat) (d : Dev) : Dev :=
  let x := d.cam c
  let e := match x.ready with
    | some g => g
    | none => (x.gen, x.width)
  let tap := d.getB F.INS_TAP_CFG_EN && d.get F.INS_TAP_CFG_PORT == c && d.enabled 0x43 && (d.insp.tapArmed || d.insp.tapRun) && !d.insp.tapEnding
  let lost := d.getB (F.CAM_STAT_HB_LOST c)
  let f : CamFrame := {
    ord := ord
    regs := d.regs.filter (fun r => decide (0x41000 ≤ r.1) && decide (r.1 < 0x47000) && decide (r.1 % 0x1000 < 0x800))
    shd := d.insp.shdLive
    map := d.insp.mapLive
    npix := d.get (F.PLAN_CAM_A_NPIX c)
    npl := d.get (F.PLAN_CAM_A_NPLANES c)
    gen := e.1
    width := e.2
    beat := d.beatNum % 2 ^ 32
    incomplete := lost
    hb := lost
    mixed := x.failed
    tapped := tap
    on := [0x43, 0x44, 0x45].filter d.enabled }
  let d := d.setCam c { x with frames := x.frames ++ [f], gen := e.1, width := e.2, ready := none }
  let d := if tap then setInsp d (fun i => { i with
      tapArmed := false, tapRun := true, tapDone := i.tapDone + 1, tapCmp := d.getB F.INS_TAP_CFG_CMP }) else d
  let d := if tap && d.get F.INS_TAP_CFG_FRAMES != 0 && d.insp.tapDone == d.get F.INS_TAP_CFG_FRAMES then
      setInsp d (fun i => { i with tapRun := false, tapEnding := true })
    else d
  camFrameBit c d

/-- Send trigger `i` (R267, R268, R277). -/
def trigSend (c : Nat) (d : Dev) : Dev :=
  let x := d.cam c
  let i := x.next
  let o := trigOrd d c i
  let d := if x.frames.any (fun f => f.ord == o) || decide (o < x.void) then d else frameStart c o d
  let x := (d.cam c).onFrame o (fun f => { f with sent := f.sent + 1 })
  let w := ((x.frames.find? (fun f => f.ord == o)).map (fun f => f.width)).getD x.width
  let d := d.setCam c { x with
    next := i + 1, lastTrig := some d.now, heldBack := false, trigs := x.trigs ++ [{ idx := i, ord := o, at_ := d.now }] }
  let d := camUplink (.trigger c (d.cam c).gen) d
  forN 4 (fun j d =>
    if d.enabled 0x46 && d.getB (F.LGT_STRB_EN j) && d.get (F.LGT_STRB_PORT j) == c then
      let s := d.now + d.get (F.LGT_STRB_DLY j) * 10
      let d := setInsp d (fun q => { q with pulses := q.pulses ++ [(j, s, s + w * 10)] })
      strobeShow j d
    else d) d

/-- Whether 1 / F_CAM has passed since the last trigger (R267). -/
def trigSpaced (d : Dev) (c : Nat) : Bool :=
  match (d.cam c).lastTrig with
  | some t => decide (1000000000 ≤ (d.now - t) * d.get (F.PLAN_CAM_B_F_CAM c))
  | none => true

/-- Whether the pass programme keeps the cameras off (R268). -/
def passOff (d : Dev) : Bool := d.get F.SCR_PASS_GROUP_M1 != 0

/-- INS_STAT.PASS_OFF (R268). -/
def passShow (d : Dev) : Dev := d.putB F.INS_STAT_PASS_OFF (passOff d)

/-- Whether port `c` may send its next trigger: enabled, or finishing the trigger's frame (R270, R361). -/
def trigAllowed (d : Dev) (c : Nat) : Bool :=
  d.enabled (0x41 + c) || (d.getB (F.PG_STAT_STOPPING (0x41 + c))
    && (d.cam c).frames.any (fun f => f.ord == trigOrd d c (d.cam c).next))

/-- Whether the next trigger of port `c` has fallen due (R267). -/
def trigReached (d : Dev) (c : Nat) : Bool :=
  camBound d c &&
  (match (d.cam c).chwm with
    | some h => decide (trigCount d c (d.cam c).next ≤ h)
    | none => false)

def trigDue (d : Dev) (c : Nat) : Bool := trigReached d c && !passOff d && trigAllowed d c

/-- The number of triggers of port `c` that are due at count `h` (R267). -/
def trigsAt (d : Dev) (c : Nat) (h : Int) : Nat :=
  let y := h - camOrigin d c - camDist d c
  let cp := d.get (F.CAM_CPITCH_CPITCH c)
  if y < 0 ∨ cp = 0 then 0 else ceilDiv ((y.toNat + 1) * 65536) cp

/-- The triggers that have fallen due while none may be sent are not sent later; the frames they belong to are not assembled
(R268; log entry 115). -/
def trigsSkip (c : Nat) (d : Dev) : Dev :=
  let x := d.cam c
  match x.chwm with
  | none => d
  | some h =>
    let m := max (x.next + 1) (trigsAt d c h)
    let lo := trigOrd d c x.next
    let hi := trigOrd d c (m - 1)
    camFrameBit c (d.setCam c { x with
      next := m, heldBack := false, void := max x.void (hi + 1), frames := x.frames.filter (fun f => decide (f.ord < lo)) })

/-- A trigger that the spacing held back is sent late (R267). -/
def trigLate (c : Nat) (d : Dev) : Dev := (d.put (F.CAM_STAT_TRIG_LATE c) 1).count (F.CNT_TRIG_LATE_CNT c) 1

/-- Port `c` follows a position sample of its plane (R267, R268). -/
def camFollow (c : Nat) (d : Dev) : Dev :=
  if !camBound d c then d else
  let q := d.get (F.CAM_CFG_REF_PLANE c)
  match effPlane d q with
  | none => d
  | some k =>
    let x := d.cam c
    let h := match x.chwm with
      | some h => max h k.x
      | none => k.x
    let d := d.setCam c { x with chwm := some h }
    if trigReached d c && (passOff d || !trigAllowed d c) then trigsSkip c d
    else if !trigDue d c then d
    else if trigSpaced d c then
      let d := trigSend c (if x.heldBack then trigLate c d else d)
      if trigDue d c then d.setCam c { d.cam c with heldBack := true } else d
    else d.setCam c { d.cam c with heldBack := true }

/-- Both camera ports follow. -/
def camsFollow (d : Dev) : Dev := camFollow 1 (camFollow 0 d)

/-- The position of VENC at the instant the clocks stand at: what takes its position from VENC follows (R49, R62, R267). -/
def vencInstant (d : Dev) : Dev :=
  let d := planesFollow 2 d
  forN 2 (fun c d => if sourceInUse d (d.get (F.CAM_CFG_REF_PLANE c)) = 2 then camFollow c d else d) d

/-- VENC is derived at every 50 ns sample instant since it was last derived (R62). The local clock at an instant before the
command is taken back from now by the rate in force now (log entry 106). -/
def vencRun (d : Dev) : Dev :=
  let n := d.now / 50
  let k := n - d.vencAt
  let at_ := d.vencAt
  let d := { d with vencAt := n }
  if (!d.planActive && d.rejectPts.isEmpty) || d.venc.isNone || !(List.range 8).any (fun p => sourceInUse d p == 2) then d else
  forN k (fun i d => { vencInstant (d.rewound (d.now - 50 * (at_ + 1 + i))) with now := d.now, clk := d.clk }) d

/-- The spacing of a held trigger expires: it is sent and counted as late (R267). -/
def camTriggerHeld (c : Nat) (d : Dev) : Dev :=
  if !((d.cam c).heldBack && trigDue d c && trigSpaced d c) then d else
  let d := trigSend c (trigLate c d)
  if trigDue d c then d.setCam c { d.cam c with heldBack := true } else d

/-- At plan activation triggers are counted from 0 (R267). -/
def camsActivate (d : Dev) : Dev :=
  forN 2 (fun c d => camFrameBit c (d.setCam c { d.cam c with
    chwm := none, next := 0, lastTrig := none, heldBack := false, void := 0, trigs := [], frames := [] })) d

/-! ### Shading and colour conversion (R273, R274) -/

def shdKey (tab port ch x : Nat) : Nat := x + ch * 2 ^ 14 + port * 2 ^ 16 + tab * 2 ^ 17

/-- The shaded component `r` of pixel `x`, channel `ch`. -/
def shade (f : CamFrame) (c x ch r : Nat) : Nat :=
  let t : Int := (r : Int) - (cellGet 0 f.shd (shdKey 0 c ch x) % 4096 : Nat)
  if t ≤ 0 then 0 else satU 12 ((t * cellGet 0 f.shd (shdKey 1 c ch x) + 2048) / 4096)

/-- The channels of one pixel from its shaded components. -/
def colour (f : CamFrame) (c : Nat) (s : List Nat) : List Nat :=
  (List.range f.npl).map (fun i =>
    let sum : Int := (List.range f.npl).foldl (fun a j =>
      a + toSigned 16 (f.get (F.INS_CCM_M c (3 * i + j))) * (s.getD j 0 : Nat)) 0
    satU 12 ((sum + 2048) / 4096 + toSigned 13 (f.get (F.INS_COFS_OFS c i))))

def chunks : Nat → Nat → List Nat → List (List Nat)
  | 0, _, _ => []
  | f + 1, n, l => if l.isEmpty then [] else l.take n :: chunks f n (l.drop n)

/-- Components after shading and after conversion: every real component is shaded, and the pixels whose components are all
real are converted; PAD components pass unchanged (R273; log entry 115). -/
def lineShade (f : CamFrame) (c n : Nat) (px : List Nat) : List Nat × List Nat :=
  let ps := chunks (px.length + 1) (max 1 f.npl) px
  let sh := ps.mapIdx (fun x p => p.mapIdx (fun ch r => if x * f.npl + ch < n then shade f c x ch r else r))
  let co := sh.mapIdx (fun x p => if (x + 1) * f.npl ≤ n then colour f c p else p)
  (sh.flatten, co.flatten)

/-! ### Registration and judging (R278 to R283) -/

/-- Value of channel `ch` of pixel `x` in a line, if it is a real pixel. -/
def pixelAt (f : CamFrame) (l : FLine) (x ch : Nat) : Option Nat :=
  if (x + 1) * f.npl ≤ l.n then l.px[x * f.npl + ch]? else none

/-- w of R279; a pixel that is not there weighs nothing. -/
def inkAt (f : CamFrame) (v : Nat) (l : FLine) (x : Nat) : Nat :=
  match pixelAt f l x (f.get (F.VIEW_CFG_CH v)) with
  | some o => 4095 - f.get (F.VIEW_JUDGE_D0 v) - o
  | none => 0

/-- The columns that lie wholly in [a, b), 1/16 pixel. -/
def colsIn (a b : Nat) : List Nat := (List.range (b / 16 + 1)).filter (fun x => decide (a ≤ 16 * x) && decide (16 * (x + 1) ≤ b))

/-- A rising crossing of half the peak by the sums `s` at index `i ≥ 1` (weights `ws`), 1/16 units; `top` is twice the
threshold: S(i − 1) × 2 < top ≤ S(i) × 2. -/
def risingAt (s : Nat → Nat) (top : Nat) (i : Nat) : Option Nat :=
  if 1 ≤ i ∧ 2 * s (i - 1) < top ∧ top ≤ 2 * s i then
    some (16 * (i - 1) + 16 * (top - 2 * s (i - 1)) / (2 * (s i - s (i - 1))))
  else none

def fallingAt (s : Nat → Nat) (top : Nat) (i : Nat) : Option Nat :=
  if 1 ≤ i ∧ 2 * s i < top ∧ top ≤ 2 * s (i - 1) then
    some (16 * (i - 1) + 16 * (2 * s (i - 1) - top) / (2 * (s (i - 1) - s i)))
  else none

/-- What registration finds: STATUS, eL, eR, yF, SKEW (R279). -/
structure Reg where
  status : Nat := 1
  eL : Nat := 0
  eR : Nat := 0
  yF : Nat := 0
  skew : Int := 0
  deriving DecidableEq, Repr

/-- The leading edge over columns `cs`: yF and the peak sum. -/
def leadEdge (f : CamFrame) (v : Nat) (cs : List Nat) : Option (Nat × Nat) :=
  let y := f.get (F.VIEW_Y_YNOM v) / 16
  let sr := f.get (F.VIEW_Y_SRCH v)
  let sums := (f.lines.map (fun l => cs.foldl (fun a x => a + inkAt f v l x) 0))
  let s (i : Nat) : Nat := sums.getD i 0
  let win := (List.range (2 * sr + 1)).filterMap (fun k => if sr ≤ y + k ∧ y + k - sr < f.lines.length then some (y + k - sr) else none)
  let top := win.foldl (fun m l => max m (s l)) 0
  if top < 256 * cs.length ∨ cs.isEmpty then none
  else (win.findSome? (risingAt s top)).map (fun e => (e, top))

/-- Registration of view `v` in a frame (R279). -/
def register (f : CamFrame) (v : Nat) : Reg :=
  let el := f.get (F.VIEW_EL_E v)
  let er := f.get (F.VIEW_ER_E v)
  let q := (er - el) / 4
  let mid := colsIn (el + q) (er - q)
  match leadEdge f v mid with
  | none => { status := 2 }
  | some (yF, top) =>
    let skew : Int := match leadEdge f v (colsIn el (el + q)), leadEdge f v (colsIn (er - q) er) with
      | some a, some b => (b.1 : Int) - a.1
      | _, _ => 0
    let lpp := f.get (F.VIEW_LPP_LPP v)
    let bar := yF + f.get (F.VIEW_GEOM_FID_H v) * lpp * 16 / 65536
    let ls := (f.lines.mapIdx (fun i l => (i, l))).filter (fun l => decide (yF ≤ 16 * l.1) && decide (16 * (l.1 + 1) ≤ bar))
    -- c(x) / lines and M / columns compared as c(x) × columns against M × lines
    let s (x : Nat) : Nat := (ls.foldl (fun a l => a + inkAt f v l.2 x) 0) * mid.length
    let t := top * ls.length
    let xs := f.get (F.VIEW_EL_XSRCH v)
    let near (e : Nat) : List Nat := (List.range (2 * xs + 1)).filterMap (fun k => if xs ≤ e / 16 + k then some (e / 16 + k - xs) else none)
    if ls.isEmpty then { status := 3, yF := yF, skew := skew } else
    match (near el).findSome? (risingAt s t), (near er).findSome? (fallingAt s t) with
    | some a, some b =>
      let y0 := yF + (f.get (F.VIEW_GEOM_FID_H v) + f.get (F.VIEW_GEOM_RS_GAP v)) * lpp * 16 / 65536
      let done := max ((f.get (F.VIEW_Y_YNOM v) / 16 + f.get (F.VIEW_Y_SRCH v) + 1) * 16) bar
      { status := if 16 * ceilDiv y0 16 < done then 4 else 1, eL := a, eR := b, yF := yF, skew := skew }
    | _, _ => { status := 3, yF := yF, skew := skew }

/-- Entries of view `v`'s port map that cover sample `x`: their nozzles (R278). -/
def mapNozzles (f : CamFrame) (v x : Nat) : List Nat :=
  (List.range 32).filterMap (fun i =>
    let e := cellGet 0 f.map (32 * v + i)
    let ofs := bits e 0 18
    if ofs ≤ x ∧ x < ofs + bits e 18 13 then some (bits e 32 5 * 4096 + (x - ofs)) else none)

/-- One sample's measurement: A and Σ (16 col + 8) × w (R282). -/
def measure (f : CamFrame) (v : Nat) (ls : List FLine) (xc : Int) : Nat × Nat :=
  let w := f.get (F.VIEW_JUDGE_WIN v)
  let c0 : Int := (xc + 8) / 16 - (w / 2 : Nat)
  ls.foldl (fun a l => (List.range w).foldl (fun (a : Nat × Nat) (k : Nat) =>
    let col : Int := c0 + k
    if col < 0 then a else
    let ink := inkAt f v l col.toNat
    (a.1 + ink, a.2 + (16 * col.toNat + 8) * ink)) a) (0, 0)

/-- The column count of R280's P code. -/
def stepCount (f : CamFrame) (v : Nat) : Nat := 8 * 2 ^ f.get (F.VIEW_CFG_P v)

/-- A result updates its history entry, and a confirmed change forms a verdict (R289 to R291). -/
def verdictForm (f : CamFrame) (v x nozzle res : Nat) (off : Int) (ratio epoch : Nat) (d : Dev) : Dev :=
  let k := f.get (F.VIEW_HBASE_HBASE v) + (x - f.get (F.VIEW_X0_X v))
  let e := cellGet 0 d.insp.hist k
  let run := if bits e 0 2 = res then min 15 (bits e 2 4 + 1) else 1
  let sent := bits e 6 2
  let form := decide (f.get F.VRD_CFG_CONFIRM ≤ run) && res != sent
  let own := f.get (F.VIEW_CFG_DEST v) == ringPos d || !d.getB F.PLAN_STAY_EN
  let held := form && own && f.get F.VRD_CFG_REEF_HOLD == 1 && (d.copyAt f.ord).reef != 0
  let sent := if form && !held then res else sent
  let d := setInsp d (fun i => { i with hist := cellSet 0 i.hist k (res + 4 * run + 64 * sent) })
  if form then verdictRoute v (f.get (F.VIEW_CFG_DEST v)) res nozzle epoch off ratio held d else d

/-- Judge one step of a view (R282): returns the count of samples judged other than GOOD. -/
def judgeStep (f : CamFrame) (v t epoch : Nat) (g : Reg) (d : Dev) : Nat × Dev :=
  let p := stepCount f v
  let x0 := f.get (F.VIEW_X0_X v)
  let x1 := f.get (F.VIEW_X1_X v)
  let ys (t : Nat) : Nat := g.yF + (f.get (F.VIEW_GEOM_FID_H v) + f.get (F.VIEW_GEOM_RS_GAP v) + t * f.get (F.VIEW_GEOM_RS_H v))
    * f.get (F.VIEW_LPP_LPP v) * 16 / 65536
  let edge := 16 * f.get (F.VIEW_GEOM_EDGE v)
  let ls := ((f.lines.mapIdx (fun i l => (i, l))).filter (fun l =>
    decide (ys t + edge ≤ 16 * l.1) && decide (16 * (l.1 + 1) + edge ≤ ys (t + 1)))).map (fun l => l.2)
  let xs := (List.range ((x1 - x0 + p - 1 - t) / p)).map (fun k => x0 + t + k * p)
  let meas := xs.filterMap (fun x =>
    let ns := mapNozzles f v x
    if ns.isEmpty then none else
    let xc : Int := g.eL + ((x - x0 : Nat) : Int) * ((g.eR : Int) - g.eL) / ((x1 - x0 : Nat) : Int)
    let m := measure f v ls xc
    some (x, ns, xc, m.1, m.2))
  let sole := meas.filter (fun m => m.2.1.length == 1)
  let r : Nat := if sole.isEmpty then 0 else (sole.foldl (fun a m => a + m.2.2.2.1) 0) / sole.length
  if r = 0 then (0, d) else
  meas.foldl (fun (acc : Nat × Dev) (m : Nat × List Nat × Int × Nat × Nat) =>
    let x : Nat := m.1
    let a : Nat := m.2.2.2.1
    let d := acc.2
    -- the offset of a sample without ink is a value the spec does not state
    let od := if a = 0 then (let q := d.free 16; (toSigned 16 q.1, q.2))
      else ((2 * (m.2.2.2.2 : Int) + a) / (2 * a) - m.2.2.1, d)
    let d := od.2
    let res := if 256 * a < f.get F.VRD_CFG_MISS * r then 2
      else if f.get F.VRD_CFG_DEV < od.1.natAbs then 3
      else if 256 * a < f.get F.VRD_CFG_WEAK * r then 1 else 0
    match m.2.1 with
    | [n] => (acc.1 + b2n (res != 0), verdictForm f v x n res od.1 (256 * a / r) epoch d)
    | _ => (acc.1, if res != 0 then d.count F.VRD_CNT_OVERLAP_CNT 1 else d)) (0, d)

/-- The seam error of a view with STATUS OK: DY, with the event and the record beyond tolerance (R280). -/
def seamMeasure (f : CamFrame) (c v epoch : Nat) (g : Reg) (d : Dev) : Int × Dev :=
  let dy : Int := match cellGet none d.insp.yPrev v with
    | some y => ((g.yF : Int) - y) * (f.get (F.CAM_UMLINE_UMLINE c) : Nat)
    | none => 0
  let dy : Int := if dy < 0 then -((dy.natAbs / 4096 : Nat) : Int) else ((dy.natAbs / 4096 : Nat) : Int)
  let d := setInsp d (fun i => { i with yPrev := cellSet none i.yPrev v (some (g.yF : Int)) })
  if d.get F.STORE_SEAM_TOL_TOL < dy.natAbs then
    let d := d.raise 0x43 0
    (dy, plogWrite 0x05 (f.get (F.VIEW_CFG_PLANE v)) epoch
      (leBytes 4 0 ++ leBytes 4 (ofSigned 32 dy) ++ leBytes 1 v ++ leBytes 1 (f.get (F.VIEW_CFG_DEST v))) d)
  else (dy, d)

/-- One view at the close of a frame: its 32 bytes in the record (R279 to R285, R289). -/
def viewClose (f : CamFrame) (c v epoch : Nat) (d : Dev) : List Byte × Dev :=
  if f.get (F.VIEW_CFG_EN v) = 0 ∨ f.get (F.VIEW_CFG_PORT v) ≠ c then (leBytes 32 0, d) else
  let g := register f v
  let s := if g.status = 1 then seamMeasure f c v epoch g d else (0, d)
  let judged := g.status = 1 ∧ !f.incomplete ∧ !f.mixed ∧ f.on.contains 0x45
  let j := if judged then
      (List.range (stepCount f v)).foldl (fun (a : Nat × Dev) t => let r := judgeStep f v t epoch g a.2; (a.1 + r.1, r.2)) (0, s.2)
    else (0, s.2)
  (leBytes 1 g.status ++ leBytes 3 0 ++ leBytes 4 g.eL ++ leBytes 4 g.eR ++ leBytes 4 g.yF ++ leBytes 4 (ofSigned 32 g.skew)
    ++ leBytes 4 (ofSigned 32 s.1) ++ leBytes 4 j.1 ++ leBytes 4 0, j.2)

/-! ### Statistics (R284, R285) -/

/-- A mean in 1/16 of a code. -/
def mean16 (sum count : Nat) : Nat := if count = 0 then 0xFFFF else (32 * sum + count) / (2 * count)

/-- Histogram, zone means and streak profile of channel `ch`. -/
def channelStats (f : CamFrame) (ch : Nat) : List Byte × List Byte × List Byte :=
  let zx := f.get F.STS_CFG_ZX_M1 + 1
  let zy := f.get F.STS_CFG_ZY_M1 + 1
  let nl := f.lines.length
  let vals := (f.lines.mapIdx (fun l ln => (List.range f.npix).filterMap (fun x =>
    (pixelAt f ln x ch).map (fun o => (l, x, o))))).flatten
  let hist := (List.range 1024).map (fun b => min ((vals.filter (fun v => v.2.2 / 4 == b)).length) (2 ^ 32 - 1))
  let m (g : Nat × Nat × Nat → Bool) : Nat :=
    let s := vals.filter g
    mean16 (s.foldl (fun a v => a + v.2.2) 0) s.length
  let zone := ((List.range zy).map (fun r => (List.range zx).map (fun c =>
    m (fun v => v.2.1 * zx / max 1 f.npix == c && v.1 * zy / max 1 nl == r)))).flatten
  let streak := (List.range f.npix).map (fun x => m (fun v => v.2.1 == x))
  ((hist.map (leBytes 4)).flatten, (zone.map (leBytes 2)).flatten, (streak.map (leBytes 2)).flatten)

/-- The statistics record of a frame (R285). -/
def statsRecord (f : CamFrame) (c epoch : Nat) (reef : Bool) (views : List Byte) : List Byte :=
  let zx := f.get F.STS_CFG_ZX_M1 + 1
  let zy := f.get F.STS_CFG_ZY_M1 + 1
  let cs := (List.range f.npl).map (channelStats f)
  let len := 320 + 4096 * f.npl + 2 * zx * zy * f.npl + 2 * f.npix * f.npl
  let s16 (x : Nat) : List Byte := leBytes 2 (min x 65535)
  leBytes 1 c ++ leBytes 1 (b2n f.incomplete + 2 * b2n f.mixed + 4 * b2n reef + 8 * b2n f.tapInc + 16 * b2n f.hb)
    ++ leBytes 1 f.npl ++ leBytes 1 zx ++ leBytes 1 zy ++ leBytes 1 0 ++ leBytes 2 f.npix ++ leBytes 4 epoch ++ leBytes 4 f.gen
    ++ leBytes 4 f.beat ++ leBytes 4 f.lines.length ++ s16 f.short ++ s16 f.long ++ s16 f.missing ++ s16 f.dropped
    ++ s16 f.excess ++ leBytes 2 0 ++ leBytes 4 len ++ leBytes 24 0 ++ views
    ++ (cs.map (fun s => s.1)).flatten ++ (cs.map (fun s => s.2.1)).flatten ++ (cs.map (fun s => s.2.2)).flatten

/-- A statistics record of port `c` has been written (R285). -/
def statsWrote (c : Nat) (d : Dev) : Dev :=
  ((d.setCam c { d.cam c with stsHeld := (d.cam c).stsHeld + 1 }).put (F.STS_HEAD_HEAD c)
    ((d.get (F.STS_HEAD_HEAD c) + 1) % d.get (F.STS_COUNT_COUNT c))).raise 0x44 0

/-- Write a record into the port's statistics ring, or drop it when the ring is full or its master cleated (R285, R360). -/
def statsWrite (c : Nat) (bs : List Byte) (d : Dev) : Dev :=
  let n := d.get (F.STS_COUNT_COUNT c)
  let x := d.cam c
  if n ≤ x.stsHeld ∨ cleated d 12 = true then d.count (F.STS_DROPS_DROPS c) 1 else
  let h := d.get (F.STS_HEAD_HEAD c)
  let a := d.get2 (F.STS_BASE_LO_BASE c) (F.STS_BASE_HI_BASE c) + h * d.get (F.STS_SLOT_SLOT c) * 4096
  afterWrite 12 (.stats c) (statsWrote c) (engineWrite 12 a bs d)

/-- A write of STS_READ releases records (R285). -/
def stsReadWrite (c v : Nat) (d : Dev) : Dev :=
  let n := max 1 (d.get (F.STS_COUNT_COUNT c))
  let k := (v % 65536 + n - d.get (F.STS_READ_READ c) % n) % n
  (d.setCam c { d.cam c with stsHeld := (d.cam c).stsHeld - k }).put (F.STS_READ_READ c) v

/-- A frame closes: views, record, verdicts (R270, R280, R285, R289). -/
def frameClose (c : Nat) (f : CamFrame) (d : Dev) : Dev :=
  let epoch := epochNumber d f.ord
  let r := if f.on.contains 0x43 then
      (List.range 8).foldl (fun (a : List Byte × Dev) v => let q := viewClose f c v epoch a.2; (a.1 ++ q.1, q.2)) ([], d)
    else (leBytes 256 0, d)
  let d := if f.on.contains 0x44 then statsWrite c (statsRecord f c epoch ((r.2.copyAt f.ord).reef != 0) r.1) r.2 else r.2
  camFrameBit c (d.setCam c { d.cam c with frames := (d.cam c).frames.filter (fun g => g.ord != f.ord) })

/-- Whether lines of a tapped frame still wait for the pipeline or are in it: the record of the frame says whether any of
them was dropped (R285, R288). -/
def tapUnderWay (d : Dev) (c : Nat) (f : CamFrame) : Bool :=
  f.tapped && ((d.cam c).fifo.any (fun l => l.ord == f.ord) || (match d.insp.pipe with
    | some (k, l) => k == c && l.ord == f.ord
    | none => false))

/-- Close the frames of port `c` all of whose triggers have been matched (R270), a tapped one once its lines have been through
the tap. -/
def framesClose (c : Nat) (d : Dev) : Dev :=
  forL (d.cam c).frames (fun f d =>
    if frameTrigs d c f.ord = some f.matched ∧ tapUnderWay d c f = false then frameClose c f d else d) d

/-! ### Lines -/

/-- The pipeline takes the next line when it is free (R271). -/
def pipeTake (d : Dev) : Dev :=
  if d.insp.pipe.isSome then d else
  let q (c : Nat) := (d.cam c).fifo
  let o := 1 - d.insp.served
  let pick := if !(q o).isEmpty then some o else if !(q (1 - o)).isEmpty then some (1 - o) else none
  match pick with
  | some c => match q c with
    | l :: ls => setInsp (d.setCam c { d.cam c with fifo := ls }) (fun i => { i with pipe := some (c, l), served := c })
    | [] => d
  | none => d

/-- The trigger at the head of the queue is matched to a line of frame `o` (R269): `upd` changes the frame. -/
def trigMatch (c : Nat) (t : Trig) (upd : CamFrame → CamFrame) (tap : Option (List Nat)) (full : Bool) (d : Dev) : Dev :=
  let x := d.cam c
  let x := { x with trigs := x.trigs.filter (fun u => u.idx != t.idx) }
  let x := x.onFrame t.ord (fun f => { upd f with matched := f.matched + 1 })
  let cmp := x.frames.any (fun f => f.ord == t.ord && f.tapped && f.get F.INS_TAP_CFG_CMP == 1)
  let x := if full then x else { x with fifo := x.fifo ++ [⟨t.ord, tap, cmp⟩] }
  framesClose c (pipeTake (d.setCam c x))

/-- A trigger of a frame that is not assembled is matched: the line goes nowhere (R268). -/
def trigGone (c : Nat) (t : Trig) (d : Dev) : Dev :=
  d.setCam c { d.cam c with trigs := (d.cam c).trigs.filter (fun u => u.idx != t.idx) }

/-- The tap samples of a line: raw, shaded or converted (R287). -/
def tapSamples (f : CamFrame) (raw sh co : List Nat) : Option (List Nat) :=
  if !f.tapped then none else
  some (match f.get F.INS_TAP_CFG_POINT with
    | 0 => raw | 1 => sh | _ => co)

/-- A whole camera line of port `c` has arrived, its first sample `age` ns ago (R264, R269); `ok` says that its components
are of 12 bits. -/
def camLineRx (c age : Nat) (ok : Bool) (px : List Nat) (d : Dev) : Dev :=
  if !camWorks d c then d
  else if !ok then d.count (F.CNT_SHORT_CNT c) 1 else
  let x := d.cam c
  let first := d.now - age
  match x.trigs.find? (fun t => decide (t.at_ + d.get (F.CAM_TMO_TRIG_LAT c) * 100 ≤ first)) with
  | none =>
    let d := d.count (F.CNT_EXCESS_CNT c) 1
    d.setCam c { x with frames := match x.frames with
      | f :: fs => { f with excess := f.excess + 1, incomplete := true } :: fs
      | [] => [] }
  | some t =>
    match x.frames.find? (fun f => f.ord == t.ord) with
    | none => trigGone c t d
    | some f =>
      let want := f.npix * f.npl
      let n := min px.length want
      let short := decide (px.length < want)
      let long := decide (want < px.length)
      let full := decide (4 ≤ x.fifo.length)
      let raw := (px.map (· % 4096)).take want ++ List.replicate (want - px.length) (f.get (F.CAM_CFG_PAD c))
      let s := lineShade f c n raw
      let d := if short then d.count (F.CNT_SHORT_CNT c) 1 else d
      let d := if long then d.count (F.CNT_LONG_CNT c) 1 else d
      let d := if full then d.count (F.CNT_DROP_CNT c) 1 else d
      trigMatch c t (fun f => { f with
        short := f.short + b2n short, long := f.long + b2n long, dropped := f.dropped + b2n full
        incomplete := f.incomplete || short || long || full
        lines := f.lines ++ [if full then ⟨0, []⟩ else ⟨n, s.2⟩] }) (tapSamples f raw s.1 s.2) full d

/-- A trigger is unmatched LINE_TMO µs after it was sent: a MISSING line of PAD (R269). -/
def camLineTimeout (c : Nat) (d : Dev) : Dev :=
  let x := d.cam c
  match x.trigs with
  | [] => d
  | t :: _ =>
    if d.now < t.at_ + d.get (F.CAM_TMO_LINE_TMO c) * 1000 then d else
    let d := d.count (F.CNT_MISSING_CNT c) 1
    match x.frames.find? (fun f => f.ord == t.ord) with
    | none => trigGone c t d
    | some f =>
    let px := List.replicate (f.npix * f.npl) (f.get (F.CAM_CFG_PAD c))
    let pad := tapSamples f px px px
    trigMatch c t (fun f => { f with missing := f.missing + 1, incomplete := true, lines := f.lines ++ [⟨0, []⟩] }) pad
      (decide (4 ≤ x.fifo.length)) d

/-- A tap line that cannot be taken (R288). -/
def tapDrop (c ord : Nat) (d : Dev) : Dev :=
  let d := d.count F.INS_TAP_DROPS_DROPS 1
  d.setCam c ((d.cam c).onFrame ord (fun f => { f with tapInc := true }))

/-- `n` bytes of a direct tap have been written (R287). -/
def tapWrote (n : Nat) (d : Dev) : Dev := setInsp d (fun i => { i with tapPos := i.tapPos + n })

/-- A tap line goes to DRAM, which takes none during a change of rate, or to the compressor (R287, R288, R330). -/
def tapLine (c ord : Nat) (cmp : Bool) (px : List Nat) (d : Dev) : Dev :=
  if cmp then
    if d.getB F.CMP_STAT_BUSY && d.cmp.tap && !d.cmp.ended && !cmpQueueFull d px.length then cmpEnqueue px d
    else tapDrop c ord d
  else
    let n := 2 * px.length
    let sz := d.get F.INS_TAP_SIZE_SIZE
    let pos := d.insp.tapPos
    let free (u : Nat) : Bool := decide ((u % 2 ^ 24 + 2 ^ 24 - d.get F.INS_TAP_READ_READ) % 2 ^ 24 < sz)
    if n = 0 then d
    else if cleated d 11 || d.getB F.DRAMC_FCHG_BUSY || !(free (pos / 4096) && free ((pos + n - 1) / 4096)) then tapDrop c ord d
    else
      let cap := sz * 4096
      let o := pos % cap
      let bs := (px.map (leBytes 2)).flatten
      let base := d.get2 F.INS_TAP_BASE_LO_BASE F.INS_TAP_BASE_HI_BASE
      let d := engineWrite 11 (base + o) (bs.take (cap - o)) d
      let d := if cap - o < n then engineWrite 11 base (bs.drop (cap - o)) d else d
      afterWrite 11 (.tap n) (tapWrote n) d

/-- Whether a line of a tapped frame is still to come, or on its way. -/
def tapBusy (d : Dev) : Bool :=
  (match d.insp.pipe with
    | some (_, l) => l.tap.isSome
    | none => false)
  || (List.range 2).any (fun c => (d.cam c).fifo.any (fun l => l.tap.isSome) || (d.cam c).frames.any (fun f => f.tapped))

/-- The tap source has ended once the last line of the last tap frame has passed: the compressor job that it feeds ends after
the lines that still wait (R154, R288). -/
def tapFinish (d : Dev) : Dev :=
  if !d.insp.tapEnding || tapBusy d then d else
  let d := setInsp d (fun i => { i with tapEnding := false })
  if !(d.insp.tapCmp && d.cmp.tap && d.getB F.CMP_STAT_BUSY) then d
  else if d.cmp.queue.isEmpty && d.cmp.rest.isEmpty then cmpEnd (d.get F.CMP_LINES_LINES != 0) false d
  else { d with cmp := { d.cmp with ended := true } }

/-- The pipeline finishes its line, taps it and takes the next; a frame whose last line has been tapped closes (R271, R285,
R287). -/
def pipelineLineDone (d : Dev) : Dev :=
  match d.insp.pipe with
  | none => d
  | some (c, l) =>
    let d := setInsp d (fun i => { i with pipe := none })
    match l.tap with
    | some px => tapFinish (framesClose c (pipeTake (tapLine c l.ord l.cmp px d)))
    | none => pipeTake d

/-! ### Ports of the tables -/

def insShdAdvance (d : Dev) : Dev :=
  if d.getB F.INS_SHD_SEL_INC then d.put F.INS_SHD_SEL_IDX (d.get F.INS_SHD_SEL_IDX + 1) else d

def insShdKey (d : Dev) : Nat :=
  shdKey (d.get F.INS_SHD_SEL_TAB) (d.get F.INS_SHD_SEL_PORT) (d.get F.INS_SHD_SEL_CH) (d.get F.INS_SHD_SEL_IDX)

/-- INS_SHD_DATA, INS_MAP_A and INS_MAP_B: the live entry at the live offset, the shadow entry at the shadow offset (R5,
R432). -/
def insShdRead (d : Dev) : Nat × Dev := (cellGet 0 d.insp.shdLive (insShdKey d), insShdAdvance d)

def insShdShadow (d : Dev) : Nat := cellGet 0 d.insp.shdSh (insShdKey d)

def insShdWrite (v : Nat) (d : Dev) : Dev :=
  let v := if d.getB F.INS_SHD_SEL_TAB then v % 65536 else v % 4096
  insShdAdvance (setInsp d (fun i => { i with shdSh := cellSet 0 i.shdSh (insShdKey d) v }))

def insMapAdvance (d : Dev) : Dev :=
  if d.getB F.INS_MAP_SEL_INC then d.put F.INS_MAP_SEL_IDX (d.get F.INS_MAP_SEL_IDX + 1) else d

def insMapEntry (d : Dev) : Nat := cellGet 0 d.insp.mapSh (d.get F.INS_MAP_SEL_IDX)

def insMapSet (v : Nat) (d : Dev) : Dev :=
  setInsp d (fun i => { i with mapSh := cellSet 0 i.mapSh (d.get F.INS_MAP_SEL_IDX) v })

def insMapLive (d : Dev) : Nat := cellGet 0 d.insp.mapLive (d.get F.INS_MAP_SEL_IDX)

def insMapARead (d : Dev) : Nat × Dev := (insMapLive d % 2 ^ 31, d)
def insMapBRead (d : Dev) : Nat × Dev := (insMapLive d / 2 ^ 32 % 32, insMapAdvance d)
def insMapAWrite (v : Nat) (d : Dev) : Dev := insMapSet (setBits (insMapEntry d) 0 31 v) d
def insMapBWrite (v : Nat) (d : Dev) : Dev := insMapAdvance (insMapSet (setBits (insMapEntry d) 32 5 v) d)

/-- A commit of page 0x43 takes the shading and map tables over (R272) and arms the tap (R287). -/
def inspectApply (d : Dev) : Dev :=
  tapFinish (setInsp d (fun i => { i with
    shdLive := i.shdSh, mapLive := i.mapSh
    tapArmed := d.getB F.INS_TAP_CFG_EN && !i.tapRun
    tapRun := i.tapRun && d.getB F.INS_TAP_CFG_EN
    tapEnding := i.tapEnding || (i.tapRun && !d.getB F.INS_TAP_CFG_EN)
    tapDone := if i.tapRun then i.tapDone else 0 }))

end Sys2Proof.Machine
end

