-- ==== Sys2Proof/Machine/Loops.lean ====
section
/-! DEFINITION. Fluid loops, converters, frequency inputs, PWM outputs and general-purpose pins (chapter 13, R294 to
R311). -/
namespace Sys2Proof.Machine

def Dev.loop (d : Dev) (l : Nat) : Loop := cellGet {} d.mot.loops l

def Dev.setLoop (d : Dev) (l : Nat) (x : Loop) : Dev :=
  { d with mot := { d.mot with loops := cellSet {} d.mot.loops l x } }

/-! ### Coefficient memory -/

/-- The bits of coefficient word `w` that are not reserved (chapter 13, "Coefficient memory"). -/
def coefMask (w : Nat) : Nat :=
  if w = 0 then 0x3F03FFFF else if w = 4 ∨ w = 9 then 0xBF03FFFF else if w < 19 then 0x3FFFF else 0

def coefShadowSet (i v : Nat) (d : Dev) : Dev :=
  { d with mot := { d.mot with coefSh := cellSet 0 d.mot.coefSh i (v &&& coefMask (i % 32)) } }

/-- IDX advances after each LOOP_CDATA access while INC is 1. -/
def coefAdvance (d : Dev) : Dev :=
  if d.getB F.LOOP_CSEL_INC then d.put F.LOOP_CSEL_IDX (d.get F.LOOP_CSEL_IDX + 1) else d

/-- LOOP_CDATA: the live word at its live offset, the shadow word at its shadow offset (R5, R432). -/
def loopCdataRead (d : Dev) : Nat × Dev := (cellGet 0 d.mot.coefLive (d.get F.LOOP_CSEL_IDX), coefAdvance d)

def loopCdataShadow (d : Dev) : Nat := cellGet 0 d.mot.coefSh (d.get F.LOOP_CSEL_IDX)

def loopCdataWrite (v : Nat) (d : Dev) : Dev := coefAdvance (coefShadowSet (d.get F.LOOP_CSEL_IDX) v d)

/-- The record of region `r` of loop `l`: its 19 words. -/
def coefRecord (m : Cells Nat) (l r : Nat) : List Nat :=
  (List.range 19).map (fun w => cellGet 0 m (32 * (8 * l + r) + w))

/-- Word `w` of a record, and its 18-bit mantissa as a signed number. -/
def recW (cf : List Nat) (w : Nat) : Nat := cf.getD w 0
def recK (cf : List Nat) (w : Nat) : Int := toSigned 18 (recW cf w)

/-- Stage exponents X1, X2, X3, at words 0, 4 and 9. -/
def recX (cf : List Nat) (w : Nat) : Int := toSigned 6 (bits (recW cf w) 24 6)

def recByp (cf : List Nat) (w : Nat) : Bool := bit (recW cf w) 31
def recLo (cf : List Nat) : Int := recK cf 14
def recHi (cf : List Nat) : Int := recK cf 15

/-! ### Numbers (R296) -/

/-- A coefficient K × 2^(X − 17) as a multiple of 2^-49. -/
def coefAt (k x : Int) : Int := k * ((2 ^ (x + 32).toNat : Nat) : Int)

/-- `x` × 2^-`s` LU in units of 2^-22 LU, rounded half up, before saturation; `s` is above 22. -/
def round22 (s : Nat) (x : Int) : Int := (x + ((2 ^ (s - 23) : Nat) : Int)) / ((2 ^ (s - 22) : Nat) : Int)

/-- The saturation of q22: ±2^19 LU. -/
def sat22 (x : Int) : Int :=
  if x < -((2 ^ 41 : Nat) : Int) then -((2 ^ 41 : Nat) : Int)
  else if ((2 ^ 41 : Nat) : Int) < x then ((2 ^ 41 : Nat) : Int) else x

def q22 (s : Nat) (x : Int) : Int := sat22 (round22 s x)

/-- rnd: `x` × 2^-`s` rounded half up to an integer. -/
def rndAt (s : Nat) (x : Int) : Int := (x + ((2 ^ (s - 1) : Nat) : Int)) / ((2 ^ s : Nat) : Int)

def luUnit : Int := 2 ^ 22
def pow49 : Int := 2 ^ 49

def signOf (x : Int) : Int := if 0 < x then 1 else if x < 0 then -1 else 0

/-! ### Stages (R301) -/

/-- Stage 1, PID with its integrator held output-referred: the new states and u1. -/
def pidStage (cf : List Nat) (reverse : Bool) (e y yPrev : Int) (x : Loop) : Loop × Int :=
  let x1 := recX cf 0
  let kp := coefAt (recK cf 0) x1
  let ki := coefAt (recK cf 1) x1
  let kd := coefAt (recK cf 2) x1
  let kf : Int := (bits (recW cf 3) 0 18 : Nat)
  let di := ki * e
  let s := signOf di
  let x : Loop :=
    if s ≠ 0 ∧ (s = x.awSide ∨ s = x.limSide) then { x with awSide := s }
    else
      let aw := if s ≠ 0 then 0 else x.awSide
      let i := q22 49 (x.i * 2 ^ 27 + di)
      let hi := recHi cf * luUnit
      let lo := recLo cf * luUnit
      let (i, aw) := if hi ≤ i then (hi, (1 : Int)) else (i, aw)
      let (i, aw) := if i ≤ lo then (lo, (-1 : Int)) else (i, aw)
      { x with i := i, awSide := aw }
  let dy := if reverse then y - yPrev else yPrev - y
  let dn := q22 66 (x.d * 2 ^ 44 + kf * (kd * dy - x.d * 2 ^ 27))
  let x := { x with d := dn }
  (x, satS 18 (rndAt 49 (kp * e + (x.i + x.d) * 2 ^ 27)))

/-- Stages 2 and 3, a biquad in transposed direct form II with its words from `w`: the new s1 and s2, the output, and
whether a state saturated. -/
def biquad (cf : List Nat) (w : Nat) (u s1 s2 : Int) : Int × Int × Int × Bool :=
  let x := recX cf w
  let b0 := coefAt (recK cf w) x
  let b1 := coefAt (recK cf (w + 1)) x
  let b2 := coefAt (recK cf (w + 2)) x
  let a1 := coefAt (recK cf (w + 3)) x
  let a2 := coefAt (recK cf (w + 4)) x
  let o := b0 * u + s1 * 2 ^ 27
  let r1 := round22 98 (b1 * u * pow49 - a1 * o + s2 * 2 ^ 76)
  let r2 := round22 98 (b2 * u * pow49 - a2 * o)
  (sat22 r1, sat22 r2, satS 18 (rndAt 49 o), sat22 r1 != r1 || sat22 r2 != r2)

/-- R304: the integrator is re-clamped to the new limits; the states otherwise stay. -/
def reclamp (cf : List Nat) (x : Loop) : Loop × Bool :=
  let hi := recHi cf * luUnit
  let lo := recLo cf * luUnit
  if hi < x.i then ({ x with i := hi, awSide := 1 }, true)
  else if x.i < lo then ({ x with i := lo, awSide := -1 }, true)
  else (x, false)

/-! ### Inputs and regions -/

def adcValue (d : Dev) (i : Nat) : Int := 32 * (d.get (F.ADC_DATA_VALUE i) : Int)

/-- The set-point (R300); for a source the table does not give, a free value. -/
def setPoint (d : Dev) (l : Nat) : Int × Dev :=
  let ch := d.get (F.LOOP_CFG_SP_CH l)
  match d.get (F.LOOP_CFG_SP_SRC l) with
  | 0 => (d.getI (F.LOOP_SP_SP l), d)
  | 1 => (adcValue d ch, d)
  | 2 =>
    if ch < 4 then
      (satS 18 (d.getI (F.LOOP_SP_SP l) + (d.get (F.FIN_FREQ_F ch) : Int) * d.getI (F.LOOP_SPK_SPK l) / 2 ^ 20), d)
    else let (v, d) := d.free 18; (toSigned 18 v, d)
  | _ => let (v, d) := d.free 18; (toSigned 18 v, d)

def thr (m : Cells Nat) (l r : Nat) : Int := toSigned 18 (cellGet 0 m (32 * (8 * l + r) + 17))
def hys (m : Cells Nat) (l r : Nat) : Int := (cellGet 0 m (32 * (8 * l + r) + 18) : Nat)

/-- The region of a sample (R303): at the first sample the highest r with q ≥ THR_r, later the one reached from `r`. -/
def regionUp (m : Cells Nat) (l nreg : Nat) (q : Int) : Nat → Nat → Nat
  | 0, r => r
  | k + 1, r => if r + 1 < nreg ∧ thr m l (r + 1) + hys m l (r + 1) ≤ q then regionUp m l nreg q k (r + 1) else r

def regionDown (m : Cells Nat) (l : Nat) (q : Int) : Nat → Nat
  | 0 => 0
  | r + 1 => if q < thr m l (r + 1) - hys m l (r + 1) then regionDown m l q r else r + 1

def regionOf (m : Cells Nat) (l nreg : Nat) (q : Int) (fresh : Bool) (r : Nat) : Nat :=
  if fresh then ((List.range nreg).filter (fun k => k == 0 || decide (thr m l k ≤ q))).foldl max 0
  else
    let up := regionUp m l nreg q 8 r
    if up ≠ r then up else regionDown m l q r

/-! ### Schedule and evaluation (R294, R295) -/

/-- The schedule word of loop `l` in force: enabled, DIV_LOG2 and PHASE (R294). -/
def loopSched (d : Dev) (l : Nat) : Bool × Nat × Nat :=
  if d.planActive then (d.getB (F.PLAN_LOOP_EN l), d.get (F.PLAN_LOOP_DIV_LOG2 l), d.get (F.PLAN_LOOP_PHASE l))
  else (d.getB (F.LOOP_FREE_EN l), d.get (F.LOOP_FREE_DIV_LOG2 l), d.get (F.LOOP_FREE_PHASE l))

/-- Whether loop `l` is in the schedule in force; clearing EN of page 0x48 takes every loop out (R307). -/
def loopIn (d : Dev) (l : Nat) : Bool := d.enabled 0x48 && (loopSched d l).1

/-- Whether loop `l` is due in beat `k`. -/
def loopDue (d : Dev) (l k : Nat) : Bool :=
  let (_, n, ph) := loopSched d l
  loopIn d l && k % 2 ^ n == ph

/-- Give `out` to the loop's PWM output (R302). -/
def loopOutput (l : Nat) (out : Int) (d : Dev) : Dev :=
  if d.getB (F.LOOP_CFG_DEST l) then
    let o := d.get (F.LOOP_CFG_PWM_SEL l)
    d.put (F.PWM_DUTY_DUTY o) (out.toNat * d.get (F.PWM_PERIOD_PERIOD o) / 131072)
  else d

/-- One sample of loop `l` (R300 to R305). -/
def loopSample (l : Nat) (d : Dev) : Dev :=
  let x := d.loop l
  let meas := d.get (F.LOOP_CFG_MEAS_CH l)
  let stale := d.getB (F.ADC_DATA_STALE meas)
    || (d.get (F.LOOP_CFG_SP_SRC l) == 1 && d.getB (F.ADC_DATA_STALE (d.get (F.LOOP_CFG_SP_CH l))))
  let y := adcValue d meas
  let (sp, d) := setPoint d l
  let q := if d.getB (F.LOOP_CFG_SCHED l) then y else sp
  let m := d.mot.coefLive
  let r := regionOf m l (d.get (F.LOOP_CFG_NREG_M1 l) + 1) q x.fresh x.region
  let cf := coefRecord m l r
  let x0 : Loop := if x.fresh then { ({} : Loop) with yPrev := y, inSched := x.inSched } else x
  let (x1, clamped) := if !x.fresh && (r != x.region || x.record != cf) then reclamp cf x0 else (x0, false)
  let reverse := d.getB (F.LOOP_CFG_REVERSE l)
  let e := satS 18 (if reverse then y - sp else sp - y)
  let (x2, u1) := pidStage cf reverse e y x1.yPrev x1
  let (n1, n2, u2, v2) := if recByp cf 4 then (x2.n1, x2.n2, u1, false) else biquad cf 4 u1 x2.n1 x2.n2
  let (l1, l2, u3, v3) := if recByp cf 9 then (x2.l1, x2.l2, u2, false) else biquad cf 9 u2 x2.l1 x2.l2
  let rate : Int := (bits (recW cf 16) 0 18 : Nat)
  let lo := if rate ≠ 0 then max (recLo cf) (x2.outPrev - rate) else recLo cf
  let hi := if rate ≠ 0 then min (recHi cf) (x2.outPrev + rate) else recHi cf
  let (pick, d) := if hi < lo then d.free 1 else (0, d)
  let out := if hi < lo then (if pick = 0 then lo else hi) else if u3 < lo then lo else if hi < u3 then hi else u3
  let lim : Int := if hi < u3 then 1 else if u3 < lo then -1 else 0
  let d := d.setLoop l { x2 with
    n1 := n1, n2 := n2, l1 := l1, l2 := l2, outPrev := out, yPrev := y, limSide := lim, region := r, fresh := false,
    record := cf }
  let d := (d.put (F.LOOP_STAT_REGION l) r).putB (F.LOOP_STAT_AW l) (x2.awSide != 0)
  let d := d.put (F.LOOP_STAT_LIM l) (if lim = 1 then 1 else if lim = -1 then 2 else 0)
  let d := if stale then d.put (F.LOOP_STAT_STALE l) 1 else d
  let d := if v2 || v3 then d.put (F.LOOP_STAT_OVF l) 1 else d
  let d := if clamped then (d.put (F.LOOP_STAT_RECLAMP l) 1).raise 0x48 0 else d
  loopOutput l out (d.putI (F.LOOP_OUT_OUT l) out)

/-- A loop that leaves the schedule in force: its output goes to SAFE when SAFE_EN is 1 (R294). -/
def loopLeave (l : Nat) (d : Dev) : Dev :=
  if d.getB (F.LOOP_CFG_SAFE_EN l) then loopOutput l (d.getI (F.LOOP_SAFE_SAFE l)) d else d

/-- FIN_FREQ of input `i` at the boundary of beat `k`, and the edges that can still be counted (R299). -/
def finBeat (k i : Nat) (d : Dev) : Dev :=
  let es := (cellGet [] d.mot.fin i).filter (fun e => decide (k ≤ e.2 + 4096))
  let win := match i with
    | 0 => d.get F.FIN_CFG_WIN0 | 1 => d.get F.FIN_CFG_WIN1 | 2 => d.get F.FIN_CFG_WIN2 | _ => d.get F.FIN_CFG_WIN3
  let w := es.filter (fun e => decide (k ≤ e.2 + 2 ^ win))
  let n := w.length
  let f := match w.head?, w.getLast? with
    | some b, some a => if 2 ≤ n then 2 ^ 8 * 200000000 * (n - 1) / (b.1 - a.1) else 0
    | _, _ => 0
  { d with mot := { d.mot with fin := cellSet [] d.mot.fin i es } }.put (F.FIN_FREQ_F i) f

/-- The loop engine at the boundary of beat `k` (R294, R295, R299): the frequencies, the loops that leave the schedule,
then every loop due, ascending. -/
def loopsBeat (k : Nat) (d : Dev) : Dev :=
  let d := forN 4 (finBeat k) d
  let d := forN 32 (fun l d =>
    let now := loopIn d l
    let was := (d.loop l).inSched
    let d := if was && !now then loopLeave l d else d
    if was != now then d.setLoop l { d.loop l with inSched := now } else d) d
  forN 32 (fun l d => if loopDue d l k then loopSample l d else d) d

/-- LOOP_CTL.RST: the loops named start afresh at their next sample (R302). -/
def loopRst (m : Nat) (d : Dev) : Dev := forL (bitsOf 32 m) (fun l d => d.setLoop l { d.loop l with fresh := true }) d

/-! ### The commit check (R306) -/

/-- M of the LOOP check: the largest number of the given loops (N, PHASE) that run in one beat (R25). -/
def loopPeak (ls : List (Nat × Nat)) : Nat :=
  ((List.range 256).map (fun k => (ls.filter (fun e => k % e.1 == e.2)).length)).foldl max 0

/-- The LOOP demand of R25 fails its budget. -/
def loopOverBudget (m beatLen : Nat) : Bool := decide (9 * (beatLen / 5) < 10 * (16 + 26 * m))

/-- The check made when a commit of page 0x48 is armed: code and loop of the first failure (R306). -/
def loopCheck (d : Dev) : Option (Nat × Nat) :=
  let sh (f : RegField) : Nat := d.get (shadowOf f)
  let free := (List.range 32).filter (fun l => sh (F.LOOP_FREE_EN l) == 1)
  let ls := (List.range 32).filter (fun l => sh (F.LOOP_FREE_EN l) == 1 || sh (F.PLAN_LOOP_EN l) == 1
    || (d.planActive && d.getB (F.PLAN_LOOP_EN l)))
  let m := d.mot.coefSh
  let nreg (l : Nat) : Nat := sh (F.LOOP_CFG_NREG_M1 l) + 1
  let src (l : Nat) : Nat := sh (F.LOOP_CFG_SP_SRC l)
  let spch (l : Nat) : Nat := sh (F.LOOP_CFG_SP_CH l)
  let pwm (l : Nat) : Option Nat := if sh (F.LOOP_CFG_DEST l) == 1 then some (sh (F.LOOP_CFG_PWM_SEL l)) else none
  let adcOn (i : Nat) : Bool := bit (d.get F.ADC_EN_EN) i
  let find (c : Nat) (p : Nat → Bool) : Option (Nat × Nat) := (ls.find? p).map (fun l => (c, l))
  let thrBad (l : Nat) : Bool := (List.range (nreg l - 1)).any (fun r => decide (1 ≤ r)
    && decide (r + 1 < nreg l) && decide (thr m l (r + 1) - hys m l (r + 1) ≤ thr m l r + hys m l r))
  let limBad (l : Nat) : Bool := (List.range (nreg l)).any (fun r =>
    let cf := coefRecord m l r
    decide (recHi cf ≤ recLo cf))
  let shared (l : Nat) : Bool := (pwm l).isSome && ls.any (fun k => k != l && pwm k == pwm l)
  let srcBad (l : Nat) : Bool := src l == 3 || (src l == 2 && decide (3 < spch l)) || !adcOn (sh (F.LOOP_CFG_MEAS_CH l))
    || (src l == 1 && !adcOn (spch l))
  let divBad (l : Nat) : Bool := decide (8 < sh (F.LOOP_FREE_DIV_LOG2 l))
    || decide (2 ^ sh (F.LOOP_FREE_DIV_LOG2 l) ≤ sh (F.LOOP_FREE_PHASE l))
  let budget : Option (Nat × Nat) :=
    match free.find? divBad with
    | some l => some (5, l)
    | none =>
      let m := loopPeak (free.map (fun l => (2 ^ sh (F.LOOP_FREE_DIV_LOG2 l), sh (F.LOOP_FREE_PHASE l))))
      if loopOverBudget m d.beatLen then some (5, 0) else none
  ((((find 1 thrBad).or (find 2 limBad)).or (find 3 shared)).or (find 4 srcBad)).or budget

/-! ### The ADC and the frequency inputs (R297 to R299) -/

/-- The enabled channel converted after channel `last`, round robin. -/
def adcNext (en last : Nat) : Option Nat :=
  ((List.range 16).map (fun k => (last + 1 + k) % 16)).find? (fun i => bit en i)

/-- The next enabled channel is converted to `code` (R297); while the bank calibrates nothing is (R298). -/
def adcConversion (code : Nat) (d : Dev) : Dev :=
  if !d.enabled 0x49 || d.mot.adcCal then d else
  match adcNext (d.get F.ADC_EN_EN) d.mot.adcLast with
  | none => d
  | some i =>
    let cs := (code % 4096 :: cellGet [] d.mot.codes i).take 128
    let avg := d.get (F.ADC_CH_AVG i)
    let w := cs.take (2 ^ avg)
    let s := w.foldl (· + ·) 0
    let v := if avg = 0 then code % 4096
      else if w.length = 2 ^ avg then (s + 2 ^ (avg - 1)) / 2 ^ avg else (s + w.length / 2) / w.length
    let d := { d with mot := { d.mot with codes := cellSet [] d.mot.codes i cs, adcLast := i } }
    ((d.put (F.ADC_DATA_VALUE i) v).put (F.ADC_DATA_STALE i) 0).put (F.ADC_DATA_SEQ i) (d.get (F.ADC_DATA_SEQ i) + 1)

/-- A write of ADC_EN: a channel enabled afresh starts its mean anew (R297). -/
def adcEnWrite (v : Nat) (d : Dev) : Dev :=
  let old := d.get F.ADC_EN_EN
  let d := forL ((bitsOf 16 v).filter (fun i => !bit old i))
    (fun i d => { d with mot := { d.mot with codes := cellSet [] d.mot.codes i [] } }) d
  d.put F.ADC_EN_EN v

/-- A rising edge on FIN[i] (R299): accepted when the input runs at no more than 5 MHz. -/
def finEdge (i : Nat) (d : Dev) : Dev :=
  let es := cellGet [] d.mot.fin i
  let c := d.now / 5
  let ok := match es.head? with
    | some e => decide (e.1 + 40 ≤ c)
    | none => true
  if i < 4 ∧ ok = true then { d with mot := { d.mot with fin := cellSet [] d.mot.fin i ((c, d.beatNum) :: es) } } else d

/-! ### PWM (R308, R309) -/

def Dev.pwmOut (d : Dev) (o : Nat) : Pwm := cellGet {} d.mot.pwm o

def Dev.setPwm (d : Dev) (o : Nat) (x : Pwm) : Dev := { d with mot := { d.mot with pwm := cellSet {} d.mot.pwm o x } }

/-- Output `o` runs: a page that is STOPPING finishes the periods under way (R361). -/
def pwmOn (d : Dev) (o : Nat) : Bool :=
  (d.enabled 0x4A || d.getB (F.PG_STAT_STOPPING 0x4A)) && d.getB (F.PWM_CFG_EN o)

/-- A period of output `o` starts once the one before has run out, and takes PERIOD and DUTY (R308): the ball is high for
the first DUTY cycles, inverted by POL; a stopped output is driven inactive. -/
def pwmPeriodStart (o : Nat) (d : Dev) : Dev :=
  let x := d.pwmOut o
  if 24 ≤ o then d
  else if !(pwmOn d o && d.enabled 0x4A) then d
  else if x.running && decide (d.now < x.since + 5 * x.period) then d
  else
    let period := d.get (F.PWM_PERIOD_PERIOD o)
    let duty := d.get (F.PWM_DUTY_DUTY o)
    let pol := d.getB (F.PWM_CFG_POL o)
    let d := d.setPwm o ⟨true, d.now, period, duty⟩
    let d := if bit (d.reg R.PWR_OE).toNat 6 then d.emit (.pwm o period duty pol) else d
    d.drive .pwm o (b2n ((duty != 0) != pol))

/-- Output `o` is driven inactive. -/
def pwmRest (o : Nat) (d : Dev) : Dev := (d.setPwm o {}).drive .pwm o (b2n (d.getB (F.PWM_CFG_POL o)))

/-- An output that PWM_CFG does not let run is driven inactive. -/
def pwmShow (o : Nat) (d : Dev) : Dev := if pwmOn d o then d else pwmRest o d

/-- POL of output `o` has changed: a running output is inverted at once, its period goes on (R308). -/
def pwmPolarity (o : Nat) (d : Dev) : Dev :=
  let x := d.pwmOut o
  let pol := d.getB (F.PWM_CFG_POL o)
  if !x.running then d else
  let d := if bit (d.reg R.PWR_OE).toNat 6 then d.emit (.pwmPol o pol) else d
  d.drive .pwm o (b2n (decide (d.now < x.since + 5 * x.duty) != pol))

/-- A write of PWM_DUTY[o]: refused while an enabled loop with DEST 1 names the output (R309). -/
def pwmDutyWrite (o v : Nat) (d : Dev) : Dev :=
  if (List.range 32).any (fun l => loopIn d l && d.getB (F.LOOP_CFG_DEST l) && d.get (F.LOOP_CFG_PWM_SEL l) == o) then
    d.refuseAt (R.PWM_DUTY o)
  else d.put (F.PWM_DUTY_DUTY o) v

/-! ### General-purpose pins (R310, R311) -/

/-- Pin `n` is driven. -/
def gpioDriven (d : Dev) (n : Nat) : Bool :=
  d.enabled 0x4C && bit (d.reg R.PWR_OE).toNat 8 && d.getB (F.GPIO_CFG_OE n)

/-- The balls and GPIO_IN follow: a ball is 0 high-impedance, 1 low, 2 high; GPIO_IN reads the ball of a driven pin and
the accepted level of any other. -/
def gpioShow (d : Dev) : Dev :=
  forN 16 (fun n d =>
    let o := bit (d.get F.GPIO_OUT_OUT) n
    let dr := gpioDriven d n
    let d := d.drive .gpio n (if dr then 1 + b2n o else 0)
    let lvl := if dr then o else bit d.mot.gpioIn n
    d.put F.GPIO_IN_IN (setBits (d.get F.GPIO_IN_IN) n 1 (b2n lvl))) d

def gpioOutWrite (v : Nat) (d : Dev) : Dev := gpioShow (d.put F.GPIO_OUT_OUT v)
def gpioSet (v : Nat) (d : Dev) : Dev := gpioShow (d.put F.GPIO_OUT_OUT (d.get F.GPIO_OUT_OUT ||| v % 65536))
def gpioClr (v : Nat) (d : Dev) : Dev := gpioShow (d.put F.GPIO_OUT_OUT (clearBits (d.get F.GPIO_OUT_OUT) (v % 65536)))

/-- A change of pin `n` to `level` is accepted (R311): a driven pin changes only as it is driven. -/
def gpioEdge (n : Nat) (level : Bool) (d : Dev) : Dev :=
  if 16 ≤ n ∨ bit d.mot.gpioIn n = level ∨ (gpioDriven d n && bit (d.get F.GPIO_OUT_OUT) n != level) = true then d
  else
    let d := gpioShow { d with mot := { d.mot with gpioIn := setBits d.mot.gpioIn n 1 (b2n level) } }
    if d.enabled 0x4C && d.getB (if level then F.GPIO_CFG_RISE n else F.GPIO_CFG_FALL n) then d.raise 0x4C n else d

end Sys2Proof.Machine
end

