-- ==== Sys2Proof/Machine/PlanCheck.lean ====
section
/-! DEFINITION. The plan checker (R24 to R26) on the shadow half of page 0x04. -/
namespace Sys2Proof.Machine

/-- A plane as the checker sees it ("Admission", chapter 02). -/
structure PlaneGeom where
  plane : Nat
  /-- Its enabled ports: PLANE_OFS and NCOUNT. -/
  ports : List (Nat × Nat)
  inMode : Nat
  dropBits : Nat
  ovl : Nat
  ovlW : Nat
  fMax : Nat
  deriving DecidableEq, Repr

/-- A field of the PLAN page's shadow half. -/
def planSh (d : Dev) (f : RegField) : Nat := d.get (shadowOf f)

def shPorts (d : Dev) : List Nat := (List.range 32).filter (fun h => planSh d (F.PLAN_HP_A_EN h) == 1)

def shPlanes (d : Dev) : List Nat := (List.range 8).filter (fun p => planSh d (F.PLAN_PLANE_A_EN p) == 1)

def planeGeom (d : Dev) (p : Nat) : PlaneGeom :=
  { plane := p
    ports := ((shPorts d).filter (fun h => planSh d (F.PLAN_HP_A_PLANE h) == p)).map
      (fun h => (planSh d (F.PLAN_HP_B_PLANE_OFS h), planSh d (F.PLAN_HP_A_NCOUNT h)))
    inMode := planSh d (F.PLAN_PLANE_A_IN_MODE p)
    dropBits := planSh d (F.PLAN_PLANE_A_DROP_BITS p)
    ovl := planSh d (F.PLAN_PLANE_A_OVL p)
    ovlW := planSh d (F.PLAN_PLANE_B_OVL_W p)
    fMax := planSh d (F.PLAN_PLANE_A_F_MAX p) }

/-- W_p, N_p and b_p. -/
def PlaneGeom.w (g : PlaneGeom) : Nat := g.ports.foldl (fun a q => max a (q.1 + q.2)) 0
def PlaneGeom.n (g : PlaneGeom) : Nat := g.ports.foldl (fun a q => a + q.2) 0
def PlaneGeom.b (g : PlaneGeom) : Nat := match g.inMode with | 0 => 8 | 1 => 12 | 2 => 2 | _ => 3

/-- L_bg and L_ov of the plane, bytes. -/
def PlaneGeom.lbg (g : PlaneGeom) : Nat := lineBound g.w g.b
def PlaneGeom.lov (g : PlaneGeom) : Nat := g.ovl * (lineBound g.ovlW g.b + ceilDiv g.ovlW 8)

/-- Whether a sample below W_p is covered by no port: some boundary of a port's span, or 0, lies below W_p uncovered. -/
def mapGap (g : PlaneGeom) : Bool :=
  (0 :: g.ports.map (fun q => q.1 + q.2)).any (fun x =>
    decide (x < g.w) && g.ports.all (fun q => decide (x < q.1) || decide (q.1 + q.2 ≤ x)))

/-- Whether three ports cover one sample, or two overlap by more than 512. -/
def mapOverlap (g : PlaneGeom) : Bool :=
  let ix := g.ports.zipIdx
  ix.any (fun a => ix.any (fun b => a.2 != b.2 &&
    decide (512 < min (a.1.1 + a.1.2) (b.1.1 + b.1.2) - max a.1.1 b.1.1))) ||
  g.ports.any (fun a => decide (3 ≤ (g.ports.filter (fun q => decide (q.1 ≤ a.1) && decide (a.1 < q.1 + q.2))).length))

/-- f_lane in force, Mb/s (R236); the DRAM rate in force, MT/s; the active port's rate, Gb/s. -/
def laneRate (d : Dev) : Nat := d.get F.LANES_CFG_RATE_M * 50
def dramRate (d : Dev) : Nat := 3200 + 800 * d.get F.DRAMC_FCHG_RATE
def ethRate (d : Dev) : Nat := if d.getB (F.ETH_CFG_RATE (d.get F.PATH_STAT_ACTIVE)) then 10 else 25

/-- A unit check of R25: the demand and the exact budget as a fraction; the result when it fails. -/
def unitCheck (code inst dem num den : Nat) : Option PlanResult :=
  if 9 * num < 10 * dem * den then some { code := code, inst := inst, demand := dem, budget := num / den } else none

/-- The first failing check of R26 on the shadow half. LOOP_DIV judges the enabled loops only: R26 does not say whether it covers
the others (DESIGN CHOICE, log entry 117). -/
def planFailure (d : Dev) : Option PlanResult :=
  let sh := planSh d
  let ports := shPorts d
  let gs := (shPlanes d).map (planeGeom d)
  let t := if sh F.PLAN_GLOBAL_BEAT_LEN = 1 then 5 else 4
  let cyc := 1000 * t
  let linkNum := 62 * laneRate d * t
  let map (code inst : Nat) : PlanResult := { code := code, inst := inst }
  let cams := (List.range 2).filter (fun c => sh (F.PLAN_CAM_A_EN c) == 1)
  let loops := (List.range 32).filter (fun l => sh (F.PLAN_LOOP_EN l) == 1)
  let camRate (c : Nat) : Nat := sh (F.PLAN_CAM_A_NPIX c) * sh (F.PLAN_CAM_A_NPLANES c) * sh (F.PLAN_CAM_B_F_CAM c)
  let sum (l : List Nat) : Nat := l.foldl (· + ·) 0
  let stayDiff := d.planActive && (sh F.PLAN_GLOBAL_BEAT_LEN != d.get F.PLAN_GLOBAL_BEAT_LEN
    || (d.reg (R.PLAN_STAY + 0x800)) != d.reg R.PLAN_STAY)
  let checks : List (Option PlanResult) := [
    (ports.find? (fun h => !(shPlanes d).contains (sh (F.PLAN_HP_A_PLANE h)))).map (map 1),
    (gs.find? (fun g => g.ports.isEmpty || pitchOf d g.plane == 0)).map (fun g => map 1 (0x80 + g.plane)),
    (ports.find? (fun h => let n := sh (F.PLAN_HP_A_NCOUNT h)
      n == 0 || decide (4096 < n) || decide (131072 < sh (F.PLAN_HP_B_PLANE_OFS h) + n))).map (map 2),
    (gs.find? mapGap).map (fun g => map 3 g.plane),
    (gs.find? mapOverlap).map (fun g => map 4 g.plane),
    (gs.find? (fun g => (g.inMode == 2 && g.dropBits == 1) || (g.inMode == 3 && g.dropBits == 0))).map
      (fun g => map 5 g.plane),
    (cams.find? (fun c => let n := sh (F.PLAN_CAM_A_NPIX c)
      n == 0 || decide (16384 < n) || sh (F.PLAN_CAM_A_NPLANES c) == 0)).map (map 6),
    (loops.find? (fun l => decide (8 < sh (F.PLAN_LOOP_DIV_LOG2 l))
      || decide (2 ^ sh (F.PLAN_LOOP_DIV_LOG2 l) ≤ sh (F.PLAN_LOOP_PHASE l)))).map (map 7),
    if decide (sh F.PLAN_STAY_RING_SIZE < sh F.PLAN_STAY_RING_POS)
      || (sh F.PLAN_STAY_PUBLISHER == 1 && sh F.PLAN_STAY_EN == 0) then some (map 8 0) else none,
    if stayDiff then some (map 9 0) else none,
    (gs.find? (fun g => g.fMax == 0 || decide (160000 < g.fMax))).map
      (fun g => { code := 10, inst := g.plane, demand := g.fMax, budget := 160000 }),
    unitCheck 0x10 0 (2112 * ceilDiv (sum (gs.map (fun g => ceilDiv g.w 2048 + g.ovl * ceilDiv g.ovlW 2048))) 64) cyc 1,
    unitCheck 0x11 0 (sum (gs.map (fun g => ceilDiv g.w 64 + 32))) cyc 1,
    unitCheck 0x12 0 (sum (gs.map (fun g => ceilDiv g.n 64 + 40))) cyc 1,
    unitCheck 0x13 0 (sum (gs.map (fun g => ceilDiv g.n 64 + 56))) cyc 1,
    ports.findSome? (fun h =>
      let dw := 2 + sh (F.PLAN_PLANE_A_DROP_BITS (sh (F.PLAN_HP_A_PLANE h)))
      unitCheck 0x14 h (sh (F.PLAN_HP_A_NCOUNT h) * dw + 256 + sh (F.PLAN_HP_A_WAVE_EN h) * (1200 * t + 128) + 1024)
        linkNum 32),
    unitCheck 0x15 0 (ceilDiv ((sum (gs.map (fun g => g.fMax * (g.lbg + g.lov)))
        + sum (cams.map (fun c => sh (F.PLAN_CAM_A_TAP c) * 2 * camRate c))) * t) 1000000
        + ethRate d * 125 * t + 1000 * t + 256) (dramRate d * t * 32) 5,
    unitCheck 0x16 0 (ceilDiv (sum (cams.map camRate) * t) 1000000) (4000 * t) 1,
    unitCheck 0x17 0 (16 + 26 * loopPeak (loops.map (fun l => (2 ^ sh (F.PLAN_LOOP_DIV_LOG2 l), sh (F.PLAN_LOOP_PHASE l)))))
      (200 * t) 1,
    unitCheck 0x18 0 (if sh F.PLAN_STAY_EN = 1 then (sh F.PLAN_STAY_RING_SIZE + 1) * (384 + 96 * sh F.PLAN_STAY_VMAX) + 256
      else 0) linkNum 32]
  checks.findSome? id

/-- The checker's whole result, with the ingress advisory (R24, R25). -/
def planCheck (d : Dev) : PlanResult :=
  let a := ((shPlanes d).map (planeGeom d)).foldl (fun s g => s + g.ovl * g.fMax * g.lov * 8) 0
  { (planFailure d).getD {} with
    adv := ceilDiv a 1000000
    advisory := decide (9 * ethRate d * 1000000000 < 10 * a) }

/-- PLAN_CHK, PLAN_DEMAND, PLAN_BUDGET and PLAN_ADV show the result (R26). -/
def planPublish (r : PlanResult) (d : Dev) : Dev :=
  let d := ((d.put F.PLAN_CHK_CODE r.code).put F.PLAN_CHK_UNIT_INST r.inst).putB F.PLAN_CHK_ADVISORY r.advisory
  let d := (d.put F.PLAN_CHK_BUSY 0).put F.PLAN_DEMAND_DEMAND (min r.demand (2 ^ 32 - 1))
  (d.put F.PLAN_BUDGET_BUDGET (min r.budget (2 ^ 32 - 1))).put F.PLAN_ADV_ADV (min r.adv (2 ^ 32 - 1))

end Sys2Proof.Machine
end

