-- ==== Sys2Proof/Machine/Store.lean ====
section
/-! DEFINITION. The job store (chapter 08): the stream table, fill and drain marks, the copy-order ring, and the STORE
commands. -/
namespace Sys2Proof.Machine

/-- Data words of a message (R106): each word most significant byte first becomes little-endian bytes. -/
def wordsLe : Nat → List Byte → List Byte
  | 0, _ => []
  | f + 1, bs => if bs.isEmpty then [] else (bs.take 4).reverse ++ wordsLe f (bs.drop 4)

/-- JTP masters of R369. -/
def mJtpBulk : Nat := 4
def mJtpRemote : Nat := 5
def mJtpRings : Nat := 6

/-- Rejection reasons of R114. -/
def rejRange : Nat := 2
def rejFormat : Nat := 3
def rejState : Nat := 4

/-! ### The stream table -/

def Dev.stream (d : Dev) (i : Nat) : Stream := cellGet {} d.streams i

def Dev.setStream (d : Dev) (i : Nat) (s : Stream) : Dev := { d with streams := cellSet {} d.streams i s }

/-- Byte address and byte size of a stream's region (R160). -/
def streamBase (s : Stream) : Nat := s.base * 4096
def streamCap (s : Stream) : Nat := s.size * 4096

/-- The streams that a configuration of page 0x0F selects for plane `p`; `ovl` says that overlays take effect (R163). -/
def layerStreams (f : RegField → Nat) (ovl : Bool) (p : Nat) : List Nat :=
  (if f (F.LAYER_BG_EN p) != 0 then [f (F.LAYER_BG_STREAM p)] else []) ++
  (if ovl then [f (F.LAYER_OV_VAL_STREAM p), f (F.LAYER_OV_MASK_STREAM p)] else [])

/-- Whether page `p` has an armed commit. -/
def isArmed (d : Dev) (p : Nat) : Bool := (cellGet none d.armed p).isSome

/-- Whether stream `i` is in use (R163). -/
def streamInUse (d : Dev) (i : Nat) : Bool :=
  (List.range 8).any (fun p =>
    let ovl := d.getB (F.PLAN_PLANE_A_OVL p) || d.getB (shadowOf (F.PLAN_PLANE_A_OVL p))
    (layerStreams d.get ovl p).contains i ||
    (isArmed d 0x0F && (layerStreams (fun f => d.get (shadowOf f)) ovl p).contains i) ||
    (d.planActive &&
      (let o := ordOfLine d p (d.plane p).next
       let old := (d.versions.find? (fun v => decide (v.ord ≤ o))).toList
       let vs := d.versions.filter (fun v => decide (o < v.ord)) ++ old
       vs.any (fun v => (layerStreams (cfgGet v.cfg) (ovl || cfgGetB v.cfg (F.PLAN_PLANE_A_OVL p)) p).contains i))))

/-- STORE_SDATA[k] of the selected stream, as read (R160). -/
def sdataRead (d : Dev) (k : Nat) : Nat :=
  let s := d.stream (d.get F.STORE_SIDX_IDX)
  match k with
  | 0 => s.base
  | 1 => s.size + s.kind * 2 ^ 20 + s.plane * 2 ^ 22 + b2n s.ring * 2 ^ 25 + b2n s.en * 2 ^ 26 + b2n s.err * 2 ^ 27
      + b2n s.failed * 2 ^ 28
  | 2 => s.fill
  | _ => if s.ring then s.drain else 0

/-- A write of STORE_SDATA[k] of the selected stream: refused while it is in use, or with SIZE 0 (R160, R163, R458). The
reserved KIND 3 is stored like any other value: the stream then fits no layer (DESIGN CHOICE, log entry 100). -/
def sdataWrite (k v : Nat) (d : Dev) : Dev :=
  if 1 < k then d else
  let i := d.get F.STORE_SIDX_IDX
  let s := d.stream i
  if streamInUse d i then d.refuseAt (R.STORE_SDATA0 + 4 * k)
  else if k = 0 then d.setStream i { s with base := v % 2 ^ 28 }
  else if v % 2 ^ 20 = 0 then d.refuseAt R.STORE_SDATA1
  else d.setStream i { s with size := v % 2 ^ 20, kind := bits v 20 2, plane := bits v 22 3, ring := bit v 25, en := bit v 26 }

/-- Snapshot `c` with the fill mark of stream `i` as it now stands. -/
def Snap.setFill (d : Dev) (i : Nat) (c : Snap) : Snap :=
  let x := d.stream i
  { c with fills := cellSet (0, 0) c.fills i (x.fill, x.drained + x.held) }

/-- Firmware moves the fill mark of stream `i`: a switchover does not undo it (R95). -/
def snapFill (i : Nat) (d : Dev) : Dev :=
  { d with path := { d.path with cur := d.path.cur.map (Snap.setFill d i), coming := d.path.coming.map (Snap.setFill d i) } }

/-- STORE_CTL.RESET (R163). -/
def storeStreamReset (d : Dev) : Dev :=
  let i := d.get F.STORE_SIDX_IDX
  if streamInUse d i then d.refuseAt R.STORE_CTL
  else snapFill i (d.setStream i { d.stream i with fill := 0, drain := 0, held := 0, err := false })

/-- STORE_CTL.REWIND acts while FAILED is set; otherwise it is refused (R176). -/
def storeStreamRewind (d : Dev) : Dev :=
  let i := d.get F.STORE_SIDX_IDX
  let s := d.stream i
  if !s.failed then d.refuseAt R.STORE_CTL else
  let cap := max 1 (streamCap s)
  snapFill i (d.setStream i { s with
    failed := false, fill := s.sfail, held := if s.ring then (s.sfail + cap - s.drain % cap) % cap else s.held })

/-- STORE_CTL.REISSUE (R177). -/
def storeReissue (m : Nat) (d : Dev) : Dev :=
  forL (bitsOf 8 m) (fun p d =>
    if holdsCause d p causeDecode then d.setPlane p { d.plane p with reissued := true } else d) d

/-- STORE_CTL.SEAM: cause 9 (R177). -/
def storeSeam (m : Nat) (d : Dev) : Dev :=
  forL (bitsOf 8 m) (fun p d => if (activePlanes d).contains p then seamStopNext p causeFirmware d else d) d

/-- STORE_CTL.SEAM_CLR (R177). -/
def storeSeamClr (m : Nat) (d : Dev) : Dev := forL (bitsOf 8 m) (fun p d => seamClear p causeFirmware d) d

/-! ### Layer segments -/

/-- The checks of a LAYER_SEGMENT of `n` bytes at `addr` in the window [wb, wb + ws): 0, or the reason of its rejection
(R127, R161). -/
def layerCheck (d : Dev) (wb ws addr i kind plane copy n : Nat) : Nat :=
  if addr < wb ∨ wb + ws < addr + n then rejRange
  else if 255 < i then rejFormat
  else
    let s := d.stream i
    if !s.en then rejState
    else if kind ≠ s.kind ∨ plane ≠ s.plane ∨ (kind = 0 ∧ copy ≠ 0xFFFFFFFF) ∨ (kind ≠ 0 ∧ copy = 0xFFFFFFFF) then rejFormat
    else if addr < streamBase s ∨ streamBase s + streamCap s < addr + n then rejRange
    else
      let o := addr - streamBase s
      let cap := max 1 (streamCap s)
      if s.ring then
        (if s.held ≠ 0 ∧ streamCap s - s.held < (o + cap - s.fill % cap) % cap + n then rejState else 0)
      else if streamInUse d i && decide (o < s.fill) then rejState else 0

/-- CUM passes a LAYER_SEGMENT of stream `i` that carries COPY `copy`: its fill mark advances and COPY is recorded (R161), or
an order error is set (R162). -/
def fillAdvance (i addr copy n : Nat) (d : Dev) : Dev :=
  let s := d.stream i
  if addr = streamBase s + s.fill then
    let f := s.fill + n
    d.setStream i { s with fill := if s.ring && f == streamCap s then 0 else f, held := s.held + n, copy := copy }
  else (d.setStream i { s with err := true }).raise 0x0E 0

/-! ### The copy-order ring -/

def corBase (d : Dev) : Nat := d.get2 F.STORE_COR_BASE_LO_BASE F.STORE_COR_BASE_HI_BASE

/-- Whether the descriptor in `slot` belongs to a captured epoch not yet launched on every plane (R166). -/
def slotBusy (d : Dev) (slot : Nat) : Bool :=
  d.planActive && d.copies.any (fun c =>
    c.2.desc.repeat_ != 0 && epochNumber d c.1 % 65536 == slot
      && !(cfgPlanes (cfgFor d c.1)).all (fun p => bit c.2.done p))

/-- The checks of a COPY_ORDER: 0 or the reason (R128, R166). -/
def copyOrderCheck (d : Dev) (first count len : Nat) : Nat :=
  if 65535 < first then rejRange
  else if count = 0 ∨ 287 < count ∨ len ≠ 8 + 32 * count then rejFormat
  else if (List.range count).any (fun k => slotBusy d ((first + k) % 65536)) then rejState
  else 0

/-- The slots of an accepted COPY_ORDER await CUM (R166). -/
def copyOrderPending (first count : Nat) (d : Dev) : Dev :=
  forN count (fun k d =>
    let s := (first + k) % 65536
    { d with corPending := cellSet 0 d.corPending s (cellGet 0 d.corPending s + 1) }) d

/-- CUM passes a COPY_ORDER (R164, R166). -/
def copyOrderPassed (first count : Nat) (d : Dev) : Dev :=
  let d := forN count (fun k d =>
    let s := (first + k) % 65536
    { d with corPending := cellSet 0 d.corPending s (cellGet 0 d.corPending s - 1) }) d
  d.put F.STORE_COR_FILL_FILL (first + count)

end Sys2Proof.Machine
end

