-- ==== Sys2Proof/Machine/Commit.lean ====
section
/-! DEFINITION. Commits and epochs: what applying a commit does, arming, the cut-off and plan activation (R23, R28 to R33,
R130, R433 to R438). -/
namespace Sys2Proof.Machine

/-! ### Status (R438) -/

def stNone : Nat := 0
def stArmed : Nat := 1
def stApplied : Nat := 2
def stCancelled : Nat := 3
def stReplaced : Nat := 4
def stModeRefused : Nat := 5
def stMissed : Nat := 6
def stInvalid : Nat := 7
def stPlanRefused : Nat := 8
def stCancelRefused : Nat := 9

/-- Set STATUS of page `p`: APPLIED and the refusals set their PG_EVT bits (R438). -/
def commitStatus (p st : Nat) (d : Dev) : Dev :=
  let d := d.put (F.PG_COMMIT_STAT_STATUS p) st
  if st = stApplied then d.raiseBits p 2 else if 5 ≤ st then d.raiseBits p 4 else d

def commitEpoch (p e : Nat) (d : Dev) : Dev := d.put (F.PG_COMMIT_STAT_EPOCH_LO p) e

/-- MODE and SOURCE of the last arming write. -/
def commitMode (p mode source : Nat) (d : Dev) : Dev :=
  (d.put (F.PG_COMMIT_STAT_MODE p) mode).put (F.PG_COMMIT_STAT_SOURCE p) source

def disarm (p : Nat) (d : Dev) : Dev := { d with armed := cellSet none d.armed p none }

/-- A commit armed on page `p` gives way to a new one: its status is REPLACED until that of its successor follows (R435, R438). -/
def replaceArmed (p : Nat) (d : Dev) : Dev := if isArmed d p then commitStatus p stReplaced (disarm p d) else d

/-! ### Shadow and live halves (R432, R433) -/

/-- The RWS bits of the register at live byte offset `a`. -/
def rwsMask (a : Nat) : Nat := ((regDesc (a / 0x1000) (a % 0x1000)).map (fun r => r.rws)).getD 0

/-- The shadow values of page `p` by live byte offset, RWS bits only, where they differ from reset. -/
def shadowWords (d : Dev) (p : Nat) : Cells Word :=
  (d.regs.filter (fun c => c.1 / 0x1000 == p && decide (0x840 ≤ c.1 % 0x1000) && rwsMask (c.1 - 0x800) != 0)).map
    (fun c => (c.1 - 0x800, d.reg c.1 &&& BitVec.ofNat 32 (rwsMask (c.1 - 0x800))))

/-- `dst` with page `p` replaced by `src`'s page `p`. -/
def replacePage (p : Nat) (src dst : Cells Word) : Cells Word :=
  forL (src.filter (fun c => c.1 / 0x1000 == p)).reverse (fun c m => cellSet (resetWord c.1) m c.1 c.2)
    (dst.filter (fun c => c.1 / 0x1000 != p))

/-- The live half of page `p` takes the RWS values `src`. -/
def installLive (p : Nat) (src : Cells Word) (d : Dev) : Dev :=
  let mine := src.filter (fun c => c.1 / 0x1000 == p)
  let listed := (d.regs.filter (fun c => c.1 / 0x1000 == p && decide (c.1 % 0x1000 < 0x800) && rwsMask c.1 != 0)).map
    (fun c => c.1)
  forL (mine.map (fun c => c.1) ++ listed) (fun a d =>
    let m := BitVec.ofNat 32 (rwsMask a)
    d.setReg a ((d.reg a &&& ~~~m) ||| (cellGet (resetWord a) mine a &&& m))) d

/-- `d` with the shadow halves `s`. -/
def withShadows (s : Shadows) (d : Dev) : Dev :=
  { d with
    regs := forL s.regs.reverse (fun c m => cellSet (resetWord c.1) m c.1 c.2) (d.regs.filter (fun c => decide (c.1 % 0x1000 < 0x800)))
    nozSh := s.noz, tileSh := s.tile, waveSh := s.wave, ftrimSh := s.ftrim, dtrimSh := s.dtrim, passWritten := s.pass
    mot := { d.mot with coefSh := s.coef }
    insp := { d.insp with shdSh := s.shd, mapSh := s.map } }

/-- A capture `f` at a boundary: the writes of its own cycle are not part of it (R437). -/
def atCapture (f : Dev → Dev) (d : Dev) : Dev :=
  if d.shAt = d.now / 2 + 1 then
    let e := f (withShadows d.shOld d)
    withShadows { shadowsOf d with pass := e.passWritten || (d.passWritten && !d.shOld.pass) } e
  else f d

/-- The fire-stream configuration with the shadow halves of `pages` taken over (R31). -/
def takeShadows (d : Dev) (pages : List Nat) (c : FireCfg) : FireCfg :=
  let c := forL (pages.filter pageFire) (fun p c => { c with regs := replacePage p (shadowWords d p) c.regs }) c
  { c with
    noz := if pages.contains 0x12 then d.nozSh else c.noz
    tile := if pages.contains 0x11 then d.tileSh else c.tile
    wave := if pages.contains 0x14 then d.waveSh else c.wave
    ftrim := if pages.contains 0x5B then d.ftrimSh else c.ftrim
    dtrim := if pages.contains 0x5B then d.dtrimSh else c.dtrim }

/-- Ports whose waveform tables differ between two configurations (R224). -/
def waveChanged (a b : FireCfg) : Nat :=
  let cut (c : FireCfg) (h : Nat) : Cells Word := c.wave.filter (fun e => e.1 / 1024 == h)
  ((List.range 32).filter (fun h => cut a h != cut b h)).foldl setBit 0

/-- Whether the exposure set of port `c` differs between two devices (R275). -/
def exposureChanged (d e : Dev) (c : Nat) : Bool :=
  d.get (F.EXP_WIDTH_WIDTH c) != e.get (F.EXP_WIDTH_WIDTH c) ||
  (List.range 4).any (fun i => d.reg (R.EXP_CAMREG_A c i) != e.reg (R.EXP_CAMREG_A c i)
    || d.reg (R.EXP_CAMREG_V c i) != e.reg (R.EXP_CAMREG_V c i))

/-- A commit of page `p`, not a fire-stream page, applies: its live half and tables take the shadow's values (R84, R272,
R275, R305, R433). -/
def applyPlain (p : Nat) (d : Dev) : Dev :=
  let e := installLive p (shadowWords d p) d
  match p with
  | 0x09 => tpApply e
  | 0x43 => inspectApply e
  | 0x46 => forN 2 (fun c x => if exposureChanged d e c then exposureApply c x else x) e
  | 0x48 => { e with mot := { e.mot with coefLive := e.mot.coefSh } }
  | _ => e

/-- The live halves of every fire-stream page show the configuration `v`; `n` is the newest epoch that has entered stage 2, plus
1, or 0 (R433). -/
def showVersion (n : Nat) (v : Version) (d : Dev) : Dev :=
  let pages := (List.range 0x60).filter (fun p => pageListed p && pageFire p && pageShadow p)
  let d := forL pages (fun p d => installLive p v.cfg.regs d) d
  passShow { d with liveOrd := n, planJob := v.job }

/-- The first line of epoch `ord` has entered stage 2 (R433). -/
def showLive (ord : Nat) (d : Dev) : Dev := showVersion (ord + 1) (cfgVersion d ord) d

/-- No line has entered stage 2 under a plan: the live halves show the newest configuration (R32, R433). -/
def showNewest (d : Dev) : Dev := showVersion 0 (d.versions.headD {}) d

/-! ### Applying -/

/-- The COMMIT record of `pages` (R34, R211). -/
def commitRecord (pages : List Nat) (epoch source : Nat) (d : Dev) : Dev :=
  let w (k : Nat) : Nat := (pages.filter (fun p => p / 32 == k)).foldl (fun a p => setBit a (p % 32)) 0
  let body := leBytes 4 0 ++ leBytes 4 (w 0) ++ leBytes 4 (w 1) ++ leBytes 4 (w 2) ++ leBytes 4 (w 3) ++ leBytes 1 source
  plogWrite 0x02 0xFF epoch body d

/-- The next configuration: `pages` captured for epoch `ord` (R31, R203, R224). -/
def nextVersion (d : Dev) (pages : List Nat) (ord job : Nat) : Version :=
  let v := d.versions.headD {}
  let c := takeShadows d pages v.cfg
  { ord := ord
    cfg := c
    passBase := if pages.contains 0x11 && d.passWritten then ord else v.passBase
    job := if pages.contains 0x04 then job else v.job
    plan := pages.contains 0x04
    wset := if pages.contains 0x14 then Nat.xor v.wset (waveChanged v.cfg c) else v.wset }

/-- What follows a new configuration at once: WSET toggles and the new schedules are due (R224), the pass programme's
write is taken (R203), and the verdicts written into page 0x12 are captured with it (R293). -/
def versionTaken (pages : List Nat) (d : Dev) : Dev :=
  match d.versions with
  | v :: u :: _ =>
    let m := if pages.contains 0x14 then waveChanged u.cfg v.cfg else 0
    let d := forL pages ueCaptured (d.put F.WAVE_WSET_WSET v.wset)
    { d with
      schedDue := d.schedDue ||| m
      passWritten := d.passWritten && !pages.contains 0x11
      insp := { d.insp with vrdDirty := d.insp.vrdDirty && !pages.contains 0x12 } }
  | _ => d

/-- A plan activates with no plan active before it (R32): lines and copies start afresh, a fresh START goes to the
bound ports, published position is monitored from now (R61), and planes whose source or heads are not fit stop at once (R56,
R229, R247). -/
def planActivate (d : Dev) : Dev :=
  let e0 := d.get F.PLAN_EPOCH0_EPOCH0
  let planes : Cells Plane := (List.range 8).foldl (fun m p => cellSet {} m p { delta := (d.plane p).delta }) []
  let d := { d with
    epoch0 := e0
    cutoffDone := 0
    stopMode := 0
    stopOrd := 0
    copies := []
    planes := planes
    planeLive := []
    versions := (d.versions.take 1).map (fun (v : Version) => { v with ord := 0, passBase := 0, plan := true }) }
  let d := (((d.put F.EPOCH_NOW_EPOCH e0).put F.PLAN_CHK_ACTIVE 1).put F.SCR_PASS_STAT_PASS 0).put F.SCR_PASS_STAT_REV 0
  let d := forN 8 (fun p d => (d.put (F.STORE_SEAM_STAT_STATE p) seamRun).put (F.STORE_SEAM_STAT_CAUSES p) 0) d
  let d := vencRestart (camsActivate (startBound d))
  let d := headActivate (d.versions.headD {}).cfg d
  memberRebase (planesAnswer (vencRepublish d))

/-- A commit of `pages` applies at once (R28 IMMEDIATE and NEXT_BEAT, R32). -/
def applyGroup (pages : List Nat) (mode source job : Nat) (d : Dev) : Dev :=
  let fire := pages.filter pageFire
  let plan := pages.contains 0x04
  let d := forL pages disarm d
  let d := if fire.isEmpty then d else
    let d := { d with versions := nextVersion d fire 0 job :: d.versions }
    let d := versionTaken fire d
    showNewest { d with versions := d.versions.take 1 }
  let d := forL (pages.filter (fun p => !pageFire p)) applyPlain d
  let e := if plan then d.get F.PLAN_EPOCH0_EPOCH0 else d.get F.EPOCH_NOW_EPOCH
  let d := if mode = 3 then commitRecord pages e source d else d
  let d := forL pages (fun p d => commitStatus p stApplied (if mode = 3 then commitEpoch p e d else d)) d
  if plan then planActivate d else d

/-! ### The cut-off (R30, R31) -/

/-- Pages whose armed AT_EPOCH commit meets the cut-off of epoch `ord`, with their source. -/
def dueAt (d : Dev) (ord : Nat) : List (Nat × Armed) :=
  d.armed.filterMap (fun e => match e.2 with
    | some a => if a.mode == 3 && (match a.target with
        | none => true
        | some t => t == epochNumber d ord) then some (e.1, a) else none
    | none => none)

/-- The first configuration after epoch `o` that enables plane `p`, of those captured. -/
def nextEnabled (d : Dev) (p o : Nat) : Option Version :=
  (d.versions.filter (fun v => decide (o < v.ord) && cfgGetB v.cfg (F.PLAN_PLANE_A_EN p))).getLast?

/-- Plane `p` has no line left under the plans that enable it, and a later captured plan enables it again: it starts at that
plan's first line, where its heads are found fit or not (R33, R229). A plane that still owes lines of an earlier epoch
finishes them first. -/
def planeJump (p : Nat) (d : Dev) : Dev :=
  let x := d.plane p
  let o := ordOfLine d p x.next
  if cfgGetB (cfgFor d o) (F.PLAN_PLANE_A_EN p) then d else
  match nextEnabled d p o with
  | none => d
  | some v =>
    let n := firstLine d v.ord p
    let d := d.setPlane p { ({} : Plane) with
      delta := x.delta, cursor := n, issue := n, next := n, resume := n, dec := { line := n } }
    headActivatePlane v.cfg p n d

/-- The commits `due` at the cut-off of epoch `ord` are captured and apply (R31). -/
def capture (ord : Nat) (due : List (Nat × Armed)) (d : Dev) : Dev :=
  let pages := due.map (fun e => e.1)
  let e := epochNumber d ord
  let fire := pages.filter pageFire
  let job := ((due.find? (fun x => x.1 == 0x04)).map (fun x => x.2.job)).getD 0
  let d := forL pages disarm d
  let d := if fire.isEmpty then d else
    let d := versionTaken fire { d with versions := nextVersion d fire ord job :: d.versions }
    if fire.contains 0x04 then forN 8 planeJump d else d
  let d := forL (pages.filter (fun p => !pageFire p)) applyPlain d
  let d := forN 3 (fun src d =>
    let ps := (due.filter (fun x => x.2.source == src)).map (fun x => x.1)
    if ps.isEmpty then d else commitRecord ps e src d) d
  forL pages (fun p d => commitStatus p stApplied (commitEpoch p e d)) d

/-- The cut-off of epoch `ord` passes: every page whose commit meets it is captured and its commit applies (R31, R437). -/
def cutoff (ord : Nat) (d : Dev) : Dev :=
  let d := { d with cutoffDone := ord + 1 }
  if (dueAt d ord).isEmpty then d else atCapture (capture ord (dueAt d ord)) d

/-! ### Arming -/

/-- Whether the cut-off of epoch number `t` has passed, or `t` lies outside the window (R30, R456). -/
def cutoffPassed (d : Dev) (t : Nat) : Bool :=
  let now := d.get F.EPOCH_NOW_EPOCH
  (t != now && !precedes now t) || decide (ordNow d + (t + 2 ^ 32 - now) % 2 ^ 32 < d.cutoffDone)

/-- The epoch that TARGET selects: bits [29:0] taken around EPOCH_NOW (R434). -/
def resolveTarget (d : Dev) (t : Nat) : Nat :=
  let now := d.get F.EPOCH_NOW_EPOCH
  ofSigned 32 ((now : Int) + toSigned 30 ((t + 2 ^ 30 - now % 2 ^ 30) % 2 ^ 30))

/-- The arming check of a page other than 0x04: instance, code and segment of its refusal (R83, R221, R306). -/
def armCheck (p : Nat) (d : Dev) : Option (Nat × Nat × Nat) :=
  match p with
  | 0x09 => (tpulseCheck d).map (fun r => (r.2, r.1, 0))
  | 0x14 => (waveCheck d).map (fun r => (r.2.1, r.1, r.2.2))
  | 0x48 => (loopCheck d).map (fun r => (r.2, r.1, 0))
  | _ => none

/-- A refusal by the arming check of page `p` is recorded (R221, R306, R438). -/
def checkRefused (p : Nat) (r : Nat × Nat × Nat) (d : Dev) : Dev :=
  let d := match p with
    | 0x14 => ((d.put F.WAVE_CHK_CODE r.2.1).put F.WAVE_CHK_INST r.1).put F.WAVE_CHK_SEG r.2.2
    | 0x48 => (d.put F.LOOP_CHK_CODE r.2.1).put F.LOOP_CHK_LOOP r.1
    | _ => d
  commitStatus p stInvalid d

/-- Arm `pages` together, or apply them at once; true when their cut-off has passed (R28, R30, R32, R435). -/
def armPages (pages : List Nat) (mode : Nat) (target : Option Nat) (source job : Nat) (d : Dev) : Bool × Dev :=
  if mode = 1 ∨ (mode = 3 ∧ d.planActive = false) then (false, applyGroup pages mode source job (forL pages replaceArmed d))
  else
    let missed := match target with
      | some t => mode == 3 && cutoffPassed d t
      | none => false
    if missed then
      (true, forL pages (fun p d => commitStatus p stMissed (commitEpoch p (target.getD 0) d)) d)
    else
      (false, forL pages (fun p d =>
        let d := replaceArmed p d
        let d := { d with armed := cellSet none d.armed p (some { mode := mode, target := target, source := source, job := job, at_ := d.now }) }
        let d := match target with
          | some t => if mode = 3 then commitEpoch p t d else d
          | none => d
        commitStatus p stArmed d) d)

/-- PG_COMMIT mode CANCEL (R28). It arms nothing, so MODE and SOURCE stay those of the last arming write (R438). -/
def commitCancel (p : Nat) (d : Dev) : Dev :=
  if isArmed d p then commitStatus p stCancelled (disarm p d) else commitStatus p stCancelRefused d

/-- An arming write of page `p` (R23, R28, R29, R435): modes refused, checks made, then armed or applied. The plan checker
takes until PLAN_CHECK_DONE. -/
def commitArm (p mode : Nat) (target : Option Nat) (source : Nat) (d : Dev) : Dev :=
  let d := commitMode p mode source d
  if (mode = 1 ∨ mode = 2) ∧ (p = 0x04 ∨ (pageFire p && d.planActive) = true) then commitStatus p stModeRefused d
  else if p = 0x04 then
    { (d.put F.PLAN_CHK_BUSY 1).put (F.PG_COMMIT_STAT_CHECKING 0x04) 1 with
      planCheck := some { target := target, source := source, job := 0, pages := [0x04], result := planCheck d,
                          other := none, reply := none } }
  else match armCheck p d with
    | some r => checkRefused p r d
    | none => (armPages [p] mode target source 0 d).2

/-- A write of PG_COMMIT (R434 to R436). -/
def pgCommitWrite (p mode target : Nat) (d : Dev) : Dev :=
  if !pageShadow p then d
  else if d.getB (F.PG_COMMIT_STAT_CHECKING p) then d.pgFault p faultCommitBusy 0x20
  else match mode % 4 with
    | 0 => commitCancel p d
    | 1 => commitArm p 1 none 0 d
    | 2 => commitArm p 2 none 0 d
    | _ => commitArm p 3 (if target % 2 ^ 30 = 0 then none else some (resolveTarget d target)) 0 d

/-- What PG_COMMIT reads: the commit armed, or 0 (R434). -/
def pgCommitRead (d : Dev) (p : Nat) : Nat :=
  match cellGet none d.armed p with
  | some a => a.mode + (a.target.getD 0) % 2 ^ 30 * 4
  | none => 0

/-- An answer to EPOCH_COMMIT: STATUS, PAGE, PLAN_CODE, UNIT_INST, DEMAND and BUDGET (R130). -/
structure CommitAnswer where
  status : Nat
  page : Nat := 0
  code : Nat := 0
  inst : Nat := 0
  demand : Nat := 0
  budget : Nat := 0
  deriving DecidableEq, Repr

/-- The checker finishes (R24): the commit is armed, with every page armed together with it, or refused. The answer is for
the EPOCH_COMMIT that waits for it, with its session and SEQ. A plan whose cut-off passed while the check ran has missed it: R30
does not say whether the arming write's response or the checker's acceptance counts (DESIGN CHOICE, log entry 117). -/
def planCheckDone (d : Dev) : Option (Nat × Nat × CommitAnswer) × Dev :=
  match d.planCheck with
  | none => (none, d)
  | some c =>
    let d := { planPublish c.result (d.put (F.PG_COMMIT_STAT_CHECKING 0x04) 0) with planCheck := none }
    let ans (a : CommitAnswer) : Option (Nat × Nat × CommitAnswer) := c.reply.map (fun r => (r.1, r.2, a))
    if c.result.code ≠ 0 then
      let r := c.result
      (ans { status := 1, page := 0x04, code := r.code, inst := r.inst, demand := r.demand, budget := r.budget },
        commitStatus 0x04 stPlanRefused d)
    else match c.other with
      | some (p, inst, code, seg) =>
        (ans { status := 1, page := p, inst := inst, demand := code, budget := seg }, checkRefused p (inst, code, seg) d)
      | none =>
        let r := armPages c.pages 3 c.target c.source c.job d
        (ans { status := if r.1 then 2 else 0 }, r.2)

/-- EPOCH_COMMIT is performed (R130): the answer, unless the plan checker runs first. -/
def epochCommit (pages : List Nat) (target job : Nat) (reply : Nat × Nat) (d : Dev) : Option CommitAnswer × Dev :=
  let t := if target = 0 then none else some target
  match pages.find? (fun p => !pageListed p || !pageShadow p) with
  | some p => (some { status := 3, page := p }, d)
  | none =>
    let d := forL pages (fun p d => commitMode p 3 1 d) d
    if d.planActive && (match t with
        | some t => cutoffPassed d t
        | none => false) then
      (some { status := 2 }, forL pages (fun p d => commitStatus p stMissed (commitEpoch p target d)) d)
    else
      let other := pages.findSome? (fun p => (armCheck p d).map (fun r => (p, r.1, r.2.1, r.2.2)))
      if pages.contains 0x04 then
        let res := planCheck d
        (none, { (d.put F.PLAN_CHK_BUSY 1).put (F.PG_COMMIT_STAT_CHECKING 0x04) 1 with
          planCheck := some { target := t, source := 1, job := job, pages := pages, result := res
                              other := if res.code = 0 then other else none, reply := some reply } })
      else match other with
        | some (p, inst, code, seg) =>
          (some { status := 1, page := p, inst := inst, demand := code, budget := seg }, checkRefused p (inst, code, seg) d)
        | none =>
          let r := armPages pages 3 t 1 job d
          (some { status := if r.1 then 2 else 0 }, r.2)

/-! ### At a beat boundary -/

/-- NEXT_BEAT commits armed at least 100 ns ago apply (R28). One of a fire-stream page that was armed before a plan activated
and is due at a boundary of that plan applies there all the same, for every epoch of the plan: R29 refuses only arming it
(DESIGN CHOICE, log entry 107). -/
def nextBeatApply (d : Dev) : Dev :=
  let due := d.armed.filterMap (fun e => match e.2 with
    | some a => if a.mode == 2 && decide (a.at_ + 100 ≤ d.now) then some (e.1, a.source) else none
    | none => none)
  if due.isEmpty then d else atCapture (fun d => forL due (fun e d => applyGroup [e.1] 2 e.2 0 d) d) d

/-- VERDICT arms its commit of page 0x12 (R293). -/
def verdictArm (d : Dev) : Dev :=
  if d.insp.vrdDirty && d.getB F.VRD_CFG_AUTO && !d.getB F.VRD_CTL_HOLD then
    let d := { d with insp := { d.insp with vrdDirty := false } }
    if isArmed d 0x12 then d else commitArm 0x12 3 none 2 d
  else d

/-- The schedules captured in the beat before are sent in their new sets (R224). -/
def scheduleSend (d : Dev) : Dev :=
  let v := d.versions.headD {}
  let d := forL (bitsOf 32 d.schedDue) (fun h d =>
    if (d.link h).up then queueSchedule v.cfg h (b2n (bit v.wset h)) d else d) d
  { d with schedDue := 0 }

end Sys2Proof.Machine
end

