-- ==== Sys2Proof/Machine/Wire.lean ====
section
/-! DEFINITION. Ethernet frames, IP and UDP, and the JTP message format (R86, R89, R104, R107, R109, R119): taking them
apart and putting them together. A frame is its bytes from the destination address up to, and without, the FCS. -/
namespace Sys2Proof.Machine

/-! ### Sums -/

def wordSum : List Byte → Nat
  | a :: b :: t => a.toNat * 256 + b.toNat + wordSum t
  | [a] => a.toNat * 256
  | [] => 0

/-- The 16-bit one's complement sum of RFC 791 and RFC 768. -/
def inetSum (bs : List Byte) : Nat :=
  let s := wordSum bs
  if s = 0 then 0 else (s - 1) % 65535 + 1

/-- The checksum that makes the sum all ones. -/
def inetCheck (bs : List Byte) : Nat := 0xFFFF - inetSum bs

/-- A computed UDP checksum of 0 is sent as all ones. -/
def udpCheck (bs : List Byte) : Nat := let c := inetCheck bs; if c = 0 then 0xFFFF else c

/-- `bs` with `v` put in as `n` bytes at byte `o`. -/
def putBe (bs : List Byte) (o n v : Nat) : List Byte := bs.take o ++ beBytes n v ++ bs.drop (o + n)

/-! ### A port's addresses -/

def portPage (q : Nat) : Nat := 0x0A + q

def ethUp (d : Dev) (q : Nat) : Bool := d.getB (F.ETH_LINK_LINK_UP q)

def portMac (d : Dev) (q : Nat) : Nat := d.get2 (F.ETH_MAC_LO_MAC q) (F.ETH_MAC_HI_MAC q)

/-- The 128-bit IPv6 global address of a port. -/
def portIp6 (d : Dev) (q : Nat) : Nat := (List.range 4).foldl (fun a j => a * 2 ^ 32 + d.get (F.ETH_IP6_ADDR q j)) 0

/-- fe80::/64 with the modified EUI-64 identifier of the MAC address (R86). -/
def portLinkLocal (d : Dev) (q : Nat) : Nat :=
  let m := portMac d q
  0xFE80 * 2 ^ 112 + Nat.xor ((m / 2 ^ 24 * 2 ^ 16 + 0xFFFE) * 2 ^ 24 + m % 2 ^ 24) (2 ^ 57)

def isPortIp4 (d : Dev) (q a : Nat) : Bool := d.getB (F.ETH_CFG_IP4_EN q) && a == d.get (F.ETH_IP4_ADDR q)

def isPortIp6 (d : Dev) (q a : Nat) : Bool := (d.getB (F.ETH_CFG_IP6_EN q) && a == portIp6 d q) || a == portLinkLocal d q

/-- Whether MAC address `m` is an enabled ETH_MCAST entry. -/
def mcastMac (d : Dev) (q m : Nat) : Bool :=
  (List.range 8).any (fun i => d.getB (F.ETH_MCAST_HI_EN q i) && m == d.get2 (F.ETH_MCAST_LO_MAC q i) (F.ETH_MCAST_HI_MAC q i))

/-- The MAC address of an IPv4 or IPv6 group. -/
def groupMac4 (a : Nat) : Nat := 0x01005E000000 + a % 2 ^ 23
def groupMac6 (a : Nat) : Nat := 0x333300000000 + a % 2 ^ 32

/-- Whether `a` is a group enabled by ETH_MCAST (R89). -/
def isGroup4 (d : Dev) (q a : Nat) : Bool := a / 2 ^ 28 == 14 && mcastMac d q (groupMac4 a)
def isGroup6 (d : Dev) (q a : Nat) : Bool := a / 2 ^ 120 == 255 && mcastMac d q (groupMac6 a)

/-! ### Received frames -/

/-- A frame taken apart: addresses, number of VLAN tags (an S-tag counts as two), VID, EtherType and what follows it. -/
structure EthView where
  dst : Nat
  src : Nat
  tags : Nat
  vid : Nat
  etype : Nat
  body : List Byte
  deriving DecidableEq, Repr

def ethView (fr : List Byte) : EthView :=
  let dst := beAt fr 0 6
  let src := beAt fr 6 6
  let t := beAt fr 12 2
  if t = 0x88A8 then ⟨dst, src, 2, 0, beAt fr 16 2, fr.drop 18⟩
  else if t = 0x8100 then
    let u := beAt fr 16 2
    ⟨dst, src, if u = 0x8100 ∨ u = 0x88A8 then 2 else 1, beAt fr 14 2 % 4096, u, fr.drop 18⟩
  else ⟨dst, src, 0, 0, t, fr.drop 14⟩

/-- An IP datagram taken apart: version 6 or not, addresses, hop limit, final protocol, whether it is a fragment, and one
after the first, or has options or extension headers, whether its header is sound, and the upper-layer bytes. -/
structure IpView where
  v6 : Bool
  src : Nat
  dst : Nat
  hop : Nat
  proto : Nat
  frag : Bool
  later : Bool
  ext : Bool
  sound : Bool
  l4 : List Byte
  deriving DecidableEq, Repr

/-- Walk IPv6 extension headers: final protocol, fragment (1 the first, 2 a later one, whose rest is payload), any header
met, and the rest. -/
def extWalk : Nat → Nat → Nat → Bool → List Byte → Nat × Nat × Bool × List Byte
  | 0, p, fr, ex, bs => (p, fr, ex, bs)
  | f + 1, p, fr, ex, bs =>
    if p = 0 ∨ p = 43 ∨ p = 60 then extWalk f (byteAt bs 0) fr true (bs.drop ((byteAt bs 1 + 1) * 8))
    else if p = 44 then
      (if 8 ≤ beAt bs 2 2 then (byteAt bs 0, 2, true, bs.drop 8) else extWalk f (byteAt bs 0) 1 true (bs.drop 8))
    else if p = 51 then extWalk f (byteAt bs 0) fr true (bs.drop ((byteAt bs 1 + 2) * 4))
    else (p, fr, ex, bs)

def ipView (v : EthView) : Option IpView :=
  let b := v.body
  if v.etype = 0x0800 then
    let h := byteAt b 0 % 16 * 4
    let fo := beAt b 6 2
    some { v6 := false, src := beAt b 12 4, dst := beAt b 16 4, hop := byteAt b 8, proto := byteAt b 9
           frag := fo % 2 ^ 14 != 0, later := fo % 2 ^ 13 != 0, ext := h != 20
           sound := byteAt b 0 / 16 == 4 && decide (20 ≤ h) && decide (h ≤ b.length) && inetSum (b.take h) == 0xFFFF
           l4 := (b.take (beAt b 2 2)).drop h }
  else if v.etype = 0x86DD then
    let w := extWalk 16 (byteAt b 6) 0 false ((b.drop 40).take (beAt b 4 2))
    some { v6 := true, src := beAt b 8 16, dst := beAt b 24 16, hop := byteAt b 7, proto := w.1, frag := w.2.1 != 0
           later := w.2.1 == 2, ext := w.2.2.1, sound := byteAt b 0 / 16 == 6, l4 := w.2.2.2 }
  else none

/-- The pseudo-header of an upper-layer checksum (RFC 768, RFC 8200). -/
def pseudo (v6 : Bool) (src dst proto len : Nat) : List Byte :=
  if v6 then beBytes 16 src ++ beBytes 16 dst ++ beBytes 4 len ++ beBytes 4 proto
  else beBytes 4 src ++ beBytes 4 dst ++ beBytes 2 proto ++ beBytes 2 len

/-- Whether the UDP checksum of a whole datagram holds: any zero one does on IPv4, none on IPv6 (R86). -/
def udpOk (i : IpView) : Bool :=
  if !i.v6 && beAt i.l4 6 2 == 0 then true
  else beAt i.l4 6 2 != 0 && inetSum (pseudo i.v6 i.src i.dst 17 (beAt i.l4 4 2) ++ i.l4.take (beAt i.l4 4 2)) == 0xFFFF

/-! ### Sending -/

/-- A frame of the device's own, with a C-tag when VLAN_EN is set, padded to 60 bytes. -/
def ethFrame (d : Dev) (q dst pcp etype : Nat) (body : List Byte) : List Byte :=
  let tag := if d.getB (F.ETH_CFG_VLAN_EN q) then beBytes 2 0x8100 ++ beBytes 2 (pcp * 2 ^ 13 + d.get (F.ETH_VLAN_VID q)) else []
  let fr := beBytes 6 dst ++ beBytes 6 (portMac d q) ++ tag ++ beBytes 2 etype ++ body
  fr ++ List.replicate (60 - fr.length) 0

/-! ### PTP messages as they leave (R69, R76) -/

/-- Where the PTP event message of a frame begins, and the datagram that carries it, if one does. -/
def ptpEvent (fr : List Byte) : Option (Nat × Option IpView) :=
  let v := ethView fr
  let l2 := fr.length - v.body.length
  match ipView v with
  | some i => if i.proto = 17 ∧ beAt i.l4 2 2 = 319 then some (l2 + (if i.v6 then 48 else 28), some i) else none
  | none => if v.etype = 0x88F7 then some (l2, none) else none

/-- The UDP checksum after an insertion into the event message at byte `o`: 0 on IPv4; on IPv6 the two-byte trailer is
rewritten so that the checksum stays valid (R76). -/
def ptpResum (o : Nat) (ip : Option IpView) (fr : List Byte) : List Byte :=
  match ip with
  | none => fr
  | some i =>
    if !i.v6 then putBe fr (o - 2) 2 0
    else
      let len := beAt i.l4 4 2
      let e := o - 8 + len - 2
      let z := putBe fr e 2 0
      putBe z e 2 (inetCheck (pseudo true i.src i.dst 17 len ++ (z.drop (o - 8)).take len))

/-- correctionField of the message at byte `o`, with `c` units of 2^-16 ns added. -/
def ptpCorrect (o : Nat) (c : Int) (fr : List Byte) : List Byte :=
  putBe fr (o + 8) 8 (ofSigned 64 (toSigned 64 (beAt fr (o + 8) 8) + c))

/-- A one-step message gets its timestamps as it leaves port `q` at `t`, 2^-16 ns (R76): a Sync its originTimestamp, with the
fraction in correctionField, a Pdelay_Resp the time since the request of `reqs` that it answers, in correctionField. -/
def ptpStamp (q : Nat) (t : Int) (reqs : List (Nat × Nat × Nat × Int)) (fr : List Byte) : List Byte :=
  match ptpEvent fr with
  | none => fr
  | some (o, ip) =>
    match byteAt fr o % 16 with
    | 0 =>
      let n := t.toNat / 65536
      ptpResum o ip (putBe (putBe (ptpCorrect o (t.toNat % 65536 : Nat) fr) (o + 34) 6 (n / 1000000000)) (o + 40) 4 (n % 1000000000))
    | 3 =>
      match reqs.find? (fun r => r.1 == q && r.2.1 == beAt fr (o + 44) 10 && r.2.2.1 == beAt fr (o + 30) 2) with
      | some r => ptpResum o ip (ptpCorrect o (t - r.2.2.2) fr)
      | none => fr
    | _ => fr

/-- Whether a frame carries a message that is sent one-step, Sync or Pdelay_Resp (R76, R77). -/
def isOneStep (fr : List Byte) : Bool :=
  match ptpEvent fr with
  | some (o, _) => byteAt fr o % 16 == 0 || byteAt fr o % 16 == 3
  | none => false

/-- The device's own delay request leaves on port `q` at `t`: the domain that sent it keeps its timestamp (R69, R77). -/
def ptpSent (q : Nat) (t : Int) (fr : List Byte) (d : Dev) : Dev :=
  match ptpEvent fr with
  | none => d
  | some (o, _) =>
    if byteAt fr o % 16 ≠ 1 ∧ byteAt fr o % 16 ≠ 2 then d else
    forN 2 (fun k d =>
      let x := d.dom k
      if x.reqOut && q == d.get (F.TIME_DOM_CFG_PORT k) && beAt fr (o + 30) 2 == x.reqSeq
        && byteAt fr (o + 4) == d.get (F.TIME_DOM_CFG_DOMAIN k) then d.setDom k { x with t3 := t } else d) d

/-! ### A frame of the device's own leaves (R81) -/

/-- A frame of the device's own leaves on port `q` now. -/
def departEth (q : Nat) (fr : List Byte) (d : Dev) : Dev :=
  let t := txStamp d q
  (ptpSent q t fr d).emit (.eth q (ptpStamp q t d.tm.pdReq fr))

/-- Launch time of the transmit descriptor at TXR_HEAD, when it is timed and its frame is still to start on port `q`
(R79, R104). -/
def txTimed (d : Dev) (q : Nat) : Option Int :=
  let h := d.get F.TXR_HEAD_HEAD
  if h = d.get F.TXR_TAIL_TAIL then none else
  let t := dramLoad d (d.get2 F.TXR_BASE_LO_BASE F.TXR_BASE_HI_BASE + 32 * h) 32
  let on := match byteAt t 10 with
    | 0 => q == 0 | 1 => q == 1 | 2 => true | 3 => q == d.get F.PATH_STAT_ACTIVE | _ => false
  if on && launchTimed (leAt t 16 8) && !bit d.path.txStarted q then some (launchInstant d (leAt t 16 8)) else none

/-- How long port `q` takes over a frame of `n` bytes, with preamble, FCS and gap, 2^-16 ns. -/
def ethTime (d : Dev) (q n : Nat) : Int := ((n + 24) * 8 * 65536 / (if d.getB (F.ETH_CFG_RATE q) then 10 else 25) : Nat)

/-- Whether an untimed frame of `n` bytes started now on port `q` would still be in transmission at the launch time of the
timed frame at the head of the transmit ring (R81). -/
def txBlocked (d : Dev) (q n : Nat) : Bool :=
  match txTimed d q with
  | some t => decide (t < txStamp d q + ethTime d q n)
  | none => false

/-- A frame leaves on port `q` while its link is up, or waits for a timed frame (R81); the frames that wait leave in order. -/
def sendEth (q : Nat) (fr : List Byte) (d : Dev) : Dev :=
  if !(ethUp d q && d.enabled (portPage q)) then d
  else if d.path.txWait.any (fun e => e.1 == q) || txBlocked d q fr.length then
    { d with path := { d.path with txWait := d.path.txWait ++ [(q, fr)] } }
  else departEth q fr d

/-- The frames of port `q` that a timed frame held back leave, up to the next that it still holds back; they are lost with the
link. -/
def sendWaiting (q : Nat) (d : Dev) : Dev :=
  forN d.path.txWait.length (fun _ d =>
    match d.path.txWait.find? (fun e => e.1 == q) with
    | none => d
    | some e =>
      let gone : Dev := { d with path := { d.path with txWait := d.path.txWait.erase e } }
      if !(ethUp d q && d.enabled (portPage q)) then gone
      else if txBlocked d q e.2.length then d
      else departEth q e.2 gone) d

/-- The IP header and UDP datagram that carry `data`, with hop limit `ttl`; `idn` is the IPv4 identification. -/
def ipUdpTtl (ttl : Nat) (v6 : Bool) (src dst sport dport idn : Nat) (data : List Byte) : List Byte :=
  let n := 8 + data.length
  let u := beBytes 2 sport ++ beBytes 2 dport ++ beBytes 2 n
  let c := udpCheck (pseudo v6 src dst 17 n ++ u ++ data)
  let udp := u ++ beBytes 2 c ++ data
  if v6 then beBytes 4 0x60000000 ++ beBytes 2 n ++ beBytes 1 17 ++ beBytes 1 ttl ++ beBytes 16 src ++ beBytes 16 dst ++ udp
  else
    let h := beBytes 2 0x4500 ++ beBytes 2 (20 + n) ++ beBytes 2 idn ++ beBytes 2 0x4000 ++ beBytes 1 ttl ++ beBytes 1 17
    let t := beBytes 4 src ++ beBytes 4 dst
    h ++ beBytes 2 (inetCheck (h ++ t)) ++ t ++ udp

/-- The same with the hop limit that the spec leaves open. -/
def ipUdp (v6 : Bool) (src dst sport dport idn : Nat) (data : List Byte) : List Byte :=
  ipUdpTtl Config.ipTtl v6 src dst sport dport idn data

/-- The answer to an ARP request (R89). -/
def arpReply (q : Nat) (v : EthView) (d : Dev) : Dev :=
  let b := v.body
  let r := b.take 6 ++ beBytes 2 2 ++ beBytes 6 (portMac d q) ++ beBytes 4 (d.get (F.ETH_IP4_ADDR q)) ++ (b.drop 8).take 10
  sendEth q (ethFrame d q (beAt b 8 6) (d.get (F.ETH_CFG_PCP_BULK q)) 0x0806 r) d

/-- Whether a frame is an ARP request for the port's IPv4 address (R89). -/
def arpForUs (d : Dev) (q : Nat) (v : EthView) : Bool :=
  v.etype == 0x0806 && beAt v.body 0 6 == 0x000108000604 && beAt v.body 6 2 == 1 && isPortIp4 d q (beAt v.body 24 4)

/-- Whether a datagram is a Neighbour Solicitation for an address of the port (R86, R89). -/
def solicitForUs (d : Dev) (q : Nat) (i : IpView) : Bool :=
  i.v6 && i.proto == 58 && !i.frag && byteAt i.l4 0 == 135 && byteAt i.l4 1 == 0 && i.hop == 255 && decide (24 ≤ i.l4.length) &&
  inetSum (pseudo true i.src i.dst 58 i.l4.length ++ i.l4) == 0xFFFF && isPortIp6 d q (beAt i.l4 8 16) && i.src != 0

/-- The Neighbour Advertisement that answers it (R86, R89): solicited, with the port's MAC address. -/
def neighbourAdvert (q : Nat) (v : EthView) (i : IpView) (d : Dev) : Dev :=
  let t := beAt i.l4 8 16
  let a := beBytes 4 0x60000000 ++ beBytes 16 t ++ beBytes 1 2 ++ beBytes 1 1 ++ beBytes 6 (portMac d q)
  let c := inetCheck (pseudo true t i.src 58 32 ++ beBytes 2 0x8800 ++ a)
  let b := beBytes 4 0x60000000 ++ beBytes 2 32 ++ beBytes 1 58 ++ beBytes 1 255 ++ beBytes 16 t ++ beBytes 16 i.src
    ++ beBytes 2 0x8800 ++ beBytes 2 c ++ a
  sendEth q (ethFrame d q v.src (d.get (F.ETH_CFG_PCP_BULK q)) 0x86DD b) d

/-! ### JTP messages -/

def tHello : Nat := 0x01
def tPlanLoad : Nat := 0x02
def tTableWrite : Nat := 0x03
def tLayerSegment : Nat := 0x04
def tCopyOrder : Nat := 0x05
def tEpochCommit : Nat := 0x06
def tAck : Nat := 0x07
def tNak : Nat := 0x08
def tCredit : Nat := 0x09
def tTelemetry : Nat := 0x0A
def tVerdict : Nat := 0x0B
def tEvent : Nat := 0x0C
def tPrintLog : Nat := 0x0D
def tRegRead : Nat := 0x0E
def tRegWrite : Nat := 0x0F
def tDoorbell : Nat := 0x10
def tPosition : Nat := 0x11

/-- Types of the feedback space (R110). -/
def isFeedback (t : Nat) : Bool := t == 1 || t == 7 || t == 8 || t == 9 || t == 0x11

/-- Bulk types (R92). -/
def isBulk (t : Nat) : Bool := decide (2 ≤ t) && decide (t ≤ 5)

/-- Control types (R92). -/
def isControl (t : Nat) : Bool := t == 1 || (decide (6 ≤ t) && decide (t ≤ 9)) || t == 0x0E || t == 0x0F || t == 0x10

/-- Types the device receives (R110). -/
def isReceived (t : Nat) : Bool := isBulk t || isControl t || t == 0x11

/-- The header of R107. -/
def jtpHeader (type flags sess len seq job epoch key : Nat) : List Byte :=
  beBytes 1 1 ++ beBytes 1 type ++ beBytes 2 flags ++ beBytes 2 sess ++ beBytes 2 len ++ beBytes 4 seq ++ beBytes 4 job
    ++ beBytes 4 epoch ++ beBytes 1 key ++ beBytes 3 0

def toBytes (l : List Nat) : List Byte := l.map (BitVec.ofNat 8)
def toNats (l : List Byte) : List Nat := l.map (fun b => b.toNat)

/-- The IV of R119. -/
def jtpIv (sess dir key fb seq : Nat) : List Nat :=
  toNats (beBytes 2 sess ++ beBytes 1 dir ++ beBytes 1 key ++ beBytes 1 fb ++ beBytes 3 0 ++ beBytes 4 seq)

/-- A message made whole: payload, tag when `key` holds one, CRC (R107, R109, R119). `flags` is without AUTH. -/
def jtpBytes (type flags sess seq job epoch dir : Nat) (key : Option (Nat × Nat)) (payload : List Byte) : List Byte :=
  match key with
  | none =>
    let m := jtpHeader type flags sess payload.length seq job epoch 0 ++ payload
    m ++ beBytes 4 (crc32c m)
  | some (slot, k) =>
    let h := jtpHeader type (flags + 1) sess payload.length seq job epoch slot
    let s := gcmSeal (bytesOf 32 k) (jtpIv sess dir slot (flags / 2 % 2) seq) (toNats h) (toNats payload)
    let m := h ++ toBytes s.1 ++ toBytes s.2
    m ++ beBytes 4 (crc32c m)

/-- Length of a message from header byte 0 to the end of the CRC (R116). -/
def jtpCost (len : Nat) (auth : Bool) : Nat := ceilDiv (28 + len + (if auth then 16 else 0)) 4096

end Sys2Proof.Machine
end

