-- ==== Sys2Proof/Machine/Jtp.lean ====
section
/-! DEFINITION. The device as JTP sender and its sessions (chapter 06: R106, R107, R112, R114 to R118, R120 to R123 as sent,
R133 to R136). -/
namespace Sys2Proof.Machine

def Dev.sess (d : Dev) (s : Nat) : Sess := cellGet {} d.jtp.sess s

def Dev.setSess (d : Dev) (s : Nat) (x : Sess) : Dev := { d with jtp := { d.jtp with sess := cellSet {} d.jtp.sess s x } }

def activePort (d : Dev) : Nat := d.get F.PATH_STAT_ACTIVE

def sessOpen (d : Dev) (s : Nat) : Bool := d.get (F.SESS_STAT_STATE s) == 2

/-- STALE of a key slot (R120). -/
def staleField (s slot : Nat) : RegField := if slot = 0 then F.SESS_STAT_STALE0 s else F.SESS_STAT_STALE1 s

/-! ### Datagrams -/

/-- The peer's 128-bit IPv6 address. -/
def peerIp6 (d : Dev) (s : Nat) : Nat := (List.range 4).foldl (fun a j => a * 2 ^ 32 + d.get (F.PEER_IP6_ADDR s j)) 0

/-- The address a datagram of session `s` leaves port `q` with: link-local towards a link-local peer, or when no global
address is valid (R86). -/
def jtpSource (d : Dev) (q s : Nat) : Nat :=
  if d.getB (F.SESS_CFG_IP6 s) then
    let p := peerIp6 d s
    if p / 2 ^ 118 = 0x3FA ∨ p / 2 ^ 112 = 0xFF02 ∨ !d.getB (F.ETH_CFG_IP6_EN q) then portLinkLocal d q else portIp6 d q
  else d.get (F.ETH_IP4_ADDR q)

/-- Bytes of a frame on port `q` around a message of session `s`: Ethernet header, C-tag, IP, UDP and FCS. -/
def frameOver (d : Dev) (s q : Nat) : Nat :=
  18 + (if d.getB (F.ETH_CFG_VLAN_EN q) then 4 else 0) + (if d.getB (F.SESS_CFG_IP6 s) then 48 else 28)

/-- Send a message's bytes in session `s` on port `q`, with VLAN priority `pcp`, if the frame fits MAX_FRAME (R87, R106,
R108). -/
def sendOn (s q pcp : Nat) (bs : List Byte) (d : Dev) : Dev :=
  if !ethUp d q || decide (d.get (F.ETH_CFG_MAX_FRAME q) < bs.length + frameOver d s q) then d else
  let v6 := d.getB (F.SESS_CFG_IP6 s)
  let dst := if v6 then peerIp6 d s else d.get (F.PEER_IP4_ADDR s)
  let r := if v6 then (0, d) else d.free 16
  let d := r.2
  let ip := ipUdp v6 (jtpSource d q s) dst (d.get F.JTP_CFG_UDP_PORT) (d.get (F.SESS_CFG_PEER_PORT s)) r.1 bs
  sendEth q (ethFrame d q (d.get2 (F.PEER_MAC_LO_MAC s) (F.PEER_MAC_HI_MAC s)) pcp (if v6 then 0x86DD else 0x0800) ip) d

/-- Send a message of TYPE `t` on the ports of its class (R92): TELEMETRY and PRINT_LOG on the active port, the rest on both,
with PCP_CTL for control and position and PCP_BULK for the rest (ETH_CFG). -/
def sendClass (s t : Nat) (bs : List Byte) (d : Dev) : Dev :=
  let ports := if t = tTelemetry ∨ t = tPrintLog then [activePort d] else [0, 1]
  forL ports (fun q d =>
    sendOn s q (if isControl t || t == tPosition then d.get (F.ETH_CFG_PCP_CTL q) else d.get (F.ETH_CFG_PCP_BULK q)) bs d) d

/-! ### Keys (R119, R120) -/

/-- The slot and key that session `s` sends with, when it authenticates. -/
def sendKey (d : Dev) (s : Nat) : Option (Nat × Nat) :=
  let slot := d.get (F.SESS_CFG_TX_KEY s)
  (cellGet none (d.sess s).keys slot).map (fun k => (slot, k))

/-- Whether the counter `n` of space `fb` has been used under the loaded key. -/
def keySpent (d : Dev) (s slot fb n : Nat) : Bool :=
  let k := n % 2 ^ 32
  (cellGet [] (d.sess s).keyUse (2 * slot + fb)).any (fun u => decide (u.1 ≤ k) && decide (k ≤ u.2))

/-- Whether session `s` may send counter `n` of space `fb`: unauthenticated, or with a key that is loaded and not spent, and
not STALE in an OPEN session or in session 0 (R120). -/
def maySend (d : Dev) (s fb n : Nat) : Bool :=
  !d.getB (F.SESS_CFG_AUTH_REQ s) ||
  (match sendKey d s with
    | none => false
    | some (slot, _) => !keySpent d s slot fb n && !((sessOpen d s || s == 0) && d.getB (staleField s slot)))

/-- A send counter would reuse a value: the slot becomes STALE and the key-exhausted event is raised (R120). -/
def keyExhaust (s fb n : Nat) (d : Dev) : Dev :=
  match sendKey d s with
  | some (slot, _) =>
    if d.getB (F.SESS_CFG_AUTH_REQ s) && keySpent d s slot fb n && !d.getB (staleField s slot) then
      (d.put (staleField s slot) 1).raise 0x0D 0
    else d
  | none => d

/-- The counters `l` used, with `n` used now. -/
def useCounter (l : List (Nat × Nat)) (n : Nat) : List (Nat × Nat) :=
  match l with
  | (a, b) :: r => if n = b + 1 then (a, n) :: r else (n, n) :: l
  | [] => [(n, n)]

/-- Counter `n` of a space is used under the loaded key (R120). -/
def keyNote (s fb n : Nat) (d : Dev) : Dev :=
  if !d.getB (F.SESS_CFG_AUTH_REQ s) then d else
  let x := d.sess s
  let k := 2 * d.get (F.SESS_CFG_TX_KEY s) + fb
  d.setSess s { x with keyUse := cellSet [] x.keyUse k (useCounter (cellGet [] x.keyUse k) (n % 2 ^ 32)) }

/-- A message from the device (R107): FB of its space, RESP, PATH naming the active port, JOB and EPOCH_NOW. -/
def deviceMsg (d : Dev) (s t n : Nat) (resp : Bool) (payload : List Byte) : List Byte :=
  let fl := b2n (isFeedback t) * 2 + b2n resp * 4 + activePort d * 8
  let key := if d.getB (F.SESS_CFG_AUTH_REQ s) then sendKey d s else none
  jtpBytes t fl s n d.planJob (d.get F.EPOCH_NOW_EPOCH) 1 key payload

/-! ### Feedback (R112, R114, R115, R122) -/

/-- A message of the feedback space, with the session's next counter. -/
def sendFeedback (s t : Nat) (resp : Bool) (payload : List Byte) (d : Dev) : Dev :=
  let n := (d.sess s).fbNum
  if !maySend d s 1 n then keyExhaust s 1 n d else
  let bs := deviceMsg d s t (n % 2 ^ 32) resp payload
  let d := keyNote s 1 n (d.setSess s { d.sess s with fbNum := n + 1 })
  sendClass s t bs d

/-- Cost of the bulk messages received and not performed (R116). -/
def heldCost (x : Sess) : Nat := x.held.foldl (fun a h => a + ceilDiv h.msg.raw.length 4096) 0

/-- The credit granted (R116). -/
def grant (d : Dev) (s : Nat) : Nat := d.get (F.SESS_CFG_CREDIT_MAX s) - heldCost (d.sess s)

/-- Feedback of TYPE `t` goes out and covers everything accepted so far. -/
def feedback (s t reason bad : Nat) (d : Dev) : Dev :=
  let x := d.sess s
  let g := grant d s
  let cum := d.get (F.RX_CUM_CUM s)
  let body := if t = tCredit then beBytes 4 cum ++ beBytes 4 g
    else beBytes 4 cum ++ beBytes 8 x.got ++ beBytes 4 g ++ beBytes 1 reason ++ beBytes 3 0 ++ beBytes 4 bad
  let x := { x with since := 0, firstAt := none, creditSent := g }
  let x := if t = tNak && x.got != 0 then { x with nakCum := some cum, nakAt := d.now } else x
  sendFeedback s t false body (d.setSess s x)

def sendAck (s : Nat) (d : Dev) : Dev := feedback s tAck 0 0 d

def sendNak (s reason bad : Nat) (d : Dev) : Dev := feedback s tNak reason bad d

/-- HELLO REPLY with `status` (R122). -/
def helloReply (s status : Nat) (d : Dev) : Dev :=
  let g := grant d s
  let body := beBytes 1 1 ++ beBytes 1 status ++ beBytes 1 (activePort d) ++ beBytes 1 0 ++ beBytes 2 9216 ++ beBytes 2 g
    ++ beBytes 4 (d.get (F.TX_NEXT_NEXT s)) ++ beBytes 4 (d.get (F.RX_CUM_CUM s))
    ++ beBytes 8 (d.get2 F.SYS_UID_LO_UID F.SYS_UID_HI_UID) ++ beBytes 4 (d.get F.EPOCH_NOW_EPOCH)
  sendFeedback s tHello true body (d.setSess s { d.sess s with creditSent := g })

/-! ### The data space (R116 to R118) -/

/-- Whether the RIP's latest BITMAP marks sequence `q`. -/
def marked (x : Sess) (q : Nat) : Bool :=
  let o := (q + 2 ^ 32 - x.peerCum) % 2 ^ 32
  decide (1 ≤ o) && decide (o ≤ 64) && bit x.peerMap (o - 1)

/-- Messages outstanding: sent, not passed by CUM and not marked. -/
def outstanding (x : Sess) : List SentMsg := x.sent.filter (fun m => !marked x m.seq)

/-- Whether window and credit allow a message of `cost` units (R111, R116, R118). -/
def hasRoom (d : Dev) (s cost : Nat) : Bool :=
  let x := d.sess s
  let o := outstanding x
  decide ((x.txNum + 2 ^ 32 - x.peerCum) % 2 ^ 32 ≤ 64) && decide (o.length < 64) &&
    decide (o.foldl (fun a m => a + m.cost) 0 + cost ≤ x.credit)

/-- Send a data-space message of TYPE `t` if session `s` is OPEN and window, credit and key allow; true when it was sent. -/
def sendData (s t : Nat) (resp : Bool) (payload : List Byte) (records : Nat) (d : Dev) : Bool × Dev :=
  let x := d.sess s
  let cost := jtpCost payload.length (d.getB (F.SESS_CFG_AUTH_REQ s))
  if !sessOpen d s || !hasRoom d s cost then (false, d)
  else if !maySend d s 0 x.txNum then (false, keyExhaust s 0 x.txNum d)
  else
    let n := x.txNum % 2 ^ 32
    let bs := deviceMsg d s t n resp payload
    let m : SentMsg := { seq := n, type := t, cost := cost, at_ := d.now, bytes := bs, records := records }
    let d := keyNote s 0 x.txNum (d.setSess s { x with txNum := x.txNum + 1, sent := x.sent ++ [m] })
    (true, sendClass s t bs (d.put (F.TX_NEXT_NEXT s) (n + 1)))

/-- The longest payload of TYPE `t` that the device may send in session `s`: the RIP accepts it (R122), and its frame fits
MAX_FRAME on each port that it leaves by (R92, R108). -/
def payloadMax (d : Dev) (s t : Nat) : Nat :=
  let extra := 28 + if d.getB (F.SESS_CFG_AUTH_REQ s) then 16 else 0
  let fit (q : Nat) : Nat := d.get (F.ETH_CFG_MAX_FRAME q) - frameOver d s q - extra
  min (min 9216 (d.sess s).maxPayload)
    (if t = tTelemetry ∨ t = tPrintLog then fit (activePort d) else min (fit 0) (fit 1))

/-- Whether a TYPE in the waiting queue is a response: EPOCH_COMMIT and the register messages are. -/
def isResponse (t : Nat) : Bool := t == tEpochCommit || t == tRegRead || t == tRegWrite

/-- Answer a request: at once, or once window and credit allow (R118); an answer longer than the RIP accepts is not sent
(log entry 113). -/
def respond (s t : Nat) (payload : List Byte) (d : Dev) : Dev :=
  if !sessOpen d s || decide (payloadMax d s t < payload.length) then d else
  let r := if (d.sess s).queue.isEmpty then sendData s t (isResponse t) payload 0 d else (false, d)
  if r.1 then r.2 else r.2.setSess s { r.2.sess s with queue := (r.2.sess s).queue ++ [(t, payload)] }

/-- Send message `m` again, bit for bit (R117, R118). -/
def resend (s : Nat) (m : SentMsg) (d : Dev) : Dev :=
  let x := d.sess s
  let f (e : SentMsg) : SentMsg := if e.seq = m.seq then { e with at_ := d.now, again := some d.now } else e
  sendClass s m.type m.bytes (d.setSess s { x with sent := x.sent.map f })

/-- JTP_RTO has passed since a message was last sent: every such message of session `s` goes again (R118). -/
def retransmitTimer (s : Nat) (d : Dev) : Dev :=
  if !sessOpen d s then d else
  let due := (outstanding (d.sess s)).filter (fun m => decide (m.at_ + d.get F.JTP_RTO_RTO * 1000 ≤ d.now))
  forL due (resend s) d

/-- ACK_TMO after the earliest message not covered by feedback (R115). -/
def ackTimer (s : Nat) (d : Dev) : Dev :=
  match (d.sess s).firstAt with
  | some t => if sessOpen d s && decide (t + d.get F.JTP_TMR_ACK_TMO * 1000 ≤ d.now) then sendAck s d else d
  | none => d

/-- NAK GAP is repeated each NAK_HOLD while the gap remains (R115). -/
def nakHoldTimer (s : Nat) (d : Dev) : Dev :=
  let x := d.sess s
  let cum := d.get (F.RX_CUM_CUM s)
  if sessOpen d s && x.got != 0 && x.nakCum == some cum && decide (x.nakAt + d.get F.JTP_TMR_NAK_HOLD * 1000 ≤ d.now) then
    sendNak s 1 cum d
  else d

/-! ### The RIP's feedback -/

/-- Records of `m` leave their ring: CUM at the RIP has passed it (R134). -/
def releaseRecords (m : SentMsg) (d : Dev) : Dev :=
  if m.type = tVerdict then
    let k := min m.records d.jtp.vrdSent
    let d := { d with jtp := { d.jtp with vrdSent := d.jtp.vrdSent - k } }
    if d.getB F.VRD_RING_CFG_LOCAL then d else vrdRelease (min k d.insp.vrdHeld) d
  else if m.type = tPrintLog then
    let k := min m.records d.jtp.plogSent
    let d := { d with jtp := { d.jtp with plogSent := d.jtp.plogSent - k } }
    if d.getB F.PLOG_CFG_LOCAL then d else plogRelease (min k d.plogHeld) d
  else d

/-- Whether message `m` may go again on feedback: not twice within JTP_RTO (R118). -/
def mayAgain (d : Dev) (m : SentMsg) : Bool :=
  match m.again with
  | some t => decide (t + d.get F.JTP_RTO_RTO * 1000 ≤ d.now)
  | none => true

/-- The BITMAP of a session as it stands for the CUM of a CREDIT, which carries none (R116). -/
def shiftedMap (x : Sess) (cum : Nat) : Nat :=
  let o := (cum + 2 ^ 32 - x.peerCum) % 2 ^ 32
  if o < 65 then x.peerMap / 2 ^ o else 0

/-- CUM, BITMAP and CREDIT from the RIP (R114, R116, R118): acknowledged messages leave the window, those shown missing, and
the sequence `bad` that a NAK GAP names, go again. -/
def peerFeedback (s cum map credit : Nat) (bad : Option Nat) (d : Dev) : Dev :=
  let x := d.sess s
  let passed := x.sent.filter (fun m => precedes m.seq cum)
  let x := { x with peerCum := cum, peerMap := map, credit := credit, sent := x.sent.filter (fun m => !precedes m.seq cum) }
  let d := forL passed releaseRecords (d.setSess s x)
  let top := map.log2 + (if map = 0 then 0 else 1)
  let missing := (outstanding (d.sess s)).filter (fun m =>
    decide ((m.seq + 2 ^ 32 - cum) % 2 ^ 32 < top) || bad == some m.seq)
  forL (missing.filter (mayAgain d)) (resend s) d

/-! ### Reports (R118, R133, R134) -/

/-- The session that carries records: the one with records under way, else the lowest-numbered OPEN one. -/
def recordSession (d : Dev) (t : Nat) : Option Nat :=
  match (List.range 16).find? (fun s => (d.sess s).sent.any (fun m => m.type == t && m.records != 0)) with
  | some s => some s
  | none => (List.range 16).find? (sessOpen d)

/-- The words of `n` bytes as a message carries them: each 32-bit word most significant byte first (R106). -/
def swapWords : Nat → List Byte → List Byte
  | 0, _ => []
  | f + 1, bs => if bs.isEmpty then [] else (bs.take 4).reverse ++ swapWords f (bs.drop 4)

/-- Send `count` complete records of a ring, from the first one not yet sent (R134). -/
def sendRecords (s t count size held sent first ringLen base : Nat) (d : Dev) : Dev :=
  let c := min count (min ((payloadMax d s t - 8) / size) (held - sent))
  if c = 0 || recordSession d t != some s then d else
  let idx := (first + sent) % max 1 ringLen
  let c := min c (ringLen - idx)
  let r := engineRead mJtpRings (base + idx * size) (c * size) d
  match r.1 with
  | none => r.2
  | some bs =>
    let payload := beBytes 4 idx ++ beBytes 2 c ++ beBytes 2 (size / 4) ++ swapWords (bs.length + 1) bs
    let x := sendData s t false payload c r.2
    if x.1 then
      { x.2 with jtp := { x.2.jtp with
          vrdSent := if t = tVerdict then sent + c else x.2.jtp.vrdSent
          plogSent := if t = tPrintLog then sent + c else x.2.jtp.plogSent } }
    else x.2

/-! ### Management transmit ring (R118, R132, R135) -/

/-- Deal with the records of the management transmit ring from HEAD to TAIL: TELEMETRY goes at once or is skipped, an EVENT
goes at once or waits in the queue of 32, a DOORBELL holds the ring until it can go. What cannot go at all, because its
session is not OPEN or the message is too long, is skipped or dropped, and counted as TELEMETRY and EVENT are (R118). A record
whose reading is a violation is passed over after the release (R378). -/
def mtxRun : Nat → Dev → Dev
  | 0, d => d
  | f + 1, d =>
    let h := d.get F.MTX_HEAD_HEAD
    if h = d.get F.MTX_TAIL_TAIL ∨ cleated d mJtpRings = true then d else
    let r := engineRead mJtpRings (d.get2 F.MTX_BASE_LO_BASE F.MTX_BASE_HI_BASE + 16 * h) 16 d
    match r.1 with
    | none => if cleated r.2 mJtpRings then afterCleat mJtpRings .mtxSkip r.2 else r.2
    | some rb =>
      let b := engineRead mJtpRings (leAt rb 0 5) (leAt rb 8 2) r.2
      let next := fun (d : Dev) => mtxRun f (d.put F.MTX_HEAD_HEAD ((h + 1) % max 1 (d.get F.MTX_SIZE_SIZE)))
      match b.1 with
      | none => if cleated b.2 mJtpRings then afterCleat mJtpRings .mtxSkip b.2 else next b.2
      | some p =>
        let t := byteAt rb 10
        let s := byteAt rb 11
        let d := b.2
        let skip := fun (d : Dev) =>
          next (if t = tTelemetry then d.count F.CNT_TELE_SKIP_CNT 1 else if t = tEvent then d.count F.CNT_EVT_DROP_CNT 1 else d)
        if !sessOpen d s || decide (payloadMax d s t < p.length) then skip d
        else if t = tTelemetry then
          let r := if (d.sess s).queue.isEmpty then sendData s t false p 0 d else (false, d)
          next (if r.1 then r.2 else r.2.count F.CNT_TELE_SKIP_CNT 1)
        else if t = tEvent then
          let r := if d.evq.any (fun e => bit e.todo s) then (false, d) else sendData s t false p 0 d
          next (if r.1 then r.2 else r.2.queueEvent (2 ^ s) p)
        else if t = tDoorbell then
          let r := if (d.sess s).queue.isEmpty then sendData s t false p 0 d else (false, d)
          if r.1 then next r.2 else r.2
        else next d

/-- The record at MTX_HEAD, whose reading was a violation, is passed over, and the ring goes on (R378). -/
def mtxPass (d : Dev) : Dev :=
  mtxRun (d.get F.MTX_SIZE_SIZE)
    (d.put F.MTX_HEAD_HEAD ((d.get F.MTX_HEAD_HEAD + 1) % max 1 (d.get F.MTX_SIZE_SIZE)))

/-- Firmware advances the tail of the management transmit ring (R118). -/
def mtxTailWrite (v : Nat) (d : Dev) : Dev := mtxRun (d.get F.MTX_SIZE_SIZE) (d.put F.MTX_TAIL_TAIL v)

/-! ### Sending what waits -/

/-- A waiting report of session `s` is sent once window and credit allow (R118): 0 the oldest response or DOORBELL, 1 the
oldest EVENT, 2 verdict records, 3 print-log records, `count` of them at most. -/
def reportSend (s kind count : Nat) (d : Dev) : Dev :=
  if !sessOpen d s then d else
  match kind with
  | 0 => match (d.sess s).queue with
    | [] => mtxRun (d.get F.MTX_SIZE_SIZE) d
    | (t, p) :: l =>
      let r := sendData s t (isResponse t) p 0 d
      if r.1 then r.2.setSess s { r.2.sess s with queue := l } else r.2
  | 1 => match d.evq.find? (fun e => bit e.todo s) with
    | none => d
    | some e =>
      let r := sendData s tEvent false e.payload 0 d
      if r.1 then
        let e' : EventMsg := { e with todo := clearBits e.todo (2 ^ s) }
        let l := d.evq.takeWhile (fun x => !bit x.todo s)
        let tl := d.evq.drop (l.length + 1)
        { r.2 with evq := l ++ (if e'.todo = 0 then [] else [e']) ++ tl }
      else r.2
  | 2 =>
    if d.getB F.VRD_RING_CFG_LOCAL then d else
    sendRecords s tVerdict count 16 d.insp.vrdHeld d.jtp.vrdSent (d.get F.VRD_SENT_SENT) (d.get F.VRD_SIZE_SIZE)
      (d.get2 F.VRD_BASE_LO_BASE F.VRD_BASE_HI_BASE) d
  | _ =>
    if d.getB F.PLOG_CFG_LOCAL then d else
    sendRecords s tPrintLog count 96 d.plogHeld d.jtp.plogSent (d.get F.PLOG_SENT_SENT) (d.get F.PLOG_SIZE_SIZE)
      (d.get2 F.PLOG_BASE_LO_BASE F.PLOG_BASE_HI_BASE) d

/-! ### The published position (R59, R136) -/

/-- A POSITION message in session 0 to the group address, on both ports, when VENC_MCAST is set. -/
def vencMulticast (k : Nat) (d : Dev) : Dev :=
  if !(d.getB F.PLAN_STAY_PUBLISHER && d.getB F.PLAN_STAY_VENC_MCAST && d.getB (F.SESS_CFG_EN 0)) then d
  else if !maySend d 0 1 k then keyExhaust 0 1 k d
  else keyNote 0 1 k (sendClass 0 tPosition (deviceMsg d 0 tPosition (k % 2 ^ 32) false d.vencOut) d)

end Sys2Proof.Machine
end

