-- ==== Sys2Proof/Machine/JtpRx.lean ====
section
/-! DEFINITION. The device as JTP receiver (chapter 06: R107, R108, R111 to R116, R119, R121, R123 to R132, R137), with the
engines' side of R91, R93, R96, R99 and R103. A message goes through `jtpArrive`; register requests wait at the head of
`Sess.todo` until the bus performs them. -/
namespace Sys2Proof.Machine

/-! ### What the port engines note (R91, R93, R96, R103) -/

/-- A control message has come on port `q` (R91). -/
def controlSeen (q : Nat) (d : Dev) : Dev := { d with path := { d.path with dupAt := cellSet 0 d.path.dupAt q (d.now + 1) } }

/-- An engine's verdict on a control message; the two engines' verdicts must agree (R93). -/
def portVerdict (q session seq : Nat) (fb ok : Bool) (d : Dev) : Dev :=
  let same (v : PortVerdict) : Bool := v.session == session && v.seq == seq && v.fb == fb
  let v := (d.path.verdicts.find? same).getD { session := session, seq := seq, fb := fb }
  let v : PortVerdict := if ok then { v with passed := setBit v.passed q } else { v with failed := setBit v.failed q }
  let l := (v :: d.path.verdicts.filter (fun x => !same x)).take 64
  let d := { d with path := { d.path with verdicts := l } }
  if (bit v.passed 0 && bit v.failed 1) || (bit v.passed 1 && bit v.failed 0) then
    let d := (d.put F.PATH_STAT_DRILL_FAIL 1).put F.PATH_STAT_LAST_STAGE 5
    { d with path := { d.path with mismatch := true } }
  else d

/-- A drill has passed: a message has come to the new active within POST_TMO (R103). -/
def drillHeard (q : Nat) (d : Dev) : Dev :=
  if d.path.post.isSome && q == activePort d then
    { d with path := { d.path with post := none, checked := setBit d.path.checked q } }.count F.PATH_DRILL_CNT_PASS 1
  else d

/-- Snapshot `c` with sequence `seq` of session `s` entered, if the session was open when it was taken. -/
def Snap.enter (s seq : Nat) (c : Snap) : Snap :=
  let e := cellGet (0, 0) c.rx s
  let o := (seq + 2 ^ 32 - e.1) % 2 ^ 32
  if bit c.opened s && decide (o < 65536) then { c with rx := cellSet (0, 0) c.rx s (e.1, setBit e.2 o) } else c

/-- A control sequence is entered in the standby's current snapshot, and in the one on its way (R96). -/
def snapEnter (s seq : Nat) (d : Dev) : Dev :=
  { d with path := { d.path with cur := d.path.cur.map (Snap.enter s seq), coming := d.path.coming.map (Snap.enter s seq) } }

/-- Whether the duplicate check of R111 knows a sequence `o` above CUM, with bit i of `got` set for CUM + i received. -/
def isDuplicate (o got : Nat) : Bool := (decide (o < 65536) && bit got o) || decide (2 ^ 32 - 65536 ≤ o)

/-- A control message of the data space on the standby: the duplicate check against its snapshot must say what the active
engine says (R93). -/
def standbyCheck (m : JtpMsg) (d : Dev) : Dev :=
  match d.path.cur with
  | none => d
  | some c =>
    if m.port == activePort d || isFeedback m.type || !bit c.opened m.session then d else
    let e := cellGet (0, 0) c.rx m.session
    let off (cum : Nat) : Nat := (m.seq + 2 ^ 32 - cum) % 2 ^ 32
    if isDuplicate (off e.1) e.2 = isDuplicate (off (d.get (F.RX_CUM_CUM m.session))) ((d.sess m.session).got * 2) then d else
    let d := (d.put F.PATH_STAT_DRILL_FAIL 1).put F.PATH_STAT_LAST_STAGE 5
    { d with path := { d.path with mismatch := true } }

/-- Snapshot `c` without session `s`. -/
def Snap.forget (s : Nat) (c : Snap) : Snap := { c with opened := clearBits c.opened (2 ^ s) }

/-- A run of session `s` begins or ends: what the engines hold of another run no longer counts, the verdicts on its messages
(R93), its part of the snapshots (R95) and the messages that the new active holds (R99). -/
def runForget (s : Nat) (d : Dev) : Dev :=
  { d with path := { d.path with
    verdicts := d.path.verdicts.filter (fun v => v.session != s)
    held := d.path.held.filter (fun m => m.session != s)
    cur := d.path.cur.map (Snap.forget s)
    coming := d.path.coming.map (Snap.forget s) } }

/-! ### The management receive ring (R105, R137) -/

/-- The descriptor at MRX_HEAD names a message of type `t` (R105, R137, R348). -/
def mrxWrote (t : Nat) (d : Dev) : Dev :=
  let d := d.put F.MRX_HEAD_HEAD ((d.get F.MRX_HEAD_HEAD + 1) % max 1 (d.get F.MRX_SIZE_SIZE))
  { d with jtp := { d.jtp with mrxHeld := d.jtp.mrxHeld + 1 } }.ring (if t = tDoorbell then 26 else 25)

/-- Place a whole message in the management receive ring, or drop it and count it; its source rings (R137, R348). -/
def mgmtPlace (t s seq : Nat) (raw : List Byte) (d : Dev) : Dev :=
  let h := d.get F.MRX_HEAD_HEAD
  let drop := fun (d : Dev) => d.count F.CNT_MGMT_DROP_CNT 1
  if d.get F.MRX_WMARK_WMARK ≤ d.jtp.mrxHeld ∨ h = d.get F.MRX_TAIL_TAIL ∨ cleated d mJtpRings = true then drop d else
  let a := d.get2 F.MRX_BASE_LO_BASE F.MRX_BASE_HI_BASE + 16 * h
  let r := engineRead mJtpRings a 8 d
  match r.1 with
  | none => drop r.2
  | some b =>
    let d := engineWrite mJtpRings (leAt b 0 5) raw r.2
    afterWrite mJtpRings (.mrx t) (mrxWrote t)
      (engineWrite mJtpRings (a + 8) (leBytes 2 raw.length ++ leBytes 1 t ++ leBytes 1 s ++ leBytes 4 seq) d)

/-- Firmware advances MRX_TAIL: it gives buffers back, and the records before them are no longer held. -/
def mrxTailWrite (v : Nat) (d : Dev) : Dev :=
  let n := max 1 (d.get F.MRX_SIZE_SIZE)
  let k := (v % 2 ^ 16 + n - d.get F.MRX_TAIL_TAIL % n) % n
  { d.put F.MRX_TAIL_TAIL v with jtp := { d.jtp with mrxHeld := d.jtp.mrxHeld - k } }

/-! ### Content checks (R125 to R132) -/

/-- Base and size of the session's store window, bytes (R127). -/
def winBase (d : Dev) (s : Nat) : Nat := d.get2 (F.WIN_BASE_LO_BASE s) (F.WIN_BASE_HI_BASE s)
def winSize (d : Dev) (s : Nat) : Nat := d.get (F.WIN_SIZE_SIZE s) * 4096

/-- The content checks of a data-space message: 0, or the REASON of its rejection (R114, R123 to R132). -/
def contentCheck (d : Dev) (m : JtpMsg) : Nat :=
  let p := m.payload
  match m.type with
  | 0x02 =>
    let o := beAt p 0 2
    let c := beAt p 2 2
    if p.length < 4 ∨ p.length ≠ 4 + 4 * c then rejFormat
    else if c = 0 ∨ 2303 < c ∨ o % 4 ≠ 0 ∨ o < 0x40 ∨ 0x380 < o + 4 * c - 4 then rejRange else 0
  | 0x03 => match tableShape (byteAt p 0) with
    | none => rejFormat
    | some (insts, entries, words) =>
      if insts ≤ byteAt p 1 ∨ p.length ≠ 8 + 4 * words * beAt p 2 2 then rejFormat
      else if entries < beAt p 4 4 + beAt p 2 2 then rejRange else 0
  | 0x04 =>
    if p.length < 16 then rejFormat
    else if 2 ^ 40 ≤ beAt p 0 8 then rejRange
    else layerCheck d (winBase d m.session) (winSize d m.session) (beAt p 0 8) (beAt p 8 2) (byteAt p 10) (byteAt p 11)
      (beAt p 12 4) (p.length - 16)
  | 0x05 => if p.length < 8 then rejFormat else copyOrderCheck d (beAt p 0 4) (beAt p 4 2) p.length
  | 0x06 => if p.length = 16 then 0 else rejFormat
  | 0x10 => if p.length = 8 ∧ beAt p 4 2 ≤ 15 then 0 else rejFormat
  | _ =>
    if !d.getB (F.SESS_CFG_REG_EN m.session) then rejState
    else if p.length < 16 then rejFormat
    else if beAt p 8 2 = 0 ∨ 256 < beAt p 8 2 then rejRange
    else if beAt p 0 8 % 4 ≠ 0 ∨ 2 ^ 40 ≤ beAt p 0 8 ∨ p.length ≠ 16 + (if m.type = tRegWrite then 4 * beAt p 8 2 else 0) then rejFormat
    else 0

/-! ### Performing bulk messages (R113, R116, R377) -/

/-- The page that owns a table of R126. -/
def tablePage (t : Nat) : Nat := match t with
  | 1 => 0x12 | 2 => 0x11 | 3 => 0x14 | _ => 0x5B

/-- A word of PLAN_LOAD lands in the shadow half of page 0x04: RWS fields only (R125). -/
def planWord (off v : Nat) (d : Dev) : Dev :=
  let a := 0x4000 + off
  let mk := BitVec.ofNat 32 (rwsMask a)
  d.setReg (a + 0x800) ((d.reg (a + 0x800) &&& ~~~mk) ||| (BitVec.ofNat 32 v &&& mk))

/-- Writes of `bs` from address `a`, one per 64-byte line, with their addresses. -/
def lineWrites (a : Nat) (bs : List Byte) : List (Nat × (Dev → Dev)) :=
  (linePieces (bs.length + 1) a bs.length).map (fun q =>
    (q.1, targetWrite mJtpBulk q.1 ((bs.drop (q.1 - a)).take q.2)))

/-- The writes of a bulk message in order, with the address Shroud checks for each (R125 to R128, R369). -/
def bulkWrites (d : Dev) (m : JtpMsg) : List (Nat × (Dev → Dev)) :=
  let p := m.payload
  match m.type with
  | 0x02 => (List.range (beAt p 2 2)).map (fun k =>
      (0x40004800 + beAt p 0 2 + 4 * k, planWord (beAt p 0 2 + 4 * k) (beAt p (4 + 4 * k) 4)))
  | 0x03 =>
    let sz := if byteAt p 0 = 1 then 8 else 4
    (List.range (beAt p 2 2)).map (fun k =>
      (0x40000000 + 0x1000 * tablePage (byteAt p 0),
       tableWrite (byteAt p 0) (byteAt p 1) (beAt p 4 4 + k) 1 (p.drop (8 + sz * k))))
  | 0x04 => lineWrites (beAt p 0 8) (p.drop 16)
  | _ =>
    let first := beAt p 0 4
    let bs := wordsLe (p.length + 1) (p.drop 8)
    let n0 := min (beAt p 4 2) (65536 - first)
    lineWrites (corBase d + 32 * first) (bs.take (32 * n0)) ++ lineWrites (corBase d) (bs.drop (32 * n0))

/-- Whether bulk writes wait: JTP bulk is cleated, or the rate change holds requests (R330, R377). -/
def bulkBlocked (d : Dev) : Bool := cleated d mJtpBulk || d.getB F.DRAMC_FCHG_BUSY

/-- Make the writes of a list until one is held back; the answer counts those done. A violating write is dropped. -/
def runWrites : List (Nat × (Dev → Dev)) → Nat → Dev → Nat × Dev
  | [], n, d => (n, d)
  | w :: ws, n, d =>
    if bulkBlocked d then (n, d) else
    let v := shroudCheck d mJtpBulk kindWrite w.1 false
    runWrites ws (n + 1) (if v.1 then w.2 (shadowNote d) else violation mJtpBulk kindWrite w.1 v.2 d)

/-- Perform held bulk messages of session `s`, oldest first; a block that is not enabled begins no other (R361). -/
def heldRun : Nat → Nat → Dev → Dev
  | 0, _, d => d
  | f + 1, s, d =>
    match (d.sess s).held with
    | [] => d
    | h :: l =>
      if !d.enabled 0x0D && h.done == 0 then d else
      let ws := bulkWrites d h.msg
      let r := runWrites (ws.drop h.done) h.done d
      let x := r.2.sess s
      if r.1 < ws.length then r.2.setSess s { x with held := { h with done := r.1 } :: l }
      else heldRun f s (r.2.setSess s { x with held := l })

/-! ### Performing what CUM has passed (R113, R130, R132, R162, R166) -/

/-- The answer to EPOCH_COMMIT (R130). -/
def commitAnswerBytes (a : CommitAnswer) (reqSeq : Nat) : List Byte :=
  beBytes 1 a.status ++ beBytes 1 a.page ++ beBytes 1 a.code ++ beBytes 1 a.inst ++ beBytes 4 a.demand ++ beBytes 4 a.budget
    ++ beBytes 4 reqSeq

/-- The pages a COMMIT message selects (R130). -/
def commitPages (p : List Byte) : List Nat :=
  (List.range 128).filter (fun k => bit (beAt p (4 * (k / 32)) 4) (k % 32))

/-- Whether a message must wait at the head of `todo`: a bulk message not yet performed, a register request, or a plan
commit while the checker runs (R113, R436). -/
def mustWait (d : Dev) (m : JtpMsg) : Bool :=
  (isBulk m.type && (d.sess m.session).held.any (fun h => h.msg.seq == m.seq)) ||
  m.type == tRegRead || m.type == tRegWrite ||
  (m.type == tEpochCommit && d.planCheck.isSome && (commitPages m.payload).contains 0x04)

/-- A fill mark advances for a message that the CUM of snapshot `c` had passed: the snapshot's mark goes with it (R95). -/
def Snap.passed (d : Dev) (m : JtpMsg) (c : Snap) : Snap :=
  if !bit c.opened m.session || !precedes m.seq (cellGet (0, 0) c.rx m.session).1 then c
  else if m.type = tCopyOrder then { c with corFill := d.get F.STORE_COR_FILL_FILL }
  else c.setFill d (beAt m.payload 8 2)

def snapPassed (m : JtpMsg) (d : Dev) : Dev :=
  { d with path := { d.path with cur := d.path.cur.map (Snap.passed d m), coming := d.path.coming.map (Snap.passed d m) } }

/-- Deal with one message that CUM has passed. -/
def performPassed (m : JtpMsg) (d : Dev) : Dev :=
  let p := m.payload
  match m.type with
  | 0x04 => snapPassed m (fillAdvance (beAt p 8 2) (beAt p 0 8) (beAt p 12 4) (p.length - 16) d)
  | 0x05 => snapPassed m (copyOrderPassed (beAt p 0 4) (beAt p 4 2) d)
  | 0x06 =>
    let r := epochCommit (commitPages p) m.epoch m.job (m.session, m.seq) d
    match r.1 with
    | some a => respond m.session tEpochCommit (commitAnswerBytes a m.seq) r.2
    | none => r.2
  | 0x10 => mgmtPlace tDoorbell m.session m.seq m.raw d
  | _ => d

/-- Deal with the messages that CUM has passed, in order, as far as nothing must wait. -/
def todoRun : Nat → Nat → Dev → Dev
  | 0, _, d => d
  | f + 1, s, d =>
    match (d.sess s).todo with
    | [] => d
    | m :: l => if mustWait d m then d else todoRun f s (performPassed m (d.setSess s { d.sess s with todo := l }))

/-- How many messages `todo` can hold: the window. -/
def todoFuel : Nat := 200

/-- Everything of session `s` that can go on, goes on: held bulk messages, then what waits behind them; credit that has
grown by CREDIT_STEP is granted (R115). -/
def sessWork (s : Nat) (d : Dev) : Dev :=
  let d := todoRun todoFuel s (heldRun todoFuel s d)
  if sessOpen d s && decide ((d.sess s).creditSent + d.get F.JTP_CFG_CREDIT_STEP ≤ grant d s) then feedback s tCredit 0 0 d else d

/-- The same for every session. -/
def jtpWork (d : Dev) : Dev := forN 16 sessWork d

/-! ### Sessions (R120, R121, R123) -/

/-- JTP_STAGE.FREE and the states of the sessions follow SESS_CFG. -/
def stageUpdate (d : Dev) : Dev :=
  let used := (List.range 16).foldl (fun a s => if d.getB (F.SESS_CFG_EN s) then a + d.get (F.SESS_CFG_CREDIT_MAX s) else a) 0
  d.put F.JTP_STAGE_FREE (d.get F.JTP_STAGE_UNITS - used)

/-- A session leaves OPEN or is closed (R120, R121): its keys become STALE, messages in flight are discarded, held bulk
messages stay to be performed, and records under way go back to their rings. -/
def sessClose (s state : Nat) (d : Dev) : Dev :=
  let x := d.sess s
  let wasOpen := sessOpen d s
  let dropped := (x.waiting ++ x.todo).filter (fun m => m.type == tCopyOrder)
  let recs (t : Nat) : Bool := x.sent.any (fun m => m.type == t && m.records != 0)
  let d := forL dropped (fun m d =>
    forN (beAt m.payload 4 2) (fun k d =>
      let i := (beAt m.payload 0 4 + k) % 65536
      { d with corPending := cellSet 0 d.corPending i (cellGet 0 d.corPending i - 1) }) d) d
  let d := { d with jtp := { d.jtp with
    vrdSent := if recs tVerdict then 0 else d.jtp.vrdSent
    plogSent := if recs tPrintLog then 0 else d.jtp.plogSent } }
  let d := d.setSess s { x with
    got := 0, waiting := [], todo := [], sent := [], queue := [], since := 0, firstAt := none, nakCum := none, copies := [] }
  let evs := d.evq.filterMap (fun (e : EventMsg) =>
    let t := clearBits e.todo (2 ^ s)
    if t = 0 then none else some { e with todo := t })
  let d := { d with evq := evs }.put (F.SESS_STAT_STATE s) state
  let d := if wasOpen then (d.put (F.SESS_STAT_STALE0 s) 1).put (F.SESS_STAT_STALE1 s) 1 else d
  heldRun todoFuel s (runForget s d)

/-- A write of SESS_CFG[s] (R121): refused while OPEN when it changes other fields than EN and TX_KEY, with a CREDIT_MAX of 0,
and when the reservations would exceed UNITS. -/
def sessCfgWrite (s v : Nat) (d : Dev) : Dev :=
  let old := (d.reg (R.SESS_CFG s)).toNat
  let fixed := setBits (setBits (v % 2 ^ 32) 0 1 0) 4 1 0
  let oldFixed := setBits (setBits old 0 1 0) 4 1 0
  let v' := setBits v 5 3 0
  let used := (List.range 16).foldl (fun a t =>
    if t = s then (if bit v 0 then a + bits v 8 8 else a)
    else if d.getB (F.SESS_CFG_EN t) then a + d.get (F.SESS_CFG_CREDIT_MAX t) else a) 0
  if sessOpen d s && setBits fixed 5 3 0 != oldFixed then d.refuseAt (R.SESS_CFG s)
  else if bits v 8 8 = 0 ∨ (bit v 0 = true ∧ d.get F.JTP_STAGE_UNITS < used) then d.refuseAt (R.SESS_CFG s)
  else
    let was := bit old 0
    let d := d.setReg (R.SESS_CFG s) (BitVec.ofNat 32 v')
    let d := if was && !bit v 0 then sessClose s 0 d
      else if !was && bit v 0 then d.put (F.SESS_STAT_STATE s) 1 else d
    stageUpdate d

/-- SESSION_ENABLE and SESSION_DISABLE: EN of SESS_CFG[s] is written, its other fields kept. -/
def sessEnable (s : Nat) (d : Dev) : Dev := sessCfgWrite s (setBit (d.reg (R.SESS_CFG s)).toNat 0) d

def sessDisable (s : Nat) (d : Dev) : Dev := sessCfgWrite s (clearBits (d.reg (R.SESS_CFG s)).toNat 1) d

/-- JTP_KEY_SEL.LOAD: the key data moves into the slot, which is no longer STALE (R120). -/
def keyLoad (d : Dev) : Dev :=
  let s := d.get F.JTP_KEY_SEL_SESSION
  let slot := d.get F.JTP_KEY_SEL_SLOT
  let k := (List.range 8).foldl (fun a i => a * 2 ^ 32 + d.get (F.JTP_KEY_DATA_KEY i)) 0
  let d := forN 8 (fun i d => d.put (F.JTP_KEY_DATA_KEY i) 0) d
  let x := d.sess s
  let x := { x with keys := cellSet none x.keys slot (some k), keyUse := cellEraseRange x.keyUse (2 * slot) (2 * slot + 2) }
  (d.setSess s x).put (staleField s slot) 0

/-- The session opens (R123). -/
def sessOpenNow (m : JtpMsg) (d : Dev) : Dev :=
  let s := m.session
  let x := d.sess s
  let d := runForget s d
  let d := d.setSess s { x with
    got := 0, waiting := [], todo := [], fbRx := some m.seq, txNum := 0, fbNum := 0, maxPayload := beAt m.payload 4 2
    peerCum := 0, peerMap := 0, credit := beAt m.payload 6 2, sent := [], queue := [], since := 0, firstAt := none
    nakCum := none, creditSent := 0, copies := [] }
  helloReply s 0 (((d.put (F.SESS_STAT_STATE s) 2).put (F.RX_CUM_CUM s) (beAt m.payload 8 4)).put (F.TX_NEXT_NEXT s) 0)

/-- A HELLO from a configured peer, its counter accepted (R123). -/
def hello (m : JtpMsg) (d : Dev) : Dev :=
  let s := m.session
  let mode := byteAt m.payload 0
  if sessOpen d s then
    match mode with
    | 0 =>
      if beAt m.payload 8 4 = d.get (F.RX_CUM_CUM s) then helloReply s 0 d
      else (helloReply s 1 d).raise 0x0D 1
    | 2 => helloReply s 0 d
    | 3 => sessClose s 1 d
    | _ => d
  else match mode with
    | 0 =>
      if d.getB (F.SESS_CFG_AUTH_REQ s) && d.getB (staleField s (d.get (F.SESS_CFG_TX_KEY s))) then helloReply s 2 d
      else sessOpenNow m d
    | 2 => helloReply s 0 d
    | _ => d

/-! ### Receiving (R111 to R116, R124) -/

/-- Whether this is the second port copy of a message whose first copy came by the other port; `k` tells the spaces apart. -/
def secondCopy (x : Sess) (k port : Nat) : Bool := x.copies.any (fun c => c.1 == k && c.2 != port)

def noteCopy (s k port : Nat) (d : Dev) : Dev :=
  let x := d.sess s
  d.setSess s { x with copies := ((k, port) :: x.copies.filter (fun c => c.1 != k)).take 256 }

def forgetCopy (s k : Nat) (d : Dev) : Dev :=
  d.setSess s { d.sess s with copies := (d.sess s).copies.filter (fun c => c.1 != k) }

/-- A feedback-space message of an enabled session: counter, then content (R112). -/
def feedbackRx (m : JtpMsg) (d : Dev) : Dev :=
  let s := m.session
  let x := d.sess s
  let k := m.seq + 2 ^ 32
  let stale := match x.fbRx with
    | some c => (sessOpen d s || s == 0) && !follows m.seq c
    | none => false
  let len := if m.type = tHello then 28 else if m.type = tCredit then 8 else if m.type = tPosition then 32 else 24
  if stale || secondCopy x k m.port then (forgetCopy s k d).count F.CNT_DUP_CNT 1
  else if m.payload.length ≠ len then d.count F.CNT_FORMAT_CNT 1
  else
    let d := noteCopy s k m.port d
    if m.type = tHello then hello m (if sessOpen d s then d.setSess s { d.sess s with fbRx := some m.seq } else d)
    else
      let d := d.setSess s { d.sess s with fbRx := some m.seq }
      let p := m.payload
      match m.type with
      | 0x07 => peerFeedback s (beAt p 0 4) (beAt p 4 8) (beAt p 12 4) none d
      | 0x08 => peerFeedback s (beAt p 0 4) (beAt p 4 8) (beAt p 12 4) (if byteAt p 16 = 1 then some (beAt p 20 4) else none) d
      | 0x09 => peerFeedback s (beAt p 0 4) (shiftedMap (d.sess s) (beAt p 0 4)) (beAt p 4 4) none d
      | _ => vencAccept p d

/-- CUM advances past what has been received without a gap: how far, and the bitmap then (R111). -/
def cumSteps : Nat → Nat → Nat × Nat
  | 0, g => (0, g)
  | f + 1, g =>
    if g % 2 = 1 then
      let r := cumSteps f (g / 2)
      (r.1 + 1, r.2)
    else (1, g / 2)

/-- Feedback that an accepted or rejected message calls for (R115): `o` its distance above the old CUM, `reason` of its
rejection, `filled` and `ctl` whether CUM filled a reported gap or passed a non-bulk message. -/
def answerData (s o seq reason : Nat) (filled ctl : Bool) (d : Dev) : Dev :=
  let x := d.sess s
  let cum := d.get (F.RX_CUM_CUM s)
  if reason ≠ 0 then sendNak s reason seq d
  else if filled || ctl then sendAck s d
  else if o ≠ 0 ∧ (x.nakCum ≠ some cum ∨ x.nakAt + d.get F.JTP_TMR_NAK_HOLD * 1000 ≤ d.now) then sendNak s 1 cum d
  else if d.get F.JTP_CFG_ACK_N ≤ x.since then sendAck s d
  else d

/-- A data-space message in window and not yet received has passed steps 6 to 8: content, then performing (R113, R115,
R124). -/
def dataAccept (o : Nat) (m : JtpMsg) (d : Dev) : Dev :=
  let s := m.session
  let reason := contentCheck d m
  let d := if isControl m.type then snapEnter s m.seq d else d
  let x := d.sess s
  let d := if reason ≠ 0 then d.count F.CNT_REJECT_CNT 1 else
    let x := if isBulk m.type then { x with held := x.held ++ [⟨m, 0⟩] } else x
    let d := (d.setSess s { x with waiting := x.waiting ++ [m] }).put (F.JOB_JOB s) m.job
    heldRun todoFuel s (if m.type = tCopyOrder then copyOrderPending (beAt m.payload 0 4) (beAt m.payload 4 2) d else d)
  let x := d.sess s
  let cum := d.get (F.RX_CUM_CUM s)
  let st := if o = 0 then cumSteps 65536 x.got else (0, setBit x.got (o - 1))
  let passed := (List.range st.1).filterMap (fun k => x.waiting.find? (fun w => w.seq == (cum + k) % 2 ^ 32))
  let filled := decide (0 < st.1) && x.nakCum.isSome
  let d := d.setSess s { x with
    got := st.2
    waiting := x.waiting.filter (fun w => !passed.contains w)
    todo := x.todo ++ passed
    since := x.since + 1
    firstAt := some (x.firstAt.getD d.now)
    nakCum := if filled then none else x.nakCum }
  let d := d.put (F.RX_CUM_CUM s) (cum + st.1)
  sessWork s (answerData s o m.seq reason filled (passed.any (fun w => !isBulk w.type)) d)

/-- A data-space message of an OPEN session: sequence, standby, credit (R94, R111, R116). -/
def dataRx (m : JtpMsg) (d : Dev) : Dev :=
  let s := m.session
  let x := d.sess s
  let o := (m.seq + 2 ^ 32 - d.get (F.RX_CUM_CUM s)) % 2 ^ 32
  if o ≤ 64 ∧ (o = 0 ∨ bit x.got (o - 1) = false) then
    if isBulk m.type && m.port != activePort d then d.count (F.CNT_STBY_BULK_CNT m.port) 1
    else if isBulk m.type && decide (d.get (F.SESS_CFG_CREDIT_MAX s) < heldCost x + ceilDiv m.raw.length 4096) then
      d.count F.CNT_CREDIT_CNT 1
    else dataAccept o m d
  else if o ≤ 64 ∨ 2 ^ 32 - 65536 ≤ o then
    sendAck s (d.count F.CNT_DUP_CNT 1)
  else sendAck s (d.count F.CNT_WINDOW_CNT 1)

/-- A message of an enabled session that has passed steps 1 to 4: state, then its space (R121, R124). -/
def jtpInput (m : JtpMsg) (d : Dev) : Dev :=
  let s := m.session
  let d := drillHeard m.port d
  if (if s = 0 then m.type ≠ tPosition else m.type = tPosition ∨ (sessOpen d s = false ∧ m.type ≠ tHello)) then
    d.count F.CNT_STATE_CNT 1
  else
    let d := if isControl m.type then standbyCheck m (portVerdict m.port s m.seq (isFeedback m.type) true (controlSeen m.port d)) else d
    if isFeedback m.type then feedbackRx m d else dataRx m d

/-- A message that has passed steps 1 to 4 reaches the engines: while a switchover is under way the old active accepts
nothing, and the new one holds what fits its 64 KB buffer (R99). -/
def jtpArrive (m : JtpMsg) (d : Dev) : Dev :=
  match d.path.resume with
  | none => jtpInput m d
  | some _ =>
    let n := d.path.held.foldl (fun a h => a + h.raw.length) 0
    if m.port = activePort d ∨ 65536 < n + m.raw.length then d
    else { d with path := { d.path with held := d.path.held ++ [m] } }

/-- Whether session `s` is enabled and its peer is `src` with UDP port `sport`; session 0 takes any source (R124). -/
def peerMatches (d : Dev) (s : Nat) (v6 : Bool) (src sport : Nat) : Bool :=
  decide (s < 16) && d.getB (F.SESS_CFG_EN s) &&
  (s == 0 || (v6 == d.getB (F.SESS_CFG_IP6 s) && src == (if v6 then peerIp6 d s else d.get (F.PEER_IP4_ADDR s))
    && sport == d.get (F.SESS_CFG_PEER_PORT s)))

/-- Whether a datagram of session 0 came to the group of its peer fields (R124, R136). -/
def groupMatches (d : Dev) (s : Nat) (v6 : Bool) (dst : Nat) : Bool :=
  s != 0 || (v6 == d.getB (F.SESS_CFG_IP6 0) && dst == (if v6 then peerIp6 d 0 else d.get (F.PEER_IP4_ADDR 0)))

/-- Authentication of a message (step 4): the payload in clear, or none; POSITION comes from the position publisher (R119). -/
def jtpOpen (d : Dev) (bs : List Byte) : Option (List Byte) :=
  let s := beAt bs 4 2
  let len := beAt bs 6 2
  let body := (bs.drop 24).take len
  if byteAt bs 3 % 2 = 0 then (if d.getB (F.SESS_CFG_AUTH_REQ s) then none else some body)
  else
    let slot := byteAt bs 20
    match (if slot < 2 then cellGet none (d.sess s).keys slot else none) with
    | none => none
    | some k =>
      (gcmOpen (bytesOf 32 k) (jtpIv s (if byteAt bs 1 = tPosition then 1 else 0) slot (byteAt bs 3 / 2 % 2) (beAt bs 8 4)) (toNats (bs.take 24)) (toNats body)
        (toNats ((bs.drop (24 + len)).take 16))).map toBytes

/-- A JTP datagram arrives on port `q` from `src`, port `sport`, for `dst`: steps 1 to 4 of R124, and the engines' verdict
(R93). -/
def jtpDatagram (q : Nat) (v6 : Bool) (src dst sport : Nat) (bs : List Byte) (d : Dev) : Dev :=
  let t := byteAt bs 1
  let fl := byteAt bs 3
  let s := beAt bs 4 2
  let len := beAt bs 6 2
  let fb := bit fl 1
  if !d.enabled 0x0D then d else
  let d := if d.path.resume.isNone then drillHeard q d else d
  let fail := fun (f : RegField) (d : Dev) =>
    (if isControl t && s < 16 then portVerdict q s (beAt bs 8 4) fb false d else d).count f 1
  if bs.length < 28 || byteAt bs 0 != 1 || !isReceived t || fb != isFeedback t || decide (9216 < len) ||
      bs.length != 24 + len + (if bit fl 0 then 16 else 0) + 4 then d.count F.CNT_FORMAT_CNT 1
  else if beAt bs (bs.length - 4) 4 ≠ crc32c (bs.take (bs.length - 4)) then fail F.CNT_CRC_CNT d
  else if !(peerMatches d s v6 src sport && groupMatches d s v6 dst) then
    (if t = tHello ∧ byteAt bs 24 = 0 then mgmtPlace tHello s (beAt bs 8 4) bs d else d.count F.CNT_SESSION_CNT 1)
  else match jtpOpen d bs with
    | none => fail F.CNT_AUTH_CNT d
    | some p => jtpArrive { port := q, type := t, session := s, seq := beAt bs 8 4, job := beAt bs 12 4, epoch := beAt bs 16 4,
                            payload := p, raw := bs } d

/-- A message of TYPE `t` from the configured peer of session `s` arrives whole, sound and authenticated on port `q`: what
the rows of chapter 06 stand for; nothing comes while the port's link is down (R98). -/
def jtpMessage (q t s seq job epoch : Nat) (payload : List Byte) (d : Dev) : Dev :=
  let key := if d.getB (F.SESS_CFG_AUTH_REQ s) then sendKey d s else none
  let m : JtpMsg := { port := q, type := t, session := s, seq := seq % 2 ^ 32, job := job % 2 ^ 32, epoch := epoch % 2 ^ 32
                      payload := payload
                      raw := jtpBytes t (b2n (isFeedback t) * 2) s (seq % 2 ^ 32) job epoch (if t = tPosition then 1 else 0) key payload }
  if !d.enabled 0x0D || !ethUp d q then d else
  let d := if d.path.resume.isNone then drillHeard q d else d
  if 9216 < payload.length then d.count F.CNT_FORMAT_CNT 1
  else if 15 < s ∨ d.getB (F.SESS_CFG_EN s) = false then
    (if t = tHello ∧ byteAt payload 0 = 0 then mgmtPlace tHello s m.seq m.raw d else d.count F.CNT_SESSION_CNT 1)
  else if d.getB (F.SESS_CFG_AUTH_REQ s) && key.isNone then d.count F.CNT_AUTH_CNT 1
  else jtpArrive m d

/-- A HELLO OPEN; one from a source that matches no configured session goes to the management receive ring (R123). -/
def helloOpen (q : Nat) (known : Bool) (s seq job epoch : Nat) (body : List Byte) (d : Dev) : Dev :=
  if known then jtpMessage q tHello s seq job epoch (0 :: body) d
  else if !d.enabled 0x0D || !ethUp d q then d
  else
    let d := if d.path.resume.isNone then drillHeard q d else d
    mgmtPlace tHello s (seq % 2 ^ 32) (jtpBytes tHello 2 s (seq % 2 ^ 32) job epoch 0 none (0 :: body)) d

/-- The plan checker finishes: the EPOCH_COMMIT that waited for it is answered, and what waited behind it goes on (R24,
R130). A plan that activates in mid-beat with PUBLISHER set has the sample of that beat sent (R59). -/
def planChecked (d : Dev) : Dev :=
  let was := d.planActive
  let r := planCheckDone d
  let d := match r.1 with
    | some (s, seq, a) => respond s tEpochCommit (commitAnswerBytes a seq) r.2
    | none => r.2
  jtpWork (if !was && d.planActive then vencMulticast d.beatNum d else d)

end Sys2Proof.Machine
end

