-- ==== Sys2Proof/Machine/Steppers.lean ====
section
/-! DEFINITION. The stepper axes (chapter 13, R312 to R320): the S-curve generator, moves, stops, stalls and homing. -/
namespace Sys2Proof.Machine

def Dev.axis (d : Dev) (a : Nat) : Axis := cellGet {} d.mot.axes a

def Dev.setAxis (d : Dev) (a : Nat) (x : Axis) : Dev :=
  { d with mot := { d.mot with axes := cellSet {} d.mot.axes a x } }

/-- F of R314, Hz. -/
def stepClock : Nat := 200000000

/-- The motor of axis `a` is powered: ENA is active (R312). -/
def axisOn (d : Dev) (a : Nat) : Bool := d.enabled 0x4B && d.getB (F.STP_CFG_EN a)

/-- An axis whose v is 0 takes DIR_INV over: DIR changes at no other time (R313). -/
def axisInv (d : Dev) (a : Nat) (x : Axis) : Axis := if x.v = 0 then { x with inv := d.getB (F.STP_CFG_DIR_INV a) } else x

/-- ENA, ISEL and DIR follow the axis (R312, R313, R318): full current whenever ENA is active and it is not homing. DIR changes
at least DIR_SETUP cycles before the next STEP edge. -/
def axisShow (a : Nat) (d : Dev) : Dev :=
  let x := axisInv d a (d.axis a)
  let turns := d.pinLevel .dir a != b2n (x.up != x.inv)
  let x := if turns then { x with due := max x.due (d.now + 5 * d.get F.STEP_CFG_DIR_SETUP) } else x
  let d := d.setAxis a x
  let on := axisOn d a
  let d := d.drive .ena a (b2n on)
  let d := d.drive .isel a (b2n (on && x.mode != .homing))
  let d := d.drive .dir a (b2n (x.up != x.inv))
  (d.putB (F.STP_STAT_MOVING a) (x.mode != .still)).putB (F.STP_STAT_HOMING a) (x.mode == .homing)

def axesShow (d : Dev) : Dev := forN 8 axisShow d

/-- STP_POS as a number. -/
def axisPos (d : Dev) (a : Nat) : Int := d.getI (F.STP_POS_POS a)

/-! ### The generator (R314) -/

/-- Limits of a move: VMAX, VSTART, AMAX, JMAX. -/
structure Limits where
  vmax : Nat
  vstart : Nat
  amax : Nat
  jmax : Nat
  deriving DecidableEq, Repr

/-- The limits in force: VHOME replaces VMAX while homing (R317). -/
def limitsOf (d : Dev) (a : Nat) (homing : Bool) : Limits :=
  { vmax := if homing then d.get (F.STP_HOME_VHOME a) else d.get (F.STP_VMAX_V a)
    vstart := d.get (F.STP_VSTART_V a), amax := d.get (F.STP_AMAX_A a), jmax := d.get (F.STP_JMAX_J a) }

/-- vs as a fraction over `2^32 × 2 JMAX`. -/
def vsNum (m : Limits) (v : Nat) (a : Int) : Nat := v * 2 ^ 16 * (2 * m.jmax) + (if 0 < a then (a * a).toNat else 0)
def vsDen (m : Limits) : Nat := 2 ^ 32 * (2 * m.jmax)

/-- sstop: the steps a jerk-limited stop takes. -/
def stopSteps (m : Limits) (v : Nat) (a : Int) : Nat :=
  let n := vsNum m v a
  let dn := vsDen m
  let pos := if 0 < a then a.toNat else 0
  let den := dn * dn * (2 * m.amax) * (2 * m.jmax) * 2 ^ 16
  let num := n * n * (2 * m.jmax) * 2 ^ 16 + n * m.amax * dn * (2 * m.amax) * 2 ^ 16 + n * pos * dn * (2 * m.amax) * 2
  if den = 0 then 0 else ceilDiv num den

/-- The interval in cycles before the next STEP edge at speed `v`. -/
def stepInterval (m : Limits) (v : Nat) : Nat :=
  max 400 (min (ceilDiv (stepClock * 2 ^ 16) (max v (m.vstart * 2 ^ 16))) (2 ^ 32 - 1))

/-- v and a after a step interval of `iv` cycles, `near` when the steps to go are no more than sstop. -/
def stepUpdate (m : Limits) (near : Bool) (iv v : Nat) (a : Int) : Nat × Int :=
  let f : Int := stepClock
  let amax : Int := (m.amax * 2 ^ 16 : Nat)
  let low := a < 0 ∧ ((v * 2 ^ 16 * (2 * m.jmax) : Nat) : Int) ≤ a * a
  let at_ : Int :=
    if near then (if low then 0 else -amax) else if m.vmax * vsDen m ≤ vsNum m v a then 0 else amax
  let lim : Int := (m.jmax * iv * 2 ^ 16 : Nat)
  let da := (at_ - a) * f
  let da := if da < -lim then -lim else if lim < da then lim else da
  let a1 := (a * f + da).tdiv f
  let v1 := (v : Int) + a1 * iv / f
  (min (satU 64 v1) (m.vmax * 2 ^ 16), a1)

/-- Steps to go in the direction of travel; none while homing, whose target is unbounded. -/
def stepsLeft (x : Axis) : Option Int :=
  if x.mode = .homing then none else some (if x.up then x.left else -x.left)

/-- Compute the interval to the next STEP edge and load it (R314). -/
def axisNext (a : Nat) (d : Dev) : Dev :=
  let x := axisInv d a (d.axis a)
  let m := limitsOf d a (x.mode = .homing)
  let iv := stepInterval m x.v
  let near := x.turn || (match stepsLeft x with
    | some n => decide (n ≤ (stopSteps m x.v x.a : Int))
    | none => false)
  let (v, acc) := stepUpdate m near iv x.v x.a
  d.setAxis a { x with v := v, a := acc, due := d.now + iv * 5 }

/-! ### Moves and stops -/

/-- The axis stands still: v and a are 0. -/
def axisStill (x : Axis) : Axis := { x with mode := .still, turn := false, left := 0, v := 0, a := 0, homed := 0 }

/-- Set the axis moving in mode `mode` with `left` signed steps to go, or toward `up` while homing: from standstill it
starts, and a moving axis is retargeted, reversing where the target lies behind or within the stopping distance (R313); with v
at 0 it ends at its target or reverses at once. With AMAX or JMAX 0, R314 gives no stopping distance: whether a target ahead is
within it is free. -/
def axisGo (a : Nat) (mode : AxisMode) (left : Int) (up : Bool) (d : Dev) : Dev :=
  let x := d.axis a
  if x.mode = .still then
    axisShow a (axisNext a (d.setAxis a { x with mode := mode, up := up, turn := false, left := left, homed := 0 }))
  else
    let y := { x with mode := mode, left := left, homed := 0 }
    let m := limitsOf d a false
    if mode = .move ∧ left = 0 ∧ x.v = 0 then axisShow a (d.setAxis a (axisStill x))
    else if mode = .move ∧ x.v = 0 ∧ decide (0 < left) ≠ x.up then
      axisShow a (axisNext a (d.setAxis a { y with turn := false, up := decide (0 < left) }))
    else
    let (turn, d) := match stepsLeft y with
      | some n =>
        if 0 ≤ n ∧ m.amax * m.jmax = 0 then let (v, d) := d.free 1; (decide (v = 1), d)
        else (decide (n < (stopSteps m y.v y.a : Int)), d)
      | none => (up != y.up, d)
    axisShow a (d.setAxis a { y with turn := turn })

/-- Stop the pulses at once (R315); above VSAFE the position becomes uncertain. -/
def axisStop (a : Nat) (d : Dev) : Dev :=
  let x := d.axis a
  let lost := d.get (F.STP_VSAFE_V a) * 2 ^ 16 < x.v
  let d := d.setAxis a (axisStill x)
  let d := if lost then d.put (F.STP_STAT_UNCERTAIN a) 1 else d
  axisShow a d

/-- STP_CMD.MOVE, relative when `rel` (R313): ignored with PG_FAULT during homing, refused while the axis is in fault
(R316). -/
def stpMove (a : Nat) (rel : Bool) (d : Dev) : Dev :=
  let x := d.axis a
  if x.mode = .homing ∨ d.get (F.STP_STAT_FAULT a) ≠ 0 then d.refuseAt (R.STP_CMD a)
  else if !axisOn d a then d
  else
    let t := d.getI (F.STP_TARGET_T a)
    let left := if rel then t else t - axisPos d a
    if left = 0 ∧ x.mode = .still then d else axisGo a .move left (decide (0 < left)) d

/-- STP_CMD.STOP (R315). -/
def stpStop (a : Nat) (d : Dev) : Dev := if (d.axis a).mode = .still then d else axisStop a d

/-- STP_CMD.HOME (R317): without a stall source it is ignored and sets PG_FAULT. -/
def stpHome (a : Nat) (d : Dev) : Dev :=
  if d.get (F.STP_CFG_STALL_SRC a) = 0 then d.refuseAt (R.STP_CMD a)
  else if !axisOn d a || (d.axis a).mode == .homing then d
  else axisGo a .homing 0 (d.getB (F.STP_CFG_HOME_DIR a)) d

/-- STP_CMD.SET_POS (R315): loads STP_POS while the axis stands still, and the position is referenced again. -/
def stpSetPos (a : Nat) (d : Dev) : Dev :=
  if (d.axis a).mode = .still then
    (d.put (F.STP_POS_POS a) (d.get (F.STP_TARGET_T a))).put (F.STP_STAT_UNCERTAIN a) 0
  else d

/-- STP_CMD.CLR_FAULT (R316). -/
def stpClrFault (a : Nat) (d : Dev) : Dev := d.put (F.STP_STAT_FAULT a) 0

/-- A write of STP_CMD: CLR_FAULT, then STOP alone, or SET_POS and HOME or MOVE (R313, R315 to R317). -/
def stpCmdWrite (a v : Nat) (d : Dev) : Dev :=
  let d := if bit v 5 then stpClrFault a d else d
  if bit v 2 then stpStop a d
  else
    let d := if bit v 4 then stpSetPos a d else d
    if bit v 3 then stpHome a d else if bit v 0 then stpMove a (bit v 1) d else d

/-- STP_CFG.EN cleared (R312): a moving axis stops and its position becomes uncertain. -/
def stpDisable (a : Nat) (d : Dev) : Dev :=
  let moving := (d.axis a).mode != .still
  let d := d.put (F.STP_CFG_EN a) 0
  let d := if moving then (axisStop a d).put (F.STP_STAT_UNCERTAIN a) 1 else d
  axisShow a d

/-- A write of STP_CFG. -/
def stpCfgWrite (a v : Nat) (d : Dev) : Dev :=
  let was := d.getB (F.STP_CFG_EN a)
  let d := d.setReg (R.STP_CFG a) (BitVec.ofNat 32 (v % 64))
  if was && !bit v 0 then stpDisable a d else axisShow a d

/-- The stall taken as the reference while homing (R317): the pulses stop, the position is loaded, and the axis backs off
at full current. -/
def homeReference (a : Nat) (byOvr : Bool) (d : Dev) : Dev :=
  let up := d.getB (F.STP_CFG_HOME_DIR a)
  let d := d.setAxis a (axisStill (d.axis a))
  let d := (d.put (F.STP_POS_POS a) (d.get (F.STP_HOME_POS_POS a))).put (F.STP_STAT_HOMED a) 1
  let d := (d.putB (F.STP_STAT_BY_OVR a) byOvr).put (F.STP_STAT_UNCERTAIN a) 0
  let n : Int := (d.get (F.STP_HOME_BACKOFF a) : Nat)
  if n = 0 then axisShow a d else axisGo a .move (if up then -n else n) (!up) d

/-- STALL[a] has held its active level for 1 µs: a fault outside homing, the reference while homing (R316, R317). -/
def stallInput (a : Nat) (d : Dev) : Dev :=
  if d.get (F.STP_CFG_STALL_SRC a) % 2 = 0 then d
  else if (d.axis a).mode = .homing then homeReference a false d
  else ((axisStop a d).put (F.STP_STAT_UNCERTAIN a) 1 |>.put (F.STP_STAT_FAULT a) 1).raise 0x4B 0

/-- The axis timer expires (R314): a STEP edge is issued and counted, and the generator goes on, reverses at v 0, ends
the move at its target or ends the homing at the overrun. The pulse's fall follows after PULSE cycles. -/
def stepPulse (a : Nat) (d : Dev) : Dev :=
  let x := d.axis a
  if 8 ≤ a ∨ x.mode = .still ∨ d.now < x.due then d
  else
    let s : Int := if x.up then 1 else -1
    let d := (d.drive .step a 1).drive .step a 0
    let d := d.putI (F.STP_POS_POS a) (axisPos d a + s)
    let n := d.get2 (F.STP_STEPS_LO_STEPS a) (F.STP_STEPS_HI_STEPS a)
    let d := d.put2 (F.STP_STEPS_LO_STEPS a) (F.STP_STEPS_HI_STEPS a) (min (n + 1) (2 ^ 48 - 1))
    let x := { x with left := x.left - s, homed := x.homed + 1, pulseEnd := d.now + 5 * d.get F.STEP_CFG_PULSE }
    if x.mode = .homing then
      let ovr := decide (2 ≤ d.get (F.STP_CFG_STALL_SRC a)) && decide (d.get (F.STP_HOME_OVR_OVR a) ≤ x.homed)
      if ovr then homeReference a true (d.setAxis a x)
      else
        let x := if x.turn && x.v == 0 then { x with turn := false, up := !x.up } else x
        axisShow a (axisNext a (d.setAxis a x))
    else if x.turn then
      if x.v ≠ 0 then axisShow a (axisNext a (d.setAxis a x))
      else if x.left = 0 then axisShow a (d.setAxis a (axisStill x))
      else axisShow a (axisNext a (d.setAxis a { x with turn := false, up := decide (0 < x.left) }))
    else if x.left = 0 then axisShow a (d.setAxis a (axisStill x))
    else axisShow a (axisNext a (d.setAxis a x))

/-- Page 0x4B leaves service (R319): every axis stops; a pulse cut short by STOP_MODE makes its position uncertain. -/
def steppersStop (cut : Bool) (d : Dev) : Dev :=
  forN 8 (fun a d =>
    let x := d.axis a
    let d := if x.mode != .still then axisStop a d else d
    let d := if cut && decide (d.now < x.pulseEnd) then d.put (F.STP_STAT_UNCERTAIN a) 1 else d
    axisShow a d) d

end Sys2Proof.Machine
end

