-- ==== Sys2Proof/Machine/Ptp.lean ====
section
/-! DEFINITION. PTP (R66, R68, R69, R76, R77): the messages that the TIME block receives, and the frames that it sends. -/
namespace Sys2Proof.Machine

/-! ### Sending -/

/-- The common header of a PTP message; correctionField `corr` is as received, and 0 in a message of the device's own
(log entry 30). -/
def ptpHeader (typ len dom corr ident seq ctl log : Nat) : List Byte :=
  beBytes 1 typ ++ beBytes 1 0x12 ++ beBytes 2 len ++ beBytes 1 dom ++ beBytes 3 0 ++ beBytes 8 corr ++ beBytes 4 0
    ++ beBytes 10 ident ++ beBytes 2 seq ++ beBytes 1 ctl ++ beBytes 1 log

/-- The body of an event message with `n` bytes after the PTP header taken up by `tail`. -/
def ptpMessage (typ dom corr ident seq ctl log : Nat) (tail : List Byte) : List Byte :=
  ptpHeader typ (34 + tail.length) dom corr ident seq ctl log ++ tail

/-- Send the event message `m` on port `q` by transport `tr` (0 UDP/IPv4, 1 UDP/IPv6, 2 IEEE 802.3), to the peer group when
`peer` (R68). The reserved TRANSPORT 3 sends as 0 and is the transport of no received frame (DESIGN CHOICE, log entry 118). -/
def ptpSend (tr q : Nat) (peer : Bool) (m : List Byte) (d : Dev) : Dev :=
  let pcp := d.get (F.ETH_CFG_PCP_CTL q)
  let ttl := if peer then 1 else Config.ipTtl
  if tr = 2 then
    sendEth q (ethFrame d q (if peer then 0x0180C200000E else 0x011B19000000) pcp 0x88F7 m) d
  else if tr = 1 then
    let a := if peer then 0xFF02 * 2 ^ 112 + 0x6B else 0xFF0E * 2 ^ 112 + 0x181
    let src := if peer || !d.getB (F.ETH_CFG_IP6_EN q) then portLinkLocal d q else portIp6 d q
    sendEth q (ethFrame d q (groupMac6 a) pcp 0x86DD (ipUdpTtl ttl true src a 319 319 0 (m ++ beBytes 2 0))) d
  else
    let a := if peer then 0xE000006B else 0xE0000181
    let r := d.free 16
    sendEth q (ethFrame r.2 q (groupMac4 a) pcp 0x0800 (ipUdpTtl ttl false (d.get (F.ETH_IP4_ADDR q)) a 319 319 r.1 m)) r.2

/-- The parent port identity of domain `k`, 80 bits (R69). -/
def parentOf (d : Dev) (k : Nat) : Nat :=
  (d.get (F.TIME_DOM_PARENT0_PARENT k) * 2 ^ 32 + d.get (F.TIME_DOM_PARENT1_PARENT k)) * 2 ^ 16
    + d.get (F.TIME_DOM_PARENT2_PARENT k)

/-- The device's port identity on port `q`: the EUI-64 of the port's MAC address and port number q + 1 (log entry 30). -/
def ownIdentity (d : Dev) (q : Nat) : Nat :=
  let mac := d.get (F.ETH_MAC_LO_MAC q) + d.get (F.ETH_MAC_HI_MAC q) * 2 ^ 32
  ((mac / 2 ^ 24 * 2 ^ 16 + 0xFFFE) * 2 ^ 24 + mac % 2 ^ 24) * 2 ^ 16 + q + 1

/-- The 10-byte PTP timestamp at byte `o`, 2^-16 ns. -/
def ptpTime (bs : List Byte) (o : Nat) : Int := (((beAt bs o 6 * 1000000000 + beAt bs (o + 6) 4) * 65536 : Nat) : Int)

/-- A complete Sync of domain `k`: its offset sample, once the path delay is known (R66). -/
def syncComplete (k : Nat) (t1 t2 : Int) (d : Dev) : Dev :=
  let d := d.setDom k { d.dom k with t1 := t1, t2 := t2, synced := true }
  match (d.dom k).mpd with
  | some m => offsetSample k (t1 + m - t2) d
  | none => d

def putMpd (k : Nat) (m : Int) (d : Dev) : Dev :=
  (d.setDom k { d.dom k with mpd := some m, reqOut := false }).putI (F.TIME_DOM_MPD_MPD k) (satS 32 (m / 256))

/-- A Pdelay_Req `bs` on port `q` is answered one-step by transport `tr`: the requesting identity and the request's
correctionField are given back, and the turnaround is added as the frame leaves (R69, R76). -/
def pdelayAnswer (tr q : Nat) (bs : List Byte) (d : Dev) : Dev :=
  ptpSend tr q true (ptpMessage 3 (byteAt bs 4) (beAt bs 8 8) (ownIdentity d q) (beAt bs 30 2) 5 0x7F
    (beBytes 10 0 ++ (bs.drop 20).take 10)) d

/-- A PTP message `bs` (from the PTP header) for domain `k` on port `q` (R69). A Delay_Req is dropped, also on the port where the
domain has the master role: R69 gives that role Sync alone (DESIGN CHOICE, log entry 118). -/
def ptpDomain (k q : Nat) (bs : List Byte) (d : Dev) : Dev :=
  let x := d.dom k
  let typ := byteAt bs 0 % 16
  let corr := toSigned 64 (beAt bs 8 8)
  let seq := beAt bs 30 2
  let two := bit (byteAt bs 6) 1
  let slave := q == d.get (F.TIME_DOM_CFG_PORT k)
  let parent := beAt bs 20 10 == parentOf d k
  let mine := beAt bs 44 10 == ownIdentity d q && x.reqOut && seq == x.reqSeq
  let rx := rxStamp d q
  let p2p := d.getB (F.TIME_DOM_CFG_P2P k)
  match typ with
  | 0 =>
    if !(slave && parent) then d else
    let d := d.setDom k { x with syncSeq := seq, syncRx := rx, syncCorr := corr, syncTwo := two, syncAt := d.now }
    if two then d else syncComplete k (ptpTime bs 34 + corr) rx d
  | 8 =>
    if !(slave && parent && x.syncTwo && seq == x.syncSeq) then d else
    let d := d.setDom k { x with syncTwo := false }
    syncComplete k (ptpTime bs 34 + corr + x.syncCorr) x.syncRx d
  | 9 =>
    if !(slave && parent && mine && !p2p && x.synced) then d else
    putMpd k (((x.t2 - x.t3) + (ptpTime bs 34 - x.t1) - corr) / 2) d
  | 3 =>
    if !(slave && p2p && mine) then d
    else if two then d.setDom k { x with respTwo := true, respRx := rx, respT := ptpTime bs 34 - corr }
    else putMpd k ((rx - x.t3 - corr) / 2) d
  | 10 =>
    if !(slave && p2p && mine && x.respTwo) then d else
    putMpd k ((x.respRx - x.t3 - (ptpTime bs 34 + corr - x.respT)) / 2) d
  | _ => d

/-- Whether domain `k` uses a message of domain number `dn` that came by transport `tr`, none where the message is given
without one (R68). -/
def ptpForDomain (tr : Option Nat) (dn k : Nat) (d : Dev) : Bool :=
  let own := d.get (F.TIME_DOM_CFG_TRANSPORT k)
  d.getB (F.TIME_DOM_CFG_EN k) && d.get (F.TIME_DOM_CFG_DOMAIN k) == dn && tr.getD own == own

/-- The domain that answers a Pdelay_Req of domain number `dn` (R69). -/
def pdelayDomain (tr : Option Nat) (dn : Nat) (d : Dev) : Option Nat :=
  [0, 1].find? (fun k => ptpForDomain tr dn k d && d.getB (F.TIME_DOM_CFG_P2P k))

/-- A PTP message arrives on port `q` (R69): each enabled domain of that number uses it, if it came by the domain's own
transport; `tr` is that of its frame, coded as TRANSPORT. A Pdelay_Req is answered once. -/
def ptpRx (tr : Option Nat) (q : Nat) (bs : List Byte) (d : Dev) : Dev :=
  if bs.length < 44 ∨ byteAt bs 1 % 16 ≠ 2 then d
  else if byteAt bs 0 % 16 = 2 then
    let r := (q, beAt bs 20 10, beAt bs 30 2, rxStamp d q)
    let d := { d with tm := { d.tm with pdReq := (r :: d.tm.pdReq).take 16 } }
    match pdelayDomain tr (byteAt bs 4) d with
    | some k => pdelayAnswer (d.get (F.TIME_DOM_CFG_TRANSPORT k)) q bs d
    | none => d
  else forN 2 (fun k d => if ptpForDomain tr (byteAt bs 4) k d then ptpDomain k q bs d else d) d

/-- The TIME block sends a message of type `typ` for domain `k` (R69, R76): Sync as master on the other port, or a delay
request on the slave port, whose timestamp the domain keeps as the frame leaves. -/
def ptpTx (k typ : Nat) (d : Dev) : Dev :=
  if !d.getB (F.TIME_DOM_CFG_EN k) then d else
  let q := d.get (F.TIME_DOM_CFG_PORT k)
  let x := d.dom k
  let dn := d.get (F.TIME_DOM_CFG_DOMAIN k)
  let tr := d.get (F.TIME_DOM_CFG_TRANSPORT k)
  if typ = 0 then
    if !d.getB (F.TIME_DOM_CFG_BC_MASTER k) then d else
    let m := ptpMessage 0 dn 0 (ownIdentity d (1 - q)) x.txSeq 0 (ofSigned 8 (d.getI (F.TIME_DOM_CFG_LOG_SYNC k))) (beBytes 10 0)
    ptpSend tr (1 - q) false m (d.setDom k { x with txSeq := (x.txSeq + 1) % 65536 })
  else if (typ = 1 ∧ !d.getB (F.TIME_DOM_CFG_P2P k)) ∨ (typ = 2 ∧ d.getB (F.TIME_DOM_CFG_P2P k)) then
    let s := (x.reqSeq + 1) % 65536
    let m := ptpMessage typ dn 0 (ownIdentity d q) s (if typ = 1 then 1 else 5) 0x7F (List.replicate (if typ = 1 then 10 else 20) 0)
    ptpSend tr q (typ == 2) m (d.setDom k { x with reqSeq := s, t3 := txStamp d q, reqOut := true, respTwo := false })
  else d

/-- Announce, Signaling and Management messages are firmware's: they go on to the receive ring (R68, log entry 30). -/
def ptpForFirmware (bs : List Byte) : Bool :=
  let t := byteAt bs 0 % 16
  t == 0xB || t == 0xC || t == 0xD

end Sys2Proof.Machine
end

