-- ==== Sys2Proof/Machine/Path.lean ====
section
/-! DEFINITION. The Ethernet ports and the redundant paths (chapter 05): classification of received frames, the frame rings,
active and standby, the state mirror, switchover and the path drill. -/
namespace Sys2Proof.Machine

/-- The master of the Ethernet frame rings (R369). -/
def mEthRings : Nat := 7

def standbyPort (d : Dev) : Nat := 1 - activePort d

/-! ### Standby health (R90, R91, R101) -/

/-- Whether the standby is healthy: link up, island on, checked, and a duplicated control message within DUP_TMO (R91). -/
def standbyHealthy (d : Dev) : Bool :=
  let q := standbyPort d
  let t := cellGet 0 d.path.dupAt q
  ethUp d q && !bit d.path.broken q && bit d.path.checked q && t != 0
    && decide (d.now + 1 ≤ t + 1000000 * d.get F.PATH_CFG_DUP_TMO)

/-- PATH_STAT follows the ports: STBY_HEALTHY, SOLO, NO_PATH and UNDRILLED. -/
def pathStatus (d : Dev) : Dev :=
  let h := standbyHealthy d
  let d := ((d.putB F.PATH_STAT_STBY_HEALTHY h).putB F.PATH_STAT_SOLO (!h)).putB F.PATH_STAT_NO_PATH (!(ethUp d 0 || ethUp d 1))
  let d := d.putB F.PATH_STAT_UNDRILLED (d.get F.PATH_CFG_T_DRILL == 0)
  { d with path := { d.path with healthyAt := if h then some (d.path.healthyAt.getD d.now) else none } }

/-- The first active port is chosen once PATH is enabled (R90). -/
def pathElect (d : Dev) : Dev :=
  if !d.enabled 0x0C || d.path.elected then pathStatus d else
  let p := d.get F.PATH_CFG_PREF
  let q := if ethUp d p then p else 1 - p
  pathStatus (if ethUp d q then { d.put F.PATH_STAT_ACTIVE q with path := { d.path with elected := true } } else d)

/-- PATH is enabled: the choice of the active port is made anew (R90). -/
def pathEnable (d : Dev) : Dev := pathElect { d with path := { d.path with elected := false } }

/-! ### Deciding a switchover (R98, R100) -/

/-- PATH decides on a switchover with cause `c`, or refuses it because the standby is not healthy (R98); a fault cancels what
is left of a drill, its POST stage included, and becomes the cause of a switchover whose new active still waits for its
snapshot when its code is lower (R100). -/
def pathDecide (c : Nat) (d : Dev) : Dev :=
  if !d.enabled 0x0C || (decide (c ≤ 3) && !d.getB F.PATH_CFG_AUTO_SW) then pathStatus d
  else if c ≤ 3 ∧ d.path.resume.isSome then
    pathStatus { d with path := { d.path with resume := d.path.resume.map (min c), drill := false } }
  else if !standbyHealthy d then (pathStatus d).raise 0x0C 1
  else
    pathStatus { d with path := { d.path with
      decided := some (match d.path.decided with
        | some x => min x c
        | none => c)
      drill := d.path.drill && decide (3 < c)
      post := if c ≤ 3 then none else d.path.post } }

/-- A port's link state becomes `lock`, `lf`, `rf` and `fec` aligned (R90, ETH_LINK). -/
def ethLinkChange (q : Nat) (lock lf rf fec : Bool) (d : Dev) : Dev :=
  let was := ethUp d q
  let up := lock && !lf && !rf && fec
  let none0 := !(ethUp d 0 || ethUp d 1)
  let d := ((d.putB (F.ETH_LINK_BLOCK_LOCK q) lock).putB (F.ETH_LINK_LOCAL_FAULT q) lf).putB (F.ETH_LINK_REMOTE_FAULT q) rf
  let d := d.putB (F.ETH_LINK_LINK_UP q) up
  if was = up then pathStatus d else
  let d := d.raise (portPage q) 0
  if up then
    let d := { d with path := { d.path with
      checked := if bit d.path.seenUp q then d.path.checked else setBit d.path.checked q
      linkKept := if bit d.path.seenUp q then d.path.linkKept else setBit d.path.linkKept q
      seenUp := setBit d.path.seenUp q
      elected := d.path.elected && !none0 } }
    pathElect d
  else
    let d := { d with path := { d.path with
      linkKept := clearBits d.path.linkKept (2 ^ q)
      txWait := d.path.txWait.filter (fun e => e.1 != q) } }
    if q = activePort d then pathDecide 1 d else pathStatus d

/-- Errors of port `q` are counted; the active port's may decide a switchover with cause 2 (R98, R102). -/
def ethErrors (q fcs fec : Nat) (d : Dev) : Dev :=
  if fcs + fec = 0 then d else
  let d := (d.count (F.CNT_FCS_CNT q) fcs).count (F.CNT_FEC_UNC_CNT q) fec
  let p := d.path
  let p := { p with
    fcsTot := cellSet 0 p.fcsTot q (cellGet 0 p.fcsTot q + fcs)
    fecTot := cellSet 0 p.fecTot q (cellGet 0 p.fecTot q + fec) }
  if q ≠ activePort d then { d with path := p } else
  let l := (d.now, fcs + fec) :: p.errs.filter (fun e => decide (d.now < e.1 + 1000000))
  if d.get F.PATH_ERRLIM_ERR_LIM < l.foldl (fun a e => a + e.2) 0 then pathDecide 2 { d with path := { p with errs := [] } }
  else { d with path := { p with errs := l } }

/-! ### Snapshots and switchover (R95, R99) -/

/-- The receive state of the active engine (R95). -/
def takeSnap (k : Nat) (d : Dev) : Snap :=
  { beat := k
    opened := d.openSessions
    rx := (List.range 16).foldl (fun m s =>
      if sessOpen d s then cellSet (0, 0) m s (d.get (F.RX_CUM_CUM s), (d.sess s).got * 2) else m) []
    credit := (List.range 16).foldl (fun m s => if sessOpen d s then cellSet 0 m s (d.sess s).creditSent else m) []
    fills := d.streams.map (fun e => (e.1, (e.2.fill, e.2.drained + e.2.held)))
    corFill := d.get F.STORE_COR_FILL_FILL }

/-- Stream `x` with the fill mark of a snapshot: offset `fill`, `n` bytes filled ever. Bytes drained since stay drained; a drain
mark beyond the fill mark goes back to it until those bytes come again (R97, log entry 112). -/
def streamRestore (fill n : Nat) (x : Stream) : Stream :=
  if x.drained ≤ n then { x with fill := fill, held := n - x.drained }
  else { x with fill := fill, held := 0, drained := n, drain := fill }

/-- Whether stream `x` begins in the store window of session `s` (R127). -/
def streamInWin (d : Dev) (s : Nat) (x : Stream) : Bool :=
  decide (winBase d s ≤ streamBase x) && decide (streamBase x < winBase d s + winSize d s)

/-- The new active takes over the receive state of the current snapshot (R99, cause 3): what the old engine accepted after it
counts as not received, whether it waits, is passed and not dealt with, or is not yet performed, but for control messages
(R96). A session closed or opened since keeps the state that this left. -/
def snapRestore (d : Dev) : Dev :=
  match d.path.cur with
  | none => d
  | some c =>
    let d := forL (bitsOf 16 c.opened) (fun s d =>
      if !sessOpen d s then d else
      let e := cellGet (0, 0) c.rx s
      let st := if e.2 % 2 = 1 then cumSteps 65536 (e.2 / 2) else (0, e.2 / 2)
      let cum := (e.1 + st.1) % 2 ^ 32
      let x := d.sess s
      let above (m : JtpMsg) : Bool := !precedes m.seq cum
      let keep (m : JtpMsg) : Bool := let o := (m.seq + 2 ^ 32 - cum) % 2 ^ 32; decide (1 ≤ o) && decide (o < 65536) && bit st.2 (o - 1)
      let back := x.todo.filter above ++ x.waiting
      let gone := back.filter (fun m => !keep m && m.type == tCopyOrder)
      let d := forL gone (fun m d => forN (beAt m.payload 4 2) (fun k d =>
        let i := (beAt m.payload 0 4 + k) % 65536
        { d with corPending := cellSet 0 d.corPending i (cellGet 0 d.corPending i - 1) }) d) d
      (d.setSess s { x with
        got := st.2
        waiting := back.filter keep
        todo := x.todo.filter (fun m => !above m)
        held := x.held.filter (fun h => !above h.msg || keep h.msg)
        creditSent := cellGet 0 c.credit s }).put (F.RX_CUM_CUM s) cum) d
    let d := forL (d.streams.filter (fun e => (bitsOf 16 c.opened).any (fun s => streamInWin d s e.2))) (fun e d =>
      let f := cellGet (0, 0) c.fills e.1
      d.setStream e.1 (streamRestore f.1 f.2 (d.stream e.1))) d
    d.put F.STORE_COR_FILL_FILL c.corFill

/-- The new active resumes (R99): roles change, the messages it held are taken, and an ACK in every OPEN session goes out on
both ports. -/
def switchResume (c : Nat) (d : Dev) : Dev :=
  let d := if c = 3 then snapRestore d else d
  let held := d.path.held
  let d := d.put F.PATH_STAT_ACTIVE (standbyPort d)
  let d := (d.put F.PATH_STAT_SWITCHED 1).put F.PATH_STAT_LAST_CAUSE c
  let d := (d.count F.PATH_STAT_SWITCH_COUNT 1).raise 0x0C 0
  let d := { d with path := { d.path with
    resume := none, held := [], switchAt := d.now, errs := [], post := if c = 5 then some d.beatNum else none } }
  let d := (pathStatus d).sendEvent 0x05 0xFF 0 c 0
  let d := forL held jtpInput d
  forN 16 (fun s d => if sessOpen d s then sendAck s d else d) d

/-- A snapshot has arrived; when its check word matches, `sound`, it becomes current (R95), and a new active that waits for it
resumes (R99). Otherwise the current one stays, and a new active whose cause is a fault of the old engine resumes from it. -/
def snapshotComplete (sound : Bool) (d : Dev) : Dev :=
  match d.path.coming with
  | none => d
  | some s =>
    let d := { d with path := { d.path with coming := none } }
    if !sound then (if d.path.resume = some 3 then switchResume 3 d else d) else
    let d := { d with path := { d.path with cur := some s } }
    match d.path.resume with
    | some c => switchResume c d
    | none => d

/-! ### The drill (R101 to R103) -/

/-- The stage of R102 that fails, if one does, in beat `k`. -/
def drillStage (k : Nat) (d : Dev) : Option Nat :=
  let q := standbyPort d
  let p := d.path
  let t := cellGet 0 p.dupAt q
  if !(bit p.linkKept q && ethUp d q) then some 1
  else if cellGet 0 p.fecBase q < cellGet 0 p.fecTot q then some 2
  else if cellGet 0 p.fcsBase q + d.get F.PATH_ERRLIM_ERR_LIM < cellGet 0 p.fcsTot q then some 3
  else if t = 0 ∨ t + 1000000 * d.get F.PATH_CFG_DUP_TMO < d.now + 1 then some 4
  else if p.mismatch then some 5
  else match p.cur with
    | some s => if k ≤ s.beat + 1 then none else some 6
    | none => some 6

/-- A drill or its POST stage fails at `stage` on port `q` (R102, R103). -/
def drillFail (q stage : Nat) (d : Dev) : Dev :=
  let d := ((d.put F.PATH_STAT_DRILL_FAIL 1).put F.PATH_STAT_LAST_STAGE stage).count F.PATH_DRILL_CNT_FAIL 1
  let d := { d with path := { d.path with checked := clearBits d.path.checked (2 ^ q), post := none } }
  pathStatus ((d.raise 0x0C 2).sendEvent 0x06 0xFF 0 stage 0)

/-- What the stages measure counts from this drill on (R102). -/
def drillRebase (d : Dev) : Dev :=
  let p := d.path
  let up := b2n (ethUp d 0) + 2 * b2n (ethUp d 1)
  { d with path := { p with linkKept := up, fecBase := p.fecTot, fcsBase := p.fcsTot, mismatch := false } }

/-- The drill of beat `k` checks the standby and decides the swap (R102). -/
def drillRun (k : Nat) (d : Dev) : Dev :=
  let d := { d with path := { d.path with drill := false } }
  if !standbyHealthy d && d.getB F.PATH_STAT_SOLO then { d with path := { d.path with drillLate := true } } else
  match drillStage k d with
  | some st => drillRebase (drillFail (standbyPort d) st d)
  | none => pathDecide 5 (drillRebase d)

/-- A drill is wanted: at the next boundary, or put off while SOLO is set (R101). -/
def drillWant (d : Dev) : Dev :=
  if !d.enabled 0x0C then d else
  let d := pathStatus d
  if d.getB F.PATH_STAT_SOLO then { d with path := { d.path with drillLate := true } }
  else { d with path := { d.path with drill := true, drillLate := false } }

/-- The drill timer (R101): T_DRILL seconds after the last switchover, or one second after the standby became healthy when a
drill was put off. -/
def drillTimer (d : Dev) : Dev :=
  let t := d.get F.PATH_CFG_T_DRILL
  if d.path.drillLate then
    match d.path.healthyAt with
    | some h => if h + 1000000000 ≤ d.now then drillWant d else d
    | none => d
  else if t ≠ 0 ∧ d.path.switchAt + 1000000000 * t ≤ d.now then drillWant d
  else d

/-- POST_TMO beats without a JTP message on the new active: the swap is reverted (R103). -/
def drillPostTimeout (d : Dev) : Dev :=
  match d.path.post with
  | none => d
  | some b =>
    if d.beatNum < b + d.get F.PATH_ERRLIM_POST_TMO then d
    else
      let q := activePort d
      pathDecide 6 (drillFail q 7 d)

/-- PATH's work at B(k) (R95, R99, R101): a decided switchover takes effect, the active engine
sends its snapshot, and a drill starts. -/
def pathBeat (k : Nat) (d : Dev) : Dev :=
  if !d.enabled 0x0C then d else
  let d := pathStatus d
  let d := match d.path.decided with
    | none => d
    | some c =>
      let d := { d with path := { d.path with decided := none } }
      if !standbyHealthy d then d.raise 0x0C 1
      else if c = 3 then switchResume 3 d
      else { d with path := { d.path with resume := some c } }
  let d := { d with path := { d.path with coming := some (takeSnap k d) } }
  if d.path.drill && d.path.resume.isNone then drillRun k d else d

/-- DUP_TMO has passed since the standby's last duplicated control message (R91). -/
def dupTimeout (d : Dev) : Dev := pathStatus d

/-- The active engine, or its power island, reports a fault (R91, R98); no command reports the standby's island, and none says
that a failed island is on again (log entry 112). -/
def engineFault (island : Bool) (d : Dev) : Dev :=
  let d := if island then { d with path := { d.path with broken := setBit d.path.broken (activePort d) } } else d
  pathDecide 3 d

/-- PATH_CMD (R98, R101). -/
def pathCmd (v : Nat) (d : Dev) : Dev :=
  let d := if bit v 0 then pathDecide 4 d else d
  if bit v 1 then drillWant d else d

/-! ### Receive classification (R89, R105) -/

/-- The descriptor at RXR_HEAD names a received frame (R105). -/
def rxrWrote (d : Dev) : Dev :=
  (d.put F.RXR_HEAD_HEAD ((d.get F.RXR_HEAD_HEAD + 1) % max 1 (d.get F.RXR_SIZE_SIZE))).ring 27

/-- A frame for firmware goes into the receive ring, or is dropped when no buffer is left (R105). -/
def rxrPlace (q : Nat) (fr : List Byte) (d : Dev) : Dev :=
  let h := d.get F.RXR_HEAD_HEAD
  let drop := fun (d : Dev) => d.count F.RXR_DROPS_DROPS 1
  if h = d.get F.RXR_TAIL_TAIL ∨ cleated d mEthRings = true then drop d else
  let a := d.get2 F.RXR_BASE_LO_BASE F.RXR_BASE_HI_BASE + 16 * h
  let r := engineRead mEthRings a 8 d
  match r.1 with
  | none => drop r.2
  | some b =>
    let d := engineWrite mEthRings (leAt b 0 5) fr r.2
    let ns := ((rxStamp d q) / 65536) % 1000000000
    afterWrite mEthRings .rxr rxrWrote
      (engineWrite mEthRings (a + 8) (leBytes 2 fr.length ++ leBytes 1 q ++ leBytes 1 0 ++ leBytes 4 ns.toNat) d)

/-- Whether a datagram is for the port or for a group it has enabled (R89 step 7). -/
def ipForUs (d : Dev) (q : Nat) (i : IpView) : Bool :=
  if i.v6 then isPortIp6 d q i.dst || isGroup6 d q i.dst else isPortIp4 d q i.dst || isGroup4 d q i.dst

/-- Steps 7 to 13 of R89 for an IP datagram; only the first fragment of a datagram shows its UDP ports (log entry 71). -/
def classifyIp (q : Nat) (fr : List Byte) (v : EthView) (i : IpView) (d : Dev) : Dev :=
  let port := beAt i.l4 2 2
  let jtp := d.get F.JTP_CFG_UDP_PORT
  let udp := i.proto == 17 && !i.later
  let known := port == 319 || port == 320 || port == jtp
  if !ipForUs d q i then d.count (F.CNT_FILTER_CNT q) 1
  else if udp && known && (i.frag || i.ext) then d.count (F.CNT_FRAG_CNT q) 1
  else if !i.sound || (udp && !i.frag && !udpOk i) then ethErrors q 1 0 d
  else if udp && (port == 319 || port == 320) then
    (if ptpForFirmware (i.l4.drop 8) then rxrPlace q fr d else ptpRx (some (b2n i.v6)) q (i.l4.drop 8) d)
  else if udp && port == jtp then
    (if beAt i.l4 4 2 ≠ i.l4.length then (drillHeard q d).count F.CNT_FORMAT_CNT 1
     else pathStatus (jtpDatagram q i.v6 i.src i.dst (beAt i.l4 0 2) (i.l4.drop 8) d))
  else if solicitForUs d q i then neighbourAdvert q v i d
  else rxrPlace q fr d

/-- A received frame, its FCS right or not, passes the steps of R89. -/
def classify (q : Nat) (fcsOk : Bool) (fr : List Byte) (d : Dev) : Dev :=
  let n := fr.length + 4
  let v := ethView fr
  if !fcsOk then ethErrors q 1 0 d
  else if n < 64 ∨ d.get (F.ETH_CFG_MAX_FRAME q) < n then d.count (F.CNT_LEN_CNT q) 1
  else if v.etype = 0x8808 then d.count (F.CNT_PAUSE_CNT q) 1
  else if !(v.dst == portMac d q || v.dst == 0xFFFFFFFFFFFF || mcastMac d q v.dst) then d.count (F.CNT_FILTER_CNT q) 1
  else if decide (2 ≤ v.tags) || (if d.getB (F.ETH_CFG_VLAN_EN q) then v.tags != 1 || v.vid != d.get (F.ETH_VLAN_VID q) else v.tags != 0) then
    d.count (F.CNT_FILTER_CNT q) 1
  else if v.etype = 0x88F7 then (if ptpForFirmware v.body then rxrPlace q fr d else ptpRx (some 2) q v.body d)
  else if arpForUs d q v then arpReply q v d
  else match ipView v with
    | some i => classifyIp q fr v i d
    | none => rxrPlace q fr d

/-- A frame arrives on port `q`, after `fec` uncorrectable codewords; nothing arrives while the link is down. -/
def ethRx (q fec : Nat) (fcsOk : Bool) (fr : List Byte) (d : Dev) : Dev :=
  let d := ethErrors q 0 fec d
  if ethUp d q then classify q fcsOk fr d else d

/-! ### Transmit ring (R76, R77, R80 to R82, R104) -/

/-- The insertions that a descriptor's FLAGS ask for on port `q` (R104). -/
def txInsert (d : Dev) (q fl pcp : Nat) (fr : List Byte) : List Byte :=
  let fr := if bit fl 3 then
      fr.take 12 ++ beBytes 2 0x8100 ++ beBytes 2 (pcp % 8 * 2 ^ 13 + d.get (F.ETH_VLAN_VID q)) ++ fr.drop 12 else fr
  let v := ethView fr
  let l2 := fr.length - v.body.length
  let fr := if bit fl 1 && v.etype == 0x0800 then
      let h := byteAt v.body 0 % 16 * 4
      let z := putBe fr (l2 + 10) 2 0
      putBe z (l2 + 10) 2 (inetCheck ((z.drop l2).take h))
    else fr
  match ipView (ethView fr) with
  | some i =>
    if bit fl 2 && i.proto == 17 then
      let o := fr.length - v.body.length + (if i.v6 then 40 else byteAt v.body 0 % 16 * 4)
      let len := beAt i.l4 4 2
      let z := putBe fr (o + 6) 2 0
      putBe z (o + 6) 2 (udpCheck (pseudo i.v6 i.src i.dst 17 len ++ (z.drop o).take len))
    else fr
  | none => fr

/-- The device goes to the next transmit descriptor. -/
def txNext (h : Nat) (d : Dev) : Dev :=
  { d.put F.TXR_HEAD_HEAD ((h + 1) % max 1 (d.get F.TXR_SIZE_SIZE)) with path := { d.path with txStarted := 0 } }

/-- DONE is set in the descriptor of index `h`. -/
def txMarkDone (h : Nat) (d : Dev) : Dev :=
  let a := d.get2 F.TXR_BASE_LO_BASE F.TXR_BASE_HI_BASE + 32 * h
  let r := engineRead mEthRings (a + 11) 1 d
  match r.1 with
  | some b => engineWrite mEthRings (a + 11) (leBytes 1 (setBit (leNat b) 4)) r.2
  | none => r.2

/-- Write DONE into the descriptor of index `h` (R104), after the release of a cleated master (R377, R378). -/
def txWriteDone (h : Nat) (d : Dev) : Dev := afterWrite mEthRings (.txDone h) (txMarkDone h) d

/-- Port `q` has dealt with its share of descriptor `h`, whose ports are `mask`: the device moves on once each has. -/
def txShare (h q mask : Nat) (d : Dev) : Dev :=
  let m := setBit d.path.txStarted q
  if clearBits mask m = 0 then txNext h d else { d with path := { d.path with txStarted := m } }

/-- Port `q` leaves its share of descriptor `h` unsent; DONE is written once each port has dealt with its own. -/
def txDrop (h q mask : Nat) (d : Dev) : Dev :=
  let d := txShare h q mask d
  if d.get F.TXR_HEAD_HEAD = h || d.path.txFlight.any (fun e => e.1 == h) then d else txWriteDone h d

/-- Port `q` starts the frame of the descriptor at TXR_HEAD, if that frame is for it and its launch time has come; a late frame
is sent at once or dropped (R81, R82, R104). One whose reading is a violation is passed over after the release (R378). -/
def txStart (q : Nat) (d : Dev) : Dev :=
  let h := d.get F.TXR_HEAD_HEAD
  if !ethUp d q || !d.enabled (portPage q) || cleated d mEthRings || h == d.get F.TXR_TAIL_TAIL || d.path.txFlight.any (fun e => bit e.2 q) then d else
  let a := d.get2 F.TXR_BASE_LO_BASE F.TXR_BASE_HI_BASE + 32 * h
  let r := engineRead mEthRings a 32 d
  match r.1 with
  | none => if cleated r.2 mEthRings then afterCleat mEthRings (.txSkip h q 0) r.2 else r.2
  | some t =>
    let mask := match byteAt t 10 with
      | 0 => 1 | 1 => 2 | 2 => 3 | 3 => 2 ^ activePort d | _ => 0
    let len := leAt t 8 2
    let fl := byteAt t 11
    let w := leAt t 16 8
    let T := launchInstant d w
    let now := txStamp d q
    let late := launchTimed w && decide (ethWindow d q T < now)
    if mask = 0 ∨ len < 60 then txNext h (txWriteDone h r.2)
    else if !bit mask q || bit d.path.txStarted q then r.2
    else if d.get (F.ETH_CFG_MAX_FRAME q) < len + 4 then txDrop h q mask r.2
    else if launchTimed w && decide (now < T) then r.2
    else
      let d := if late then r.2.count F.TIME_LATE_ETH 1 else r.2
      if late && d.getB F.TIME_LAUNCH_ETH_LATE_DROP then txDrop h q mask d
      else
        let b := engineRead mEthRings (leAt t 0 5) len d
        match b.1 with
        | none => if cleated b.2 mEthRings then afterCleat mEthRings (.txSkip h q mask) b.2 else txShare h q mask b.2
        | some fr =>
          let fr := txInsert d q fl (byteAt t 14) fr
          let d := b.2.emit (.eth q (ptpStamp q now d.tm.pdReq fr))
          let d := if bit fl 0 && !isOneStep fr then tsqPush (leAt t 12 2) q now d else d
          txShare h q mask { d with path := { d.path with txFlight := d.path.txFlight ++ [(h, 2 ^ q)] } }

/-- The frames that the ring's head held back on either port leave (R81). -/
def sendHeld (d : Dev) : Dev := sendWaiting 1 (sendWaiting 0 d)

/-- The transmitter of port `q` is free (R81). -/
def ethTxFrame (q : Nat) (d : Dev) : Dev := sendHeld (txStart q d)

/-- The frame that port `q` transmits has been sent; its descriptor receives DONE once no port still sends it (R104). -/
def ethTxDone (q : Nat) (d : Dev) : Dev :=
  match d.path.txFlight.find? (fun e => bit e.2 q) with
  | none => d
  | some e =>
    let l := d.path.txFlight.filter (fun x => x != e)
    let d := { d with path := { d.path with txFlight := l } }
    sendHeld (if l.any (fun x => x.1 == e.1) || (d.get F.TXR_HEAD_HEAD == e.1 && d.path.txStarted != 0) then d else txWriteDone e.1 d)

/-- A write of ETH_CFG of port `q`: RATE and FEC stay while a plan is active (R88). -/
def ethCfgRefused (d : Dev) (q v : Nat) : Bool :=
  d.planActive && (bits v 0 1 != d.get (F.ETH_CFG_RATE q) || bits v 1 2 != d.get (F.ETH_CFG_FEC q))

end Sys2Proof.Machine
end

