-- ==== Sys2Proof/Machine/Perform.lean ====
section
/-! DEFINITION. How a command is performed: time passes, the effect is applied while the block runs, and at the end the
requested fuse burning and SYS reset are carried out and the outputs recorded. Every meaning goes through `perform` or
`performAny`. -/
namespace Sys2Proof.Machine

/-- PWR_RST_CAUSE bits (R410). -/
def causePor : Nat := 1
def causeCoreUv : Nat := 2
def causeIo33Uv : Nat := 3
def causePin : Nat := 4
def causeSoft : Nat := 5
def causeStandby : Nat := 6
def causeBootWd : Nat := 7
def causeClk : Nat := 8

/-- The registers the standby island keeps through a SYS reset: PWR_WAKE_CFG, PWR_WAKE_TMR, PWR_WAKE_STAT,
PWR_RST_CAUSE, BOOT_TRY and the ageing integrator (R408, R410, R414). -/
def islandRegs : List Nat :=
  [R.PWR_WAKE_CFG, R.PWR_WAKE_TMR, R.PWR_WAKE_STAT, R.PWR_RST_CAUSE, R.BOOT_TRY, R.WEAR_TEQ_LO, R.WEAR_TEQ_HI]

/-- Every control output group stops being driven (R411). -/
def releaseOutputs (d : Dev) : Dev :=
  let oe := (d.reg R.PWR_OE).toNat
  (forL (bitsOf 9 oe) (fun g e => e.emit (.group g 0)) d).setReg R.PWR_OE 0

/-- A SYS reset: everything but the standby island and the fuses returns to its reset value, DRAM is lost (R332, R408,
R439). `cause` is the PWR_RST_CAUSE bit set; COUNT grows by 1 (R410). `rbk` is what the fuses read. The wake latches ring their
sources, 80 to 87, once the event controller runs (R359, R415). -/
def sysReset (cause rbk : Nat) (d : Dev) : Dev :=
  let o := (releaseOutputs (refoutOff (dramHold true d))).out
  let e : Dev := { Dev.reset with
    power := if d.sysHold then .sysHeld else d.power
    pwrEn := d.pwrEn
    now := d.now
    resetAt := d.now
    standbyAt := d.standbyAt
    freeCtr := d.freeCtr
    wakeLatch := d.wakeLatch
    trim := { evalAt := d.now, teqLast := d.get2 F.WEAR_TEQ_LO_TEQ F.WEAR_TEQ_HI_TEQ }
    out := o
    regs := d.regs.filter (fun c => islandRegs.contains c.1) }
  let e := e.put F.BOOT_STAT_RBK rbk
  let w := (e.reg R.PWR_RST_CAUSE).toNat
  let e := e.setReg R.PWR_RST_CAUSE (BitVec.ofNat 32 (setBit w cause))
  let e := e.count F.PWR_RST_CAUSE_COUNT 1
  if e.power = .run then { e.put (F.EVT_PEND_PEND 2) (d.wakeLatch % 256 * 2 ^ 16) with wakeLatch := 0 } else e

/-- The block once what it put out has gone to the record. -/
def Dev.sent (d : Dev) : Dev := { d with out := [] }

/-- The end of a command: fuses asked for are burnt, a requested SYS reset is carried out, and what the command put on
the balls and links is recorded. The queue is not touched. -/
def settle (s : State) (d : Dev) : State :=
  let fuses := s.fuses + (d.burnReq - (Config.otpRollback + s.fuses))
  let d1 := if d.burnReq = 0 then d else { d with burnReq := 0 }.put F.BOOT_STAT_RBK (Config.otpRollback + fuses)
  let d2 := match d1.sysReq with
    | none => d1
    | some c => sysReset c (Config.otpRollback + fuses) d1
  { dev := d2.sent, fuses := fuses, wire := d2.out ++ s.wire, pending := s.pending }

/-- A command `f` arriving `dt` ns after the one before, whatever the power phase. -/
def performAny (dt : Nat) (s : State) (f : Dev → Dev) : Host.Outcome State Fault Refusal :=
  .next (settle s (f (s.dev.elapse dt)))

/-- A command `f` arriving `dt` ns after the one before: it has its effect while the block runs, and none while the block
is in reset or standby (R402, R407, R415). -/
def perform (dt : Nat) (s : State) (f : Dev → Dev) : Host.Outcome State Fault Refusal :=
  performAny dt s (fun d => if d.power = .run then f d else d)

end Sys2Proof.Machine
end

