-- ==== Sys2Proof/Machine/System.lean ====
section
/-! DEFINITION. Power, supervision, resets, standby, clocks and boot (chapter 18). -/
namespace Sys2Proof.Machine

/-! ### Supervision and the reef state -/

/-- The SUPV_STAT field of rail `r`: 0 VDD_CORE, 1 VDD_IO33 (R404). -/
def reefField (r : Nat) : RegField := if r = 0 then F.SUPV_STAT_REEF_CORE else F.SUPV_STAT_REEF_IO33

/-- The episode of rail `r`, if one is in progress. -/
def Dev.reefOf (d : Dev) (r : Nat) : Option Reef := cellGet none d.reef r

/-- The REEF record of rail `r` (R211, R405, R406). -/
def reefRecord (r first last : Nat) (d : Dev) : Dev :=
  plogWrite 0x07 0xFF (d.get F.EPOCH_NOW_EPOCH)
    (leBytes 4 0 ++ leBytes 1 r ++ leBytes 3 0 ++ leBytes 4 first ++ leBytes 4 last) d

/-- Supervised rail `r` enters reef (R403, R404). -/
def reefEnter (r : Nat) (d : Dev) : Dev :=
  if 2 ≤ r then d else
  if (d.reefOf r).isSome then d else
  let d := { d with reef := cellSet none d.reef r (some { since := d.now, beat := d.beatNum, held := false }) }
  let d := (d.put (reefField r) 1).count F.SUPV_CNT_REEFS 1
  (d.raise 0x5D 0).sendEvent 0x04 0xFF 0 r 0

/-- The hold of rail `r` is exceeded once its episode has lasted `t` ns (R406). -/
def reefHold (r t : Nat) (d : Dev) : Dev :=
  match d.reefOf r with
  | none => d
  | some e =>
    if e.held || decide (d.now < e.since + t) then d else
    let d := { d with reef := cellSet none d.reef r (some { e with held := true }) }
    let d := ((d.put F.SUPV_STAT_HOLD_EXC 1).count F.SUPV_CNT_HOLDS 1).raise 0x5D 1
    let d := if d.planActive then seamStopAll causeReef d else d
    reefRecord r e.beat 0 d

/-- T_HOLD, ns. -/
def holdTime (d : Dev) : Nat := d.get F.SUPV_CFG_T_HOLD * 1000

/-- The episode of rail `r` has lasted T_HOLD without recovering (R406). -/
def reefHoldExceeded (r : Nat) (d : Dev) : Dev := reefHold r (holdTime d) d

/-- Rail `r` recovers, and its episode ends; cause 8 clears with the last of them. A recovery
at the end of T_HOLD counts as within it (R403, R405, R406). -/
def reefRecover (r : Nat) (d : Dev) : Dev :=
  let d := reefHold r (holdTime d + 1) d
  match d.reefOf r with
  | none => d
  | some e =>
    let d := { d with reef := cellSet none d.reef r none }
    let d := d.put (reefField r) 0
    let d := if e.held then d else reefRecord r e.beat d.beatNum d
    if d.reef.any (fun x => x.2.isSome) then d else forN 8 (fun p x => seamClear p causeReef x) d

/-- A supervised rail falls below its reset level: a SYS reset, held until the rail recovers (R407). -/
def railReset (r : Nat) (d : Dev) : Dev :=
  if 2 ≤ r then d else { d with sysReq := some (if r = 0 then causeCoreUv else causeIo33Uv), sysHold := true }

/-- A held SYS reset is released (R407); the boot watchdog starts (R419), and the wake latches ring (R359). -/
def sysResetRelease (d : Dev) : Dev :=
  if d.power = .sysHeld then ringWakeLatches { d with power := .run, resetAt := d.now } else d

/-! ### Power-on reset and standby -/

/-- The standby island's supply rises: everything is reset, PWR_EN is driven high, and the block stays in power-on reset
(R408, R410, R415). -/
def vbatPor (d : Dev) : Dev :=
  let o := (releaseOutputs (refoutOff (dramHold true d))).out
  let e : Dev := { Dev.reset with power := .por, now := d.now, freeCtr := d.freeCtr, out := o }
  let e := if d.pwrEn then e else e.emit (.pwrEn 1)
  e.setReg R.PWR_RST_CAUSE 1

/-- Power-on reset is released (R402): the core rails have risen, for the first time, after standby, or after they were removed
with VBAT kept (R408). -/
def porRelease (d : Dev) : Dev :=
  if d.power = .standby then d else { d with power := .run, sysHold := false, sysReq := some causePor }

/-- RESET_N held low for 1 µs (R408). -/
def resetPin (d : Dev) : Dev := { d with sysReq := some causePin }

/-- SYS_CTL.SRST (R408). -/
def sysSoftReset (d : Dev) : Dev := { d with sysReq := some causeSoft }

/-- The boot ROM has not jumped within 1 s of reset release (R419). -/
def bootWatchdogExpiry (d : Dev) : Dev :=
  if !d.booted && decide (d.resetAt + 1000000000 ≤ d.now) then { d with sysReq := some causeBootWd } else d

/-- Write PWR_OE: groups begin or cease to be driven, at the level of their block (R411, R412). -/
def pwrOeWrite (v : Nat) (d : Dev) : Dev :=
  let v := v % 512
  let old := (d.reg R.PWR_OE).toNat
  if d.planActive && decide (clearBits old v % 8 ≠ 0) then d.refuseAt R.PWR_OE else
  let d := d.setReg R.PWR_OE (BitVec.ofNat 32 v)
  gpioShow (forN 9 (fun g e => if bit old g = bit v g then e else e.emit (.group g (b2n (bit v g)))) d)

/-- Whether any axis is moving. -/
def anyAxisMoving (d : Dev) : Bool := d.mot.axes.any (fun e => e.2.mode != .still)

/-- PWR_SLEEP.SLEEP (R415). -/
def standbyEnter (d : Dev) : Dev :=
  if d.planActive || anyAxisMoving d || d.getB F.DRAMC_FCHG_BUSY then d.refuseAt R.PWR_SLEEP
  else if d.sleepAt.isSome then d
  else { releaseOutputs d with sleepAt := some d.now }

/-- 100 µs later PWR_EN falls (R415). -/
def pwrEnLow (d : Dev) : Dev :=
  match d.sleepAt with
  | none => d
  | some t =>
    if d.now < t + 100000 then d else
    let d := d.put F.PWR_RST_CAUSE_STANDBY 1
    { d with power := .standby, pwrEn := false, standbyAt := d.now, sleepAt := none }.emit (.pwrEn 0)

/-- The wake timer expires TICKS ticks of 32.768 kHz after entry into standby (R415). -/
def wakeTimerExpiry (d : Dev) : Dev :=
  if d.power = .standby && d.getB F.PWR_WAKE_CFG_TMR_EN &&
      decide (1000000000 * d.get F.PWR_WAKE_TMR_TICKS ≤ (d.now - d.standbyAt) * 32768) then
    { d.put F.PWR_WAKE_STAT_TMR 1 with power := .por, pwrEn := true }.emit (.pwrEn 1)
  else d

/-! ### Clocks -/

/-- A reference loss (R400): REFOUT stops, head links are cut, stay links and Ethernet ports go down. -/
def refLoss (d : Dev) : Dev :=
  if d.getB F.CLK_STAT_REF_LOST then d else
  let d := refoutFollow d (((d.put F.CLK_STAT_REF_LOST 1).raise 0x02 0).count F.CLK_CNT_REF_LOSS 1)
  let d := forN 34 (fun i e => forN (rxLanes i) (fun l x => laneLockChange i l false x) e) d
  forN 2 (fun q e => ethLinkChange q false (e.getB (F.ETH_LINK_LOCAL_FAULT q)) (e.getB (F.ETH_LINK_REMOTE_FAULT q)) false e) d

/-- REFIN has been valid for 1 ms (R400). -/
def refRestore (d : Dev) : Dev := refoutFollow d (d.put F.CLK_STAT_REF_LOST 0)

/-- The LOCK field of PLL `p`: 0 P, 1 M, 2 T, 3 the DPHY's (R399). -/
def lockField (p : Nat) : RegField :=
  match p with
  | 0 => F.CLK_STAT_LOCK_P
  | 1 => F.CLK_STAT_LOCK_M
  | 2 => F.CLK_STAT_LOCK_T
  | _ => F.CLK_STAT_LOCK_D

/-- PLL `p` loses lock while REFIN is valid, or, with `locked`, locks again (R400). -/
def pllUnlock (p : Nat) (locked : Bool) (d : Dev) : Dev :=
  if 4 ≤ p then d else
  if locked then
    if (cellGet none d.pllLostAt p).isSome then
      { d.put (lockField p) 1 with pllLostAt := cellSet none d.pllLostAt p none }
    else d
  else if d.getB F.CLK_STAT_REF_LOST || !d.getB (lockField p) then d
  else
    let d := ((d.put (lockField p) 0).raise 0x02 1).count F.CLK_CNT_UNLOCK 1
    { d with pllLostAt := cellSet none d.pllLostAt p (some d.now) }

/-- PLL `p` has not locked again within 100 µs (R400). -/
def pllRelockTimeout (p : Nat) (d : Dev) : Dev :=
  match cellGet none d.pllLostAt p with
  | none => d
  | some t => if d.now < t + 100000 then d else { d with sysReq := some causeClk }

/-- Write CLK_MZ.SEL (R401). -/
def clkMzWrite (v : Nat) (d : Dev) : Dev := if v % 4 = 3 then d.refuseAt R.CLK_MZ else d.put F.CLK_MZ_SEL v

/-! ### Boot -/

/-- Result codes of the image check (chapter 18). -/
def bootOk : Nat := 1
def bootMagic : Nat := 2
def bootKey : Nat := 3
def bootRollback : Nat := 4
def bootSignature : Nat := 5
def bootRange : Nat := 6

/-- Fields of an image header (R418). -/
def imgVersion (bs : List Byte) : Nat := leAt bs 8 4
def imgRollback (bs : List Byte) : Nat := leAt bs 12 4
def imgLength (bs : List Byte) : Nat := leAt bs 16 4
def imgEntry (bs : List Byte) : Nat := leAt bs 20 4
def imgPayload (bs : List Byte) : List Byte := (bs.drop 512).take (imgLength bs)

/-- LENGTH and ENTRY are in range (R418, R419). -/
def imgRangeOk (bs : List Byte) : Bool :=
  imgLength bs % 16 == 0 && decide (imgLength bs ≤ 3145728) && decide (imgEntry bs < imgLength bs)

/-- The ECDSA P-384 signature over header bytes 0 to 163 and the payload (R419). -/
def imgSigned (bs : List Byte) : Bool :=
  byteAt bs 64 == 4 &&
  ecdsaVerify (beAt bs 65 48) (beAt bs 113 48) (sha384 (bs.take 164 ++ imgPayload bs)) (beAt bs 164 48) (beAt bs 212 48)

/-- Check the image at the head of `bs` against the rollback counter `rbk`: the code of the first condition of R419, in
its order, that fails, or OK. -/
def imageCheck (rbk : Nat) (bs : List Byte) : Nat :=
  let k := byteAt bs 6
  if leAt bs 0 4 ≠ 0x13160A1E ∨ leAt bs 4 2 ≠ 1 then bootMagic
  else if !imgRangeOk bs || decide (bs.length < 512 + imgLength bs) then bootRange
  else if 2 ≤ k || Config.otpKeyRevoked k || decide (sha384 ((bs.drop 64).take 97) ≠ Config.otpKeyHash k) then bootKey
  else if imgRollback bs < rbk then bootRollback
  else if imgSigned bs then bootOk
  else bootSignature

/-- The slot the ROM takes: the one BOOT_TRY names if it is valid, else the valid one with the higher ROLLBACK, then the
higher VERSION, then A (R419). -/
def bootSlot (try_ : Option Nat) (a b : List Byte) (va vb : Bool) : Option Nat :=
  if try_ = some 0 && va then some 0
  else if try_ = some 1 && vb then some 1
  else if va && vb then
    if imgRollback a < imgRollback b ∨ (imgRollback a = imgRollback b ∧ imgVersion a < imgVersion b) then some 1 else some 0
  else if va then some 0
  else if vb then some 1
  else none

/-- The image of slot `s`, of VERSION `v`, ENTRY `e` and ROLLBACK `r`, is in L2: core 0 jumps to its entry (R417, R419). -/
def bootLoaded (s v e r : Nat) (d : Dev) : Dev :=
  let d := ((d.put F.BOOT_STAT_SLOT s).put F.BOOT_STAT_WARM 0).put F.BOOT_VER_VERSION v
  { d with corePc := cellSet 0 d.corePc 0 (0x20000000 + e), booted := true, runRollback := r }

/-- Load the image of slot `s` into L2 through the boot loader master and jump to its entry (R417, R419). -/
def bootLoad (s : Nat) (img : List Byte) (d : Dev) : Dev :=
  let v := imgVersion img
  let e := imgEntry img
  let r := imgRollback img
  afterWrite 17 (.boot s v e r) (bootLoaded s v e r) (engineWrite 17 0x20000000 (imgPayload img) { d with l2Ram := true })

/-- The boot ROM validates the flash slots, which hold `a` and `b`, and jumps to the image it accepts, or halts (R417,
R419). -/
def bootJump (a b : List Byte) (d : Dev) : Dev :=
  if d.booted || d.bootHalted || d.mgmtReq.isSome then d else
  let rbk := d.get F.BOOT_STAT_RBK
  let ra := imageCheck rbk a
  let rb := imageCheck rbk b
  let try_ := if d.getB F.BOOT_TRY_EN then some (d.get F.BOOT_TRY_SLOT) else none
  let d := ((d.put F.BOOT_STAT_RES_A ra).put F.BOOT_STAT_RES_B rb).putB F.BOOT_STAT_TRIED try_.isSome
  let d := d.put F.BOOT_TRY_EN 0
  match bootSlot try_ a b (ra == bootOk) (rb == bootOk) with
  | none => { d with bootHalted := true }
  | some s => bootLoad s (if s = 0 then a else b) d

/-- BOOT_VERIFY.GO (R421). -/
def bootVerify (d : Dev) : Dev := (d.put F.BOOT_VERIFY_BUSY 1).put F.BOOT_VERIFY_VALID 0

/-- Verification of the image at BOOT_WARM ends (R421); an image that cannot be read fails with a code the spec does not
give. -/
def bootVerifyDone (d : Dev) : Dev :=
  if !d.getB F.BOOT_VERIFY_BUSY then d else
  let a := d.get2 F.BOOT_WARM_LO_ADDR F.BOOT_WARM_HI_ADDR
  let d := d.put F.BOOT_VERIFY_BUSY 0
  let r := engineRead 17 a 512 d
  let n := match r.1 with
    | some h => if imgRangeOk h then imgLength h else 0
    | none => 0
  let q := engineRead 17 (a + 512) n r.2
  match r.1, q.1 with
  | some h, some p =>
    let img := h ++ p
    let c := imageCheck (d.get F.BOOT_STAT_RBK) img
    let d := q.2.put F.BOOT_VERIFY_RESULT c
    if c = bootOk then
      { d.put F.BOOT_VERIFY_VALID 1 with
        warmLen := n
        warmEntry := imgEntry img
        warmRollback := imgRollback img
        warmVersion := imgVersion img }
    else d
  | _, _ =>
    let f := q.2.free 8
    f.2.put F.BOOT_VERIFY_RESULT (2 + f.1 % 5)

/-- BOOT_RBK.ADV with `target` (R420): a write that is not performed changes nothing. -/
def rollbackAdvance (target : Nat) (d : Dev) : Dev :=
  let target := target % 128
  if d.get F.BOOT_STAT_RBK < target && decide (target ≤ d.runRollback) && decide (target ≤ 64) then
    { d.put F.BOOT_RBK_TARGET target with burnReq := target }
  else d.refuseAt R.BOOT_RBK

end Sys2Proof.Machine
end

