-- ==== Sys2Proof/Machine/Trim.lean ====
section
/-! DEFINITION. Calibration, trims and wear (chapter 17). What a calibration measures comes from the analogue world and
arrives with its command. -/
namespace Sys2Proof.Machine

/-! ### Stale flags (R387) -/

/-- PG_STAT.STALE of page 0x5B follows TRIM_STALE. -/
def staleFollow (d : Dev) : Dev := d.putB (F.PG_STAT_STALE 0x5B) (d.reg R.TRIM_STALE != 0)

/-- Whether the ageing monitors calibrate: in the 1 ms before the hourly reading, and until it is made (R387). -/
def ageStale (d : Dev) : Bool := decide (d.trim.evalAt + 3600000000000 ≤ d.now + 1000000)

/-- The ADC bank starts its calibration: no conversion is made and every channel is stale (R298, R387). -/
def adcCalStart (d : Dev) : Dev :=
  let d := { d with mot := { d.mot with adcCal := true } }
  staleFollow ((forN 16 (fun i d => d.put (F.ADC_DATA_STALE i) 1) d).put F.TRIM_STALE_ADC 1)

/-- The periodic calibration: not with ADC_CAL_S at 0 (R387, R388). -/
def adcBankCal (d : Dev) : Dev :=
  if d.get F.TRIM_CFG_ADC_CAL_S = 0 || d.mot.adcCal then d else adcCalStart d

/-- TRIM_CTL.ADC_CAL (R388). -/
def adcCalCmd (d : Dev) : Dev := if d.mot.adcCal then d.refuseAt R.TRIM_CTL else adcCalStart d

/-- TRIM_STALE.ADC clears once no enabled channel is stale and the bank does not calibrate (R387). -/
def adcStaleFollow (d : Dev) : Dev :=
  if d.getB F.TRIM_STALE_ADC && !d.mot.adcCal && (bitsOf 16 (d.get F.ADC_EN_EN)).all (fun i => !d.getB (F.ADC_DATA_STALE i)) then
    staleFollow (d.put F.TRIM_STALE_ADC 0)
  else d

/-- The calibration ends; the flags clear with the first fresh values (R387). -/
def adcBankCalDone (d : Dev) : Dev := adcStaleFollow { d with mot := { d.mot with adcCal := false } }

/-- A conversion, and what it does to the bank's stale flag (R297, R387). -/
def adcConvert (code : Nat) (d : Dev) : Dev := adcStaleFollow (adcConversion code d)

/-- One junction sensor, in turn, calibrates (R387). -/
def tjSensorCal (d : Dev) : Dev :=
  if d.trim.tjCal.isSome then d else
  let i := d.trim.tjNext
  let d := { d with trim := { d.trim with tjCal := some i, tjNext := (i + 1) % 8 } }
  staleFollow ((d.put (F.TRIM_TJ_STALE i) 1).put F.TRIM_STALE_TJ 1)

/-- Its calibration ends with a fresh value, 1/16 °C (R387). -/
def tjSensorCalDone (v : Nat) (d : Dev) : Dev :=
  match d.trim.tjCal with
  | none => d
  | some i =>
    let d := { d with trim := { d.trim with tjCal := none } }
    let d := (d.put (F.TRIM_TJ_TJ i) v).put (F.TRIM_TJ_STALE i) 0
    staleFollow (d.put F.TRIM_STALE_TJ 0)

/-- The supply converters calibrate (R387). -/
def supplyConvCal (d : Dev) : Dev := staleFollow (d.put F.TRIM_STALE_SUPPLY 1)

/-- They end with fresh readings, mV (R387, R407). -/
def supplyConvCalDone (mv : List Nat) (d : Dev) : Dev :=
  if !d.getB F.TRIM_STALE_SUPPLY then d else
  let d := forN 10 (fun i d => d.put (F.SUPV_V_MV i) (mv.getD i 0)) d
  staleFollow (d.put F.TRIM_STALE_SUPPLY 0)

/-! ### Delay lines (R384) -/

/-- The window of port `h` in the beat in progress, ns: from the later of the beat's start and 100 ns after the port's last
strobe edge in it, up to 50 ns before its end. -/
def tapWindow (d : Dev) (h : Nat) : Int :=
  let b0 : Int := (d.beatStart d.beatNum : Nat)
  let b1 : Int := (d.beatStart (d.beatNum + 1) : Nat)
  let e : Int := match (d.head h).lastDrop with
    | some q => if b0 * 1000 ≤ q.1 ∧ q.1 < b1 * 1000 then -(-q.1 / 1000) + 100 else b0
    | none => b0
  b1 - 50 - max b0 e

/-- The calibrator of port `h` moves on to the next tap. -/
def tapAdvance (h : Nat) (d : Dev) : Dev :=
  let t := cellGet 1 d.trim.tapNext h
  { d with trim := { d.trim with tapNext := cellSet 1 d.trim.tapNext h (t % 255 + 1), tapRejects := cellSet 0 d.trim.tapRejects h 0 } }

/-- A window of port `h` ends with the delay `tau`, ps, measured for its next tap (R384). -/
def tapcalWindow (h tau : Nat) (d : Dev) : Dev :=
  if 32 ≤ h || !d.getB F.TRIM_CFG_TAPCAL_EN || decide (tapWindow d h < 600)
    || cellGet 0 d.trim.tapBeat h == d.beatNum + 1 then d else
  let d := { d with trim := { d.trim with tapBeat := cellSet 0 d.trim.tapBeat h (d.beatNum + 1) } }
  let t := cellGet 1 d.trim.tapNext h
  let step : Int := (tau : Int) - (tauOf d h (t - 1) : Int)
  if 2 * step < 79 ∨ 48 < step ∨ (t = 255 ∧ tau < 10050) then
    let r := cellGet 0 d.trim.tapRejects h + 1
    if 4 ≤ r then tapAdvance h ((d.put F.TRIM_TAPCAL_FAULT (setBit (d.get F.TRIM_TAPCAL_FAULT) h)).raise (hpPage h) 1)
    else { d with trim := { d.trim with tapRejects := cellSet 0 d.trim.tapRejects h r } }
  else
    let d := { d with taus := cellSet (0 : Nat) d.taus (256 * h + t) (tau + 1), tapSeen := cellSet false d.tapSeen (256 * h + t) true }
    let d := if (List.range 255).all (fun i => cellGet false d.tapSeen (256 * h + i + 1)) then d.put (F.HP_STAT_TAP_PASS h) 1 else d
    tapAdvance h d

/-! ### Converter pairs (R386) -/

/-- The pairs of input `e` are due to change roles; `ms` and `mc` are the mean differences of the incoming pair, 1/16
code. -/
def encPairSwap (e : Nat) (ms mc : Int) (d : Dev) : Dev :=
  if 2 ≤ e then d else
  let lim := 16 * d.get F.TRIM_ENC_CFG_SWAP_LIM
  if lim < ms.natAbs ∨ lim < mc.natAbs then (d.count F.TRIM_ENC_STAT_REFUSED 1).raise 0x5B 0
  else
    let f := if e = 0 then F.TRIM_ENC_STAT_PAIR0 else F.TRIM_ENC_STAT_PAIR1
    let q := 1 - d.get f
    let k := 4 * e + 2 * q
    let m := cellSet 0 d.trim.pairCorr k (cellGet 0 d.trim.pairCorr k + ms)
    { d.put f q with trim := { d.trim with pairCorr := cellSet 0 m (k + 1) (cellGet 0 m (k + 1) + mc) } }

/-! ### Die trims (R391) -/

/-- θj: the largest latest value of the junction sensors, 1/16 °C. -/
def thetaJ (d : Dev) : Int :=
  (List.range 8).foldl (fun m i => max m (d.getI (F.TRIM_TJ_TJ i))) (d.getI (F.TRIM_TJ_TJ 0))

/-- The target of code `q` at θj. -/
def dieTarget (c : FireCfg) (q : Nat) (t : Int) : Int :=
  let v (i : Nat) : Int := toSigned 16 (dtrimLive c (5 * q + i))
  let u : Int := (if t < 160 then 160 else if 1680 < t then 1680 else t) - 160
  let i : Nat := if u < 1200 then (u / 400).toNat else 3
  let span : Int := if i < 3 then 400 else 320
  let f : Int := u - 400 * (i : Int)
  v i + ((v (i + 1) - v i) * f + span / 2) / span

/-- The applied value of code `q`. -/
def dieApplied (d : Dev) (q : Nat) : Int := (cellGet none d.trim.applied q).getD (toSigned 16 (dtrimReset (5 * q + 1)))

/-- At a beat boundary every code moves one step toward its target (R391). -/
def dieTrimStep (d : Dev) : Dev :=
  let t := thetaJ d
  let c := liveCfg d
  let m := (List.range 38).foldl (fun (m : Cells (Option Int)) q =>
    let a := dieApplied d q
    let g := dieTarget c q t
    cellSet none m q (some (if a < g then a + 1 else if g < a then a - 1 else a))) d.trim.applied
  { d.putI F.TRIM_TJMAX_TJ t with trim := { d.trim with applied := m } }

/-! ### Wear (R392 to R395) -/

def wearBase (d : Dev) : Nat := d.get2 F.WEAR_SNAP_BASE_LO_BASE F.WEAR_SNAP_BASE_HI_BASE

def stepsOf (d : Dev) (a : Nat) : Nat := d.get2 (F.STP_STEPS_LO_STEPS a) (F.STP_STEPS_HI_STEPS a)

/-- The copy engine of WEAR has no master identity in R369: its transfers are not checked by Shroud (log entry 62). -/
def wearMaster : Nat := 63

/-- WEAR_CTL.SNAP (R392). -/
def wearSnap (d : Dev) : Dev :=
  if d.getB F.WEAR_STAT_BUSY then d.refuseAt R.WEAR_CTL
  else { d.put F.WEAR_STAT_BUSY 1 with trim := { d.trim with copy := some { restore := false } } }

/-- The wear counters as a reader finds them: one in a word that holds poison has no stated value (R338). -/
def wearSeen (d : Dev) : Cells Nat × Dev :=
  (d.ue.filter (fun e => e.1 / 2 ^ 32 == 1)).foldl (fun r e =>
    let k := 8 * (e.1 % 2 ^ 32) / 6
    let f := r.2.free 48
    let g := f.2.free 48
    (cellSet 0 (cellSet 0 r.1 k f.1) (k + 1) g.1, g.2)) (d.wear, d)

/-- A snapshot takes its content at the first beat boundary (R392); the hour is in service (R393). -/
def wearBeat (d : Dev) : Dev :=
  let d := if d.planActive then { d with trim := { d.trim with inService := true } } else d
  match d.trim.copy with
  | some c =>
    if c.restore || c.taken then d else
    let r := wearSeen d
    { r.2 with trim := { r.2.trim with copy := some { c with taken := true, wear := r.1, steps := (List.range 8).map (stepsOf d) } } }
  | none => d

/-- Entry `k` of the image: a wear counter, or an axis from 131,072 on (R392). -/
def wearPut (k v : Nat) (d : Dev) : Dev :=
  if k < 131072 then { d with wear := cellSet 0 d.wear k (v % 2 ^ 48) }
  else d.put2 (F.STP_STEPS_LO_STEPS (k - 131072)) (F.STP_STEPS_HI_STEPS (k - 131072)) (v % 2 ^ 48)

/-- Load the counters from the image, a line of 8 entries at a time; an entry the memory returns as poison has no stated
value. -/
def wearLoad (d : Dev) : Dev :=
  dramRun <| forN 16385 (fun i d =>
    let r := targetRead wearMaster (wearBase d + 64 * i) 64 d
    match r.1 with
    | some bs => forN 8 (fun j d => wearPut (8 * i + j) (leAt bs (8 * j) 8) d) r.2
    | none => forN 8 (fun j d => let f := d.free 48; wearPut (8 * i + j) f.1 f.2) r.2) d

/-- WEAR_CTL.RESTORE (R392); `moving` says that an axis moves. -/
def wearRestore (d : Dev) : Dev :=
  let moving := d.mot.axes.any (fun a => decide (a.2.mode ≠ .still))
  if d.planActive || moving || d.getB F.WEAR_STAT_BUSY then d.refuseAt R.WEAR_CTL
  else wearLoad { d.put F.WEAR_STAT_BUSY 1 with trim := { d.trim with copy := some { restore := true, taken := true } } }

/-- A snapshot or restore completes (R392). -/
def wearCopyDone (d : Dev) : Dev :=
  match d.trim.copy with
  | none => d
  | some c =>
    if !c.taken then d else
    let d := if c.restore then d else
      dramRun <| forN 16385 (fun i d =>
        let entry (j : Nat) : Nat := if i < 16384 then cellGet 0 c.wear (8 * i + j) else c.steps.getD j 0
        targetWrite wearMaster (wearBase d + 64 * i) (((List.range 8).map (fun j => leBytes 8 (entry j))).flatten) d) d
    { d.put F.WEAR_STAT_BUSY 0 with trim := { d.trim with copy := none } }

/-- The integer square root: the largest s with s² ≤ n, for n below 2^128. -/
def isqrt (n : Nat) : Nat :=
  (List.range 64).foldl (fun s i => let t := s + 2 ^ (63 - i); if t * t ≤ n then t else s) 0

def hours32 (n : Int) : Nat := satU 32 n

def indicator (d : Dev) (j : Nat) : Indicator := cellGet {} d.trim.indicators j

def setIndicator (j : Nat) (x : Indicator) (d : Dev) : Dev :=
  { d with trim := { d.trim with indicators := cellSet {} d.trim.indicators j x } }

/-- The running rate, and the spread about it, after an increase `dl` (R393): unchanged in a slack hour. -/
def rateUpdate (w : Nat) (serv : Bool) (dl : Int) (x : Indicator) : Indicator :=
  if !serv then x else
  let p : Int := (2 ^ w : Nat)
  let r := x.r + (dl - x.r) / p
  { x with r := r, s2 := x.s2 + ((dl - r) * (dl - r) - x.s2) / p }

/-- The forecasts of a counted indicator (R393). -/
def forecast (c rated : Nat) (x : Indicator) : Indicator :=
  let left : Int := (rated : Int) - c
  let s := isqrt x.s2.toNat
  let r90 : Int := x.r + ((s * 328 / 256 : Nat) : Int)
  { x with
    l := if rated ≤ c then 0 else if x.r ≤ 0 then 0xFFFFFFFF else hours32 (left / x.r)
    l90 := if rated ≤ c then 0 else if r90 ≤ 0 then 0xFFFFFFFF else hours32 (left / r90)
    used := satU 16 ((c * 65536 / max 1 rated : Nat) : Int) }

/-- WEAR_EW and its event (R394). -/
def earlyWarning (j : Nat) (d : Dev) : Dev :=
  let f := if j < 32 then F.WEAR_EW_LO_EW else F.WEAR_EW_HI_EW
  if d.get F.WEAR_WARN_HOURS ≤ (indicator d j).l90 || bit (d.get f) (j % 32) then d
  else (d.put f (setBit (d.get f) (j % 32))).raise 0x5C 0

/-- A head or axis indicator is evaluated, unless it has no rating or its port carries nothing (R393). -/
def evaluateCounted (serv : Bool) (j rated c : Nat) (d : Dev) : Dev :=
  let x := indicator d j
  if rated = 0 then setIndicator j { x with l := 0xFFFFFFFF, l90 := 0xFFFFFFFF } d
  else
    let x := rateUpdate (d.get F.WEAR_CFG_W_SH) serv ((c : Int) - x.c) x
    earlyWarning j (setIndicator j (forecast c rated { x with c := c }) d)

/-- Largest wear count over the mapped nozzles of port `h` (R393). -/
def headWear (d : Dev) (h : Nat) : Nat :=
  let n := cfgGet (liveCfg d) (F.PLAN_HP_A_NCOUNT h)
  (d.wear.filter (fun e => e.1 / 4096 == h && decide (e.1 % 4096 < n))).foldl (fun m e => max m e.2) 0

/-- The silicon indicator from the 24 monitor readings `ds`, ppm (R395): with d̄ = S / 24 and s_d² = (24 Σd² − S²) / 24², the
root taken to 32 bits below the unit (log entry 63). The spec gives no count for WEAR_USED: a free value. -/
def evaluateSilicon (serv : Bool) (ds : List Nat) (d : Dev) : Dev :=
  let d := forN 24 (fun i d => d.put (F.WEAR_AGE_D i) (ds.getD i 0)) d
  let teq := d.get2 F.WEAR_TEQ_LO_TEQ F.WEAR_TEQ_HI_TEQ
  let x := rateUpdate (d.get F.WEAR_CFG_W_SH) serv ((teq : Int) - d.trim.teqLast) (indicator d 40)
  let s := (List.range 24).foldl (fun a i => a + ds.getD i 0 % 65536) 0
  let lim := 24 * d.get F.WEAR_DLIM_D_LIM
  let l := if s = 0 ∨ x.r ≤ 0 then 0xFFFFFFFF
    else hours32 ((teq : Int) * ((lim ^ 4 : Nat) - (s ^ 4 : Nat)) / (x.r * (s ^ 4 : Nat)))
  let sq := (List.range 24).foldl (fun a i => a + (ds.getD i 0 % 65536) ^ 2) 0
  let m90 := s * 2 ^ 32 + 128 * isqrt ((24 * sq - s * s) * 2 ^ 64) / 100
  let l90 := if s = 0 ∨ x.r ≤ 0 then 0xFFFFFFFF
    else hours32 ((teq : Int) * (((lim * 2 ^ 32) ^ 4 : Nat) - (m90 ^ 4 : Nat)) / (x.r * (m90 ^ 4 : Nat)))
  let u := d.free 16
  let d := { u.2 with trim := { u.2.trim with teqLast := teq } }
  earlyWarning 40 (setIndicator 40 { x with c := teq, l := l, l90 := l90, used := u.1 } d)

/-- Every 3,600 s every indicator is evaluated (R393 to R395). -/
def wearEvaluation (ds : List Nat) (d : Dev) : Dev :=
  let serv := d.trim.inService
  let d := { d with trim := { d.trim with inService := false, evalAt := d.now } }
  let d := forN 32 (fun h d =>
    evaluateCounted serv h (if portBound d h then d.get (F.WEAR_HRATED_RATED h) * 65536 else 0) (headWear d h) d) d
  let d := forN 8 (fun a d => evaluateCounted serv (32 + a) (d.get (F.WEAR_ARATED_RATED a) * 65536) (stepsOf d a) d) d
  evaluateSilicon serv ds d

/-- The weight of the band that contains θj (R395). -/
def ageWeight (t : Int) : Nat :=
  if t ≤ 720 then 15 else if t ≤ 880 then 32 else if t ≤ 1040 then 67 else if t ≤ 1200 then 133
  else if t ≤ 1360 then 256 else if t ≤ 1520 then 474 else if t ≤ 1680 then 849 else 1477

/-- A second with the core rails powered (R395). -/
def ageingTick (d : Dev) : Dev :=
  if d.power = .standby ∨ d.power = .por then d else
  d.put2 F.WEAR_TEQ_LO_TEQ F.WEAR_TEQ_HI_TEQ
    ((d.get2 F.WEAR_TEQ_LO_TEQ F.WEAR_TEQ_HI_TEQ + ageWeight (thetaJ d)) % 2 ^ 48)

end Sys2Proof.Machine
end

