-- ==== Sys2Proof/Machine/Blocks.lean ====
section
/-! DEFINITION. Enabling, disabling, aborting and resetting a block, and releasing a cleated master (R361 to R363, R378,
R409, R428). -/
namespace Sys2Proof.Machine

/-! ### Binding (R363) -/

/-- Whether the block of page `p` is bound to an active plan (R363). -/
def pageBound (d : Dev) (p : Nat) : Bool :=
  d.planActive &&
  (if 0x20 ≤ p ∧ p ≤ 0x3F then portBound d (p - 0x20) else
   match p with
   | 0x03 => true | 0x04 => true | 0x08 => true | 0x07 => true
   | 0x05 => boundToPlan d 0
   | 0x06 => boundToPlan d 1
   | 0x0E => true | 0x0F => true | 0x11 => true | 0x12 => true | 0x13 => true | 0x14 => true
   | 0x40 => (List.range 32).any (fun h => portBound d h)
   | 0x5F => cfgGetB (liveCfg d) F.PLAN_STAY_EN
   | 0x41 => camBound d 0
   | 0x42 => camBound d 1
   | 0x43 => camBound d 0 || camBound d 1
   | 0x44 => camBound d 0 || camBound d 1
   | 0x45 => camBound d 0 || camBound d 1
   | 0x48 => (List.range 32).any (fun l => cfgGetB (liveCfg d) (F.PLAN_LOOP_EN l))
   | 0x50 => true | 0x51 => true
   | _ => false)

/-- Whether page `p` stands in the table of R363 and so has a unit of work. -/
def hasUnit (p : Nat) : Bool :=
  pageBinds p || [0x09, 0x0A, 0x0B, 0x0C, 0x0D, 0x10, 0x46, 0x49, 0x4A, 0x4B].contains p

/-! ### States of a block (R361, R427, R428) -/

/-- Exactly one of ACTIVE, IDLE and STOPPING (R428): 1, 2 or 4. -/
def putBlockState (p st : Nat) (d : Dev) : Dev :=
  ((d.put (F.PG_STAT_ACTIVE p) st).put (F.PG_STAT_IDLE p) (st / 2)).put (F.PG_STAT_STOPPING p) (st / 4)

def stopping (d : Dev) (p : Nat) : Bool := d.getB (F.PG_STAT_STOPPING p)

/-- Frames of camera port `c` that are open. -/
def openFrames (d : Dev) (c : Nat) : Nat := (d.cam c).frames.length

/-- Open frames that the block of page `p`, INSPECT, STATS or VERDICT, took on at their start (R270). -/
def framesOn (d : Dev) (p : Nat) : Nat :=
  ((List.range 2).map (fun c => ((d.cam c).frames.filter (fun f => f.on.contains p)).length)).sum

/-- Of the links `i` to `i + n - 1`, those on which a frame still goes out. -/
def linesBusy (d : Dev) (i n : Nat) : Nat := ((List.range' i n).filter (fun k => decide (laneNow d k < (d.link k).txEnd))).length

/-- The frames on the links `i` to `i + n - 1` are broken off. -/
def linesCut (i n : Nat) (d : Dev) : Dev :=
  forL (List.range' i n) (fun k d =>
    let x := d.link k
    if laneNow d k < x.txEnd then
      d.setLink k { x with txEnd := laneNow d k, line := { x.line with cur := [], q := [] } }
    else d) d

/-- The units of work in flight in the block of page `p`, as far as State holds them (R362, R363). -/
def unitsInFlight (d : Dev) (p : Nat) : Nat :=
  match p with
  | 0x09 => ((List.range 8).filter (fun i => (d.tp i).endT.isSome)).length
  | 0x0A => (d.path.txFlight.filter (fun e => bit e.2 0)).length
  | 0x0B => (d.path.txFlight.filter (fun e => bit e.2 1)).length
  | 0x0C => b2n d.path.coming.isSome
  | 0x0D => (d.jtp.sess.map (fun e => (e.2.held.filter (fun h => h.done != 0)).length)).sum
  | 0x10 => b2n (cmpInRecord d)
  | 0x40 => linesBusy d 0 32
  | 0x41 => openFrames d 0
  | 0x42 => openFrames d 1
  | 0x43 => framesOn d 0x43
  | 0x44 => framesOn d 0x44
  | 0x45 => framesOn d 0x45
  | 0x46 => (d.insp.pulses.filter (fun x => decide (d.now < x.2.2))).length
  | 0x4A => ((List.range 24).filter (fun o => (d.pwmOut o).running && decide (d.now < (d.pwmOut o).since + 5 * (d.pwmOut o).period))).length
  | 0x4B => ((List.range 8).filter (fun a => decide (d.now < (d.axis a).pulseEnd))).length
  | 0x50 => dramWaiting d
  | 0x51 => dramWaiting d
  | 0x5F => linesBusy d 32 2
  | _ => 0

/-- Open frames of camera port `c` are discarded. -/
def framesDrop (c : Nat) (d : Dev) : Dev := camFrameBit c (d.setCam c { d.cam c with frames := [], fifo := [], trigs := [] })

/-- The block of page `p`, INSPECT, STATS or VERDICT, gives up the frames it has taken on. -/
def framesCut (p : Nat) (d : Dev) : Dev :=
  forN 2 (fun c d => d.setCam c { d.cam c with
    frames := (d.cam c).frames.map (fun f => { f with on := f.on.filter (fun q => q != p) }) }) d

/-- The requests in the banks of DRAM are discarded. -/
def banksDrop (d : Dev) : Dev := { d with banks := [] }

/-- What aborting the block of page `p` discards (R158, R319, R362). -/
def abortUnits (p : Nat) (d : Dev) : Dev :=
  match p with
  | 0x09 => forN 8 (fun i e => if (e.tp i).endT.isSome then tpShow i (e.setTp i { e.tp i with endT := none }) else e) d
  | 0x0A => ethTxDone 0 d
  | 0x0B => ethTxDone 1 d
  | 0x0C => { d with path := { d.path with coming := none } }
  | 0x0D => { d with jtp := { d.jtp with sess := d.jtp.sess.map (fun e =>
      (e.1, { e.2 with held := e.2.held.filter (fun h => h.done == 0) })) } }
  | 0x10 => compressorAbort d
  | 0x40 => linesCut 0 32 d
  | 0x41 => framesDrop 0 d
  | 0x42 => framesDrop 1 d
  | 0x43 => framesCut 0x43 d
  | 0x44 => framesCut 0x44 d
  | 0x45 => framesCut 0x45 d
  | 0x46 => forN 4 strobeShow (setInsp d (fun i => { i with pulses := [] }))
  | 0x4B => steppersStop true d
  | 0x50 => banksDrop d
  | 0x51 => banksDrop d
  | 0x5F => linesCut 32 2 d
  | _ => d

/-- What the block of page `p` does once it takes no further units: outputs that it no longer drives, jobs that end (R158,
R308, R310, R312). -/
def leaveService (p : Nat) (d : Dev) : Dev :=
  match p with
  | 0x0C => { d with path := { d.path with elected := false } }
  | 0x10 => compressorAbort d
  | 0x4A => forN 24 pwmRest d
  | 0x4C => gpioShow d
  | _ => d

/-- EN of page `p` takes effect: the block is ACTIVE (R83, R90, R308, R310, R312, R361). -/
def enterService (p : Nat) (d : Dev) : Dev :=
  let d := putBlockState p 1 (d.put (F.PG_CTL_EN p) 1)
  match p with
  | 0x09 => tpEnable d
  | 0x0C => pathEnable d
  | 0x0D => jtpWork d
  | 0x4B => forN 8 axisShow d
  | 0x4C => gpioShow d
  | _ => d

/-- The block of page `p` is IDLE; a held EN = 1 takes effect (R361). -/
def becomeIdle (p : Nat) (d : Dev) : Dev :=
  let d := putBlockState p 2 (leaveService p d)
  if cellGet false d.enHeld p then enterService p { d with enHeld := cellSet false d.enHeld p false } else d

/-- The block of page `p` is aborted: DISCARDED says how many units were lost (R362). -/
def abortBlock (p : Nat) (d : Dev) : Dev :=
  let n := min (unitsInFlight d p) 0xFFFF
  let was := stopping d p
  let d := (abortUnits p d).put (F.PG_FAULT_INFO_DISCARDED p) n
  let d := becomeIdle p d
  if was then d.raiseBits p 8 else d

/-- EN of page `p` is cleared: STOPPING, or IDLE at once for a page without units of work (R307, R319, R361). -/
def clearEn (p : Nat) (d : Dev) : Dev :=
  let d := d.put (F.PG_CTL_EN p) 0
  let d := if p = 0x4B then steppersStop false d else d
  if hasUnit p then putBlockState p 4 d else becomeIdle p d

/-- A write of PG_CTL of page `p` with EN `en` and STOP_MODE `sm` (R361 to R363, R428). -/
def pgCtlWrite (p : Nat) (en sm : Bool) (d : Dev) : Dev :=
  if !pageListed p then d
  else if pageAlwaysOn p then
    let d := d.putB (F.PG_CTL_STOP_MODE p) sm
    if en then d else d.pgFault p faultRefused 0x0C
  else if pageBound d p && (!en || sm) then d.pgFault p faultBound 0x0C
  else
    let d := d.putB (F.PG_CTL_STOP_MODE p) sm
    if stopping d p then
      let d := { d with enHeld := cellSet false d.enHeld p en }
      if sm then abortBlock p d else d
    else if d.enabled p then
      if en then d
      else if sm then abortBlock p (d.put (F.PG_CTL_EN p) 0)
      else clearEn p d
    else if en then enterService p d
    else d

/-- EN of page `p` is cleared, STOP_MODE as it stands (R361). -/
def blockDisable (p : Nat) (d : Dev) : Dev := pgCtlWrite p false (d.getB (F.PG_CTL_STOP_MODE p)) d

/-- EN of page `p` is set, STOP_MODE as it stands (R361). -/
def blockEnable (p : Nat) (d : Dev) : Dev := pgCtlWrite p true (d.getB (F.PG_CTL_STOP_MODE p)) d

/-- STOP_MODE is set with EN cleared (R362). -/
def blockAbort (p : Nat) (d : Dev) : Dev := pgCtlWrite p false true d

/-- Whether the stopping block of page `p` has finished its units of work. -/
def unitDone (d : Dev) (p : Nat) : Bool :=
  unitsInFlight d p == 0

/-- A stopping block has finished its unit of work and reports IDLE (R361, R429). -/
def blockIdle (p : Nat) (d : Dev) : Dev :=
  if stopping d p && unitDone d p then (becomeIdle p d).raiseBits p 8 else d

/-! ### Block reset (R409) -/

/-- The registers of page `p` return to their reset values, but for those the standby island keeps (R408, R409). -/
def erasePage (p : Nat) (d : Dev) : Dev :=
  d.withSource (pageSource p) (fun e =>
    { e with regs := e.regs.filter (fun c => decide (c.1 / 0x1000 ≠ p) || islandRegs.contains c.1) })

/-- The fire-stream configuration of page `p` returns to reset in both halves. -/
def eraseCfg (p : Nat) (d : Dev) : Dev :=
  if !pageFire p then d else
  { d with versions := d.versions.map (fun (v : Version) =>
      let c := v.cfg
      { v with cfg := { c with
          regs := c.regs.filter (fun x => decide (x.1 / 0x1000 ≠ p))
          noz := if p = 0x12 then [] else c.noz
          tile := if p = 0x11 then [] else c.tile
          wave := if p = 0x14 then [] else c.wave
          ftrim := if p = 0x5B then [] else c.ftrim
          dtrim := if p = 0x5B then [] else c.dtrim } }) }

/-- Every receive lane of links `lo` to `hi − 1` loses lock. -/
def lanesLost (lo hi : Nat) (d : Dev) : Dev :=
  forL ((List.range hi).filter (fun i => decide (lo ≤ i))) (fun i e =>
    forN (rxLanes i) (fun l x => laneLockChange i l false x) e) d

/-- The outputs of a page rest at the level its block has after reset. -/
def pinsReset (pin : OutPin) (n : Nat) (d : Dev) : Dev := forN n (fun i e => e.drive pin i 0) d

/-- Camera port `c` returns to its reset state; the statistics ring and the exposure sets are other blocks'. -/
def camReset (c : Nat) (d : Dev) : Dev :=
  let x := d.cam c
  d.setCam c { stsHeld := x.stsHeld, gen := x.gen, width := x.width, ready := x.ready, pending := x.pending, failed := x.failed }

/-- The internal state of the block of page `p` returns to its reset value (R409). -/
def resetInternals (p : Nat) (d : Dev) : Dev :=
  if 0x20 ≤ p ∧ p ≤ 0x3F then
    let h := p - 0x20
    { ((lanesLost h (h + 1) d).setHead h {}).setLink h {} with
      taus := d.taus.filter (fun c => decide (c.1 / 256 ≠ h))
      tapSeen := d.tapSeen.filter (fun c => decide (c.1 / 256 ≠ h)) }.drive .headCutN h 0
  else match p with
  | 0x04 => { d with planCheck := none }
  | 0x05 => d.setEnc 0 {}
  | 0x06 => d.setEnc 1 {}
  | 0x07 => { d with venc := none, vencIdle := 0, vencFresh := false, pubFb := false, pubDelta := none, vencSeqs := [], planes := [] }
  | 0x08 => { d with clk := 0, tm := { tps := d.tm.tps } }
  | 0x09 => pinsReset .tpulse 8 { d with tm := { d.tm with tps := [] } }
  | 0x0A => ethLinkChange 0 false false false false d
  | 0x0B => ethLinkChange 1 false false false false d
  | 0x0C => { d with path := { fecTot := d.path.fecTot, fcsTot := d.path.fcsTot } }
  | 0x0D => { d with jtp := {}, evq := [] }
  | 0x0E => { d with streams := [], corPending := [], copies := [], planes := [] }
  | 0x10 => { d with cmp := {}, codecErrHeld := false }
  | 0x11 => ueErase 2 { d with tileSh := [], passWritten := false }
  | 0x12 => ueErase 0 { d with nozSh := [], wear := [], nozHi := 0, wearHi := 0, plogHeld := 0, plogReserve := [], plogLost := 0 }
  | 0x13 => pinsReset .rejectMark 1 { d with rejects := [], rejectPts := [], rejectEnd := none }
  | 0x14 => ueErase 3 { d with waveSh := [], schedDue := 0 }
  | 0x40 => lanesLost 0 34 (refoutOff d)
  | 0x41 => camReset 0 d
  | 0x42 => camReset 1 d
  | 0x43 => setInsp (framesCut 0x43 d) (fun i => { i with
      shdSh := [], shdLive := [], mapSh := [], mapLive := [], yPrev := [], tapArmed := false, tapRun := false
      tapDone := 0, tapEnding := false, tapPos := 0, pipe := none, served := 1 })
  | 0x44 => forN 2 (fun c e => e.setCam c { e.cam c with stsHeld := 0 }) (framesCut 0x44 d)
  | 0x45 => setInsp (framesCut 0x45 d) (fun i => { i with hist := [], vseq := 0, vrdHeld := 0, vrdDirty := false })
  | 0x46 => pinsReset .strb 4 (setInsp (forN 2 (fun c e => e.setCam c { e.cam c with
      gen := 0, width := 0, ready := none, pending := none, failed := false }) d) (fun i => { i with pulses := [] }))
  | 0x48 => { d with mot := { d.mot with loops := [], coefSh := [], coefLive := [], fin := [] } }
  | 0x49 => { d with mot := { d.mot with codes := [], adcLast := 15, adcCal := false } }
  | 0x4A => pinsReset .pwm 24 { d with mot := { d.mot with pwm := [] } }
  | 0x4B => pinsReset .isel 8 (pinsReset .ena 8 (pinsReset .dir 8 (pinsReset .step 8
      { d with mot := { d.mot with axes := [] } })))
  | 0x4C => pinsReset .gpio 16 { d with mot := { d.mot with gpioIn := 0 } }
  | 0x50 => ueErase 14 { d with
      dram := [], rankDown := 0, rankUsed := [], rows := [], throttled := [], banks := [], lastAct := [], stalled := [], scrubPos := 0 }
  | 0x51 => { dramHold true d with training := false, trainedRates := [], eyes := [], refsbCount := 0, trackLane := 0 }
  | 0x52 => { d with leakAt := [], leakUndo := [] }
  | 0x53 => forN 14 remapFull { d with remap := [], autoWant := [] }
  | 0x5B => { d with ftrimSh := [], dtrimSh := [], trim := { d.trim with
      applied := [], tapNext := [], tapRejects := [], tapBeat := [], pairCorr := [], tjCal := none, tjNext := 0 } }
  | 0x5C => { d with trim := { d.trim with inService := false, indicators := [], copy := none } }
  | 0x5E => { d with runRollback := 0, warmLen := 0, warmEntry := 0, warmRollback := 0, warmVersion := 0 }
  | 0x5F => ((lanesLost 32 34 { d with stay := {} }).setLink 32 {}).setLink 33 {}
  | _ => d

/-- PG_STAT.CLEATED of page `p` follows SHROUD_CLEAT (R376). -/
def putCleated (p : Nat) (d : Dev) : Dev :=
  d.putB (F.PG_STAT_CLEATED p) ((List.range 18).any (fun k => masterPage k == p && cleated d k))

/-- The block of page `p` is reset (R409). What the registers of CLK and BOOT show of the PLLs and the fuses stays. -/
def softReset (p : Nat) (d : Dev) : Dev :=
  let clk := d.reg R.CLK_STAT
  let rbk := d.get F.BOOT_STAT_RBK
  let d := eraseCfg p (erasePage p (resetInternals p d))
  let d := { d with
    armed := cellSet none d.armed p none
    enHeld := cellSet false d.enHeld p false
    heldSteps := d.heldSteps.filter (fun x => masterPage x.master != p) }
  let d := if p = 0x02 then d.setReg R.CLK_STAT clk else if p = 0x5E then d.put F.BOOT_STAT_RBK rbk else d
  let d := putCleated p d
  if p = 0x0A ∨ p = 0x0B then pathStatus d else if p = 0x11 ∨ p = 0x43 then passShow d else d

/-- Pages that SYS_BRST never resets (R409). -/
def resetProtected (p : Nat) : Bool := [0x00, 0x01, 0x54, 0x55, 0x56, 0x57, 0x58, 0x59, 0x5A, 0x5D].contains p

/-- SYS_BRST.GO with `page` (R409). -/
def blockReset (page : Nat) (d : Dev) : Dev :=
  let p := page % 256
  if !pageListed p || resetProtected p || pageBound d p then d.refuseAt R.SYS_BRST
  else softReset p (d.put F.SYS_BRST_PAGE p)

/-! ### Releasing a master (R378, R382) -/

/-- Core `c` with its page EVTC[c] is reset and starts at the boot ROM at Monitor level (R366, R378). -/
def coreReset (c : Nat) (d : Dev) : Dev :=
  { erasePage (corePage c) d with
    corePc := cellSet 0 d.corePc c 0
    spurWatch := cellSet 0 d.spurWatch c 0 }

/-- What an engine does once its writes have been performed. -/
def afterDo (x : AfterWrite) (d : Dev) : Dev :=
  match x with
  | .plog => plogWrote d
  | .verdict => verdictWrote d
  | .stats c => statsWrote c d
  | .bcr => bcrWrote d
  | .tap n => tapWrote n d
  | .rxr => rxrWrote d
  | .mrx t => mrxWrote t d
  | .txDone h => txMarkDone h d
  | .cmpData k => cmpWrote k d
  | .cmpFull => cmpFilled d
  | .cmpBad => cmpBad d
  | .cmpEnd adv p f => cmpEnded adv p f d
  | .boot s v e r => bootLoaded s v e r d
  | .mtxSkip => mtxPass d
  | .txSkip h q mask => if mask = 0 then txNext h d else txDrop h q mask d

/-- Whether a held step can be taken now: DRAM serves, or its master is released. -/
def stepFree (d : Dev) (x : HeldStep) : Bool :=
  match x with
  | .write m _ _ => !cleated d m
  | .violated m _ _ => !cleated d m
  | .dram _ a _ => !(inDram a && d.getB F.DRAMC_FCHG_BUSY)
  | .after _ _ => true

/-- Master `m` goes on with what it had issued, and after its release with the transaction after the violating one, as far as
it can (R330, R378): what follows a step goes in front of what was held behind it. -/
def heldStepsRun : Nat → Nat → Dev → Dev
  | 0, _, d => d
  | n + 1, m, d =>
    let mine := d.heldSteps.filter (fun x => x.master == m)
    let rest := d.heldSteps.filter (fun x => x.master != m)
    match mine with
    | [] => d
    | x :: xs =>
      if !stepFree d x then d else
      let d := { d with heldSteps := rest }
      let d := match x with
        | .write k a bs => dramRun (engineWrite1 k a bs d)
        | .violated _ _ _ => d
        | .dram k a bs => dramRun (targetWrite k a bs d)
        | .after _ y => afterDo y d
      heldStepsRun n m { d with heldSteps := d.heldSteps ++ xs }

/-- DRAM serves again after a change of rate: what the engines had issued is performed (R330). -/
def heldRelease (d : Dev) : Dev := forN 18 (fun m d => heldStepsRun (d.heldSteps.length + 4) m d) d

/-- The bus interface of master `m` is reset while its block is bound: the block issues again what it had not completed, the
violating write included (R409). -/
def busReset (m : Nat) (d : Dev) : Dev :=
  { d with heldSteps := d.heldSteps.map (fun x => match x with
      | .violated k a bs => if k = m ∧ bs ≠ [] then .write k a bs else x
      | _ => x) }

/-- What follows the release of master `m`: cause 7 clears with the store prefetch's, and held JTP messages go on (R116,
R382), the engine's held steps are taken (R378), and the print log's reserve drains (R210). -/
def afterRelease (m : Nat) (d : Dev) : Dev :=
  let d := if m = 8 then forN 8 (fun p e => seamClear p causeCleat e) d else d
  let d := heldStepsRun (d.heldSteps.length + 4) m d
  if m = 9 then cmpResume d
  else if m = 4 ∨ m = 5 ∨ m = 6 then jtpWork d
  else if m = 10 then plogLoss (plogDrain 66 d)
  else d

/-- SHROUD_RELEASE of master `m`, with RESET or without (R378, R409). -/
def shroudRelease (m : Nat) (reset : Bool) (d : Dev) : Dev :=
  if 48 ≤ m || !cleated d m then d else
  let d :=
    if !reset then d
    else if m < 4 then coreReset m d
    else if 18 ≤ m then d
    else if pageBound d (masterPage m) then busReset m d
    else softReset (masterPage m) d
  afterRelease m (setCleat m false d)

end Sys2Proof.Machine
end

