-- ==== Sys2Proof/Machine/Screen.lean ====
section
/-! DEFINITION. Composition, screening, stitching, passes and compensation of one line (R171, R185 to R202), and the fire
digest (R207). -/
namespace Sys2Proof.Machine

/-! ### Composition (R171) -/

/-- The composed samples: background sample x, or the overlay's where the mask selects it. `mask` is the mask line's
bytes. -/
def compose (w x0 wv : Nat) (bg : List Nat) (ov : Option (List Nat × List Byte)) : List Nat :=
  match ov with
  | none => bg
  | some (vs, mask) =>
    let inRect : List (Option Nat) := (vs.zipIdx.map (fun q => if (byteAt mask (q.2 / 8)).testBit (7 - q.2 % 8) then some q.1 else none)).take wv
    ((List.replicate x0 none ++ inRect ++ List.replicate (w - x0 - inRect.length) none).zip bg).map
      (fun (q : Option Nat × Nat) => q.1.getD q.2)

/-! ### Levels -/

/-- The thresholds of the cell at sample `x`, line `j` of plane `p` (R190, R191); a poisoned word reads 4,095 (R338). -/
def cellThresholds (c : FireCfg) (bad : Nat → Bool) (p x j : Nat) : List Nat :=
  let d3 := cfgGetB c (F.PLAN_PLANE_A_DROP_BITS p)
  let cw := if d3 then 4 else 2
  let tw := cfgGet c (F.SCR_TILE_B_TW_M1 p) + 1
  let th := cfgGet c (F.SCR_TILE_B_TH_M1 p) + 1
  let col := (x + cfgGet c (F.SCR_TILE_B_COL0 p)) % tw
  let row := (j + cfgGet c (F.SCR_TILE_B_ROW0 p)) % th
  let a := cfgGet c (F.SCR_TILE_A_BASE p) + cw * (row * tw + col)
  let word (i : Nat) : List Nat :=
    let k := (a + i) % 1048576
    if bad k then [4095, 4095] else let v := tileLive c k; [bits v 0 12, bits v 16 12]
  (((List.range cw).map word).flatten).take (2 * cw - 1)

/-- c of R192. -/
def toneValue (entry v : Nat) : Nat := satU 12 (((v * nozGain entry + 1024) / 2048 : Nat) + nozOffset entry)

/-- The level of R193 or R194 for sample `v` at nozzle table entry `entry`. -/
def contoneLevel (entry v : Nat) (ts : List Nat) : Nat :=
  let c := toneValue entry v
  (ts.filter (fun t => decide (t < c))).length

/-- r(x, j) of R195. -/
def stitchValue (x j : Nat) : Nat :=
  (List.range 4).foldl (fun s i =>
    let xi := b2n (bit x i)
    let ji := b2n (bit j i)
    s + (if xi = ji then 0 else 2 ^ (7 - 2 * i)) + ji * 2 ^ (6 - 2 * i)) 0

/-- A nozzle of a line: its port and global index, sample index, table entry, level after R197, and whether it may
receive (R199). -/
structure NozLine where
  g : Nat
  x : Nat
  entry : Nat
  bad : Bool
  level : Nat
  eligible : Bool
  deriving DecidableEq, Repr

/-- The port other than `h` that covers sample `x` of plane `p`, if any. -/
def otherPort (c : FireCfg) (ports : List Nat) (h x : Nat) : Option Nat :=
  ports.find? (fun q => q != h && decide (cfgGet c (F.PLAN_HP_B_PLANE_OFS q) ≤ x)
    && decide (x < cfgGet c (F.PLAN_HP_B_PLANE_OFS q) + cfgGet c (F.PLAN_HP_A_NCOUNT q)))

/-- Whether the nozzle of port `h` at sample `x` is the stitch winner (R195, R196). -/
def stitchWinner (c : FireCfg) (ports : List Nat) (h x j : Nat) : Bool :=
  match otherPort c ports h x with
  | none => true
  | some q =>
    let oh := cfgGet c (F.PLAN_HP_B_PLANE_OFS h)
    let oq := cfgGet c (F.PLAN_HP_B_PLANE_OFS q)
    let hFirst := decide (oh < oq) || (oh == oq && decide (h < q))
    let a := if hFirst then h else q
    let oa := cfgGet c (F.PLAN_HP_B_PLANE_OFS a)
    let win := decide (stitchValue x j < nozStitch (nozLive c (4096 * a + (x - oa))))
    win == hFirst

/-- Nozzle `i` of port `h` in line `j` of plane `p`, pass `k`, with composed sample `v` (R192 to R199). -/
def nozzleLine (c : FireCfg) (badNoz badTile : Nat → Bool) (ports : List Nat) (p k j h i v : Nat) : NozLine :=
  let g := 4096 * h + i
  let x := cfgGet c (F.PLAN_HP_B_PLANE_OFS h) + i
  let e := nozLive c g
  let bad := badNoz g
  let win := stitchWinner c ports h x j
  let inPass := bit (nozPasses e) k
  let l := if cfgGet c (F.PLAN_PLANE_A_IN_MODE p) < 2 then contoneLevel e v (cellThresholds c badTile p x j) else v
  { g := g, x := x, entry := e, bad := bad
    level := if bad || !win || !inPass then 0 else l
    eligible := nozState e == 0 && !nozNoRecv e && !bad && inPass && win }

/-- K and M of R198. -/
def keepMove (n : NozLine) : Nat × Nat :=
  let moves := nozCmode n.entry == 1 || nozCmode n.entry == 2
  match nozState n.entry with
  | 0 => (n.level, 0)
  | 1 => if moves then (n.level / 2, n.level - n.level / 2) else (n.level, 0)
  | _ => (0, if moves then n.level else 0)

/-- The target of the drops moved by `n`, if there is one (R200). -/
def moveTarget (ns : List NozLine) (w j : Nat) (n : NozLine) : Option Nat :=
  let at_ (x : Int) : Option Nat :=
    if x < 0 ∨ (w : Int) ≤ x then none
    else (ns.find? (fun m => m.eligible && decide ((m.x : Int) = x))).map (fun m => m.g)
  if nozCmode n.entry = 1 then
    let t : Int := n.g + nozPartner n.entry
    (ns.find? (fun m => m.eligible && decide ((m.g : Int) = t))).map (fun m => m.g)
  else
    let s : Int := if j % 2 = 0 then -1 else 1
    (at_ (n.x + s)).or (at_ (n.x - s))

/-- The final levels of a line by port, and what NOZ_CNT_LOST gains (R198 to R201). -/
def compensate (ns : List NozLine) (w j depth : Nat) : List (Nat × Nat) × Nat :=
  let donors := ns.filter (fun n => (keepMove n).2 != 0)
  let moved := donors.map (fun n => (moveTarget ns w j n, (keepMove n).2))
  let lost := (moved.filter (fun q => q.1.isNone)).foldl (fun a q => a + q.2) 0
  ns.foldr (fun n (r : List (Nat × Nat) × Nat) =>
    let k := (keepMove n).1
    let rcv := (moved.filter (fun q => q.1 == some n.g)).foldl (fun a q => a + q.2) 0
    let cap := if n.bad then 0 else min (nozCap n.entry) (2 ^ depth - 1)
    ((n.g, min (k + rcv) cap) :: r.1, r.2 + min rcv (k + rcv - cap))) ([], lost)

/-- One line `j` of plane `p` in pass `k` from its composed samples: the final levels of each port in ascending order,
what NOZ_CNT_LOST gains, and whether an uncorrectable error was met (R185 to R202, R187, R338). -/
def screenLine (c : FireCfg) (badNoz badTile : Nat → Bool) (p k j : Nat) (samples : List Nat) :
    List (Nat × List Nat) × Nat × Bool :=
  let ports := cfgPorts c p
  let s := samples.toArray
  let ns := (ports.map (fun h =>
    let o := cfgGet c (F.PLAN_HP_B_PLANE_OFS h)
    (List.range (cfgGet c (F.PLAN_HP_A_NCOUNT h))).map
      (fun i => nozzleLine c badNoz badTile ports p k j h i (s.getD (o + i) 0)))).flatten
  let depth := 2 + cfgGet c (F.PLAN_PLANE_A_DROP_BITS p)
  let r := compensate ns (cfgWidth c p) j depth
  let tile := decide (cfgGet c (F.PLAN_PLANE_A_IN_MODE p) < 2) && ns.any (fun n =>
    let cw := if cfgGetB c (F.PLAN_PLANE_A_DROP_BITS p) then 4 else 2
    let tw := cfgGet c (F.SCR_TILE_B_TW_M1 p) + 1
    let th := cfgGet c (F.SCR_TILE_B_TH_M1 p) + 1
    let a := cfgGet c (F.SCR_TILE_A_BASE p) + cw * ((j + cfgGet c (F.SCR_TILE_B_ROW0 p)) % th * tw
      + (n.x + cfgGet c (F.SCR_TILE_B_COL0 p)) % tw)
    (List.range cw).any (fun i => badTile ((a + i) % 1048576)))
  (ports.map (fun h => (h, (r.1.filter (fun q => q.1 / 4096 == h)).map (fun q => q.2))), r.2,
    tile || ns.any (fun n => n.bad))

/-! ### The fire digest (R207) -/

def crc64Poly : Nat := 0x42F0E1EBA9EA3693

/-- One byte into the CRC-64. -/
def crc64Byte (crc : Nat) (b : Byte) : Nat :=
  (List.range 8).foldl (fun c _ => if bit c 63 then Nat.xor (c * 2 % 2 ^ 64) crc64Poly else c * 2 % 2 ^ 64)
    (Nat.xor crc (b.toNat * 2 ^ 56))

def crc64 (crc : Nat) (bs : List Byte) : Nat := bs.foldl crc64Byte crc

/-- Bits packed into bytes, most significant first, with zero bits to a multiple of `unit` bits. -/
def packTo (unit : Nat) (l : List Bool) : List Byte :=
  let pad := (unit - l.length % unit) % unit
  let b := (l ++ List.replicate pad false).toArray
  (List.range (b.size / 8)).map (fun i =>
    BitVec.ofNat 8 ((List.range 8).foldl (fun a k => 2 * a + b2n (b.getD (8 * i + k) false)) 0))

/-- Levels of `d` bits each. -/
def levelBits (d : Nat) (ls : List Nat) : List Bool := (ls.map (natBits d)).flatten

/-- Fold a launched line into a plane's digest (R207). -/
def digestLine (crc line d : Nat) (levels : List Nat) : Nat :=
  crc64 (crc64 crc (beBytes 6 line)) (packTo 8 (levelBits d levels))

end Sys2Proof.Machine
end

