-- ==== Sys2Proof/Machine/Pipeline.lean ====
section
/-! DEFINITION. The print pipeline at a beat boundary: stages (R21), the lead window (R22), issue and descriptor capture
(R166, R174), decode (R153), assignment of lines to beats (R50 to R52), and the private sources TICK and BCMP (R348). -/
namespace Sys2Proof.Machine

/-! ### Copy-order descriptors (R165, R166) -/

/-- A descriptor from its 32 bytes. -/
def parseDesc (bs : List Byte) : Desc :=
  { repeat_ := leAt bs 4 4, ovlPlanes := byteAt bs 9, x0 := leAt bs 12 4 % 2 ^ 18, y0 := leAt bs 16 4 % 2 ^ 20
    wv := leAt bs 20 4 % 2 ^ 18, hv := leAt bs 24 4 % 2 ^ 20, tag := leAt bs 28 4 }

/-- LINES of a copy that starts at D and lasts `rep` counts, on plane `p` (R167). -/
def copyLines (d : Dev) (p start rep : Nat) : Nat :=
  let q := pitchOf d p
  if q = 0 then 0 else ceilDiv ((start + rep) * 65536) q - ceilDiv (start * 65536) q

/-- Why descriptor `e` of epoch `ord` is not valid: DESC_CODE 2, 3 or 4, or 0 (R166). -/
def descInvalid (d : Dev) (ord : Nat) (e : Desc) : Nat :=
  let c := cfgFor d ord
  let ps := bitsOf 8 e.ovlPlanes
  if e.repeat_ = 0 then 2
  else if ps.any (fun p => !cfgGetB c (F.PLAN_PLANE_A_OVL p)) then 3
  else if ps.all (fun p => decide (1 ≤ e.wv) && decide (e.wv ≤ cfgGet c (F.PLAN_PLANE_B_OVL_W p))
      && decide (e.x0 + e.wv ≤ cfgWidth c p) && decide (1 ≤ e.hv)
      && decide (e.y0 + e.hv ≤ copyLines d p (copyStart d ord) e.repeat_)) then 0
  else 4

/-- Read the slot of epoch `ord`: it is captured when present and valid; otherwise the DESC_CODE (R166), or 16 where the
read cleated the store prefetch (R377). -/
def descCapture (ord : Nat) (d : Dev) : Nat × Dev :=
  let slot := epochNumber d ord % 65536
  if cellGet 0 d.corPending slot ≠ 0 then (1, d) else
  let r := engineRead 8 (corBase d + 32 * slot) 32 d
  if cleated r.2 8 then (16, r.2) else
  match r.1 with
  | none => (5, r.2.setCopy ord { r.2.copyAt ord with ecc := true })
  | some bs =>
    let e := parseDesc bs
    if leAt bs 0 4 ≠ epochNumber d ord ∨ !bit (byteAt bs 8) 0 then (1, r.2) else
    let k := descInvalid d ord e
    if k ≠ 0 then (k, r.2)
    else (0, r.2.setCopy ord { r.2.copyAt ord with desc := e, start := copyStart d ord, omega := copyOmega d ord })

/-- The issue test of line `n` of plane `p` reaches its epoch: every epoch that starts at it passes its cut-off and is
captured, in ascending order (R30, R166, R460). The DESC_CODE of the first one that is not, or 0. -/
def epochsReady : Nat → Nat → Nat → Dev → Nat × Dev
  | 0, _, _, d => (1, d)
  | fuel + 1, p, n, d =>
    let o := ordOfLine d p n
    let d := if d.cutoffDone ≤ o then cutoff o d else d
    if captured d o then (if firstLine d (o + 1) p ≤ n then epochsReady fuel p n d else (0, d))
    else
      let r := descCapture o d
      if r.1 ≠ 0 then r else epochsReady fuel p n r.2

/-! ### Layer data (R168 to R174) -/

/-- What a line needs of one layer stream: nothing, or a record that is unusable, absent, or present with its offset and
extent. -/
inductive Layer where
  | none
  | unusable
  | absent
  | present (off n : Nat)
  deriving DecidableEq, Repr

/-- Whether stream `s` fits its role (R168). -/
def streamFits (s : Stream) (kind p : Nat) : Bool :=
  s.en && s.kind == kind && s.plane == p && s.ring == (kind != 0)

/-- The background record of line `j` (R169, R174). -/
def bgLayer (c : FireCfg) (p j : Nat) (s : DecState) (d : Dev) : Layer × Dev :=
  if !cfgGetB c (F.LAYER_BG_EN p) || decide (cfgGet c (F.LAYER_BG_LINES_LINES p) ≤ j) then (.none, d) else
  let st : Stream := cellGet {} d.streams (cfgGet c (F.LAYER_BG_STREAM p))
  if !streamFits st 0 p then (.unusable, d)
  else if st.fill < s.bgPos + 4 then (.absent, d)
  else
    let h := streamRead st s.bgPos 4 d
    let n := recordExtent (cfgWidth c p) (cfgDepth c p) (beAt (h.1.getD []) 0 4)
    (if st.fill < s.bgPos + n then .absent else .present s.bgPos n, h.2)

/-- Whether the overlay rectangle of the copy covers line `j` on plane `p`. -/
def overlayCovers (e : Desc) (p j : Nat) : Bool :=
  bit e.ovlPlanes p && decide (e.y0 ≤ j) && decide (j < e.y0 + e.hv)

/-- The overlay value record of a line, after the records passed over (R170, R172, R174). -/
def ovLayer (c : FireCfg) (p : Nat) (e : Desc) (s : DecState) (d : Dev) : Layer × DecState × Dev :=
  let st : Stream := cellGet {} d.streams (cfgGet c (F.LAYER_OV_VAL_STREAM p))
  if !streamFits st 1 p then (.unusable, s, d) else
  let r := resolveSkips (skipFuel s) s d
  if !r.1.skips.isEmpty then (.absent, r.1, r.2) else
  let x := ringRecord st e.wv (cfgDepth c p) r.1.ovPos r.2
  (match x.1 with
    | none => .absent
    | some n => .present (ringOffset st r.1.ovPos) n, r.1, x.2)

/-- The mask line. -/
def maskLayer (c : FireCfg) (p : Nat) (e : Desc) (s : DecState) (d : Dev) : Layer :=
  let st : Stream := cellGet {} d.streams (cfgGet c (F.LAYER_OV_MASK_STREAM p))
  let n := ceilDiv e.wv 8
  if !streamFits st 2 p then .unusable
  else if ringAvail st s.maskPos < n then .absent
  else .present (ringOffset st s.maskPos) n

/-! ### Decode (R149 to R153) -/

/-- A line record fails (R153, R176): counted once per line, the first failure captured, the stream marked failed. -/
def decodeFailed (p kind n i off code seg : Nat) (first : Bool) (d : Dev) : Dev :=
  let d := if first then (d.count F.CODEC_ERR_CNT_COUNT 1).raise 0x10 0 else d
  let d := if d.codecErrHeld then d else
    let d := ((d.put F.CODEC_ERR_CODE code).put F.CODEC_ERR_PLANE p).put F.CODEC_ERR_KIND kind
    let d := (d.put F.CODEC_ERR_SEG seg).put F.CODEC_ERR_LINE_LO_LINE n
    { d.put F.CODEC_ERR_LINE_HI_LINE (n / 2 ^ 32) with codecErrHeld := true }
  let s : Stream := cellGet {} d.streams i
  if s.failed then d else { d with streams := cellSet {} d.streams i { s with failed := true, sfail := off } }

/-- The bytes of a layer of the line from stream `i`; none where a byte is poisoned. -/
def fetchLayer (i : Nat) (l : Layer) (d : Dev) : Option (List Byte) × Dev :=
  match l with
  | .present off n => streamRead (cellGet {} d.streams i) off n d
  | _ => (some [], d)

/-- What decoding one layer of a line gives: its samples, or the failure's code and segment; a poisoned record fails with a
code the spec does not give (R338). -/
def decodeLayer (w b : Nat) (ref : List Nat) (bad : Bool) (bytes : Option (List Byte)) (d : Dev) :
    (List Nat ⊕ (Nat × Nat)) × Dev :=
  match bytes with
  | some bs => (decodeLine w b ref bad bs, d)
  | none => let f := d.free 8; (.inr (f.1, 0), f.2)

/-- An uncorrectable error met while a line of epoch `ord` was built: its COPY record carries FLAGS.ECC (R338). -/
def copyEcc (ord : Nat) (d : Dev) : Dev := d.setCopy ord { d.copyAt ord with ecc := true }

/-- The bytes of a line's layers. -/
structure LineBytes where
  bg : Option (List Byte)
  ov : Option (List Byte)
  mask : Option (List Byte)
  deriving DecidableEq, Repr

/-- One decoded layer: its samples if it is used and sound, whether it failed. -/
structure LayerOut where
  samples : Option (List Nat) := none
  failed : Bool := false
  deriving DecidableEq, Repr

/-- Decode the background of line `n` of plane `p` (R150 to R153, R169). -/
def buildBg (c : FireCfg) (p n : Nat) (l : Layer) (bytes : Option (List Byte)) (s : DecState) (d : Dev) :
    LayerOut × DecState × Dev :=
  match l with
  | .present off k =>
    let x := decodeLayer (cfgWidth c p) (cfgDepth c p) s.bgRef s.bgBad bytes d
    (match x.1 with
      | .inl v => ({ samples := some v }, { s with bgPos := s.bgPos + k, bgRef := v, bgBad := false }, x.2)
      | .inr f => ({ failed := true }, { s with bgPos := s.bgPos + k, bgRef := [], bgBad := true },
          decodeFailed p 0 n (cfgGet c (F.LAYER_BG_STREAM p)) off f.1 f.2 true x.2))
  | _ => ({}, s, d)

/-- Decode the overlay of line `n` (R150 to R153, R170); `first` says that the line has not failed yet. -/
def buildOv (c : FireCfg) (p n wv : Nat) (l : Layer) (bytes : Option (List Byte)) (first : Bool) (s : DecState) (d : Dev) :
    LayerOut × DecState × Dev :=
  match l with
  | .present off k =>
    let x := decodeLayer wv (cfgDepth c p) s.ovRef s.ovBad bytes d
    (match x.1 with
      | .inl v => ({ samples := some v }, { s with ovPos := s.ovPos + k, ovRef := v, ovBad := false }, x.2)
      | .inr f => ({ failed := true }, { s with ovPos := s.ovPos + k, ovRef := [], ovBad := true },
          decodeFailed p 1 n (cfgGet c (F.LAYER_OV_VAL_STREAM p)) off f.1 f.2 first x.2))
  | _ => ({}, s, d)

/-- The mask line of line `n`: poison counts as a failed decode (R338). -/
def buildMask (c : FireCfg) (p n : Nat) (l : Layer) (bytes : Option (List Byte)) (first : Bool) (s : DecState) (d : Dev) :
    Bool × DecState × Dev :=
  match l with
  | .present off k =>
    let s := { s with maskPos := s.maskPos + k }
    if bytes.isSome then (false, s, d) else
    let f := d.free 8
    (true, s, decodeFailed p 1 n (cfgGet c (F.LAYER_OV_MASK_STREAM p)) off f.1 0 first f.2)
  | _ => (false, s, d)

/-- A line whose line or prefetch buffer gave poison, `bad`, has no bytes for its first layer that is used (R338). -/
def LineBytes.spoil (bs : LineBytes) (bg ov : Layer) (bad : Bool) : LineBytes :=
  if !bad then bs
  else match bg, ov with
    | .present _ _, _ => { bs with bg := none }
    | _, .present _ _ => { bs with ov := none }
    | _, _ => bs

/-- Decode and compose line `n`, line `j` of epoch `ord`, from the stream state `s` and its layers (R149 to R153, R171); `bad`
says that its buffers gave poison: it is handled as one that failed decode (R338). -/
def buildLine (p n ord j : Nat) (s : DecState) (bg ov mk : Layer) (bs : LineBytes) (bad : Bool) (d : Dev) : Slot × Dev :=
  let c := cfgFor d ord
  let e := (d.copyAt ord).desc
  let bs := bs.spoil bg ov bad
  let d := if bad || bs.bg.isNone || bs.ov.isNone || bs.mask.isNone then copyEcc ord d else d
  let r1 := buildBg c p n bg bs.bg s d
  let r2 := buildOv c p n e.wv ov bs.ov (!r1.1.failed) r1.2.1 r1.2.2
  let r3 := buildMask c p n mk bs.mask (!r1.1.failed && !r2.1.failed) r2.2.1 r2.2.2
  let fail := bad || r1.1.failed || r2.1.failed || r3.1
  let del (l : List Nat) : List Nat := l.map (deliver (cfgGet c (F.PLAN_PLANE_A_IN_MODE p)))
  let w := cfgWidth c p
  let under := r1.1.samples.getD (List.replicate w 0)
  let lay := r2.1.samples.map (fun v => (del v, bs.mask.getD []))
  ({ line := n, ord := ord, j := j, stage := 1, why := if fail then 2 else 0
     samples := if fail then [] else compose w e.x0 e.wv (del under) lay
     levels := [], after := { r3.2.1 with line := n + 1 } }, r3.2.2)

/-! ### Issue (R21, R174) -/

/-- STORE_MISS of plane `p` (R174): DESC, BG, OVL, MASK, CFG and DESC_CODE. -/
def storeMiss (p desc : Nat) (bg ov mk cfg : Bool) (d : Dev) : Dev :=
  d.setReg (R.STORE_MISS p) (BitVec.ofNat 32
    (b2n (desc != 0) + 2 * b2n bg + 4 * b2n ov + 8 * b2n mk + 16 * b2n cfg + 256 * desc))

/-- Whether plane `p` may test its next line for issue: R21, and not while the store prefetch is cleated (R377), behind a
decode error not yet released (R177), past the end of the plan (R34), or disabled in the line's epoch. -/
def mayIssue (d : Dev) (p : Nat) : Bool :=
  let x := d.plane p
  let o := ordOfLine d p x.issue
  decide (x.issue < x.next + 4) && !cleated d 8 && !(holdsCause d p causeDecode && !x.reissued)
    && !(d.stopMode == 2) && !(d.stopMode == 1 && decide (d.stopOrd < o))
    && pitchOf d p != 0 && cfgGetB (cfgFor d o) (F.PLAN_PLANE_A_EN p)

/-- The stream state before the plane's next line to issue (R173). -/
def issueState (d : Dev) (p : Nat) : DecState :=
  let x := d.plane p
  match x.slots.find? (fun s => s.line + 1 == x.issue) with
  | some s => s.after
  | none => x.dec

/-- How many epochs can share a first line of plane `p`, and some more: each lasts one count at least (R167, R460). -/
def epochsSharing (d : Dev) (p : Nat) : Nat := pitchOf d p / 65536 + d.copies.length + 8

/-- At a boundary the store tests the next line of plane `p` for issue and issues it when everything it needs is present
(R21, R174). The resume line of a stopped plane takes cause 2 at once when it fails decode; any later line fails its
lead-window test in its turn (R175, R177, R179). -/
def issueLine (p : Nat) (d : Dev) : Dev :=
  if !mayIssue d p then d else
  let n := (d.plane p).issue
  let r := epochsReady (epochsSharing d p) p n d
  let d := r.2
  if r.1 = 16 then d
  else if r.1 ≠ 0 then storeMiss p r.1 false false false false d else
  let o := ordOfLine d p n
  let c := cfgFor d o
  if !cfgGetB c (F.PLAN_PLANE_A_EN p) then d else
  let n0 := firstLine d o p
  let s := if n = n0 then enterCopy d p o (issueState d p) else issueState d p
  let j := n - n0
  let e := (d.copyAt o).desc
  let bg := bgLayer c p j s d
  let d := bg.2
  let cov := overlayCovers e p j
  let ov := if cov then ovLayer c p e s d else (.none, s, d)
  let s := ov.2.1
  let d := ov.2.2
  let mk := if cov then maskLayer c p e s d else .none
  if cleated d 8 then d else
  let cfg := decide (bg.1 = .unusable) || decide (ov.1 = .unusable) || decide (mk = .unusable)
  let ab (l : Layer) : Bool := decide (l = .absent)
  if cfg || ab bg.1 || ab ov.1 || ab mk then storeMiss p 0 (ab bg.1) (ab ov.1) (ab mk) cfg d else
  let f1 := fetchLayer (cfgGet c (F.LAYER_BG_STREAM p)) bg.1 d
  let f2 := fetchLayer (cfgGet c (F.LAYER_OV_VAL_STREAM p)) ov.1 f1.2
  let f3 := fetchLayer (cfgGet c (F.LAYER_OV_MASK_STREAM p)) mk f2.2
  let d := f3.2
  if cleated d 8 then d else
  let b := buildLine p n o j s bg.1 ov.1 mk { bg := f1.1, ov := f2.1, mask := f3.1 } (lineBufferBad d p) d
  let d := (lineBufferFill p b.2).setReg (R.STORE_MISS p) 0
  let x := d.plane p
  let d := d.setPlane p { x with slots := x.slots ++ [b.1], issue := n + 1 }
  if b.1.why = 2 && inSeamStop d p && n == x.resume then seamStop p causeDecode n d else d

/-! ### Stages (R21) -/

/-- Line index 0-based word indexes of the nozzle and tile memories in their ECC groups (R339, R341). -/
def nozBad (d : Dev) (g : Nat) : Bool := poisoned d 0 g
def tileBad (d : Dev) (t : Nat) : Bool := poisoned d 2 (t / 2)

/-- A line enters stage 2: composed samples become levels under its epoch's configuration (R185 to R202), and the live
halves follow the first line of an epoch (R433). -/
def enterScreen (p : Nat) (s : Slot) (d : Dev) : Slot × Dev :=
  let d := if s.line = firstLine d s.ord p then
      let d := { d with planeLive := cellSet 0 d.planeLive p (s.ord + 1) }
      if d.liveOrd ≤ s.ord then showLive s.ord d else d
    else d
  if s.why ≠ 0 then (s, d) else
  let r := screenLine (cfgFor d s.ord) (nozBad d) (tileBad d) p (passOf d s.ord) s.j s.samples
  let d := d.count F.NOZ_CNT_LOST_LOST r.2.1
  ({ s with levels := r.1, samples := [] }, if r.2.2 then copyEcc s.ord d else d)

/-- A line is framed: causes 1, 3 and a released cause 2 of its plane clear at the resume line (R177). -/
def lineFramed (p : Nat) (s : Slot) (d : Dev) : Dev :=
  let x := d.plane p
  if s.why ≠ 0 ∨ d.get (F.STORE_SEAM_STAT_STATE p) = seamRun ∨ s.line ≠ x.resume then d else
  let d := seamClear p causeOverrun (seamClear p causeLate d)
  if x.reissued then
    let d := seamClear p causeDecode d
    d.setPlane p { d.plane p with reissued := false }
  else d

/-- The stream state before line `s` of plane `p`, which is in the pipeline (R173). -/
def slotState (p : Nat) (s : Slot) (d : Dev) : DecState :=
  let x := d.plane p
  let b := match x.slots.find? (fun q => q.line + 1 == s.line) with
    | some q => q.after
    | none => x.dec
  if s.line = firstLine d s.ord p then enterCopy d p s.ord b else b

/-- Line `s` of plane `p` reads line buffers that give poison: it is handled as one whose decode failed (R153, R338). -/
def slotSpoil (p : Nat) (s : Slot) (d : Dev) : Slot × Dev :=
  if s.why ≠ 0 || !lineBufferBad d p then (s, d) else
  let c := cfgFor d s.ord
  let f := (copyEcc s.ord (lineBufferFill p d)).free 8
  let b := slotState p s f.2
  let bg := bgLayer c p s.j b f.2
  let d := match bg.1 with
    | .present off _ => decodeFailed p 0 s.line (cfgGet c (F.LAYER_BG_STREAM p)) off f.1 0 true bg.2
    | _ =>
      let ov := ovLayer c p (f.2.copyAt s.ord).desc b bg.2
      match ov.1 with
      | .present off _ => decodeFailed p 1 s.line (cfgGet c (F.LAYER_OV_VAL_STREAM p)) off f.1 0 true ov.2.2
      | _ => ov.2.2
  ({ s with why := 2, samples := [], levels := [] }, d)

/-- Every line of plane `p` advances one stage at the boundary, on what its line buffers gave. -/
def stageAdvance (p : Nat) (d : Dev) : Dev :=
  forL ((d.plane p).slots.map (fun s => s.line)) (fun n d =>
    match (d.plane p).slots.find? (fun s => s.line == n) with
    | none => d
    | some s =>
      if 4 ≤ s.stage then d else
      let sp := slotSpoil p s d
      let s := sp.1
      let d := sp.2
      let r := if s.stage = 1 then enterScreen p s d else (s, d)
      let t := { r.1 with stage := s.stage + 1 }
      let x := r.2.plane p
      let d := r.2.setPlane p { x with slots := x.slots.map (fun q => if q.line = n then t else q) }
      if t.stage = 4 then lineFramed p t d else d) d

/-! ### Overruns (R19, R175) -/

/-- The stage of R21 that a unit of R26 works in. R19 does not say which line a DRAM_BW (0x15) overrun leaves uncompleted: it
is the line in decode (DESIGN CHOICE, log entry 107). -/
def unitStage (u : Nat) : Nat :=
  match u with
  | 0x10 => 1 | 0x15 => 1 | 0x11 => 2 | 0x12 => 2 | 0x13 => 2 | 0x14 => 3 | _ => 0

/-- Unit `u` had not completed the beat's work for planes `m`: counted, recorded and raised; the lines concerned miss
their lead windows (R19). A line assigned already, or the resume line of a stopped plane, stops its plane at once. -/
def beatOverrun (u m : Nat) (d : Dev) : Dev :=
  let d := ((d.count F.BEAT_OVERRUN_COUNT 1).put F.BEAT_OVERRUN_UNIT u).raise 0x03 0
  let d := d.sendEvent 0x07 0xFF 0 (u % 256) 0
  forL (bitsOf 8 m) (fun p d =>
    let x := d.plane p
    match x.slots.find? (fun s => s.stage == unitStage u) with
    | none => d
    | some s =>
      let d := d.setPlane p { x with slots := x.slots.map (fun q => if q.line = s.line && q.why == 0 then { q with why := 3 } else q) }
      if x.assigns.any (fun a => a.line == s.line) || (inSeamStop d p && s.line == x.resume) then
        seamStop p causeOverrun s.line d
      else d) d

/-! ### Assignment (R50 to R52, R205) -/

/-- The predicted instant t̂ of the line at boundary `pb` from track `k`, 2^-16 ns (R50). -/
def predictT (pb : Int) (k : Track) : Int :=
  let dx := pb * 65536 - k.xh
  -- dx in 2^-16 counts, vh in 2^-24 counts/ns: τ in 2^-16 ns is dx × 2^24 / vh
  let tau := dx * 2 ^ 24 / k.vh
  -- â τ² / 2 is in units of 2^-73 counts: over that denominator the quotient is exact until its one rounding
  let tau := (dx * 2 ^ 57 - k.ah * tau * tau) / (2 ^ 33 * k.vh)
  k.t + max tau 0

/-- The line's event instant, launch instant and kind, if it falls in beat `k` (R50). -/
def lineEvent (d : Dev) (p k : Nat) : Option (Int × Int × Bool) :=
  let x := d.plane p
  let pb := boundaryOf d p x.cursor
  let b0 : Int := ((d.beatStart k : Nat) : Int) * 65536
  let b1 : Int := ((d.beatStart (k + 1) : Nat) : Int) * 65536
  match x.hwm with
  | none => none
  | some h =>
    if pb ≤ h then
      let t := (x.crossed.find? (fun c => decide (x.cursor ≤ c.1))).map (fun c => ((c.2 : Nat) : Int))
      some (t.getD d.t16, b0, true)
    else match effPlane d p with
      | none => none
      | some q =>
        if q.vh ≤ 0 ∨ q.vh < (d.get F.LEV_VMIN_VMIN : Int) then none else
        let t := predictT pb q
        if t < b1 then some (t, max t b0, false) else none

/-- Whether plane `p` assigns lines now: not while REV, in seam-stop, waiting at a change of transform, or past the end of
its plan (R34, R49, R53, R205). -/
def mayAssign (d : Dev) (p : Nat) : Bool :=
  let x := d.plane p
  let o := cursorOrd d p
  !d.getB (F.LEV_STAT_REV p) && !inSeamStop d p && x.turn == 0 && pitchOf d p != 0
    && d.stopMode != 2 && !(d.stopMode == 1 && decide (d.stopOrd < o)) && cfgGetB (cfgFor d o) (F.PLAN_PLANE_A_EN p)

/-- The cursor of plane `p` stands at the first line under a plan that replaced another, epochs without lines on the plane between
them or not: its heads are found fit or not (R229, R460). -/
def planReached (p : Nat) (d : Dev) : Dev :=
  let x := d.plane p
  let o := cursorOrd d p
  let c := cfgFor d o
  let new (v : Version) : Bool := v.plan && v.ord != 0 && decide (v.ord ≤ o) && firstLine d v.ord p == x.cursor
  if o ≠ 0 ∧ firstLine d o p = x.cursor ∧ d.versions.any new = true ∧ cfgGetB c (F.PLAN_PLANE_A_EN p) = true then
    headActivatePlane c p x.cursor d
  else d

/-- The cursor has reached a new line: at an epoch's first line a change of transform begins a wait (R205), and a plan
replaced there finds its heads fit or not (R229). -/
def cursorMoved (p : Nat) (d : Dev) : Dev :=
  let x := d.plane p
  let o := cursorOrd d p
  if o = 0 ∨ firstLine d o p ≠ x.cursor then d else
  let d := if transform d p o ≠ transform d p (o - 1) then d.setPlane p { d.plane p with turn := 1, crossed := [] } else d
  planReached p d

/-- At B(k − 1) plane `p` assigns its cursor line to beat `k`, or finds it late (R20, R22, R50, R175). -/
def assignLine (k p : Nat) (d : Dev) : Dev :=
  if !mayAssign d p then d else
  match lineEvent d p k with
  | none => d
  | some (ev, t, late) =>
    let x := d.plane p
    let n := x.cursor
    let slot := x.slots.find? (fun s => s.line == n)
    let ok := slot.any (fun s => decide (3 ≤ s.stage) && s.why == 0)
    if !ok then
      let why := match slot with
        | some s => if s.why = 0 then causeLate else s.why
        | none => causeLate
      seamStop p why n d
    else
      let fmax := cfgGet (cfgFor d (cursorOrd d p)) (F.PLAN_PLANE_A_F_MAX p)
      let d := match x.lastEvent with
        | some e => if (ev - e) * (fmax * 100 : Nat) < 98 * 1000000000 * 65536 then d.raise 0x07 4 else d
        | none => d
      let d := if late then d.put (F.LEV_STAT_LATE p) 1 else d
      let d := d.setPlane p { d.plane p with
        cursor := n + 1
        lastEvent := some ev
        crossed := x.crossed.filter (fun c => decide (n < c.1))
        assigns := x.assigns.filter (fun a => decide (x.next ≤ a.line) || !a.seen) ++ [{ line := n, t := t, late := late, seen := late }] }
      let d := if late then recordError p (ev - t) d else d
      cursorMoved p d

/-! ### Private sources of the beat (R348) -/

/-- TICK and BCMP of core `c` at the boundary that opens beat `k`. -/
def coreTick (k c : Nat) (d : Dev) : Dev :=
  let d := if d.getB (F.EVTC_TICK_TICK_EN c) && k % 2 ^ d.get (F.EVTC_TICK_TICK_LOG2 c) == 0 then d.ringPrivate c 256 else d
  if d.getB (F.EVTC_TICK_BCMP_EN c) && k % 2 ^ 32 == d.get (F.EVTC_BCMP_BEAT c) then d.ringPrivate c 257 else d

/-! ### What the boundary does to the print path -/

/-- Overruns, commits due, the pipeline and the assignments of the boundary that opens beat `k` (R17 to R22, R28, R293). -/
def printBeat (k u m : Nat) (d : Dev) : Dev :=
  let d := if u = 0 then d else beatOverrun u m d
  let d := scheduleSend d
  let d := verdictArm (nextBeatApply d)
  let d := forN 32 tempBeat d
  if !d.planActive then d else
  let d := forL (activePlanes d) stageAdvance (forN 8 planeJump d)
  let d := forL (activePlanes d) (fun p d => assignLine (k + 1) p (planReached p d)) d
  d

end Sys2Proof.Machine
end

