-- ==== Sys2Proof/Machine/Fire.lean ====
section
/-! DEFINITION. Launching a line (R213 to R219, R223, R226), its drop instants, what the launch completes (R182, R189, R207,
R208), and the end of a plan (R34, R184). -/
namespace Sys2Proof.Machine

/-! ### Fire frames and bursts -/

/-- The fire frame of a line for port `h`, from TYPE on, without its CRC (R214). -/
def fireFrame (d : Dev) (p h : Nat) (s : Slot) (levels : List Nat) : List Byte :=
  let c := cfgFor d s.ord
  let v := cfgVersion d s.ord
  let d3 := cfgGetB c (F.PLAN_PLANE_A_DROP_BITS p)
  let flags := b2n (passReverse d s.ord) + 2 * b2n (bit v.wset h) + 4 * b2n d3 + 8 * passOf d s.ord
  beBytes 1 1 ++ beBytes 1 h ++ beBytes 1 flags ++ beBytes 1 0 ++ beBytes 6 s.line ++ beBytes 4 (epochNumber d s.ord)
    ++ beBytes 4 (s.line % 2 ^ 31 * 2) ++ beBytes 2 levels.length ++ beBytes 2 0
    ++ packTo 16 (levelBits (if d3 then 3 else 2) levels)

/-- Whether a word of the waveform table of generator `g` of port `h` is poisoned (R338). -/
def waveBad (d : Dev) (h g : Nat) : Bool := (List.range 512).any (fun i => poisoned d 3 (((2 * h + g) * 512 + i) / 2))

/-- The samples of the burst of one generator of a line, none when it does not stream (R223); poison in any waveform word
that the port reads makes the port send REST throughout (R338). -/
def burstOf (c : FireCfg) (bad : Bool) (h g : Nat) (d : Dev) : List Nat :=
  if !streams c h g then [] else
  let w := waveLive c (2 * h + g)
  if bad then List.replicate (waveDur w) (waveRest w) else waveSamples w (ampGain c h g (headTheta d h))

/-- Both bursts of line `n` of the epoch `ord` begin on port `h` in the round of R245, `len` rounds long at most. -/
def sendBursts (c : FireCfg) (ord h n len : Nat) (t : Int) (d : Dev) : Dev :=
  let bad := (streams c h 0 && waveBad d h 0) || (streams c h 1 && waveBad d h 1)
  let d := if bad then copyEcc ord d else d
  let x := d.link h
  let r := burstRound x (laneOf d h t)
  let b : Burst := { round := r, line := n, g0 := burstOf c bad h 0 d, g1 := burstOf c bad h 1 d }
  let d := d.setLink h { x with bursts := x.bursts ++ [b], burstEnd := x.origin + (20000 * (r + len) : Nat) }
  let d := if b.g0.isEmpty then d else d.emit (.wave h 0 r b.g0)
  if b.g1.isEmpty then d else d.emit (.wave h 1 r b.g1)

/-- How long after its instant `t`, ps of the lanes' time, the frame of port `h` starts, ps, when it is given as `delay`: an earlier frame may hold it
up, which is a timed one (R81), and after that at most a slot field of 42 bonded bits, 21 UI (R246), or a stuff bit. -/
def launchDelay (x : Link) (t : Int) (delay : Nat) : Nat :=
  min delay ((max 0 (x.txEnd - t)).toNat + uiTime x (if x.wave then 21 else 1))

/-- The fire frame, the bursts and the strobe request of a line on port `h`; `delay` says how long after its instant the
frame started, ps (R215 to R219, R226, R246, R250). -/
def launchPort (p : Nat) (s : Slot) (a : Assign) (h delay : Nat) (d : Dev) : Dev :=
  let c := cfgFor d s.ord
  let v := cfgVersion d s.ord
  let levels := ((s.levels.find? (fun q => q.1 == h)).map (fun q => q.2)).getD []
  let theta := headTheta d h
  let dt := delayTrim c h theta
  let d := (d.put (F.HP_TRIM_DT h) (ofSigned 20 dt)).put (F.HP_AG_AG0 h) (ampGain c h 0 theta)
  let d := d.put (F.HP_AG_AG1 h) (ampGain c h 1 theta)
  let d := if (d.link h).up && schedulePending d h (b2n (bit v.wset h)) then headLinkDown h 4 d else d
  let delay := launchDelay (d.link h) (laneOf d h a.t) delay
  let late := decide (32 * 1000000 < delay * (d.link h).rate * 50)
  let d := if late then d.count (F.HP_CNT_LATE h) 1 else d
  let d := if (d.link h).up then controlRelease h (sendFrameAt h (laneOf d h a.t) (fireFrame d p h s levels) d) else d
  if d.getB (F.HP_STAT_CUT h) then d else
  let n := waveLen c h
  let d := if burstsOn c h && (d.link h).up && (d.link h).wave then sendBursts c s.ord h s.line n a.t d else d
  let ofs := if passReverse d s.ord then cfgGetI c (F.HP_OFS_REV_OFS h) else cfgGetI c (F.HP_OFS_FWD_OFS h)
  let t0 := psOf a.t
  let x := d.head h
  d.setHead h { x with
    strobes := x.strobes ++ [{ line := s.line, ord := s.ord, t := a.t, start := t0 + delay
                               target := t0 + cfgGet c (F.HP_FIRE_FLAT h) * 20000 + ofs + dt
                               setup := cfgGet c (F.HP_FIRE_SETUP h), n := n }]
    prog := (x.prog.filter (fun b => match b.endT with
      | some e => decide (d.t16 * 1000 < e * 65536)
      | none => true)) ++ [{ plane := p, line := s.line, ord := s.ord, endT := none }] }

/-! ### The drop instant -/

/-- The tap that R217 chooses for the remainder `r`, ps: the lowest of the nearest. -/
def nearestTap (d : Dev) (h r : Nat) : Nat :=
  let dist (t : Nat) : Nat := ((tauOf d h t : Int) - (r : Int)).natAbs
  (List.range 256).foldl (fun b t => if dist t < dist b then t else b) 0

/-- Place the strobe for target `t`, ps: the edge and its tap (R217). -/
def placeEdge (d : Dev) (h : Nat) (t : Int) : Int × Nat :=
  let i := t / 20000
  let r := (t - 20000 * i).toNat
  let half := if 10000 ≤ r then 10000 else 0
  let tap := nearestTap d h (r - half)
  (20000 * i + half + tauOf d h tap, tap)

/-- The oldest waiting strobe of port `h` is placed, with the floor and the overlap of R218: FSTB[h] is high for 100 ns from
its edge, while its group is driven (R217, R411). -/
def fireStrobe (h : Nat) (d : Dev) : Dev :=
  let x := d.head h
  match x.strobes with
  | [] => d
  | s :: rest =>
    let e0 := placeEdge d h s.target
    let fl := s.start + s.setup * 20000
    let r1 := if e0.1 < fl then (placeEdge d h fl, 1) else (e0, 0)
    let r2 := match x.lastDrop with
      | some (td, n') =>
        let ov := td + (n' + 4 : Nat) * 20000
        if r1.1.1 < ov then (placeEdge d h ov, r1.2 + 1) else r1
      | none => r1
    let d := d.count (F.HP_CNT_SHIFT h) r2.2
    let edge := r2.1.1
    let d := d.setHead h { x with
      strobes := rest
      lastDrop := some (edge, s.n)
      prog := x.prog.map (fun b => if b.line = s.line ∧ b.endT = none then { b with endT := some (edge + s.n * 20000) } else b) }
    if bit (d.reg R.PWR_OE).toNat 0 then d.emit (.strobe h (edge / 1000).toNat (edge / 1000 + 100).toNat r2.1.2) else d

/-! ### What a launch completes -/

/-- Copies that plane `p` has finished with every line below `next` launched or passed over (R208, R460). -/
def copiesSettle (p : Nat) (d : Dev) : Dev :=
  let n := (d.plane p).next
  forL ((List.range (d.copies.length + 1)).filter (fun o =>
      captured d o && !bit (d.copyAt o).done p && decide (firstLine d (o + 1) p ≤ n)
        && cfgGetB (cfgFor d o) (F.PLAN_PLANE_A_EN p))) (fun o d => copyDone p o d) d

/-- EPOCH_NOW and SCR_PASS_STAT follow the launch of line `n` of plane `p` in epoch `ord`, and of the epochs without lines
that start at it (R460). -/
def epochNowFollow (ord : Nat) (d : Dev) : Dev :=
  if ordNow d < ord then
    let d := (d.put F.EPOCH_NOW_EPOCH (epochNumber d ord)).put F.SCR_PASS_STAT_PASS (passOf d ord)
    d.putB F.SCR_PASS_STAT_REV (passReverse d ord)
  else d

/-- The actuation counters of the nozzles fired on port `h` (R189). -/
def wearAdd (h : Nat) (levels : List Nat) (d : Dev) : Dev :=
  { d with wear := (levels.zipIdx.filter (fun q => q.1 != 0)).foldl (fun m q =>
      let g := 4096 * h + q.2
      cellSet 0 m g (satInc 48 (cellGet 0 m g) 1)) d.wear }

/-- The launch of the resume line returns a re-armed plane to RUN (R182). -/
def seamResume (p : Nat) (s : Slot) (d : Dev) : Dev :=
  let x := d.plane p
  if d.get (F.STORE_SEAM_STAT_STATE p) ≠ seamRearmed ∨ s.line ≠ x.resume then d else
  let d := (d.put (F.STORE_SEAM_STAT_STATE p) seamRun).count (F.STORE_SEAM_STAT_COUNT p) 1
  let beats := satU 32 ((d.beatNum : Int) - x.seamBeat)
  let e := epochNumber d s.ord
  let d := d.sendEvent 0x02 p s.line beats e
  let d := plogWrite 0x04 p e (leBytes 4 0 ++ leBytes 6 s.line ++ leBytes 2 0 ++ leBytes 4 beats) d
  let c := d.copyAt s.ord
  (d.setCopy s.ord { c with seam := setBit c.seam p }).raise 0x0E 2

/-- The device is in the reef state (R403). -/
def inReef (d : Dev) : Bool := d.reef.any (fun e => e.2.isSome)

/-- Line `s` of plane `p` is launched: its wear, digest and tags, and what it completes (R182, R189, R207, R208, R404). -/
def lineLaunched (p : Nat) (s : Slot) (d : Dev) : Dev :=
  let c := cfgFor d s.ord
  let d := forL s.levels (fun q d => wearAdd q.1 q.2 d) d
  let k := d.copyAt s.ord
  let dep := 2 + cfgGet c (F.PLAN_PLANE_A_DROP_BITS p)
  let d := d.setCopy s.ord { k with
    digest := cellSet 0 k.digest p (digestLine (cellGet 0 k.digest p) s.line dep (s.levels.map (fun q => q.2)).flatten)
    reef := if inReef d then setBit k.reef p else k.reef }
  let x := d.plane p
  let d := d.setPlane p { x with
    next := s.line + 1
    dec := s.after
    slots := x.slots.filter (fun q => q.line != s.line) }
  copiesSettle p (seamResume p s (epochNowFollow s.ord d))

/-- The lowest line of plane `p` not launched starts its frames at its assigned instant (R215); `delays` gives for each
bound port how long after it the frame started, ps. -/
def fireLaunch (p : Nat) (delays : List Nat) (d : Dev) : Dev :=
  let x := d.plane p
  if !d.planActive then d else
  match x.assigns.find? (fun a => a.line == x.next), x.slots.find? (fun s => s.line == x.next && s.stage == 4) with
  | some a, some s =>
    if d.t16 < a.t then d else
    let ports := cfgPorts (cfgFor d s.ord) p
    let d := forL ports.zipIdx (fun q d => launchPort p s a q.1 (delays.getD q.2 0) d) d
    -- a port's link may have gone down with the launch: the line itself is launched all the same
    lineLaunched p s d
  | _, _ => d

/-! ### Issue, with the copies it completes -/

/-- Issue on plane `p`; an epoch without lines may be complete as soon as it is captured (R460). -/
def issuePlane (p : Nat) (d : Dev) : Dev := copiesSettle p (issueLine p d)

/-! ### The end of the plan (R34) -/

/-- Whether plane `p` still owes lines of epoch `ord`: it is enabled there, and has not launched or passed over the last one. -/
def planeOwes (d : Dev) (p ord : Nat) : Bool :=
  cfgGetB (cfgFor d ord) (F.PLAN_PLANE_A_EN p) && !(captured d ord && decide (firstLine d (ord + 1) p ≤ (d.plane p).next))

/-- Whether plane `p` has ended under the pending PLAN_STOP: in MODE 1 it owes no line of its own epoch up to the one in
progress, in MODE 2 no line of it is in progress (R34). -/
def planeEnded (d : Dev) (p : Nat) : Bool :=
  if d.stopMode = 1 then
    let o := ordOfLine d p (d.plane p).next
    (List.range (d.stopOrd + 1 - o)).all (fun i => !planeOwes d p (o + i))
  else (List.range 32).all (fun h => (inProgress d h).all (fun b => b.plane != p))

/-- The planes that PLAN_STOP waits for: every one, however far it runs behind (R34). -/
def stopPlanes : List Nat := List.range 8

/-- A write of PLAN_STOP (R34). -/
def planStopWrite (v : Nat) (d : Dev) : Dev :=
  let m := v % 4
  if m = 0 then d
  else if m = 3 ∨ !d.planActive then d.refuseAt R.PLAN_STOP
  else applyStop m d

/-- Whether plane lines of copy `ord` have been launched or passed over on some plane. -/
def copyStarted (d : Dev) (ord : Nat) : Bool :=
  (cfgPlanes (cfgFor d ord)).any (fun p => decide (firstLine d ord p < (d.plane p).next))

/-- Every plane has ended: the plan is released (R34, R184, R208, R363). -/
def planEnd (d : Dev) : Dev :=
  if !d.planActive || d.stopMode == 0 || !stopPlanes.all (planeEnded d) then d else
  let partial_ := d.stopMode == 2
  let d := forL ((List.range (d.copies.length + 1)).filter (fun o => captured d o && copyStarted d o))
    (fun o d => copyRecord partial_ o d) d
  let d := forN 8 (fun p d =>
    let d := (d.put (F.STORE_SEAM_STAT_STATE p) seamRun).put (F.STORE_SEAM_STAT_CAUSES p) 0
    d.setPlane p { d.plane p with slots := [], assigns := [], crossed := [] }) d
  let d := forN 32 (fun h d => d.put (F.HP_STAT_STOP h) 0) (seamReq d)
  let d := forL ((d.armed.filter (fun e => pageFire e.1 && (match cellGet none d.armed e.1 with
      | some a => a.mode == 3
      | none => false))).map (fun e => e.1)) (fun p d => commitStatus p stCancelled (disarm p d)) d
  let d := vencRestart ((rejectKeep d).put F.PLAN_CHK_ACTIVE 0)
  let d := { d with
    stopMode := 0
    planeLive := []
    versions := (d.versions.take 1).map (fun (v : Version) => { v with ord := 0, plan := false, job := 0 }) }
  showNewest d

end Sys2Proof.Machine
end

