-- ==== Sys2Proof/Machine/RegWrite.lean ====
section
/-! DEFINITION. Writes of registers (chapters 02 to 19): the access codes (R5), the ranges (R458), the shadow halves
(R432) and what a write of each register does beyond its own bits. -/
namespace Sys2Proof.Machine

/-! ### The plain write -/

/-- Whether value `v` of a field lies in its range (R458). -/
def rangeOk (r : Range) (v : Nat) : Bool :=
  match r with
  | .span lo hi => decide (lo ≤ v) && decide (v ≤ hi)
  | .multOf n => v % n == 0
  | .pow2 lo hi => isPow2 v && decide (lo ≤ v) && decide (v ≤ hi)
  | .logSync => v == 0 || decide (9 ≤ v)

/-- Whether every field of register `r` that a write with the bits `m` reaches lies in its range (R458). -/
def rangesOk (r : RegDesc) (m v : Nat) : Bool :=
  r.ranges.all (fun q => bits m q.1 q.2.1 == 0 || rangeOk q.2.2 (bits v q.1 q.2.1))

/-- The index `i` below `n` for which `f i` is the register at `a`. -/
def whichOf (n : Nat) (f : Nat → Nat) (a : Nat) : Option Nat := (List.range n).find? (fun i => f i == a)

/-- Whether channel `ch` lies below NPLANES of port `c`, 1 to 3. NPLANES is that of the shadow plan, and none is known while
that is 0 (DESIGN CHOICE, log entry 108: the meaning of VIEW_CFG.CH does not say which half it speaks of). -/
def viewChannelOk (d : Dev) (c ch : Nat) : Bool :=
  let n := d.get (shadowOf (F.PLAN_CAM_A_NPLANES c))
  decide (ch < 3) && (n == 0 || decide (ch < n))

/-- The ranges of R458 that depend on more than the field itself: ENTRY of REMAP_SEL by its group, KF of a coefficient
record, CH of VIEW_CFG. -/
def crossRangeOk (a v : Nat) (d : Dev) : Bool :=
  if a = R.REMAP_SEL then decide (14 ≤ bits v 0 4) || decide (bits v 16 6 < 16)
  else if a = R.LOOP_CDATA then d.get F.LOOP_CSEL_IDX % 32 != 3 || decide (bits v 0 18 ≤ 131072)
  else (whichOf 8 R.VIEW_CFG a).isNone || viewChannelOk d (bits v 1 1) (bits v 2 2)

/-- `old` with the bits of `m` taken from `v`. -/
def mergeBits (old v m : Nat) : Nat := clearBits old m ||| (v &&& m)

/-- The write of register `r` at byte offset `a` under its access codes alone: RW and RWM bits are written, W1C bits
written 1 clear, RWS bits go to the shadow, all others stay (R5, R432). -/
def plainStore (r : RegDesc) (a v : Nat) (d : Dev) : Dev :=
  let w := mergeBits (d.reg a).toNat v (r.rw ||| r.rwm)
  let d := d.setReg a (BitVec.ofNat 32 (clearBits w (v &&& r.w1c)))
  if r.rws = 0 then d
  else d.setReg (a + 0x800) (BitVec.ofNat 32 (mergeBits (d.reg (a + 0x800)).toNat v r.rws))

/-- The plain write at byte offset `a` of the register window; nothing where no register is (R6). -/
def plainWrite (a v : Nat) (d : Dev) : Dev :=
  match regDesc (a / 0x1000) (a % 0x1000) with
  | some r => plainStore r a v d
  | none => d

/-- A plain write that is refused when `c` holds. -/
def writeUnless (c : Bool) (a v : Nat) (d : Dev) : Dev := if c then d.refuseAt a else plainWrite a v d

/-! ### Header (R427 to R436) -/

/-- A write of PG_FAULT: VALID written 1 releases the capture (R429). -/
def pgFaultWrite (p v : Nat) (d : Dev) : Dev :=
  if !bit v 31 then d
  else ((d.setReg (R.PG_FAULT p) 0).put (F.PG_FAULT_INFO_OFFSET p) 0).put (F.PG_FAULT_INFO_SHADOW p) 0

/-- A write of the common header at offset `x`. -/
def headerWrite (p x v : Nat) (d : Dev) : Dev :=
  match x with
  | 0x0C => pgCtlWrite p (bit v 0) (bit v 1) d
  | 0x14 => d.clearEvt p (BitVec.ofNat 32 v)
  | 0x18 => d.setEvtEn p (BitVec.ofNat 32 v)
  | 0x20 => pgCommitWrite p (v % 4) (v / 4) d
  | 0x28 => pgFaultWrite p v d
  | 0x30 => if bit v 16 then d.put (F.PG_HEALTH_UE p) 0 else d
  | _ => d

/-! ### Pages 0x00 to 0x08 -/

/-- SYS_BRST (R409). -/
def sysBrstWrite (v : Nat) (d : Dev) : Dev := if bit v 8 then blockReset (v % 256) d else d.put F.SYS_BRST_PAGE v

/-- ENC_CFG of unit `e` (R37, chapter 03); it serves a plan as R363 lists it, as primary or as fall-back. What the input showed before the write is counted under the old settings (R40). -/
def encCfgWrite (e v : Nat) (d : Dev) : Dev :=
  let d := encNow e d
  let src := d.get (F.ENC_CFG_SRC e)
  let changes := bits v 0 3 != src || bits v 3 1 != d.get (F.ENC_CFG_INVERT e)
  let d := writeUnless (bits v 0 3 == 7 || (boundToPlan d e && changes)) (R.ENC_CFG e) v d
  planesAnswer (if d.get (F.ENC_CFG_SRC e) = src then d else sourceTaken e d)

/-- ENC_CTL of unit `e`: its bits act in ascending order (R43 to R45). -/
def encCtlWrite (e v : Nat) (d : Dev) : Dev :=
  whenB (bit v 2) (encLoad e) (whenB (bit v 1) (encClrFault e) (whenB (bit v 0) (encArm e) d))

/-- LEV_CFG of plane `p`: PRI, FB and FB_EN of a plane of the active plan are kept, and a change of them faults
(chapter 03). -/
def levCfgWrite (p v : Nat) (d : Dev) : Dev :=
  if (activePlanes d).contains p then
    let e := d.put (F.LEV_CFG_HYST p) (bits v 8 4)
    if bits v 0 5 = bits (d.reg (R.LEV_CFG p)).toNat 0 5 then e else e.refuseAt (R.LEV_CFG p)
  else
    let e := plainWrite (R.LEV_CFG p) v d
    -- Δ_p belongs to one pair of sources (R55)
    if bits v 0 5 = bits (d.reg (R.LEV_CFG p)).toNat 0 5 then e else e.setPlane p { e.plane p with delta := none }

/-- TIME_CTL: a SET during a plan leaves the whole write unperformed; SRC is not written during a plan (R67, R71). -/
def timeCtlWrite (v : Nat) (d : Dev) : Dev :=
  if bit v 0 && d.planActive then timeSet d else
  let d := (d.put F.TIME_CTL_SERVO_EN (bits v 1 1)).put F.TIME_CTL_REVERT (bits v 3 1)
  let ring := d.getB F.TIME_CTL_SRC
  let d := if d.planActive then d else d.put F.TIME_CTL_SRC (bits v 4 1)
  let d := if ring && !d.getB F.TIME_CTL_SRC then ringLeft d else d
  whenB (bit v 0) timeSet (timeActDom (bits v 2 1) d)

/-- TIME_DOM_CFG of domain `k`: during a plan the active domain's is kept but for EN (chapter 04); a domain that is
disabled is lost, and one that is enabled counts its Sync intervals from then (R70). -/
def timeDomCfgWrite (k v : Nat) (d : Dev) : Dev :=
  let was := d.getB (F.TIME_DOM_CFG_EN k)
  let d := if d.planActive && k == actDom d then
      let e := d.put (F.TIME_DOM_CFG_EN k) (bits v 8 1)
      let m := 0xFFFF3EFF
      if v &&& m = (d.reg (R.TIME_DOM_CFG k)).toNat &&& m then e else e.refuseAt (R.TIME_DOM_CFG k)
    else plainWrite (R.TIME_DOM_CFG k) v d
  if was && !d.getB (F.TIME_DOM_CFG_EN k) then domainLose k d
  else if !was && d.getB (F.TIME_DOM_CFG_EN k) then d.setDom k { d.dom k with syncAt := d.now }
  else d

def writeTime (a v : Nat) (d : Dev) : Dev :=
  if a = R.TIME_CTL then timeCtlWrite v d
  else if a = R.TIME_FREQ then (if d.getB F.TIME_CTL_SERVO_EN then d else plainWrite a v d)
  else match whichOf 2 R.TIME_DOM_CFG a with
    | some k => timeDomCfgWrite k v d
    | none => plainWrite a v d

def writeVenc (a v : Nat) (d : Dev) : Dev :=
  if a = R.LEV_CTL then levRestore (v % 256) d
  else if a = R.VENC_OFS_LO ∨ a = R.VENC_OFS_HI then writeUnless d.planActive a v d
  else match whichOf 8 R.LEV_CFG a with
    | some p => levCfgWrite p v d
    | none =>
      let kept := (whichOf 8 R.LEV_PITCH a).isSome || (whichOf 8 R.LEV_ORIGIN_LO a).isSome || (whichOf 8 R.LEV_ORIGIN_HI a).isSome
      writeUnless (kept && d.planActive) a v d

/-! ### Pages 0x0A to 0x0E -/

/-- Whether `a` is a peer or window register of session `s` (chapter 06). -/
def peerRegister (a s : Nat) : Bool :=
  a == R.PEER_IP4 s || (whichOf 4 (R.PEER_IP6 s) a).isSome || a == R.PEER_MAC_LO s || a == R.PEER_MAC_HI s
    || a == R.WIN_BASE_LO s || a == R.WIN_BASE_HI s || a == R.WIN_SIZE s

/-- JTP_KEY_SEL: LOAD reads 0 (R120). -/
def keySelWrite (v : Nat) (d : Dev) : Dev :=
  let d := (d.put F.JTP_KEY_SEL_SESSION v).put F.JTP_KEY_SEL_SLOT (bits v 4 1)
  whenB (bit v 5) keyLoad d

def writeJtp (a v : Nat) (d : Dev) : Dev :=
  if a = R.JTP_CFG then writeUnless (d.openSessions != 0 && bits v 0 16 != d.get F.JTP_CFG_UDP_PORT) a v d
  else if a = R.JTP_KEY_SEL then keySelWrite v d
  else if a = R.MTX_TAIL then mtxTailWrite v d
  else if a = R.MRX_TAIL then mrxTailWrite v d
  else match whichOf 16 R.SESS_CFG a with
    | some s => sessCfgWrite s v d
    | none => writeUnless ((List.range 16).any (fun s => peerRegister a s && sessOpen d s)) a v d

/-- STORE_CTL: its fields act in ascending order (R163, R176, R177). -/
def storeCtlWrite (v : Nat) (d : Dev) : Dev :=
  let d := whenB (bit v 1) storeStreamRewind (whenB (bit v 0) storeStreamReset d)
  storeSeamClr (bits v 24 8) (storeSeam (bits v 16 8) (storeReissue (bits v 8 8) d))

def writeStore (a v : Nat) (d : Dev) : Dev :=
  if a = R.STORE_CTL then storeCtlWrite v d
  else if a = R.STORE_COR_BASE_LO ∨ a = R.STORE_COR_BASE_HI then writeUnless d.planActive a v d
  else if R.STORE_SDATA0 ≤ a ∧ a ≤ R.STORE_SDATA0 + 12 then sdataWrite ((a - R.STORE_SDATA0) / 4) v d
  else plainWrite a v d

/-! ### Pages 0x10 to 0x14 -/

/-- CMP_CMD: START, then ABORT (R154, R158). -/
def cmpCmdWrite (v : Nat) (d : Dev) : Dev :=
  whenB (bit v 1) compressorAbort (whenB (bit v 0) (compressorStart (bit v 2)) d)

/-- The compressor's registers that stay while a job runs (chapter 07). -/
def cmpHeldRegs : List Nat :=
  [R.CMP_CFG, R.CMP_SRC_LO, R.CMP_SRC_HI, R.CMP_STRIDE, R.CMP_WIDTH, R.CMP_LINES, R.CMP_DESC_BASE_LO, R.CMP_DESC_BASE_HI]

def writeCodec (a v : Nat) (d : Dev) : Dev :=
  if a = R.CMP_CMD then cmpCmdWrite v d
  else if a = R.CMP_DESC_TAIL then cmpDescTailWrite v d
  else writeUnless ((cmpHeldRegs.contains a && d.getB F.CMP_STAT_BUSY)
    || (a == R.CMP_CFG && decide (bits v 8 4 ≤ bits v 12 4))) a v d

def writeNozzle (a v : Nat) (d : Dev) : Dev :=
  if a = R.NOZ_SH_LO then nozShLoWrite v d
  else if a = R.NOZ_SH_HI then nozShHiWrite v d
  else if a = R.NOZ_WEAR_LO then nozWearLoWrite v d
  else if a = R.NOZ_WEAR_HI then nozWearHiWrite v d
  else if a = R.PLOG_BASE_LO ∨ a = R.PLOG_BASE_HI ∨ a = R.PLOG_SIZE then
    (if d.planActive then d.refuseAt a else plogRewrite (plainWrite a v) d)
  else if a = R.PLOG_SENT then plogSentWrite v d
  else plainWrite a v d

def writeFire (a v : Nat) (d : Dev) : Dev :=
  if a = R.FIRE_REJ_REQ then fireRejReq v d
  else if a = R.FIRE_CTL then whenB (bit v 0) fireRejClr d
  else plainWrite a v d

/-- SCR_PASS, live or shadow, notes that the pass programme is new (R203). -/
def writeScreen (a v : Nat) (d : Dev) : Dev :=
  if a = R.SCR_TDATA then scrTdataWrite v d
  else if a = R.SCR_PASS then { plainWrite a v d with passWritten := true }
  else plainWrite a v d

/-! ### Pages 0x20 to 0x46 -/

/-- HPL_MBX_CTL of port `h`: OP and LEN, then SEND (R249). -/
def hplMbxCtlWrite (h v : Nat) (d : Dev) : Dev := whenB (bit v 15) (hplMbxSend h) (plainWrite (R.HPL_MBX_CTL h) v d)

def writeHead (h a v : Nat) (d : Dev) : Dev :=
  if a = R.HP_TEMP_A h then hpTempWrite h false v d
  else if a = R.HP_TEMP_B h then hpTempWrite h true v d
  else if a = R.HP_CTL h then hpCtlWrite h v d
  else if a = R.HPL_CFG h then hplCfgWrite h v d
  else if a = R.HPL_MBX_CTL h then hplMbxCtlWrite h v d
  else plainWrite a v d

def writeCam (c a v : Nat) (d : Dev) : Dev :=
  if a = R.CAM_CC_CTL c then whenB (bit v 0) (camCcGo c (bit v 1)) (plainWrite a v d)
  else camLinkShow c (writeUnless ([R.CAM_CFG c, R.CAM_CPITCH c, R.CAM_DIST_LO c, R.CAM_DIST_HI c].contains a && camBound d c) a v d)

def writeInspect (a v : Nat) (d : Dev) : Dev :=
  if a = R.INS_SHD_DATA then insShdWrite v d
  else if a = R.INS_MAP_A then insMapAWrite v d
  else if a = R.INS_MAP_B then insMapBWrite v d
  else plainWrite a v d

def writeStats (a v : Nat) (d : Dev) : Dev :=
  match whichOf 2 R.STS_READ a with
  | some c => stsReadWrite c v d
  | none => plainWrite a v d

/-- VRD_CTL: HOLD, then HCLR (R293). -/
def vrdCtlWrite (v : Nat) (d : Dev) : Dev := vrdHclr (bits v 8 8) (d.put F.VRD_CTL_HOLD v)

def writeVerdict (a v : Nat) (d : Dev) : Dev :=
  if a = R.VRD_CTL then vrdCtlWrite v d
  else if a = R.VRD_BASE_LO ∨ a = R.VRD_BASE_HI ∨ a = R.VRD_SIZE then
    (if d.planActive then d.refuseAt a else vrdRewrite (plainWrite a v) d)
  else if a = R.VRD_SENT then vrdSentWrite v d
  else plainWrite a v d

def writeLight (a v : Nat) (d : Dev) : Dev :=
  match whichOf 4 R.LGT_STRB a with
  | some j => strobeShow j (plainWrite a v d)
  | none => plainWrite a v d

/-! ### Pages 0x48 to 0x4C -/

def writeLoop (a v : Nat) (d : Dev) : Dev :=
  if a = R.LOOP_CDATA then loopCdataWrite v d
  else if a = R.LOOP_CTL then loopRst v d
  else plainWrite a v d

def writePwm (a v : Nat) (d : Dev) : Dev :=
  match whichOf 24 R.PWM_DUTY a, whichOf 24 R.PWM_CFG a with
  | some o, _ => pwmDutyWrite o v d
  | _, some o =>
    let e := pwmShow o (plainWrite a v d)
    if d.getB (F.PWM_CFG_POL o) = e.getB (F.PWM_CFG_POL o) then e else pwmPolarity o e
  | _, _ => plainWrite a v d

def writeStep (a v : Nat) (d : Dev) : Dev :=
  match whichOf 8 R.STP_CFG a, whichOf 8 R.STP_CMD a with
  | some i, _ => stpCfgWrite i v d
  | _, some i => stpCmdWrite i v d
  | _, _ => plainWrite a v d

def writeGpio (a v : Nat) (d : Dev) : Dev :=
  if a = R.GPIO_OUT then gpioOutWrite v d
  else if a = R.GPIO_SET then gpioSet v d
  else if a = R.GPIO_CLR then gpioClr v d
  else gpioShow (plainWrite a v d)

/-! ### Pages 0x50 to 0x5E -/

/-- DRAMC_CFG: refused while DRAM serves, or for a configuration that is not supported (R321). -/
def dramCfgWrite (v : Nat) (d : Dev) : Dev :=
  writeUnless (d.getB F.DRAMC_STAT_READY || !dramCfgOk (bits v 0 1) (bits v 1 1) (bits v 2 2)) R.DRAMC_CFG v d

/-- DRAMC_FCHG: GO starts a change to TARGET (R330). -/
def dramFchgWrite (v : Nat) (d : Dev) : Dev :=
  if bit v 4 then dramFchg (bits v 0 3) d else writeUnless (decide (4 < bits v 0 3)) R.DRAMC_FCHG v d

def writeDramc (a v : Nat) (d : Dev) : Dev :=
  if a = R.DRAMC_CFG then dramCfgWrite v d
  else if a = R.DRAMC_FCHG then dramFchgWrite v d
  else
    let live := (whichOf 8 (R.DRAMC_TSET (d.get F.DRAMC_FCHG_LIVE)) a).isSome
    writeUnless (live && d.getB F.DRAMC_STAT_READY) a v d

def writeDphy (a v : Nat) (d : Dev) : Dev :=
  let e := plainWrite a v d
  if a = R.DPHY_CTL ∧ bit v 0 = true then dramTrain e else e

def writeRemap (a v : Nat) (d : Dev) : Dev :=
  if a = R.REMAP_CTL then whenB (bit v 1) remapRemove (whenB (bit v 0) remapInstall d) else plainWrite a v d

def writeShroud (a v : Nat) (d : Dev) : Dev :=
  if a = R.SHROUD_CFG then shroudEnable (bit v 0) d
  else if a = R.SHROUD_RCTL then whenB (bit v 1) shroudRead (whenB (bit v 0) shroudApply d)
  else match whichOf 48 R.SHROUD_MASTER a, whichOf 48 R.SHROUD_RELEASE a with
    | some m, _ => shroudMasterWrite m v d
    | _, some m => whenB (bit v 0) (shroudRelease m (bit v 1)) d
    | _, _ => plainWrite a v d

def writeEvt (a v : Nat) (d : Dev) : Dev :=
  if a = R.EVT_DOORBELL then evtDoorbell (v % 512) d
  else match whichOf 8 R.EVT_MSET a, whichOf 8 R.EVT_MCLR a, whichOf 256 R.EVT_ROUTE a with
    | some w, _, _ => evtMset w v d
    | _, some w, _ => evtMclr w v d
    | _, _, some n => evtRouteWrite n v d
    | _, _, _ => plainWrite a v d

def writeEvtc (c a v : Nat) (d : Dev) : Dev :=
  if a = R.EVTC_DOORBELL c then evtcDoorbell c (v % 512) d
  else if a = R.EVTC_EOI c then evtcEoi c (v % 512) d
  else if a = R.EVTC_MSET c then evtcMset c v d
  else if a = R.EVTC_MCLR c then evtcMclr c v d
  else plainWrite a v d

/-- WDOG_CFG of core `c`: enabling it loads the counter (R364). -/
def wdogCfgWrite (c v : Nat) (d : Dev) : Dev :=
  let was := d.getB (F.WDOG_CFG_EN c)
  let d := plainWrite (R.WDOG_CFG c) v d
  if !was && d.getB (F.WDOG_CFG_EN c) then wdogKick c d else d

/-- WDOG_MCTL: RUN, then MRST (R364, R365). -/
def wdogMctlWrite (v : Nat) (d : Dev) : Dev := whenB (bit v 0) mgmtResetRequest (wdogRun (bits v 1 4) d)

def writeWdog (a v : Nat) (d : Dev) : Dev :=
  if a = R.WDOG_MCTL then wdogMctlWrite v d
  else if a = R.WDOG_STAT then clearBark (v % 16) d
  else match whichOf 4 R.WDOG_CFG a, whichOf 4 R.WDOG_KICK a with
    | some c, _ => wdogCfgWrite c v d
    | _, some c => wdogKick c d
    | _, _ => plainWrite a v d

def writeTrim (a v : Nat) (d : Dev) : Dev :=
  if a = R.TRIM_DDATA then trimDdataWrite v d
  else if a = R.TRIM_FDATA then trimFdataWrite v d
  else if a = R.TRIM_CTL then whenB (bit v 0) adcCalCmd d
  else plainWrite a v d

def writeWear (a v : Nat) (d : Dev) : Dev :=
  if a = R.WEAR_CTL then whenB (bit v 1) wearRestore (whenB (bit v 0) wearSnap d) else plainWrite a v d

/-- BOOT_RBK: ADV burns fuses up to TARGET (R420). -/
def bootRbkWrite (v : Nat) (d : Dev) : Dev := if bit v 7 then rollbackAdvance (v % 128) d else plainWrite R.BOOT_RBK v d

def writeBoot (a v : Nat) (d : Dev) : Dev :=
  if a = R.BOOT_RBK then bootRbkWrite v d
  else if a = R.BOOT_VERIFY then whenB (bit v 0) bootVerify d
  else plainWrite a v d

/-! ### Any register -/

/-- A write of `v` to the register at live offset `a` of the register window, its ranges already checked. -/
def pageWrite (a v : Nat) (d : Dev) : Dev :=
  let p := a / 0x1000
  if 0x20 ≤ p ∧ p ≤ 0x3F then writeHead (p - 0x20) a v d
  else match p with
    | 0x00 => if a = R.SYS_CTL then whenB (bit v 0) sysSoftReset d
              else if a = R.SYS_BRST then sysBrstWrite v d else plainWrite a v d
    | 0x01 => if a = R.PWR_OE then pwrOeWrite v d
              else if a = R.PWR_SLEEP then whenB (bit v 0) standbyEnter d else plainWrite a v d
    | 0x02 => if a = R.CLK_MZ then clkMzWrite v d else plainWrite a v d
    | 0x03 => if a = R.BEAT_OVERRUN then d.put F.BEAT_OVERRUN_COUNT 0
              else memberRebase (writeUnless (a == R.BEAT_PHASE && d.planActive) a v d)
    | 0x04 => if a = R.PLAN_STOP then planStopWrite (v % 4) d else plainWrite a v d
    | 0x05 => if a = R.ENC_CFG 0 then encCfgWrite 0 v d
              else if a = R.ENC_CTL 0 then encCtlWrite 0 v d else plainWrite a v d
    | 0x06 => if a = R.ENC_CFG 1 then encCfgWrite 1 v d
              else if a = R.ENC_CTL 1 then encCtlWrite 1 v d else plainWrite a v d
    | 0x07 => writeVenc a v d
    | 0x08 => writeTime a v d
    | 0x0A => writeUnless (a == R.ETH_CFG 0 && ethCfgRefused d 0 v) a v d
    | 0x0B => writeUnless (a == R.ETH_CFG 1 && ethCfgRefused d 1 v) a v d
    | 0x0C => if a = R.PATH_CMD then pathCmd v d
              else if a = R.PATH_CFG then pathStatus (plainWrite a v d) else plainWrite a v d
    | 0x0D => writeJtp a v d
    | 0x0E => writeStore a v d
    | 0x10 => writeCodec a v d
    | 0x11 => writeScreen a v d
    | 0x12 => writeNozzle a v d
    | 0x13 => writeFire a v d
    | 0x14 => if a = R.WAVE_TDATA then waveTdataWrite v d else plainWrite a v d
    | 0x40 => if a = R.LANES_CFG then lanesCfgWrite v d else plainWrite a v d
    | 0x41 => writeCam 0 a v d
    | 0x42 => writeCam 1 a v d
    | 0x43 => writeInspect a v d
    | 0x44 => writeStats a v d
    | 0x45 => writeVerdict a v d
    | 0x46 => writeLight a v d
    | 0x48 => writeLoop a v d
    | 0x49 => if a = R.ADC_EN then adcEnWrite v d else plainWrite a v d
    | 0x4A => writePwm a v d
    | 0x4B => writeStep a v d
    | 0x4C => writeGpio a v d
    | 0x50 => writeDramc a v d
    | 0x51 => writeDphy a v d
    | 0x53 => writeRemap a v d
    | 0x54 => writeShroud a v d
    | 0x55 => writeEvt a v d
    | 0x56 => writeEvtc 0 a v d
    | 0x57 => writeEvtc 1 a v d
    | 0x58 => writeEvtc 2 a v d
    | 0x59 => writeEvtc 3 a v d
    | 0x5A => writeWdog a v d
    | 0x5B => writeTrim a v d
    | 0x5C => writeWear a v d
    | 0x5E => writeBoot a v d
    | 0x5F => if a = R.STAY_CFG then stayCfgWrite v d else plainWrite a v d
    | _ => plainWrite a v d

/-- The data ports whose shadow entry a write at their shadow offset reaches (R432). -/
def shadowPorts : List Nat := [R.INS_SHD_DATA, R.INS_MAP_A, R.INS_MAP_B, R.LOOP_CDATA, R.TRIM_DDATA, R.TRIM_FDATA]

/-- A write at the shadow of the register at live offset `a`: only RWS fields are written, and a register without any is
left alone (R432, R458). -/
def shadowWrite (a v : Nat) (d : Dev) : Dev :=
  match regDesc (a / 0x1000) (a % 0x1000) with
  | none => d
  | some r =>
    if r.rws = 0 then d
    else if !(rangesOk r r.rws v && crossRangeOk a v d) then d.refuseAt (a + 0x800)
    else if shadowPorts.contains a then pageWrite a v d
    else
      let d := d.setReg (a + 0x800) (BitVec.ofNat 32 (mergeBits (d.reg (a + 0x800)).toNat v r.rws))
      if a = R.SCR_PASS then { d with passWritten := true } else d

/-- A performed 32-bit write of `v` at byte offset `a` of the register window (R5, R6, R426, R432, R458). -/
def registerWrite (a v : Nat) (d : Dev) : Dev :=
  let p := a / 0x1000
  let x := a % 0x1000
  if !pageListed p then d
  else if x < 0x40 then headerWrite p x v d
  else
  let d := if pageShadow p then shadowNote d else d
  if 0x840 ≤ x then shadowWrite (a - 0x800) v d
  else if 0x800 ≤ x then d
  else match regDesc p x with
    | none => d
    | some r =>
      if !(rangesOk r (r.rw ||| r.rwm ||| r.wo ||| r.rws) v && crossRangeOk a v d) then d.refuseAt a else pageWrite a v d

end Sys2Proof.Machine
end

