-- ==== Sys2Proof/Machine/RegRead.lean ====
section
/-! DEFINITION. Reads of registers (chapters 02 to 19): the values that are not simply held (counters in progress,
selected entries, data ports), the side effects of a read, and the shadow halves (R432). -/
namespace Sys2Proof.Machine

/-- PG_STAT with its computed bits (R363, R383, R387, R427). -/
def pgStatRead (d : Dev) (p : Nat) : Nat :=
  let stale := match p with
    | 0x49 => (List.range 16).any (fun i => d.getB (F.ADC_DATA_STALE i))
    | 0x5B => d.getB (F.PG_STAT_STALE 0x5B) || ageStale d
    | 0x5D => d.getB F.TRIM_STALE_SUPPLY
    | _ => d.getB (F.PG_STAT_STALE p)
  setBits (setBits (d.reg (R.PG_STAT p)).toNat 5 1 (b2n (pageBound d p))) 4 1 (b2n stale)

/-- SHROUD_MASTER[m]: LVL of a core is its present level (R370, R374). -/
def shroudMasterRead (d : Dev) (m : Nat) : Nat :=
  let w := (d.reg (R.SHROUD_MASTER m)).toNat
  if m < 4 then setBits w 3 2 (masterLevel d m) else w

/-- REMAP_ENT: the selected entry where it is in use, otherwise the INDEX written (R341). -/
def remapEntRead (d : Dev) : Nat :=
  let x := cellGet noRemap d.remap (64 * d.get F.REMAP_SEL_GROUP + d.get F.REMAP_SEL_ENTRY)
  if x.valid then x.index % 2 ^ 29 + b2n x.poison * 2 ^ 30 + 2 ^ 31 else d.get F.REMAP_ENT_INDEX

/-- EVTC_PRES of core `c` (R353, R355). -/
def evtcPresRead (d : Dev) (c : Nat) : Nat :=
  match presented d c with
  | some n => n + 2 ^ 31
  | none => 0

/-- What register `a` (live offset, not of the header) reads, before any side effect of the read. -/
def liveValue (d : Dev) (a : Nat) : Nat :=
  let w := (d.reg a).toNat
  if a = R.BEAT_NUM_LO then d.beatNum % 2 ^ 32
  else if a = R.TIME_NS then d.nt % 1000000000
  else if a = R.TSQ_DATA0 then ((tsqRead d).reg a).toNat
  else if R.STORE_SDATA0 ≤ a ∧ a ≤ R.STORE_SDATA0 + 12 then sdataRead d ((a - R.STORE_SDATA0) / 4)
  else if a = R.STORE_SFAIL then (d.stream (d.get F.STORE_SIDX_IDX)).sfail % 2 ^ 32
  else if a = R.SCR_TDATA then (scrTdataRead d).1
  else if a = R.NOZ_SH_LO then (nozShLoRead d).1
  else if a = R.NOZ_LIVE_LO then (nozLiveLoRead d).1
  else if a = R.NOZ_WEAR_LO then (nozWearLoRead d).1
  else if a = R.WAVE_TDATA then (waveTdataRead d).1
  else if a = R.INS_SHD_DATA then (insShdRead d).1
  else if a = R.INS_MAP_A then (insMapARead d).1
  else if a = R.INS_MAP_B then (insMapBRead d).1
  else if a = R.LOOP_CDATA then (loopCdataRead d).1
  else if a = R.TRIM_DDATA then (trimDdataRead d).1
  else if a = R.TRIM_FDATA then (trimFdataRead d).1
  else if a = R.DPHY_EYE then (cellGet 0 d.eyes (d.get F.DPHY_LSEL_LANE)).toNat
  else if a = R.REMAP_ENT then remapEntRead d
  else if a = R.TRIM_STALE then setBits w 3 1 (b2n (ageStale d))
  else if a = R.WEAR_L then (indicator d (d.get F.WEAR_SEL_IND)).l
  else if a = R.WEAR_L90 then (indicator d (d.get F.WEAR_SEL_IND)).l90
  else if a = R.WEAR_USED then (indicator d (d.get F.WEAR_SEL_IND)).used
  else if (whichOf 8 R.JTP_KEY_DATA a).isSome then 0
  else match whichOf 32 R.HP_TAP_VAL a, whichOf 48 R.SHROUD_MASTER a, whichOf 4 R.EVTC_PRES a with
    | some h, _, _ => tauOf d h (d.get (F.HP_TAP_SEL_TAP h))
    | _, some m, _ => shroudMasterRead d m
    | _, _, some c => evtcPresRead d c
    | _, _, _ => w

/-- The upper half that a read of the lower register latches: ENC_POS_HI, BEAT_NUM_HI and the rest of the time. -/
def latchUpper (a : Nat) (d : Dev) : Dev :=
  if a = R.BEAT_NUM_LO then d.put F.BEAT_NUM_HI_NUM_HI (d.beatNum / 2 ^ 32)
  else if a = R.TIME_NS then
    (d.put F.TIME_FRAC_FRAC (d.clk / 2 ^ 32)).put2 F.TIME_SEC_LO_SEC F.TIME_SEC_HI_SEC (d.nt / 1000000000)
  else match whichOf 2 R.ENC_POS_LO a with
    | some e => d.put (F.ENC_POS_HI_X e) (ofSigned 48 (d.enc e).x / 2 ^ 32)
    | none => d

/-- Bits cleared on read (chapter tables). -/
def clearOnRead (a : Nat) (d : Dev) : Dev :=
  match regDesc (a / 0x1000) (a % 0x1000) with
  | some r => if r.cor = 0 then d else d.setReg a (BitVec.ofNat 32 (clearBits (d.reg a).toNat r.cor))
  | none => d

/-- The side effects of a read of register `a` at its live offset. -/
def readEffect (a : Nat) (d : Dev) : Dev :=
  if a = R.TSQ_DATA0 then tsqRead d
  else if a = R.SCR_TDATA then (scrTdataRead d).2
  else if a = R.NOZ_SH_LO then (nozShLoRead d).2
  else if a = R.NOZ_LIVE_LO then (nozLiveLoRead d).2
  else if a = R.NOZ_WEAR_LO then (nozWearLoRead d).2
  else if a = R.WAVE_TDATA then (waveTdataRead d).2
  else if a = R.INS_SHD_DATA then (insShdRead d).2
  else if a = R.INS_MAP_A then (insMapARead d).2
  else if a = R.INS_MAP_B then (insMapBRead d).2
  else if a = R.LOOP_CDATA then (loopCdataRead d).2
  else if a = R.TRIM_DDATA then (trimDdataRead d).2
  else if a = R.TRIM_FDATA then (trimFdataRead d).2
  else if a = R.CODEC_ERR_CNT then { clearOnRead a d with codecErrHeld := false }
  else clearOnRead a (latchUpper a d)

/-- The value the shadow offset of register `a` reads: RWS fields from the shadow, the rest live (R432). -/
def shadowValue (d : Dev) (a : Nat) : Nat :=
  if a = R.INS_SHD_DATA then insShdShadow d
  else if a = R.INS_MAP_A then insMapEntry d % 2 ^ 31
  else if a = R.INS_MAP_B then insMapEntry d / 2 ^ 32 % 32
  else if a = R.LOOP_CDATA then loopCdataShadow d
  else if a = R.TRIM_DDATA then dtrimShadow d (d.get F.TRIM_DSEL_IDX)
  else if a = R.TRIM_FDATA then trimFdataShadow d
  else mergeBits (liveValue d a) (d.reg (a + 0x800)).toNat (rwsMask a)

/-- A read of header offset `x` of page `p` by master `m`: a core's first read of PG_EVT may find its source's condition
gone (R358), and PG_HEALTH.CE clears on read (R429). -/
def headerRead (m p x : Nat) (d : Dev) : Nat × Dev :=
  let w := (d.reg (0x1000 * p + x)).toNat
  match x with
  | 0x10 => (pgStatRead d p, d)
  | 0x14 => (w, if m < 4 then noteStatusRead m p d else d)
  | 0x20 => (pgCommitRead d p, d)
  | 0x30 => (w, d.put (F.PG_HEALTH_CE p) 0)
  | _ => (w, d)

/-- A performed 32-bit read by master `m` at byte offset `a` of the register window (R426, R432). -/
def registerRead (m a : Nat) (d : Dev) : Nat × Dev :=
  let p := a / 0x1000
  let x := a % 0x1000
  if !pageListed p then (0, d)
  else if x < 0x40 then headerRead m p x d
  else if 0x840 ≤ x then (if (regDesc p (x - 0x800)).isSome then (shadowValue d (a - 0x800), d) else (0, d))
  else if 0x800 ≤ x then (0, d)
  else if (regDesc p x).isSome then (liveValue d a, readEffect a d)
  else (0, d)

end Sys2Proof.Machine
end

