-- ==== Sys2Proof/Machine/Bus.lean ====
section
/-! DEFINITION. Bus transactions (R370 to R377, R422 to R424) and the register requests of the RIP (R131). -/
namespace Sys2Proof.Machine

/-- The masters of R369: identities 18 to 47 issue nothing. -/
def masterCount : Nat := 18

/-- A read of `n` bytes at offset `o` of the register window: a word, two words with the lower first, or the bytes of one
word; anything else is WIDTH (R424). -/
def windowRead (m o n : Nat) (d : Dev) : BusResp × Dev :=
  if !pageListed (o / 0x1000) then (.poison, d)
  else if !aligned o n then (.poison, d.pgFault (o / 0x1000) faultWidth (o % 0x1000))
  else if n = 8 then
    let lo := registerRead m o d
    let hi := registerRead m (o + 4) lo.2
    (.ok (lo.1 + hi.1 * 2 ^ 32), hi.2)
  else
    let w := registerRead m (o - o % 4) d
    (.ok (bits w.1 (8 * (o % 4)) (8 * n)), w.2)

/-- A write of `n` bytes of value `v` at offset `o` of the register window (R424). -/
def windowWrite (o n v : Nat) (d : Dev) : Dev :=
  if !pageListed (o / 0x1000) then d
  else if n = 4 ∧ o % 4 = 0 then registerWrite o (v % 2 ^ 32) d
  else if n = 8 ∧ o % 8 = 0 then registerWrite (o + 4) (v / 2 ^ 32 % 2 ^ 32) (registerWrite o (v % 2 ^ 32) d)
  else d.pgFault (o / 0x1000) faultWidth (o % 0x1000)

/-- What a permitted transaction of `n` bytes at `a` does: `kind` as R371, `v` the value written, its first byte least
significant. -/
def busPerform (m kind a n v : Nat) (d : Dev) : BusResp × Dev :=
  if kind = kindWrite then
    (.none, match regOffset a with
      | some o => windowWrite o n v d
      | none => targetWrite m a (leBytes n v) d)
  else match regOffset a with
    | some o => windowRead m o n d
    | none =>
      let r := targetRead m a n d
      (match r.1 with
        | some bs => .ok (leNat bs)
        | none => .poison, r.2)

/-- Whether master `m` issues transactions: not while it is cleated, and a core only while its RUN bit is set and no MGMT
reset is requested (R365, R367, R369, R376). -/
def issues (d : Dev) (m : Nat) : Bool :=
  decide (m < masterCount) && !cleated d m && (decide (4 ≤ m) || coreRuns d m)

/-- A transaction of master `m`, checked by Shroud when it is issued, then performed or a violation (R369, R371, R376). The
second part says that it was a violation; `f` performs it. -/
def busIssue (m kind a n : Nat) (f : Dev → BusResp × Dev) (d : Dev) : BusResp × Bool × Dev :=
  if !issues d m then (.none, false, d) else
  let c := shroudCheck d m kind a (kind == kindWrite && reachesRwm a n)
  if !c.1 then (if kind = kindWrite then .none else .poison, true, violation m kind a c.2 d)
  else
    let r := f d
    (r.1, false, r.2)

/-- Whether a write of `n` bytes of value `v` at `a` writes BOOT_RBK with ADV. -/
def writesAdv (a n v : Nat) : Bool :=
  let r := 0x40000000 + R.BOOT_RBK
  aligned a n && decide (4 ≤ n) && decide (a ≤ r) && decide (r < a + n) && bit v (8 * (r - a) + 7)

/-- A transaction of master `m`, performed at once; a write of BOOT_RBK with ADV below Monitor level also sets PG_FAULT
(R420). -/
def busAccess (m kind a n v : Nat) (d : Dev) : BusResp × Bool × Dev :=
  let r := busIssue m kind a n (busPerform m kind a n v) d
  if r.2.1 && kind == kindWrite && writesAdv a n v then (r.1, true, r.2.2.refuseAt R.BOOT_RBK) else r

/-- A permitted transaction that DRAM holds (R330). -/
def busStall (m kind a n v : Nat) (d : Dev) : BusResp × Dev :=
  (d.busResp, { d with stalled := d.stalled ++ [⟨m, kind, a, n, v⟩] })

/-- BUS_TRANSACTION: only what lies within one 64-byte line is issued, and only a core fetches (R370). An access to DRAM that
is permitted stalls while DRAM changes its rate (R330). -/
def busTransaction (m kind a n v : Nat) (d : Dev) : Dev :=
  if n = 0 || decide (64 < a % 64 + n) || decide (2 ^ 40 ≤ a) || decide (2 < kind) || (kind == kindExec && decide (4 ≤ m)) then d
  else
    let r := if inDram a && d.getB F.DRAMC_FCHG_BUSY then busIssue m kind a n (busStall m kind a n v) d
      else busAccess m kind a n v d
    { dramRun r.2.2 with busResp := r.1 }

/-- The accesses that stalled are performed once DRAM serves again (R330): Shroud has judged them when they were issued
(R375), and a cleat since does not stop them (R376). -/
def stalledRun (d : Dev) : Dev :=
  if d.getB F.DRAMC_FCHG_BUSY then d else
  forL d.stalled (fun x d =>
    let r := busPerform x.master x.kind x.addr x.size x.data d
    { dramRun r.2 with busResp := r.1 }) { d with stalled := [] }

/-- A 32-bit write of the register at byte offset `o` of the register window by master `m`. -/
def busWrite (m o v : Nat) (d : Dev) : Dev :=
  if 0x80000 ≤ o then d else
  let r := busAccess m kindWrite (0x40000000 + o) 4 v d
  { r.2.2 with busResp := r.1 }

/-! ### Register requests of the RIP (R131) -/

/-- Read words `i … n − 1` from `a`: the words read, big-endian, how many, and whether a violation ended the request. A
poisoned word that is no violation is a free value (chapter 06 states none). -/
def regReads : Nat → Nat → List Byte → Nat → Dev → List Byte × Nat × Bool × Dev
  | 0, _, acc, k, d => (acc, k, false, d)
  | n + 1, a, acc, k, d =>
    let r := busAccess mJtpRemote kindRead a 4 0 d
    if r.2.1 then (acc, k, true, r.2.2)
    else match r.1 with
      | .ok v => regReads n (a + 4) (acc ++ beBytes 4 v) (k + 1) r.2.2
      | _ =>
        let f := r.2.2.free 32
        regReads n (a + 4) (acc ++ beBytes 4 f.1) (k + 1) f.2

/-- Write the words of `ws`: how many, and whether a violation ended the request. -/
def regWrites : List Nat → Nat → Nat → Dev → Nat × Bool × Dev
  | [], _, k, d => (k, false, d)
  | w :: ws, a, k, d =>
    let r := busAccess mJtpRemote kindWrite a 4 w d
    if r.2.1 then (k, true, r.2.2) else regWrites ws (a + 4) (k + 1) r.2.2

/-- The response to a register request: its first 12 bytes echoed, STATUS, DONE and the words read. -/
def regAnswer (p : List Byte) (status done : Nat) (data : List Byte) : List Byte :=
  p.take 12 ++ beBytes 1 status ++ beBytes 1 0 ++ beBytes 2 done ++ data

/-- Perform a register request. -/
def regRequest (m : JtpMsg) (d : Dev) : Dev :=
  let p := m.payload
  let a := beAt p 0 8
  let n := beAt p 8 2
  if cleated d mJtpRemote then respond m.session m.type (regAnswer p 3 0 []) d
  else if a / 0x1000 ≠ (a + 4 * n - 4) / 0x1000 then respond m.session m.type (regAnswer p 2 0 []) d
  else if m.type = tRegRead then
    let r := regReads n a [] 0 d
    respond m.session m.type (regAnswer p (b2n r.2.2.1) r.2.1 r.1) r.2.2.2
  else
    let r := regWrites ((List.range n).map (fun i => beAt p (16 + 4 * i) 4)) a 0 d
    respond m.session m.type (regAnswer p (b2n r.2.1) r.1 []) r.2.2

/-- The lowest session whose next message is a register request; one to DRAM waits while DRAM changes its rate (R330). -/
def regSession (d : Dev) : Option Nat :=
  (List.range 16).find? (fun s => match (d.sess s).todo with
    | m :: _ => (m.type == tRegRead || m.type == tRegWrite) && !(inDram (beAt m.payload 0 8) && d.getB F.DRAMC_FCHG_BUSY)
    | [] => false)

/-- Perform the register requests that are next in their sessions, each followed by what waited behind it. -/
def jtpDrain : Nat → Dev → Dev
  | 0, d => d
  | f + 1, d =>
    match regSession d with
    | none => d
    | some s => match (d.sess s).todo with
      | [] => d
      | m :: l => jtpDrain f (sessWork s (regRequest m (d.setSess s { d.sess s with todo := l })))

/-- The writes of engines to registers are performed (R424). -/
def regWritesRun (d : Dev) : Dev := forL d.regWrites (fun x d => windowWrite x.1 x.2.1 x.2.2 d) { d with regWrites := [] }

/-- What follows every command: the engines' writes to registers, and register requests that became next are performed (R113, R131), and a plan's planes stop
where a real-time master was cleated (R382); DRAM serves the requests that it may (R325). -/
def afterCommand (d : Dev) : Dev :=
  let d := regWritesRun d
  cleatSeam (dramRun (jtpDrain (d.jtp.sess.foldl (fun n e => n + e.2.todo.length) 0) d))

end Sys2Proof.Machine
end

