-- ==== Sys2Proof/Machine/Beat.lean ====
section
/-! DEFINITION. A beat boundary: the order in which the beat-paced units start their work (R17 to R22). -/
namespace Sys2Proof.Machine

/-- The virtual encoder at the boundary of beat `k`: one more beat without a sample (R61), the publisher's sample of the beat
and its multicast (R59, R136), and the stop of the publisher's own planes on VENC when it carries ENC_FAULT (R63). -/
def vencBeat (k : Nat) (d : Dev) : Dev :=
  let d := { d with vencPrev := d.vencOut, vencOut := vencBytes k d }
  let fault := d.getB F.PLAN_STAY_PUBLISHER && bit (byteAt d.vencOut 1) 1
  let d := if fault then vencFaultStop d else d
  vencMulticast k (vencCount d)

/-- The boundary that opens beat `k`: `unit` names a unit of R26 that had not completed the work of the beat before for the
planes in `planes`, or is 0 (R17, R19). Commits due and what they change come before the units that use them (R28). -/
def beatWork (k unit planes : Nat) (d : Dev) : Dev :=
  let d := domainSwitch (pathBeat k (vencRun d))
  let d := printBeat k unit planes d
  let d := forL (activePlanes d) issuePlane d
  let d := vencBeat k (stayBeat (wearBeat d))
  let d := forN 4 (coreTick k) d
  loopsBeat k (dieTrimStep d)

/-- A beat boundary: nothing while no new beat has opened since the last one performed (R17). -/
def beatBoundary (unit planes : Nat) (d : Dev) : Dev :=
  if d.beatNum = d.lastBeat then d
  else beatWork d.beatNum unit planes { d with lastBeat := d.beatNum }

end Sys2Proof.Machine
end

