-- ==== Sys2Proof/Machine/Inputs.lean ====
section
/-! DEFINITION. Small operations of commands that stand between an input and its unit. -/
namespace Sys2Proof.Machine

/-- The balls of QD[input] change: every unit that selects it has sampled the levels before (R37, R40), and the planes answer a
fault that those declare (R55). What the new levels do follows at their own samples (log entry 105). -/
def qdInput (input : Nat) (a b z : Bool) (d : Dev) : Dev :=
  let d := forN 2 (fun e x => if x.get (F.ENC_CFG_SRC e) = 3 + input then qdBefore e x else x) d
  planesAnswer { d with qdIn := cellSet 0 d.qdIn input (b2n a + 2 * b2n b + 4 * b2n z) }

/-- TSQ_DATA0 is read: the entry removed is the answer (R77). -/
def tsqDataRead (d : Dev) : Dev :=
  let e := tsqRead d
  { e with busResp := .ok (e.reg R.TSQ_DATA0).toNat }

/-- A frame arrives on an enabled port (R361); a position it carries may make a trigger due. -/
def ethArrive (q fecUnc : Nat) (fcsOk : Bool) (fr : List Byte) (d : Dev) : Dev :=
  if d.enabled (portPage q) then camsFollow (ethRx q fecUnc fcsOk fr (vencRun d)) else d

/-- A timer of JTP, while its block is enabled (R361). -/
def jtpOn (f : Dev → Dev) (d : Dev) : Dev := if d.enabled 0x0D then f d else d

end Sys2Proof.Machine
end

