-- ==== Sys2Proof/Machine/CameraCommands.lean ====
section
/-! DEFINITION. The commands of cameras, verdicts and light (chapter 12): each is its unit's operation, performed at its instant. -/
namespace Sys2Proof.Machine

/-- CAM_TRIGGER_HELD (R267). The spacing of the port's last trigger has expired. -/
def execCamTriggerHeld (dt : Nat) (cam : Fin 2) (s : State) : Host.Outcome State Fault Refusal :=
  perform dt s (fun d => afterCommand (camTriggerHeld cam d))

/-- CXP_HEARTBEAT_RX (R266). A heartbeat of the camera. -/
def execCxpHeartbeatRx (dt : Nat) (cam : Fin 2) (s : State) : Host.Outcome State Fault Refusal :=
  perform dt s (fun d => afterCommand (cxpHeartbeatRx cam d))

/-- CAM_HB_TIMEOUT (R266). HB_TMO has passed. -/
def execCamHbTimeout (dt : Nat) (cam : Fin 2) (s : State) : Host.Outcome State Fault Refusal :=
  perform dt s (fun d => afterCommand (camHbTimeout cam d))

/-- CAM_LINE_RX (R269). The line's first sample arrived `age` ns ago; `ok` says that its components are of 12 bits. -/
def execCamLineRx (dt : Nat) (cam : Fin 2) (age : Nat) (ok : Bool) (samples : List Nat) (s : State) : Host.Outcome
    State Fault Refusal :=
  perform dt s (fun d => afterCommand (camLineRx cam age ok samples d))

/-- CAM_LINE_TIMEOUT (R269). LINE_TMO has passed. -/
def execCamLineTimeout (dt : Nat) (cam : Fin 2) (s : State) : Host.Outcome State Fault Refusal :=
  perform dt s (fun d => afterCommand (camLineTimeout cam d))

/-- PIPELINE_LINE_DONE (R271). The pipeline's line is finished. -/
def execPipelineLineDone (dt : Nat) (s : State) : Host.Outcome State Fault Refusal :=
  perform dt s (fun d => afterCommand (pipelineLineDone d))

/-- CC_ACK_RX (R275). `status` 0 OK, 1 refused, 3 CRC error; `value` is what a read returned. -/
def execCcAckRx (dt : Nat) (cam : Fin 2) (status : Nat) (value : Word) (s : State) : Host.Outcome State Fault
    Refusal :=
  perform dt s (fun d => afterCommand (ccAckRx cam status value.toNat d))

/-- CC_TIMEOUT (R276). 1 ms has passed. -/
def execCcTimeout (dt : Nat) (cam : Fin 2) (s : State) : Host.Outcome State Fault Refusal :=
  perform dt s (fun d => afterCommand (ccTimeout cam d))

/-- CAM_CC_GO (R264). CAM_CC_CTL.GO with WRITE `write`. -/
def execCamCcGo (dt : Nat) (cam : Fin 2) (write : Bool) (s : State) : Host.Outcome State Fault Refusal :=
  perform dt s (fun d => afterCommand (camCcGo cam write d))

/-- STROBE_PULSE (R277). A pulse of STRB[out] starts or ends. -/
def execStrobePulse (dt : Nat) (out : Fin 4) (s : State) : Host.Outcome State Fault Refusal :=
  perform dt s (fun d => afterCommand (strobePulse out d))

/-- VRD_HCLR (R289). VRD_CTL.HCLR with the mask `views`. -/
def execVrdHclr (dt views : Nat) (s : State) : Host.Outcome State Fault Refusal :=
  perform dt s (fun d => afterCommand (vrdHclr (views % 256) d))

/-- VRD_SENT_WRITE (R290). VRD_SENT. -/
def execVrdSentWrite (dt : Nat) (value : Word) (s : State) : Host.Outcome State Fault Refusal :=
  perform dt s (fun d => afterCommand (registerWrite R.VRD_SENT value.toNat d))

/-- CXP_LINK_CHANGE (R264). Downlink connection `conn` of the port. -/
def execCxpLinkChange (dt : Nat) (cam : Fin 2) (conn : Fin 4) (up : Bool) (s : State) : Host.Outcome State Fault
    Refusal :=
  perform dt s (fun d => afterCommand (cxpLinkChange cam conn up d))

end Sys2Proof.Machine
end

