-- ==== Sys2Proof/Machine/CoreCommands.lean ====
section
/-! DEFINITION. The commands of events, watchdogs and the common page control (chapters 15, 19): each is its unit's operation, performed at its instant. -/
namespace Sys2Proof.Machine

/-- EVT_DOORBELL (R349). EVT_DOORBELL. -/
def execEvtDoorbell (dt : Nat) (source : Fin 512) (s : State) : Host.Outcome State Fault Refusal :=
  perform dt s (fun d => afterCommand (evtDoorbell source d))

/-- EVTC_DOORBELL (R349). EVTC_DOORBELL of the core. -/
def execEvtcDoorbell (dt : Nat) (core : Fin 4) (source : Fin 512) (s : State) : Host.Outcome State Fault Refusal :=
  perform dt s (fun d => afterCommand (evtcDoorbell core source d))

/-- EVENT_ACCEPT (R354). `ret` is the address of the instruction boundary. -/
def execEventAccept (dt : Nat) (core : Fin 4) (ret : Nat) (s : State) : Host.Outcome State Fault Refusal :=
  perform dt s (fun d => afterCommand (eventAccept core (ret % 2 ^ 40) d))

/-- EVTC_EOI (R356). EVTC_EOI of the core. -/
def execEvtcEoi (dt : Nat) (core : Fin 4) (source : Fin 512) (s : State) : Host.Outcome State Fault Refusal :=
  perform dt s (fun d => afterCommand (evtcEoi core source d))

/-- EVENT_RETURN (R356). The handler's return instruction. -/
def execEventReturn (dt : Nat) (core : Fin 4) (s : State) : Host.Outcome State Fault Refusal :=
  perform dt s (fun d => afterCommand (eventReturn core d))

/-- EVT_MSET (R357). EVT_MSET of the word. -/
def execEvtMset (dt : Nat) (word : Fin 8) (mask : Word) (s : State) : Host.Outcome State Fault Refusal :=
  perform dt s (fun d => afterCommand (evtMset word mask.toNat d))

/-- EVT_MCLR (R357). EVT_MCLR of the word. -/
def execEvtMclr (dt : Nat) (word : Fin 8) (mask : Word) (s : State) : Host.Outcome State Fault Refusal :=
  perform dt s (fun d => afterCommand (evtMclr word mask.toNat d))

/-- EVTC_MSET (R357). EVTC_MSET of the core. -/
def execEvtcMset (dt : Nat) (core : Fin 4) (mask : Word) (s : State) : Host.Outcome State Fault Refusal :=
  perform dt s (fun d => afterCommand (evtcMset core mask.toNat d))

/-- EVTC_MCLR (R357). EVTC_MCLR of the core. -/
def execEvtcMclr (dt : Nat) (core : Fin 4) (mask : Word) (s : State) : Host.Outcome State Fault Refusal :=
  perform dt s (fun d => afterCommand (evtcMclr core mask.toNat d))

/-- EVT_ROUTE_WRITE (R351). EVT_ROUTE[source], written by `master`. -/
def execEvtRouteWrite (dt : Nat) (master : Fin 48) (source : Fin 256) (value : Word) (s : State) : Host.Outcome
    State Fault Refusal :=
  perform dt s (fun d => afterCommand (busWrite master (R.EVT_ROUTE source) value.toNat d))

/-- CORE_WAIT (R359). The WAIT instruction. -/
def execCoreWait (dt : Nat) (core : Fin 4) (s : State) : Host.Outcome State Fault Refusal :=
  perform dt s (fun d => afterCommand (coreWait core d))

/-- WAKE_EDGE (R359). A rising edge on WAKE[input]. -/
def execWakeEdge (dt : Nat) (input : Fin 8) (s : State) : Host.Outcome State Fault Refusal :=
  performAny dt s (fun d => wakeEdge input d)

/-- WDOG_KICK (R364). WDOG_KICK of the core. -/
def execWdogKick (dt : Nat) (core : Fin 4) (s : State) : Host.Outcome State Fault Refusal :=
  perform dt s (fun d => afterCommand (wdogKick core d))

/-- WDOG_EXPIRY (R364). The core's watchdog reaches 0. -/
def execWdogExpiry (dt : Nat) (core : Fin 4) (s : State) : Host.Outcome State Fault Refusal :=
  perform dt s (fun d => afterCommand (wdogExpiry core d))

/-- MGMT_RESET_REQUEST (R365). WDOG_MCTL with MRST, RUN kept, written by `master`. -/
def execMgmtResetRequest (dt : Nat) (master : Fin 48) (s : State) : Host.Outcome State Fault Refusal :=
  perform dt s (fun d => afterCommand (busWrite master R.WDOG_MCTL (2 * d.get F.WDOG_MCTL_RUN + 1) d))

/-- MGMT_RESET_APPLY (R366). Accepted transactions have completed. -/
def execMgmtResetApply (dt : Nat) (s : State) : Host.Outcome State Fault Refusal :=
  perform dt s (fun d => afterCommand (mgmtResetApply d))

/-- BLOCK_DISABLE (R361). PG_CTL.EN of `page` cleared. -/
def execBlockDisable (dt : Nat) (page : Fin 128) (s : State) : Host.Outcome State Fault Refusal :=
  perform dt s (fun d => afterCommand (blockDisable page d))

/-- BLOCK_ENABLE (R361). PG_CTL.EN of `page` set. -/
def execBlockEnable (dt : Nat) (page : Fin 128) (s : State) : Host.Outcome State Fault Refusal :=
  perform dt s (fun d => afterCommand (blockEnable page d))

/-- BLOCK_ABORT (R362). PG_CTL of `page` with EN 0 and STOP_MODE 1. -/
def execBlockAbort (dt : Nat) (page : Fin 128) (s : State) : Host.Outcome State Fault Refusal :=
  perform dt s (fun d => afterCommand (blockAbort page d))

/-- BLOCK_IDLE (R361). The block's unit of work is finished. -/
def execBlockIdle (dt : Nat) (page : Fin 128) (s : State) : Host.Outcome State Fault Refusal :=
  perform dt s (fun d => afterCommand (blockIdle page d))

end Sys2Proof.Machine
end

