-- ==== Sys2Proof/Machine/HeadCommands.lean ====
section
/-! DEFINITION. The commands of head ports and stay links (chapters 10, 11): each is its unit's operation, performed at its instant. -/
namespace Sys2Proof.Machine

/-- STATUS_FRAME_RX (R251). The frame, with its TYPE and CRC-32C. -/
def execStatusFrameRx (dt : Nat) (port : Fin 32) (frame : List Byte) (s : State) : Host.Outcome State Fault Refusal
    :=
  perform dt s (fun d => afterCommand (statusFrameRx port frame d))

/-- TEMP_VALID_TIMEOUT (R227). TMO beats have passed. -/
def execTempValidTimeout (dt : Nat) (port : Fin 32) (s : State) : Host.Outcome State Fault Refusal :=
  perform dt s (fun d => afterCommand (tempValidTimeout port d))

/-- HP_CUT_CMD (R231). HP_CTL.CUT. -/
def execHpCutCmd (dt : Nat) (port : Fin 32) (s : State) : Host.Outcome State Fault Refusal :=
  perform dt s (fun d => afterCommand (hpCutCmd port d))

/-- HP_CUT_CLR (R232). HP_CTL.CUT_CLR. -/
def execHpCutClr (dt : Nat) (port : Fin 32) (s : State) : Host.Outcome State Fault Refusal :=
  perform dt s (fun d => afterCommand (hpCutClr port d))

/-- REJECT_MARK_END (R233). The mark's width is over. -/
def execRejectMarkEnd (dt : Nat) (s : State) : Host.Outcome State Fault Refusal :=
  perform dt s (fun d => afterCommand (rejectMarkEnd d))

/-- FIRE_REJ_REQ (R233). FIRE_REJ_REQ. -/
def execFireRejReq (dt : Nat) (epoch : Word) (s : State) : Host.Outcome State Fault Refusal :=
  perform dt s (fun d => afterCommand (fireRejReq epoch.toNat d))

/-- FIRE_REJ_CLR (R234). FIRE_CTL.REJ_CLR. -/
def execFireRejClr (dt : Nat) (s : State) : Host.Outcome State Fault Refusal :=
  perform dt s (fun d => afterCommand (fireRejClr d))

/-- LANE_LOCK_CHANGE (R253). `link` 0 to 31 a head port, 32 east, 33 west. -/
def execLaneLockChange (dt : Nat) (link : Fin 34) (lane : Fin 2) (locked : Bool) (s : State) : Host.Outcome State
    Fault Refusal :=
  perform dt s (fun d => afterCommand (laneLockChange link lane locked d))

/-- TRAIN_FRAME_RX (R253). `eyeW` and `eyeH` are the eye measured on the lane. -/
def execTrainFrameRx (dt : Nat) (link : Fin 34) (lane : Fin 2) (frame : List Byte) (rx : LaneArrival) (eyeW eyeH : Nat)
    (s : State) : Host.Outcome State Fault Refusal :=
  perform dt s (fun d => afterCommand (trainFrameRx link lane frame rx.inverted rx.skew eyeW eyeH d))

/-- START_FRAME_RX (R254). The frame, with its TYPE and CRC-32C. -/
def execStartFrameRx (dt : Nat) (link : Fin 34) (frame : List Byte) (s : State) : Host.Outcome State Fault Refusal
    :=
  perform dt s (fun d => afterCommand (startFrameRx link frame d))

/-- LINK_TRAIN_TIMEOUT (R253). TMO has passed. -/
def execLinkTrainTimeout (dt : Nat) (link : Fin 34) (s : State) : Host.Outcome State Fault Refusal :=
  perform dt s (fun d => afterCommand (linkTrainTimeout link d))

/-- HPL_STATUS_TIMEOUT (R256). LNK_TMO beats have passed. -/
def execHplStatusTimeout (dt : Nat) (port : Fin 32) (s : State) : Host.Outcome State Fault Refusal :=
  perform dt s (fun d => afterCommand (hplStatusTimeout port d))

/-- HPL_DOWN_CMD (R256). HPL_CFG.DOWN. -/
def execHplDownCmd (dt : Nat) (port : Fin 32) (s : State) : Host.Outcome State Fault Refusal :=
  perform dt s (fun d => afterCommand (hplDown port d))

/-- LINK_CYCLE (R249). The next link cycle of the port is due. -/
def execLinkCycle (dt : Nat) (port : Fin 32) (s : State) : Host.Outcome State Fault Refusal :=
  perform dt s (fun d => afterCommand (linkCycle port d))

/-- SENSE_REPLY_RX (R252). The frame, with its TYPE and CRC-32C. -/
def execSenseReplyRx (dt : Nat) (port : Fin 32) (frame : List Byte) (s : State) : Host.Outcome State Fault Refusal
    :=
  perform dt s (fun d => afterCommand (senseReplyRx port frame d))

/-- HPL_MBX_SEND (R249). HPL_MBX_CTL.SEND. -/
def execHplMbxSend (dt : Nat) (port : Fin 32) (s : State) : Host.Outcome State Fault Refusal :=
  perform dt s (fun d => afterCommand (hplMbxSend port d))

/-- MEMBER_FRAME_TX (R259). The own frame of the beat is due; the delays say how far into its window it starts on each port,
ps (R80). -/
def execMemberFrameTx (dt delayEast delayWest : Nat) (s : State) : Host.Outcome State Fault Refusal :=
  perform dt s (fun d => afterCommand (memberFrameTx delayEast delayWest d))

/-- MEMBER_FRAME_RX (R260). `hold` is the time until the frame leaves again, 2^-8 ns. -/
def execMemberFrameRx (dt : Nat) (dir : Fin 2) (frame : List Byte) (hold : Nat) (s : State) : Host.Outcome State
    Fault Refusal :=
  perform dt s (fun d => afterCommand (camsFollow (memberFrameRx dir frame hold (vencRun d))))

/-- GWEAT_FRAME_DISCARD (R248). The line bits that carry the frame, from at least 58 payload bits before its marker on
(R239). -/
def execGweatFrameDiscard (dt : Nat) (rx : LinkBits) (s : State) : Host.Outcome State Fault Refusal :=
  perform dt s (fun d => afterCommand (camsFollow (lineRx rx.link rx.lane0 rx.lane1 (vencRun d))))

end Sys2Proof.Machine
end

