-- ==== Sys2Proof/Machine/JtpCommands.lean ====
section
/-! DEFINITION. The commands of the transport protocol (chapter 06): each is its unit's operation, performed at its instant. -/
namespace Sys2Proof.Machine

/-- HELLO_OPEN (R123). `known` says that the source is the configured peer of the session; `body` follows the MODE
byte. -/
def execHelloOpen (dt : Nat) (port : Fin 2) (known : Bool) (session : Fin 16) (seq job epoch : Word) (body : List
    Byte) (s : State) : Host.Outcome State Fault Refusal :=
  perform dt s (fun d => afterCommand (helloOpen port known session seq.toNat job.toNat epoch.toNat body d))

/-- HELLO_PROBE (R123). `body` follows the MODE byte. -/
def execHelloProbe (dt : Nat) (port : Fin 2) (session : Fin 16) (seq job epoch : Word) (body : List Byte) (s :
    State) : Host.Outcome State Fault Refusal :=
  perform dt s (fun d => afterCommand (jtpMessage port tHello session seq.toNat job.toNat epoch.toNat (2 :: body) d))

/-- HELLO_CLOSE (R123). `body` follows the MODE byte. -/
def execHelloClose (dt : Nat) (port : Fin 2) (session : Fin 16) (seq job epoch : Word) (body : List Byte) (s :
    State) : Host.Outcome State Fault Refusal :=
  perform dt s (fun d => afterCommand (jtpMessage port tHello session seq.toNat job.toNat epoch.toNat (3 :: body) d))

/-- PLAN_LOAD (R125). A message from the configured peer of the session, received whole on `port`, with its JOB and
EPOCH and its `payload`. -/
def execPlanLoad (dt : Nat) (port : Fin 2) (session : Fin 16) (seq job epoch : Word) (payload : List Byte) (s :
    State) : Host.Outcome State Fault Refusal :=
  perform dt s (fun d => afterCommand (jtpMessage port tPlanLoad session seq.toNat job.toNat epoch.toNat payload d))

/-- TABLE_WRITE (R126). A message from the configured peer of the session, received whole on `port`, with its JOB and
EPOCH and its `payload`. -/
def execTableWrite (dt : Nat) (port : Fin 2) (session : Fin 16) (seq job epoch : Word) (payload : List Byte) (s :
    State) : Host.Outcome State Fault Refusal :=
  perform dt s (fun d => afterCommand (jtpMessage port tTableWrite session seq.toNat job.toNat epoch.toNat payload d))

/-- LAYER_SEGMENT (R127). A message from the configured peer of the session, received whole on `port`, with its JOB
and EPOCH and its `payload`. -/
def execLayerSegment (dt : Nat) (port : Fin 2) (session : Fin 16) (seq job epoch : Word) (payload : List Byte) (s :
    State) : Host.Outcome State Fault Refusal :=
  perform dt s (fun d =>
    afterCommand (jtpMessage port tLayerSegment session seq.toNat job.toNat epoch.toNat payload d))

/-- COPY_ORDER (R128). A message from the configured peer of the session, received whole on `port`, with its JOB and
EPOCH and its `payload`. -/
def execCopyOrder (dt : Nat) (port : Fin 2) (session : Fin 16) (seq job epoch : Word) (payload : List Byte) (s :
    State) : Host.Outcome State Fault Refusal :=
  perform dt s (fun d => afterCommand (jtpMessage port tCopyOrder session seq.toNat job.toNat epoch.toNat payload d))

/-- EPOCH_COMMIT (R130). A message from the configured peer of the session, received whole on `port`, with its JOB and
EPOCH and its `payload`. -/
def execEpochCommit (dt : Nat) (port : Fin 2) (session : Fin 16) (seq job epoch : Word) (payload : List Byte) (s :
    State) : Host.Outcome State Fault Refusal :=
  perform dt s (fun d =>
    afterCommand (jtpMessage port tEpochCommit session seq.toNat job.toNat epoch.toNat payload d))

/-- ACK_RECEIVED (R114). A message from the configured peer of the session, received whole on `port`, with its JOB and
EPOCH and its `payload`. -/
def execAckReceived (dt : Nat) (port : Fin 2) (session : Fin 16) (seq job epoch : Word) (payload : List Byte) (s :
    State) : Host.Outcome State Fault Refusal :=
  perform dt s (fun d => afterCommand (jtpMessage port tAck session seq.toNat job.toNat epoch.toNat payload d))

/-- NAK_RECEIVED (R114). A message from the configured peer of the session, received whole on `port`, with its JOB and
EPOCH and its `payload`. -/
def execNakReceived (dt : Nat) (port : Fin 2) (session : Fin 16) (seq job epoch : Word) (payload : List Byte) (s :
    State) : Host.Outcome State Fault Refusal :=
  perform dt s (fun d => afterCommand (jtpMessage port tNak session seq.toNat job.toNat epoch.toNat payload d))

/-- CREDIT_RECEIVED (R116). A message from the configured peer of the session, received whole on `port`, with its JOB
and EPOCH and its `payload`. -/
def execCreditReceived (dt : Nat) (port : Fin 2) (session : Fin 16) (seq job epoch : Word) (payload : List Byte) (s
    : State) : Host.Outcome State Fault Refusal :=
  perform dt s (fun d => afterCommand (jtpMessage port tCredit session seq.toNat job.toNat epoch.toNat payload d))

/-- REG_READ (R131). A message from the configured peer of the session, received whole on `port`, with its JOB and
EPOCH and its `payload`. -/
def execRegRead (dt : Nat) (port : Fin 2) (session : Fin 16) (seq job epoch : Word) (payload : List Byte) (s :
    State) : Host.Outcome State Fault Refusal :=
  perform dt s (fun d => afterCommand (jtpMessage port tRegRead session seq.toNat job.toNat epoch.toNat payload d))

/-- REG_WRITE (R131). A message from the configured peer of the session, received whole on `port`, with its JOB and
EPOCH and its `payload`. -/
def execRegWrite (dt : Nat) (port : Fin 2) (session : Fin 16) (seq job epoch : Word) (payload : List Byte) (s :
    State) : Host.Outcome State Fault Refusal :=
  perform dt s (fun d => afterCommand (jtpMessage port tRegWrite session seq.toNat job.toNat epoch.toNat payload d))

/-- DOORBELL (R132). A message from the configured peer of the session, received whole on `port`, with its JOB and
EPOCH and its `payload`. -/
def execDoorbell (dt : Nat) (port : Fin 2) (session : Fin 16) (seq job epoch : Word) (payload : List Byte) (s :
    State) : Host.Outcome State Fault Refusal :=
  perform dt s (fun d => afterCommand (jtpMessage port tDoorbell session seq.toNat job.toNat epoch.toNat payload d))

/-- POSITION (R136). A message from the configured peer of the session, received whole on `port`, with its JOB and
EPOCH and its `payload`. -/
def execPosition (dt : Nat) (port : Fin 2) (session : Fin 16) (seq job epoch : Word) (payload : List Byte) (s :
    State) : Host.Outcome State Fault Refusal :=
  perform dt s (fun d =>
    afterCommand (camsFollow (jtpMessage port tPosition session seq.toNat job.toNat epoch.toNat payload (vencRun d))))

/-- ACK_TIMER (R115). ACK_TMO has passed. -/
def execAckTimer (dt : Nat) (session : Fin 16) (s : State) : Host.Outcome State Fault Refusal :=
  perform dt s (fun d => afterCommand (jtpOn (ackTimer session) d))

/-- NAK_HOLD_TIMER (R115). NAK_HOLD has passed. -/
def execNakHoldTimer (dt : Nat) (session : Fin 16) (s : State) : Host.Outcome State Fault Refusal :=
  perform dt s (fun d => afterCommand (jtpOn (nakHoldTimer session) d))

/-- JTP_RETRANSMIT_TIMER (R118). JTP_RTO has passed for a message of the session. -/
def execJtpRetransmitTimer (dt : Nat) (session : Fin 16) (s : State) : Host.Outcome State Fault Refusal :=
  perform dt s (fun d => afterCommand (jtpOn (retransmitTimer session) d))

/-- REPORT_SEND (R118). `kind` 0 a response or DOORBELL, 1 an EVENT, 2 verdict records, 3 print-log records; `count`
bounds the records. -/
def execReportSend (dt : Nat) (session : Fin 16) (kind : Fin 4) (count : Nat) (s : State) : Host.Outcome State Fault
    Refusal :=
  perform dt s (fun d => afterCommand (jtpOn (reportSend session kind count) d))

/-- MTX_TAIL_WRITE (R118). MTX_TAIL. -/
def execMtxTailWrite (dt : Nat) (tail : Word) (s : State) : Host.Outcome State Fault Refusal :=
  perform dt s (fun d => afterCommand (registerWrite R.MTX_TAIL tail.toNat d))

/-- KEY_LOAD (R120). JTP_KEY_SEL with LOAD, written by `master`. -/
def execKeyLoad (dt : Nat) (master : Fin 48) (session : Fin 16) (slot : Fin 2) (s : State) : Host.Outcome State
    Fault Refusal :=
  perform dt s (fun d => afterCommand (busWrite master R.JTP_KEY_SEL (session + 16 * slot + 32) d))

/-- SESSION_ENABLE (R121). SESS_CFG.EN set, the other fields kept. -/
def execSessionEnable (dt : Nat) (session : Fin 16) (s : State) : Host.Outcome State Fault Refusal :=
  perform dt s (fun d => afterCommand (sessEnable session d))

/-- SESSION_DISABLE (R121). SESS_CFG.EN cleared, the other fields kept. -/
def execSessionDisable (dt : Nat) (session : Fin 16) (s : State) : Host.Outcome State Fault Refusal :=
  perform dt s (fun d => afterCommand (sessDisable session d))

end Sys2Proof.Machine
end

