-- ==== Sys2Proof/Machine/MemoryCommands.lean ====
section
/-! DEFINITION. The commands of the bus, memory and Shroud (chapters 14, 16, 19): each is its unit's operation, performed at its instant. -/
namespace Sys2Proof.Machine

/-- BUS_TRANSACTION (R371). `kind` 0 read, 1 write, 2 fetch, of `size` bytes; `data` is what a write stores, its first
byte least significant. -/
def execBusTransaction (dt : Nat) (master : Fin 48) (kind : Fin 3) (addr size data : Nat) (s : State) : Host.Outcome
    State Fault Refusal :=
  perform dt s (fun d => afterCommand (busTransaction master kind addr size data d))

/-- MEMORY_READ_COMPLETE (R335). The stored word, its check bits and address hash, and what a second read gives. -/
def execMemoryReadComplete (dt : Nat) (cls : Fin 15) (master : Fin 48) (addr word check hash word2 check2 hash2 :
    Nat) (s : State) : Host.Outcome State Fault Refusal :=
  perform dt s (fun d => afterCommand (memoryReadComplete cls master addr word check hash word2 check2 hash2 d))

/-- DRAM_REFRESH (R327). `delay` is the read delay that a tracking window finds. -/
def execDramRefresh (dt delay : Nat) (s : State) : Host.Outcome State Fault Refusal :=
  perform dt s (fun d => afterCommand (dramRefresh delay d))

/-- DRAM_RATE_POLL (R327). `hot` says that some rank runs above nominal. -/
def execDramRatePoll (dt : Nat) (hot : Bool) (s : State) : Host.Outcome State Fault Refusal :=
  perform dt s (fun d => afterCommand (dramRatePoll hot d))

/-- DRAM_TRAIN (R328). DPHY_CTL.TRAIN. -/
def execDramTrain (dt : Nat) (s : State) : Host.Outcome State Fault Refusal :=
  perform dt s (fun d => afterCommand (dramTrain d))

/-- DRAM_TRAIN_DONE (R328). The stage and lane that failed, if any, and the eye of every lane. -/
def execDramTrainDone (dt : Nat) (fail : Option (Nat × Nat)) (eyes : List Word) (s : State) : Host.Outcome State
    Fault Refusal :=
  perform dt s (fun d => afterCommand (dramTrainDone fail eyes d))

/-- DRAM_TRACK (R329). The measured drift of the rank, UI/64. -/
def execDramTrack (dt : Nat) (rank : Fin 2) (delta : Int) (s : State) : Host.Outcome State Fault Refusal :=
  perform dt s (fun d => afterCommand (dramTrack rank delta d))

/-- DRAM_FCHG (R330). DRAMC_FCHG.GO with TARGET `target`. -/
def execDramFchg (dt target : Nat) (s : State) : Host.Outcome State Fault Refusal :=
  perform dt s (fun d => afterCommand (dramFchg (target % 8) d))

/-- DRAM_FCHG_DONE (R330). As DRAM_TRAIN_DONE, where the new rate had no stored results. -/
def execDramFchgDone (dt : Nat) (fail : Option (Nat × Nat)) (eyes : List Word) (s : State) : Host.Outcome State
    Fault Refusal :=
  perform dt s (fun d => afterCommand (jtpWork (heldRelease (stalledRun (dramFchgDone fail eyes d)))))

/-- DRAM_POWER_DOWN (R331). PD_IDLE has passed. -/
def execDramPowerDown (dt : Nat) (rank : Fin 2) (s : State) : Host.Outcome State Fault Refusal :=
  perform dt s (fun d => afterCommand (dramPowerDown rank d))

/-- RH_WINDOW_RENEW (R333). 32 ms have passed. -/
def execRhWindowRenew (dt : Nat) (s : State) : Host.Outcome State Fault Refusal :=
  perform dt s (fun d => afterCommand (rhWindowRenew d))

/-- DRAM_SCRUB (R337). The scrubber's period has passed. -/
def execDramScrub (dt : Nat) (s : State) : Host.Outcome State Fault Refusal :=
  perform dt s (fun d => afterCommand (dramScrub d))

/-- ECC_LEAK (R340). LEAK ms have passed. -/
def execEccLeak (dt : Nat) (cls : Fin 15) (s : State) : Host.Outcome State Fault Refusal :=
  perform dt s (fun d => afterCommand (eccLeak cls d))

/-- REMAP_INSTALL (R341). REMAP_CTL.INSTALL. -/
def execRemapInstall (dt : Nat) (s : State) : Host.Outcome State Fault Refusal :=
  perform dt s (fun d => afterCommand (remapInstall d))

/-- REMAP_REMOVE (R341). REMAP_CTL.REMOVE. -/
def execRemapRemove (dt : Nat) (s : State) : Host.Outcome State Fault Refusal :=
  perform dt s (fun d => afterCommand (remapRemove d))

/-- REMAP_AUTO_INSTALL (R342). The class and index of the failing word. -/
def execRemapAutoInstall (dt : Nat) (cls : Fin 15) (index : Nat) (s : State) : Host.Outcome State Fault Refusal :=
  perform dt s (fun d => afterCommand (remapAutoInstall cls index d))

/-- SHROUD_ENABLE (R373). SHROUD_CFG.EN, written by `master`. -/
def execShroudEnable (dt : Nat) (master : Fin 48) (s : State) : Host.Outcome State Fault Refusal :=
  perform dt s (fun d => afterCommand (busWrite master R.SHROUD_CFG 1 d))

/-- SHROUD_APPLY (R374). SHROUD_RCTL.APPLY, written by `master`. -/
def execShroudApply (dt : Nat) (master : Fin 48) (s : State) : Host.Outcome State Fault Refusal :=
  perform dt s (fun d => afterCommand (busWrite master R.SHROUD_RCTL 1 d))

/-- SHROUD_READ (R374). SHROUD_RCTL.READ, written by `master`. -/
def execShroudRead (dt : Nat) (master : Fin 48) (s : State) : Host.Outcome State Fault Refusal :=
  perform dt s (fun d => afterCommand (busWrite master R.SHROUD_RCTL 2 d))

/-- SHROUD_RELEASE (R378). SHROUD_RELEASE[released], written by `master`. -/
def execShroudRelease (dt : Nat) (master released : Fin 48) (s : State) : Host.Outcome State Fault Refusal :=
  perform dt s (fun d => afterCommand (busWrite master (R.SHROUD_RELEASE released) 1 d))

/-- SHROUD_RELEASE_RESET (R378). SHROUD_RELEASE[released] with RESET, written by `master`. -/
def execShroudReleaseReset (dt : Nat) (master released : Fin 48) (s : State) : Host.Outcome State Fault Refusal :=
  perform dt s (fun d => afterCommand (busWrite master (R.SHROUD_RELEASE released) 3 d))

/-- REGISTER_WRITE (R5). A 32-bit write by `master` at byte offset `addr` of the register window. -/
def execRegisterWrite (dt : Nat) (master : Fin 48) (addr : Nat) (value : Word) (s : State) : Host.Outcome State
    Fault Refusal :=
  perform dt s (fun d => afterCommand (busWrite master addr value.toNat d))

end Sys2Proof.Machine
end

