-- ==== Sys2Proof/Machine/MotionCommands.lean ====
section
/-! DEFINITION. The commands of loops, converters, pins and axes (chapter 13): each is its unit's operation, performed at its instant. -/
namespace Sys2Proof.Machine

/-- ADC_CONVERSION (R297). The 12-bit code of the next enabled channel. -/
def execAdcConversion (dt code : Nat) (s : State) : Host.Outcome State Fault Refusal :=
  perform dt s (fun d => afterCommand (adcConvert code d))

/-- FIN_EDGE (R299). A rising edge on FIN[input]. -/
def execFinEdge (dt : Nat) (input : Fin 4) (s : State) : Host.Outcome State Fault Refusal :=
  perform dt s (fun d => afterCommand (finEdge input d))

/-- LOOP_RST (R302). LOOP_CTL.RST with the mask `loops`. -/
def execLoopRst (dt : Nat) (loops : Word) (s : State) : Host.Outcome State Fault Refusal :=
  perform dt s (fun d => afterCommand (loopRst loops.toNat d))

/-- PWM_PERIOD_START (R308). A period of PWM[out] starts. -/
def execPwmPeriodStart (dt : Nat) (out : Fin 24) (s : State) : Host.Outcome State Fault Refusal :=
  perform dt s (fun d => afterCommand (pwmPeriodStart out d))

/-- GPIO_OUT_WRITE (R310). GPIO_OUT. -/
def execGpioOutWrite (dt : Nat) (value : Word) (s : State) : Host.Outcome State Fault Refusal :=
  perform dt s (fun d => afterCommand (gpioOutWrite value.toNat d))

/-- GPIO_SET (R310). GPIO_SET. -/
def execGpioSet (dt : Nat) (value : Word) (s : State) : Host.Outcome State Fault Refusal :=
  perform dt s (fun d => afterCommand (gpioSet value.toNat d))

/-- GPIO_CLR (R310). GPIO_CLR. -/
def execGpioClr (dt : Nat) (value : Word) (s : State) : Host.Outcome State Fault Refusal :=
  perform dt s (fun d => afterCommand (gpioClr value.toNat d))

/-- GPIO_EDGE (R311). The pin's accepted level becomes `level`. -/
def execGpioEdge (dt : Nat) (pin : Fin 16) (level : Bool) (s : State) : Host.Outcome State Fault Refusal :=
  perform dt s (fun d => afterCommand (gpioEdge pin level d))

/-- STP_MOVE (R313). STP_CMD.MOVE with REL `rel`. -/
def execStpMove (dt : Nat) (axis : Fin 8) (rel : Bool) (s : State) : Host.Outcome State Fault Refusal :=
  perform dt s (fun d => afterCommand (stpMove axis rel d))

/-- STP_STOP (R315). STP_CMD.STOP. -/
def execStpStop (dt : Nat) (axis : Fin 8) (s : State) : Host.Outcome State Fault Refusal :=
  perform dt s (fun d => afterCommand (stpStop axis d))

/-- STP_HOME (R317). STP_CMD.HOME. -/
def execStpHome (dt : Nat) (axis : Fin 8) (s : State) : Host.Outcome State Fault Refusal :=
  perform dt s (fun d => afterCommand (stpHome axis d))

/-- STP_SET_POS (R315). STP_CMD.SET_POS. -/
def execStpSetPos (dt : Nat) (axis : Fin 8) (s : State) : Host.Outcome State Fault Refusal :=
  perform dt s (fun d => afterCommand (stpSetPos axis d))

/-- STP_CLR_FAULT (R316). STP_CMD.CLR_FAULT. -/
def execStpClrFault (dt : Nat) (axis : Fin 8) (s : State) : Host.Outcome State Fault Refusal :=
  perform dt s (fun d => afterCommand (stpClrFault axis d))

/-- STP_DISABLE (R312). STP_CFG.EN cleared, the other fields kept. -/
def execStpDisable (dt : Nat) (axis : Fin 8) (s : State) : Host.Outcome State Fault Refusal :=
  perform dt s (fun d => afterCommand (stpDisable axis d))

/-- STEP_PULSE (R314). The axis timer expires. -/
def execStepPulse (dt : Nat) (axis : Fin 8) (s : State) : Host.Outcome State Fault Refusal :=
  perform dt s (fun d => afterCommand (stepPulse axis d))

/-- STALL_INPUT (R316). STALL[axis] has held its active level for 1 µs. -/
def execStallInput (dt : Nat) (axis : Fin 8) (s : State) : Host.Outcome State Fault Refusal :=
  perform dt s (fun d => afterCommand (stallInput axis d))

end Sys2Proof.Machine
end

