-- ==== Sys2Proof/Machine/NetworkCommands.lean ====
section
/-! DEFINITION. The commands of time, Ethernet and path (chapters 04, 05): each is its unit's operation, performed at its instant. -/
namespace Sys2Proof.Machine

/-- PTP_MESSAGE_RX (R69). The PTP message, from its first header byte. -/
def execPtpMessageRx (dt : Nat) (port : Fin 2) (msg : List Byte) (s : State) : Host.Outcome State Fault Refusal :=
  perform dt s (fun d => afterCommand (ptpRx none port msg d))

/-- PTP_MESSAGE_TX (R69). `typ` 0 Sync, 1 Delay_Req, 2 Pdelay_Req. -/
def execPtpMessageTx (dt : Nat) (dom : Fin 2) (typ : Fin 3) (s : State) : Host.Outcome State Fault Refusal :=
  perform dt s (fun d => afterCommand (ptpTx dom typ d))

/-- TIME_SET (R67). TIME_CTL.SET. -/
def execTimeSet (dt : Nat) (s : State) : Host.Outcome State Fault Refusal :=
  perform dt s (fun d => afterCommand (timeSet d))

/-- TIME_ACT_DOM_WRITE (R71). TIME_CTL.ACT_DOM. -/
def execTimeActDomWrite (dt : Nat) (dom : Fin 2) (s : State) : Host.Outcome State Fault Refusal :=
  perform dt s (fun d => afterCommand (timeActDom dom d))

/-- DOMAIN_LOST (R70). LOSS_N Sync intervals have passed. -/
def execDomainLost (dt : Nat) (dom : Fin 2) (s : State) : Host.Outcome State Fault Refusal :=
  perform dt s (fun d => afterCommand (domainLost dom d))

/-- TSQ_DATA0_READ (R77). The value read is the bus answer. -/
def execTsqData0Read (dt : Nat) (s : State) : Host.Outcome State Fault Refusal :=
  perform dt s (fun d => afterCommand (tsqDataRead d))

/-- TPULSE_EDGE (R83). An instant of TPULSE[out]'s schedule. -/
def execTpulseEdge (dt : Nat) (out : Fin 8) (s : State) : Host.Outcome State Fault Refusal :=
  perform dt s (fun d => afterCommand (tpulseEdge out d))

/-- ETH_RX_FRAME (R89). `fecUnc` uncorrectable codewords preceded the frame; `frame` is without preamble and FCS. -/
def execEthRxFrame (dt : Nat) (port : Fin 2) (fecUnc : Nat) (fcsOk : Bool) (frame : List Byte) (s : State) :
    Host.Outcome State Fault Refusal :=
  perform dt s (fun d => afterCommand (ethArrive port fecUnc fcsOk frame d))

/-- ETH_LINK_CHANGE (R90). The port's receive state from now on. -/
def execEthLinkChange (dt : Nat) (port : Fin 2) (lock localFault remoteFault fec : Bool) (s : State) : Host.Outcome
    State Fault Refusal :=
  perform dt s (fun d => afterCommand (ethLinkChange port lock localFault remoteFault fec d))

/-- STBY_DUP_TIMEOUT (R91). DUP_TMO has passed. -/
def execStbyDupTimeout (dt : Nat) (s : State) : Host.Outcome State Fault Refusal :=
  perform dt s (fun d => afterCommand (dupTimeout d))

/-- SNAPSHOT_COMPLETE (R95). The snapshot under way is whole. -/
def execSnapshotComplete (arrival : SnapArrival) (s : State) : Host.Outcome State Fault Refusal :=
  perform arrival.dt s (fun d => afterCommand (snapshotComplete arrival.sound d))

/-- PATH_ENGINE_FAULT (R98). `island` says that the power island reports it. -/
def execPathEngineFault (dt : Nat) (island : Bool) (s : State) : Host.Outcome State Fault Refusal :=
  perform dt s (fun d => afterCommand (engineFault island d))

/-- PATH_SWITCH_CMD (R98). PATH_CMD.SWITCH. -/
def execPathSwitchCmd (dt : Nat) (s : State) : Host.Outcome State Fault Refusal :=
  perform dt s (fun d => afterCommand (pathCmd 1 d))

/-- PATH_DRILL_TIMER (R101). T_DRILL has passed. -/
def execPathDrillTimer (dt : Nat) (s : State) : Host.Outcome State Fault Refusal :=
  perform dt s (fun d => afterCommand (drillTimer d))

/-- PATH_DRILL_NOW (R101). PATH_CMD.DRILL_NOW. -/
def execPathDrillNow (dt : Nat) (s : State) : Host.Outcome State Fault Refusal :=
  perform dt s (fun d => afterCommand (pathCmd 2 d))

/-- DRILL_POST_TIMEOUT (R103). POST_TMO beats have passed. -/
def execDrillPostTimeout (dt : Nat) (s : State) : Host.Outcome State Fault Refusal :=
  perform dt s (fun d => afterCommand (drillPostTimeout d))

/-- TXR_TAIL_WRITE (R104). TXR_TAIL. -/
def execTxrTailWrite (dt : Nat) (tail : Word) (s : State) : Host.Outcome State Fault Refusal :=
  perform dt s (fun d => afterCommand (registerWrite R.TXR_TAIL tail.toNat d))

/-- ETH_TX_FRAME (R81). The port's transmitter is free. -/
def execEthTxFrame (dt : Nat) (port : Fin 2) (s : State) : Host.Outcome State Fault Refusal :=
  perform dt s (fun d => afterCommand (ethTxFrame port d))

/-- ETH_TX_DONE (R104). The frame's last symbol has gone. -/
def execEthTxDone (dt : Nat) (port : Fin 2) (s : State) : Host.Outcome State Fault Refusal :=
  perform dt s (fun d => afterCommand (ethTxDone port d))

end Sys2Proof.Machine
end

