-- ==== Sys2Proof/Machine/PositionCommands.lean ====
section
/-! DEFINITION. The commands of web position (chapter 03): each is its unit's operation, performed at its instant. -/
namespace Sys2Proof.Machine

/-- ENC_SAMPLE (R37). `sin` and `cos` are the ADC codes of a sin/cos input; `ref` are the 200 MHz samples
of its REF since the conversion before, oldest first. -/
def execEncSample (dt : Nat) (unit : Fin 2) (sin cos : Nat) (ref : List Bool) (s : State) : Host.Outcome State Fault
    Refusal :=
  perform dt s (fun d => afterCommand (camsFollow (encSample unit sin cos ref (vencRun d))))

/-- QD_TRANSITION (R40). Levels of A, B and Z of QD[input] after the change. -/
def execQdTransition (dt : Nat) (input : Fin 4) (a b z : Bool) (s : State) : Host.Outcome State Fault Refusal :=
  perform dt s (fun d => afterCommand (qdInput input a b z (vencRun d)))

/-- ENC_ARM (R44). ENC_CTL.ARM. -/
def execEncArm (dt : Nat) (unit : Fin 2) (s : State) : Host.Outcome State Fault Refusal :=
  perform dt s (fun d => afterCommand (encArm unit d))

/-- ENC_CLR_FAULT (R43). ENC_CTL.CLR_FAULT. -/
def execEncClrFault (dt : Nat) (unit : Fin 2) (s : State) : Host.Outcome State Fault Refusal :=
  perform dt s (fun d => afterCommand (encClrFault unit d))

/-- ENC_LOAD (R45). ENC_CTL.LOAD. -/
def execEncLoad (dt : Nat) (unit : Fin 2) (s : State) : Host.Outcome State Fault Refusal :=
  perform dt s (fun d => afterCommand (encLoad unit d))

/-- LEV_RESTORE (R57). LEV_CTL.RESTORE with the mask `planes`. -/
def execLevRestore (dt planes : Nat) (s : State) : Host.Outcome State Fault Refusal :=
  perform dt s (fun d => afterCommand (levRestore (planes % 256) d))

/-- VENC_SAMPLE_RX (R61). The 32 bytes of a published sample, by either route. -/
def execVencSampleRx (dt : Nat) (sample : List Byte) (s : State) : Host.Outcome State Fault Refusal :=
  perform dt s (fun d => afterCommand (camsFollow (vencAccept sample (vencRun d))))

/-- VENC_LOST (R61). TMO beats have passed. -/
def execVencLost (dt : Nat) (s : State) : Host.Outcome State Fault Refusal :=
  perform dt s (fun d => afterCommand (vencLost (vencRun d)))

end Sys2Proof.Machine
end

