-- ==== Sys2Proof/Machine/PrintCommands.lean ====
section
/-! DEFINITION. The commands of beats, commits, the plan and the print path (chapters 02, 09, 10): each is its unit's operation, performed at its instant. -/
namespace Sys2Proof.Machine

/-- BEAT_BOUNDARY (R17). `unit` is the code of R26 of a unit that had not completed the last beat's work for the
planes of the mask `planes`, or 0. -/
def execBeatBoundary (dt unit planes : Nat) (s : State) : Host.Outcome State Fault Refusal :=
  perform dt s (fun d => afterCommand (beatBoundary unit planes d))

/-- COMMIT_CANCEL (R28). PG_COMMIT of `page` with MODE 0. -/
def execCommitCancel (dt : Nat) (page : Fin 128) (s : State) : Host.Outcome State Fault Refusal :=
  perform dt s (fun d => afterCommand (pgCommitWrite page 0 0 d))

/-- COMMIT_IMMEDIATE (R28). PG_COMMIT of `page` with MODE 1. -/
def execCommitImmediate (dt : Nat) (page : Fin 128) (s : State) : Host.Outcome State Fault Refusal :=
  perform dt s (fun d => afterCommand (pgCommitWrite page 1 0 d))

/-- COMMIT_NEXT_BEAT (R28). PG_COMMIT of `page` with MODE 2. -/
def execCommitNextBeat (dt : Nat) (page : Fin 128) (s : State) : Host.Outcome State Fault Refusal :=
  perform dt s (fun d => afterCommand (pgCommitWrite page 2 0 d))

/-- COMMIT_AT_EPOCH (R30). PG_COMMIT of `page` with MODE 3 and TARGET `target`. -/
def execCommitAtEpoch (dt : Nat) (page : Fin 128) (target : Nat) (s : State) : Host.Outcome State Fault Refusal :=
  perform dt s (fun d => afterCommand (pgCommitWrite page 3 target d))

/-- PLAN_CHECK_DONE (R24). The checker's time is over. -/
def execPlanCheckDone (dt : Nat) (s : State) : Host.Outcome State Fault Refusal :=
  perform dt s (fun d => afterCommand (planChecked d))

/-- PLAN_STOP_EPOCH (R34). PLAN_STOP with MODE 1. -/
def execPlanStopEpoch (dt : Nat) (s : State) : Host.Outcome State Fault Refusal :=
  perform dt s (fun d => afterCommand (planStopWrite 1 d))

/-- PLAN_STOP_LINE (R34). PLAN_STOP with MODE 2. -/
def execPlanStopLine (dt : Nat) (s : State) : Host.Outcome State Fault Refusal :=
  perform dt s (fun d => afterCommand (planStopWrite 2 d))

/-- PLAN_END (R34). Effective once every plane has ended. -/
def execPlanEnd (dt : Nat) (s : State) : Host.Outcome State Fault Refusal :=
  perform dt s (fun d => afterCommand (planEnd d))

/-- FIRE_FRAME_LAUNCH (R215). `delays` gives for each bound port of the plane, ascending, how long after its instant
the frame started, ps. -/
def execFireFrameLaunch (dt : Nat) (plane : Fin 8) (delays : List Nat) (s : State) : Host.Outcome State Fault
    Refusal :=
  perform dt s (fun d => afterCommand (fireLaunch plane delays d))

/-- FIRE_STROBE (R217). The port's oldest requested strobe. -/
def execFireStrobe (dt : Nat) (port : Fin 32) (s : State) : Host.Outcome State Fault Refusal :=
  perform dt s (fun d => afterCommand (fireStrobe port d))

/-- NOZ_SH_LO_WRITE (R188). NOZ_SH_LO. -/
def execNozShLoWrite (dt : Nat) (value : Word) (s : State) : Host.Outcome State Fault Refusal :=
  perform dt s (fun d => afterCommand (registerWrite R.NOZ_SH_LO value.toNat d))

/-- NOZ_WEAR_LO_WRITE (R189). NOZ_WEAR_LO. -/
def execNozWearLoWrite (dt : Nat) (value : Word) (s : State) : Host.Outcome State Fault Refusal :=
  perform dt s (fun d => afterCommand (registerWrite R.NOZ_WEAR_LO value.toNat d))

/-- PLOG_SENT_WRITE (R209). PLOG_SENT. -/
def execPlogSentWrite (dt : Nat) (value : Word) (s : State) : Host.Outcome State Fault Refusal :=
  perform dt s (fun d => afterCommand (registerWrite R.PLOG_SENT value.toNat d))

/-- PLOG_RING_REWRITE (R209). `reg` 0 PLOG_BASE_LO, 1 PLOG_BASE_HI, 2 PLOG_SIZE. -/
def execPlogRingRewrite (dt : Nat) (reg : Fin 3) (value : Word) (s : State) : Host.Outcome State Fault Refusal :=
  perform dt s (fun d => afterCommand (registerWrite (R.PLOG_BASE_LO + 4 * reg) value.toNat d))

end Sys2Proof.Machine
end

