-- ==== Sys2Proof/Machine/StoreCommands.lean ====
section
/-! DEFINITION. The commands of the compressor and the job store (chapters 07, 08): each is its unit's operation, performed at its instant. -/
namespace Sys2Proof.Machine

/-- COMPRESSOR_START (R154). CMP_CMD.START with SRC `tap`. -/
def execCompressorStart (dt : Nat) (tap : Bool) (s : State) : Host.Outcome State Fault Refusal :=
  perform dt s (fun d => afterCommand (compressorStart tap d))

/-- COMPRESSOR_ABORT (R158). CMP_CMD.ABORT. -/
def execCompressorAbort (dt : Nat) (s : State) : Host.Outcome State Fault Refusal :=
  perform dt s (fun d => afterCommand (compressorAbort d))

/-- COMPRESSOR_LINE_DONE (R156). What the input queue holds as each segment of a DRAM line is taken, bytes; the segments whose
verification failed; and whether a RAW rewrite failed too. -/
def execCompressorLineDone (dt : Nat) (fills bad : List Nat) (rawBad : Bool) (s : State) : Host.Outcome State
    Fault Refusal :=
  perform dt s (fun d => afterCommand (compressorLineDone fills bad rawBad d))

/-- CMP_DESC_TAIL_WRITE (R158). CMP_DESC_TAIL. -/
def execCmpDescTailWrite (dt : Nat) (tail : Word) (s : State) : Host.Outcome State Fault Refusal :=
  perform dt s (fun d => afterCommand (registerWrite R.CMP_DESC_TAIL tail.toNat d))

/-- STORE_STREAM_RESET (R163). STORE_CTL.RESET. -/
def execStoreStreamReset (dt : Nat) (s : State) : Host.Outcome State Fault Refusal :=
  perform dt s (fun d => afterCommand (storeStreamReset d))

/-- STORE_STREAM_REWIND (R176). STORE_CTL.REWIND. -/
def execStoreStreamRewind (dt : Nat) (s : State) : Host.Outcome State Fault Refusal :=
  perform dt s (fun d => afterCommand (storeStreamRewind d))

/-- STORE_REISSUE (R177). STORE_CTL.REISSUE with the mask `planes`. -/
def execStoreReissue (dt planes : Nat) (s : State) : Host.Outcome State Fault Refusal :=
  perform dt s (fun d => afterCommand (storeReissue (planes % 256) d))

/-- STORE_SEAM (R177). STORE_CTL.SEAM with the mask `planes`. -/
def execStoreSeam (dt planes : Nat) (s : State) : Host.Outcome State Fault Refusal :=
  perform dt s (fun d => afterCommand (storeSeam (planes % 256) d))

/-- STORE_SEAM_CLR (R177). STORE_CTL.SEAM_CLR with the mask `planes`. -/
def execStoreSeamClr (dt planes : Nat) (s : State) : Host.Outcome State Fault Refusal :=
  perform dt s (fun d => afterCommand (storeSeamClr (planes % 256) d))

end Sys2Proof.Machine
end

