-- ==== Sys2Proof/Machine/SystemCommands.lean ====
section
/-! DEFINITION. The commands of trim, wear, power, clocks, reset and boot (chapters 17, 18): each is its unit's operation, performed at its instant. -/
namespace Sys2Proof.Machine

/-- TAPCAL_WINDOW (R384). The delay measured for the port's next tap, ps. -/
def execTapcalWindow (dt : Nat) (port : Fin 32) (delay : Nat) (s : State) : Host.Outcome State Fault Refusal :=
  perform dt s (fun d => afterCommand (tapcalWindow port delay d))

/-- ENC_PAIR_SWAP (R386). The mean differences of the incoming pair, 1/16 code. -/
def execEncPairSwap (dt : Nat) (input : Fin 2) (meanSin meanCos : Int) (s : State) : Host.Outcome State Fault
    Refusal :=
  perform dt s (fun d => afterCommand (encPairSwap input meanSin meanCos d))

/-- ADC_BANK_CAL (R387). ADC_CAL_S has passed. -/
def execAdcBankCal (dt : Nat) (s : State) : Host.Outcome State Fault Refusal :=
  perform dt s (fun d => afterCommand (adcBankCal d))

/-- ADC_CAL_CMD (R388). TRIM_CTL.ADC_CAL. -/
def execAdcCalCmd (dt : Nat) (s : State) : Host.Outcome State Fault Refusal :=
  perform dt s (fun d => afterCommand (adcCalCmd d))

/-- ADC_BANK_CAL_DONE (R387). The calibration is over. -/
def execAdcBankCalDone (dt : Nat) (s : State) : Host.Outcome State Fault Refusal :=
  perform dt s (fun d => afterCommand (adcBankCalDone d))

/-- TJ_SENSOR_CAL (R387). One second has passed. -/
def execTjSensorCal (dt : Nat) (s : State) : Host.Outcome State Fault Refusal :=
  perform dt s (fun d => afterCommand (tjSensorCal d))

/-- SUPPLY_CONV_CAL (R387). 10 s have passed. -/
def execSupplyConvCal (dt : Nat) (s : State) : Host.Outcome State Fault Refusal :=
  perform dt s (fun d => afterCommand (supplyConvCal d))

/-- WEAR_SNAP (R392). WEAR_CTL.SNAP. -/
def execWearSnap (dt : Nat) (s : State) : Host.Outcome State Fault Refusal :=
  perform dt s (fun d => afterCommand (wearSnap d))

/-- WEAR_RESTORE (R392). WEAR_CTL.RESTORE. -/
def execWearRestore (dt : Nat) (s : State) : Host.Outcome State Fault Refusal :=
  perform dt s (fun d => afterCommand (wearRestore d))

/-- WEAR_COPY_DONE (R392). The copy is complete. -/
def execWearCopyDone (dt : Nat) (s : State) : Host.Outcome State Fault Refusal :=
  perform dt s (fun d => afterCommand (wearCopyDone d))

/-- WEAR_EVALUATION (R393). The 24 monitor readings, ppm. -/
def execWearEvaluation (dt : Nat) (monitors : List Nat) (s : State) : Host.Outcome State Fault Refusal :=
  perform dt s (fun d => afterCommand (wearEvaluation monitors d))

/-- AGEING_TICK (R395). A powered second has passed. -/
def execAgeingTick (dt : Nat) (s : State) : Host.Outcome State Fault Refusal :=
  performAny dt s (fun d => ageingTick d)

/-- REEF_ENTER (R404). 0 VDD_CORE, 1 VDD_IO33. -/
def execReefEnter (dt : Nat) (rail : Fin 2) (s : State) : Host.Outcome State Fault Refusal :=
  perform dt s (fun d => afterCommand (reefEnter rail d))

/-- REEF_RECOVER (R405). The rail has been above warning plus hysteresis for 2 µs. -/
def execReefRecover (dt : Nat) (rail : Fin 2) (s : State) : Host.Outcome State Fault Refusal :=
  perform dt s (fun d => afterCommand (reefRecover rail d))

/-- REEF_HOLD_EXCEEDED (R406). T_HOLD has passed. -/
def execReefHoldExceeded (dt : Nat) (rail : Fin 2) (s : State) : Host.Outcome State Fault Refusal :=
  perform dt s (fun d => afterCommand (reefHoldExceeded rail d))

/-- RAIL_RESET (R407). The rail is below its reset level. -/
def execRailReset (dt : Nat) (rail : Fin 2) (s : State) : Host.Outcome State Fault Refusal :=
  perform dt s (fun d => afterCommand (railReset rail d))

/-- VBAT_POR (R408). VBAT rises. -/
def execVbatPor (dt : Nat) (s : State) : Host.Outcome State Fault Refusal :=
  performAny dt s (fun d => vbatPor d)

/-- POR_RELEASE (R402). The release conditions of R402 hold. -/
def execPorRelease (dt : Nat) (s : State) : Host.Outcome State Fault Refusal :=
  performAny dt s (fun d => porRelease d)

/-- RESET_PIN (R447). RESET_N has been low for 1 µs. -/
def execResetPin (dt : Nat) (s : State) : Host.Outcome State Fault Refusal :=
  perform dt s (fun d => afterCommand (resetPin d))

/-- SYS_SOFT_RESET (R408). SYS_CTL.SRST, written by `master`. -/
def execSysSoftReset (dt : Nat) (master : Fin 48) (s : State) : Host.Outcome State Fault Refusal :=
  perform dt s (fun d => afterCommand (busWrite master R.SYS_CTL 1 d))

/-- BLOCK_RESET (R409). SYS_BRST with GO, written by `master`. -/
def execBlockReset (dt : Nat) (master : Fin 48) (page : Fin 256) (s : State) : Host.Outcome State Fault Refusal :=
  perform dt s (fun d => afterCommand (busWrite master R.SYS_BRST (page + 256) d))

/-- REF_LOSS (R400). REFIN is lost. -/
def execRefLoss (dt : Nat) (s : State) : Host.Outcome State Fault Refusal :=
  perform dt s (fun d => afterCommand (refLoss d))

/-- REF_RESTORE (R400). REFIN has been valid for 1 ms. -/
def execRefRestore (dt : Nat) (s : State) : Host.Outcome State Fault Refusal :=
  perform dt s (fun d => afterCommand (refRestore d))

/-- PLL_UNLOCK (R400). 0 P, 1 M, 2 T, 3 D; `locked` says that it locks again. -/
def execPllUnlock (dt : Nat) (pll : Fin 4) (locked : Bool) (s : State) : Host.Outcome State Fault Refusal :=
  perform dt s (fun d => afterCommand (pllUnlock pll locked d))

/-- PLL_RELOCK_TIMEOUT (R400). 100 µs have passed. -/
def execPllRelockTimeout (dt : Nat) (pll : Fin 4) (s : State) : Host.Outcome State Fault Refusal :=
  perform dt s (fun d => afterCommand (pllRelockTimeout pll d))

/-- CLK_MZ_WRITE (R401). CLK_MZ. -/
def execClkMzWrite (dt : Nat) (value : Word) (s : State) : Host.Outcome State Fault Refusal :=
  perform dt s (fun d => afterCommand (registerWrite R.CLK_MZ value.toNat d))

/-- PWR_OE_WRITE (R412). PWR_OE. -/
def execPwrOeWrite (dt : Nat) (value : Word) (s : State) : Host.Outcome State Fault Refusal :=
  perform dt s (fun d => afterCommand (registerWrite R.PWR_OE value.toNat d))

/-- STANDBY_ENTER (R415). PWR_SLEEP.SLEEP. -/
def execStandbyEnter (dt : Nat) (s : State) : Host.Outcome State Fault Refusal :=
  perform dt s (fun d => afterCommand (standbyEnter d))

/-- PWR_EN_LOW (R415). 100 µs have passed. -/
def execPwrEnLow (dt : Nat) (s : State) : Host.Outcome State Fault Refusal :=
  perform dt s (fun d => afterCommand (pwrEnLow d))

/-- WAKE_TIMER_EXPIRY (R415). TICKS ticks have passed. -/
def execWakeTimerExpiry (dt : Nat) (s : State) : Host.Outcome State Fault Refusal :=
  performAny dt s (fun d => wakeTimerExpiry d)

/-- BOOT_JUMP (R419). What the flash slots hold. -/
def execBootJump (dt : Nat) (slotA slotB : List Byte) (s : State) : Host.Outcome State Fault Refusal :=
  perform dt s (fun d => afterCommand (bootJump slotA slotB d))

/-- BOOT_WATCHDOG_EXPIRY (R419). 1 s has passed. -/
def execBootWatchdogExpiry (dt : Nat) (s : State) : Host.Outcome State Fault Refusal :=
  perform dt s (fun d => afterCommand (bootWatchdogExpiry d))

/-- ROLLBACK_ADVANCE (R420). BOOT_RBK with ADV, written by `master`. -/
def execRollbackAdvance (dt : Nat) (master : Fin 48) (target : Fin 128) (s : State) : Host.Outcome State Fault
    Refusal :=
  perform dt s (fun d => afterCommand (busWrite master R.BOOT_RBK (target + 128) d))

/-- BOOT_VERIFY (R421). BOOT_VERIFY.GO, written by `master`. -/
def execBootVerify (dt : Nat) (master : Fin 48) (s : State) : Host.Outcome State Fault Refusal :=
  perform dt s (fun d => afterCommand (busWrite master R.BOOT_VERIFY 1 d))

/-- BOOT_VERIFY_DONE (R421). The verification is over. -/
def execBootVerifyDone (dt : Nat) (s : State) : Host.Outcome State Fault Refusal :=
  perform dt s (fun d => afterCommand (bootVerifyDone d))

/-- TJ_SENSOR_CAL_DONE (R387). The sensor's fresh value, 1/16 °C. -/
def execTjSensorCalDone (dt value : Nat) (s : State) : Host.Outcome State Fault Refusal :=
  perform dt s (fun d => afterCommand (tjSensorCalDone value d))

/-- SUPPLY_CONV_CAL_DONE (R387). The ten fresh readings. -/
def execSupplyConvCalDone (dt : Nat) (millivolts : List Nat) (s : State) : Host.Outcome State Fault Refusal :=
  perform dt s (fun d => afterCommand (supplyConvCalDone millivolts d))

/-- SYS_RESET_RELEASE (R407). The supervised rail has been good for 1 ms. -/
def execSysResetRelease (dt : Nat) (s : State) : Host.Outcome State Fault Refusal :=
  performAny dt s (fun d => sysResetRelease d)

end Sys2Proof.Machine
end

