-- ==== Sys2Proof/Machine/Dispatch.lean ====
section
/-! DEFINITION. One arm per command: each calls its meaning. -/
namespace Sys2Proof.Machine

def exec (i : Instr) (s : State) : Host.Outcome State Fault Refusal :=
  match i with
  | .beatBoundary dt unit planes => Sys2Proof.Machine.execBeatBoundary dt unit planes s
  | .commitCancel dt page => Sys2Proof.Machine.execCommitCancel dt page s
  | .commitImmediate dt page => Sys2Proof.Machine.execCommitImmediate dt page s
  | .commitNextBeat dt page => Sys2Proof.Machine.execCommitNextBeat dt page s
  | .commitAtEpoch dt page target => Sys2Proof.Machine.execCommitAtEpoch dt page target s
  | .planCheckDone dt => Sys2Proof.Machine.execPlanCheckDone dt s
  | .planStopEpoch dt => Sys2Proof.Machine.execPlanStopEpoch dt s
  | .planStopLine dt => Sys2Proof.Machine.execPlanStopLine dt s
  | .planEnd dt => Sys2Proof.Machine.execPlanEnd dt s
  | .encSample dt unit sin cos ref => Sys2Proof.Machine.execEncSample dt unit sin cos ref s
  | .qdTransition dt input a b z => Sys2Proof.Machine.execQdTransition dt input a b z s
  | .camTriggerHeld dt cam => Sys2Proof.Machine.execCamTriggerHeld dt cam s
  | .encArm dt unit => Sys2Proof.Machine.execEncArm dt unit s
  | .encClrFault dt unit => Sys2Proof.Machine.execEncClrFault dt unit s
  | .encLoad dt unit => Sys2Proof.Machine.execEncLoad dt unit s
  | .levRestore dt planes => Sys2Proof.Machine.execLevRestore dt planes s
  | .vencSampleRx dt sample => Sys2Proof.Machine.execVencSampleRx dt sample s
  | .vencLost dt => Sys2Proof.Machine.execVencLost dt s
  | .ptpMessageRx dt port msg => Sys2Proof.Machine.execPtpMessageRx dt port msg s
  | .ptpMessageTx dt dom typ => Sys2Proof.Machine.execPtpMessageTx dt dom typ s
  | .timeSet dt => Sys2Proof.Machine.execTimeSet dt s
  | .timeActDomWrite dt dom => Sys2Proof.Machine.execTimeActDomWrite dt dom s
  | .domainLost dt dom => Sys2Proof.Machine.execDomainLost dt dom s
  | .tsqData0Read dt => Sys2Proof.Machine.execTsqData0Read dt s
  | .tpulseEdge dt out => Sys2Proof.Machine.execTpulseEdge dt out s
  | .ethRxFrame dt port fecUnc fcsOk frame => Sys2Proof.Machine.execEthRxFrame dt port fecUnc fcsOk frame s
  | .ethLinkChange dt port lock localFault remoteFault fec => Sys2Proof.Machine.execEthLinkChange dt port lock localFault remoteFault fec s
  | .stbyDupTimeout dt => Sys2Proof.Machine.execStbyDupTimeout dt s
  | .snapshotComplete arrival => Sys2Proof.Machine.execSnapshotComplete arrival s
  | .pathEngineFault dt island => Sys2Proof.Machine.execPathEngineFault dt island s
  | .pathSwitchCmd dt => Sys2Proof.Machine.execPathSwitchCmd dt s
  | .pathDrillTimer dt => Sys2Proof.Machine.execPathDrillTimer dt s
  | .pathDrillNow dt => Sys2Proof.Machine.execPathDrillNow dt s
  | .drillPostTimeout dt => Sys2Proof.Machine.execDrillPostTimeout dt s
  | .txrTailWrite dt tail => Sys2Proof.Machine.execTxrTailWrite dt tail s
  | .ethTxFrame dt port => Sys2Proof.Machine.execEthTxFrame dt port s
  | .ethTxDone dt port => Sys2Proof.Machine.execEthTxDone dt port s
  | .helloOpen dt port known session seq job epoch body => Sys2Proof.Machine.execHelloOpen dt port known session seq job epoch body s
  | .helloProbe dt port session seq job epoch body => Sys2Proof.Machine.execHelloProbe dt port session seq job epoch body s
  | .helloClose dt port session seq job epoch body => Sys2Proof.Machine.execHelloClose dt port session seq job epoch body s
  | .planLoad dt port session seq job epoch payload => Sys2Proof.Machine.execPlanLoad dt port session seq job epoch payload s
  | .tableWrite dt port session seq job epoch payload => Sys2Proof.Machine.execTableWrite dt port session seq job epoch payload s
  | .layerSegment dt port session seq job epoch payload => Sys2Proof.Machine.execLayerSegment dt port session seq job epoch payload s
  | .copyOrder dt port session seq job epoch payload => Sys2Proof.Machine.execCopyOrder dt port session seq job epoch payload s
  | .epochCommit dt port session seq job epoch payload => Sys2Proof.Machine.execEpochCommit dt port session seq job epoch payload s
  | .ackReceived dt port session seq job epoch payload => Sys2Proof.Machine.execAckReceived dt port session seq job epoch payload s
  | .nakReceived dt port session seq job epoch payload => Sys2Proof.Machine.execNakReceived dt port session seq job epoch payload s
  | .creditReceived dt port session seq job epoch payload => Sys2Proof.Machine.execCreditReceived dt port session seq job epoch payload s
  | .regRead dt port session seq job epoch payload => Sys2Proof.Machine.execRegRead dt port session seq job epoch payload s
  | .regWrite dt port session seq job epoch payload => Sys2Proof.Machine.execRegWrite dt port session seq job epoch payload s
  | .doorbell dt port session seq job epoch payload => Sys2Proof.Machine.execDoorbell dt port session seq job epoch payload s
  | .position dt port session seq job epoch payload => Sys2Proof.Machine.execPosition dt port session seq job epoch payload s
  | .ackTimer dt session => Sys2Proof.Machine.execAckTimer dt session s
  | .nakHoldTimer dt session => Sys2Proof.Machine.execNakHoldTimer dt session s
  | .jtpRetransmitTimer dt session => Sys2Proof.Machine.execJtpRetransmitTimer dt session s
  | .reportSend dt session kind count => Sys2Proof.Machine.execReportSend dt session kind count s
  | .mtxTailWrite dt tail => Sys2Proof.Machine.execMtxTailWrite dt tail s
  | .keyLoad dt master session slot => Sys2Proof.Machine.execKeyLoad dt master session slot s
  | .sessionEnable dt session => Sys2Proof.Machine.execSessionEnable dt session s
  | .sessionDisable dt session => Sys2Proof.Machine.execSessionDisable dt session s
  | .compressorStart dt tap => Sys2Proof.Machine.execCompressorStart dt tap s
  | .compressorAbort dt => Sys2Proof.Machine.execCompressorAbort dt s
  | .compressorLineDone dt fills bad rawBad => Sys2Proof.Machine.execCompressorLineDone dt fills bad rawBad s
  | .cmpDescTailWrite dt tail => Sys2Proof.Machine.execCmpDescTailWrite dt tail s
  | .storeStreamReset dt => Sys2Proof.Machine.execStoreStreamReset dt s
  | .storeStreamRewind dt => Sys2Proof.Machine.execStoreStreamRewind dt s
  | .storeReissue dt planes => Sys2Proof.Machine.execStoreReissue dt planes s
  | .storeSeam dt planes => Sys2Proof.Machine.execStoreSeam dt planes s
  | .storeSeamClr dt planes => Sys2Proof.Machine.execStoreSeamClr dt planes s
  | .fireFrameLaunch dt plane delays => Sys2Proof.Machine.execFireFrameLaunch dt plane delays s
  | .fireStrobe dt port => Sys2Proof.Machine.execFireStrobe dt port s
  | .nozShLoWrite dt value => Sys2Proof.Machine.execNozShLoWrite dt value s
  | .nozWearLoWrite dt value => Sys2Proof.Machine.execNozWearLoWrite dt value s
  | .plogSentWrite dt value => Sys2Proof.Machine.execPlogSentWrite dt value s
  | .plogRingRewrite dt reg value => Sys2Proof.Machine.execPlogRingRewrite dt reg value s
  | .statusFrameRx dt port frame => Sys2Proof.Machine.execStatusFrameRx dt port frame s
  | .tempValidTimeout dt port => Sys2Proof.Machine.execTempValidTimeout dt port s
  | .hpCutCmd dt port => Sys2Proof.Machine.execHpCutCmd dt port s
  | .hpCutClr dt port => Sys2Proof.Machine.execHpCutClr dt port s
  | .rejectMarkEnd dt => Sys2Proof.Machine.execRejectMarkEnd dt s
  | .fireRejReq dt epoch => Sys2Proof.Machine.execFireRejReq dt epoch s
  | .fireRejClr dt => Sys2Proof.Machine.execFireRejClr dt s
  | .laneLockChange dt link lane locked => Sys2Proof.Machine.execLaneLockChange dt link lane locked s
  | .trainFrameRx dt link lane frame rx eyeW eyeH => Sys2Proof.Machine.execTrainFrameRx dt link lane frame rx eyeW eyeH s
  | .startFrameRx dt link frame => Sys2Proof.Machine.execStartFrameRx dt link frame s
  | .linkTrainTimeout dt link => Sys2Proof.Machine.execLinkTrainTimeout dt link s
  | .hplStatusTimeout dt port => Sys2Proof.Machine.execHplStatusTimeout dt port s
  | .hplDownCmd dt port => Sys2Proof.Machine.execHplDownCmd dt port s
  | .linkCycle dt port => Sys2Proof.Machine.execLinkCycle dt port s
  | .senseReplyRx dt port frame => Sys2Proof.Machine.execSenseReplyRx dt port frame s
  | .hplMbxSend dt port => Sys2Proof.Machine.execHplMbxSend dt port s
  | .memberFrameTx dt delayEast delayWest => Sys2Proof.Machine.execMemberFrameTx dt delayEast delayWest s
  | .memberFrameRx dt dir frame hold => Sys2Proof.Machine.execMemberFrameRx dt dir frame hold s
  | .cxpHeartbeatRx dt cam => Sys2Proof.Machine.execCxpHeartbeatRx dt cam s
  | .camHbTimeout dt cam => Sys2Proof.Machine.execCamHbTimeout dt cam s
  | .camLineRx dt cam age ok samples => Sys2Proof.Machine.execCamLineRx dt cam age ok samples s
  | .camLineTimeout dt cam => Sys2Proof.Machine.execCamLineTimeout dt cam s
  | .pipelineLineDone dt => Sys2Proof.Machine.execPipelineLineDone dt s
  | .ccAckRx dt cam status value => Sys2Proof.Machine.execCcAckRx dt cam status value s
  | .ccTimeout dt cam => Sys2Proof.Machine.execCcTimeout dt cam s
  | .camCcGo dt cam write => Sys2Proof.Machine.execCamCcGo dt cam write s
  | .strobePulse dt out => Sys2Proof.Machine.execStrobePulse dt out s
  | .vrdHclr dt views => Sys2Proof.Machine.execVrdHclr dt views s
  | .vrdSentWrite dt value => Sys2Proof.Machine.execVrdSentWrite dt value s
  | .adcConversion dt code => Sys2Proof.Machine.execAdcConversion dt code s
  | .finEdge dt input => Sys2Proof.Machine.execFinEdge dt input s
  | .loopRst dt loops => Sys2Proof.Machine.execLoopRst dt loops s
  | .pwmPeriodStart dt out => Sys2Proof.Machine.execPwmPeriodStart dt out s
  | .gpioOutWrite dt value => Sys2Proof.Machine.execGpioOutWrite dt value s
  | .gpioSet dt value => Sys2Proof.Machine.execGpioSet dt value s
  | .gpioClr dt value => Sys2Proof.Machine.execGpioClr dt value s
  | .gpioEdge dt pin level => Sys2Proof.Machine.execGpioEdge dt pin level s
  | .stpMove dt axis rel => Sys2Proof.Machine.execStpMove dt axis rel s
  | .stpStop dt axis => Sys2Proof.Machine.execStpStop dt axis s
  | .stpHome dt axis => Sys2Proof.Machine.execStpHome dt axis s
  | .stpSetPos dt axis => Sys2Proof.Machine.execStpSetPos dt axis s
  | .stpClrFault dt axis => Sys2Proof.Machine.execStpClrFault dt axis s
  | .stpDisable dt axis => Sys2Proof.Machine.execStpDisable dt axis s
  | .stepPulse dt axis => Sys2Proof.Machine.execStepPulse dt axis s
  | .stallInput dt axis => Sys2Proof.Machine.execStallInput dt axis s
  | .busTransaction dt master kind addr size data => Sys2Proof.Machine.execBusTransaction dt master kind addr size data s
  | .memoryReadComplete dt cls master addr word check hash word2 check2 hash2 => Sys2Proof.Machine.execMemoryReadComplete dt cls master addr word check hash word2 check2 hash2 s
  | .dramRefresh dt delay => Sys2Proof.Machine.execDramRefresh dt delay s
  | .dramRatePoll dt hot => Sys2Proof.Machine.execDramRatePoll dt hot s
  | .dramTrain dt => Sys2Proof.Machine.execDramTrain dt s
  | .dramTrainDone dt fail eyes => Sys2Proof.Machine.execDramTrainDone dt fail eyes s
  | .dramTrack dt rank delta => Sys2Proof.Machine.execDramTrack dt rank delta s
  | .dramFchg dt target => Sys2Proof.Machine.execDramFchg dt target s
  | .dramFchgDone dt fail eyes => Sys2Proof.Machine.execDramFchgDone dt fail eyes s
  | .dramPowerDown dt rank => Sys2Proof.Machine.execDramPowerDown dt rank s
  | .rhWindowRenew dt => Sys2Proof.Machine.execRhWindowRenew dt s
  | .dramScrub dt => Sys2Proof.Machine.execDramScrub dt s
  | .eccLeak dt cls => Sys2Proof.Machine.execEccLeak dt cls s
  | .remapInstall dt => Sys2Proof.Machine.execRemapInstall dt s
  | .remapRemove dt => Sys2Proof.Machine.execRemapRemove dt s
  | .remapAutoInstall dt cls index => Sys2Proof.Machine.execRemapAutoInstall dt cls index s
  | .evtDoorbell dt source => Sys2Proof.Machine.execEvtDoorbell dt source s
  | .evtcDoorbell dt core source => Sys2Proof.Machine.execEvtcDoorbell dt core source s
  | .eventAccept dt core ret => Sys2Proof.Machine.execEventAccept dt core ret s
  | .evtcEoi dt core source => Sys2Proof.Machine.execEvtcEoi dt core source s
  | .eventReturn dt core => Sys2Proof.Machine.execEventReturn dt core s
  | .evtMset dt word mask => Sys2Proof.Machine.execEvtMset dt word mask s
  | .evtMclr dt word mask => Sys2Proof.Machine.execEvtMclr dt word mask s
  | .evtcMset dt core mask => Sys2Proof.Machine.execEvtcMset dt core mask s
  | .evtcMclr dt core mask => Sys2Proof.Machine.execEvtcMclr dt core mask s
  | .evtRouteWrite dt master source value => Sys2Proof.Machine.execEvtRouteWrite dt master source value s
  | .coreWait dt core => Sys2Proof.Machine.execCoreWait dt core s
  | .wakeEdge dt input => Sys2Proof.Machine.execWakeEdge dt input s
  | .wdogKick dt core => Sys2Proof.Machine.execWdogKick dt core s
  | .wdogExpiry dt core => Sys2Proof.Machine.execWdogExpiry dt core s
  | .mgmtResetRequest dt master => Sys2Proof.Machine.execMgmtResetRequest dt master s
  | .mgmtResetApply dt => Sys2Proof.Machine.execMgmtResetApply dt s
  | .blockDisable dt page => Sys2Proof.Machine.execBlockDisable dt page s
  | .blockEnable dt page => Sys2Proof.Machine.execBlockEnable dt page s
  | .blockAbort dt page => Sys2Proof.Machine.execBlockAbort dt page s
  | .blockIdle dt page => Sys2Proof.Machine.execBlockIdle dt page s
  | .shroudEnable dt master => Sys2Proof.Machine.execShroudEnable dt master s
  | .shroudApply dt master => Sys2Proof.Machine.execShroudApply dt master s
  | .shroudRead dt master => Sys2Proof.Machine.execShroudRead dt master s
  | .shroudRelease dt master released => Sys2Proof.Machine.execShroudRelease dt master released s
  | .shroudReleaseReset dt master released => Sys2Proof.Machine.execShroudReleaseReset dt master released s
  | .tapcalWindow dt port delay => Sys2Proof.Machine.execTapcalWindow dt port delay s
  | .encPairSwap dt input meanSin meanCos => Sys2Proof.Machine.execEncPairSwap dt input meanSin meanCos s
  | .adcBankCal dt => Sys2Proof.Machine.execAdcBankCal dt s
  | .adcCalCmd dt => Sys2Proof.Machine.execAdcCalCmd dt s
  | .adcBankCalDone dt => Sys2Proof.Machine.execAdcBankCalDone dt s
  | .tjSensorCal dt => Sys2Proof.Machine.execTjSensorCal dt s
  | .supplyConvCal dt => Sys2Proof.Machine.execSupplyConvCal dt s
  | .wearSnap dt => Sys2Proof.Machine.execWearSnap dt s
  | .wearRestore dt => Sys2Proof.Machine.execWearRestore dt s
  | .wearCopyDone dt => Sys2Proof.Machine.execWearCopyDone dt s
  | .wearEvaluation dt monitors => Sys2Proof.Machine.execWearEvaluation dt monitors s
  | .ageingTick dt => Sys2Proof.Machine.execAgeingTick dt s
  | .reefEnter dt rail => Sys2Proof.Machine.execReefEnter dt rail s
  | .reefRecover dt rail => Sys2Proof.Machine.execReefRecover dt rail s
  | .reefHoldExceeded dt rail => Sys2Proof.Machine.execReefHoldExceeded dt rail s
  | .railReset dt rail => Sys2Proof.Machine.execRailReset dt rail s
  | .vbatPor dt => Sys2Proof.Machine.execVbatPor dt s
  | .porRelease dt => Sys2Proof.Machine.execPorRelease dt s
  | .resetPin dt => Sys2Proof.Machine.execResetPin dt s
  | .sysSoftReset dt master => Sys2Proof.Machine.execSysSoftReset dt master s
  | .blockReset dt master page => Sys2Proof.Machine.execBlockReset dt master page s
  | .refLoss dt => Sys2Proof.Machine.execRefLoss dt s
  | .refRestore dt => Sys2Proof.Machine.execRefRestore dt s
  | .pllUnlock dt pll locked => Sys2Proof.Machine.execPllUnlock dt pll locked s
  | .pllRelockTimeout dt pll => Sys2Proof.Machine.execPllRelockTimeout dt pll s
  | .clkMzWrite dt value => Sys2Proof.Machine.execClkMzWrite dt value s
  | .pwrOeWrite dt value => Sys2Proof.Machine.execPwrOeWrite dt value s
  | .standbyEnter dt => Sys2Proof.Machine.execStandbyEnter dt s
  | .pwrEnLow dt => Sys2Proof.Machine.execPwrEnLow dt s
  | .wakeTimerExpiry dt => Sys2Proof.Machine.execWakeTimerExpiry dt s
  | .bootJump dt slotA slotB => Sys2Proof.Machine.execBootJump dt slotA slotB s
  | .bootWatchdogExpiry dt => Sys2Proof.Machine.execBootWatchdogExpiry dt s
  | .rollbackAdvance dt master target => Sys2Proof.Machine.execRollbackAdvance dt master target s
  | .bootVerify dt master => Sys2Proof.Machine.execBootVerify dt master s
  | .bootVerifyDone dt => Sys2Proof.Machine.execBootVerifyDone dt s
  | .registerWrite dt master addr value => Sys2Proof.Machine.execRegisterWrite dt master addr value s
  | .gweatFrameDiscard dt rx => Sys2Proof.Machine.execGweatFrameDiscard dt rx s
  | .cxpLinkChange dt cam conn up => Sys2Proof.Machine.execCxpLinkChange dt cam conn up s
  | .tjSensorCalDone dt value => Sys2Proof.Machine.execTjSensorCalDone dt value s
  | .supplyConvCalDone dt millivolts => Sys2Proof.Machine.execSupplyConvCalDone dt millivolts s
  | .sysResetRelease dt => Sys2Proof.Machine.execSysResetRelease dt s

end Sys2Proof.Machine
end

