-- ==== Sys2Proof/Safety.lean ====
section
/-! DEFINITION. The terms claims are stated in: what a state between commands looks like, what a command leaves as it was,
and when two states show the outside the same. -/
namespace Sys2Proof.Machine

/-- What every step leaves: no reset or fuse burning is owed, and nothing waits to be put on the balls and links. -/
abbrev Settled (s : State) : Prop := s.dev.sysReq = none ∧ s.dev.burnReq = 0 ∧ s.dev.out = []

/-- The block takes commands, and nothing but the command itself is about to happen: the power phase is run, nothing is
owed, no session has a register request of the RIP next (R131 performs it after any command), the job-store prefetch is
not cleated under an active plan (R382 stops the planes after any command), no request waits in a bank of DRAM (R325), no write
of an engine to a register is owed (R424), and no change of rate has still to reach self-refresh (R330). -/
abbrev Ready (s : State) : Prop :=
  s.dev.power = .run ∧ Settled s ∧ regSession s.dev = none ∧ (cleated s.dev 8 && s.dev.planActive) = false
    ∧ s.dev.banks = [] ∧ s.dev.regWrites = []
    ∧ (s.dev.getB F.DRAMC_FCHG_BUSY && !s.dev.getB F.DRAMC_STAT_SELFREF) = false

/-- Every register but those at the byte offsets `l` of the register window reads as before. -/
def RegsKept (l : List Nat) (s t : State) : Prop := ∀ a, a ∉ l → t.dev.reg a = s.dev.reg a

/-- Master `m` may perform a transaction of `kind` (0 read, 1 write, 2 fetch) of `n` bytes at `a`: it issues transactions, and
Shroud permits it (R367, R369, R371, R376). -/
abbrev Permitted (s : State) (m kind a n : Nat) : Prop :=
  issues s.dev m = true
    ∧ (shroudCheck s.dev m kind a (kind == kindWrite && reachesRwm a n)).1 = true

/-- Master `m` may write the register at byte offset `o` of the register window. -/
abbrev MayWrite (s : State) (m o : Nat) : Prop := Permitted s m kindWrite (0x40000000 + o) 4

/-- The registers that raising a block event of page `p` can change: its PG_EVT, the pending word of its source, and the
coalesce counter of the source's core (R347, R349, R429). -/
def eventRegs (p : Nat) : List Nat :=
  [R.PG_EVT p, R.EVT_PEND (pageSource p / 32), R.EVTC_CNT 0, R.EVTC_CNT 1, R.EVTC_CNT 2, R.EVTC_CNT 3]

/-- The registers that a page fault of page `p` can change (R431). -/
def faultRegs (p : Nat) : List Nat := [R.PG_FAULT p, R.PG_FAULT_INFO p] ++ eventRegs p

/-- Bit `k` of PG_EVT of page `p` is set in `t`: bit 0 is FAULT, a block event has its bit from 8 up (R429, R430). -/
abbrev EventSet (t : State) (p k : Nat) : Prop := bit (t.dev.reg (R.PG_EVT p)).toNat k = true

/-- The byte that memory holds at physical address `a`: the boot ROM's fixed contents, L2's bytes as on-chip RAM, or DRAM's. -/
def State.byte (s : State) (a : Nat) : Byte :=
  if inRom a then Config.bootRom a
  else if inL2 a then cellGet 0 s.dev.l2 (a - 0x20000000)
  else cellGet 0 s.dev.dram a

/-- Every byte of memory reads as before. -/
def MemKept (s t : State) : Prop := ∀ a, t.byte a = s.byte a

/-- Every byte of memory outside `n` bytes from `b` reads as before. -/
def MemKeptOutside (b n : Nat) (s t : State) : Prop := ∀ a, a < b ∨ b + n ≤ a → t.byte a = s.byte a

/-- No plan is active, no mark of an ended plan is carried on, no plane has a fall-back source and the block publishes no
position: a position sample touches its own source alone. -/
abbrev PositionAlone (s : State) : Prop :=
  s.dev.planActive = false ∧ s.dev.rejectPts = [] ∧ s.dev.get F.PLAN_STAY_PUBLISHER = 0 ∧ ∀ p, p < 8 → s.dev.get (F.LEV_CFG_FB_EN p) = 0

/-- No plane has a fall-back source, the block publishes no position, and every plane of an active plan has a source that
works: at a sample the planes have nothing to answer (R55, R56). -/
abbrev PositionSteady (s : State) : Prop :=
  s.dev.get F.PLAN_STAY_PUBLISHER = 0 ∧ (∀ p, p < 8 → s.dev.get (F.LEV_CFG_FB_EN p) = 0)
    ∧ ∀ p ∈ activePlanes s.dev, sourceFailed s.dev (sourceInUse s.dev p) = false ∧ holdsCause s.dev p causeEncoder = false

/-- The balls of unit `e`'s quadrature input show the levels that it has accepted (R40). -/
abbrev LevelsTaken (s : State) (e : Nat) : Prop :=
  (s.dev.enc e).a = bit (qdLevels s.dev e) 0 ∧ (s.dev.enc e).b = bit (qdLevels s.dev e) 1 ∧ (s.dev.enc e).z = bit (qdLevels s.dev e) 2

/-- Each of the `n` bytes from `a` is backed by L2 used as RAM or by DRAM in service that no change of rate holds up, and master
`m`, which has no write held, may reach it with an access of `kind` (R322, R330, R371, R376). -/
abbrev Reach (s : State) (m kind a n : Nat) : Prop :=
  cleated s.dev m = false ∧ stepsHeld s.dev m = false ∧ ∀ i, i < n →
    (shroudCheck s.dev m kind (a + i) false).1 = true
      ∧ ((inL2 (a + i) && s.dev.l2Ram) || dramServes s.dev (a + i) && !s.dev.getB F.DRAMC_FCHG_BUSY) = true

/-- The registers that an access of memory by an engine that may reach it can change: those of row protection, and VALID of
the warm image (R333, R421). -/
def memRegs : List Nat := [R.DRAMC_RH_STAT, R.BOOT_VERIFY] ++ eventRegs 0x50

/-- The data ports, and the registers whose read latches or clears others (R5, R426). -/
def readPorts : List Nat :=
  shadowPorts ++ [R.TSQ_DATA0, R.SCR_TDATA, R.NOZ_SH_LO, R.NOZ_LIVE_LO, R.NOZ_WEAR_LO, R.WAVE_TDATA, R.CODEC_ERR_CNT,
    R.BEAT_NUM_LO, R.TIME_NS, R.ENC_POS_LO 0, R.ENC_POS_LO 1]

/-- JTP is enabled, no switchover is under way, and session `n` (not 0) is OPEN without authentication, has received
everything up to its CUM, and holds nothing that it has not dealt with. -/
abbrev CalmSession (s : State) (n : Nat) : Prop :=
  n ≠ 0 ∧ s.dev.get (F.PG_CTL_EN 0x0D) = 1 ∧ s.dev.path.resume = none ∧ s.dev.get (F.SESS_CFG_EN n) = 1
    ∧ s.dev.get (F.SESS_STAT_STATE n) = 2 ∧ s.dev.get (F.SESS_CFG_AUTH_REQ n) = 0
    ∧ (s.dev.sess n).todo = [] ∧ (s.dev.sess n).waiting = [] ∧ (s.dev.sess n).held = [] ∧ (s.dev.sess n).got = 0

/-- A bulk message of `len` bytes of payload on port `q` is performed as it arrives: it came by the active port, fits the
session's credit, and neither a cleat nor a rate change holds it (R94, R116, R330, R377). -/
abbrev BulkFlows (s : State) (n q len : Nat) : Prop :=
  activePort s.dev = q ∧ ceilDiv (28 + len) 4096 ≤ s.dev.get (F.SESS_CFG_CREDIT_MAX n) ∧ bulkBlocked s.dev = false

/-- The registers that accepting a message of session `n` can change beside its own effect (R93, R103, R107, R111). -/
def jtpRegs (n : Nat) : List Nat := [R.RX_CUM n, R.JOB n, R.PATH_STAT, R.PATH_DRILL_CNT]

/-- A feedback message with counter `q` on port `port` is fresh in session `n` (R93, R112). -/
abbrev FreshFeedback (s : State) (n port q : Nat) : Prop :=
  (∀ c ∈ (s.dev.sess n).fbRx, follows q c = true) ∧ secondCopy (s.dev.sess n) (q + 2 ^ 32) port = false

/-- The next print-log record goes into the ring: nothing waits in the reserve or was lost, there is space, and the log's
master may write it (R209, R210). -/
abbrev LogReady (s : State) : Prop :=
  s.dev.plogLost = 0 ∧ s.dev.plogReserve = [] ∧ s.dev.plogHeld < s.dev.get F.PLOG_SIZE_SIZE
    ∧ Reach s 10 kindWrite
        (s.dev.get2 F.PLOG_BASE_LO_BASE F.PLOG_BASE_HI_BASE + s.dev.get F.PLOG_HEAD_HEAD * 96) 96

/-- The registers that a record put into the ring changes (R209). -/
def logRegs : List Nat := [R.PLOG_SEQ, R.PLOG_HEAD] ++ memRegs

/-- `t` is the block after a SYS reset of `s` with cause `k` of PWR_RST_CAUSE: but for what the standby island keeps, every
register reads its reset value and every memory is empty, the fuses and the queue stay, the reset is recorded, and once the
block runs the sources of the wake latches are pending (R359, R408, R410, R420). -/
abbrev SysResetTo (s t : State) (k : Nat) : Prop :=
  (∀ a, a ∉ R.BOOT_STAT :: R.EVT_PEND 2 :: islandRegs → t.dev.reg a = resetWord a)
    ∧ (t.dev.reg (R.EVT_PEND 2)).toNat = (if t.dev.power = .run then s.dev.wakeLatch % 256 * 2 ^ 16 else 0)
    ∧ (∀ a, a ∈ islandRegs → a ≠ R.PWR_RST_CAUSE → t.dev.reg a = s.dev.reg a)
    ∧ bit (t.dev.reg R.PWR_RST_CAUSE).toNat k = true
    ∧ (∀ j, j < 16 → j ≠ k → bit (t.dev.reg R.PWR_RST_CAUSE).toNat j = bit (s.dev.reg R.PWR_RST_CAUSE).toNat j)
    ∧ t.dev.get F.PWR_RST_CAUSE_COUNT = min (s.dev.get F.PWR_RST_CAUSE_COUNT + 1) 0xFFFF
    ∧ t.dev.get F.BOOT_STAT_RBK = (Config.otpRollback + s.fuses) % 128
    ∧ t.dev.dram = [] ∧ t.dev.l2 = [] ∧ t.dev.jtp = {} ∧ t.fuses = s.fuses ∧ t.pending = s.pending

/-- Port `h` carries no plane of an active plan, and no line is in progress on it when `dt` has passed: its loss stops nothing (R229,
R230). -/
abbrev PortFree (s : State) (dt h : Nat) : Prop :=
  boundPlanes s.dev h = [] ∧ (s.dev.planActive = true → inProgress (s.dev.elapse dt) h = [])

/-- The registers that a link's bring-up changes (R253). -/
def linkRegs (i : Nat) : List Nat := if i < 32 then [R.HPL_STAT i, R.HPL_MBX_CTL i] else [R.STAY_STAT]

/-- The up head link `p` of `s` was taken down with `cause`, with no plane bound: it is recorded and counted, the port is cut
(with cause 2 where it was not cut already), and the link is off, or begins again at stage 1, whose end its locked lane has
reached at once (R231, R253, R256). -/
abbrev HeadLinkLost (s t : State) (p cause : Nat) : Prop :=
  t.dev.get (F.HPL_STAT_DOWN_CAUSE p) = cause ∧ t.dev.get (F.HPL_CNT_DOWN p) = min (s.dev.get (F.HPL_CNT_DOWN p) + 1) 0xFFFF
    ∧ EventSet t (hpPage p) 10 ∧ (t.dev.link p).up = false ∧ (t.dev.link p).queue = [] ∧ (t.dev.link p).sent = []
    ∧ linkStage t.dev p = (if s.dev.get (F.HPL_CFG_EN p) = 1 ∧ s.dev.get (F.HPL_CFG_AUTO p) = 1 then
        (if allLanes p (t.dev.link p).locks then 2 else 1) else 0)
    ∧ t.dev.get (F.HP_STAT_CUT p) = 1
    ∧ (s.dev.get (F.HP_STAT_CUT p) = 0 → t.dev.get (F.HP_STAT_CUT_CAUSE p) = 2 ∧ t.dev.pinLevel .headCutN p = 0)
    ∧ RegsKept ([R.HPL_STAT p, R.HPL_CNT p, R.HPL_MBX_CTL p, R.HP_STAT p] ++ eventRegs (hpPage p)) s t ∧ MemKept s t

/-- A frame of the device's own leaves port `q` at once: its link is up and its page enabled, none waits there, and no
transmit descriptor is due (R81). -/
abbrev SendsNow (s : State) (q : Nat) : Prop :=
  ethUp s.dev q = true ∧ s.dev.get (F.PG_CTL_EN (portPage q)) = 1 ∧ s.dev.path.txWait = []
    ∧ s.dev.get F.TXR_HEAD_HEAD = s.dev.get F.TXR_TAIL_TAIL

/-- The same for a frame with a message of `k` bytes in session `n`: it fits MAX_FRAME, and the peer's UDP port is not PTP's. -/
abbrev PortSends (s : State) (n q k : Nat) : Prop :=
  SendsNow s q ∧ k + frameOver s.dev n q ≤ s.dev.get (F.ETH_CFG_MAX_FRAME q) ∧ s.dev.get (F.SESS_CFG_PEER_PORT n) ≠ 319

abbrev BothSend (s : State) (n k : Nat) : Prop := PortSends s n 0 k ∧ PortSends s n 1 k

/-- Frame `fr` carries `bs` in a UDP datagram from the JTP port to the peer of session `n` (R106). -/
abbrev Carries (s : State) (n : Nat) (fr bs : List Byte) : Prop :=
  ∃ i, ipView (ethView fr) = some i ∧ i.proto = 17 ∧ beAt i.l4 0 2 = s.dev.get F.JTP_CFG_UDP_PORT
    ∧ beAt i.l4 2 2 = s.dev.get (F.SESS_CFG_PEER_PORT n) ∧ i.l4.drop 8 = bs

/-- Message `bs` of session `n` left on both ports, and nothing else left. -/
abbrev BothSent (s t : State) (n : Nat) (bs : List Byte) : Prop :=
  ∃ f0 f1, t.wire = .eth 1 f1 :: .eth 0 f0 :: s.wire ∧ Carries s n f0 bs ∧ Carries s n f1 bs

/-- Message `m` is shown missing by a RIP that reports `cum` and `map`: it is not marked, and a later one is, or NAK GAP names
it as `bad` (R114, R118). -/
abbrev ShownMissing (cum map : Nat) (bad : Option Nat) (m : SentMsg) : Prop :=
  ¬(∃ i, i < 64 ∧ (m.seq + 2 ^ 32 - cum) % 2 ^ 32 = i + 1 ∧ bit map i = true)
    ∧ ((∃ j, (m.seq + 2 ^ 32 - cum) % 2 ^ 32 ≤ j ∧ bit map j = true) ∨ bad = some m.seq)

/-- Session `n` has taken `cum`, `map` and `credit` from its RIP at `now`: what CUM has passed has left the window, what is
shown missing and may go again has gone again, and the rest stays (R114, R116, R118). -/
abbrev FeedbackTaken (s t : State) (n cum map credit : Nat) (bad : Option Nat) (now : Nat) : Prop :=
  (t.dev.sess n).peerCum = cum ∧ (t.dev.sess n).peerMap = map ∧ (t.dev.sess n).credit = credit
    ∧ (∀ m ∈ (s.dev.sess n).sent, precedes m.seq cum = false →
        (ShownMissing cum map bad m → (∀ a, m.again = some a → a + s.dev.get F.JTP_RTO_RTO * 1000 ≤ now) →
          { m with at_ := now, again := some now } ∈ (t.dev.sess n).sent)
        ∧ (¬ShownMissing cum map bad m ∨ (∃ a, m.again = some a ∧ now < a + s.dev.get F.JTP_RTO_RTO * 1000) →
          m ∈ (t.dev.sess n).sent))
    ∧ ∀ x ∈ (t.dev.sess n).sent, ∃ m ∈ (s.dev.sess n).sent, precedes m.seq cum = false ∧ x.seq = m.seq ∧ x.bytes = m.bytes

/-- Frame `fr` carries a PTP event message of type `typ`, domain number `dom` and sequence `seq` at byte `o`, by UDP over IPv4
(`tr` 0), UDP over IPv6 (1) or IEEE 802.3 (2) (R68). -/
abbrev PtpFrame (fr : List Byte) (o tr typ dom seq : Nat) : Prop :=
  (∃ ip, ptpEvent fr = some (o, ip) ∧ ip.map (fun i => i.v6) = (if tr = 0 then some false else if tr = 1 then some true else none))
    ∧ byteAt fr o % 16 = typ ∧ byteAt fr (o + 4) = dom ∧ beAt fr (o + 30) 2 = seq

/-- What comes of the line is nothing for a receiver: something discarded, or a frame whose CRC-32C fails (R240, R248). -/
abbrev NoFrame (e : RxEvent) : Prop :=
  (match e with
    | .bad => true
    | .inverted => false
    | .frame bs _ => !frameOk bs) = true

/-- No leak of class `c` falls due in the 2 ns cycle in which a command comes `dt` after `s`, and none has fallen due in it
(R340). -/
abbrev NoLeakNow (s : State) (dt c : Nat) : Prop :=
  (cellGet 0 s.dev.leakAt c + s.dev.get (F.ECC_BKT_CFG_LEAK c) * 1000000) / 2 ≠ (s.dev.now + dt) / 2
    ∧ ∀ u ∈ cellGet none s.dev.leakUndo c, u.1 / 2 ≠ (s.dev.now + dt) / 2

/-- A CONTROL frame of `n` bytes would not delay a fire frame of port `h` (R81). -/
abbrev ControlGoes (d : Dev) (h n : Nat) : Prop :=
  fireBefore d h (max (laneNow d h) (d.link h).txEnd + frameTime (d.link h) n) = false

/-- A boundary of a new beat at which nothing is due but the work of the print path and of the loops: PATH is off, no domain
switch, schedule or verdict waits, and the chip publishes no position (R17, R28, R71, R224, R293). -/
abbrev QuietBeat (s : State) (dt : Nat) : Prop :=
  (s.dev.elapse dt).beatNum ≠ s.dev.lastBeat ∧ s.dev.get (F.PG_CTL_EN 0x0C) = 0 ∧ s.dev.tm.switchTo = none
    ∧ s.dev.get F.TIME_CTL_SRC = 0 ∧ s.dev.schedDue = 0 ∧ s.dev.insp.vrdDirty = false ∧ s.dev.get F.PLAN_STAY_PUBLISHER = 0

/-- Plane `p` is the one plane of the active plan, whose one configuration is `v`; it is not being stopped, the loop engine is off,
no published position is used, the lines in the pipeline are different ones on sound buffers, and no copy is complete. -/
abbrev OnePlane (s : State) (v : Version) (p : Nat) : Prop :=
  p < 8 ∧ s.dev.planActive = true ∧ s.dev.versions = [v] ∧ v.ord = 0 ∧ cfgPlanes v.cfg = [p]
    ∧ cfgGet v.cfg F.PLAN_STAY_PUBLISHER = 0 ∧ s.dev.stopMode = 0 ∧ s.dev.get (F.PG_CTL_EN 0x48) = 0
    ∧ (∀ l, l < 32 → (s.dev.loop l).inSched = false) ∧ s.dev.venc = none
    ∧ ((s.dev.plane p).slots.map (fun q => q.line)).Nodup ∧ lineBufferBad s.dev p = false
    ∧ ∀ o, o ≤ s.dev.copies.length → captured s.dev o = true → bit (s.dev.copyAt o).done p = true ∨ (s.dev.plane p).next < firstLine s.dev (o + 1) p

/-- No memory word is known to be uncorrectable, and no spare holds poison (R338, R341). -/
abbrev SoundMemory (s : State) : Prop := s.dev.ue = [] ∧ ∀ e ∈ s.dev.remap, e.2.poison = false

/-- Line `q` of plane `p` one boundary later: a line that was decoded is composed and screened into levels, any other but a framed
one moves to its next stage (R21). -/
def advanced (d : Dev) (p : Nat) (q : Slot) : Slot :=
  if 4 ≤ q.stage then q
  else if q.stage = 1 ∧ q.why = 0 then
    { q with stage := 2, samples := [], levels := (screenLine (cfgFor d q.ord) (nozBad d) (tileBad d) p (passOf d q.ord) q.j q.samples).1 }
  else { q with stage := q.stage + 1 }

/-- Nothing new was put on the balls and links. -/
def Silent (s t : State) : Prop := t.wire = s.wire

end Sys2Proof.Machine
end

