-- ==== Sys2Proof/Certificates/Slice0/Obligations.lean ====
section
/-! DEFINITION. The statements to prove, one definition each. `Ready` and the frame words are those of Safety.lean. -/
open Sys2Proof Sys2Proof.Machine

/-- On a ready block with no plan active: a sample of a quadrature unit without a fault or an index adds the changes accepted
since the last one to X; a sample of a sin/cos unit, its pair's correction subtracted, whose amplitude is in its window,
whose phase moves by at most 256 and whose count does not saturate adds the phase difference, reversed by INVERT;
ENC_POS_LO shows X and ENC_VEL the estimate, saturated to 32 bits; an index in mode EVERY at a sample that counts up sets
X to INDEX_VALUE, sets IDX_SEEN and clears UNCERTAIN. Other registers and all memory are unchanged. For every unit and
every state whose filter does not restart: with the estimates held before, there is an x_pred that is x + v x 50 + a x
1250 rounded down to 2^-16 counts, the residual is X - x_pred, and the new x, v and a are each the exact right-hand side
of R46 rounded down to 2^-16 counts, 2^-24 counts/ns and 2^-40 counts/ns2. A filter that restarts takes x = X and v = a =
0. ENC_VEL shows v saturated to 32 bits. (R37, R38, R44, R45, R386, R46) -/
def Obligations.PositionSamples : Prop :=
  (
    ∀ (dt : Nat) (e : Fin 2) (sin cos : Nat) (ref : List Bool) (s : State), Ready s → PositionAlone s →
      encFaulty s.dev e = false → s.dev.get (F.ENC_CFG_FAULT_N e) ≠ 0 →
      (3 ≤ s.dev.get (F.ENC_CFG_SRC e) → s.dev.get (F.ENC_CFG_SRC e) ≤ 6 → LevelsTaken s e → (s.dev.enc e).qdBad = false →
        (s.dev.enc e).edge = false →
        countMin < (s.dev.enc e).x + (s.dev.enc e).qd → (s.dev.enc e).x + (s.dev.enc e).qd < countMax →
        ∃ t, exec (.encSample dt e sin cos ref) s = .next t
          ∧ (t.dev.enc e).x = (s.dev.enc e).x + (s.dev.enc e).qd ∧ (t.dev.enc e).qd = 0 ∧ (t.dev.enc e).valid = true
          ∧ t.dev.get (F.ENC_POS_LO_X e) = ofSigned 32 ((s.dev.enc e).x + (s.dev.enc e).qd)
          ∧ t.dev.get (F.ENC_VEL_V e) = ofSigned 32 (satS 32 (t.dev.enc e).vh)
          ∧ RegsKept [R.ENC_POS_LO e, R.ENC_VEL e] s t ∧ MemKept s t) ∧
      (∀ (a b q : Int), (s.dev.get (F.ENC_CFG_SRC e) = 1 ∨ s.dev.get (F.ENC_CFG_SRC e) = 2) → (s.dev.enc e).phiSeen = true →
        (refSamples (s.dev.get (F.ENC_CFG_FILT e)) ref (s.dev.enc e)).edge = false →
        a = 16 * ((sin % 4096 : Nat) - (s.dev.get (F.ENC_ADC_OFS_SIN_OFS e) : Int)) - pairCorr s.dev (s.dev.get (F.ENC_CFG_SRC e) - 1) 0 →
        b = 16 * ((cos % 4096 : Nat) - (s.dev.get (F.ENC_ADC_OFS_COS_OFS e) : Int)) - pairCorr s.dev (s.dev.get (F.ENC_CFG_SRC e) - 1) 1 →
        ¬(a = 0 ∧ b = 0) →
        256 * (s.dev.get (F.ENC_AMP_AMIN e) : Int) ^ 2 ≤ a ^ 2 + b ^ 2 → a ^ 2 + b ^ 2 ≤ 256 * (s.dev.get (F.ENC_AMP_AMAX e) : Int) ^ 2 →
        q = ((phase a b + 1024 - (s.dev.enc e).phi + 512) % 1024 : Nat) - 512 → -256 ≤ q → q ≤ 256 →
        countMin < (s.dev.enc e).x + (if s.dev.getB (F.ENC_CFG_INVERT e) then -q else q) →
        (s.dev.enc e).x + (if s.dev.getB (F.ENC_CFG_INVERT e) then -q else q) < countMax →
        ∃ t, exec (.encSample dt e sin cos ref) s = .next t
          ∧ (t.dev.enc e).x = (s.dev.enc e).x + (if s.dev.getB (F.ENC_CFG_INVERT e) then -q else q)
          ∧ (t.dev.enc e).phi = phase a b ∧ (t.dev.enc e).valid = true
          ∧ t.dev.get (F.ENC_POS_LO_X e) = ofSigned 32 (t.dev.enc e).x
          ∧ t.dev.get (F.ENC_VEL_V e) = ofSigned 32 (satS 32 (t.dev.enc e).vh)
          ∧ RegsKept [R.ENC_POS_LO e, R.ENC_VEL e] s t ∧ MemKept s t) ∧
      (3 ≤ s.dev.get (F.ENC_CFG_SRC e) → s.dev.get (F.ENC_CFG_SRC e) ≤ 6 → LevelsTaken s e → (s.dev.enc e).qdBad = false →
        countMin < indexValue s.dev e → indexValue s.dev e < countMax →
        (∀ p, p < 8 → (s.dev.plane p).assigns = []) → (s.dev.enc e).edge = true → s.dev.get (F.ENC_CFG_IDX_MODE e) = 1 → 0 < (s.dev.enc e).qd →
        countMin < (s.dev.enc e).x + (s.dev.enc e).qd → (s.dev.enc e).x + (s.dev.enc e).qd < countMax →
        ∃ t, exec (.encSample dt e sin cos ref) s = .next t
          ∧ (t.dev.enc e).x = indexValue s.dev e ∧ (t.dev.enc e).edge = false
          ∧ t.dev.get (F.ENC_POS_LO_X e) = ofSigned 32 (indexValue s.dev e)
          ∧ t.dev.get (F.ENC_STAT_IDX_SEEN e) = 1 ∧ t.dev.get (F.ENC_STAT_UNCERTAIN e) = 0
          ∧ RegsKept [R.ENC_POS_LO e, R.ENC_VEL e, R.ENC_STAT e] s t ∧ MemKept s t)) ∧
  (
    ∀ (e : Fin 2) (d : Dev), 
      ((d.enc e).restart = true →
        ((trackFilter e d).enc e).xh = (d.enc e).x * 2 ^ 16 ∧ ((trackFilter e d).enc e).vh = 0
          ∧ ((trackFilter e d).enc e).ah = 0 ∧ ((trackFilter e d).enc e).restart = false) ∧
      ((d.enc e).restart = false →
        ∃ xp r α β γ : Int,
          α = 2 ^ d.get (F.ENC_TRK_ALPHA_SH e) ∧ β = 2 ^ d.get (F.ENC_TRK_BETA_SH e) ∧ γ = 2 ^ d.get (F.ENC_TRK_GAMMA_SH e)
          ∧ xp * 2 ^ 24 ≤ (d.enc e).xh * 2 ^ 24 + (d.enc e).vh * 50 * 2 ^ 16 + (d.enc e).ah * 1250
          ∧ (d.enc e).xh * 2 ^ 24 + (d.enc e).vh * 50 * 2 ^ 16 + (d.enc e).ah * 1250 < (xp + 1) * 2 ^ 24
          ∧ r = (d.enc e).x * 2 ^ 16 - xp
          ∧ (((trackFilter e d).enc e).xh - xp) * α ≤ r ∧ r < (((trackFilter e d).enc e).xh - xp + 1) * α
          ∧ (((trackFilter e d).enc e).vh - (d.enc e).vh) * (2 ^ 16 * 50 * β) ≤ (d.enc e).ah * (2500 * β) + r * 2 ^ 24
          ∧ (d.enc e).ah * (2500 * β) + r * 2 ^ 24 < (((trackFilter e d).enc e).vh - (d.enc e).vh + 1) * (2 ^ 16 * 50 * β)
          ∧ (((trackFilter e d).enc e).ah - (d.enc e).ah) * (2500 * γ) ≤ 2 * r * 2 ^ 24
          ∧ 2 * r * 2 ^ 24 < (((trackFilter e d).enc e).ah - (d.enc e).ah + 1) * (2500 * γ)
          ∧ ((trackFilter e d).enc e).restart = false) ∧
      ((trackFilter e d).get (F.ENC_VEL_V e) = ofSigned 32 (satS 32 ((trackFilter e d).enc e).vh)))

/-- On a ready block whose planes have working sources, for an input that one position unit selects, of levels l that have
stood on its balls at the 200 MHz samples from QA, the first one not yet taken, up to the change: the new levels are on
the balls after it. Where no sample lies between, the unit is as it was. Where l are the levels accepted, only the samples
are taken. Where A alone or B alone has another level, since sample i, it is accepted once it has stood for FILT x 5 ns:
the count of the next sample goes up by 1 when A leads B and down by 1 otherwise, the sign reversed by INVERT; before that
it waits, nothing is counted. A and B both changed at one sample, of a unit without a fault that no active plane uses, set
FAULT and UNCERTAIN with FCODE 3 and raise the encoder-fault event. No other register and no memory changes. (That a level
is taken when the next one comes or a sample needs it is the model's order of work, log entry 105.) (R40, R43) -/
def Obligations.QuadratureTransitions : Prop :=
  ∀ (dt n l k : Nat) (i : Fin 4) (e f : Fin 2) (a b z : Bool) (u : Enc) (s : State), Ready s → PositionSteady s → e ≠ f →
    s.dev.get (F.ENC_CFG_SRC e) = 3 + i → s.dev.get (F.ENC_CFG_SRC f) ≠ 3 + i → n = (s.dev.elapse dt).fastSample →
    l = qdLevels s.dev e → u = s.dev.enc e →
    (n ≤ u.qdAt →
      ∃ t, exec (.qdTransition dt i a b z) s = .next t ∧ t.dev.encs = s.dev.encs
        ∧ qdLevels t.dev e = b2n a + 2 * b2n b + 4 * b2n z ∧ RegsKept [] s t ∧ MemKept s t) ∧
    (u.qdAt < n → LevelsTaken s e →
      ∃ t, exec (.qdTransition dt i a b z) s = .next t ∧ t.dev.enc e = { u with qdAt := n, pa := none, pb := none, pz := none }
        ∧ t.dev.enc f = s.dev.enc f ∧ qdLevels t.dev e = b2n a + 2 * b2n b + 4 * b2n z ∧ RegsKept [] s t ∧ MemKept s t) ∧
    (u.qdAt < n → ((bit l 0 != u.a) != (bit l 1 != u.b)) = true → bit l 2 = u.z →
      k = (if bit l 0 = u.a then u.pb else u.pa).getD u.qdAt + s.dev.get (F.ENC_CFG_FILT e) →
      (n ≤ k →
        ∃ t, exec (.qdTransition dt i a b z) s = .next t
          ∧ t.dev.enc e = { u with qdAt := n, pz := none
                                   pa := if bit l 0 = u.a then none else some (u.pa.getD u.qdAt)
                                   pb := if bit l 1 = u.b then none else some (u.pb.getD u.qdAt) }
          ∧ t.dev.enc f = s.dev.enc f ∧ RegsKept [] s t ∧ MemKept s t) ∧
      (∀ m : Int, k < n → u.accAt ≠ max k u.qdAt + 1 →
        (encFaulty s.dev e = true → countMin < u.x + u.qd ∧ u.x + u.qd < countMax) →
        m = (if (if bit l 0 ≠ u.a then bit l 0 ≠ bit l 1 else bit l 0 = bit l 1) then 1 else -1)
            * (if s.dev.getB (F.ENC_CFG_INVERT e) then -1 else 1) →
        countMin < u.x + u.qd + m → u.x + u.qd + m < countMax →
        ∃ t, exec (.qdTransition dt i a b z) s = .next t ∧ (t.dev.enc e).qd = u.qd + m ∧ (t.dev.enc e).x = u.x
          ∧ (t.dev.enc e).a = bit l 0 ∧ (t.dev.enc e).b = bit l 1 ∧ t.dev.enc f = s.dev.enc f
          ∧ qdLevels t.dev e = b2n a + 2 * b2n b + 4 * b2n z ∧ RegsKept [] s t ∧ MemKept s t)) ∧
    (u.qdAt + s.dev.get (F.ENC_CFG_FILT e) < n → bit l 0 ≠ u.a → bit l 1 ≠ u.b → bit l 2 = u.z → u.pa = none → u.pb = none →
      (∀ p ∈ activePlanes s.dev, sourceInUse s.dev p ≠ e) → encFaulty s.dev e = false →
      ∃ t, exec (.qdTransition dt i a b z) s = .next t
        ∧ t.dev.get (F.ENC_STAT_FAULT e) = 1 ∧ t.dev.get (F.ENC_STAT_FCODE e) = 3
        ∧ t.dev.get (F.ENC_STAT_UNCERTAIN e) = 1 ∧ (t.dev.enc e).qdBad = true ∧ (t.dev.enc e).qd = u.qd
        ∧ EventSet t (0x05 + e) 8
        ∧ RegsKept ([R.ENC_STAT e, R.CNT_EVT_DROP] ++ eventRegs (0x05 + e)) s t ∧ MemKept s t)

/-- On a ready block: ENC_ARM sets ARMED; ENC_CLR_FAULT clears FAULT and FCODE once FAULT_N good samples have been seen and
restarts the tracking filter, and before then is refused with PG_FAULT; ENC_LOAD sets X to INDEX_VALUE and clears
UNCERTAIN, x moving by the same amount, unless the unit serves the active plan, when it is refused; at a limit of the
count it declares the saturation fault; LEV_RESTORE with no plan active returns every plane named, whose primary is valid,
to its primary. The frame of each is stated. (R43, R44, R45, R57) -/
def Obligations.EncoderControls : Prop :=
  ∀ (dt : Nat) (e : Fin 2) (m : Nat) (s : State), Ready s →
    (∃ t, exec (.encArm dt e) s = .next t ∧ t.dev.get (F.ENC_STAT_ARMED e) = 1
      ∧ RegsKept [R.ENC_STAT e] s t ∧ MemKept s t) ∧
    (LevelsTaken s e → encFaulty s.dev e = true → (s.dev.enc e).qdBad = false →
      s.dev.get (F.ENC_CFG_FAULT_N e) ≤ (s.dev.enc e).goodRun →
      ∃ t, exec (.encClrFault dt e) s = .next t ∧ t.dev.get (F.ENC_STAT_FAULT e) = 0 ∧ t.dev.get (F.ENC_STAT_FCODE e) = 0
        ∧ t.dev.get (F.ENC_STAT_UNCERTAIN e) = s.dev.get (F.ENC_STAT_UNCERTAIN e) ∧ (t.dev.enc e).restart = true
        ∧ RegsKept [R.ENC_STAT e] s t ∧ MemKept s t) ∧
    (LevelsTaken s e → encFaulty s.dev e = true →
      ((s.dev.enc e).qdBad = true ∨ (s.dev.enc e).goodRun < s.dev.get (F.ENC_CFG_FAULT_N e)) →
      s.dev.get (F.PG_FAULT_VALID (0x05 + e)) = 0 →
      ∃ t, exec (.encClrFault dt e) s = .next t ∧ t.dev.get (F.PG_FAULT_CODE (0x05 + e)) = 0x01
        ∧ t.dev.get (F.ENC_STAT_FAULT e) = 1 ∧ RegsKept (faultRegs (0x05 + e)) s t ∧ MemKept s t) ∧
    (boundToPlan s.dev e = false → LevelsTaken s e → PositionSteady s →
      (∀ p, p < 8 → sourceInUse s.dev p = e → (s.dev.plane p).assigns = []) →
      (indexValue s.dev e = countMin ∨ indexValue s.dev e = countMax → encFaulty s.dev e = false →
        ∃ t, exec (.encLoad dt e) s = .next t ∧ (t.dev.enc e).x = indexValue s.dev e ∧ t.dev.get (F.ENC_STAT_FAULT e) = 1
          ∧ t.dev.get (F.ENC_STAT_FCODE e) = 4 ∧ t.dev.get (F.ENC_STAT_UNCERTAIN e) = 1 ∧ EventSet t (0x05 + e) 8
          ∧ RegsKept ([R.ENC_STAT e, R.ENC_POS_LO e, R.CNT_EVT_DROP] ++ eventRegs (0x05 + e)) s t ∧ MemKept s t) ∧
      (countMin < indexValue s.dev e → indexValue s.dev e < countMax →
      ∃ t, exec (.encLoad dt e) s = .next t ∧ (t.dev.enc e).x = indexValue s.dev e ∧ (t.dev.enc e).qd = 0
        ∧ (t.dev.enc e).xh = (s.dev.enc e).xh + (indexValue s.dev e - ((s.dev.enc e).x + (s.dev.enc e).qd)) * 2 ^ 16
        ∧ (t.dev.enc e).vh = (s.dev.enc e).vh ∧ (t.dev.enc e).ah = (s.dev.enc e).ah
        ∧ t.dev.get (F.ENC_STAT_UNCERTAIN e) = 0
        ∧ RegsKept [R.ENC_STAT e, R.ENC_POS_LO e] s t ∧ MemKept s t)) ∧
    (boundToPlan s.dev e = true → s.dev.get (F.PG_FAULT_VALID (0x05 + e)) = 0 →
      ∃ t, exec (.encLoad dt e) s = .next t ∧ t.dev.get (F.PG_FAULT_CODE (0x05 + e)) = 0x01 ∧ t.dev.encs = s.dev.encs
        ∧ RegsKept (faultRegs (0x05 + e)) s t ∧ MemKept s t) ∧
    (s.dev.planActive = false →
      (∀ p, p < 8 → bit (m % 256) p = true → (sourceTrack (s.dev.elapse dt) (s.dev.get (F.LEV_CFG_PRI p))).isSome = true) →
      ∃ t, exec (.levRestore dt m) s = .next t
        ∧ (∀ p, p < 8 → bit (m % 256) p = true → t.dev.get (F.LEV_STAT_FB_ACTIVE p) = 0)
        ∧ RegsKept ((bitsOf 8 (m % 256)).map R.LEV_STAT) s t ∧ MemKept s t)

/-- On a ready follower with PTP time and no plan active: the first arrival of a SEQ in the active domain is taken with its
own time, one in the standby domain with the tracked offset removed; LOST clears and PUB_FAULT and PUB_FALLBACK follow the
flags. A sample of another domain only counts in DISCARD; a SEQ seen before changes nothing. While position is monitored
and TMO beats have passed, VENC_LOST sets LOST and raises the position-lost event; planes on other sources that have not
failed are untouched. (That DISCARD counts samples of unknown domains alone, and that the last 64 accepted SEQs are those
seen before, are the model's readings, log entries 28 and 106.) (R60, R61) -/
def Obligations.PublishedPosition : Prop :=
  ∀ (dt : Nat) (bs : List Byte) (act stby : Nat) (s : State), Ready s →
    act = s.dev.get (F.TIME_DOM_CFG_DOMAIN (s.dev.get (F.TIME_DOM_STAT_ACTIVE 1))) →
    stby = s.dev.get (F.TIME_DOM_CFG_DOMAIN (1 - s.dev.get (F.TIME_DOM_STAT_ACTIVE 1))) → act ≠ stby →
    (PositionAlone s → s.dev.get F.TIME_CTL_SRC = 0 → bs.length = 32 → byteAt bs 0 = 1 →
      (s.dev.vencSeqs.contains (beAt bs 4 4) = false → (byteAt bs 2 = act ∨ byteAt bs 2 = stby) →
        ∃ t v, exec (.vencSampleRx dt bs) s = .next t ∧ t.dev.venc = some v
          ∧ v.t = (((beAt bs 8 6 * 1000000000 + beAt bs 14 4) * 65536 + beAt bs 18 2 : Nat) : Int)
              - (if byteAt bs 2 = act then 0
                  else s.dev.getI (F.TIME_DOM_OFS_OFS (1 - s.dev.get (F.TIME_DOM_STAT_ACTIVE 1))) * 256)
          ∧ v.x = toSigned 48 (beAt bs 20 6) ∧ v.v = toSigned 32 (beAt bs 26 4) ∧ v.a = toSigned 16 (beAt bs 30 2)
          ∧ v.seq = beAt bs 4 4 ∧ v.flags = byteAt bs 1
          ∧ t.dev.get F.VENC_STAT_LOST = 0 ∧ t.dev.get F.VENC_STAT_PUB_FAULT = b2n (bit (byteAt bs 1) 1)
          ∧ t.dev.get F.VENC_STAT_PUB_FALLBACK = b2n (bit (byteAt bs 1) 3)
          ∧ RegsKept [R.VENC_STAT] s t ∧ MemKept s t) ∧
      (s.dev.vencSeqs.contains (beAt bs 4 4) = false → byteAt bs 2 ≠ act → byteAt bs 2 ≠ stby →
        ∃ t, exec (.vencSampleRx dt bs) s = .next t ∧ t.dev.venc = s.dev.venc
          ∧ t.dev.get F.VENC_STAT_DISCARD = min (s.dev.get F.VENC_STAT_DISCARD + 1) 0xFFFF
          ∧ RegsKept [R.VENC_STAT] s t ∧ MemKept s t) ∧
      (s.dev.vencSeqs.contains (beAt bs 4 4) = true →
        ∃ t, exec (.vencSampleRx dt bs) s = .next t ∧ t.dev.venc = s.dev.venc
          ∧ RegsKept [] s t ∧ MemKept s t)) ∧
    (vencMonitored s.dev = true → s.dev.get F.VENC_STAT_LOST = 0 → s.dev.get F.VENC_CFG_TMO ≤ s.dev.vencIdle →
      s.dev.get F.PLAN_STAY_PUBLISHER = 0 →
      (∀ p, p < 8 → s.dev.get (F.LEV_CFG_FB_EN p) = 0 ∧ sourceInUse s.dev p ≠ 2
        ∧ sourceFailed s.dev (sourceInUse s.dev p) = false ∧ holdsCause s.dev p causeEncoder = false) →
      ∃ t, exec (.vencLost dt) s = .next t ∧ t.dev.get F.VENC_STAT_LOST = 1 ∧ EventSet t 0x07 13
        ∧ RegsKept ([R.VENC_STAT, R.CNT_EVT_DROP] ++ eventRegs 0x07) s t ∧ MemKept s t)

/-- On a ready block: a one-step Sync from the configured parent, on the slave port of an enabled domain that is not the
active one and whose path delay m is known, gives the offset sample t1 + correction + m - t2: TIME_DOM_OFS takes it in
units of 2^-8 ns, rounded down and saturated to 32 bits, the domain is qualified once QUAL_N samples have been valid, and
the servo does not act. A peer-delay request of an enabled peer-to-peer domain is answered one-step on its port, by the
domain's transport, with the requester's identity and the request's correction plus the turnaround. Other registers and
memory are unchanged. (That TIME_DOM_OFS takes the sample itself, no filter being given, is log entry 24; the count
towards QUAL_N is that of log entry 109; the bytes of the answer are those of log entry 30.) (R66, R69, R70, R76) -/
def Obligations.SyncMeasuresTheStandbyDomain : Prop :=
  ∀ (dt : Nat) (q : Fin 2) (k l : Fin 2) (msg : List Byte) (s : State), Ready s → k ≠ l → 44 ≤ msg.length →
    byteAt msg 1 % 16 = 2 → s.dev.get (F.TIME_DOM_CFG_EN k) = 1 → s.dev.get (F.TIME_DOM_CFG_DOMAIN k) = byteAt msg 4 →
    s.dev.get (F.TIME_DOM_CFG_DOMAIN l) ≠ byteAt msg 4 →
    (∀ (m th : Int), byteAt msg 0 % 16 = 0 → bit (byteAt msg 6) 1 = false → s.dev.get (F.TIME_DOM_CFG_PORT k) = q →
      beAt msg 20 10 = parentOf s.dev k → actDom s.dev = l → s.dev.get F.TIME_CTL_REVERT = 0 →
      s.dev.get F.TIME_STAT_HOLDOVER = 0 → (s.dev.dom k).mpd = some m →
      th = ptpTime msg 34 + toSigned 64 (beAt msg 8 8) + m - rxStamp (s.dev.elapse dt) q →
      ∃ t, exec (.ptpMessageRx dt q msg) s = .next t
        ∧ t.dev.getI (F.TIME_DOM_OFS_OFS k) = satS 32 (th / 256)
        ∧ (t.dev.dom k).syncAt = s.dev.now + dt ∧ (t.dev.dom k).good = (s.dev.dom k).good + 1
        ∧ t.dev.get (F.TIME_DOM_STAT_QUAL k)
            = (if s.dev.get (F.TIME_DOM_CFG_QUAL_N k) ≤ (s.dev.dom k).good + 1 then 1 else s.dev.get (F.TIME_DOM_STAT_QUAL k))
        ∧ t.dev.clk = (s.dev.elapse dt).clk
        ∧ RegsKept [R.TIME_DOM_OFS k, R.TIME_DOM_STAT k] s t ∧ MemKept s t) ∧
    (byteAt msg 0 % 16 = 2 → s.dev.get (F.TIME_DOM_CFG_P2P k) = 1 → s.dev.get (F.TIME_DOM_CFG_TRANSPORT k) ≤ 2 → SendsNow s q →
      ∃ t fr o, exec (.ptpMessageRx dt q msg) s = .next t ∧ t.wire = .eth q fr :: s.wire
        ∧ PtpFrame fr o (s.dev.get (F.TIME_DOM_CFG_TRANSPORT k)) 3 (byteAt msg 4) (beAt msg 30 2)
        ∧ beAt fr (o + 44) 10 = beAt msg 20 10
        ∧ beAt fr (o + 8) 8 = ofSigned 64 (toSigned 64 (beAt msg 8 8)
            + (txStamp (s.dev.elapse dt) q - rxStamp (s.dev.elapse dt) q))
        ∧ RegsKept [] s t ∧ MemKept s t)

/-- For every device state and offset sample th: with SERVO_EN set, no holdover, and no step due, I_q and FREQ take exactly
the values of the program of R66; with no plan active, |th| above STEP_THR x 10 ns and no switch of domain still being
slewed (R71, log entry 109), the clock takes its value plus th, I_q and FREQ are kept, and STEPPED is set with the clock-
step event; with SERVO_EN clear, or in holdover, clock, I_q and FREQ are unchanged. While a plan is active the clock never
steps. (R65, R66, R67) -/
def Obligations.ClockServo : Prop :=
  ∀ (th P Di : Int) (lim : Int) (qual : Bool) (d : Dev), lim = (d.get F.TIME_SLEW_SLEW_LIM : Nat) →
    P = (if (d.get F.TIME_SERVO_KP : Int) * th / 2 ^ 14 < -(lim * 1024) then -(lim * 1024)
        else if lim * 1024 < (d.get F.TIME_SERVO_KP : Int) * th / 2 ^ 14 then lim * 1024
        else (d.get F.TIME_SERVO_KP : Int) * th / 2 ^ 14) →
    Di = (if (d.get F.TIME_SERVO_KI : Int) * th / 2 ^ 22 < -(lim * 64) then -(lim * 64)
        else if lim * 64 < (d.get F.TIME_SERVO_KI : Int) * th / 2 ^ 22 then lim * 64
        else (d.get F.TIME_SERVO_KI : Int) * th / 2 ^ 22) →
    (d.get F.TIME_CTL_SERVO_EN = 1 → d.get F.TIME_STAT_HOLDOVER = 0 →
      (d.planActive = true ∨ d.tm.noStep = true ∨ (th.natAbs : Nat) ≤ d.get F.TIME_SLEW_STEP_THR * 10 * 2 ^ 16) →
      (servo th qual d).tm.iq = satS 32 (d.tm.iq + Di)
        ∧ (servo th qual d).getI F.TIME_FREQ_FREQ = satS 32 (satS 32 (d.tm.iq + Di) + P)
        ∧ (servo th qual d).clk = d.clk
        ∧ ∀ a, a ≠ R.TIME_FREQ → a ≠ R.TIME_STAT → (servo th qual d).reg a = d.reg a) ∧
    (d.get F.TIME_CTL_SERVO_EN = 1 → d.get F.TIME_STAT_HOLDOVER = 0 → d.planActive = false → d.tm.noStep = false →
      d.get F.TIME_SLEW_STEP_THR * 10 * 2 ^ 16 < th.natAbs →
      (servo th qual d).clk = (d.t16 + th).toNat * 2 ^ 32 ∧ (servo th qual d).tm.iq = d.tm.iq
        ∧ (servo th qual d).get F.TIME_FREQ_FREQ = d.get F.TIME_FREQ_FREQ
        ∧ (servo th qual d).get F.TIME_STAT_STEPPED = 1 ∧ bit ((servo th qual d).reg (R.PG_EVT 0x08)).toNat 8 = true) ∧
    ((d.get F.TIME_CTL_SERVO_EN = 0 ∨ d.get F.TIME_STAT_HOLDOVER = 1) →
      (servo th qual d).clk = d.clk ∧ (servo th qual d).tm.iq = d.tm.iq
        ∧ ∀ a, a ≠ R.TIME_STAT → (servo th qual d).reg a = d.reg a)

/-- On a ready block: TIME_SET with no plan active loads the clock from TIME_SET with the fraction cleared; with a plan active
it sets SET_REFUSED and captures REFUSED in PG_FAULT and the clock goes on; a write that changes ACT_DOM asks for the
switch at the next beat boundary, one that does not leaves what was asked; the loss of an enabled domain clears QUAL and
sets LOST, and, for the active one, asks for a switch to the other if it is qualified; with the active domain lost and the
other not qualified the clock enters holdover with FREQ held at I_q and LOCKED clear; a boundary-clock master sends its
Sync on the other port, by the domain's transport, with its time and a rising sequence number, and a delay request, of the
kind that P2P selects, goes out on the slave port by the same transport with the next sequence number and the port's
identity. The frame of each is stated. (The bytes of the PTP messages, their correctionField and the port identity are
those of log entry 30; the switch and the loss of the lost active domain are read as log entry 109 says.) (R67, R69, R70,
R71, R72) -/
def Obligations.TimeCommands : Prop :=
  ∀ (dt : Nat) (k l : Fin 2) (s : State), Ready s → k ≠ l →
    (s.dev.planActive = false →
      ∃ t, exec (.timeSet dt) s = .next t
        ∧ t.dev.clk = (s.dev.get2 F.TIME_SET_SEC_LO_SEC F.TIME_SET_SEC_HI_SEC * 1000000000 + s.dev.get F.TIME_SET_NS_NS) * 2 ^ 48
        ∧ RegsKept ((List.range 8).map R.TP_STAT) s t ∧ MemKept s t) ∧
    (s.dev.planActive = true → s.dev.get (F.PG_FAULT_VALID 0x08) = 0 →
      ∃ t, exec (.timeSet dt) s = .next t ∧ t.dev.clk = (s.dev.elapse dt).clk
        ∧ t.dev.get F.TIME_STAT_SET_REFUSED = 1 ∧ t.dev.get (F.PG_FAULT_CODE 0x08) = 0x01
        ∧ RegsKept (R.TIME_STAT :: faultRegs 0x08) s t ∧ MemKept s t) ∧
    (∃ t, exec (.timeActDomWrite dt k) s = .next t ∧ t.dev.get F.TIME_CTL_ACT_DOM = k
      ∧ t.dev.tm.switchTo = (if s.dev.get F.TIME_CTL_ACT_DOM = k then s.dev.tm.switchTo else if actDom s.dev = k then none else some k.val) ∧ actDom t.dev = actDom s.dev
      ∧ RegsKept [R.TIME_CTL] s t ∧ MemKept s t) ∧
    (s.dev.get (F.TIME_DOM_CFG_EN k) = 1 → s.dev.get (F.TIME_DOM_STAT_LOST k) = 0 →
      (s.dev.dom k).syncAt + s.dev.get (F.TIME_DOM_CFG_LOSS_N k) * syncInterval s.dev k ≤ s.dev.now + dt →
      (actDom s.dev = l → (s.dev.get F.TIME_CTL_SRC = 1 ∨ s.dev.get (F.TIME_DOM_STAT_LOST l) = 0) →
        ∃ t, exec (.domainLost dt k) s = .next t ∧ t.dev.get (F.TIME_DOM_STAT_LOST k) = 1
          ∧ t.dev.get (F.TIME_DOM_STAT_QUAL k) = 0 ∧ (t.dev.dom k).good = 0 ∧ t.dev.tm.switchTo = s.dev.tm.switchTo
          ∧ RegsKept [R.TIME_DOM_STAT k] s t ∧ MemKept s t) ∧
      (actDom s.dev = k → s.dev.get F.TIME_CTL_SRC = 0 → s.dev.get (F.TIME_DOM_STAT_QUAL l) = 1 →
        ∃ t, exec (.domainLost dt k) s = .next t ∧ t.dev.get (F.TIME_DOM_STAT_LOST k) = 1
          ∧ t.dev.get (F.TIME_DOM_STAT_QUAL k) = 0 ∧ t.dev.tm.switchTo = some l.val
          ∧ RegsKept [R.TIME_DOM_STAT k] s t ∧ MemKept s t) ∧
      ((actDom s.dev = k ∧ s.dev.get (F.TIME_DOM_STAT_QUAL l) = 0) ∨ (actDom s.dev = l ∧ s.dev.get (F.TIME_DOM_STAT_LOST l) = 1) →
        s.dev.get F.TIME_CTL_SRC = 0 →
        s.dev.get F.TIME_STAT_HOLDOVER = 0 →
        ∃ t, exec (.domainLost dt k) s = .next t ∧ t.dev.get (F.TIME_DOM_STAT_LOST k) = 1
          ∧ t.dev.get F.TIME_STAT_HOLDOVER = 1 ∧ t.dev.get F.TIME_STAT_LOCKED = 0
          ∧ t.dev.get F.TIME_FREQ_FREQ = ofSigned 32 s.dev.tm.iq ∧ t.dev.tm.switchTo = none ∧ EventSet t 0x08 10
          ∧ RegsKept ([R.TIME_DOM_STAT k, R.TIME_STAT, R.TIME_FREQ, R.CNT_EVT_DROP] ++ eventRegs 0x08) s t ∧ MemKept s t)) ∧
    (s.dev.get (F.TIME_DOM_CFG_EN k) = 1 →
      (s.dev.get (F.TIME_DOM_CFG_BC_MASTER k) = 1 →
        ∃ t, exec (.ptpMessageTx dt k 0) s = .next t ∧ (t.dev.dom k).txSeq = ((s.dev.dom k).txSeq + 1) % 2 ^ 16
          ∧ (∀ q n, q = 1 - s.dev.get (F.TIME_DOM_CFG_PORT k) → SendsNow s q → s.dev.get (F.TIME_DOM_CFG_TRANSPORT k) ≤ 2 →
              n = (txStamp (s.dev.elapse dt) q).toNat →
              ∃ fr o, t.wire = .eth q fr :: s.wire
                ∧ PtpFrame fr o (s.dev.get (F.TIME_DOM_CFG_TRANSPORT k)) 0 (s.dev.get (F.TIME_DOM_CFG_DOMAIN k)) ((s.dev.dom k).txSeq % 2 ^ 16)
                ∧ beAt fr (o + 34) 6 = n / 2 ^ 16 / 1000000000 % 2 ^ 48 ∧ beAt fr (o + 40) 4 = n / 2 ^ 16 % 1000000000
                ∧ beAt fr (o + 8) 8 = n % 2 ^ 16)
          ∧ RegsKept [] s t ∧ MemKept s t) ∧
      (∀ typ : Fin 3, typ.val = 1 + s.dev.get (F.TIME_DOM_CFG_P2P k) →
        ∃ t, exec (.ptpMessageTx dt k typ) s = .next t ∧ (t.dev.dom k).reqOut = true
          ∧ (t.dev.dom k).reqSeq = ((s.dev.dom k).reqSeq + 1) % 2 ^ 16
          ∧ (t.dev.dom k).t3 = txStamp (s.dev.elapse dt) (s.dev.get (F.TIME_DOM_CFG_PORT k))
          ∧ (∀ q, q = s.dev.get (F.TIME_DOM_CFG_PORT k) → SendsNow s q → s.dev.get (F.TIME_DOM_CFG_TRANSPORT k) ≤ 2 →
              ∃ fr o, t.wire = .eth q fr :: s.wire
                ∧ PtpFrame fr o (s.dev.get (F.TIME_DOM_CFG_TRANSPORT k)) typ (s.dev.get (F.TIME_DOM_CFG_DOMAIN k)) (((s.dev.dom k).reqSeq + 1) % 2 ^ 16)
                ∧ beAt fr (o + 20) 10 = ownIdentity s.dev q % 2 ^ 80)
          ∧ RegsKept [] s t ∧ MemKept s t))

/-- On a ready block: a read of TSQ_DATA0 removes the head entry, answers its ID, port and VALID, and latches its time; with
the queue empty the answer has VALID 0. At the start instant of the next pulse of an enabled schedule, TPULSE goes active,
the pulse counts and ends WIDTH later; at its end the output goes inactive. Other registers and all memory are unchanged.
(R77, R83) -/
def Obligations.StampsAndPulses : Prop :=
  ∀ (dt id q tim : Nat) (l : List (Nat × Nat × Nat)) (o : Fin 8) (s : State), Ready s →
    (s.dev.tm.tsq = (id, q, tim) :: l →
      ∃ t, exec (.tsqData0Read dt) s = .next t ∧ t.dev.tm.tsq = l
        ∧ t.dev.busResp = .ok (t.dev.reg R.TSQ_DATA0).toNat
        ∧ t.dev.get F.TSQ_DATA0_ID = id % 2 ^ 16 ∧ t.dev.get F.TSQ_DATA0_PORT = q % 2 ∧ t.dev.get F.TSQ_DATA0_VALID = 1
        ∧ t.dev.get F.TSQ_DATA1_NS = tim / 2 ^ 16 % 1000000000 ∧ t.dev.get F.TSQ_DATA2_FRAC = tim % 2 ^ 16
        ∧ t.dev.get F.TSQ_DATA3_SEC = tim / 2 ^ 16 / 1000000000 % 2 ^ 32 ∧ t.dev.get F.TSQ_STAT_COUNT = l.length % 2 ^ 5
        ∧ RegsKept [R.TSQ_DATA0, R.TSQ_DATA1, R.TSQ_DATA2, R.TSQ_DATA3, R.TSQ_STAT] s t ∧ MemKept s t) ∧
    (s.dev.tm.tsq = [] →
      ∃ t, exec (.tsqData0Read dt) s = .next t ∧ t.dev.get F.TSQ_DATA0_VALID = 0
        ∧ t.dev.busResp = .ok (t.dev.reg R.TSQ_DATA0).toNat ∧ RegsKept [R.TSQ_DATA0] s t ∧ MemKept s t) ∧
    (∀ st : Int, s.dev.get (F.PG_CTL_EN 0x09) = 1 → s.dev.get (F.TP_CFG_EN o) = 1 → (s.dev.tp o).endT = none →
      (s.dev.get (F.TP_CFG_COUNT o) = 0 ∨ (s.dev.tp o).k < s.dev.get (F.TP_CFG_COUNT o)) →
      tpBefore s.dev o (s.dev.tp o).start (s.dev.tp o).hold ≤ (s.dev.tp o).k →
      st = (s.dev.tp o).start + (s.dev.tp o).k * (s.dev.get (F.TP_PERIOD_PERIOD o) : Int) → st ≤ (s.dev.elapse dt).tNs →
      ∃ t, exec (.tpulseEdge dt o) s = .next t ∧ (t.dev.tp o).k = (s.dev.tp o).k + 1
        ∧ (t.dev.tp o).endT = some (st + s.dev.get (F.TP_WIDTH_WIDTH o))
        ∧ t.dev.pinLevel .tpulse o = 1 - s.dev.get (F.TP_CFG_POL o) ∧ t.dev.get (F.TP_STAT_RUN o) = 1
        ∧ RegsKept [R.TP_STAT o] s t ∧ MemKept s t) ∧
    (∀ e : Int, (s.dev.tp o).endT = some e → e ≤ (s.dev.elapse dt).tNs →
      ∃ t, exec (.tpulseEdge dt o) s = .next t ∧ (t.dev.tp o).endT = none ∧ (t.dev.tp o).k = (s.dev.tp o).k
        ∧ t.dev.pinLevel .tpulse o = s.dev.get (F.TP_CFG_POL o)
        ∧ RegsKept [R.TP_STAT o] s t ∧ MemKept s t)

/-- On a ready block with no plan active, for a frame on an enabled port whose link is up: a frame with a bad FCS on the
standby counts in CNT_FCS; one below 64 bytes or above MAX_FRAME with its FCS counts in CNT_LEN; a flow control frame
counts in CNT_PAUSE; a frame for none of the port's addresses counts in CNT_FILTER; an ARP request for the port's address
is answered on the port; a frame that no step takes goes to the buffer that the next receive record names, its length and
port to the record, RXR_HEAD moves on and source 27 is rung. The frame of each is stated. (R89, R105) -/
def Obligations.ReceivedFrames : Prop :=
  ∀ (dt : Nat) (q : Fin 2) (fr : List Byte) (s : State), Ready s → s.dev.planActive = false →
    s.dev.get (F.PG_CTL_EN (0x0A + q)) = 1 → ethUp s.dev q = true →
    (activePort s.dev ≠ q →
      ∃ t, exec (.ethRxFrame dt q 0 false fr) s = .next t
        ∧ t.dev.get (F.CNT_FCS_CNT q) = min (s.dev.get (F.CNT_FCS_CNT q) + 1) 0xFFFFFFFF
        ∧ RegsKept [R.CNT_FCS q] s t ∧ MemKept s t) ∧
    ((fr.length < 60 ∨ s.dev.get (F.ETH_CFG_MAX_FRAME q) < fr.length + 4) →
      ∃ t, exec (.ethRxFrame dt q 0 true fr) s = .next t
        ∧ t.dev.get (F.CNT_LEN_CNT q) = min (s.dev.get (F.CNT_LEN_CNT q) + 1) 0xFFFFFFFF
        ∧ RegsKept [R.CNT_LEN q] s t ∧ MemKept s t) ∧
    (60 ≤ fr.length → fr.length + 4 ≤ s.dev.get (F.ETH_CFG_MAX_FRAME q) →
      ((ethView fr).etype = 0x8808 →
        ∃ t, exec (.ethRxFrame dt q 0 true fr) s = .next t
          ∧ t.dev.get (F.CNT_PAUSE_CNT q) = min (s.dev.get (F.CNT_PAUSE_CNT q) + 1) 0xFFFFFFFF
          ∧ RegsKept [R.CNT_PAUSE q] s t ∧ MemKept s t) ∧
      ((ethView fr).etype ≠ 0x8808 → (ethView fr).dst ≠ portMac s.dev q → (ethView fr).dst ≠ 0xFFFFFFFFFFFF →
        mcastMac s.dev q (ethView fr).dst = false →
        ∃ t, exec (.ethRxFrame dt q 0 true fr) s = .next t
          ∧ t.dev.get (F.CNT_FILTER_CNT q) = min (s.dev.get (F.CNT_FILTER_CNT q) + 1) 0xFFFFFFFF
          ∧ RegsKept [R.CNT_FILTER q] s t ∧ MemKept s t) ∧
      (((ethView fr).dst = portMac s.dev q ∨ (ethView fr).dst = 0xFFFFFFFFFFFF) → (ethView fr).tags = 0 →
        s.dev.get (F.ETH_CFG_VLAN_EN q) = 0 →
        (arpForUs s.dev q (ethView fr) = true → SendsNow s q →
          ∃ t reply, exec (.ethRxFrame dt q 0 true fr) s = .next t ∧ t.wire = .eth q reply :: s.wire
            ∧ beAt reply 0 6 = beAt (ethView fr).body 8 6 ∧ beAt reply 6 6 = portMac s.dev q % 2 ^ 48
            ∧ beAt reply 12 2 = 0x0806 ∧ beAt reply 20 2 = 2
            ∧ beAt reply 28 4 = s.dev.get (F.ETH_IP4_ADDR q)
            ∧ RegsKept [] s t ∧ MemKept s t) ∧
        (∀ (rec buf : Nat) (b : List Byte), (ethView fr).etype ∉ [0x8808, 0x88F7, 0x0806, 0x0800, 0x86DD] →
          s.dev.get F.RXR_HEAD_HEAD ≠ s.dev.get F.RXR_TAIL_TAIL → s.dev.get F.RXR_SIZE_SIZE ≠ 0 →
          rec = s.dev.get2 F.RXR_BASE_LO_BASE F.RXR_BASE_HI_BASE + 16 * s.dev.get F.RXR_HEAD_HEAD →
          Reach s mEthRings kindRead rec 8 → (engineRead mEthRings rec 8 (s.dev.elapse dt)).1 = some b → buf = leAt b 0 5 →
          Reach s mEthRings kindWrite buf fr.length → Reach s mEthRings kindWrite (rec + 8) 8 →
          (buf + fr.length ≤ rec + 8 ∨ rec + 16 ≤ buf) →
          ∃ t, exec (.ethRxFrame dt q 0 true fr) s = .next t
            ∧ (∀ i, (h : i < fr.length) → t.byte (buf + i) = fr[i])
            ∧ t.byte (rec + 8) = BitVec.ofNat 8 fr.length ∧ t.byte (rec + 9) = BitVec.ofNat 8 (fr.length / 256)
            ∧ t.byte (rec + 10) = BitVec.ofNat 8 q
            ∧ t.dev.get F.RXR_HEAD_HEAD = (s.dev.get F.RXR_HEAD_HEAD + 1) % s.dev.get F.RXR_SIZE_SIZE
            ∧ t.dev.sharedPending 27 = true
            ∧ RegsKept ([R.RXR_HEAD, R.EVT_PEND 0, R.EVTC_CNT 0, R.EVTC_CNT 1, R.EVTC_CNT 2, R.EVTC_CNT 3] ++ memRegs) s t
            ∧ (∀ a, (a < buf ∨ buf + fr.length ≤ a) → (a < rec + 8 ∨ rec + 16 ≤ a) → t.byte a = s.byte a))))

/-- On a ready block: a write of TXR_TAIL takes its low 16 bits; a free transmitter of an enabled port whose link is up sends
the frame that the next descriptor names, when the descriptor is untimed, for this port alone and without insertions:
exactly the buffer's bytes go out, and TXR_HEAD moves on; when its last symbol has gone, DONE (bit 4 of FLAGS) is set in
the descriptor and no other byte of memory changes. (R81, R104) -/
def Obligations.TransmitRing : Prop :=
  ∀ (dt : Nat) (q : Fin 2) (w : Word) (s : State), Ready s →
    (∃ t, exec (.txrTailWrite dt w) s = .next t ∧ t.dev.get F.TXR_TAIL_TAIL = w.toNat % 2 ^ 16
      ∧ RegsKept [R.TXR_TAIL] s t ∧ MemKept s t) ∧
    (∀ (a : Nat) (d fr : List Byte), ethUp s.dev q = true → s.dev.get (F.PG_CTL_EN (0x0A + q)) = 1 →
      s.dev.get F.TXR_HEAD_HEAD ≠ s.dev.get F.TXR_TAIL_TAIL → s.dev.path.txFlight = [] → s.dev.path.txStarted = 0 → s.dev.path.txWait = [] →
      s.dev.get F.TXR_SIZE_SIZE ≠ 0 →
      a = s.dev.get2 F.TXR_BASE_LO_BASE F.TXR_BASE_HI_BASE + 32 * s.dev.get F.TXR_HEAD_HEAD →
      Reach s mEthRings kindRead a 32 → (engineRead mEthRings a 32 (s.dev.elapse dt)).1 = some d →
      byteAt d 10 = q → byteAt d 11 = 0 → launchTimed (leAt d 16 8) = false →
      60 ≤ leAt d 8 2 → leAt d 8 2 + 4 ≤ s.dev.get (F.ETH_CFG_MAX_FRAME q) →
      Reach s mEthRings kindRead (leAt d 0 5) (leAt d 8 2) →
      (engineRead mEthRings (leAt d 0 5) (leAt d 8 2) (engineRead mEthRings a 32 (s.dev.elapse dt)).2).1 = some fr →
      isOneStep fr = false →
      ∃ t, exec (.ethTxFrame dt q) s = .next t ∧ t.wire = .eth q fr :: s.wire
        ∧ t.dev.get F.TXR_HEAD_HEAD = (s.dev.get F.TXR_HEAD_HEAD + 1) % s.dev.get F.TXR_SIZE_SIZE
        ∧ t.dev.path.txFlight = [(s.dev.get F.TXR_HEAD_HEAD, 2 ^ q.val)]
        ∧ RegsKept (R.TXR_HEAD :: memRegs) s t ∧ MemKept s t) ∧
    (∀ (h a : Nat) (b : Byte), s.dev.path.txFlight = [(h, 2 ^ q.val)] → s.dev.get F.TXR_HEAD_HEAD ≠ h →
      a = s.dev.get2 F.TXR_BASE_LO_BASE F.TXR_BASE_HI_BASE + 32 * h + 11 →
      Reach s mEthRings kindRead a 1 → Reach s mEthRings kindWrite a 1 →
      (engineRead mEthRings a 1 (s.dev.elapse dt)).1 = some [b] →
      ∃ t, exec (.ethTxDone dt q) s = .next t ∧ t.byte a = b ||| 0x10#8 ∧ t.dev.path.txFlight = []
        ∧ RegsKept memRegs s t ∧ MemKeptOutside a 1 s t)

/-- On a ready block: a link change puts the four receive conditions into ETH_LINK, LINK_UP being all of them good, and raises
the port's link event when LINK_UP changes; the active port's going down decides a switchover with cause 1, or, where the
standby is not healthy, raises the no-standby event; after the duplicate time-out STBY_HEALTHY is the standby's health,
SOLO its opposite and NO_PATH says that no link is up; a snapshot that is whole and whose check word matches becomes
current, one whose check word does not leaves the current one, and a new active waiting for it resumes: ACTIVE changes
side, SWITCHED, LAST_CAUSE and SWITCH_COUNT record it and the switchover event is raised. After a fault of the old engine
(cause 3) it takes the receive state of the current snapshot too: the one that arrives, or, where that one is not sound,
the one before. (R90, R91, R95, R98, R99) -/
def Obligations.PortLinksAndHealth : Prop :=
  ∀ (dt : Nat) (q : Fin 2) (lock lf rf fec : Bool) (s : State), Ready s →
    (((lock && !lf && !rf && fec) = true ∨ activePort s.dev ≠ q) →
      ∃ t, exec (.ethLinkChange dt q lock lf rf fec) s = .next t
        ∧ t.dev.get (F.ETH_LINK_BLOCK_LOCK q) = b2n lock ∧ t.dev.get (F.ETH_LINK_LOCAL_FAULT q) = b2n lf
        ∧ t.dev.get (F.ETH_LINK_REMOTE_FAULT q) = b2n rf
        ∧ t.dev.get (F.ETH_LINK_LINK_UP q) = b2n (lock && !lf && !rf && fec)
        ∧ (ethUp s.dev q ≠ (lock && !lf && !rf && fec) → EventSet t (0x0A + q) 8)
        ∧ RegsKept ([R.ETH_LINK q, R.PATH_STAT] ++ eventRegs (0x0A + q)) s t ∧ MemKept s t) ∧
    (activePort s.dev = q → ethUp s.dev q = true → (lock && !lf && !rf && fec) = false → s.dev.get (F.PG_CTL_EN 0x0C) = 1 →
      s.dev.get F.PATH_CFG_AUTO_SW = 1 → s.dev.path.resume = none →
      (standbyHealthy (s.dev.elapse dt) = true →
        ∃ t, exec (.ethLinkChange dt q lock lf rf fec) s = .next t ∧ t.dev.get (F.ETH_LINK_LINK_UP q) = 0
          ∧ t.dev.path.decided = some (min (s.dev.path.decided.getD 1) 1) ∧ EventSet t (0x0A + q) 8
          ∧ RegsKept ([R.ETH_LINK q, R.PATH_STAT] ++ eventRegs (0x0A + q)) s t ∧ MemKept s t) ∧
      (standbyHealthy (s.dev.elapse dt) = false →
        ∃ t, exec (.ethLinkChange dt q lock lf rf fec) s = .next t ∧ t.dev.get (F.ETH_LINK_LINK_UP q) = 0
          ∧ t.dev.path.decided = s.dev.path.decided ∧ EventSet t (0x0A + q) 8 ∧ EventSet t 0x0C 9
          ∧ RegsKept ([R.ETH_LINK q, R.PATH_STAT] ++ eventRegs (0x0A + q) ++ eventRegs 0x0C) s t ∧ MemKept s t)) ∧
    (∃ t, exec (.stbyDupTimeout dt) s = .next t
      ∧ t.dev.get F.PATH_STAT_STBY_HEALTHY = b2n (standbyHealthy (s.dev.elapse dt))
      ∧ t.dev.get F.PATH_STAT_SOLO = 1 - t.dev.get F.PATH_STAT_STBY_HEALTHY
      ∧ t.dev.get F.PATH_STAT_NO_PATH = b2n (!(ethUp s.dev 0 || ethUp s.dev 1))
      ∧ t.dev.get F.PATH_STAT_UNDRILLED = b2n (s.dev.get F.PATH_CFG_T_DRILL == 0)
      ∧ t.dev.get F.PATH_STAT_ACTIVE = s.dev.get F.PATH_STAT_ACTIVE
      ∧ RegsKept [R.PATH_STAT] s t ∧ MemKept s t) ∧
    (∀ c : Snap, s.dev.path.coming = some c →
      (s.dev.path.resume = none →
        ∃ t, exec (.snapshotComplete ⟨dt, true⟩) s = .next t ∧ t.dev.path.cur = some c ∧ t.dev.path.coming = none
          ∧ RegsKept [] s t ∧ MemKept s t) ∧
      (∃ t, exec (.snapshotComplete ⟨dt, false⟩) s = .next t ∧ t.dev.path.cur = s.dev.path.cur ∧ t.dev.path.coming = none
          ∧ t.dev.path.resume = s.dev.path.resume ∧ RegsKept [] s t ∧ MemKept s t) ∧
      (∀ k : Fin 8, s.dev.path.resume = some k.val → k.val ≠ 3 → s.dev.path.held = [] → s.dev.openSessions = 0 →
        ∃ t, exec (.snapshotComplete ⟨dt, true⟩) s = .next t ∧ t.dev.path.cur = some c ∧ t.dev.path.resume = none
          ∧ t.dev.get F.PATH_STAT_ACTIVE = 1 - s.dev.get F.PATH_STAT_ACTIVE ∧ t.dev.get F.PATH_STAT_SWITCHED = 1
          ∧ t.dev.get F.PATH_STAT_LAST_CAUSE = k
          ∧ t.dev.get F.PATH_STAT_SWITCH_COUNT = min (s.dev.get F.PATH_STAT_SWITCH_COUNT + 1) 0xFFFF
          ∧ EventSet t 0x0C 8
          ∧ RegsKept (R.PATH_STAT :: eventRegs 0x0C) s t ∧ MemKept s t) ∧
      (∀ (sound : Bool) (c' : Snap), s.dev.path.resume = some 3 → s.dev.path.held = [] →
        (∀ k, (s.dev.sess k).todo = [] ∧ (s.dev.sess k).held = []) → (if sound then some c else s.dev.path.cur) = some c' →
        ∃ t, exec (.snapshotComplete ⟨dt, sound⟩) s = .next t ∧ t.dev.path.cur = some c' ∧ t.dev.path.resume = none
          ∧ t.dev.get F.PATH_STAT_ACTIVE = 1 - s.dev.get F.PATH_STAT_ACTIVE ∧ t.dev.get F.PATH_STAT_LAST_CAUSE = 3
          ∧ EventSet t 0x0C 8 ∧ t.dev.get F.STORE_COR_FILL_FILL = c'.corFill % 2 ^ 16
          ∧ (∀ (n : Fin 16) (cum bm : Nat), sessOpen s.dev n = true → bit c'.opened n = true →
              cellGet (0, 0) c'.rx n = (cum, bm) → bm % 2 = 0 → cum < 2 ^ 32 →
              t.dev.get (F.RX_CUM_CUM n) = cum ∧ (t.dev.sess n).got = bm / 2)
          ∧ RegsKept ([R.PATH_STAT, R.STORE_COR_FILL, R.CNT_EVT_DROP] ++ eventRegs 0x0C
              ++ (List.range 16).map (fun n => R.RX_CUM n)) s t ∧ MemKept s t))

/-- On a ready block with PATH enabled: an engine fault with AUTO_SW and a SWITCH command decide a switchover with cause 3 or
4, the lower code of any decided before, when the standby is healthy, and otherwise raise the no-standby event and decide
nothing; a fault while a new active waits for its snapshot makes the cause of that switchover 3, unless it is lower; the
power island marks the engine off; the drill timer and DRILL_NOW ask for a drill when the standby is healthy; POST_TMO
beats without a message after a drill's swap set DRILL_FAIL with LAST_STAGE 7, count the failure and raise its event.
Other registers and memory are unchanged. (R98, R100, R101, R103) -/
def Obligations.SwitchoverAndDrill : Prop :=
  ∀ (dt : Nat) (s : State), Ready s → s.dev.get (F.PG_CTL_EN 0x0C) = 1 →
    (s.dev.get F.PATH_CFG_AUTO_SW = 1 → s.dev.path.resume = none → standbyHealthy (s.dev.elapse dt) = true →
      ∃ t, exec (.pathEngineFault dt false) s = .next t
        ∧ t.dev.path.decided = some (min (s.dev.path.decided.getD 3) 3) ∧ t.dev.path.drill = false
        ∧ RegsKept [R.PATH_STAT] s t ∧ MemKept s t) ∧
    (∀ c : Nat, s.dev.get F.PATH_CFG_AUTO_SW = 1 → s.dev.path.resume = some c →
      ∃ t, exec (.pathEngineFault dt false) s = .next t ∧ t.dev.path.resume = some (min 3 c) ∧ t.dev.path.drill = false
        ∧ t.dev.path.decided = s.dev.path.decided ∧ RegsKept [R.PATH_STAT] s t ∧ MemKept s t) ∧
    (s.dev.get F.PATH_CFG_AUTO_SW = 1 → s.dev.path.resume = none → standbyHealthy (s.dev.elapse dt) = false →
      ∃ t, exec (.pathEngineFault dt true) s = .next t ∧ t.dev.path.decided = s.dev.path.decided
        ∧ bit t.dev.path.broken (activePort s.dev) = true ∧ EventSet t 0x0C 9
        ∧ RegsKept (R.PATH_STAT :: eventRegs 0x0C) s t ∧ MemKept s t) ∧
    (standbyHealthy (s.dev.elapse dt) = true →
      ∃ t, exec (.pathSwitchCmd dt) s = .next t ∧ t.dev.path.decided = some (min (s.dev.path.decided.getD 4) 4)
        ∧ RegsKept [R.PATH_STAT] s t ∧ MemKept s t) ∧
    (standbyHealthy (s.dev.elapse dt) = false →
      ∃ t, exec (.pathSwitchCmd dt) s = .next t ∧ t.dev.path.decided = s.dev.path.decided ∧ EventSet t 0x0C 9
        ∧ RegsKept (R.PATH_STAT :: eventRegs 0x0C) s t ∧ MemKept s t) ∧
    (standbyHealthy (s.dev.elapse dt) = true → s.dev.path.drillLate = false → s.dev.get F.PATH_CFG_T_DRILL ≠ 0 →
      s.dev.path.switchAt + s.dev.get F.PATH_CFG_T_DRILL * 1000000000 ≤ s.dev.now + dt →
      ∃ t, exec (.pathDrillTimer dt) s = .next t ∧ t.dev.path.drill = true ∧ RegsKept [R.PATH_STAT] s t ∧ MemKept s t) ∧
    (standbyHealthy (s.dev.elapse dt) = true →
      ∃ t, exec (.pathDrillNow dt) s = .next t ∧ t.dev.path.drill = true ∧ t.dev.path.drillLate = false
        ∧ RegsKept [R.PATH_STAT] s t ∧ MemKept s t) ∧
    (∀ b : Nat, s.dev.path.post = some b → b + s.dev.get F.PATH_ERRLIM_POST_TMO ≤ (s.dev.elapse dt).beatNum →
      ∃ t, exec (.drillPostTimeout dt) s = .next t ∧ t.dev.get F.PATH_STAT_DRILL_FAIL = 1
        ∧ t.dev.get F.PATH_STAT_LAST_STAGE = 7 ∧ t.dev.path.post = none
        ∧ t.dev.get F.PATH_DRILL_CNT_FAIL = min (s.dev.get F.PATH_DRILL_CNT_FAIL + 1) 0xFFFF
        ∧ bit t.dev.path.checked (activePort s.dev) = false ∧ EventSet t 0x0C 10
        ∧ (standbyHealthy (s.dev.elapse dt) = true → t.dev.path.decided = some (min (s.dev.path.decided.getD 6) 6))
        ∧ RegsKept ([R.PATH_STAT, R.PATH_DRILL_CNT, R.CNT_EVT_DROP] ++ eventRegs 0x0C) s t ∧ MemKept s t)

/-- On a ready block, for the next message of an OPEN unauthenticated session, on the active port, within its credit and free
of a cleat or rate change: a LAYER_SEGMENT that passes its checks puts payload bytes from 16 on at ADDR, advances the
stream's fill mark by its length when it starts at the mark and otherwise sets the stream's order error; a COPY_ORDER that
passes its checks puts its descriptors, each word least significant byte first, into their slots and sets STORE_COR_FILL
after them. CUM grows by 1 and JOB is the message's. Every other byte of memory and every register not named is unchanged.
(R111, R127, R128, R162) -/
def Obligations.BulkToMemory : Prop :=
  ∀ (dt : Nat) (q : Fin 2) (n : Fin 16) (seq job epoch : Word) (p : List Byte) (s : State), Ready s → CalmSession s n → ethUp s.dev q = true →
    p.length ≤ 9216 → seq.toNat = s.dev.get (F.RX_CUM_CUM n) →
    BulkFlows s n q p.length →
    (∀ a : Nat, 16 ≤ p.length → a = beAt p 0 8 → a < 2 ^ 40 →
      layerCheck s.dev (winBase s.dev n) (winSize s.dev n) a (beAt p 8 2) (byteAt p 10) (byteAt p 11) (beAt p 12 4)
        (p.length - 16) = 0 →
      Reach s mJtpBulk kindWrite a (p.length - 16) →
      ∃ t, exec (.layerSegment dt q n seq job epoch p) s = .next t
        ∧ (∀ j, j < p.length - 16 → t.byte (a + j) = p.getD (16 + j) 0) ∧ MemKeptOutside a (p.length - 16) s t
        ∧ t.dev.get (F.RX_CUM_CUM n) = (seq.toNat + 1) % 2 ^ 32 ∧ t.dev.get (F.JOB_JOB n) = job.toNat
        ∧ (a = streamBase (s.dev.stream (beAt p 8 2)) + (s.dev.stream (beAt p 8 2)).fill →
            (s.dev.stream (beAt p 8 2)).ring = false →
            (t.dev.stream (beAt p 8 2)).fill = (s.dev.stream (beAt p 8 2)).fill + (p.length - 16)
              ∧ (t.dev.stream (beAt p 8 2)).err = (s.dev.stream (beAt p 8 2)).err
              ∧ RegsKept (jtpRegs n ++ memRegs) s t)
        ∧ (a ≠ streamBase (s.dev.stream (beAt p 8 2)) + (s.dev.stream (beAt p 8 2)).fill →
            (t.dev.stream (beAt p 8 2)).fill = (s.dev.stream (beAt p 8 2)).fill
              ∧ (t.dev.stream (beAt p 8 2)).err = true ∧ EventSet t 0x0E 8
              ∧ RegsKept (jtpRegs n ++ memRegs ++ eventRegs 0x0E) s t)) ∧
    (∀ a : Nat, 8 ≤ p.length → copyOrderCheck s.dev (beAt p 0 4) (beAt p 4 2) p.length = 0 →
      beAt p 0 4 + beAt p 4 2 ≤ 65536 → a = corBase s.dev + 32 * beAt p 0 4 →
      Reach s mJtpBulk kindWrite a (32 * beAt p 4 2) →
      ∃ t, exec (.copyOrder dt q n seq job epoch p) s = .next t
        ∧ (∀ j, j < 32 * beAt p 4 2 → t.byte (a + j) = p.getD (8 + j / 4 * 4 + (3 - j % 4)) 0)
        ∧ MemKeptOutside a (32 * beAt p 4 2) s t
        ∧ t.dev.get (F.RX_CUM_CUM n) = (seq.toNat + 1) % 2 ^ 32 ∧ t.dev.get (F.JOB_JOB n) = job.toNat
        ∧ t.dev.get F.STORE_COR_FILL_FILL = (beAt p 0 4 + beAt p 4 2) % 2 ^ 16
        ∧ RegsKept (R.STORE_COR_FILL :: jtpRegs n ++ memRegs) s t)

/-- On a ready block, for the next message of an OPEN unauthenticated session, on the active port, within its credit and free
of a cleat or rate change, all of whose writes Shroud permits: PLAN_LOAD puts each word into the RWS bits of the shadow at
its offset of page 0x04, other bits kept; TABLE_WRITE of the nozzle table puts each entry, reserved bit 59 zero, into the
shadow table from FIRST on and leaves every other entry; one of the tile memory, of a waveform instance or of a port's
trim set does so with the entry's field bits, and leaves the other instances and tables. CUM grows by 1 and JOB is the
message's; every other register and every byte of memory is unchanged. (R125, R126) -/
def Obligations.BulkToShadows : Prop :=
  ∀ (dt : Nat) (q : Fin 2) (n : Fin 16) (seq job epoch : Word) (p : List Byte) (s : State), Ready s → CalmSession s n → ethUp s.dev q = true →
    p.length ≤ 9216 → seq.toNat = s.dev.get (F.RX_CUM_CUM n) →
    BulkFlows s n q p.length →
    (∀ off c : Nat, off = beAt p 0 2 → c = beAt p 2 2 → p.length = 4 + 4 * c → 0 < c → off % 4 = 0 → 0x40 ≤ off →
      off + 4 * c ≤ 0x384 → (∀ k, k < c → (shroudCheck s.dev mJtpBulk kindWrite (0x40004800 + off + 4 * k) false).1 = true) →
      ∃ t, exec (.planLoad dt q n seq job epoch p) s = .next t
        ∧ (∀ k, k < c → t.dev.reg (0x4800 + off + 4 * k)
            = (s.dev.reg (0x4800 + off + 4 * k) &&& ~~~BitVec.ofNat 32 (rwsMask (0x4000 + off + 4 * k)))
              ||| (BitVec.ofNat 32 (beAt p (4 + 4 * k) 4) &&& BitVec.ofNat 32 (rwsMask (0x4000 + off + 4 * k))))
        ∧ t.dev.get (F.RX_CUM_CUM n) = (seq.toNat + 1) % 2 ^ 32 ∧ t.dev.get (F.JOB_JOB n) = job.toNat
        ∧ RegsKept ((List.range c).map (fun k => 0x4800 + off + 4 * k) ++ jtpRegs n) s t ∧ MemKept s t) ∧
    (∀ first c : Nat, byteAt p 0 = 1 → byteAt p 1 = 0 → c = beAt p 2 2 → first = beAt p 4 4 → p.length = 8 + 8 * c →
      first + c ≤ 131072 → (shroudCheck s.dev mJtpBulk kindWrite 0x40012000 false).1 = true →
      ∃ t, exec (.tableWrite dt q n seq job epoch p) s = .next t
        ∧ (∀ k, k < c → nozShadow t.dev (first + k)
            = nozClean (beAt p (8 + 8 * k) 4 + beAt p (12 + 8 * k) 4 * 2 ^ 32))
        ∧ (∀ g, (g < first ∨ first + c ≤ g) → nozShadow t.dev g = nozShadow s.dev g)
        ∧ t.dev.get (F.RX_CUM_CUM n) = (seq.toNat + 1) % 2 ^ 32 ∧ t.dev.get (F.JOB_JOB n) = job.toNat ∧ RegsKept (jtpRegs n) s t ∧ MemKept s t) ∧
    (∀ table inst insts first c entries : Nat, table = byteAt p 0 → inst = byteAt p 1 → tableShape table = some (insts, entries, 1) → inst < insts →
      c = beAt p 2 2 → first = beAt p 4 4 → p.length = 8 + 4 * c → first + c ≤ entries →
      (shroudCheck s.dev mJtpBulk kindWrite (0x40000000 + 0x1000 * tablePage table) false).1 = true →
      ∃ t, exec (.tableWrite dt q n seq job epoch p) s = .next t ∧ t.dev.nozSh = s.dev.nozSh
        ∧ (∀ a, cellGet tileReset t.dev.tileSh a = if table = 2 ∧ first ≤ a ∧ a < first + c
            then BitVec.ofNat 32 (beAt p (8 + 4 * (a - first)) 4) &&& tileReset else cellGet tileReset s.dev.tileSh a)
        ∧ (∀ j i, i < 512 → waveShadow t.dev j i = if table = 3 ∧ j = inst ∧ first ≤ i ∧ i < first + c
            then BitVec.ofNat 32 (beAt p (8 + 4 * (i - first)) 4) &&& waveMask i else waveShadow s.dev j i)
        ∧ (∀ j i, i < 256 → cellGet (ftrimReset i) t.dev.ftrimSh (256 * j + i) = if table = 4 ∧ j = inst ∧ first ≤ i ∧ i < first + c
            then BitVec.ofNat 32 (beAt p (8 + 4 * (i - first)) 4) &&& ftrimMask i else cellGet (ftrimReset i) s.dev.ftrimSh (256 * j + i))
        ∧ t.dev.get (F.RX_CUM_CUM n) = (seq.toNat + 1) % 2 ^ 32 ∧ t.dev.get (F.JOB_JOB n) = job.toNat ∧ RegsKept (jtpRegs n) s t ∧ MemKept s t)

/-- On a ready block, for the next message of an OPEN unauthenticated session with REG_EN, whose window and credit have room
for an answer, and whose RIP accepts its length: a REG_WRITE of one word at an address of L2 or DRAM that remote access
may write puts the word there, least significant byte first, and no other byte changes; one of the shadow of a register
with RWS fields and values in range writes those bits of the shadow, and one of PG_EVT clears the bits written 1; a
REG_READ of one readable word of memory, of a register's live or shadow half or of PG_EVT sends a response that echoes the
request's first 12 bytes with STATUS 0, DONE 1 and the word; both count one message in TX_NEXT. CUM grows by 1; every
register not named is unchanged. (R131) -/
def Obligations.RegisterRequests : Prop :=
  ∀ (dt : Nat) (q : Fin 2) (n : Fin 16) (seq job epoch : Word) (p : List Byte) (s : State), Ready s → CalmSession s n → ethUp s.dev q = true →
    p.length ≤ 9216 → seq.toNat = s.dev.get (F.RX_CUM_CUM n) →
    s.dev.get (F.SESS_CFG_REG_EN n) = 1 → (s.dev.sess n).queue = [] → hasRoom s.dev n 1 = true → 20 ≤ payloadMax s.dev n tRegRead →
    (∀ a : Nat, a = beAt p 0 8 → a % 4 = 0 → a < 2 ^ 40 → beAt p 8 2 = 1 → p.length = 20 →
      Reach s mJtpRemote kindWrite a 4 →
      ∃ t m, exec (.regWrite dt q n seq job epoch p) s = .next t
        ∧ (∀ i, i < 4 → t.byte (a + i) = BitVec.ofNat 8 (beAt p 16 4 / 256 ^ i)) ∧ MemKeptOutside a 4 s t
        ∧ t.dev.get (F.RX_CUM_CUM n) = (seq.toNat + 1) % 2 ^ 32 ∧ t.dev.get (F.JOB_JOB n) = job.toNat
        ∧ (t.dev.sess n).sent = (s.dev.sess n).sent ++ [m] ∧ m.type = tRegWrite
        ∧ m.bytes = deviceMsg s.dev n tRegWrite ((s.dev.sess n).txNum % 2 ^ 32) true (regAnswer p 0 1 [])
        ∧ t.dev.get (F.TX_NEXT_NEXT n) = ((s.dev.sess n).txNum + 1) % 2 ^ 32
        ∧ RegsKept (R.TX_NEXT n :: jtpRegs n ++ memRegs) s t) ∧
    (∀ (a : Nat) (b : List Byte), a = beAt p 0 8 → a % 4 = 0 → a < 2 ^ 40 → beAt p 8 2 = 1 → p.length = 16 →
      Reach s mJtpRemote kindRead a 4 → (engineRead mJtpRemote a 4 (s.dev.elapse dt)).1 = some b →
      ∃ t m, exec (.regRead dt q n seq job epoch p) s = .next t
        ∧ (t.dev.sess n).sent = (s.dev.sess n).sent ++ [m] ∧ m.type = tRegRead
        ∧ m.bytes = deviceMsg s.dev n tRegRead ((s.dev.sess n).txNum % 2 ^ 32) true (regAnswer p 0 1 b.reverse)
        ∧ t.dev.get (F.RX_CUM_CUM n) = (seq.toNat + 1) % 2 ^ 32 ∧ t.dev.get (F.JOB_JOB n) = job.toNat
        ∧ t.dev.get (F.TX_NEXT_NEXT n) = ((s.dev.sess n).txNum + 1) % 2 ^ 32
        ∧ RegsKept (R.TX_NEXT n :: jtpRegs n ++ memRegs) s t ∧ MemKept s t) ∧
    (∀ (a o : Nat) (r : RegDesc) (v : Word), a = beAt p 0 8 → beAt p 8 2 = 1 → p.length = 20 → v.toNat = beAt p 16 4 →
      Permitted s mJtpRemote kindWrite a 4 →
      (a = 0x40000800 + o → o < 0x80000 → 0x40 ≤ o % 0x1000 → o % 0x1000 < 0x800 → regDesc (o / 0x1000) (o % 0x1000) = some r → r.rws ≠ 0 →
        rangesOk r r.rws v.toNat = true → crossRangeOk o v.toNat s.dev = true → o ∉ shadowPorts →
        ∃ t m, exec (.regWrite dt q n seq job epoch p) s = .next t
          ∧ t.dev.reg (o + 0x800) = (s.dev.reg (o + 0x800) &&& ~~~BitVec.ofNat 32 r.rws) ||| (v &&& BitVec.ofNat 32 r.rws)
          ∧ (t.dev.sess n).sent = (s.dev.sess n).sent ++ [m]
          ∧ m.bytes = deviceMsg s.dev n tRegWrite ((s.dev.sess n).txNum % 2 ^ 32) true (regAnswer p 0 1 [])
          ∧ t.dev.get (F.RX_CUM_CUM n) = (seq.toNat + 1) % 2 ^ 32 ∧ t.dev.get (F.JOB_JOB n) = job.toNat ∧ RegsKept ([o + 0x800, R.TX_NEXT n] ++ jtpRegs n) s t ∧ MemKept s t) ∧
      (∀ g : Fin 128, pageListed g = true → a = 0x40000000 + R.PG_EVT g →
        ∃ t m, exec (.regWrite dt q n seq job epoch p) s = .next t ∧ t.dev.reg (R.PG_EVT g) = s.dev.reg (R.PG_EVT g) &&& ~~~v
          ∧ (t.dev.sess n).sent = (s.dev.sess n).sent ++ [m]
          ∧ m.bytes = deviceMsg s.dev n tRegWrite ((s.dev.sess n).txNum % 2 ^ 32) true (regAnswer p 0 1 [])
          ∧ t.dev.get (F.RX_CUM_CUM n) = (seq.toNat + 1) % 2 ^ 32 ∧ t.dev.get (F.JOB_JOB n) = job.toNat ∧ RegsKept (R.TX_NEXT n :: jtpRegs n ++ eventRegs g) s t ∧ MemKept s t)) ∧
    (∀ (a o : Nat) (r : RegDesc) (g : Fin 128) (w : Word), a = beAt p 0 8 → beAt p 8 2 = 1 → p.length = 16 →
      Permitted s mJtpRemote kindRead a 4 → o < 0x80000 → 0x40 ≤ o % 0x1000 → o % 0x1000 < 0x800 → o / 0x1000 ≠ 0x0C → o / 0x1000 ≠ 0x0D →
      regDesc (o / 0x1000) (o % 0x1000) = some r → pageListed g = true →
      ((a = 0x40000000 + o ∧ r.cor = 0 ∧ o ∉ readPorts ∧ w = BitVec.ofNat 32 (liveValue (s.dev.elapse dt) o))
        ∨ (a = 0x40000800 + o ∧ o ∉ readPorts ∧ w = BitVec.ofNat 32 (mergeBits (liveValue (s.dev.elapse dt) o) (s.dev.reg (o + 0x800)).toNat r.rws))
        ∨ (a = 0x40000000 + R.PG_EVT g ∧ w = s.dev.reg (R.PG_EVT g))) →
      ∃ t m, exec (.regRead dt q n seq job epoch p) s = .next t
        ∧ (t.dev.sess n).sent = (s.dev.sess n).sent ++ [m]
        ∧ m.bytes = deviceMsg s.dev n tRegRead ((s.dev.sess n).txNum % 2 ^ 32) true (regAnswer p 0 1 (beBytes 4 w.toNat))
        ∧ t.dev.get (F.RX_CUM_CUM n) = (seq.toNat + 1) % 2 ^ 32 ∧ t.dev.get (F.JOB_JOB n) = job.toNat
        ∧ t.dev.get (F.TX_NEXT_NEXT n) = ((s.dev.sess n).txNum + 1) % 2 ^ 32
        ∧ RegsKept (R.TX_NEXT n :: jtpRegs n) s t ∧ MemKept s t)

/-- On a ready block, for the next message of an OPEN unauthenticated session whose window and credit have room: an
EPOCH_COMMIT under an active plan, with EPOCH 0, that selects one page with a shadow half and no arming check, arms it
AT_EPOCH for the first epoch whose cut-off it meets, with SOURCE 1 and the message's JOB, and answers STATUS 0; a DOORBELL
puts its record (length, TYPE, session, SEQ) and its message into the management receive ring, moves MRX_HEAD on and rings
source 26. Every register not named is unchanged, and so is every byte of memory outside the record and the buffer. (R130,
R132, R137) -/
def Obligations.CommitAndDoorbellMessages : Prop :=
  ∀ (dt : Nat) (q : Fin 2) (n : Fin 16) (seq job epoch : Word) (p : List Byte) (s : State), Ready s → CalmSession s n → ethUp s.dev q = true →
    p.length ≤ 9216 → seq.toNat = s.dev.get (F.RX_CUM_CUM n) →
    (∀ g : Nat, commitPages p = [g] → p.length = 16 → pageListed g = true → pageShadow g = true → g ∉ [0x04, 0x09, 0x14, 0x48] →
      epoch = 0 → s.dev.planActive = true → (s.dev.sess n).queue = [] → hasRoom s.dev n 1 = true →
      16 ≤ payloadMax s.dev n tEpochCommit →
      ∃ t m, exec (.epochCommit dt q n seq job epoch p) s = .next t
        ∧ cellGet none t.dev.armed g
            = some { mode := 3, target := none, source := 1, job := job.toNat, at_ := s.dev.now + dt }
        ∧ t.dev.get (F.PG_COMMIT_STAT_STATUS g) = stArmed ∧ t.dev.get (F.PG_COMMIT_STAT_MODE g) = 3
        ∧ t.dev.get (F.PG_COMMIT_STAT_SOURCE g) = 1
        ∧ (t.dev.sess n).sent = (s.dev.sess n).sent ++ [m]
        ∧ m.bytes = deviceMsg s.dev n tEpochCommit ((s.dev.sess n).txNum % 2 ^ 32) true
            (commitAnswerBytes { status := 0 } seq.toNat)
        ∧ t.dev.get (F.RX_CUM_CUM n) = (seq.toNat + 1) % 2 ^ 32 ∧ t.dev.get (F.JOB_JOB n) = job.toNat
        ∧ RegsKept (R.PG_COMMIT_STAT g :: R.TX_NEXT n :: jtpRegs n) s t ∧ MemKept s t) ∧
    (∀ (a buf len : Nat) (b : List Byte), p.length = 8 → beAt p 4 2 ≤ 15 → s.dev.jtp.mrxHeld < s.dev.get F.MRX_WMARK_WMARK →
      s.dev.get F.MRX_HEAD_HEAD ≠ s.dev.get F.MRX_TAIL_TAIL → s.dev.get F.MRX_SIZE_SIZE ≠ 0 →
      a = s.dev.get2 F.MRX_BASE_LO_BASE F.MRX_BASE_HI_BASE + 16 * s.dev.get F.MRX_HEAD_HEAD → len = 36 →
      Reach s mJtpRings kindRead a 8 → (engineRead mJtpRings a 8 (s.dev.elapse dt)).1 = some b → buf = leAt b 0 5 →
      Reach s mJtpRings kindWrite buf len → Reach s mJtpRings kindWrite (a + 8) 8 → (buf + len ≤ a + 8 ∨ a + 16 ≤ buf) →
      ∃ t, exec (.doorbell dt q n seq job epoch p) s = .next t
        ∧ (∀ i, i < 8 → t.byte (buf + 24 + i) = p.getD i 0)
        ∧ t.byte (a + 8) = 36#8 ∧ t.byte (a + 9) = 0#8 ∧ t.byte (a + 10) = 0x10#8 ∧ t.byte (a + 11) = BitVec.ofNat 8 n
        ∧ (∀ i, i < 4 → t.byte (a + 12 + i) = BitVec.ofNat 8 (seq.toNat / 256 ^ i))
        ∧ t.dev.get F.MRX_HEAD_HEAD = (s.dev.get F.MRX_HEAD_HEAD + 1) % s.dev.get F.MRX_SIZE_SIZE
        ∧ t.dev.jtp.mrxHeld = s.dev.jtp.mrxHeld + 1 ∧ t.dev.sharedPending 26 = true
        ∧ t.dev.get (F.RX_CUM_CUM n) = (seq.toNat + 1) % 2 ^ 32 ∧ t.dev.get (F.JOB_JOB n) = job.toNat
        ∧ RegsKept ([R.MRX_HEAD, R.EVT_PEND 0, R.EVTC_CNT 0, R.EVTC_CNT 1, R.EVTC_CNT 2, R.EVTC_CNT 3] ++ jtpRegs n ++ memRegs) s t
        ∧ (∀ x, (x < buf ∨ buf + len ≤ x) → (x < a + 8 ∨ a + 16 ≤ x) → t.byte x = s.byte x))

/-- On a ready block, for a fresh feedback message of an OPEN unauthenticated session with no records under way: ACK and NAK
take the RIP's CUM, BITMAP and CREDIT; CREDIT, which carries no BITMAP, takes CUM and CREDIT, and what the last BITMAP
marked stays marked. Every message that CUM has passed leaves the window; of the others, those shown missing (not marked
while a later one is, or named by NAK GAP) that may go again are sent again now, and the rest stay as they are. The
counter is remembered; no register but PATH's changes. A fresh POSITION in session 0, taken by a follower as a sample of
its active domain, gives the virtual encoder that sample. (R112, R114, R116, R118, R136) -/
def Obligations.FeedbackMessages : Prop :=
  ∀ (dt : Nat) (q : Fin 2) (n : Fin 16) (seq job epoch : Word) (p : List Byte) (s : State), Ready s → ethUp s.dev q = true →
    (CalmSession s n → FreshFeedback s n q seq.toNat →
      (∀ m ∈ (s.dev.sess n).sent, m.type ≠ tVerdict ∧ m.type ≠ tPrintLog) →
      (s.dev.sess n).sent.Pairwise (fun x y => x.seq ≠ y.seq) →
      (p.length = 24 →
        (∃ t, exec (.ackReceived dt q n seq job epoch p) s = .next t ∧ (t.dev.sess n).fbRx = some seq.toNat
          ∧ FeedbackTaken s t n (beAt p 0 4) (beAt p 4 8) (beAt p 12 4) none (s.dev.now + dt)
          ∧ RegsKept [R.PATH_STAT, R.PATH_DRILL_CNT] s t ∧ MemKept s t) ∧
        (∃ t, exec (.nakReceived dt q n seq job epoch p) s = .next t ∧ (t.dev.sess n).fbRx = some seq.toNat
          ∧ FeedbackTaken s t n (beAt p 0 4) (beAt p 4 8) (beAt p 12 4) (if byteAt p 16 = 1 then some (beAt p 20 4) else none)
              (s.dev.now + dt)
          ∧ RegsKept [R.PATH_STAT, R.PATH_DRILL_CNT] s t ∧ MemKept s t)) ∧
      (∀ o : Nat, p.length = 8 → o = (beAt p 0 4 + 2 ^ 32 - (s.dev.sess n).peerCum) % 2 ^ 32 →
        ∃ t, exec (.creditReceived dt q n seq job epoch p) s = .next t ∧ (t.dev.sess n).fbRx = some seq.toNat
          ∧ FeedbackTaken s t n (beAt p 0 4) (if o < 65 then (s.dev.sess n).peerMap / 2 ^ o else 0) (beAt p 4 4) none (s.dev.now + dt)
          ∧ RegsKept [R.PATH_STAT, R.PATH_DRILL_CNT] s t ∧ MemKept s t)) ∧
    (PositionAlone s → s.dev.get (F.PG_CTL_EN 0x0D) = 1 → s.dev.path.resume = none → s.dev.get (F.SESS_CFG_EN 0) = 1 →
      s.dev.get (F.SESS_CFG_AUTH_REQ 0) = 0 → FreshFeedback s 0 q seq.toNat → p.length = 32 → byteAt p 0 = 1 →
      s.dev.get F.TIME_CTL_SRC = 0 → byteAt p 2 = s.dev.get (F.TIME_DOM_CFG_DOMAIN (s.dev.get (F.TIME_DOM_STAT_ACTIVE 1))) →
      s.dev.vencSeqs.contains (beAt p 4 4) = false →
      ∃ t v, exec (.position dt q 0 seq job epoch p) s = .next t ∧ t.dev.venc = some v
        ∧ v.x = toSigned 48 (beAt p 20 6) ∧ v.v = toSigned 32 (beAt p 26 4) ∧ v.a = toSigned 16 (beAt p 30 2)
        ∧ v.seq = beAt p 4 4 ∧ t.dev.get F.VENC_STAT_LOST = 0 ∧ (t.dev.sess 0).fbRx = some seq.toNat
        ∧ RegsKept [R.VENC_STAT, R.PATH_DRILL_CNT] s t ∧ MemKept s t)

/-- On a ready block: a HELLO OPEN of the configured peer opens an enabled unauthenticated session: STATE 2, CUM at the RIP's
start, TX_NEXT 0, counters from 0, the RIP's credit; a PROBE is answered and changes no session register; a CLOSE makes an
OPEN session CONFIGURED with both keys STALE; enabling a session whose reservation fits makes it CONFIGURED, disabling a
session that holds no bulk message makes it DISABLED; a permitted LOAD moves the key data into the slot, clears the data
registers and STALE. The frame of each is stated. (R120, R121, R123) -/
def Obligations.SessionLife : Prop :=
  ∀ (dt : Nat) (q : Fin 2) (n : Fin 16) (seq job epoch : Word) (body : List Byte) (m : Fin 48) (slot : Fin 2) (s : State), Ready s →
    (n.val ≠ 0 → ethUp s.dev q = true → s.dev.get (F.PG_CTL_EN 0x0D) = 1 → s.dev.path.resume = none → s.dev.get (F.SESS_CFG_EN n) = 1 →
      s.dev.get (F.SESS_CFG_AUTH_REQ n) = 0 → secondCopy (s.dev.sess n) (seq.toNat + 2 ^ 32) q = false → body.length = 27 →
      (s.dev.get (F.SESS_STAT_STATE n) = 1 →
        ∃ t, exec (.helloOpen dt q true n seq job epoch body) s = .next t
          ∧ t.dev.get (F.SESS_STAT_STATE n) = 2 ∧ t.dev.get (F.RX_CUM_CUM n) = beAt body 7 4
          ∧ t.dev.get (F.TX_NEXT_NEXT n) = 0 ∧ (t.dev.sess n).txNum = 0 ∧ (t.dev.sess n).fbNum = 1
          ∧ (t.dev.sess n).credit = beAt body 5 2 ∧ (t.dev.sess n).sent = [] ∧ (t.dev.sess n).todo = []
          ∧ (t.dev.sess n).fbRx = some seq.toNat
          ∧ RegsKept [R.SESS_STAT n, R.RX_CUM n, R.TX_NEXT n, R.PATH_STAT, R.PATH_DRILL_CNT] s t ∧ MemKept s t) ∧
      (s.dev.get (F.SESS_STAT_STATE n) = 1 →
        ∃ t, exec (.helloProbe dt q n seq job epoch body) s = .next t ∧ (t.dev.sess n).fbNum = (s.dev.sess n).fbNum + 1
          ∧ RegsKept [R.PATH_STAT, R.PATH_DRILL_CNT] s t ∧ MemKept s t) ∧
      (CalmSession s n → FreshFeedback s n q seq.toNat →
        ∃ t, exec (.helloClose dt q n seq job epoch body) s = .next t
          ∧ t.dev.get (F.SESS_STAT_STATE n) = 1 ∧ t.dev.get (F.SESS_STAT_STALE0 n) = 1 ∧ t.dev.get (F.SESS_STAT_STALE1 n) = 1
          ∧ (t.dev.sess n).sent = [] ∧ (t.dev.sess n).queue = []
          ∧ RegsKept [R.SESS_STAT n, R.PATH_STAT, R.PATH_DRILL_CNT] s t ∧ MemKept s t)) ∧
    (s.dev.get (F.SESS_CFG_EN n) = 0 → s.dev.get (F.SESS_STAT_STATE n) = 0 → s.dev.get (F.SESS_CFG_CREDIT_MAX n) ≠ 0 →
      (List.range 16).foldl (fun a t => if t = n.val ∨ s.dev.getB (F.SESS_CFG_EN t) then a + s.dev.get (F.SESS_CFG_CREDIT_MAX t)
        else a) 0 ≤ s.dev.get F.JTP_STAGE_UNITS →
      ∃ t, exec (.sessionEnable dt n) s = .next t ∧ t.dev.get (F.SESS_CFG_EN n) = 1 ∧ t.dev.get (F.SESS_STAT_STATE n) = 1
        ∧ RegsKept [R.SESS_CFG n, R.SESS_STAT n, R.JTP_STAGE] s t ∧ MemKept s t) ∧
    (s.dev.get (F.SESS_CFG_EN n) = 1 → s.dev.get (F.SESS_CFG_CREDIT_MAX n) ≠ 0 → (s.dev.sess n).held = [] →
      ∃ t, exec (.sessionDisable dt n) s = .next t ∧ t.dev.get (F.SESS_CFG_EN n) = 0 ∧ t.dev.get (F.SESS_STAT_STATE n) = 0
        ∧ (t.dev.sess n).sent = [] ∧ (t.dev.sess n).waiting = []
        ∧ RegsKept [R.SESS_CFG n, R.SESS_STAT n, R.JTP_STAGE] s t ∧ MemKept s t) ∧
    (MayWrite s m R.JTP_KEY_SEL →
      ∃ t, exec (.keyLoad dt m n slot) s = .next t
        ∧ cellGet none (t.dev.sess n).keys slot
            = some ((List.range 8).foldl (fun a i => a * 2 ^ 32 + s.dev.get (F.JTP_KEY_DATA_KEY i)) 0)
        ∧ (∀ i, i < 8 → t.dev.get (F.JTP_KEY_DATA_KEY i) = 0) ∧ t.dev.get (staleField n slot) = 0
        ∧ t.dev.get F.JTP_KEY_SEL_SESSION = n ∧ t.dev.get F.JTP_KEY_SEL_SLOT = slot ∧ t.dev.get F.JTP_KEY_SEL_LOAD = 0
        ∧ RegsKept (R.JTP_KEY_SEL :: R.SESS_STAT n :: (List.range 8).map R.JTP_KEY_DATA) s t ∧ MemKept s t)

/-- On a ready block with an OPEN unauthenticated session: ACK_TMO after the earliest uncovered message an ACK with CUM,
BITMAP and the credit granted goes out and everything is covered; NAK_HOLD after the last GAP report of an open gap it is
repeated; each outstanding message last sent JTP_RTO ago or longer goes again, bit for bit, the others not; a waiting
response goes out when window and credit allow, with the next data counter in TX_NEXT; a TELEMETRY record of the
management transmit ring, of a length that the RIP accepts, goes out at once and MTX_HEAD moves past it. What goes out
leaves on the ports of its class, where nothing holds them. Other registers and memory are unchanged. (R92, R115, R118,
R135) -/
def Obligations.TransportTimersAndReports : Prop :=
  ∀ (dt : Nat) (n : Fin 16) (s : State), Ready s → s.dev.get (F.PG_CTL_EN 0x0D) = 1 →
    s.dev.get (F.SESS_STAT_STATE n) = 2 → s.dev.get (F.SESS_CFG_AUTH_REQ n) = 0 →
    (∀ at_ : Nat, (s.dev.sess n).firstAt = some at_ → at_ + s.dev.get F.JTP_TMR_ACK_TMO * 1000 ≤ s.dev.now + dt →
      ∃ t, exec (.ackTimer dt n) s = .next t ∧ (t.dev.sess n).firstAt = none ∧ (t.dev.sess n).since = 0
        ∧ (t.dev.sess n).fbNum = (s.dev.sess n).fbNum + 1
        ∧ (BothSend s n 52 → BothSent s t n (deviceMsg s.dev n tAck ((s.dev.sess n).fbNum % 2 ^ 32) false
            (beBytes 4 (s.dev.get (F.RX_CUM_CUM n)) ++ beBytes 8 (s.dev.sess n).got ++ beBytes 4 (grant s.dev n) ++ List.replicate 8 0#8)))
        ∧ RegsKept [] s t ∧ MemKept s t) ∧
    ((s.dev.sess n).got ≠ 0 → (s.dev.sess n).nakCum = some (s.dev.get (F.RX_CUM_CUM n)) →
      (s.dev.sess n).nakAt + s.dev.get F.JTP_TMR_NAK_HOLD * 1000 ≤ s.dev.now + dt →
      ∃ t, exec (.nakHoldTimer dt n) s = .next t ∧ (t.dev.sess n).nakAt = s.dev.now + dt
        ∧ (t.dev.sess n).nakCum = (s.dev.sess n).nakCum ∧ (t.dev.sess n).fbNum = (s.dev.sess n).fbNum + 1
        ∧ (BothSend s n 52 → BothSent s t n (deviceMsg s.dev n tNak ((s.dev.sess n).fbNum % 2 ^ 32) false
            (beBytes 4 (s.dev.get (F.RX_CUM_CUM n)) ++ beBytes 8 (s.dev.sess n).got ++ beBytes 4 (grant s.dev n)
              ++ beBytes 4 0x01000000 ++ beBytes 4 (s.dev.get (F.RX_CUM_CUM n)))))
        ∧ RegsKept [] s t ∧ MemKept s t) ∧
    ((s.dev.sess n).sent.Pairwise (fun x y => x.seq ≠ y.seq) →
      ∃ t, exec (.jtpRetransmitTimer dt n) s = .next t
        ∧ (t.dev.sess n).sent = (s.dev.sess n).sent.map (fun m =>
            if marked (s.dev.sess n) m.seq = false ∧ m.at_ + s.dev.get F.JTP_RTO_RTO * 1000 ≤ s.dev.now + dt
            then { m with at_ := s.dev.now + dt, again := some (s.dev.now + dt) } else m)
        ∧ (∀ m : SentMsg, (s.dev.sess n).sent = [m] → marked (s.dev.sess n) m.seq = false → m.type ∉ [tTelemetry, tPrintLog] →
            m.at_ + s.dev.get F.JTP_RTO_RTO * 1000 ≤ s.dev.now + dt → BothSend s n m.bytes.length → BothSent s t n m.bytes)
        ∧ RegsKept [] s t ∧ MemKept s t) ∧
    (∀ (c : Nat) (typ : Nat) (p : List Byte) (l : List (Nat × List Byte)), (s.dev.sess n).queue = (typ, p) :: l →
      hasRoom s.dev n (jtpCost p.length false) = true →
      ∃ t m, exec (.reportSend dt n 0 c) s = .next t ∧ (t.dev.sess n).queue = l
        ∧ (t.dev.sess n).sent = (s.dev.sess n).sent ++ [m] ∧ m.type = typ ∧ m.at_ = s.dev.now + dt
        ∧ m.bytes = deviceMsg s.dev n typ ((s.dev.sess n).txNum % 2 ^ 32) (isResponse typ) p
        ∧ (typ ∉ [tTelemetry, tPrintLog] → BothSend s n m.bytes.length → BothSent s t n m.bytes)
        ∧ t.dev.get (F.TX_NEXT_NEXT n) = ((s.dev.sess n).txNum + 1) % 2 ^ 32
        ∧ RegsKept [R.TX_NEXT n] s t ∧ MemKept s t) ∧
    (∀ (v : Word) (a : Nat) (d p : List Byte), 1 < s.dev.get F.MTX_SIZE_SIZE →
      v.toNat = (s.dev.get F.MTX_HEAD_HEAD + 1) % s.dev.get F.MTX_SIZE_SIZE → s.dev.get F.MTX_HEAD_HEAD < s.dev.get F.MTX_SIZE_SIZE →
      a = s.dev.get2 F.MTX_BASE_LO_BASE F.MTX_BASE_HI_BASE + 16 * s.dev.get F.MTX_HEAD_HEAD →
      Reach s mJtpRings kindRead a 16 → (engineRead mJtpRings a 16 (s.dev.elapse dt)).1 = some d →
      byteAt d 10 = tTelemetry → byteAt d 11 = n → Reach s mJtpRings kindRead (leAt d 0 5) (leAt d 8 2) →
      (engineRead mJtpRings (leAt d 0 5) (leAt d 8 2) (engineRead mJtpRings a 16 (s.dev.elapse dt)).2).1 = some p →
      p.length ≤ payloadMax s.dev n tTelemetry → (s.dev.sess n).queue = [] → hasRoom s.dev n (jtpCost p.length false) = true →
      ∃ t m, exec (.mtxTailWrite dt v) s = .next t ∧ t.dev.get F.MTX_TAIL_TAIL = v.toNat ∧ t.dev.get F.MTX_HEAD_HEAD = v.toNat
        ∧ (t.dev.sess n).sent = (s.dev.sess n).sent ++ [m]
        ∧ m.bytes = deviceMsg s.dev n tTelemetry ((s.dev.sess n).txNum % 2 ^ 32) false p
        ∧ (PortSends s n (activePort s.dev) m.bytes.length →
            ∃ f, t.wire = .eth (activePort s.dev) f :: s.wire ∧ Carries s n f m.bytes)
        ∧ RegsKept ([R.MTX_TAIL, R.MTX_HEAD, R.TX_NEXT n] ++ memRegs) s t ∧ MemKept s t)

/-- For each stored width b of 2, 3, 8 or 12 bits, for every line of 1 to 131,072 samples below 2^b, every valid reference
line of the same length with samples below 2^b, INDEP set or clear, and every set of segments written RAW by fall-back or
after a verification mismatch, the decoder of R142 to R153 given the line record of R140, R141 and R155 answers exactly
the line and no error. (R140, R141, R142, R143, R144, R145, R146, R147, R148, R151, R152, R155) -/
def Obligations.CodecRoundTrip : Prop :=
  ∀ (b : Nat) (indep : Bool) (raws ref x : List Nat), b ∈ [2, 3, 8, 12] → 0 < x.length → x.length ≤ 131072 →
    ref.length = x.length → (∀ v ∈ x, v < 2 ^ b) → (∀ v ∈ ref, v < 2 ^ b) →
    decodeLine x.length b ref false (encodeLine b indep raws ref x) = .inl x

/-- On a ready block: START of an enabled idle compressor sets BUSY and zeroes the job's results, a START while BUSY is not
performed and captures REFUSED; a tap line of a running job (its samples in the job's depth) whose record fits its buffer
goes there as the encoder of R155 writes it, the segments before which the fill of its queue called for the fall-back
being RAW (a sample counts two bytes of the queue: the choice of log entry 114), and counts in CMP_LINES_DONE, CMP_VALID
and CMP_RAWFALL; ABORT ends a job that holds no buffer and has filled none with DONE and PARTIAL; a write of CMP_DESC_TAIL
sets it. The frame of each is stated. (R154, R155, R156, R158) -/
def Obligations.CompressorCommands : Prop :=
  ∀ (dt : Nat) (tap : Bool) (v : Word) (fb : List Nat) (s : State), Ready s →
    (s.dev.get (F.PG_CTL_EN 0x10) = 1 → s.dev.get F.CMP_STAT_BUSY = 0 →
      ∃ t, exec (.compressorStart dt tap) s = .next t ∧ t.dev.get F.CMP_STAT_BUSY = 1 ∧ t.dev.get F.CMP_STAT_STALLED = 0
        ∧ t.dev.get F.CMP_STAT_PARTIAL = 0 ∧ t.dev.get F.CMP_STAT_FAULT = 0
        ∧ t.dev.get2 F.CMP_VALID_LO_VALID F.CMP_VALID_HI_VALID = 0 ∧ t.dev.get F.CMP_LINES_DONE_LINES = 0
        ∧ t.dev.cmp = { tap := tap }
        ∧ RegsKept [R.CMP_STAT, R.CMP_VALID_LO, R.CMP_VALID_HI, R.CMP_LINES_DONE] s t ∧ MemKept s t) ∧
    (s.dev.get F.CMP_STAT_BUSY = 1 → s.dev.get (F.PG_FAULT_VALID 0x10) = 0 →
      ∃ t, exec (.compressorStart dt tap) s = .next t ∧ t.dev.get (F.PG_FAULT_CODE 0x10) = 0x01 ∧ t.dev.cmp = s.dev.cmp
        ∧ RegsKept (faultRegs 0x10) s t ∧ MemKept s t) ∧
    (∀ (a n used : Nat) (x y : List Nat) (xs : List (List Nat)) (bs : List Byte) (raws : List Nat),
      s.dev.get F.CMP_STAT_BUSY = 1 → s.dev.get F.CMP_STAT_STALLED = 0 → s.dev.get (F.PG_STAT_STOPPING 0x10) = 0 →
      s.dev.cmp.tap = true → s.dev.cmp.queue = y :: xs → x = y.map (· % 2 ^ cmpDepth s.dev) →
      s.dev.cmp.rest = [] → s.dev.cmp.buf = some (a, n, used) → s.dev.cmp.valid ≤ s.dev.cmp.written →
      raws = (if s.dev.get F.CMP_CFG_NO_FALLBACK = 1 then [] else (cmpRawSegments s.dev (cmpFill s.dev fb) y.length).1) →
      bs = encodeLine (cmpDepth s.dev) (s.dev.cmp.lines == 0) raws s.dev.cmp.ref x → used + bs.length < n →
      (s.dev.get F.CMP_LINES_LINES = 0 ∨ s.dev.cmp.lines + 1 ≠ s.dev.get F.CMP_LINES_LINES) →
      Reach s 9 kindWrite (a + used) bs.length →
      ∃ t, exec (.compressorLineDone dt fb [] false) s = .next t
        ∧ (∀ i, i < bs.length → t.byte (a + used + i) = bs.getD i 0) ∧ MemKeptOutside (a + used) bs.length s t
        ∧ t.dev.cmp.buf = some (a, n, used + bs.length) ∧ t.dev.cmp.queue = xs ∧ t.dev.cmp.ref = x ∧ t.dev.cmp.rest = []
        ∧ t.dev.cmp.lines = s.dev.cmp.lines + 1
        ∧ t.dev.get F.CMP_LINES_DONE_LINES = (s.dev.cmp.lines + 1) % 2 ^ 32
        ∧ t.dev.get2 F.CMP_VALID_LO_VALID F.CMP_VALID_HI_VALID = (s.dev.cmp.written + bs.length) % 2 ^ 64
        ∧ t.dev.get F.CMP_RAWFALL_COUNT = min (s.dev.get F.CMP_RAWFALL_COUNT + raws.length) 0xFFFFFFFF
        ∧ RegsKept ([R.CMP_VALID_LO, R.CMP_VALID_HI, R.CMP_LINES_DONE, R.CMP_RAWFALL] ++ memRegs) s t) ∧
    (s.dev.get F.CMP_STAT_BUSY = 1 → s.dev.cmp.buf = none → s.dev.cmp.full = none →
      ∃ t, exec (.compressorAbort dt) s = .next t ∧ t.dev.get F.CMP_STAT_BUSY = 0 ∧ t.dev.get F.CMP_STAT_DONE = 1
        ∧ t.dev.get F.CMP_STAT_PARTIAL = 1 ∧ t.dev.get F.CMP_STAT_FAULT = 0
        ∧ t.dev.get F.CMP_LINES_DONE_LINES = s.dev.cmp.lines % 2 ^ 32 ∧ t.dev.cmp = {}
        ∧ RegsKept [R.CMP_STAT, R.CMP_VALID_LO, R.CMP_VALID_HI, R.CMP_LINES_DONE] s t ∧ MemKept s t) ∧
    (s.dev.get F.CMP_STAT_STALLED = 0 →
      ∃ t, exec (.cmpDescTailWrite dt v) s = .next t ∧ t.dev.get F.CMP_DESC_TAIL_TAIL = v.toNat % 2 ^ 16
        ∧ RegsKept [R.CMP_DESC_TAIL] s t ∧ MemKept s t)

/-- On a ready block: RESET of a stream that is not in use zeroes its fill, drain and held bytes and its order error, and of
one in use is refused; REWIND of a FAILED stream clears FAILED and moves its fill mark back to where it failed; REISSUE
releases the planes named that hold cause 2; SEAM stops a running enabled plane at its first line not launched: cause 9 is
held, the resume line is in STORE_SEAM_M, SEAM_REQ is high, the event is raised and the stop is logged; SEAM_CLR clears
cause 9 of the planes named and no other cause. The frame of each is stated. (R163, R176, R177, R178) -/
def Obligations.StoreCommands : Prop :=
  ∀ (dt m i : Nat) (p : Fin 8) (s : State), Ready s → i = s.dev.get F.STORE_SIDX_IDX →
    (streamInUse s.dev i = false →
      ∃ t, exec (.storeStreamReset dt) s = .next t
        ∧ t.dev.stream i = { s.dev.stream i with fill := 0, drain := 0, held := 0, err := false }
        ∧ (∀ j, j ≠ i → t.dev.stream j = s.dev.stream j) ∧ RegsKept [] s t ∧ MemKept s t) ∧
    (streamInUse s.dev i = true → s.dev.get (F.PG_FAULT_VALID 0x0E) = 0 →
      ∃ t, exec (.storeStreamReset dt) s = .next t ∧ t.dev.streams = s.dev.streams
        ∧ t.dev.get (F.PG_FAULT_CODE 0x0E) = 0x01 ∧ RegsKept (faultRegs 0x0E) s t ∧ MemKept s t) ∧
    ((s.dev.stream i).failed = true →
      ∃ t, exec (.storeStreamRewind dt) s = .next t ∧ (t.dev.stream i).failed = false
        ∧ (t.dev.stream i).fill = (s.dev.stream i).sfail ∧ (t.dev.stream i).drain = (s.dev.stream i).drain
        ∧ (∀ j, j ≠ i → t.dev.stream j = s.dev.stream j) ∧ RegsKept [] s t ∧ MemKept s t) ∧
    (∃ t, exec (.storeReissue dt m) s = .next t
      ∧ (∀ q, q < 8 → bit (m % 256) q = true → holdsCause s.dev q causeDecode = true → (t.dev.plane q).reissued = true)
      ∧ (∀ q, q < 8 → (bit (m % 256) q = false ∨ holdsCause s.dev q causeDecode = false) → t.dev.plane q = s.dev.plane q)
      ∧ RegsKept [] s t ∧ MemKept s t) ∧
    (bitsOf 8 (m % 256) = [p.val] → p.val ∈ activePlanes s.dev → s.dev.get (F.STORE_SEAM_STAT_STATE p) = seamRun → LogReady s →
      ∃ t, exec (.storeSeam dt m) s = .next t ∧ t.dev.get (F.STORE_SEAM_STAT_STATE p) = seamStopped
        ∧ holdsCause t.dev p causeFirmware = true ∧ (t.dev.plane p).resume = (s.dev.plane p).next
        ∧ t.dev.get2 (F.STORE_SEAM_M_LO_M p) (F.STORE_SEAM_M_HI_M p) = (s.dev.plane p).next % 2 ^ 48
        ∧ (∀ a ∈ (t.dev.plane p).assigns, a.line < (s.dev.plane p).next)
        ∧ t.dev.pinLevel .seamReq 0 = 1 ∧ EventSet t 0x0E 9
        ∧ t.dev.plogHeld = s.dev.plogHeld + 1 ∧ t.dev.get F.PLOG_SEQ_SEQ = (s.dev.get F.PLOG_SEQ_SEQ + 1) % 2 ^ 32
        ∧ RegsKept ([R.STORE_SEAM_STAT p, R.STORE_SEAM_M_LO p, R.STORE_SEAM_M_HI p, R.CNT_EVT_DROP] ++ eventRegs 0x0E ++ logRegs) s t
        ∧ MemKeptOutside (s.dev.get2 F.PLOG_BASE_LO_BASE F.PLOG_BASE_HI_BASE + s.dev.get F.PLOG_HEAD_HEAD * 96) 96 s t) ∧
    (∃ t, exec (.storeSeamClr dt m) s = .next t
      ∧ (∀ q c, q < 8 → 1 ≤ c → c ≤ 9 → holdsCause t.dev q c
          = (holdsCause s.dev q c && !(bit (m % 256) q && decide (c = causeFirmware))))
      ∧ RegsKept ((bitsOf 8 (m % 256)).map R.STORE_SEAM_STAT) s t ∧ MemKept s t)

/-- On a ready block under a plan: when the assigned instant of a plane's framed next line has come, and its one bound port is
up, free of pending schedules and waiting frames, not cut and without waveforms, the frame of R214 goes out on the port
with its CRC, the strobe is asked for at t_tgt, DT and AG show the delay and amplitude trims applied at the port's
temperature, the line is launched and the next one is next; a strobe whose edge, placed on the 10 ns grid and nearest tap
(the rounding between taps is the choice of log entry 33), keeps the set-up and overlap bounds rises there for 100 ns,
where its output group is driven. Other registers and memory are unchanged. (R213, R214, R215, R216, R217) -/
def Obligations.FireLaunch : Prop :=
  ∀ (dt : Nat) (p : Fin 8) (h : Fin 32) (delays : List Nat) (w : Nat) (s : State), Ready s →
    (∀ (a : Assign) (l : Slot) (c : FireCfg) (fr : List Byte) (lv : List Nat), s.dev.planActive = true →
      (s.dev.plane p).assigns.find? (fun x => x.line == (s.dev.plane p).next) = some a →
      (s.dev.plane p).slots.find? (fun x => x.line == (s.dev.plane p).next && x.stage == 4) = some l →
      a.t ≤ (s.dev.elapse dt).t16 → c = cfgFor s.dev l.ord → cfgPorts c p = [h.val] →
      l.levels = [(h.val, lv)] → fr = fireFrame s.dev p h l lv →
      (s.dev.link h).up = true → schedulePending s.dev h (b2n (bit (cfgVersion s.dev l.ord).wset h)) = false →
      cfgGet c (F.PLAN_HP_A_WAVE_EN h) = 0 → s.dev.get (F.HP_STAT_CUT h) = 0 →
      (s.dev.link h).wave = false → (s.dev.link h).wait = [] → w = launchDelay (s.dev.link h) (laneOf (s.dev.elapse dt) h a.t) (delays.getD 0 0) →
      w * (s.dev.link h).rate * 50 ≤ 32000000 →
      l.ord ≤ ordNow s.dev → s.dev.get (F.STORE_SEAM_STAT_STATE p) = seamRun →
      (∀ o, o ≤ s.dev.copies.length → captured s.dev o = true → (s.dev.plane p).next + 1 < firstLine s.dev (o + 1) p) →
      ∃ t st, exec (.fireFrameLaunch dt p delays) s = .next t
        ∧ (∃ l0 l1, t.wire = .lanes h (max (bitAt (s.dev.link h) (laneOf (s.dev.elapse dt) h a.t)) (s.dev.link h).line.pos) l0 l1
            :: .head h (byteAt fr 0) (fr.drop 1 ++ beBytes 4 (crc32c fr)) :: s.wire)
        ∧ (t.dev.head h).strobes = (s.dev.head h).strobes ++ [st] ∧ st.line = l.line ∧ st.start = psOf a.t + w
        ∧ st.target = psOf a.t + cfgGet c (F.HP_FIRE_FLAT h) * 20000
            + (if passReverse s.dev l.ord then cfgGetI c (F.HP_OFS_REV_OFS h) else cfgGetI c (F.HP_OFS_FWD_OFS h))
            + delayTrim c h (headTheta s.dev h)
        ∧ t.dev.get (F.HP_TRIM_DT h) = ofSigned 20 (delayTrim c h (headTheta s.dev h))
        ∧ t.dev.get (F.HP_AG_AG0 h) = ampGain c h 0 (headTheta s.dev h) % 2 ^ 13
        ∧ t.dev.get (F.HP_AG_AG1 h) = ampGain c h 1 (headTheta s.dev h) % 2 ^ 13
        ∧ (t.dev.plane p).next = (s.dev.plane p).next + 1
        ∧ RegsKept [R.HP_TRIM h, R.HP_AG h] s t ∧ MemKept s t) ∧
    (∀ (st : Strobe) (rest : List Strobe) (e : Int) (tap : Nat), (s.dev.head h).strobes = st :: rest →
      placeEdge s.dev h st.target = (e, tap) → st.start + st.setup * 20000 ≤ e →
      (∀ q ∈ (s.dev.head h).lastDrop, q.1 + (q.2 + 4 : Nat) * 20000 ≤ e) →
      ∃ t, exec (.fireStrobe dt h) s = .next t
        ∧ t.wire = (if bit (s.dev.reg R.PWR_OE).toNat 0 then [.strobe h (e / 1000).toNat (e / 1000 + 100).toNat tap] else []) ++ s.wire
        ∧ (t.dev.head h).strobes = rest ∧ (t.dev.head h).lastDrop = some (e, st.n)
        ∧ RegsKept [] s t ∧ MemKept s t)

/-- On a ready block: a write of NOZ_SH_LO writes the whole shadow entry of NOZ_IDX, its upper word as last written and its
reserved bit zero, a write of NOZ_WEAR_LO the actuation counter, and NOZ_IDX moves on by 1 modulo 131,072 with INC set; a
write of PLOG_SENT with LOCAL set releases the records up to it, and is refused when it would release more than the ring
holds; a write of PLOG_BASE or PLOG_SIZE with no plan active (a base that is 4 KB aligned, a size that is a power of 2
from 64 to 1,048,576) empties the ring, counts what it held in DROPS, and keeps SEQ. Other entries, registers and all
memory are unchanged. (R188, R189, R209) -/
def Obligations.NozzlePorts : Prop :=
  ∀ (dt : Nat) (v : Word) (r : Fin 3) (s : State), Ready s →
    (∃ t, exec (.nozShLoWrite dt v) s = .next t
      ∧ nozShadow t.dev (s.dev.get F.NOZ_IDX_IDX) = nozClean (v.toNat + s.dev.nozHi * 2 ^ 32)
      ∧ (∀ g, g ≠ s.dev.get F.NOZ_IDX_IDX → nozShadow t.dev g = nozShadow s.dev g)
      ∧ t.dev.get F.NOZ_IDX_IDX = (s.dev.get F.NOZ_IDX_IDX + s.dev.get F.NOZ_IDX_INC) % 131072
      ∧ RegsKept [R.NOZ_IDX] s t ∧ MemKept s t) ∧
    (∃ t, exec (.nozWearLoWrite dt v) s = .next t
      ∧ cellGet 0 t.dev.wear (s.dev.get F.NOZ_IDX_IDX) = v.toNat + s.dev.wearHi * 2 ^ 32
      ∧ (∀ g, g ≠ s.dev.get F.NOZ_IDX_IDX → cellGet 0 t.dev.wear g = cellGet 0 s.dev.wear g)
      ∧ t.dev.get F.NOZ_IDX_IDX = (s.dev.get F.NOZ_IDX_IDX + s.dev.get F.NOZ_IDX_INC) % 131072
      ∧ RegsKept [R.NOZ_IDX] s t ∧ MemKept s t) ∧
    (∀ k : Nat, s.dev.get F.PLOG_CFG_LOCAL = 1 → s.dev.get F.PLOG_SENT_SENT < s.dev.get F.PLOG_SIZE_SIZE →
      v.toNat < s.dev.get F.PLOG_SIZE_SIZE → v.toNat < 2 ^ 20 →
      k = (v.toNat + s.dev.get F.PLOG_SIZE_SIZE - s.dev.get F.PLOG_SENT_SENT) % s.dev.get F.PLOG_SIZE_SIZE →
      (k ≤ s.dev.plogHeld → s.dev.plogReserve = [] → s.dev.plogLost = 0 →
        ∃ t, exec (.plogSentWrite dt v) s = .next t ∧ t.dev.get F.PLOG_SENT_SENT = v.toNat
          ∧ t.dev.plogHeld = s.dev.plogHeld - k ∧ t.dev.get F.PLOG_STAT_FULL = 0
          ∧ RegsKept [R.PLOG_SENT, R.PLOG_STAT] s t ∧ MemKept s t) ∧
      (s.dev.plogHeld < k → s.dev.get (F.PG_FAULT_VALID 0x12) = 0 →
        ∃ t, exec (.plogSentWrite dt v) s = .next t ∧ t.dev.get (F.PG_FAULT_CODE 0x12) = 0x01
          ∧ t.dev.plogHeld = s.dev.plogHeld ∧ RegsKept (faultRegs 0x12) s t ∧ MemKept s t)) ∧
    (s.dev.planActive = false → (r.val = 0 → v.toNat % 4096 = 0) →
      (r.val = 2 → v.toNat ∈ (List.range 15).map (fun k => 64 * 2 ^ k)) →
      ∃ t, exec (.plogRingRewrite dt r v) s = .next t ∧ t.dev.get F.PLOG_HEAD_HEAD = 0 ∧ t.dev.get F.PLOG_SENT_SENT = 0
        ∧ t.dev.plogHeld = 0 ∧ t.dev.plogReserve = []
        ∧ t.dev.plogLost = s.dev.plogLost + (s.dev.plogHeld + s.dev.plogReserve.length)
        ∧ t.dev.get F.PLOG_STAT_DROPS = min (s.dev.get F.PLOG_STAT_DROPS + (s.dev.plogHeld + s.dev.plogReserve.length)) 0xFFFF
        ∧ t.dev.get F.PLOG_SEQ_SEQ = s.dev.get F.PLOG_SEQ_SEQ
        ∧ RegsKept [R.PLOG_BASE_LO + 4 * r, R.PLOG_HEAD, R.PLOG_SENT, R.PLOG_STAT] s t ∧ MemKept s t)

/-- On a ready block, for head port h: a STATUS frame that fails a check counts in HPL_CNT.BAD and does nothing else; a good
one of an up link with TEMP_OK and no plane bound sets TEMP, TEMP_VALID, CACK, the eye field and WARN = (theta > T_WARN),
and cuts the port with cause 1 where theta > T_CUT and it was not cut; one without TEMP_OK leaves HP_STAT as it was; the
first one within 100 us of START brings the link up, clears the port's bit of WAVE_WSET and queues the schedule of set 0.
TMO beats without a report clear TEMP_VALID, and with the port bound the plane holds cause 4. A cut drops HEAD_CUT_N and
sets CUT and CUT_CAUSE 3: with no plane bound nothing more, with no line in progress the plane holds cause 4, with one
line in progress it holds cause 5; a cut of a cut port does nothing. CUT_CLR restores the port where its link is up,
TEMP_VALID is set and theta < T_RESUME, and is refused otherwise. (R227, R228, R229, R230, R231, R232, R248, R250, R251,
R253) -/
def Obligations.HeadStatusAndCut : Prop :=
  ∀ (dt : Nat) (h : Fin 32) (frame : List Byte) (p : Nat) (b : Busy) (theta : Int) (s : State), Ready s →
    (lanesOn s.dev h = true → (frameOk frame && byteAt frame 0 == 0x81 && frame.length == 24) = false →
      ∃ t, exec (.statusFrameRx dt h frame) s = .next t
        ∧ t.dev.get (F.HPL_CNT_BAD h) = min (s.dev.get (F.HPL_CNT_BAD h) + 1) 0xFFFF ∧ RegsKept [R.HPL_CNT h] s t ∧ MemKept s t) ∧
    (lanesOn s.dev h = true → (frameOk frame && byteAt frame 0 == 0x81 && frame.length == 24) = true →
      (s.dev.link h).up = true → linkStage s.dev h = 5 → (s.dev.link h).startSent = true → bit (byteAt frame 1) 0 = true →
      PortFree s dt h → theta = toSigned 12 (beAt frame 4 2) →
      ∃ t, exec (.statusFrameRx dt h frame) s = .next t
        ∧ headTheta t.dev h = theta ∧ t.dev.get (F.HP_STAT_TEMP_VALID h) = 1
        ∧ t.dev.get (F.HP_STAT_WARN h) = b2n (decide (s.dev.getI (F.HP_TEMP_A_T_WARN h) < theta))
        ∧ t.dev.get (F.HPL_STAT_CACK h) = byteAt frame 2 ∧ t.dev.get (F.HPL_EYE_TX_W h) = byteAt frame 14 + byteAt frame 16 * 256
        ∧ (s.dev.getI (F.HP_TEMP_B_T_CUT h) < theta → s.dev.get (F.HP_STAT_CUT h) = 0 →
            t.dev.get (F.HP_STAT_CUT h) = 1 ∧ t.dev.get (F.HP_STAT_CUT_CAUSE h) = 1 ∧ t.dev.pinLevel .headCutN h = 0)
        ∧ (theta ≤ s.dev.getI (F.HP_TEMP_B_T_CUT h) → t.dev.get (F.HP_STAT_CUT h) = s.dev.get (F.HP_STAT_CUT h))
        ∧ (t.dev.link h).statusAt = s.dev.now + dt
        ∧ RegsKept ([R.HP_STAT h, R.HPL_STAT h, R.HPL_EYE h, R.HPL_MBX_CTL h] ++ eventRegs (hpPage h)) s t ∧ MemKept s t) ∧
    (lanesOn s.dev h = true → (frameOk frame && byteAt frame 0 == 0x81 && frame.length == 24) = true →
      (s.dev.link h).up = true → bit (byteAt frame 1) 0 = false →
      ∃ t, exec (.statusFrameRx dt h frame) s = .next t ∧ t.dev.get (F.HPL_STAT_CACK h) = byteAt frame 2
        ∧ RegsKept [R.HPL_STAT h, R.HPL_EYE h, R.HPL_MBX_CTL h] s t ∧ MemKept s t) ∧
    (lanesOn s.dev h = true → (frameOk frame && byteAt frame 0 == 0x81 && frame.length == 24) = true →
      (s.dev.link h).up = false → linkStage s.dev h = 5 → (s.dev.link h).startSent = true → bit (byteAt frame 1) 0 = false →
      s.dev.now + dt ≤ (s.dev.link h).start + 100000 →
      ∃ t, exec (.statusFrameRx dt h frame) s = .next t ∧ (t.dev.link h).up = true
        ∧ (t.dev.link h).queue = (s.dev.link h).queue ++ [(1, scheduleBody (liveCfg s.dev) h 0)]
        ∧ bit (t.dev.get F.WAVE_WSET_WSET) h = false
        ∧ RegsKept [R.HPL_STAT h, R.HPL_EYE h, R.HPL_MBX_CTL h, R.WAVE_WSET] s t ∧ MemKept s t) ∧
    (s.dev.get (F.HP_STAT_TEMP_VALID h) = 1 → s.dev.get (F.HP_TEMP_B_TMO h) ≤ (s.dev.head h).idleBeats →
      ∃ t, exec (.tempValidTimeout dt h) s = .next t ∧ t.dev.get (F.HP_STAT_TEMP_VALID h) = 0
        ∧ (boundPlanes s.dev h = [] → RegsKept [R.HP_STAT h] s t ∧ MemKept s t)
        ∧ (boundPlanes s.dev h = [p] → t.dev.get (F.HP_STAT_STOP h) = 1 ∧ holdsCause t.dev p causeHeadTemp = true)) ∧
    (s.dev.get (F.HP_STAT_CUT h) = 0 →
      ∃ t, exec (.hpCutCmd dt h) s = .next t ∧ t.dev.get (F.HP_STAT_CUT h) = 1 ∧ t.dev.get (F.HP_STAT_CUT_CAUSE h) = 3
        ∧ t.dev.pinLevel .headCutN h = 0 ∧ (t.dev.head h).strobes = []
        ∧ (PortFree s dt h → RegsKept [R.HP_STAT h] s t ∧ MemKept s t)
        ∧ (boundPlanes s.dev h = [p] → inProgress (s.dev.elapse dt) h = [] → holdsCause t.dev p causeHeadTemp = true)
        ∧ (s.dev.planActive = true → inProgress (s.dev.elapse dt) h = [b] → b.plane < 8 → holdsCause t.dev b.plane causeHeadCut = true)) ∧
    (s.dev.get (F.HP_STAT_CUT h) = 1 →
      ∃ t, exec (.hpCutCmd dt h) s = .next t ∧ t.dev.pinLevel .headCutN h = s.dev.pinLevel .headCutN h
        ∧ RegsKept [] s t ∧ MemKept s t) ∧
    (headLinkUp s.dev h = true → s.dev.get (F.HP_STAT_TEMP_VALID h) = 1 →
      headTheta s.dev h < s.dev.getI (F.HP_TEMP_B_T_RESUME h) →
      ∃ t, exec (.hpCutClr dt h) s = .next t ∧ t.dev.get (F.HP_STAT_CUT h) = 0 ∧ t.dev.get (F.HP_STAT_CUT_CAUSE h) = 0
        ∧ t.dev.pinLevel .headCutN h = 1 ∧ ((∀ q, q < 8 → holdsCause s.dev q causeHeadTemp = false ∧ holdsCause s.dev q causeHeadCut = false) → RegsKept [R.HP_STAT h] s t)
        ∧ MemKept s t) ∧
    ((headLinkUp s.dev h = false ∨ s.dev.get (F.HP_STAT_TEMP_VALID h) = 0
        ∨ s.dev.getI (F.HP_TEMP_B_T_RESUME h) ≤ headTheta s.dev h) → s.dev.get (F.PG_FAULT_VALID (hpPage h)) = 0 →
      ∃ t, exec (.hpCutClr dt h) s = .next t ∧ t.dev.get (F.PG_FAULT_CODE (hpPage h)) = 0x01
        ∧ t.dev.pinLevel .headCutN h = s.dev.pinLevel .headCutN h ∧ RegsKept (faultRegs (hpPage h)) s t ∧ MemKept s t)

/-- On a ready block, for a copy of the active plan not yet marked: the mark is pending (REJ_PEND counts it) while its
position is not known, or REJ_PLANE has no high-water mark, or has not reached it; where it has been passed REJECT_MARK
rises at once for REJ_WIDTH us, where marks are enabled, and REJ_LATE is set; with 64 pending REJ_OVF is set and
REJECT_MARK is high. Without a plan a request for a copy that the last plan never captured does nothing, and one for a
copy it did is pending until the web reaches its point, or late (the choice of log entry 55). When the mark's width is
over REJECT_MARK falls, unless REJ_OVF holds it; before that nothing happens. REJ_CLR clears REJ_OVF and releases
REJECT_MARK, unless a mark is still running. (R233, R234) -/
def Obligations.RejectMarks : Prop :=
  ∀ (dt e o q : Nat) (x y h : Int) (epoch : Word) (s : State), Ready s → q = s.dev.get F.FIRE_CFG_REJ_PLANE →
    x = boundary s.dev q (firstLine s.dev o q) + toSigned 48 (s.dev.get2 F.FIRE_REJ_DIST_LO_DIST F.FIRE_REJ_DIST_HI_DIST) →
    (s.dev.planActive = false → (ordNow s.dev : Int) + toSigned 32 (epoch.toNat + 2 ^ 32 - s.dev.get F.EPOCH_NOW_EPOCH) = (o : Int) →
      (captured s.dev o = false →
        ∃ t, exec (.fireRejReq dt epoch) s = .next t ∧ t.dev.rejects = s.dev.rejects ∧ t.dev.rejectPts = s.dev.rejectPts
          ∧ RegsKept [] s t ∧ MemKept s t) ∧
      (captured s.dev o = true → s.dev.rejectPts.length < 64 →
        rejectCount s.dev (transform s.dev q (ordOfLine s.dev q (s.dev.plane q).cursor)) o = some y →
        ((∀ k, planeTrack (s.dev.elapse dt) q = some k → k.x < y) →
          ∃ t, exec (.fireRejReq dt epoch) s = .next t ∧ t.dev.rejectPts = s.dev.rejectPts ++ [y]
            ∧ t.dev.get F.FIRE_STAT_REJ_PEND = (s.dev.rejects.length + s.dev.rejectPts.length + 1) % 2 ^ 7
            ∧ t.dev.pinLevel .rejectMark 0 = s.dev.pinLevel .rejectMark 0 ∧ RegsKept [R.FIRE_STAT] s t ∧ MemKept s t) ∧
        (∀ k, planeTrack (s.dev.elapse dt) q = some k → y ≤ k.x →
          ∃ t, exec (.fireRejReq dt epoch) s = .next t ∧ t.dev.get F.FIRE_STAT_REJ_LATE = 1 ∧ t.dev.rejectPts = s.dev.rejectPts
            ∧ RegsKept [R.FIRE_STAT] s t ∧ MemKept s t))) ∧
    (s.dev.planActive = true → (ordNow s.dev : Int) + toSigned 32 (epoch.toNat + 2 ^ 32 - s.dev.get F.EPOCH_NOW_EPOCH) = (o : Int) →
      o ∉ s.dev.rejects →
      (s.dev.rejects.length + s.dev.rejectPts.length < 64 →
        ((s.dev.plane q).hwm = none ∨ (o ≠ 0 ∧ captured s.dev (o - 1) = false) ∨ ((s.dev.plane q).hwm = some h ∧ h < x)) →
        ∃ t, exec (.fireRejReq dt epoch) s = .next t ∧ t.dev.rejects = s.dev.rejects ++ [o]
          ∧ t.dev.get F.FIRE_STAT_REJ_PEND = s.dev.rejects.length + s.dev.rejectPts.length + 1
          ∧ t.dev.pinLevel .rejectMark 0 = s.dev.pinLevel .rejectMark 0 ∧ RegsKept [R.FIRE_STAT] s t ∧ MemKept s t) ∧
      (s.dev.rejects.length + s.dev.rejectPts.length < 64 → (s.dev.plane q).hwm = some h → (o = 0 ∨ captured s.dev (o - 1) = true) → x ≤ h →
        ∃ t, exec (.fireRejReq dt epoch) s = .next t ∧ t.dev.get F.FIRE_STAT_REJ_LATE = 1 ∧ t.dev.rejects = s.dev.rejects
          ∧ (s.dev.get F.FIRE_CFG_REJ_EN = 1 → t.dev.pinLevel .rejectMark 0 = 1
              ∧ ∃ x, t.dev.rejectEnd = some x ∧ s.dev.now + dt + s.dev.get F.FIRE_CFG_REJ_WIDTH * 1000 ≤ x)
          ∧ RegsKept [R.FIRE_STAT] s t ∧ MemKept s t) ∧
      (64 ≤ s.dev.rejects.length + s.dev.rejectPts.length →
        ∃ t, exec (.fireRejReq dt epoch) s = .next t ∧ t.dev.get F.FIRE_STAT_REJ_OVF = 1 ∧ t.dev.rejects = s.dev.rejects
          ∧ t.dev.pinLevel .rejectMark 0 = 1 ∧ RegsKept [R.FIRE_STAT] s t ∧ MemKept s t)) ∧
    (s.dev.rejectEnd = some e → e ≤ s.dev.now + dt →
      ∃ t, exec (.rejectMarkEnd dt) s = .next t ∧ t.dev.rejectEnd = none
        ∧ t.dev.pinLevel .rejectMark 0 = (if s.dev.get F.FIRE_STAT_REJ_OVF = 0 then 0 else s.dev.pinLevel .rejectMark 0)
        ∧ RegsKept [] s t ∧ MemKept s t) ∧
    (s.dev.rejectEnd = some e → s.dev.now + dt < e →
      ∃ t, exec (.rejectMarkEnd dt) s = .next t ∧ t.dev.rejectEnd = some e
        ∧ t.dev.pinLevel .rejectMark 0 = s.dev.pinLevel .rejectMark 0 ∧ RegsKept [] s t ∧ MemKept s t) ∧
    (∃ t, exec (.fireRejClr dt) s = .next t ∧ t.dev.get F.FIRE_STAT_REJ_OVF = 0
      ∧ t.dev.pinLevel .rejectMark 0 = (if s.dev.rejectEnd = none then 0 else s.dev.pinLevel .rejectMark 0)
      ∧ RegsKept [R.FIRE_STAT] s t ∧ MemKept s t)

/-- On a ready block, for a link whose lanes run: the lock of its last receive lane ends stage 1; the loss of a lock in a
later stage before UP returns it to stage 1, and of an up head link with no plane bound takes it down with cause 1. A
TRAIN frame that fails a check is discarded and counted; a good one in stage 2 of a head port takes it through stages 2
and 3 to stage 4, with the polarity found, the taps at LANES_PRESET and the peer's requests applied to them; in stage 4 a
frame with a new REQ_SEQ has its requests applied to the taps and one with the REQ_SEQ answered last does not, and
RX_READY of the peer is taken. A START with this chip's settings brings a stay port in stage 5 that has sent its own up;
one with another rate or another cycle length returns it to stage 1, whose end locked lanes have reached at once. A stage
that has lasted TMO ms returns the link to stage 1 and counts in FAILS. Line bits that carry frames of unknown TYPE,
broken off or with a wrong CRC count each of them in BAD of the link and have no other effect. (R240, R241, R248, R253,
R254, R255, R256) -/
def Obligations.LinkBringUp : Prop :=
  ∀ (dt w e q pre : Nat) (skew : Int) (i : Fin 34) (h : Fin 32) (lane : Fin 2) (frame : List Byte) (inv : Bool) (l0 l1 : List Bool) (r : List RxEvent) (s : State),
      Ready s →
    (lanesOn s.dev i = true → lane.val < rxLanes i → linkStage s.dev i = 1 → (s.dev.link i).marked = 0 →
      allLanes i (setBit (s.dev.link i).locks lane) = true →
      ∃ t, exec (.laneLockChange dt i lane true) s = .next t ∧ linkStage t.dev i = 2 ∧ bit (t.dev.link i).locks lane = true
        ∧ (t.dev.link i).stageAt = s.dev.now + dt ∧ RegsKept [(stageField i).addr] s t ∧ MemKept s t) ∧
    (linkEnabled s.dev i = true → lane.val < rxLanes i → 2 ≤ linkStage s.dev i → (s.dev.link i).up = false →
      ∃ t, exec (.laneLockChange dt i lane false) s = .next t ∧ linkStage t.dev i = 1 ∧ bit (t.dev.link i).locks lane = false
        ∧ RegsKept (linkRegs i) s t ∧ MemKept s t) ∧
    (lanesOn s.dev h = true → (s.dev.link h).up = true → PortFree s dt h →
      ∃ t, exec (.laneLockChange dt ⟨h, by omega⟩ 0 false) s = .next t ∧ HeadLinkLost s t h 1) ∧
    (lanesOn s.dev i = true → lane.val < rxLanes i →
      (frameOk frame && byteAt frame 0 == 0x0F && frame.length == 14) = false → 32 ≤ i.val →
      ∃ t, exec (.trainFrameRx dt i lane frame ⟨inv, skew⟩ w e) s = .next t
        ∧ t.dev.get F.STAY_CNT_BAD = min (s.dev.get F.STAY_CNT_BAD + 1) 0xFFFF ∧ RegsKept [R.STAY_CNT] s t ∧ MemKept s t) ∧
    (linkEnabled s.dev h = true → linkStage s.dev h = 2 → (s.dev.link h).marked = 0 → (s.dev.link h).inverted = 0 →
      (s.dev.link h).adapt0 = {} → (s.dev.link h).statSeq = none → (s.dev.link h).skew = 0 →
      pre = s.dev.get F.LANES_PRESET_PRE + s.dev.get F.LANES_PRESET_MAIN * 2 ^ 8 + s.dev.get F.LANES_PRESET_POST * 2 ^ 16 →
      (frameOk frame && byteAt frame 0 == 0x0F && frame.length == 14) = true →
      ∃ t, exec (.trainFrameRx dt ⟨h, by omega⟩ 0 frame ⟨inv, skew⟩ w e) s = .next t ∧ linkStage t.dev h = 4
        ∧ t.dev.get (F.HPL_STAT_INV h) = b2n inv ∧ t.dev.get (F.HPL_EYE_RX_W h) = w % 256 ∧ t.dev.get (F.HPL_EYE_RX_H h) = e % 256
        ∧ (t.dev.link h).taps0 = (tapRequest (byteAt frame 3) pre).1 ∧ (t.dev.link h).taps1 = (tapRequest (byteAt frame 4) pre).1
        ∧ t.dev.reg (R.HPL_TAPS h 0) = BitVec.ofNat 32 (t.dev.link h).taps0
        ∧ RegsKept [R.HPL_STAT h, R.HPL_EYE h, R.HPL_TAPS h 0, R.HPL_TAPS h 1] s t ∧ MemKept s t) ∧
    (linkEnabled s.dev i = true → lane.val < rxLanes i → linkStage s.dev i = 4 → q = byteAt frame 8 →
      (frameOk frame && byteAt frame 0 == 0x0F && frame.length == 14) = true →
      ∃ t, exec (.trainFrameRx dt i lane frame ⟨inv, skew⟩ w e) s = .next t
        ∧ (t.dev.link i).peerReady = bit (byteAt frame 7) 0 ∧ (t.dev.link i).statSeq = some q
        ∧ (t.dev.link i).taps0 = (if (s.dev.link i).statSeq = some q then (s.dev.link i).taps0
            else (tapRequest (byteAt frame 3) (s.dev.link i).taps0).1)
        ∧ (t.dev.link i).taps1 = (if (s.dev.link i).statSeq = some q then (s.dev.link i).taps1
            else (tapRequest (byteAt frame 4) (s.dev.link i).taps1).1)
        ∧ RegsKept (if i.val < 32 then [R.HPL_STAT i, R.HPL_EYE i, R.HPL_TAPS i 0, R.HPL_TAPS i 1] else R.STAY_STAT :: eventRegs 0x5F) s t
        ∧ MemKept s t) ∧
    (32 ≤ i.val → linkEnabled s.dev i = true → (frameOk frame && byteAt frame 0 == 0x0E && frame.length == 8) = true →
      linkStage s.dev i = 5 → (s.dev.link i).startSent = true → (s.dev.link i).up = false →
      byteAt frame 1 = (s.dev.link i).rate → bit (byteAt frame 2) 1 = (s.dev.link i).cyc250 →
      ∃ t, exec (.startFrameRx dt i frame) s = .next t ∧ (t.dev.link i).up = true
        ∧ t.dev.get F.STAY_STAT_BREAK = b2n (!(s.dev.link (65 - i)).up)
        ∧ (s.dev.get F.STAY_STAT_BREAK = 0 → (s.dev.link (65 - i)).up = false → EventSet t 0x5F 8)
        ∧ RegsKept (R.STAY_STAT :: eventRegs 0x5F) s t ∧ MemKept s t) ∧
    (32 ≤ i.val → lanesOn s.dev i = true → (frameOk frame && byteAt frame 0 == 0x0E && frame.length == 8) = true →
      (s.dev.link i).up = false → (byteAt frame 1 ≠ (s.dev.link i).rate ∨ bit (byteAt frame 2) 1 ≠ ownCyc250 s.dev i) →
      ∃ t, exec (.startFrameRx dt i frame) s = .next t ∧ linkStage t.dev i = (if allLanes i (s.dev.link i).locks then 2 else 1)
        ∧ (t.dev.link i).up = false ∧ (t.dev.link i).startSent = false ∧ (t.dev.link i).locks = (s.dev.link i).locks
        ∧ RegsKept [R.STAY_STAT] s t ∧ MemKept s t) ∧
    ((s.dev.link i).up = false → 1 ≤ linkStage s.dev i →
      (s.dev.link i).stageAt + s.dev.get F.LANES_TRAIN_TMO * 1000000 ≤ s.dev.now + dt →
      ∃ t, exec (.linkTrainTimeout dt i) s = .next t
        ∧ linkStage t.dev i = (if allLanes i (s.dev.link i).locks then 2 else 1)
        ∧ t.dev.get F.LANES_TRAIN_FAILS = min (s.dev.get F.LANES_TRAIN_FAILS + 1) 0xFFFF
        ∧ RegsKept (R.LANES_TRAIN :: linkRegs i) s t ∧ MemKept s t) ∧
    (lanesOn s.dev h = true → r = (rxEvents true (linkStage s.dev h == 2 && !bit (s.dev.link h).marked 0)
          { (s.dev.link h).rx0 with inv := bit (s.dev.link h).inverted 0 } l0).2 → (∀ x ∈ r, NoFrame x) →
      ∃ t, exec (.gweatFrameDiscard dt ⟨⟨h, by omega⟩, l0, l1⟩) s = .next t
        ∧ t.dev.get (F.HPL_CNT_BAD h) = min (s.dev.get (F.HPL_CNT_BAD h) + r.length) 0xFFFF
        ∧ RegsKept [R.HPL_CNT h] s t ∧ MemKept s t) ∧
    (32 ≤ i.val → lanesOn s.dev i = true → linkStage s.dev i = 5 → (s.dev.link i).inverted = 0 → (s.dev.link i).swapped = false →
      ((s.dev.link i).deskewed = true ∨ (s.dev.link i).skew = 0) →
      r = (rxEvents false false (s.dev.link i).rx0 (rxBond ((s.dev.link i).rest0 ++ l0) ((s.dev.link i).rest1 ++ l1)).1).2 →
      (∀ x ∈ r, NoFrame x) →
      ∃ t, exec (.gweatFrameDiscard dt ⟨i, l0, l1⟩) s = .next t
        ∧ t.dev.get F.STAY_CNT_BAD = min (s.dev.get F.STAY_CNT_BAD + r.length) 0xFFFF
        ∧ RegsKept [R.STAY_CNT] s t ∧ MemKept s t)

/-- On a ready block: LNK_TMO beats without a STATUS take an up, unbound head link down with cause 2, HPL_CFG.DOWN with cause
5. A due link cycle without slots, on a started link, sends nothing while the link is not up; on an up one it sends NOP,
or the oldest queued message with the next CSEQ; one with a message sent 4 times and not acknowledged takes the link down
with cause 3. A good SENSE or REPLY frame becomes the 528-byte record of R252, a full ring counts it in BCR_DROPS, a bad
frame counts in BAD. SEND queues the OP and the first LEN mailbox bytes and sets BUSY; a SEND that is BUSY, below 0x80 or
longer than 112 bytes is refused. In each beat the member sends its frame on both up stay ports with up to VMAX verdicts,
started where in its window the command says. A MEMBER frame that fails a check is counted; one on the west port from the
wrong neighbour sets WIRING; a good one with HOPS of 2 or more leaves on the other port, east or west, with HOPS one less
and CORR increased by the link's delay and the time from its arrival to its start; the ring time master's domains are
taken over; a verdict for this chip that outranks the nozzle's state is applied. (R249, R250, R252, R256, R258, R259,
R260, R261, R262, R292) -/
def Obligations.HeadLinksAndRing : Prop :=
  ∀ (dt op a g st hold de dw : Nat) (h : Fin 32) (dir : Fin 2) (m : Ctrl) (body frame : List Byte) (rest : List (Nat × List Byte))
      (go : Int) (e : Dev) (s : State), Ready s → e = s.dev.elapse dt →
    ((s.dev.link h).up = true → PortFree s dt h →
      (s.dev.link h).statusAt + s.dev.get (F.HPL_CFG_LNK_TMO h) * s.dev.beatLen ≤ s.dev.now + dt →
      ∃ t, exec (.hplStatusTimeout dt h) s = .next t ∧ HeadLinkLost s t h 2) ∧
    ((s.dev.link h).up = true → PortFree s dt h → ∃ t, exec (.hplDownCmd dt h) s = .next t ∧ HeadLinkLost s t h 5) ∧
    ((s.dev.link h).startSent = true → (s.dev.link h).up = false → (s.dev.link h).wave = false →
      (s.dev.link h).origin + ((s.dev.link h).cycle * (if (s.dev.link h).cyc250 then 5000000 else 4000000) : Nat) ≤ laneNow e h →
      ∃ t, exec (.linkCycle dt h) s = .next t ∧ (t.dev.link h).cycle = (s.dev.link h).cycle + 1
        ∧ Silent s t ∧ RegsKept [] s t ∧ MemKept s t) ∧
    ((s.dev.link h).startSent = true → (s.dev.link h).up = true → s.dev.get (F.PG_CTL_EN 0x40) = 1 →
      (s.dev.link h).origin + ((s.dev.link h).cycle * (if (s.dev.link h).cyc250 then 5000000 else 4000000) : Nat) ≤ laneNow e h →
      ((s.dev.link h).wave = false → (s.dev.link h).wait = [] → (s.dev.link h).back = 0 → (s.dev.link h).sent = [] →
        (s.dev.link h).queue = [] → ControlGoes e h 8 →
        ∃ t, exec (.linkCycle dt h) s = .next t ∧ (t.dev.link h).cycle = (s.dev.link h).cycle + 1
          ∧ (∃ n x y, t.wire = .lanes h n x y :: .head h 0x02 ([0, 0, 0] ++ beBytes 4 (crc32c [2, 0, 0, 0])) :: s.wire) ∧ RegsKept [] s t ∧ MemKept s t) ∧
      ((s.dev.link h).wave = false → (s.dev.link h).wait = [] → (s.dev.link h).back = 0 → (s.dev.link h).sent = [] →
        (s.dev.link h).queue = (op, body) :: rest → ControlGoes e h (8 + body.length) → a = ((s.dev.link h).cseq + 1) % 256 →
        ∃ t, exec (.linkCycle dt h) s = .next t ∧ t.dev.get (F.HPL_STAT_CSEQ h) = a ∧ (t.dev.link h).queue = rest
          ∧ (∃ c, (t.dev.link h).sent = [c] ∧ c.seq = a ∧ c.op = op ∧ c.payload = body ∧ c.sends = 1)
          ∧ (let f := beBytes 1 0x02 ++ beBytes 1 a ++ beBytes 1 op ++ beBytes 1 body.length ++ body;
              ∃ n x y, t.wire = .lanes h n x y :: .head h 0x02 (f.drop 1 ++ beBytes 4 (crc32c f)) :: s.wire)
          ∧ RegsKept [R.HPL_STAT h] s t ∧ MemKept s t) ∧
      ((s.dev.link h).back = 0 → (s.dev.link h).sent = [m] → m.cycle + 2 ≤ (s.dev.link h).cycles → 4 ≤ m.sends →
        PortFree s dt h → ∃ t, exec (.linkCycle dt h) s = .next t ∧ HeadLinkLost s t h 3)) ∧
    (lanesOn s.dev h = true → byteAt frame 0 = 0x82 ∨ byteAt frame 0 = 0x83 →
      frameOk frame = true → beAt frame 2 2 ≤ 512 → frame.length = beAt frame 2 2 + 8 →
      (s.dev.get F.BCR_HEAD_HEAD ≠ s.dev.get F.BCR_TAIL_TAIL →
        a = s.dev.get2 F.BCR_BASE_LO_BASE F.BCR_BASE_HI_BASE + s.dev.get F.BCR_HEAD_HEAD * 528 → Reach s 14 kindWrite a 528 →
        ∃ t, exec (.senseReplyRx dt h frame) s = .next t ∧ t.byte a = BitVec.ofNat 8 h ∧ t.byte (a + 1) = frame.getD 0 0
          ∧ t.byte (a + 2) = BitVec.ofNat 8 (beAt frame 2 2) ∧ t.byte (a + 3) = BitVec.ofNat 8 (beAt frame 2 2 / 256)
          ∧ (∀ j, j < 4 → t.byte (a + 4 + j) = BitVec.ofNat 8 (e.beatNum / 256 ^ j))
          ∧ (∀ j, j < 512 → t.byte (a + 16 + j) = if j < beAt frame 2 2 then frame.getD (4 + j) 0 else 0)
          ∧ t.dev.get F.BCR_HEAD_HEAD = (s.dev.get F.BCR_HEAD_HEAD + 1) % max 1 (s.dev.get F.BCR_SIZE_SIZE) ∧ EventSet t 0x40 8
          ∧ bit (t.dev.get (F.EVT_PEND_PEND 0)) 29 = true ∧ RegsKept (R.BCR_HEAD :: eventRegs 0x40 ++ memRegs) s t ∧ MemKeptOutside a 528 s t) ∧
      (s.dev.get F.BCR_HEAD_HEAD = s.dev.get F.BCR_TAIL_TAIL →
        ∃ t, exec (.senseReplyRx dt h frame) s = .next t
          ∧ t.dev.get F.BCR_DROPS_DROPS = min (s.dev.get F.BCR_DROPS_DROPS + 1) 0xFFFFFFFF
          ∧ RegsKept [R.BCR_DROPS] s t ∧ MemKept s t)) ∧
    (lanesOn s.dev h = true → frameOk frame = false →
      ∃ t, exec (.senseReplyRx dt h frame) s = .next t
        ∧ t.dev.get (F.HPL_CNT_BAD h) = min (s.dev.get (F.HPL_CNT_BAD h) + 1) 0xFFFF ∧ RegsKept [R.HPL_CNT h] s t ∧ MemKept s t) ∧
    (s.dev.get (F.HPL_MBX_CTL_BUSY h) = 0 → 0x80 ≤ s.dev.get (F.HPL_MBX_CTL_OP h) → s.dev.get (F.HPL_MBX_CTL_LEN h) ≤ 112 →
      ∃ t, exec (.hplMbxSend dt h) s = .next t ∧ t.dev.get (F.HPL_MBX_CTL_BUSY h) = 1
        ∧ (∃ bs, (t.dev.link h).queue = (s.dev.link h).queue ++ [(s.dev.get (F.HPL_MBX_CTL_OP h), bs)]
            ∧ bs.length = s.dev.get (F.HPL_MBX_CTL_LEN h)
            ∧ ∀ j, j < bs.length → byteAt bs j = bits (s.dev.reg (R.HPL_MBX_DATA h (j / 4))).toNat (24 - 8 * (j % 4)) 8)
        ∧ RegsKept [R.HPL_MBX_CTL h] s t ∧ MemKept s t) ∧
    ((s.dev.get (F.HPL_MBX_CTL_BUSY h) = 1 ∨ s.dev.get (F.HPL_MBX_CTL_OP h) < 0x80 ∨ 112 < s.dev.get (F.HPL_MBX_CTL_LEN h)) →
      s.dev.get (F.PG_FAULT_VALID (hpPage h)) = 0 →
      ∃ t, exec (.hplMbxSend dt h) s = .next t ∧ t.dev.links = s.dev.links ∧ t.dev.get (F.PG_FAULT_CODE (hpPage h)) = 0x01
        ∧ RegsKept (faultRegs (hpPage h)) s t ∧ MemKept s t) ∧
    (s.dev.get F.PLAN_STAY_EN = 1 → s.dev.get (F.PG_CTL_EN 0x5F) = 1 → (∀ b, s.dev.stay.sentBeat = some b → b < e.beatNum) →
      e.beatStart e.beatNum + s.dev.get F.STAY_CFG_LAUNCH ≤ e.nt →
      (∀ i, i < 2 → (s.dev.link (32 + i)).up = true ∧ (s.dev.link (32 + i)).wave = false ∧ (s.dev.link (32 + i)).wait = []) →
      ((∀ i, i < 2 → memberLate e i e.beatNum = false) →
        ∃ t, exec (.memberFrameTx dt de dw) s = .next t ∧ t.dev.stay.verdicts = s.dev.stay.verdicts.drop (s.dev.get F.PLAN_STAY_VMAX)
          ∧ t.dev.stay.sentBeat = some e.beatNum
          ∧ (let f (i : Nat) : List Byte :=
                memberBytes i e.beatNum (s.dev.stay.verdicts.take (s.dev.get F.PLAN_STAY_VMAX))
                  (memberGo e i e.beatNum (if i = 0 then de else dw)) e;
              ∃ n x y n' x' y', t.wire = .lanes 33 n x y :: .stay 1 (byteAt (f 1) 0) ((f 1).drop 1 ++ beBytes 4 (crc32c (f 1)))
                :: .lanes 32 n' x' y' :: .stay 0 (byteAt (f 0) 0) ((f 0).drop 1 ++ beBytes 4 (crc32c (f 0))) :: s.wire)
          ∧ RegsKept [] s t ∧ MemKept s t) ∧
      ((∀ i, i < 2 → memberLate e i e.beatNum = true) → s.dev.get F.TIME_LAUNCH_STAY_LATE_DROP = 1 →
        ∃ t, exec (.memberFrameTx dt de dw) s = .next t ∧ Silent s t ∧ t.dev.stay.verdicts = s.dev.stay.verdicts
          ∧ t.dev.get F.TIME_LATE_STAY = min (s.dev.get F.TIME_LATE_STAY + 2) 0xFFFF ∧ RegsKept [R.TIME_LATE] s t ∧ MemKept s t)) ∧
    ((s.dev.link (32 + dir)).up = true →
      (frameOk frame = false →
        ∃ t, exec (.memberFrameRx dt dir frame hold) s = .next t ∧ t.dev.stay = s.dev.stay
          ∧ t.dev.get F.STAY_CNT_BAD = min (s.dev.get F.STAY_CNT_BAD + 1) 0xFFFF ∧ RegsKept [R.STAY_CNT] s t ∧ MemKept s t) ∧
      (frameOk frame = true → byteAt frame 0 = 0x10 → frame.length = memberLen frame + 4 → s.dev.stay.wiring = false →
        (dir.val = 1 → byteAt frame 1 / 16 = s.dev.get F.PLAN_STAY_RING_SIZE →
          byteAt frame 1 % 16 ≠ (s.dev.get F.PLAN_STAY_RING_POS + ringSize s.dev - 1) % ringSize s.dev →
          ∃ t, exec (.memberFrameRx dt dir frame hold) s = .next t ∧ t.dev.stay.wiring = true ∧ t.dev.get F.STAY_STAT_WIRING = 1
            ∧ t.dev.get F.STAY_CNT_BAD = min (s.dev.get F.STAY_CNT_BAD + 1) 0xFFFF ∧ EventSet t 0x5F 9
            ∧ RegsKept ([R.STAY_CNT, R.STAY_STAT] ++ eventRegs 0x5F) s t ∧ MemKept s t) ∧
        ((dir.val = 1 → byteAt frame 1 / 16 = s.dev.get F.PLAN_STAY_RING_SIZE →
            byteAt frame 1 % 16 = (s.dev.get F.PLAN_STAY_RING_POS + ringSize s.dev - 1) % ringSize s.dev) →
          (byteAt frame 2 % 8 = 0 → byteAt frame 3 = 0 → 2 ≤ byteAt frame 1 / 16 → (s.dev.link (33 - dir)).up = true →
            (s.dev.link (33 - dir)).wave = false → s.dev.get (F.PG_CTL_EN 0x5F) = 1 →
            go = max (e.t16 + hold * 256) (memberStart e (1 - dir)) → forwardWaits e (1 - dir) frame.length go = false →
            ∃ t, exec (.memberFrameRx dt dir frame hold) s = .next t
              ∧ (∃ r n x y, t.wire = .lanes (33 - dir) n x y :: .stay (1 - dir) 0x10 r :: s.wire ∧ byteAt r 0 = byteAt frame 1 - 16
                  ∧ r.length + 1 = frame.length
                  ∧ beAt r 19 4 = ofSigned 32 (toSigned 32 (beAt frame 20 4) + (stayDelay t.dev dir + (go / 256 - e.t8))))
              ∧ RegsKept ([R.STAY_DELAY_E, R.STAY_DELAY_W, R.TIME_ALIGN] ++ eventRegs 0x08) s t ∧ MemKept s t) ∧
          (bit (byteAt frame 2) 2 = true → s.dev.get F.TIME_CTL_SRC = 1 → (s.dev.link (33 - dir)).up = false →
            ∃ t, exec (.memberFrameRx dt dir frame hold) s = .next t ∧ t.dev.tm.ringAct = byteAt frame 14
              ∧ t.dev.tm.ringStby = byteAt frame 15 ∧ t.dev.tm.ringOfs = toSigned 32 (beAt frame 16 4) * 256) ∧
          (byteAt frame 2 = 0 → byteAt frame 3 = 1 → s.dev.stay.seen = [] → byteAt frame 1 % 16 ≠ s.dev.get F.PLAN_STAY_RING_POS →
            byteAt frame 38 % 16 = s.dev.get F.PLAN_STAY_RING_POS → g = beAt frame 40 4 % 131072 → st = byteAt frame 39 % 4 →
            s.dev.planActive = true → (nozPlane s.dev g).isSome = true → precedes (beAt frame 44 4) (s.dev.get F.VRD_EPOCH_MIN_EPOCH) = false →
            (beAt frame 44 4 + 2 ^ 32 - s.dev.get F.VRD_EPOCH_MIN_EPOCH) % 2 ^ 32 ≠ 2 ^ 31 →
            stateRank (nozState (nozShadow s.dev g)) < stateRank st →
            ∃ t, exec (.memberFrameRx dt dir frame hold) s = .next t ∧ nozState (nozShadow t.dev g) = st
              ∧ (∀ x, x ≠ g → nozShadow t.dev x = nozShadow s.dev x)
              ∧ t.dev.get F.VRD_CNT_APPLIED_CNT = min (s.dev.get F.VRD_CNT_APPLIED_CNT + 1) 0xFFFFFFFF))))

/-- On a ready block: a due trigger that was held back and whose spacing has expired is sent, sets TRIG_LATE and is counted; a
heartbeat clears HB_LOST; HB_TMO ms without one set it, raise the event and mark the frames in progress; LINK is set
exactly while every connection of NCONN is up. GO of an idle control channel sends the command and sets BUSY, of a busy
one it is refused; an acknowledgement of firmware's command gives RESULT and, for a good read, the data; on a driven
uplink (PWR_OE) the trigger and the command go out; 1 ms without one gives RESULT 2 (no result before that; for a command
of firmware the time-out is the choice of log entry 42). The last acknowledgement of an exposure set makes it ready; a
refused or timed-out write of it sets FAIL, raises the event and drops the set. A strobe output shows whether a pulse is
running, inverted by POL. The frame of each is stated. (R264, R266, R267, R268, R275, R276, R277) -/
def Obligations.CameraPorts : Prop :=
  ∀ (dt n status g : Nat) (c : Fin 2) (j : Fin 4) (up write : Bool) (v : Word) (k : CcCmd) (x : ExpSet) (e : Dev) (s : State),
    Ready s → e = s.dev.elapse dt →
    ((s.dev.cam c).heldBack = true → trigDue e c = true → trigSpaced e c = true →
      ∃ t, exec (.camTriggerHeld dt c) s = .next t ∧ t.dev.get (F.CAM_STAT_TRIG_LATE c) = 1
        ∧ t.dev.get (F.CNT_TRIG_LATE_CNT c) = min (s.dev.get (F.CNT_TRIG_LATE_CNT c) + 1) 0xFFFFFFFF
        ∧ (t.dev.cam c).next = (s.dev.cam c).next + 1 ∧ (t.dev.cam c).lastTrig = some (s.dev.now + dt)
        ∧ (t.dev.cam c).trigs = (s.dev.cam c).trigs ++ [⟨(s.dev.cam c).next, trigOrd s.dev c (s.dev.cam c).next, s.dev.now + dt⟩]
        ∧ (bit (s.dev.reg R.PWR_OE).toNat 5 = true → Out.trigger c (t.dev.cam c).gen ∈ t.wire)
        ∧ RegsKept [R.CAM_STAT c, R.CNT_TRIG_LATE c] s t ∧ MemKept s t) ∧
    (∃ t, exec (.cxpHeartbeatRx dt c) s = .next t ∧ t.dev.get (F.CAM_STAT_HB_LOST c) = 0 ∧ (t.dev.cam c).hbAt = s.dev.now + dt
      ∧ RegsKept [R.CAM_STAT c] s t ∧ MemKept s t) ∧
    (s.dev.get (F.CAM_STAT_HB_LOST c) = 0 → (s.dev.cam c).hbAt + s.dev.get (F.CAM_TMO_HB_TMO c) * 1000000 ≤ s.dev.now + dt →
      ∃ t, exec (.camHbTimeout dt c) s = .next t ∧ t.dev.get (F.CAM_STAT_HB_LOST c) = 1 ∧ EventSet t (0x41 + c) 8
        ∧ (t.dev.cam c).frames = (s.dev.cam c).frames.map (fun f => { f with incomplete := true, hb := true })
        ∧ RegsKept (R.CAM_STAT c :: eventRegs (0x41 + c)) s t ∧ MemKept s t) ∧
    (∃ t, exec (.cxpLinkChange dt c j up) s = .next t ∧ bit (t.dev.cam c).conns j = up
      ∧ (n ≠ j → bit (t.dev.cam c).conns n = bit (s.dev.cam c).conns n)
      ∧ t.dev.get (F.CAM_STAT_LINK c) = b2n ((List.range (2 ^ s.dev.get (F.CAM_CFG_NCONN c))).all (bit (t.dev.cam c).conns))
      ∧ RegsKept [R.CAM_STAT c] s t ∧ MemKept s t) ∧
    (s.dev.get (F.CAM_CC_CTL_BUSY c) = 0 →
      ∃ t, exec (.camCcGo dt c write) s = .next t ∧ t.dev.get (F.CAM_CC_CTL_BUSY c) = 1 ∧ t.dev.get (F.CAM_CC_CTL_WRITE c) = b2n write
        ∧ (t.dev.cam c).cc = some { gen := none, write := write, at_ := s.dev.now + dt }
        ∧ t.wire = (if bit (s.dev.reg R.PWR_OE).toNat 5 then
            [.camReg c write (s.dev.get (F.CAM_CC_ADDR_ADDR c)) (if write then s.dev.get (F.CAM_CC_DATA_DATA c) else 0)] else []) ++ s.wire
        ∧ RegsKept [R.CAM_CC_CTL c, R.EXP_STAT c] s t ∧ MemKept s t) ∧
    (s.dev.get (F.CAM_CC_CTL_BUSY c) = 1 → s.dev.get (F.PG_FAULT_VALID (0x41 + c)) = 0 →
      ∃ t, exec (.camCcGo dt c write) s = .next t ∧ Silent s t ∧ t.dev.cam c = s.dev.cam c
        ∧ t.dev.get (F.PG_FAULT_CODE (0x41 + c)) = 0x01 ∧ RegsKept (faultRegs (0x41 + c)) s t ∧ MemKept s t) ∧
    ((s.dev.cam c).cc = some k → k.gen = none → (s.dev.cam c).pending = none →
      (status < 4 →
        ∃ t, exec (.ccAckRx dt c status v) s = .next t ∧ t.dev.get (F.CAM_CC_CTL_RESULT c) = status
          ∧ t.dev.get (F.CAM_CC_CTL_BUSY c) = 0 ∧ (t.dev.cam c).cc = none
          ∧ t.dev.get (F.CAM_CC_DATA_DATA c) = (if status = 0 ∧ k.write = false then v.toNat else s.dev.get (F.CAM_CC_DATA_DATA c))
          ∧ RegsKept [R.CAM_CC_CTL c, R.CAM_CC_DATA c, R.EXP_STAT c] s t ∧ MemKept s t) ∧
      (k.at_ + 1000000 ≤ s.dev.now + dt →
        ∃ t, exec (.ccTimeout dt c) s = .next t ∧ t.dev.get (F.CAM_CC_CTL_RESULT c) = 2 ∧ t.dev.get (F.CAM_CC_CTL_BUSY c) = 0
          ∧ (t.dev.cam c).cc = none ∧ RegsKept [R.CAM_CC_CTL c, R.EXP_STAT c] s t ∧ MemKept s t)) ∧
    ((s.dev.cam c).cc = some k → s.dev.now + dt < k.at_ + 1000000 →
      ∃ t, exec (.ccTimeout dt c) s = .next t ∧ t.dev.cam c = s.dev.cam c ∧ RegsKept [] s t ∧ MemKept s t) ∧
    ((s.dev.cam c).cc = some k → k.gen = some g → (s.dev.cam c).pending = some x → x.gen = g →
      (x.writes = [] →
        ∃ t, exec (.ccAckRx dt c 0 v) s = .next t ∧ (t.dev.cam c).ready = some (g, x.width) ∧ (t.dev.cam c).failed = false
          ∧ t.dev.get (F.EXP_STAT_PENDING c) = 0 ∧ t.dev.get (F.CAM_CC_CTL_BUSY c) = 0
          ∧ RegsKept [R.CAM_CC_CTL c, R.EXP_STAT c] s t ∧ MemKept s t) ∧
      (∃ t, exec (.ccAckRx dt c 1 v) s = .next t ∧ t.dev.get (F.EXP_STAT_FAIL c) = 1 ∧ EventSet t 0x46 8
        ∧ (t.dev.cam c).failed = true ∧ (t.dev.cam c).pending = none ∧ (t.dev.cam c).cc = none ∧ t.dev.get (F.CAM_CC_CTL_BUSY c) = 0
        ∧ RegsKept ([R.CAM_CC_CTL c, R.EXP_STAT c] ++ eventRegs 0x46) s t ∧ MemKept s t) ∧
      (k.at_ + 1000000 ≤ s.dev.now + dt →
        ∃ t, exec (.ccTimeout dt c) s = .next t ∧ t.dev.get (F.EXP_STAT_FAIL c) = 1 ∧ EventSet t 0x46 8
          ∧ (t.dev.cam c).failed = true ∧ (t.dev.cam c).pending = none ∧ (t.dev.cam c).cc = none
          ∧ RegsKept ([R.CAM_CC_CTL c, R.EXP_STAT c] ++ eventRegs 0x46) s t ∧ MemKept s t)) ∧
    (∃ t, exec (.strobePulse dt j) s = .next t
      ∧ t.dev.pinLevel .strb j = b2n ((s.dev.getB (F.LGT_STRB_EN j)
          && s.dev.insp.pulses.any (fun p => p.1 == j.val && decide (p.2.1 ≤ s.dev.now + dt) && decide (s.dev.now + dt < p.2.2)))
          != s.dev.getB (F.LGT_STRB_POL j))
      ∧ (∀ p ∈ t.dev.insp.pulses, p.1 = j.val → s.dev.now + dt < p.2.2) ∧ RegsKept [] s t ∧ MemKept s t)

/-- On a ready block, with the port at work: a line of another component size counts in CNT_SHORT and does nothing else; one
that no trigger qualifies for counts in CNT_EXCESS and marks the oldest open frame (the choice of log entry 38); otherwise
it is matched to the oldest qualifying trigger, whose frame, where it is not complete with this line, takes one line of
its own samples, shaded and converted where they are real (mixed pixels: the choice of log entry 115) and padded with PAD,
and counts SHORT, LONG or DROPPED; it enters the FIFO unless that is full. LINE_TMO us after it was sent the oldest
trigger is matched to a MISSING line. The pipeline frees its line and takes the next, from the other port first; a tapped
line goes to the ring at INS_TAP_BASE as 2-byte samples. HCLR clears exactly the history entries of the views named.
VRD_SENT with LOCAL releases records up to its value, refuses more than are held, and without LOCAL does nothing. (R264,
R269, R270, R271, R273, R287, R288, R289, R290) -/
def Obligations.CameraLines : Prop :=
  ∀ (dt age i views x a : Nat) (c : Fin 2) (px raw : List Nat) (tr : Trig) (f : CamFrame) (l : FifoLine) (q : Nat × FifoLine)
      (v : Word) (s : State), Ready s →
    (camWorks s.dev c = true →
      ∃ t, exec (.camLineRx dt c age false px) s = .next t
      ∧ t.dev.get (F.CNT_SHORT_CNT c) = min (s.dev.get (F.CNT_SHORT_CNT c) + 1) 0xFFFFFFFF ∧ t.dev.cam c = s.dev.cam c
      ∧ RegsKept [R.CNT_SHORT c] s t ∧ MemKept s t) ∧
    (camWorks s.dev c = true → (∀ u ∈ (s.dev.cam c).trigs, s.dev.now + dt - age < u.at_ + s.dev.get (F.CAM_TMO_TRIG_LAT c) * 100) →
      ∃ t, exec (.camLineRx dt c age true px) s = .next t
        ∧ t.dev.get (F.CNT_EXCESS_CNT c) = min (s.dev.get (F.CNT_EXCESS_CNT c) + 1) 0xFFFFFFFF
        ∧ (t.dev.cam c).trigs = (s.dev.cam c).trigs ∧ (∀ g ∈ (t.dev.cam c).frames.head?, g.incomplete = true)
        ∧ RegsKept [R.CNT_EXCESS c] s t ∧ MemKept s t) ∧
    (frameTrigs s.dev c f.ord ≠ some (f.matched + 1) →
      (camWorks s.dev c = true →
        (s.dev.cam c).trigs.find? (fun u => decide (u.at_ + s.dev.get (F.CAM_TMO_TRIG_LAT c) * 100 ≤ s.dev.now + dt - age)) = some tr →
        (s.dev.cam c).frames = [f] → f.ord = tr.ord → s.dev.insp.pipe = some q →
        raw = (px.map (· % 4096)).take (f.npix * f.npl)
          ++ List.replicate (f.npix * f.npl - px.length) (f.get (F.CAM_CFG_PAD c)) →
        ((s.dev.cam c).fifo.length < 4 →
          ∃ t, exec (.camLineRx dt c age true px) s = .next t
            ∧ (t.dev.cam c).trigs = (s.dev.cam c).trigs.filter (fun u => u.idx != tr.idx)
            ∧ (∃ tap, (t.dev.cam c).fifo
                = (s.dev.cam c).fifo ++ [⟨tr.ord, tap, f.tapped && f.get F.INS_TAP_CFG_CMP == 1⟩] ∧ (f.tapped = false → tap = none))
            ∧ (∃ g, (t.dev.cam c).frames = [g] ∧ g.matched = f.matched + 1
                ∧ g.short = f.short + b2n (decide (px.length < f.npix * f.npl))
                ∧ g.long = f.long + b2n (decide (f.npix * f.npl < px.length))
                ∧ g.incomplete = (f.incomplete || decide (px.length ≠ f.npix * f.npl))
                ∧ g.lines = f.lines
                    ++ [⟨min px.length (f.npix * f.npl), (lineShade f c (min px.length (f.npix * f.npl)) raw).2⟩])
            ∧ RegsKept [R.CNT_SHORT c, R.CNT_LONG c] s t ∧ MemKept s t) ∧
        (4 ≤ (s.dev.cam c).fifo.length →
          ∃ t, exec (.camLineRx dt c age true px) s = .next t ∧ (t.dev.cam c).fifo = (s.dev.cam c).fifo
            ∧ t.dev.get (F.CNT_DROP_CNT c) = min (s.dev.get (F.CNT_DROP_CNT c) + 1) 0xFFFFFFFF
            ∧ (∃ g, (t.dev.cam c).frames = [g] ∧ g.dropped = f.dropped + 1 ∧ g.incomplete = true)
            ∧ RegsKept [R.CNT_SHORT c, R.CNT_LONG c, R.CNT_DROP c] s t ∧ MemKept s t)) ∧
      ((s.dev.cam c).trigs.head? = some tr → tr.at_ + s.dev.get (F.CAM_TMO_LINE_TMO c) * 1000 ≤ s.dev.now + dt →
        (s.dev.cam c).frames = [f] → f.ord = tr.ord →
        ∃ t, exec (.camLineTimeout dt c) s = .next t
          ∧ t.dev.get (F.CNT_MISSING_CNT c) = min (s.dev.get (F.CNT_MISSING_CNT c) + 1) 0xFFFFFFFF
          ∧ (t.dev.cam c).trigs = (s.dev.cam c).trigs.filter (fun u => u.idx != tr.idx)
          ∧ (∃ g, (t.dev.cam c).frames = [g] ∧ g.missing = f.missing + 1 ∧ g.matched = f.matched + 1 ∧ g.incomplete = true
              ∧ g.lines = f.lines ++ [⟨0, []⟩])
          ∧ RegsKept [R.CNT_MISSING c] s t ∧ MemKept s t)) ∧
    (s.dev.insp.pipe = some (c.val, l) → l.tap = none → s.dev.insp.served = c → s.dev.insp.tapEnding = false →
      ∃ t, exec (.pipelineLineDone dt) s = .next t
        ∧ (∀ y ys, (s.dev.cam (1 - c)).fifo = y :: ys → t.dev.insp.pipe = some (1 - c.val, y) ∧ (t.dev.cam (1 - c)).fifo = ys)
        ∧ (∀ y ys, (s.dev.cam (1 - c)).fifo = [] → (s.dev.cam c).fifo = y :: ys →
            t.dev.insp.pipe = some (c.val, y) ∧ (t.dev.cam c).fifo = ys)
        ∧ ((s.dev.cam (1 - c)).fifo = [] → (s.dev.cam c).fifo = [] → t.dev.insp.pipe = none) ∧ RegsKept [] s t ∧ MemKept s t) ∧
    (s.dev.insp.pipe = some (c.val, l) → l.tap = some px → 0 < px.length → l.cmp = false → s.dev.get F.DRAMC_FCHG_BUSY = 0 →
      s.dev.insp.tapEnding = false → (∀ g ∈ (s.dev.cam c).frames, frameTrigs s.dev c g.ord ≠ some g.matched) →
      s.dev.insp.tapPos % (s.dev.get F.INS_TAP_SIZE_SIZE * 4096) + 2 * px.length ≤ s.dev.get F.INS_TAP_SIZE_SIZE * 4096 →
      s.dev.get F.INS_TAP_READ_READ = 0 → s.dev.insp.tapPos + 2 * px.length ≤ s.dev.get F.INS_TAP_SIZE_SIZE * 4096 →
      a = s.dev.get2 F.INS_TAP_BASE_LO_BASE F.INS_TAP_BASE_HI_BASE + s.dev.insp.tapPos → Reach s 11 kindWrite a (2 * px.length) →
      ∃ t, exec (.pipelineLineDone dt) s = .next t ∧ t.dev.insp.tapPos = s.dev.insp.tapPos + 2 * px.length
        ∧ (∀ j, j < px.length → t.byte (a + 2 * j) = BitVec.ofNat 8 (px.getD j 0)
            ∧ t.byte (a + 2 * j + 1) = BitVec.ofNat 8 (px.getD j 0 / 256))
        ∧ RegsKept memRegs s t ∧ MemKeptOutside a (2 * px.length) s t) ∧
    (∃ t, exec (.vrdHclr dt views) s = .next t
      ∧ ((∃ w, w < 8 ∧ bit (views % 256) w = true ∧ s.dev.get (F.VIEW_HBASE_HBASE w) ≤ i
            ∧ i < s.dev.get (F.VIEW_HBASE_HBASE w) + (s.dev.get (F.VIEW_X1_X w) - s.dev.get (F.VIEW_X0_X w))) →
          cellGet 0 t.dev.insp.hist i = 0)
      ∧ (¬(∃ w, w < 8 ∧ bit (views % 256) w = true ∧ s.dev.get (F.VIEW_HBASE_HBASE w) ≤ i
            ∧ i < s.dev.get (F.VIEW_HBASE_HBASE w) + (s.dev.get (F.VIEW_X1_X w) - s.dev.get (F.VIEW_X0_X w))) →
          cellGet 0 t.dev.insp.hist i = cellGet 0 s.dev.insp.hist i)
      ∧ RegsKept [] s t ∧ MemKept s t) ∧
    (s.dev.get F.VRD_RING_CFG_LOCAL = 1 → v.toNat < s.dev.get F.VRD_SIZE_SIZE → s.dev.get F.VRD_SENT_SENT < s.dev.get F.VRD_SIZE_SIZE →
      v.toNat < 2 ^ 20 → x = (v.toNat + s.dev.get F.VRD_SIZE_SIZE - s.dev.get F.VRD_SENT_SENT) % s.dev.get F.VRD_SIZE_SIZE →
      (x ≤ s.dev.insp.vrdHeld →
        ∃ t, exec (.vrdSentWrite dt v) s = .next t ∧ t.dev.get F.VRD_SENT_SENT = v.toNat ∧ t.dev.insp.vrdHeld = s.dev.insp.vrdHeld - x
          ∧ RegsKept [R.VRD_SENT] s t ∧ MemKept s t) ∧
      (s.dev.insp.vrdHeld < x → s.dev.get (F.PG_FAULT_VALID 0x45) = 0 →
        ∃ t, exec (.vrdSentWrite dt v) s = .next t ∧ t.dev.insp.vrdHeld = s.dev.insp.vrdHeld
          ∧ t.dev.get (F.PG_FAULT_CODE 0x45) = 0x01 ∧ RegsKept (faultRegs 0x45) s t ∧ MemKept s t)) ∧
    (s.dev.get F.VRD_RING_CFG_LOCAL = 0 →
      ∃ t, exec (.vrdSentWrite dt v) s = .next t ∧ t.dev.insp.vrdHeld = s.dev.insp.vrdHeld ∧ RegsKept [] s t ∧ MemKept s t)

/-- On a ready block: a conversion of the next enabled channel i, in ascending order round robin, sets ADC_DATA[i].VALUE to
the code when AVG is 0 and, when the channel has at least 2^AVG codes with it, to the rounded mean of its last 2^AVG
codes; STALE clears and SEQ grows by 1 modulo 2^16. An edge on FIN at least 40 cycles of 5 ns after the one before is
recorded with its time and beat, a closer one is not. LOOP_RST makes every loop named start afresh and leaves the others.
A period of a running PWM output starts with the PERIOD and DUTY then in the registers. The frame of each is stated. On a
ready block: GPIO_OUT_WRITE makes GPIO_OUT the low 16 bits written; GPIO_SET sets exactly the bits written with 1 and
GPIO_CLR clears exactly them, every other bit of GPIO_OUT unchanged; GPIO_EDGE on a pin that is not driven makes its bit
of GPIO_IN the new level and, while the block is enabled and the pin's RISE or FALL asks for it, sets bit 8 + n of PG_EVT
of page 0x4C. Every register but GPIO_OUT, GPIO_IN (and for an edge the event registers) and every byte of memory is
unchanged. (R297, R299, R302, R308, R310, R311) -/
def Obligations.LoopInputCommands : Prop :=
  (
    ∀ (dt code : Nat) (i : Nat) (f : Fin 4) (m : Word) (o : Fin 24) (s : State), Ready s →
      (s.dev.get (F.PG_CTL_EN 0x49) = 1 → s.dev.mot.adcCal = false →
        adcNext (s.dev.get F.ADC_EN_EN) s.dev.mot.adcLast = some i →
        ∃ t, exec (.adcConversion dt code) s = .next t
          ∧ (s.dev.get (F.ADC_CH_AVG i) = 0 → t.dev.get (F.ADC_DATA_VALUE i) = code % 2 ^ 12)
          ∧ (∀ k, s.dev.get (F.ADC_CH_AVG i) = k + 1 →
              2 ^ (k + 1) ≤ (code % 2 ^ 12 :: cellGet [] s.dev.mot.codes i).length →
              t.dev.get (F.ADC_DATA_VALUE i)
                = ((((code % 2 ^ 12 :: cellGet [] s.dev.mot.codes i).take (2 ^ (k + 1))).foldl (· + ·) 0 + 2 ^ k)
                    / 2 ^ (k + 1)) % 2 ^ 12)
          ∧ t.dev.get (F.ADC_DATA_STALE i) = 0 ∧ t.dev.get (F.ADC_DATA_SEQ i) = (s.dev.get (F.ADC_DATA_SEQ i) + 1) % 2 ^ 16
          ∧ RegsKept [R.ADC_DATA i, R.TRIM_STALE, R.PG_STAT 0x5B] s t ∧ MemKept s t) ∧
      (∃ t, exec (.finEdge dt f) s = .next t
        ∧ ((∀ e ∈ (cellGet [] s.dev.mot.fin f).head?, e.1 + 40 ≤ (s.dev.now + dt) / 5) →
            cellGet [] t.dev.mot.fin f
              = ((s.dev.now + dt) / 5, (s.dev.elapse dt).beatNum) :: cellGet [] s.dev.mot.fin f)
        ∧ ((∃ e ∈ (cellGet [] s.dev.mot.fin f).head?, (s.dev.now + dt) / 5 < e.1 + 40) → t.dev.mot.fin = s.dev.mot.fin)
        ∧ RegsKept [] s t ∧ MemKept s t) ∧
      (∃ t, exec (.loopRst dt m) s = .next t
        ∧ (∀ l, l < 32 → bit m.toNat l = true → (t.dev.loop l).fresh = true)
        ∧ (∀ l, l < 32 → bit m.toNat l = false → t.dev.loop l = s.dev.loop l)
        ∧ RegsKept [] s t ∧ MemKept s t) ∧
      (s.dev.get (F.PG_CTL_EN 0x4A) = 1 → s.dev.get (F.PWM_CFG_EN o) = 1 →
        ((s.dev.pwmOut o).running = true → (s.dev.pwmOut o).since + 5 * (s.dev.pwmOut o).period ≤ s.dev.now + dt) →
        ∃ t, exec (.pwmPeriodStart dt o) s = .next t
          ∧ t.dev.pwmOut o = ⟨true, s.dev.now + dt, s.dev.get (F.PWM_PERIOD_PERIOD o), s.dev.get (F.PWM_DUTY_DUTY o)⟩
          ∧ (s.dev.get F.PWR_OE_PWM = 1 →
              Out.pwm o (s.dev.get (F.PWM_PERIOD_PERIOD o)) (s.dev.get (F.PWM_DUTY_DUTY o)) (s.dev.getB (F.PWM_CFG_POL o))
                ∈ t.wire)
          ∧ RegsKept [] s t ∧ MemKept s t)) ∧
  (
    ∀ (dt : Nat) (v : Word) (n : Fin 16) (level : Bool) (s : State), Ready s →
      (∃ t, exec (.gpioOutWrite dt v) s = .next t ∧ t.dev.get F.GPIO_OUT_OUT = v.toNat % 2 ^ 16
        ∧ RegsKept [R.GPIO_OUT, R.GPIO_IN] s t ∧ MemKept s t) ∧
      (∃ t, exec (.gpioSet dt v) s = .next t
        ∧ bit (t.dev.get F.GPIO_OUT_OUT) n = (bit (s.dev.get F.GPIO_OUT_OUT) n || bit v.toNat n)
        ∧ RegsKept [R.GPIO_OUT, R.GPIO_IN] s t ∧ MemKept s t) ∧
      (∃ t, exec (.gpioClr dt v) s = .next t
        ∧ bit (t.dev.get F.GPIO_OUT_OUT) n = (bit (s.dev.get F.GPIO_OUT_OUT) n && !bit v.toNat n)
        ∧ RegsKept [R.GPIO_OUT, R.GPIO_IN] s t ∧ MemKept s t) ∧
      (gpioDriven s.dev n = false → bit s.dev.mot.gpioIn n ≠ level →
        ∃ t, exec (.gpioEdge dt n level) s = .next t ∧ bit (t.dev.get F.GPIO_IN_IN) n = level
          ∧ (s.dev.get (F.PG_CTL_EN 0x4C) = 1 → s.dev.get (if level then F.GPIO_CFG_RISE n else F.GPIO_CFG_FALL n) = 1 →
              EventSet t 0x4C (8 + n))
          ∧ RegsKept (R.GPIO_IN :: eventRegs 0x4C) s t ∧ MemKept s t))

/-- On a ready block: MOVE of a powered axis that stands still and is not in fault starts a move of STP_TARGET minus STP_POS
steps, or of STP_TARGET steps with REL, toward its sign, with MOVING set; STOP and EN cleared make a moving axis stand
still at once, UNCERTAIN set where its speed exceeds VSAFE and always by EN cleared, with ENA inactive; HOME with a stall
source starts homing toward HOME_DIR; SET_POS at standstill loads STP_POS from STP_TARGET and clears UNCERTAIN; CLR_FAULT
clears FAULT. Each leaves every register but those named and every byte of memory unchanged. On a ready block: when the
timer of a moving axis has expired, STEP_PULSE puts a rising edge on STEP and moves STP_POS by 1 in the direction of
travel, STP_STEPS grows by 1 up to 2^48 - 1 (a homing axis that reaches its overrun is the stall and is not this case).
STALL_INPUT with STALL_SRC 1 or 3 outside homing stops the axis, sets FAULT and UNCERTAIN and raises the axis-fault event;
while homing it is the reference: STP_POS takes STP_HOME_POS, HOMED sets, BY_OVR and UNCERTAIN clear. (R312, R313, R315,
R316, R317, R314, R320) -/
def Obligations.StepperCommands : Prop :=
  (
    ∀ (dt : Nat) (a : Fin 8) (rel : Bool) (n : Int) (s : State), Ready s →
      ((s.dev.axis a).mode = .still → s.dev.get (F.STP_STAT_FAULT a) = 0 → axisOn s.dev a = true →
        n = (if rel then s.dev.getI (F.STP_TARGET_T a) else s.dev.getI (F.STP_TARGET_T a) - s.dev.getI (F.STP_POS_POS a)) →
        n ≠ 0 →
        ∃ t, exec (.stpMove dt a rel) s = .next t ∧ (t.dev.axis a).mode = .move ∧ (t.dev.axis a).left = n
          ∧ (t.dev.axis a).up = decide (0 < n) ∧ t.dev.get (F.STP_STAT_MOVING a) = 1
          ∧ RegsKept [R.STP_STAT a] s t ∧ MemKept s t) ∧
      ((s.dev.axis a).mode ≠ .still →
        ∃ t, exec (.stpStop dt a) s = .next t ∧ (t.dev.axis a).mode = .still ∧ t.dev.get (F.STP_STAT_MOVING a) = 0
          ∧ t.dev.get (F.STP_STAT_UNCERTAIN a) = (if s.dev.get (F.STP_VSAFE_V a) * 2 ^ 16 < (s.dev.axis a).v then 1
              else s.dev.get (F.STP_STAT_UNCERTAIN a))
          ∧ RegsKept [R.STP_STAT a] s t ∧ MemKept s t) ∧
      (s.dev.get (F.STP_CFG_STALL_SRC a) ≠ 0 → (s.dev.axis a).mode = .still → axisOn s.dev a = true →
        ∃ t, exec (.stpHome dt a) s = .next t ∧ (t.dev.axis a).mode = .homing
          ∧ (t.dev.axis a).up = s.dev.getB (F.STP_CFG_HOME_DIR a) ∧ t.dev.get (F.STP_STAT_HOMING a) = 1
          ∧ RegsKept [R.STP_STAT a] s t ∧ MemKept s t) ∧
      ((s.dev.axis a).mode = .still →
        ∃ t, exec (.stpSetPos dt a) s = .next t ∧ t.dev.get (F.STP_POS_POS a) = s.dev.get (F.STP_TARGET_T a)
          ∧ t.dev.get (F.STP_STAT_UNCERTAIN a) = 0 ∧ RegsKept [R.STP_POS a, R.STP_STAT a] s t ∧ MemKept s t) ∧
      (∃ t, exec (.stpClrFault dt a) s = .next t ∧ t.dev.get (F.STP_STAT_FAULT a) = 0
        ∧ RegsKept [R.STP_STAT a] s t ∧ MemKept s t) ∧
      (∃ t, exec (.stpDisable dt a) s = .next t ∧ t.dev.get (F.STP_CFG_EN a) = 0
        ∧ t.dev.get (F.STP_STAT_UNCERTAIN a)
            = (if (s.dev.axis a).mode = .still then s.dev.get (F.STP_STAT_UNCERTAIN a) else 1)
        ∧ ((s.dev.axis a).mode ≠ .still → (t.dev.axis a).mode = .still) ∧ t.dev.pinLevel .ena a = 0
        ∧ RegsKept [R.STP_CFG a, R.STP_STAT a] s t ∧ MemKept s t)) ∧
  (
    ∀ (dt : Nat) (a : Fin 8) (s : State), Ready s →
      ((s.dev.axis a).mode ≠ .still → (s.dev.axis a).due ≤ s.dev.now + dt →
        ((s.dev.axis a).mode = .homing → ¬(2 ≤ s.dev.get (F.STP_CFG_STALL_SRC a)
          ∧ s.dev.get (F.STP_HOME_OVR_OVR a) ≤ (s.dev.axis a).homed + 1)) →
        ∃ t, exec (.stepPulse dt a) s = .next t
          ∧ t.dev.get (F.STP_POS_POS a)
              = ofSigned 32 (s.dev.getI (F.STP_POS_POS a) + if (s.dev.axis a).up then 1 else -1)
          ∧ t.dev.get2 (F.STP_STEPS_LO_STEPS a) (F.STP_STEPS_HI_STEPS a)
              = min (s.dev.get2 (F.STP_STEPS_LO_STEPS a) (F.STP_STEPS_HI_STEPS a) + 1) (2 ^ 48 - 1)
          ∧ (s.dev.get F.PWR_OE_STEP = 1 → s.dev.pinLevel .step a = 0 → Out.pin .step a 1 ∈ t.wire)
          ∧ RegsKept [R.STP_POS a, R.STP_STAT a, R.STP_STEPS_LO a, R.STP_STEPS_HI a] s t ∧ MemKept s t) ∧
      (s.dev.get (F.STP_CFG_STALL_SRC a) % 2 = 1 → (s.dev.axis a).mode ≠ .homing →
        ∃ t, exec (.stallInput dt a) s = .next t ∧ (t.dev.axis a).mode = .still ∧ t.dev.get (F.STP_STAT_FAULT a) = 1
          ∧ t.dev.get (F.STP_STAT_UNCERTAIN a) = 1 ∧ EventSet t 0x4B 8
          ∧ RegsKept (R.STP_STAT a :: eventRegs 0x4B) s t ∧ MemKept s t) ∧
      (s.dev.get (F.STP_CFG_STALL_SRC a) % 2 = 1 → (s.dev.axis a).mode = .homing →
        ∃ t, exec (.stallInput dt a) s = .next t ∧ t.dev.get (F.STP_POS_POS a) = s.dev.get (F.STP_HOME_POS_POS a)
          ∧ t.dev.get (F.STP_STAT_HOMED a) = 1 ∧ t.dev.get (F.STP_STAT_BY_OVR a) = 0
          ∧ t.dev.get (F.STP_STAT_UNCERTAIN a) = 0
          ∧ RegsKept [R.STP_POS a, R.STP_STAT a] s t ∧ MemKept s t))

/-- On a ready block, for a transaction within one 64-byte line: a permitted write of memory in service stores exactly its
bytes; a permitted read of it answers them, and of a poisoned DRAM codeword or L2 word answers poison; a permitted DRAM
access that nothing serves sets OOR and a read answers poison; a master that issues none (a cleated one, a reserved
identity, a core that does not run) does nothing; an access of DRAM that is permitted stalls during a change of rate; only
a core fetches; a transaction that is not permitted (of a master that is not the store prefetch's under a plan) is not
performed, answers poison unless it is a write, and cleats its master alone. A permitted register write of PG_EVT clears
the bits written 1, at the shadow of a register with RWS fields and values in range it writes those bits of the shadow
alone, at an offset that holds no register nothing, and on a page that is not listed nothing. The frame of each is stated.
(R5, R6, R322, R370, R371, R376, R422, R423, R424, R426, R429, R432) -/
def Obligations.BusTransactions : Prop :=
  ∀ (dt : Nat) (m : Fin 48) (a n v : Nat) (w : Word) (s : State), Ready s → 0 < n → a % 64 + n ≤ 64 → a < 2 ^ 40 →
    ((inDram a = false ∨ s.dev.get F.DRAMC_FCHG_BUSY = 0) →
    (Permitted s m kindWrite a n → ((inL2 a && s.dev.l2Ram) || dramServes s.dev a) = true →
      ∃ t, exec (.busTransaction dt m 1 a n v) s = .next t
        ∧ (∀ i, i < n → t.byte (a + i) = BitVec.ofNat 8 (v / 2 ^ (8 * i))) ∧ t.dev.busResp = .none
        ∧ RegsKept memRegs s t ∧ MemKeptOutside a n s t) ∧
    (∀ k : Fin 3, k.val ≠ 1 → (k.val = 2 → m.val < 4) → Permitted s m k a n → ((inL2 a && s.dev.l2Ram) || dramServes s.dev a) = true →
      (if inL2 a then l2Poisoned s.dev (a - 0x20000000) n else dramPoisoned s.dev a n) = false →
      ∃ t, exec (.busTransaction dt m k a n v) s = .next t
        ∧ t.dev.busResp = .ok (leNat ((List.range n).map (fun i => s.byte (a + i))))
        ∧ RegsKept memRegs s t ∧ MemKept s t) ∧
    (∀ k : Fin 3, k.val ≠ 1 → (k.val = 2 → m.val < 4) → Permitted s m k a n →
      (dramServes s.dev a && dramPoisoned s.dev a n || inL2 a && s.dev.l2Ram && l2Poisoned s.dev (a - 0x20000000) n) = true →
      ∃ t, exec (.busTransaction dt m k a n v) s = .next t ∧ t.dev.busResp = .poison ∧ RegsKept memRegs s t ∧ MemKept s t) ∧
    (∀ k : Fin 3, (k.val = 2 → m.val < 4) → Permitted s m k a n → inDram a = true → dramServes s.dev a = false →
      ∃ t, exec (.busTransaction dt m k a n v) s = .next t ∧ t.dev.busResp = (if k.val = 1 then .none else .poison)
        ∧ t.dev.get F.DRAMC_STAT_OOR = 1 ∧ EventSet t 0x50 8 ∧ RegsKept (R.DRAMC_STAT :: eventRegs 0x50) s t ∧ MemKept s t) ∧
    (∀ k : Fin 3, (k.val = 2 → m.val < 4) → issues s.dev m = false →
      ∃ t, exec (.busTransaction dt m k a n v) s = .next t ∧ t.dev.busResp = .none ∧ RegsKept [] s t ∧ MemKept s t) ∧
    (4 ≤ m.val → ∃ t, exec (.busTransaction dt m 2 a n v) s = .next t ∧ t.dev.busResp = s.dev.busResp ∧ RegsKept [] s t ∧ MemKept s t) ∧
    (∀ k : Fin 3, (k.val = 2 → m.val < 4) → issues s.dev m = true → (m.val ≠ 8 ∨ s.dev.planActive = false) →
      (shroudCheck s.dev m k a (k.val == 1 && reachesRwm a n)).1 = false →
      ∃ t, exec (.busTransaction dt m k a n v) s = .next t ∧ t.dev.busResp = (if k.val = 1 then .none else .poison)
        ∧ cleated t.dev m = true ∧ (∀ j, j < 48 → j ≠ m.val → cleated t.dev j = cleated s.dev j)
        ∧ t.dev.get (F.PG_STAT_CLEATED (masterPage m)) = 1
        ∧ t.dev.get F.SHROUD_VIO_CNT_COUNT = min (s.dev.get F.SHROUD_VIO_CNT_COUNT + 1) 0xFFFFFFFF ∧ EventSet t 0x54 8
        ∧ RegsKept ([R.SHROUD_CLEAT_LO, R.SHROUD_CLEAT_HI, R.SHROUD_VIO_CNT, R.SHROUD_VIO_LO, R.SHROUD_VIO_HI, R.SHROUD_VIO_INFO,
            R.PG_STAT (masterPage m), R.CNT_EVT_DROP] ++ eventRegs 0x54 ++ eventRegs (masterPage m)) s t ∧ MemKept s t)) ∧
    (∀ k : Fin 3, (k.val = 2 → m.val < 4) → inDram a = true → s.dev.get F.DRAMC_FCHG_BUSY = 1 → Permitted s m k a n →
      ∃ t, exec (.busTransaction dt m k a n v) s = .next t ∧ t.dev.stalled = s.dev.stalled ++ [⟨m, k, a, n, v⟩]
        ∧ RegsKept [] s t ∧ MemKept s t) ∧
    (∀ p : Fin 128, pageListed p = true → MayWrite s m (R.PG_EVT p) →
      ∃ t, exec (.registerWrite dt m (R.PG_EVT p) w) s = .next t
        ∧ t.dev.reg (R.PG_EVT p) = s.dev.reg (R.PG_EVT p) &&& ~~~w ∧ RegsKept (eventRegs p) s t ∧ MemKept s t) ∧
    (∀ (o : Nat) (r : RegDesc), o < 0x80000 → 0x40 ≤ o % 0x1000 → o % 0x1000 < 0x800 → regDesc (o / 0x1000) (o % 0x1000) = some r →
      r.rws ≠ 0 → rangesOk r r.rws w.toNat = true → crossRangeOk o w.toNat s.dev = true → o ∉ shadowPorts → MayWrite s m (o + 0x800) →
      ∃ t, exec (.registerWrite dt m (o + 0x800) w) s = .next t
        ∧ t.dev.reg (o + 0x800) = (s.dev.reg (o + 0x800) &&& ~~~BitVec.ofNat 32 r.rws) ||| (w &&& BitVec.ofNat 32 r.rws)
        ∧ RegsKept [o + 0x800] s t ∧ MemKept s t) ∧
    (∀ o : Nat, o < 0x80000 → MayWrite s m o →
      (pageListed (o / 0x1000) = false ∨ (0x40 ≤ o % 0x1000 ∧ o % 0x1000 < 0x800 ∧ regDesc (o / 0x1000) (o % 0x1000) = none)) →
      ∃ t, exec (.registerWrite dt m o w) s = .next t ∧ RegsKept [] s t ∧ MemKept s t)

/-- On a ready block. While DRAM serves: a refresh window counts, and a sixteenth one with tracking recentres the read delay
of the lane whose turn it is; the rate poll sets HOT; tracking moves the write delay of the ten lanes of the rank by the
drift; a rank idle for PD_IDLE x 10 ns enters power-down; the scrubber reads its line and goes on to the next installed
one. A window renewal empties the row trackers and ends throttling. TRAIN with no plan active and DRAM out of service
starts at stage 1; its success sets STAGE 7, READY and CAP and the eyes found, its failure STAGE, FAIL and LANE and leaves
READY 0. A change of rate sets BUSY and SELFREF; under a plan only RESULT 1; its end sets RATE, switches LIVE, applies the
training results stored for the rate, clears BUSY and SELFREF, and answers RESULT 0, or 2 with READY 0 where the training
it needed failed. The frame of each is stated. (R27, R327, R328, R329, R330, R331, R333, R337) -/
def Obligations.DramCommands : Prop :=
  ∀ (dt delay target : Nat) (hot : Bool) (rank : Fin 2) (delta : Int) (st lane : Nat) (es : List Word) (x : Nat × List Word) (s : State), Ready s →
    (s.dev.get F.DRAMC_STAT_READY = 1 →
      ∃ t, exec (.dramRefresh dt delay) s = .next t ∧ t.dev.refsbCount = s.dev.refsbCount + 1
        ∧ ((s.dev.refsbCount + 1) % 16 = 0 → s.dev.get F.DPHY_CTL_TRACK_EN = 1 →
            bits (cellGet 0 t.dev.eyes s.dev.trackLane).toNat 0 8 = delay % 256
            ∧ bits (cellGet 0 t.dev.eyes s.dev.trackLane).toNat 8 24 = bits (cellGet 0 s.dev.eyes s.dev.trackLane).toNat 8 24
            ∧ t.dev.trackLane = (s.dev.trackLane + 1) % (if s.dev.get F.DRAMC_CFG_RANKS = 1 then 20 else 10))
        ∧ (¬((s.dev.refsbCount + 1) % 16 = 0 ∧ s.dev.get F.DPHY_CTL_TRACK_EN = 1) → t.dev.eyes = s.dev.eyes)
        ∧ (∀ l, l ≠ s.dev.trackLane → cellGet 0 t.dev.eyes l = cellGet 0 s.dev.eyes l) ∧ RegsKept [] s t ∧ MemKept s t) ∧
    (s.dev.get F.DRAMC_STAT_READY = 1 →
      ∃ t, exec (.dramRatePoll dt hot) s = .next t ∧ t.dev.get F.DRAMC_STAT_HOT = (if hot then 1 else 0)
        ∧ t.dev.get F.DRAMC_STAT_READY = 1 ∧ t.dev.get F.DRAMC_STAT_SELFREF = s.dev.get F.DRAMC_STAT_SELFREF
        ∧ RegsKept [R.DRAMC_STAT] s t ∧ MemKept s t) ∧
    (s.dev.get F.DRAMC_STAT_READY = 1 → s.dev.get F.DPHY_CTL_TRACK_EN = 1 →
      ∃ t, exec (.dramTrack dt rank delta) s = .next t
        ∧ (∀ l, l < 10 → (bits (cellGet 0 t.dev.eyes (10 * rank + l)).toNat 16 8 : Int)
            = ((bits (cellGet 0 s.dev.eyes (10 * rank + l)).toNat 16 8 : Int) + delta) % 256)
        ∧ (∀ l, (l < 10 * rank.val ∨ 10 * rank.val + 10 ≤ l) → cellGet 0 t.dev.eyes l = cellGet 0 s.dev.eyes l)
        ∧ RegsKept [] s t ∧ MemKept s t) ∧
    (s.dev.get F.DRAMC_PD_PD_EN = 1 → s.dev.get F.DRAMC_STAT_READY = 1 →
      cellGet 0 s.dev.rankUsed rank + s.dev.get F.DRAMC_PD_PD_IDLE * 10 ≤ s.dev.now + dt →
      ∃ t, exec (.dramPowerDown dt rank) s = .next t ∧ bit t.dev.rankDown rank = true
        ∧ bit t.dev.rankDown (1 - rank) = bit s.dev.rankDown (1 - rank) ∧ RegsKept [] s t ∧ MemKept s t) ∧
    (∃ t, exec (.rhWindowRenew dt) s = .next t ∧ t.dev.rows = [] ∧ t.dev.throttled = [] ∧ RegsKept [] s t ∧ MemKept s t) ∧
    (s.dev.get F.DRAMC_SCRUB_EN = 1 → s.dev.get F.DRAMC_STAT_READY = 1 → s.dev.get (F.PG_CTL_EN 0x50) = 1 → s.dev.get F.DRAMC_FCHG_BUSY = 0 →
      Permitted s 15 kindRead (0x1000000000 + 64 * s.dev.scrubPos) 64 → s.dev.scrubPos < dramCap s.dev / 64 →
      ∃ t, exec (.dramScrub dt) s = .next t
        ∧ t.dev.scrubPos = (if s.dev.scrubPos + 1 = dramCap s.dev / 64 then 0 else s.dev.scrubPos + 1)
        ∧ RegsKept memRegs s t ∧ MemKept s t) ∧
    (s.dev.planActive = false → s.dev.get F.DRAMC_STAT_READY = 0 →
      ∃ t, exec (.dramTrain dt) s = .next t ∧ t.dev.get F.DPHY_STAT_STAGE = 1 ∧ t.dev.get F.DPHY_STAT_FAIL = 0 ∧ t.dev.training = true
        ∧ RegsKept [R.DPHY_STAT] s t ∧ MemKept s t) ∧
    ((s.dev.planActive = true ∨ s.dev.get F.DRAMC_STAT_READY = 1) → s.dev.get (F.PG_FAULT_VALID 0x51) = 0 →
      ∃ t, exec (.dramTrain dt) s = .next t ∧ t.dev.training = s.dev.training ∧ t.dev.get (F.PG_FAULT_CODE 0x51) = 0x01
        ∧ RegsKept (faultRegs 0x51) s t ∧ MemKept s t) ∧
    (s.dev.training = true →
      ∃ t, exec (.dramTrainDone dt none es) s = .next t ∧ t.dev.training = false ∧ t.dev.get F.DPHY_STAT_STAGE = 7
        ∧ t.dev.get F.DPHY_STAT_FAIL = 0 ∧ t.dev.get F.DRAMC_STAT_READY = 1
        ∧ t.dev.get F.DRAMC_STAT_CAP
            = dramCapGb (s.dev.get F.DRAMC_CFG_RANKS) (s.dev.get F.DRAMC_CFG_WIDTH) (s.dev.get F.DRAMC_CFG_DENS) % 2 ^ 16
        ∧ (∀ i, i < es.length → cellGet 0 t.dev.eyes i = es.getD i 0)
        ∧ RegsKept [R.DPHY_STAT, R.DRAMC_STAT, R.CLK_STAT] s t ∧ MemKept s t) ∧
    (s.dev.training = true → st < 8 → lane < 32 →
      ∃ t, exec (.dramTrainDone dt (some (st, lane)) es) s = .next t ∧ t.dev.training = false ∧ t.dev.get F.DPHY_STAT_STAGE = st
        ∧ t.dev.get F.DPHY_STAT_FAIL = 1 ∧ t.dev.get F.DPHY_STAT_LANE = lane
        ∧ RegsKept [R.DPHY_STAT] s t ∧ MemKept s t) ∧
    (target % 8 ≤ 4 → s.dev.planActive = false → s.dev.get F.DRAMC_FCHG_BUSY = 0 → s.dev.get F.DRAMC_STAT_READY = 1 →
      ∃ t, exec (.dramFchg dt target) s = .next t ∧ t.dev.get F.DRAMC_FCHG_TARGET = target % 8 ∧ t.dev.get F.DRAMC_FCHG_BUSY = 1
        ∧ t.dev.get F.DRAMC_STAT_SELFREF = 1 ∧ t.dev.get F.DRAMC_FCHG_RATE = s.dev.get F.DRAMC_FCHG_RATE
        ∧ RegsKept [R.DRAMC_FCHG, R.DRAMC_STAT, R.CLK_STAT] s t ∧ MemKept s t) ∧
    (target % 8 ≤ 4 → s.dev.planActive = true →
      ∃ t, exec (.dramFchg dt target) s = .next t ∧ t.dev.get F.DRAMC_FCHG_RESULT = 1
        ∧ t.dev.get F.DRAMC_FCHG_BUSY = s.dev.get F.DRAMC_FCHG_BUSY ∧ RegsKept [R.DRAMC_FCHG] s t ∧ MemKept s t) ∧
    (s.dev.get F.DRAMC_FCHG_BUSY = 1 → s.dev.openSessions = 0 →
      s.dev.trainedRates.find? (fun r => r.1 == s.dev.get F.DRAMC_FCHG_TARGET) = some x → s.dev.stalled = [] → s.dev.heldSteps = [] → (∀ n, (s.dev.sess n).held = [] ∧ (s.dev.sess n).todo = []) →
      ∃ t, exec (.dramFchgDone dt none es) s = .next t ∧ t.dev.get F.DRAMC_FCHG_BUSY = 0 ∧ t.dev.get F.DRAMC_FCHG_RESULT = 0
        ∧ t.dev.get F.DRAMC_FCHG_RATE = s.dev.get F.DRAMC_FCHG_TARGET
        ∧ t.dev.get F.DRAMC_FCHG_LIVE = 1 - s.dev.get F.DRAMC_FCHG_LIVE ∧ t.dev.get F.DRAMC_STAT_SELFREF = 0
        ∧ (∀ i, i < x.2.length → cellGet 0 t.dev.eyes i = x.2.getD i 0)
        ∧ (∀ i, x.2.length ≤ i → cellGet 0 t.dev.eyes i = cellGet 0 s.dev.eyes i)
        ∧ RegsKept [R.DRAMC_FCHG, R.DRAMC_STAT, R.CLK_STAT] s t ∧ MemKept s t) ∧
    (s.dev.get F.DRAMC_FCHG_BUSY = 1 → st < 8 → lane < 32 → s.dev.openSessions = 0 →
      s.dev.trainedRates.find? (fun r => r.1 == s.dev.get F.DRAMC_FCHG_TARGET) = none → s.dev.stalled = [] → s.dev.heldSteps = [] → (∀ n, (s.dev.sess n).held = [] ∧ (s.dev.sess n).todo = []) →
      ∃ t, exec (.dramFchgDone dt (some (st, lane)) es) s = .next t ∧ t.dev.get F.DRAMC_FCHG_BUSY = 0
        ∧ t.dev.get F.DRAMC_FCHG_RESULT = 2 ∧ t.dev.get F.DRAMC_STAT_READY = 0 ∧ t.dev.get F.DPHY_STAT_STAGE = st
        ∧ t.dev.get F.DPHY_STAT_FAIL = 1 ∧ t.dev.get F.DPHY_STAT_LANE = lane
        ∧ RegsKept [R.DRAMC_FCHG, R.DRAMC_STAT, R.CLK_STAT, R.DPHY_STAT] s t ∧ MemKept s t)

/-- On a ready block. A stored word of 64 bits with its own check bits, of any class (for DRAM with its address hash too),
reads as itself and nothing is counted, unless its index is mapped to a spare that is still poisoned, which answers
poison; with exactly one data bit or one check bit inverted it reads corrected, counts in LEVEL and PG_HEALTH.CE of its
class, and CE_ADDR takes its index (a leak due in the same cycle cancels the count); with exactly two of the 72 bits
inverted it is uncorrectable: the read answers poison, ECC_UE_CNT counts, the first is captured, and the event is raised.
After LEAK ms a level falls by 1 and OVER clears below floor(THR / 2). An install on a free entry of an index not yet
mapped maps it, marking POISON an index whose content is uncorrectable; any other install, and a removal of an entry not
in use, is refused; a removal frees the entry; the device's own install takes the first free entry. Memory's content does
not change by a remap. The frame of each is stated. (R335, R336, R338, R340, R341, R342) -/
def Obligations.MemoryErrors : Prop :=
  ∀ (dt a w : Nat) (c : Fin 15) (m : Fin 48) (i j : Fin 72) (idx g e x : Nat) (s : State), Ready s → w < 2 ^ 64 →
    (c.val = 14 → dramServes s.dev a = true ∧ a % 8 = 0 ∧ a < 2 ^ 40) → (c.val ≠ 14 → a < 2 ^ 29) →
    idx = (if c.val = 14 then lineIndex a else a) → g = s.dev.get F.REMAP_SEL_GROUP → e = s.dev.get F.REMAP_SEL_ENTRY →
    x = s.dev.get F.REMAP_ENT_INDEX → indexExists s.dev c idx = true →
    (spareBad s.dev c idx = true →
      ∃ t, exec (.memoryReadComplete dt c m a w (secdedCheck w) (addressHash a) 0 0 0) s = .next t ∧ t.dev.busResp = .poison
        ∧ RegsKept [] s t ∧ MemKept s t) ∧
    (spareBad s.dev c idx = false →
    (∃ t, exec (.memoryReadComplete dt c m a w (secdedCheck w) (addressHash a) 0 0 0) s = .next t ∧ t.dev.busResp = .ok w
      ∧ RegsKept [] s t ∧ MemKept s t) ∧
    (∃ t, exec (.memoryReadComplete dt c m a (if i.val < 64 then Nat.xor w (2 ^ i.val) else w)
          (if i.val < 64 then secdedCheck w else Nat.xor (secdedCheck w) (2 ^ (i.val - 64))) (addressHash a) 0 0 0) s = .next t
      ∧ t.dev.busResp = .ok w ∧ t.dev.get (F.ECC_CE_ADDR_INDEX c) = idx % 2 ^ 29
      ∧ (∀ p, classPage c = some p → t.dev.get (F.PG_HEALTH_CE p) = min (s.dev.get (F.PG_HEALTH_CE p) + 1) 0xFFFF)
      ∧ (NoLeakNow s dt c → t.dev.get (F.ECC_BKT_LEVEL c) = min (s.dev.get (F.ECC_BKT_LEVEL c) + 1) 0xFFFF)
      ∧ ((cellGet 0 s.dev.leakAt c + s.dev.get (F.ECC_BKT_CFG_LEAK c) * 1000000) / 2 = (s.dev.now + dt) / 2 →
          t.dev.get (F.ECC_BKT_LEVEL c) = s.dev.get (F.ECC_BKT_LEVEL c))
      ∧ (c.val = 14 → ∀ k, k < 8 → t.byte (a + k) = BitVec.ofNat 8 (w / 2 ^ (8 * k)))
      ∧ (c.val = 14 → MemKeptOutside a 8 s t) ∧ (c.val ≠ 14 → MemKept s t)
      ∧ RegsKept ([R.ECC_CE_ADDR c, R.ECC_BKT c] ++ eventRegs 0x52 ++ ((classPage c).map R.PG_HEALTH).toList) s t) ∧
    (i ≠ j → s.dev.get F.ECC_UE_HI_VALID = 0 →
      ∃ t, exec (.memoryReadComplete dt c m a
          (Nat.xor (if i.val < 64 then Nat.xor w (2 ^ i.val) else w) (if j.val < 64 then 2 ^ j.val else 0))
          (Nat.xor (if i.val < 64 then secdedCheck w else Nat.xor (secdedCheck w) (2 ^ (i.val - 64))) (if j.val < 64 then 0 else 2 ^ (j.val - 64)))
          (addressHash a) 0 0 0) s = .next t
        ∧ t.dev.busResp = .poison ∧ t.dev.get F.ECC_UE_CNT_COUNT = min (s.dev.get F.ECC_UE_CNT_COUNT + 1) 0xFFFF
        ∧ t.dev.get2 F.ECC_UE_LO_ADDR F.ECC_UE_HI_ADDR = a ∧ t.dev.get F.ECC_UE_HI_CLASS = c ∧ t.dev.get F.ECC_UE_HI_MASTER = m
        ∧ t.dev.get F.ECC_UE_HI_ADDR_ERR = 0 ∧ t.dev.get F.ECC_UE_HI_VALID = 1 ∧ EventSet t 0x52 8 ∧ poisoned t.dev c idx = true
        ∧ (∀ p, classPage c = some p → t.dev.get (F.PG_HEALTH_UE p) = 1)
        ∧ RegsKept ([R.ECC_UE_LO, R.ECC_UE_HI, R.ECC_UE_CNT] ++ eventRegs 0x52 ++ ((classPage c).map R.PG_HEALTH).toList) s t
        ∧ MemKept s t)) ∧
    (cellGet 0 s.dev.leakAt c + s.dev.get (F.ECC_BKT_CFG_LEAK c) * 1000000 ≤ s.dev.now + dt →
      ∃ t, exec (.eccLeak dt c) s = .next t ∧ t.dev.get (F.ECC_BKT_LEVEL c) = s.dev.get (F.ECC_BKT_LEVEL c) - 1
        ∧ t.dev.get (F.ECC_BKT_OVER c) = (if s.dev.get (F.ECC_BKT_LEVEL c) - 1 < s.dev.get (F.ECC_BKT_CFG_THR c) / 2 then 0
            else s.dev.get (F.ECC_BKT_OVER c))
        ∧ RegsKept [R.ECC_BKT c] s t ∧ MemKept s t) ∧
    (g < 15 → e < remapSize g → indexExists s.dev g x = true → (cellGet noRemap s.dev.remap (64 * g + e)).valid = false → remapped s.dev g x = false →
      ∃ t, exec (.remapInstall dt) s = .next t
        ∧ cellGet noRemap t.dev.remap (64 * g + e) = { valid := true, index := x, poison := poisoned s.dev g x }
        ∧ (∀ k, k ≠ 64 * g + e → cellGet noRemap t.dev.remap k = cellGet noRemap s.dev.remap k)
        ∧ RegsKept ([R.REMAP_STAT] ++ eventRegs 0x53 ++ ((classPage g).map R.PG_HEALTH).toList) s t ∧ MemKept s t) ∧
    (g = 15 ∨ remapSize g ≤ e ∨ indexExists s.dev g x = false ∨ (cellGet noRemap s.dev.remap (64 * g + e)).valid = true ∨ remapped s.dev g x = true →
      s.dev.get (F.PG_FAULT_VALID 0x53) = 0 →
      ∃ t, exec (.remapInstall dt) s = .next t ∧ t.dev.remap = s.dev.remap ∧ t.dev.get (F.PG_FAULT_CODE 0x53) = 0x01
        ∧ RegsKept (faultRegs 0x53) s t ∧ MemKept s t) ∧
    ((cellGet noRemap s.dev.remap (64 * g + e)).valid = true →
      ∃ t, exec (.remapRemove dt) s = .next t ∧ cellGet noRemap t.dev.remap (64 * g + e) = noRemap
        ∧ (∀ k, k ≠ 64 * g + e → cellGet noRemap t.dev.remap k = cellGet noRemap s.dev.remap k)
        ∧ RegsKept ([R.REMAP_STAT] ++ eventRegs 0x53 ++ ((classPage g).map R.PG_HEALTH).toList) s t ∧ MemKept s t) ∧
    (∀ k, s.dev.autoWant.contains (c.val, idx) = true → s.dev.get F.REMAP_CFG_AUTO = 1 → remapped s.dev c idx = false →
      (List.range (remapSize c)).find? (fun n => !(cellGet noRemap s.dev.remap (64 * c + n)).valid) = some k →
      ∃ t, exec (.remapAutoInstall dt c idx) s = .next t
        ∧ cellGet noRemap t.dev.remap (64 * c + k) = { valid := true, index := idx, poison := poisoned s.dev c idx }
        ∧ (∀ n, n ≠ 64 * c.val + k → cellGet noRemap t.dev.remap n = cellGet noRemap s.dev.remap n)
        ∧ RegsKept ([R.REMAP_STAT] ++ eventRegs 0x53 ++ ((classPage c).map R.PG_HEALTH).toList) s t ∧ MemKept s t)

/-- On a ready block: a doorbell of a shared source 128 to 255 makes it pending on its core, or, when it is pending already,
counts in EVTC_CNT.COAL of that core; a doorbell of a private source 256, 257 or 272 to 287 does the same on its core; a
doorbell of any other source is not performed and captures REFUSED in PG_FAULT. (That the doorbell of 258 to 271 is
refused is the model's choice, log entry 20.) EVT_MSET and EVTC_MSET set exactly the mask bits written 1; EVT_MCLR and
EVTC_MCLR clear exactly those. The frame of each is stated. (R349, R350, R357, R431) -/
def Obligations.EventDoorbellsAndMasks : Prop :=
  ∀ (dt : Nat) (n : Fin 512) (c : Fin 4) (w : Fin 8) (m : Word) (i : Fin 32) (s : State), Ready s →
    (128 ≤ n.val → n.val ≤ 255 → s.dev.sharedPending n = false →
      ∃ t, exec (.evtDoorbell dt n) s = .next t ∧ t.dev.sharedPending n = true
        ∧ RegsKept [R.EVT_PEND (n / 32)] s t ∧ MemKept s t) ∧
    (128 ≤ n.val → n.val ≤ 255 → s.dev.sharedPending n = true →
      ∃ t, exec (.evtDoorbell dt n) s = .next t ∧ t.dev.sharedPending n = true
        ∧ t.dev.get (F.EVTC_CNT_COAL (s.dev.routeOf n)) = min (s.dev.get (F.EVTC_CNT_COAL (s.dev.routeOf n)) + 1) 0xFFFF
        ∧ RegsKept [R.EVTC_CNT (s.dev.routeOf n)] s t ∧ MemKept s t) ∧
    ((n.val < 128 ∨ 255 < n.val) → s.dev.get (F.PG_FAULT_VALID 0x55) = 0 →
      ∃ t, exec (.evtDoorbell dt n) s = .next t ∧ t.dev.get (F.PG_FAULT_CODE 0x55) = 0x01
        ∧ t.dev.get (F.PG_FAULT_VALID 0x55) = 1 ∧ RegsKept (faultRegs 0x55) s t ∧ MemKept s t) ∧
    ((n.val = 256 ∨ n.val = 257 ∨ (272 ≤ n.val ∧ n.val ≤ 287)) → bit (s.dev.get (F.EVTC_PEND_PEND c)) (n - 256) = false →
      ∃ t, exec (.evtcDoorbell dt c n) s = .next t ∧ bit (t.dev.get (F.EVTC_PEND_PEND c)) (n - 256) = true
        ∧ RegsKept [R.EVTC_PEND c] s t ∧ MemKept s t) ∧
    (¬(n.val = 256 ∨ n.val = 257 ∨ (272 ≤ n.val ∧ n.val ≤ 287)) → s.dev.get (F.PG_FAULT_VALID (0x56 + c)) = 0 →
      ∃ t, exec (.evtcDoorbell dt c n) s = .next t ∧ t.dev.get (F.PG_FAULT_CODE (0x56 + c)) = 0x01
        ∧ RegsKept (faultRegs (0x56 + c)) s t ∧ MemKept s t) ∧
    (∃ t, exec (.evtMset dt w m) s = .next t
      ∧ bit (t.dev.get (F.EVT_MASK_MASK w)) i = (bit (s.dev.get (F.EVT_MASK_MASK w)) i || bit m.toNat i)
      ∧ RegsKept [R.EVT_MASK w] s t ∧ MemKept s t) ∧
    (∃ t, exec (.evtMclr dt w m) s = .next t
      ∧ bit (t.dev.get (F.EVT_MASK_MASK w)) i = (bit (s.dev.get (F.EVT_MASK_MASK w)) i && !bit m.toNat i)
      ∧ RegsKept ([R.EVT_MASK w, R.EVT_PEND w] ++ eventRegs 0) s t ∧ MemKept s t) ∧
    (∃ t, exec (.evtcMset dt c m) s = .next t
      ∧ bit (t.dev.get (F.EVTC_MASK_MASK c)) i = (bit (s.dev.get (F.EVTC_MASK_MASK c)) i || bit m.toNat i)
      ∧ RegsKept [R.EVTC_MASK c] s t ∧ MemKept s t) ∧
    (∃ t, exec (.evtcMclr dt c m) s = .next t
      ∧ bit (t.dev.get (F.EVTC_MASK_MASK c)) i = (bit (s.dev.get (F.EVTC_MASK_MASK c)) i && !bit m.toNat i)
      ∧ RegsKept [R.EVTC_MASK c] s t ∧ MemKept s t)

/-- On a ready block: a running core with EE set or waiting accepts the presented source n: pending clears, EVTC_ACTIVE names
it, EVTC_RET takes the return address and level, EE and WAIT clear, the level becomes Monitor where the route's MON says
so and Supervisor otherwise, and the core goes on at EVTC_VEC + n x 0x40. EOI of the source in service ends its service; a
level source whose condition holds is pending again. The return restores address and level and sets EE. A permitted write
of EVT_ROUTE sets CORE and, unless it is fixed, MON. WAIT sets EVTC_CORE.WAIT. A WAKE edge rings source 80 + i while the
block runs, and the latch clears. The frame of each is stated. While a source is in service on a core nothing is presented
to that core, whatever EE reads; so EVENT_ACCEPT on it changes no register and no memory on a ready block. (R351, R354,
R356, R359, R355) -/
def Obligations.EventService : Prop :=
  (
    ∀ (dt : Nat) (c : Fin 4) (n : Nat) (e : Fin 512) (ret : Nat) (m : Fin 48) (r : Fin 256) (v : Word) (i : Fin 8) (s : State),
      Ready s →
      (coreRuns s.dev c = true → (s.dev.get (F.EVTC_CORE_EE c) = 1 ∨ s.dev.get (F.EVTC_CORE_WAIT c) = 1) →
        presented s.dev c = some n →
        ∃ t, exec (.eventAccept dt c ret) s = .next t
          ∧ t.dev.get (F.EVTC_ACTIVE_SRC c) = n ∧ t.dev.get (F.EVTC_ACTIVE_VALID c) = 1
          ∧ t.dev.get2 (F.EVTC_RET_LO_RET c) (F.EVTC_RET_HI_RET c) = ret % 2 ^ 40
          ∧ t.dev.get (F.EVTC_RET_HI_LVL c) = s.dev.get (F.EVTC_CORE_LVL c)
          ∧ t.dev.get (F.EVTC_CORE_EE c) = 0 ∧ t.dev.get (F.EVTC_CORE_WAIT c) = 0
          ∧ t.dev.get (F.EVTC_CORE_LVL c) = (if n < 256 ∧ s.dev.get (F.EVT_ROUTE_MON n) = 1 then 0 else 1)
          ∧ presentable t.dev c n = false
          ∧ cellGet 0 t.dev.corePc c
              = s.dev.get (F.EVTC_VEC_LO_VEC c) * 0x1000 + s.dev.get (F.EVTC_VEC_HI_VEC c) * 2 ^ 32 + n * 0x40
          ∧ RegsKept [R.EVT_PEND (n / 32), R.EVTC_PEND c, R.EVTC_ACTIVE c, R.EVTC_RET_LO c, R.EVTC_RET_HI c, R.EVTC_CORE c] s t
          ∧ MemKept s t) ∧
      (s.dev.get (F.EVTC_ACTIVE_VALID c) = 1 → s.dev.get (F.EVTC_ACTIVE_SRC c) = e →
        ∃ t, exec (.evtcEoi dt c e) s = .next t
          ∧ t.dev.get (F.EVTC_ACTIVE_VALID c) = 0 ∧ t.dev.get (F.EVTC_ACTIVE_SRC c) = 0
          ∧ (e.val < 256 → sourceLevel e = true → s.dev.sourceCond e = true → t.dev.sharedPending e = true)
          ∧ RegsKept ([R.EVTC_ACTIVE c, R.EVT_PEND (e / 32)] ++ eventRegs 0) s t ∧ MemKept s t) ∧
      (coreRuns s.dev c = true →
        ∃ t, exec (.eventReturn dt c) s = .next t ∧ t.dev.get (F.EVTC_CORE_EE c) = 1
          ∧ t.dev.get (F.EVTC_CORE_LVL c) = s.dev.get (F.EVTC_RET_HI_LVL c)
          ∧ cellGet 0 t.dev.corePc c = s.dev.get2 (F.EVTC_RET_LO_RET c) (F.EVTC_RET_HI_RET c)
          ∧ RegsKept [R.EVTC_CORE c] s t ∧ MemKept s t) ∧
      (MayWrite s m (R.EVT_ROUTE r) →
        ∃ t, exec (.evtRouteWrite dt m r v) s = .next t ∧ t.dev.get (F.EVT_ROUTE_CORE r) = v.toNat % 4
          ∧ t.dev.get (F.EVT_ROUTE_MON r)
              = (if sourceMonFixed r then s.dev.get (F.EVT_ROUTE_MON r) else v.toNat / 4 % 2)
          ∧ RegsKept [R.EVT_ROUTE r] s t ∧ MemKept s t) ∧
      (coreRuns s.dev c = true →
        ∃ t, exec (.coreWait dt c) s = .next t ∧ t.dev.get (F.EVTC_CORE_WAIT c) = 1
          ∧ RegsKept [R.EVTC_CORE c] s t ∧ MemKept s t) ∧
      (∃ t, exec (.wakeEdge dt i) s = .next t ∧ t.dev.sharedPending (80 + i) = true ∧ t.dev.wakeLatch = 0
        ∧ RegsKept (R.EVT_PEND 2 :: eventRegs 0) s t ∧ MemKept s t)) ∧
  (
    ∀ (dt : Nat) (c : Fin 4) (ret : Nat) (s : State), s.dev.get (F.EVTC_ACTIVE_VALID c) = 1 →
      presented s.dev c = none ∧
      (Ready s → ∃ t, exec (.eventAccept dt c ret) s = .next t ∧ t.dev.corePc = s.dev.corePc ∧ RegsKept [] s t ∧ MemKept s t))

/-- On a ready block: KICK reloads the core's watchdog and forgets that it barked; an expiry of an enabled watchdog of a core
whose RUN is set barks the first time (BARK[c]) and bites the next: the core is recorded in BITE_CORE and a MGMT reset
with cause 2 is requested unless one is waiting; a permitted write of WDOG_MCTL.MRST requests one with cause 1. Its
application returns every register of pages 0x55 to 0x5A but WDOG_STAT and the pending words to its reset value, records
the cause, counts it, clears bits 0 to 3 of SHROUD_CLEAT and no other, and changes no other register than BOOT_STAT and
BOOT_VER, no shadow or commit of another page, and no byte of DRAM. (R364, R365, R366, R381) -/
def Obligations.WatchdogAndManagementReset : Prop :=
  ∀ (dt : Nat) (c : Fin 4) (m : Fin 48) (cause : Nat) (s : State), Ready s →
    (∃ t, exec (.wdogKick dt c) s = .next t ∧ cellGet 0 t.dev.wdogAt c = (if bit (s.dev.get F.WDOG_MCTL_RUN) c then s.dev.now + dt else 0)
      ∧ cellGet false t.dev.wdogHit c = false ∧ RegsKept [] s t ∧ MemKept s t) ∧
    (s.dev.get (F.WDOG_CFG_EN c) = 1 → bit (s.dev.get F.WDOG_MCTL_RUN) c = true →
      cellGet 0 s.dev.wdogAt c + s.dev.get (F.WDOG_CFG_TMO c) * 1000000 ≤ s.dev.now + dt →
      cellGet false s.dev.wdogHit c = false →
      ∃ t, exec (.wdogExpiry dt c) s = .next t ∧ bit (t.dev.get F.WDOG_STAT_BARK) c = true
        ∧ cellGet false t.dev.wdogHit c = true ∧ t.dev.mgmtReq = s.dev.mgmtReq
        ∧ RegsKept ([R.WDOG_STAT, R.EVT_PEND 2] ++ eventRegs 0) s t ∧ MemKept s t) ∧
    (s.dev.get (F.WDOG_CFG_EN c) = 1 → bit (s.dev.get F.WDOG_MCTL_RUN) c = true →
      cellGet 0 s.dev.wdogAt c + s.dev.get (F.WDOG_CFG_TMO c) * 1000000 ≤ s.dev.now + dt →
      cellGet false s.dev.wdogHit c = true →
      ∃ t, exec (.wdogExpiry dt c) s = .next t ∧ t.dev.mgmtReq = some (s.dev.mgmtReq.getD 2)
        ∧ t.dev.get F.WDOG_STAT_BITE_CORE = c ∧ RegsKept [R.WDOG_STAT] s t ∧ MemKept s t) ∧
    (MayWrite s m R.WDOG_MCTL →
      ∃ t, exec (.mgmtResetRequest dt m) s = .next t ∧ t.dev.mgmtReq = some (s.dev.mgmtReq.getD 1)
        ∧ RegsKept [] s t ∧ MemKept s t) ∧
    (s.dev.mgmtReq = some cause →
      ∃ t, exec (.mgmtResetApply dt) s = .next t ∧ t.dev.mgmtReq = none
        ∧ t.dev.get F.WDOG_STAT_CAUSE = cause % 8
        ∧ t.dev.get F.WDOG_STAT_MCOUNT = min (s.dev.get F.WDOG_STAT_MCOUNT + 1) 0xFFFF
        ∧ (∀ a, 0x55000 ≤ a → a < 0x5B000 → a ≠ R.WDOG_STAT → (∀ w, w < 8 → a ≠ R.EVT_PEND w) → t.dev.reg a = resetWord a)
        ∧ (∀ k, k < 32 → bit (t.dev.get F.SHROUD_CLEAT_LO_CLEAT) k
              = (bit (s.dev.get F.SHROUD_CLEAT_LO_CLEAT) k && decide (4 ≤ k)))
        ∧ (∀ a, (a < 0x55000 ∨ 0x5B000 ≤ a) → a ∉ [R.SHROUD_CLEAT_LO, R.BOOT_STAT, R.BOOT_VER] → t.dev.reg a = s.dev.reg a)
        ∧ t.dev.armed = s.dev.armed ∧ t.dev.dram = s.dev.dram)

/-- On a ready block, for a listed page that is not always-on and not bound to an active plan: EN = 1 makes an idle page
ACTIVE; EN = 0 with STOP_MODE 0 puts a page with a unit of work into STOPPING and any other into IDLE; an abort with
nothing in flight makes it IDLE and records 0 discarded units; a stopping page whose unit is done reports IDLE and sets
the idle bit of PG_EVT. Exactly one of ACTIVE, IDLE and STOPPING reads 1 afterwards. For pages whose block drives no ball
and elects no path, every other register but PG_CTL, PG_STAT, PG_FAULT_INFO, TP_STAT (of 0x09) and (when idle is reported)
the event registers is unchanged; memory always is. (For 0x10 the last two cases are of a compressor with no job under
way: CompressorCommands states what an abort does to one.) (R361, R362, R428) -/
def Obligations.BlockControl : Prop :=
  ∀ (dt : Nat) (p : Fin 128) (s : State), Ready s → pageListed p = true → pageAlwaysOn p = false → pageBound s.dev p = false →
    cellGet false s.dev.enHeld p = false →
    (stopping s.dev p = false → s.dev.get (F.PG_CTL_EN p) = 0 →
      ∃ t, exec (.blockEnable dt p) s = .next t ∧ t.dev.get (F.PG_CTL_EN p) = 1 ∧ t.dev.get (F.PG_STAT_ACTIVE p) = 1
        ∧ t.dev.get (F.PG_STAT_IDLE p) = 0 ∧ t.dev.get (F.PG_STAT_STOPPING p) = 0
        ∧ (p.val ∉ [0x0C, 0x4B, 0x4C] →
            RegsKept ([R.PG_CTL p, R.PG_STAT p] ++ (if p.val = 0x09 then (List.range 8).map R.TP_STAT else [])) s t) ∧ MemKept s t) ∧
    (stopping s.dev p = false → s.dev.get (F.PG_CTL_EN p) = 1 → s.dev.get (F.PG_CTL_STOP_MODE p) = 0 →
      ∃ t, exec (.blockDisable dt p) s = .next t ∧ t.dev.get (F.PG_CTL_EN p) = 0 ∧ t.dev.get (F.PG_STAT_ACTIVE p) = 0
        ∧ t.dev.get (F.PG_STAT_IDLE p) = b2n (!hasUnit p) ∧ t.dev.get (F.PG_STAT_STOPPING p) = b2n (hasUnit p)
        ∧ (p.val ∉ [0x4B, 0x4C] → RegsKept [R.PG_CTL p, R.PG_STAT p] s t) ∧ MemKept s t) ∧
    (stopping s.dev p = false → s.dev.get (F.PG_CTL_EN p) = 1 → unitsInFlight (s.dev.elapse dt) p = 0 →
      (p.val = 0x10 → s.dev.get F.CMP_STAT_BUSY = 0) →
      ∃ t, exec (.blockAbort dt p) s = .next t ∧ t.dev.get (F.PG_CTL_EN p) = 0 ∧ t.dev.get (F.PG_CTL_STOP_MODE p) = 1
        ∧ t.dev.get (F.PG_STAT_ACTIVE p) = 0 ∧ t.dev.get (F.PG_STAT_IDLE p) = 1 ∧ t.dev.get (F.PG_STAT_STOPPING p) = 0
        ∧ t.dev.get (F.PG_FAULT_INFO_DISCARDED p) = 0
        ∧ (p.val ∉ [0x41, 0x42, 0x43, 0x44, 0x45, 0x4B, 0x4C] → RegsKept [R.PG_CTL p, R.PG_STAT p, R.PG_FAULT_INFO p] s t)
        ∧ MemKept s t) ∧
    (stopping s.dev p = true → unitsInFlight (s.dev.elapse dt) p = 0 →
      (p.val = 0x10 → s.dev.get F.CMP_STAT_BUSY = 0) →
      ∃ t, exec (.blockIdle dt p) s = .next t ∧ t.dev.get (F.PG_STAT_ACTIVE p) = 0 ∧ t.dev.get (F.PG_STAT_IDLE p) = 1
        ∧ t.dev.get (F.PG_STAT_STOPPING p) = 0 ∧ EventSet t p 3
        ∧ (p.val ≠ 0x4C → RegsKept (R.PG_STAT p :: eventRegs p) s t) ∧ MemKept s t)

/-- On a ready block, by a master that may write page 0x54 (a core at Monitor level: any other is cleated, BusTransactions):
the enable sets EN; APPLY of words that R374 allows copies the four of them into the selected region in one step, and of
words that it forbids is refused with the region as it was; READ loads them back; RELEASE of a cleated master clears its
bit of SHROUD_CLEAT, and of a master that is not cleated does nothing; a write that waited for it is performed; the
release of a JTP master with nothing held, and that of the print log's with nothing kept, change nothing more than
PLOG_STAT.FULL, and a record kept in the log's reserve goes to its ring; with RESET a core's page EVTC returns to its
reset values and it starts at the boot ROM at Monitor level, and the block of another master that is not bound receives
its soft reset. The frame of each is stated. (R366, R372, R373, R374, R378, R409) -/
def Obligations.ShroudCommands : Prop :=
  ∀ (dt : Nat) (m : Fin 48) (q : Fin 48) (s : State) (w : Fin 4 → Word), Ready s →
    (w 0 = s.dev.reg R.SHROUD_RDATA0 ∧ w 1 = s.dev.reg R.SHROUD_RDATA1 ∧ w 2 = s.dev.reg R.SHROUD_RDATA2 ∧ w 3 = s.dev.reg R.SHROUD_RDATA3) →
    (MayWrite s m R.SHROUD_CFG →
      ∃ t, exec (.shroudEnable dt m) s = .next t ∧ t.dev.get F.SHROUD_CFG_EN = 1 ∧ RegsKept [R.SHROUD_CFG] s t ∧ MemKept s t) ∧
    (MayWrite s m R.SHROUD_RCTL →
      (bit (w 0).toNat 31 = false ∨ ((w 0).toNat % 2 ^ 28 ≤ (w 1).toNat % 2 ^ 28
        ∧ ∀ g, g < 4 → bits (w 2).toNat (8 * g + 3) 2 ≠ 3 ∧ bits (w 3).toNat (8 * g + 3) 2 ≠ 3)) →
      ∃ t, exec (.shroudApply dt m) s = .next t
        ∧ (∀ j : Fin 4, regionWord t.dev (s.dev.get F.SHROUD_RSEL_REGION) j = (w j).toNat)
        ∧ (∀ r j, r ≠ s.dev.get F.SHROUD_RSEL_REGION → j < 4 → regionWord t.dev r j = regionWord s.dev r j)
        ∧ RegsKept [] s t ∧ MemKept s t) ∧
    (MayWrite s m R.SHROUD_RCTL → bit (w 0).toNat 31 = true → s.dev.get (F.PG_FAULT_VALID 0x54) = 0 →
      ((w 1).toNat % 2 ^ 28 < (w 0).toNat % 2 ^ 28
        ∨ ∃ g, g < 4 ∧ (bits (w 2).toNat (8 * g + 3) 2 = 3 ∨ bits (w 3).toNat (8 * g + 3) 2 = 3)) →
      ∃ t, exec (.shroudApply dt m) s = .next t ∧ t.dev.regions = s.dev.regions ∧ t.dev.get (F.PG_FAULT_CODE 0x54) = 0x01
        ∧ RegsKept (faultRegs 0x54) s t ∧ MemKept s t) ∧
    (MayWrite s m R.SHROUD_RCTL →
      ∃ t, exec (.shroudRead dt m) s = .next t
        ∧ (t.dev.reg R.SHROUD_RDATA0).toNat = regionWord s.dev (s.dev.get F.SHROUD_RSEL_REGION) 0
        ∧ (t.dev.reg R.SHROUD_RDATA1).toNat = regionWord s.dev (s.dev.get F.SHROUD_RSEL_REGION) 1
        ∧ (t.dev.reg R.SHROUD_RDATA2).toNat = regionWord s.dev (s.dev.get F.SHROUD_RSEL_REGION) 2
        ∧ (t.dev.reg R.SHROUD_RDATA3).toNat = regionWord s.dev (s.dev.get F.SHROUD_RSEL_REGION) 3
        ∧ t.dev.regions = s.dev.regions
        ∧ RegsKept [R.SHROUD_RDATA0, R.SHROUD_RDATA1, R.SHROUD_RDATA2, R.SHROUD_RDATA3] s t ∧ MemKept s t) ∧
    (MayWrite s m (R.SHROUD_RELEASE q) → cleated s.dev q = true → q.val ∉ [4, 5, 6, 8, 10] →
      (∀ x ∈ s.dev.heldSteps, x.master ≠ q.val) → (q.val = 9 → s.dev.get F.CMP_STAT_BUSY = 0) →
      ∃ t, exec (.shroudRelease dt m q) s = .next t ∧ (∀ j, j < 48 → cleated t.dev j = (cleated s.dev j && decide (j ≠ q.val)))
        ∧ RegsKept [R.SHROUD_CLEAT_LO, R.SHROUD_CLEAT_HI, R.PG_STAT (masterPage q)] s t ∧ MemKept s t) ∧
    (∀ (a : Nat) (bs : List Byte), MayWrite s m (R.SHROUD_RELEASE q) → cleated s.dev q = true → q.val ∉ [4, 5, 6, 8, 9, 10] →
      s.dev.heldSteps = [.write q a bs] → 0 < bs.length → a % 64 + bs.length ≤ 64 → inL2 a = true → s.dev.l2Ram = true →
      (shroudCheck s.dev q kindWrite a false).1 = true →
      ∃ t, exec (.shroudRelease dt m q) s = .next t ∧ (∀ i, i < bs.length → t.byte (a + i) = bs.getD i 0) ∧ t.dev.heldSteps = []
        ∧ RegsKept [R.SHROUD_CLEAT_LO, R.SHROUD_CLEAT_HI, R.PG_STAT (masterPage q)] s t ∧ MemKeptOutside a bs.length s t) ∧
    (MayWrite s m (R.SHROUD_RELEASE q) → cleated s.dev q = true → q.val ∈ [4, 5, 6] → (∀ x ∈ s.dev.heldSteps, x.master ≠ q.val) →
      s.dev.openSessions = 0 → (∀ n, (s.dev.sess n).held = [] ∧ (s.dev.sess n).todo = []) →
      ∃ t, exec (.shroudRelease dt m q) s = .next t ∧ (∀ j, j < 48 → cleated t.dev j = (cleated s.dev j && decide (j ≠ q.val)))
        ∧ RegsKept [R.SHROUD_CLEAT_LO, R.PG_STAT 0x0D] s t ∧ MemKept s t) ∧
    (MayWrite s m (R.SHROUD_RELEASE q) → cleated s.dev q = true → q.val = 10 → (∀ x ∈ s.dev.heldSteps, x.master ≠ q.val) →
      s.dev.plogReserve = [] → s.dev.plogLost = 0 →
      ∃ t, exec (.shroudRelease dt m q) s = .next t ∧ (∀ j, j < 48 → cleated t.dev j = (cleated s.dev j && decide (j ≠ q.val)))
        ∧ t.dev.get F.PLOG_STAT_FULL = 0 ∧ RegsKept [R.SHROUD_CLEAT_LO, R.PG_STAT 0x12, R.PLOG_STAT] s t ∧ MemKept s t) ∧
    (∀ (r : List Byte), MayWrite s m (R.SHROUD_RELEASE q) → cleated s.dev q = true → q.val = 10 → (∀ x ∈ s.dev.heldSteps, x.master ≠ q.val) →
      s.dev.plogReserve = [r] → r.length = 96 → s.dev.plogLost = 0 → LogReady { s with dev := setCleat 10 false { s.dev with plogReserve := [] } } →
      ∃ t, exec (.shroudRelease dt m q) s = .next t ∧ cleated t.dev 10 = false ∧ t.dev.plogReserve = [] ∧ t.dev.plogHeld = s.dev.plogHeld + 1
        ∧ (∀ i, i < 96 → t.byte (s.dev.get2 F.PLOG_BASE_LO_BASE F.PLOG_BASE_HI_BASE + s.dev.get F.PLOG_HEAD_HEAD * 96 + i) = r.getD i 0)
        ∧ MemKeptOutside (s.dev.get2 F.PLOG_BASE_LO_BASE F.PLOG_BASE_HI_BASE + s.dev.get F.PLOG_HEAD_HEAD * 96) 96 s t) ∧
    (MayWrite s m (R.SHROUD_RELEASE q) → cleated s.dev q = false →
      ∃ t, exec (.shroudRelease dt m q) s = .next t ∧ RegsKept [] s t ∧ MemKept s t) ∧
    (∀ p : Fin 8, MayWrite s m (R.SHROUD_RELEASE q) → cleated s.dev q = true → q.val = 8 →
      (∀ x ∈ s.dev.heldSteps, x.master ≠ q.val) →
      ∃ t, exec (.shroudRelease dt m q) s = .next t ∧ cleated t.dev 8 = false ∧ holdsCause t.dev p causeCleat = false
        ∧ (∀ k, 1 ≤ k → k ≤ 9 → k ≠ causeCleat → holdsCause t.dev p k = holdsCause s.dev p k)) ∧
    (MayWrite s m (R.SHROUD_RELEASE q) → cleated s.dev q = true → q.val < 4 →
      (∀ x ∈ s.dev.heldSteps, x.master ≠ q.val) →
      ∃ t, exec (.shroudReleaseReset dt m q) s = .next t ∧ cleated t.dev q = false ∧ cellGet 0 t.dev.corePc q = 0
        ∧ masterLevel t.dev q = 0
        ∧ (∀ a, 0x1000 * corePage q + 0x40 ≤ a → a < 0x1000 * corePage q + 0x1000 → t.dev.reg a = resetWord a)
        ∧ (∀ a, (a < 0x1000 * corePage q ∨ 0x1000 * corePage q + 0x1000 ≤ a) → a ≠ R.SHROUD_CLEAT_LO → t.dev.reg a = s.dev.reg a)
        ∧ MemKept s t) ∧
    (MayWrite s m (R.SHROUD_RELEASE q) → cleated s.dev q = true → q.val ∈ [7, 9, 11, 12, 13, 14] → pageBound s.dev (masterPage q) = false →
      ∃ t, exec (.shroudReleaseReset dt m q) s = .next t ∧ cleated t.dev q = false
        ∧ (∀ a, 0x1000 * masterPage q + 0x40 ≤ a → a < 0x1000 * masterPage q + 0x800 → t.dev.reg a = resetWord a))

/-- On a ready block: a violation in a cycle after that of a held capture (VALID set) leaves SHROUD_VIO_LO, SHROUD_VIO_HI and
SHROUD_VIO_INFO as they are; a permitted write of 1 to VALID clears it; a violation while VALID is clear captures its
address, master, kind and level and sets VALID; a permitted write of PG_EVT of page 0x54, whatever it clears, leaves every
bit of SHROUD_CLEAT as it is; and a violation after which all four cores are cleated requests a MGMT reset with cause 3,
unless one is waiting already. (R379, R380) -/
def Obligations.ShroudCapture : Prop :=
  ∀ (dt a n v : Nat) (m : Fin 48) (k : Fin 3) (q : Fin 48) (w : Word) (s : State), Ready s →
    (0 < n → a % 64 + n ≤ 64 → a < 2 ^ 40 → issues s.dev m = true →
      (4 ≤ m.val ∨ inDram a = false ∨ s.dev.get F.DRAMC_FCHG_BUSY = 0) → (m.val ≠ 8 ∨ s.dev.planActive = false) →
      (shroudCheck s.dev m k a (k.val == 1 && reachesRwm a n)).1 = false →
      ∃ t, exec (.busTransaction dt m k a n v) s = .next t
        ∧ (s.dev.get F.SHROUD_VIO_INFO_VALID = 1 → s.dev.vioAt / 2 ≠ (s.dev.now + dt) / 2 →
            t.dev.reg R.SHROUD_VIO_LO = s.dev.reg R.SHROUD_VIO_LO
            ∧ t.dev.reg R.SHROUD_VIO_HI = s.dev.reg R.SHROUD_VIO_HI ∧ t.dev.reg R.SHROUD_VIO_INFO = s.dev.reg R.SHROUD_VIO_INFO)
        ∧ (s.dev.get F.SHROUD_VIO_INFO_VALID = 0 → t.dev.get F.SHROUD_VIO_INFO_VALID = 1
            ∧ t.dev.get2 F.SHROUD_VIO_LO_ADDR F.SHROUD_VIO_HI_ADDR = a ∧ t.dev.get F.SHROUD_VIO_INFO_MASTER = m
            ∧ t.dev.get F.SHROUD_VIO_INFO_KIND = k ∧ t.dev.get F.SHROUD_VIO_INFO_LVL = masterLevel s.dev m)
        ∧ t.dev.mgmtReq = (if t.dev.get F.SHROUD_CLEAT_LO_CLEAT % 16 = 15 then some (s.dev.mgmtReq.getD 3) else s.dev.mgmtReq)) ∧
    (MayWrite s q R.SHROUD_VIO_INFO →
      ∃ t, exec (.registerWrite dt q R.SHROUD_VIO_INFO 0x80000000#32) s = .next t ∧ t.dev.get F.SHROUD_VIO_INFO_VALID = 0
        ∧ RegsKept [R.SHROUD_VIO_INFO] s t ∧ MemKept s t) ∧
    (MayWrite s q (R.PG_EVT 0x54) →
      ∃ t, exec (.registerWrite dt q (R.PG_EVT 0x54) w) s = .next t ∧ t.dev.reg R.SHROUD_CLEAT_LO = s.dev.reg R.SHROUD_CLEAT_LO
        ∧ t.dev.reg R.SHROUD_CLEAT_HI = s.dev.reg R.SHROUD_CLEAT_HI)

/-- On a ready block: a calibration of the ADC bank, periodic (ADC_CAL_S not 0) or commanded, marks all 16 channels,
TRIM_STALE.ADC and PG_STAT.STALE; with ADC_CAL_S at 0 the periodic one does nothing, and a command during a calibration is
refused; its end lets TRIM_STALE.ADC clear once no enabled channel is stale; a junction sensor, in turn, and the supply
converters, are stale from the start of theirs to their fresh values, which their end takes in. A window of at least 600
ns replaces the one entry of the port's next tap where the step is from 39.5 to 48 ps and the last tap reaches 10.05 ns,
and goes on to the next tap; otherwise the entry is kept, and a fourth reject in a row sets FAULT, raises the event and
goes on; a short window does nothing. A swap of converter pairs within SWAP_LIM changes the serving pair and adds the
differences to the incoming pair's corrections; beyond it is refused and counted. The frame of each is stated. (R298,
R384, R386, R387, R388) -/
def Obligations.Calibrations : Prop :=
  ∀ (dt tau v : Nat) (h : Fin 32) (e : Fin 2) (ms mc : Int) (mv : List Nat) (t0 q : Nat) (s : State), Ready s →
    t0 = cellGet 1 s.dev.trim.tapNext h → q = 1 - s.dev.get (if e.val = 0 then F.TRIM_ENC_STAT_PAIR0 else F.TRIM_ENC_STAT_PAIR1) →
    (∀ c : Instr, s.dev.mot.adcCal = false →
      (c = .adcBankCal dt ∧ s.dev.get F.TRIM_CFG_ADC_CAL_S ≠ 0 ∨ c = .adcCalCmd dt) →
      ∃ t, exec c s = .next t ∧ t.dev.mot.adcCal = true ∧ (∀ i, i < 16 → t.dev.get (F.ADC_DATA_STALE i) = 1
          ∧ t.dev.get (F.ADC_DATA_VALUE i) = s.dev.get (F.ADC_DATA_VALUE i))
        ∧ t.dev.get F.TRIM_STALE_ADC = 1 ∧ t.dev.get (F.PG_STAT_STALE 0x5B) = 1
        ∧ RegsKept ([R.TRIM_STALE, R.PG_STAT 0x5B] ++ (List.range 16).map R.ADC_DATA) s t ∧ MemKept s t) ∧
    (s.dev.get F.TRIM_CFG_ADC_CAL_S = 0 →
      ∃ t, exec (.adcBankCal dt) s = .next t ∧ t.dev.mot = s.dev.mot ∧ RegsKept [] s t ∧ MemKept s t) ∧
    (s.dev.mot.adcCal = true → s.dev.get (F.PG_FAULT_VALID 0x5B) = 0 →
      ∃ t, exec (.adcCalCmd dt) s = .next t ∧ t.dev.mot = s.dev.mot ∧ t.dev.get (F.PG_FAULT_CODE 0x5B) = 0x01
        ∧ RegsKept (faultRegs 0x5B) s t ∧ MemKept s t) ∧
    (∃ t, exec (.adcBankCalDone dt) s = .next t ∧ t.dev.mot.adcCal = false
      ∧ t.dev.get F.TRIM_STALE_ADC = (if (bitsOf 16 (s.dev.get F.ADC_EN_EN)).all (fun i => s.dev.get (F.ADC_DATA_STALE i) == 0) then 0
          else s.dev.get F.TRIM_STALE_ADC)
      ∧ RegsKept [R.TRIM_STALE, R.PG_STAT 0x5B] s t ∧ MemKept s t) ∧
    (s.dev.trim.tjCal = none → s.dev.trim.tjNext < 8 →
      ∃ t, exec (.tjSensorCal dt) s = .next t ∧ t.dev.trim.tjCal = some s.dev.trim.tjNext
        ∧ t.dev.trim.tjNext = (s.dev.trim.tjNext + 1) % 8 ∧ t.dev.get (F.TRIM_TJ_STALE s.dev.trim.tjNext) = 1
        ∧ t.dev.get (F.TRIM_TJ_TJ s.dev.trim.tjNext) = s.dev.get (F.TRIM_TJ_TJ s.dev.trim.tjNext) ∧ t.dev.get F.TRIM_STALE_TJ = 1
        ∧ RegsKept [R.TRIM_TJ s.dev.trim.tjNext, R.TRIM_STALE, R.PG_STAT 0x5B] s t ∧ MemKept s t) ∧
    (∀ i, s.dev.trim.tjCal = some i → i < 8 →
      ∃ t, exec (.tjSensorCalDone dt v) s = .next t ∧ t.dev.trim.tjCal = none ∧ t.dev.get (F.TRIM_TJ_TJ i) = v % 4096
        ∧ t.dev.get (F.TRIM_TJ_STALE i) = 0 ∧ t.dev.get F.TRIM_STALE_TJ = 0
        ∧ RegsKept [R.TRIM_TJ i, R.TRIM_STALE, R.PG_STAT 0x5B] s t ∧ MemKept s t) ∧
    (∃ t, exec (.supplyConvCal dt) s = .next t ∧ t.dev.get F.TRIM_STALE_SUPPLY = 1 ∧ t.dev.get (F.PG_STAT_STALE 0x5B) = 1
      ∧ RegsKept [R.TRIM_STALE, R.PG_STAT 0x5B] s t ∧ MemKept s t) ∧
    (s.dev.get F.TRIM_STALE_SUPPLY = 1 →
      ∃ t, exec (.supplyConvCalDone dt mv) s = .next t ∧ t.dev.get F.TRIM_STALE_SUPPLY = 0
        ∧ (∀ i, i < 10 → i < mv.length → t.dev.get (F.SUPV_V_MV i) = mv.getD i 0 % 65536)
        ∧ RegsKept ([R.TRIM_STALE, R.PG_STAT 0x5B] ++ (List.range 10).map R.SUPV_V) s t ∧ MemKept s t) ∧
    (s.dev.get F.TRIM_CFG_TAPCAL_EN = 1 → 600 ≤ tapWindow (s.dev.elapse dt) h →
      cellGet 0 s.dev.trim.tapBeat h ≠ (s.dev.elapse dt).beatNum + 1 →
      (79 ≤ 2 * ((tau : Int) - tauOf s.dev h (t0 - 1)) → (tau : Int) - tauOf s.dev h (t0 - 1) ≤ 48 → (t0 = 255 → 10050 ≤ tau) →
        0 < t0 → t0 < 256 →
        ∃ t, exec (.tapcalWindow dt h tau) s = .next t ∧ tauOf t.dev h t0 = tau
          ∧ (∀ k, k < 256 → k ≠ t0 → tauOf t.dev h k = tauOf s.dev h k)
          ∧ cellGet 1 t.dev.trim.tapNext h = (if t0 = 255 then 1 else t0 + 1) ∧ cellGet 0 t.dev.trim.tapRejects h = 0
          ∧ RegsKept [R.HP_STAT h] s t ∧ MemKept s t) ∧
      ((2 * ((tau : Int) - tauOf s.dev h (t0 - 1)) < 79 ∨ 48 < (tau : Int) - tauOf s.dev h (t0 - 1) ∨ (t0 = 255 ∧ tau < 10050)) →
        cellGet 0 s.dev.trim.tapRejects h < 3 →
        ∃ t, exec (.tapcalWindow dt h tau) s = .next t ∧ t.dev.taus = s.dev.taus ∧ cellGet 1 t.dev.trim.tapNext h = t0
          ∧ cellGet 0 t.dev.trim.tapRejects h = cellGet 0 s.dev.trim.tapRejects h + 1 ∧ RegsKept [] s t ∧ MemKept s t) ∧
      ((2 * ((tau : Int) - tauOf s.dev h (t0 - 1)) < 79 ∨ 48 < (tau : Int) - tauOf s.dev h (t0 - 1) ∨ (t0 = 255 ∧ tau < 10050)) →
        cellGet 0 s.dev.trim.tapRejects h = 3 →
        ∃ t, exec (.tapcalWindow dt h tau) s = .next t ∧ t.dev.taus = s.dev.taus ∧ cellGet 1 t.dev.trim.tapNext h = t0 % 255 + 1
          ∧ bit (t.dev.get F.TRIM_TAPCAL_FAULT) h = true ∧ EventSet t (hpPage h) 9
          ∧ RegsKept (R.TRIM_TAPCAL :: eventRegs (hpPage h)) s t ∧ MemKept s t)) ∧
    (tapWindow (s.dev.elapse dt) h < 600 →
      ∃ t, exec (.tapcalWindow dt h tau) s = .next t ∧ t.dev.taus = s.dev.taus ∧ t.dev.trim = s.dev.trim ∧ RegsKept [] s t ∧ MemKept s t) ∧
    (ms.natAbs ≤ 16 * s.dev.get F.TRIM_ENC_CFG_SWAP_LIM → mc.natAbs ≤ 16 * s.dev.get F.TRIM_ENC_CFG_SWAP_LIM →
      ∃ t, exec (.encPairSwap dt e ms mc) s = .next t
        ∧ t.dev.get (if e.val = 0 then F.TRIM_ENC_STAT_PAIR0 else F.TRIM_ENC_STAT_PAIR1) = q
        ∧ cellGet 0 t.dev.trim.pairCorr (4 * e + 2 * q) = cellGet 0 s.dev.trim.pairCorr (4 * e + 2 * q) + ms
        ∧ cellGet 0 t.dev.trim.pairCorr (4 * e + 2 * q + 1) = cellGet 0 s.dev.trim.pairCorr (4 * e + 2 * q + 1) + mc
        ∧ t.dev.get F.TRIM_ENC_STAT_REFUSED = s.dev.get F.TRIM_ENC_STAT_REFUSED
        ∧ RegsKept [R.TRIM_ENC_STAT] s t ∧ MemKept s t) ∧
    ((16 * s.dev.get F.TRIM_ENC_CFG_SWAP_LIM < ms.natAbs ∨ 16 * s.dev.get F.TRIM_ENC_CFG_SWAP_LIM < mc.natAbs) →
      ∃ t, exec (.encPairSwap dt e ms mc) s = .next t ∧ t.dev.trim = s.dev.trim
        ∧ t.dev.get F.TRIM_ENC_STAT_PAIR0 = s.dev.get F.TRIM_ENC_STAT_PAIR0 ∧ t.dev.get F.TRIM_ENC_STAT_PAIR1 = s.dev.get F.TRIM_ENC_STAT_PAIR1
        ∧ t.dev.get F.TRIM_ENC_STAT_REFUSED = min (s.dev.get F.TRIM_ENC_STAT_REFUSED + 1) 0xFFFF ∧ EventSet t 0x5B 8
        ∧ RegsKept (R.TRIM_ENC_STAT :: eventRegs 0x5B) s t ∧ MemKept s t)

/-- On a ready block: SNAP sets BUSY and starts a copy, and is refused while one runs; RESTORE, with no plan active, no axis
moving and all of the image readable, sets BUSY and loads the 131,072 wear counters and the eight step counts from the
image; the end of a snapshot stores exactly the image it took, the end of a restore stores nothing, and both clear BUSY.
An evaluation takes in the 24 monitor readings; an unrated axis reads L and L90 as 0xFFFFFFFF, a rated one counts its
steps and reads 0 once worn out, and its early-warning bit is set when L90 is below the limit and stays as it was
otherwise. A powered second adds the weight of its band to the integrator. A reef episode sets its bit, counts and raises;
its hold, with no plan active, sets HOLD_EXC, counts, raises and is logged; a recovery within the hold is logged, clears
the bit and cause 8. The frame of each is stated. (R392, R393, R394, R395, R404, R405, R406) -/
def Obligations.WearAndReef : Prop :=
  ∀ (dt : Nat) (ds : List Nat) (a : Fin 8) (r : Fin 2) (s : State), Ready s →
    (s.dev.get F.WEAR_STAT_BUSY = 0 →
      ∃ t, exec (.wearSnap dt) s = .next t ∧ t.dev.get F.WEAR_STAT_BUSY = 1 ∧ t.dev.trim.copy = some { restore := false }
        ∧ RegsKept [R.WEAR_STAT] s t ∧ MemKept s t) ∧
    (s.dev.get F.WEAR_STAT_BUSY = 1 → s.dev.get (F.PG_FAULT_VALID 0x5C) = 0 →
      ∃ t, exec (.wearSnap dt) s = .next t ∧ t.dev.trim.copy = s.dev.trim.copy ∧ t.dev.get (F.PG_FAULT_CODE 0x5C) = 0x01
        ∧ RegsKept (faultRegs 0x5C) s t ∧ MemKept s t) ∧
    (s.dev.planActive = false → anyAxisMoving s.dev = false → s.dev.get F.WEAR_STAT_BUSY = 0 →
      (∀ i, i < 16385 → dramServes s.dev (wearBase s.dev + 64 * i) = true ∧ dramPoisoned s.dev (wearBase s.dev + 64 * i) 64 = false) →
      ∃ t, exec (.wearRestore dt) s = .next t ∧ t.dev.get F.WEAR_STAT_BUSY = 1
        ∧ (∀ k, k < 131072 → cellGet 0 t.dev.wear k
            = leNat ((List.range 8).map (fun j => s.byte (wearBase s.dev + 8 * k + j))) % 2 ^ 48)
        ∧ (∀ k, k < 8 → stepsOf t.dev k
            = leNat ((List.range 8).map (fun j => s.byte (wearBase s.dev + 8 * (131072 + k) + j))) % 2 ^ 48)
        ∧ RegsKept ([R.WEAR_STAT] ++ (List.range 8).map R.STP_STEPS_LO ++ (List.range 8).map R.STP_STEPS_HI ++ memRegs) s t
        ∧ MemKept s t) ∧
    (∀ c, s.dev.trim.copy = some c → c.taken = true → c.restore = true →
      ∃ t, exec (.wearCopyDone dt) s = .next t ∧ t.dev.get F.WEAR_STAT_BUSY = 0 ∧ t.dev.trim.copy = none
        ∧ RegsKept [R.WEAR_STAT] s t ∧ MemKept s t) ∧
    (∀ c, s.dev.trim.copy = some c → c.taken = true → c.restore = false →
      (∀ i, i < 16385 → dramServes s.dev (wearBase s.dev + 64 * i) = true) → wearBase s.dev % 64 = 0 →
      ∃ t, exec (.wearCopyDone dt) s = .next t ∧ t.dev.get F.WEAR_STAT_BUSY = 0 ∧ t.dev.trim.copy = none
        ∧ (∀ k j, k < 131080 → j < 8 → t.byte (wearBase s.dev + 8 * k + j)
            = BitVec.ofNat 8 ((if k < 131072 then cellGet 0 c.wear k else c.steps.getD (k - 131072) 0) / 2 ^ (8 * j)))
        ∧ RegsKept (R.WEAR_STAT :: memRegs) s t ∧ MemKeptOutside (wearBase s.dev) (64 * 16385) s t) ∧
    (∃ t, exec (.wearEvaluation dt ds) s = .next t ∧ t.dev.trim.inService = false
      ∧ (∀ i, i < 24 → i < ds.length → t.dev.get (F.WEAR_AGE_D i) = ds.getD i 0 % 65536)
      ∧ (s.dev.get (F.WEAR_ARATED_RATED a) = 0 → (indicator t.dev (32 + a)).l = 0xFFFFFFFF ∧ (indicator t.dev (32 + a)).l90 = 0xFFFFFFFF
          ∧ bit (t.dev.get F.WEAR_EW_HI_EW) a = bit (s.dev.get F.WEAR_EW_HI_EW) a)
      ∧ (s.dev.get (F.WEAR_ARATED_RATED a) ≠ 0 → (indicator t.dev (32 + a)).c = stepsOf s.dev a
          ∧ (s.dev.get (F.WEAR_ARATED_RATED a) * 65536 ≤ stepsOf s.dev a → (indicator t.dev (32 + a)).l = 0 ∧ (indicator t.dev (32 + a)).l90 = 0)
          ∧ bit (t.dev.get F.WEAR_EW_HI_EW) a = (bit (s.dev.get F.WEAR_EW_HI_EW) a
              || decide ((indicator t.dev (32 + a)).l90 < s.dev.get F.WEAR_WARN_HOURS)))
      ∧ RegsKept ([R.WEAR_EW_LO, R.WEAR_EW_HI] ++ (List.range 24).map R.WEAR_AGE ++ eventRegs 0x5C) s t ∧ MemKept s t) ∧
    (∃ t, exec (.ageingTick dt) s = .next t
      ∧ t.dev.get2 F.WEAR_TEQ_LO_TEQ F.WEAR_TEQ_HI_TEQ
          = (s.dev.get2 F.WEAR_TEQ_LO_TEQ F.WEAR_TEQ_HI_TEQ + ageWeight (thetaJ s.dev)) % 2 ^ 48
      ∧ RegsKept [R.WEAR_TEQ_LO, R.WEAR_TEQ_HI] s t ∧ MemKept s t) ∧
    (s.dev.reefOf r = none →
      ∃ t, exec (.reefEnter dt r) s = .next t ∧ t.dev.get (reefField r) = 1
        ∧ t.dev.reefOf r = some { since := s.dev.now + dt, beat := (s.dev.elapse dt).beatNum, held := false }
        ∧ t.dev.get F.SUPV_CNT_REEFS = min (s.dev.get F.SUPV_CNT_REEFS + 1) 0xFFFF ∧ EventSet t 0x5D 8
        ∧ RegsKept ([R.SUPV_STAT, R.SUPV_CNT, R.CNT_EVT_DROP] ++ eventRegs 0x5D) s t ∧ MemKept s t) ∧
    (∀ e, s.dev.reefOf r = some e → e.held = false → e.since + holdTime s.dev ≤ s.dev.now + dt → s.dev.planActive = false → LogReady s →
      ∃ t, exec (.reefHoldExceeded dt r) s = .next t ∧ t.dev.get F.SUPV_STAT_HOLD_EXC = 1
        ∧ t.dev.reefOf r = some { e with held := true } ∧ t.dev.get F.SUPV_CNT_HOLDS = min (s.dev.get F.SUPV_CNT_HOLDS + 1) 0xFFFF
        ∧ EventSet t 0x5D 9 ∧ t.dev.plogHeld = s.dev.plogHeld + 1
        ∧ RegsKept ([R.SUPV_STAT, R.SUPV_CNT] ++ eventRegs 0x5D ++ logRegs) s t
        ∧ MemKeptOutside (s.dev.get2 F.PLOG_BASE_LO_BASE F.PLOG_BASE_HI_BASE + s.dev.get F.PLOG_HEAD_HEAD * 96) 96 s t) ∧
    (∀ e, s.dev.reef = [(r.val, some e)] → e.held = false → s.dev.now + dt ≤ e.since + holdTime s.dev → LogReady s →
      ∃ t, exec (.reefRecover dt r) s = .next t ∧ t.dev.get (reefField r) = 0 ∧ t.dev.reefOf r = none
        ∧ t.dev.get F.SUPV_STAT_HOLD_EXC = s.dev.get F.SUPV_STAT_HOLD_EXC ∧ t.dev.plogHeld = s.dev.plogHeld + 1
        ∧ (∀ p, p < 8 → holdsCause t.dev p causeReef = false)
        ∧ RegsKept ([R.SUPV_STAT] ++ (List.range 8).map R.STORE_SEAM_STAT ++ logRegs) s t
        ∧ MemKeptOutside (s.dev.get2 F.PLOG_BASE_LO_BASE F.PLOG_BASE_HI_BASE + s.dev.get F.PLOG_HEAD_HEAD * 96) 96 s t)

/-- RESET_PIN, a permitted SYS_SOFT_RESET and RAIL_RESET of a ready block, and POR_RELEASE of one whose core rails have risen
again, in power-on reset or with VBAT kept, are SYS resets (SysResetTo): every register but those of the standby island
and what BOOT_STAT shows of the fuses returns to its reset value, DRAM and L2 lose their contents, the fuses stay, the
cause bit is set, the others stay, and COUNT grows; RAIL_RESET leaves the block held in reset until SYS_RESET_RELEASE. A
wake latch that was set rings its source, 80 to 87, once the block runs. VBAT_POR resets the island too, with VBAT_POR the
only cause, and leaves the block in power-on reset. A permitted BLOCK_RESET of a page that is listed, not protected and
not bound returns the page's registers, live and shadow, to their reset values and, for a page of the list in the
statement, changes no other page but SYS_BRST and the page's event source; of any other page it is refused. VBAT_POR is
allowed in any power phase. (R402, R407, R408, R409, R410, R439) -/
def Obligations.Resets : Prop :=
  ∀ (dt : Nat) (m : Fin 48) (r : Fin 2) (page : Fin 256) (s : State),
    (Ready s →
      (∃ t, exec (.resetPin dt) s = .next t ∧ t.dev.power = (if s.dev.sysHold then .sysHeld else .run) ∧ SysResetTo s t causePin) ∧
      (MayWrite s m R.SYS_CTL →
        ∃ t, exec (.sysSoftReset dt m) s = .next t ∧ t.dev.power = (if s.dev.sysHold then .sysHeld else .run) ∧ SysResetTo s t causeSoft) ∧
      (∃ t, exec (.railReset dt r) s = .next t ∧ t.dev.power = .sysHeld
        ∧ SysResetTo s t (if r.val = 0 then causeCoreUv else causeIo33Uv)) ∧
      (MayWrite s m R.SYS_BRST → pageListed page = true → resetProtected page = false → pageBound s.dev page = false →
        page.val ∈ [0x04, 0x05, 0x06, 0x09, 0x0E, 0x10, 0x11, 0x12, 0x14, 0x43, 0x44, 0x45, 0x46, 0x48, 0x49, 0x4A, 0x4B, 0x4C, 0x50, 0x51,
          0x52, 0x53] →
        ∃ t, exec (.blockReset dt m page) s = .next t
          ∧ (∀ x, 0x40 ≤ x → x < 0x1000 → t.dev.reg (0x1000 * page + x) = resetWord (0x1000 * page + x))
          ∧ t.dev.get (F.PG_CTL_EN page) = 0 ∧ t.dev.get (F.PG_COMMIT_STAT_STATUS page) = 0 ∧ t.dev.get F.SYS_BRST_PAGE = page
          ∧ (∀ a, a / 0x1000 ≠ page.val → a ∉ R.SYS_BRST :: eventRegs page → t.dev.reg a = s.dev.reg a)
          ∧ (page.val ≠ 0x50 → MemKept s t) ∧ (page.val = 0x50 → t.dev.dram = [])) ∧
      (MayWrite s m R.SYS_BRST → (pageListed page = false ∨ resetProtected page = true ∨ pageBound s.dev page = true) →
        s.dev.get (F.PG_FAULT_VALID 0) = 0 →
        ∃ t, exec (.blockReset dt m page) s = .next t ∧ t.dev.get (F.PG_FAULT_CODE 0) = 0x01
          ∧ RegsKept (faultRegs 0) s t ∧ MemKept s t)) ∧
    (Settled s → s.dev.power ≠ .standby →
      ∃ t, exec (.porRelease dt) s = .next t ∧ t.dev.power = .run ∧ SysResetTo s t causePor) ∧
    (Settled s → s.dev.power = .sysHeld →
      ∃ t, exec (.sysResetRelease dt) s = .next t ∧ t.dev.power = .run ∧ t.dev.resetAt = s.dev.now + dt ∧ t.dev.wakeLatch = 0
        ∧ (∀ i, i < 8 → bit s.dev.wakeLatch i = true → t.dev.sharedPending (80 + i) = true)
        ∧ RegsKept (R.EVT_PEND 2 :: eventRegs 0) s t ∧ MemKept s t) ∧
    (Settled s →
      ∃ t, exec (.vbatPor dt) s = .next t ∧ t.dev.power = .por ∧ t.dev.pwrEn = true
        ∧ (∀ a, a ≠ R.PWR_RST_CAUSE → t.dev.reg a = resetWord a) ∧ t.dev.reg R.PWR_RST_CAUSE = 1 ∧ t.dev.dram = [] ∧ t.dev.l2 = []
        ∧ t.fuses = s.fuses)

/-- On a ready block: while a plan is active, a write that clears a bit of group FSTB, HEADCUT or PROCESS is not performed and
captures REFUSED in PG_FAULT; any other write sets PWR_OE to bits [8:0] of the value, and every group whose bit changed
begins or ceases to be driven. A MGMT reset leaves every register of page 0x01 as it is. A permitted reset of a block,
while no session holds a message that could itself write a register, leaves PWR_OE as it is, and the outputs of blocks
0x09, 0x13, 0x46, 0x4A, 0x4B, 0x4C and of the heads at their reset level, 0. (R412) -/
def Obligations.OutputEnables : Prop :=
  ∀ (dt : Nat) (v : Word) (m : Fin 48) (page : Fin 256) (g : Fin 9) (s : State), Ready s →
    (s.dev.planActive = true → (∃ k, k < 3 ∧ bit (s.dev.reg R.PWR_OE).toNat k = true ∧ bit v.toNat k = false) →
      s.dev.get (F.PG_FAULT_VALID 1) = 0 →
      ∃ t, exec (.pwrOeWrite dt v) s = .next t ∧ t.dev.reg R.PWR_OE = s.dev.reg R.PWR_OE ∧ t.dev.get (F.PG_FAULT_CODE 1) = 0x01
        ∧ t.dev.get (F.PG_FAULT_VALID 1) = 1 ∧ Silent s t ∧ RegsKept (faultRegs 1) s t ∧ MemKept s t) ∧
    ((s.dev.planActive = false ∨ ∀ k, k < 3 → bit (s.dev.reg R.PWR_OE).toNat k = true → bit v.toNat k = true) →
      ∃ t, exec (.pwrOeWrite dt v) s = .next t ∧ (t.dev.reg R.PWR_OE).toNat = v.toNat % 512
        ∧ (bit (s.dev.reg R.PWR_OE).toNat g ≠ bit v.toNat g → .group g (b2n (bit v.toNat g)) ∈ t.wire)
        ∧ RegsKept [R.PWR_OE, R.GPIO_IN] s t ∧ MemKept s t) ∧
    (s.dev.mgmtReq.isSome = true →
      ∃ t, exec (.mgmtResetApply dt) s = .next t ∧ ∀ a, a / 0x1000 = 1 → t.dev.reg a = s.dev.reg a) ∧
    (MayWrite s m R.SYS_BRST → pageListed page = true → resetProtected page = false → pageBound s.dev page = false →
      (∀ n, (s.dev.sess n).todo = [] ∧ (s.dev.sess n).waiting = [] ∧ (s.dev.sess n).held = []) →
      ∃ t, exec (.blockReset dt m page) s = .next t ∧ t.dev.reg R.PWR_OE = s.dev.reg R.PWR_OE
        ∧ (∀ e ∈ [(0x09, OutPin.tpulse, 8), (0x13, .rejectMark, 1), (0x46, .strb, 4), (0x4A, .pwm, 24), (0x4B, .step, 8), (0x4B, .dir, 8),
            (0x4B, .ena, 8), (0x4B, .isel, 8), (0x4C, .gpio, 16)], page.val = e.1 → ∀ i, i < e.2.2 → t.dev.pinLevel e.2.1 i = 0)
        ∧ (∀ h, h < 32 → page.val = hpPage h → t.dev.pinLevel .headCutN h = 0))

/-- On a ready block: a loss of the reference, with no head, stay or Ethernet link beyond lane lock, sets REF_LOST, counts and
raises, and every lane that runs loses lock; the up links of head ports that carry no plane go down with it, with cause 1,
each cutting its port with cause 2 (an up stay link or Ethernet port: LinkBringUp and PortLinksAndHealth); a restored one
clears REF_LOST. A PLL that loses lock while REFIN is valid clears its LOCK, counts and raises, locks again when it does,
and after 100 us without lock causes a SYS reset with cause CLK. CLK_MZ takes 0 to 2 and refuses 3. SLEEP releases every
output group, and is refused under a plan, while an axis moves and while a change of DRAM rate runs; 100 us later PWR_EN
falls and the block is in standby, with STANDBY set in PWR_RST_CAUSE; the wake timer, enabled, ends it: TMR is set and
PWR_EN driven high. (R400, R401, R411, R415) -/
def Obligations.ClocksAndStandby : Prop :=
  ∀ (dt : Nat) (p : Fin 4) (v : Word) (t0 : Nat) (s : State),
    (Ready s →
      (s.dev.get F.CLK_STAT_REF_LOST = 0 → (∀ q, q < 2 → s.dev.get (F.ETH_LINK_LINK_UP q) = 0) →
        (∀ i, i < 34 → (s.dev.link i).up = false ∧ linkStage s.dev i ≤ 1) →
        ∃ t, exec (.refLoss dt) s = .next t ∧ t.dev.get F.CLK_STAT_REF_LOST = 1
          ∧ t.dev.get F.CLK_CNT_REF_LOSS = min (s.dev.get F.CLK_CNT_REF_LOSS + 1) 0xFFFF ∧ EventSet t 2 8
          ∧ (∀ i l, i < 34 → l < rxLanes i → lanesOn s.dev i = true → bit (t.dev.link i).locks l = false)
          ∧ (∀ q, q < 2 → t.dev.get (F.ETH_LINK_BLOCK_LOCK q) = 0)
          ∧ RegsKept ([R.CLK_STAT, R.CLK_CNT, R.ETH_LINK 0, R.ETH_LINK 1, R.PATH_STAT] ++ eventRegs 2) s t ∧ MemKept s t) ∧
      (∀ hs : List Nat, s.dev.get F.CLK_STAT_REF_LOST = 0 → (∀ q, q < 2 → s.dev.get (F.ETH_LINK_LINK_UP q) = 0) →
        (∀ h ∈ hs, h < 32 ∧ lanesOn s.dev h = true ∧ (s.dev.link h).up = true ∧ PortFree s dt h) →
        (∀ i, i < 34 → i ∉ hs → (s.dev.link i).up = false ∧ linkStage s.dev i ≤ 1) →
        ∃ t, exec (.refLoss dt) s = .next t ∧ t.dev.get F.CLK_STAT_REF_LOST = 1 ∧ EventSet t 2 8
          ∧ (∀ h ∈ hs, t.dev.get (F.HPL_STAT_DOWN_CAUSE h) = 1 ∧ t.dev.get (F.HPL_CNT_DOWN h) = min (s.dev.get (F.HPL_CNT_DOWN h) + 1) 0xFFFF
              ∧ (t.dev.link h).up = false ∧ bit (t.dev.link h).locks 0 = false ∧ EventSet t (hpPage h) 10 ∧ t.dev.get (F.HP_STAT_CUT h) = 1
              ∧ (s.dev.get (F.HP_STAT_CUT h) = 0 → t.dev.get (F.HP_STAT_CUT_CAUSE h) = 2 ∧ t.dev.pinLevel .headCutN h = 0))
          ∧ RegsKept ([R.CLK_STAT, R.CLK_CNT, R.ETH_LINK 0, R.ETH_LINK 1, R.PATH_STAT] ++ eventRegs 2
              ++ hs.flatMap (fun h => [R.HPL_STAT h, R.HPL_CNT h, R.HPL_MBX_CTL h, R.HP_STAT h] ++ eventRegs (hpPage h))) s t ∧ MemKept s t) ∧
      (∃ t, exec (.refRestore dt) s = .next t ∧ t.dev.get F.CLK_STAT_REF_LOST = 0 ∧ RegsKept [R.CLK_STAT] s t ∧ MemKept s t) ∧
      (s.dev.get F.CLK_STAT_REF_LOST = 0 → s.dev.get (lockField p) = 1 →
        ∃ t, exec (.pllUnlock dt p false) s = .next t ∧ t.dev.get (lockField p) = 0
          ∧ t.dev.get F.CLK_CNT_UNLOCK = min (s.dev.get F.CLK_CNT_UNLOCK + 1) 0xFFFF ∧ EventSet t 2 9
          ∧ cellGet none t.dev.pllLostAt p = some (s.dev.now + dt)
          ∧ RegsKept ([R.CLK_STAT, R.CLK_CNT] ++ eventRegs 2) s t ∧ MemKept s t) ∧
      (cellGet none s.dev.pllLostAt p = some t0 →
        (∃ t, exec (.pllUnlock dt p true) s = .next t ∧ t.dev.get (lockField p) = 1 ∧ cellGet none t.dev.pllLostAt p = none
          ∧ RegsKept [R.CLK_STAT] s t ∧ MemKept s t) ∧
        (t0 + 100000 ≤ s.dev.now + dt → ∃ t, exec (.pllRelockTimeout dt p) s = .next t ∧ SysResetTo s t causeClk)) ∧
      (v.toNat % 4 ≠ 3 →
        ∃ t, exec (.clkMzWrite dt v) s = .next t ∧ t.dev.get F.CLK_MZ_SEL = v.toNat % 4 ∧ RegsKept [R.CLK_MZ] s t ∧ MemKept s t) ∧
      (v.toNat % 4 = 3 → s.dev.get (F.PG_FAULT_VALID 2) = 0 →
        ∃ t, exec (.clkMzWrite dt v) s = .next t ∧ t.dev.get (F.PG_FAULT_CODE 2) = 0x01 ∧ RegsKept (faultRegs 2) s t ∧ MemKept s t) ∧
      (s.dev.planActive = false → anyAxisMoving s.dev = false → s.dev.get F.DRAMC_FCHG_BUSY = 0 → s.dev.sleepAt = none →
        ∃ t, exec (.standbyEnter dt) s = .next t ∧ t.dev.reg R.PWR_OE = 0 ∧ t.dev.sleepAt = some (s.dev.now + dt)
          ∧ (∀ g, g < 9 → bit (s.dev.reg R.PWR_OE).toNat g = true → .group g 0 ∈ t.wire) ∧ RegsKept [R.PWR_OE] s t ∧ MemKept s t) ∧
      ((s.dev.planActive = true ∨ anyAxisMoving s.dev = true ∨ s.dev.get F.DRAMC_FCHG_BUSY = 1) → s.dev.get (F.PG_FAULT_VALID 1) = 0 →
        ∃ t, exec (.standbyEnter dt) s = .next t ∧ t.dev.sleepAt = s.dev.sleepAt ∧ t.dev.get (F.PG_FAULT_CODE 1) = 0x01
          ∧ RegsKept (faultRegs 1) s t ∧ MemKept s t) ∧
      (s.dev.sleepAt = some t0 → t0 + 100000 ≤ s.dev.now + dt →
        ∃ t, exec (.pwrEnLow dt) s = .next t ∧ t.dev.power = .standby ∧ t.dev.pwrEn = false ∧ t.dev.get F.PWR_RST_CAUSE_STANDBY = 1
          ∧ t.wire = .pwrEn 0 :: s.wire ∧ RegsKept [R.PWR_RST_CAUSE] s t ∧ MemKept s t)) ∧
    (Settled s → s.dev.power = .standby → s.dev.get F.PWR_WAKE_CFG_TMR_EN = 1 →
      s.dev.get F.PWR_WAKE_TMR_TICKS * 1000000000 ≤ (s.dev.now + dt - s.dev.standbyAt) * 32768 →
      ∃ t, exec (.wakeTimerExpiry dt) s = .next t ∧ t.dev.power = .por ∧ t.dev.pwrEn = true ∧ t.dev.get F.PWR_WAKE_STAT_TMR = 1
        ∧ t.wire = .pwrEn 1 :: s.wire ∧ RegsKept [R.PWR_WAKE_STAT] s t ∧ MemKept s t)

/-- On a ready block whose ROM has neither jumped nor halted, with the boot loader master free and Shroud's checks off:
BOOT_JUMP records what the check of R419 made of both slots, clears BOOT_TRY.EN, and either halts with memory as it was,
when no slot is valid, or loads the payload of the slot chosen to the start of L2, byte for byte, and core 0 goes on at
its entry. The watchdog causes a SYS reset when 1 s passed without a jump. A permitted rollback advance to a TARGET above
the counter and not above the running image's ROLLBACK burns fuses until the counter equals TARGET; to any other TARGET it
is refused and burns none. A permitted BOOT_VERIFY sets BUSY and clears VALID; its end, where the image can be read, sets
RESULT to what the check gives and VALID exactly where that is OK. (R417, R418, R419, R420, R421) -/
def Obligations.Boot : Prop :=
  ∀ (dt : Nat) (a b : List Byte) (m : Fin 48) (target : Fin 128) (ra rb : Nat) (sl : Option Nat) (w n : Nat) (hd img : List Byte) (s : State),
    Ready s →
    (s.dev.booted = false → s.dev.bootHalted = false → s.dev.mgmtReq = none → cleated s.dev 17 = false → s.dev.get F.SHROUD_CFG_EN = 0 →
      ra = imageCheck (s.dev.get F.BOOT_STAT_RBK) a → rb = imageCheck (s.dev.get F.BOOT_STAT_RBK) b →
      sl = bootSlot (if s.dev.get F.BOOT_TRY_EN = 1 then some (s.dev.get F.BOOT_TRY_SLOT) else none) a b (ra == bootOk) (rb == bootOk) →
      ∃ t, exec (.bootJump dt a b) s = .next t ∧ t.dev.get F.BOOT_STAT_RES_A = ra ∧ t.dev.get F.BOOT_STAT_RES_B = rb
        ∧ t.dev.get F.BOOT_STAT_TRIED = s.dev.get F.BOOT_TRY_EN ∧ t.dev.get F.BOOT_TRY_EN = 0
        ∧ (sl = none → t.dev.bootHalted = true ∧ t.dev.booted = false ∧ t.dev.corePc = s.dev.corePc ∧ MemKept s t)
        ∧ (∀ k img, sl = some k → img = (if k = 0 then a else b) →
            t.dev.booted = true ∧ t.dev.l2Ram = true ∧ cellGet 0 t.dev.corePc 0 = 0x20000000 + imgEntry img
            ∧ t.dev.runRollback = imgRollback img ∧ t.dev.get F.BOOT_STAT_SLOT = k % 2 ∧ t.dev.get F.BOOT_STAT_WARM = 0
            ∧ t.dev.get F.BOOT_VER_VERSION = imgVersion img
            ∧ (∀ i, i < imgLength img → t.byte (0x20000000 + i) = img.getD (512 + i) 0)
            ∧ MemKeptOutside 0x20000000 (imgLength img) s t)
        ∧ RegsKept ([R.BOOT_STAT, R.BOOT_TRY, R.BOOT_VER] ++ memRegs) s t) ∧
    (s.dev.booted = false → s.dev.resetAt + 1000000000 ≤ s.dev.now + dt →
      ∃ t, exec (.bootWatchdogExpiry dt) s = .next t ∧ SysResetTo s t causeBootWd) ∧
    (s.dev.booted = true → ∃ t, exec (.bootWatchdogExpiry dt) s = .next t ∧ RegsKept [] s t ∧ MemKept s t) ∧
    (MayWrite s m R.BOOT_RBK → s.dev.get F.BOOT_STAT_RBK < target.val → target.val ≤ s.dev.runRollback → target.val ≤ 64 →
      ∃ t, exec (.rollbackAdvance dt m target) s = .next t ∧ t.fuses = s.fuses + (target.val - (Config.otpRollback + s.fuses))
        ∧ t.dev.get F.BOOT_STAT_RBK = (Config.otpRollback + t.fuses) % 128
        ∧ (s.dev.get F.BOOT_STAT_RBK = Config.otpRollback + s.fuses → t.dev.get F.BOOT_STAT_RBK = target.val) ∧ RegsKept [R.BOOT_RBK, R.BOOT_STAT] s t ∧ MemKept s t) ∧
    (MayWrite s m R.BOOT_RBK → (target.val ≤ s.dev.get F.BOOT_STAT_RBK ∨ s.dev.runRollback < target.val) →
      s.dev.get (F.PG_FAULT_VALID 0x5E) = 0 →
      ∃ t, exec (.rollbackAdvance dt m target) s = .next t ∧ t.fuses = s.fuses ∧ t.dev.get (F.PG_FAULT_CODE 0x5E) = 0x01
        ∧ RegsKept (R.BOOT_RBK :: faultRegs 0x5E) s t ∧ MemKept s t) ∧
    (MayWrite s m R.BOOT_VERIFY →
      ∃ t, exec (.bootVerify dt m) s = .next t ∧ t.dev.get F.BOOT_VERIFY_BUSY = 1 ∧ t.dev.get F.BOOT_VERIFY_VALID = 0
        ∧ RegsKept [R.BOOT_VERIFY] s t ∧ MemKept s t) ∧
    (s.dev.get F.BOOT_VERIFY_BUSY = 1 → s.dev.get F.BOOT_VERIFY_VALID = 0 → w = s.dev.get2 F.BOOT_WARM_LO_ADDR F.BOOT_WARM_HI_ADDR →
      hd = (List.range 512).map (fun i => s.byte (w + i)) → n = (if imgRangeOk hd then imgLength hd else 0) →
      img = (List.range (512 + n)).map (fun i => s.byte (w + i)) → Reach s 17 kindRead w (512 + n) →
      (∀ i, i < 512 + n → (if inL2 (w + i) then l2Poisoned s.dev (w + i - 0x20000000) 1 else dramPoisoned s.dev (w + i) 1) = false) →
      ∃ t, exec (.bootVerifyDone dt) s = .next t ∧ t.dev.get F.BOOT_VERIFY_BUSY = 0
        ∧ t.dev.get F.BOOT_VERIFY_RESULT = imageCheck (s.dev.get F.BOOT_STAT_RBK) img
        ∧ (t.dev.get F.BOOT_VERIFY_VALID = 1 ↔ imageCheck (s.dev.get F.BOOT_STAT_RBK) img = bootOk)
        ∧ RegsKept (R.BOOT_VERIFY :: memRegs) s t ∧ MemKept s t)

/-- On a ready block, for every page with shadows whose checker is not running: CANCEL withdraws an armed commit with
CANCELLED, and without one answers CANCEL_REFUSED; IMMEDIATE of a page that is not a fire-stream page, its own check
passed, or of a fire-stream page other than 0x04 with no plan active, makes every RWS bit of the live half what the shadow
holds, with APPLIED; NEXT_BEAT arms; both are refused with MODE_REFUSED for page 0x04 and for a fire-stream page while a
plan is active; AT_EPOCH under a plan arms an epoch whose cut-off has not passed and answers MISSED for any other, of page
0x04 starts the checker, and with no plan active applies at once, with its COMMIT record. A failed check of pages 0x09,
0x14 and 0x48 answers INVALID in every mode. While the checker of a page runs every mode is refused with COMMIT_BUSY, and
on a page without shadows a write does nothing. The frame of each is stated. (R23, R28, R29, R30, R31, R32, R433, R434,
R435, R436, R438) -/
def Obligations.CommitWrites : Prop :=
  ∀ (dt : Nat) (p : Fin 128) (target a : Nat) (m : Word) (s : State), Ready s → m = BitVec.ofNat 32 (rwsMask a) →
    (pageShadow p = true → s.dev.get (F.PG_COMMIT_STAT_CHECKING p) = 0 →
      (isArmed s.dev p = true →
        ∃ t, exec (.commitCancel dt p) s = .next t ∧ isArmed t.dev p = false ∧ t.dev.get (F.PG_COMMIT_STAT_STATUS p) = 3
          ∧ (∀ q, q ≠ p.val → cellGet none t.dev.armed q = cellGet none s.dev.armed q) ∧ RegsKept [R.PG_COMMIT_STAT p] s t ∧ MemKept s t) ∧
      (isArmed s.dev p = false →
        ∃ t, exec (.commitCancel dt p) s = .next t ∧ t.dev.armed = s.dev.armed ∧ t.dev.get (F.PG_COMMIT_STAT_STATUS p) = 9 ∧ EventSet t p 2
          ∧ RegsKept (R.PG_COMMIT_STAT p :: eventRegs p) s t ∧ MemKept s t) ∧
      (p.val ∈ [0x43, 0x44, 0x45, 0x48] → armCheck p (s.dev.elapse dt) = none →
        ∃ t, exec (.commitImmediate dt p) s = .next t ∧ t.dev.get (F.PG_COMMIT_STAT_STATUS p) = 2 ∧ EventSet t p 1 ∧ isArmed t.dev p = false
          ∧ (a / 0x1000 = p.val → 0x40 ≤ a % 0x1000 → a % 0x1000 < 0x800 →
              t.dev.reg a = (s.dev.reg a &&& ~~~m) ||| (s.dev.reg (a + 0x800) &&& m))
          ∧ (a / 0x1000 ≠ p.val ∨ 0x800 ≤ a % 0x1000 → a ∉ R.PG_COMMIT_STAT p :: eventRegs p → t.dev.reg a = s.dev.reg a)
          ∧ MemKept s t) ∧
      (p.val ∈ [0x09, 0x46] ∨ (pageFire p = true ∧ p.val ≠ 0x04 ∧ s.dev.planActive = false) → armCheck p (s.dev.elapse dt) = none →
        ∃ t, exec (.commitImmediate dt p) s = .next t ∧ t.dev.get (F.PG_COMMIT_STAT_STATUS p) = 2 ∧ EventSet t p 1 ∧ isArmed t.dev p = false
          ∧ (a / 0x1000 = p.val → 0x40 ≤ a % 0x1000 → a % 0x1000 < 0x800 → t.dev.reg a &&& m = s.dev.reg (a + 0x800) &&& m)
          ∧ MemKept s t) ∧
      (∀ c : Instr, c = .commitImmediate dt p ∨ c = .commitNextBeat dt p → p.val = 0x04 ∨ (pageFire p = true ∧ s.dev.planActive = true) →
        ∃ t, exec c s = .next t ∧ t.dev.get (F.PG_COMMIT_STAT_STATUS p) = 5 ∧ EventSet t p 2 ∧ t.dev.armed = s.dev.armed
          ∧ t.dev.versions = s.dev.versions ∧ RegsKept (R.PG_COMMIT_STAT p :: eventRegs p) s t ∧ MemKept s t) ∧
      (p.val ≠ 0x04 → (pageFire p = false ∨ s.dev.planActive = false) → armCheck p (s.dev.elapse dt) = none →
        ∃ t, exec (.commitNextBeat dt p) s = .next t ∧ t.dev.get (F.PG_COMMIT_STAT_STATUS p) = 1
          ∧ cellGet none t.dev.armed p = some { mode := 2, target := none, source := 0, at_ := s.dev.now + dt }
          ∧ (∀ q, q ≠ p.val → cellGet none t.dev.armed q = cellGet none s.dev.armed q) ∧ RegsKept [R.PG_COMMIT_STAT p] s t ∧ MemKept s t) ∧
      (p.val ≠ 0x04 → s.dev.planActive = true → armCheck p (s.dev.elapse dt) = none →
        (target % 2 ^ 30 = 0 ∨ cutoffPassed s.dev (resolveTarget s.dev target) = false) →
        ∃ t, exec (.commitAtEpoch dt p target) s = .next t ∧ t.dev.get (F.PG_COMMIT_STAT_STATUS p) = 1
          ∧ cellGet none t.dev.armed p = some { mode := 3, target := if target % 2 ^ 30 = 0 then none else some (resolveTarget s.dev target)
                                                source := 0, at_ := s.dev.now + dt }
          ∧ (∀ q, q ≠ p.val → cellGet none t.dev.armed q = cellGet none s.dev.armed q) ∧ RegsKept [R.PG_COMMIT_STAT p] s t ∧ MemKept s t) ∧
      (p.val ≠ 0x04 → s.dev.planActive = true → armCheck p (s.dev.elapse dt) = none → target % 2 ^ 30 ≠ 0 →
        cutoffPassed s.dev (resolveTarget s.dev target) = true →
        ∃ t, exec (.commitAtEpoch dt p target) s = .next t ∧ t.dev.get (F.PG_COMMIT_STAT_STATUS p) = 6 ∧ EventSet t p 2
          ∧ t.dev.armed = s.dev.armed ∧ RegsKept (R.PG_COMMIT_STAT p :: eventRegs p) s t ∧ MemKept s t) ∧
      (p.val = 0x04 →
        ∃ t, exec (.commitAtEpoch dt p target) s = .next t ∧ t.dev.get (F.PG_COMMIT_STAT_CHECKING 4) = 1 ∧ t.dev.get F.PLAN_CHK_BUSY = 1
          ∧ t.dev.planCheck.isSome = true ∧ t.dev.armed = s.dev.armed ∧ RegsKept [R.PG_COMMIT_STAT 4, R.PLAN_CHK] s t ∧ MemKept s t) ∧
      (p.val ≠ 0x04 → s.dev.planActive = false → armCheck p (s.dev.elapse dt) = none →
        ∃ t, exec (.commitAtEpoch dt p target) s = .next t ∧ t.dev.get (F.PG_COMMIT_STAT_STATUS p) = 2 ∧ EventSet t p 1 ∧ isArmed t.dev p = false
          ∧ t.dev.get (F.PG_COMMIT_STAT_EPOCH_LO p) = s.dev.get F.EPOCH_NOW_EPOCH % 2 ^ 16
          ∧ (a / 0x1000 = p.val → 0x40 ≤ a % 0x1000 → a % 0x1000 < 0x800 → t.dev.reg a &&& m = s.dev.reg (a + 0x800) &&& m)
          ∧ (LogReady s → t.dev.plogHeld = s.dev.plogHeld + 1 ∧ MemKeptOutside
              (s.dev.get2 F.PLOG_BASE_LO_BASE F.PLOG_BASE_HI_BASE + s.dev.get F.PLOG_HEAD_HEAD * 96) 96 s t)) ∧
      (∀ (r : Nat × Nat × Nat) (c : Instr), p.val ≠ 0x04 → armCheck p (s.dev.elapse dt) = some r →
        (c = .commitAtEpoch dt p target ∨ ((c = .commitImmediate dt p ∨ c = .commitNextBeat dt p) ∧ (pageFire p = false ∨ s.dev.planActive = false))) →
        ∃ t, exec c s = .next t ∧ t.dev.get (F.PG_COMMIT_STAT_STATUS p) = 7 ∧ EventSet t p 2
          ∧ t.dev.armed = s.dev.armed ∧ RegsKept ([R.PG_COMMIT_STAT p, R.WAVE_CHK, R.LOOP_CHK] ++ eventRegs p) s t ∧ MemKept s t)) ∧
    (∀ c : Instr, c = .commitCancel dt p ∨ c = .commitImmediate dt p ∨ c = .commitNextBeat dt p ∨ c = .commitAtEpoch dt p target →
      (pageShadow p = true → s.dev.get (F.PG_COMMIT_STAT_CHECKING p) = 1 → s.dev.get (F.PG_FAULT_VALID p) = 0 →
        ∃ t, exec c s = .next t ∧ t.dev.get (F.PG_FAULT_CODE p) = 0x04 ∧ t.dev.armed = s.dev.armed ∧ RegsKept (faultRegs p) s t ∧ MemKept s t) ∧
      (pageShadow p = false → ∃ t, exec c s = .next t ∧ RegsKept [] s t ∧ MemKept s t))

/-- On a ready block that holds no JTP message: the end of a check that found a fault publishes its code, instance, demand and
budget, leaves every armed commit as it was and answers PLAN_REFUSED; the end of a check that passed, with no plan active,
makes the plan active from EPOCH0 with APPLIED. PLAN_STOP with MODE 1 or 2 under a plan notes how the plan ends (a pending
MODE 1 is overtaken by MODE 2 and by nothing else), withdraws assigned lines of later epochs under MODE 1 and all under
MODE 2, and with no plan active is refused. Once every plane has ended the plan is no longer active, its armed AT_EPOCH
commits of fire-stream pages are cancelled and no plane is in seam-stop; before that PLAN_END does nothing. The frame of
each, but for what an activation and an end touch throughout the print path, is stated. (R24, R26, R32, R34, R438) -/
def Obligations.PlanLife : Prop :=
  ∀ (dt : Nat) (c : PlanCheck) (s : State), Ready s →
    (s.dev.planCheck = some c → s.dev.openSessions = 0 → (∀ n, (s.dev.sess n).held = [] ∧ (s.dev.sess n).todo = []) → c.reply = none →
      (c.result.code ≠ 0 →
        ∃ t, exec (.planCheckDone dt) s = .next t ∧ t.dev.planCheck = none ∧ t.dev.get (F.PG_COMMIT_STAT_CHECKING 4) = 0
          ∧ t.dev.get (F.PG_COMMIT_STAT_STATUS 4) = 8 ∧ EventSet t 4 2 ∧ t.dev.get F.PLAN_CHK_BUSY = 0
          ∧ t.dev.get F.PLAN_CHK_CODE = c.result.code % 256 ∧ t.dev.get F.PLAN_CHK_UNIT_INST = c.result.inst % 256
          ∧ t.dev.get F.PLAN_DEMAND_DEMAND = min c.result.demand 0xFFFFFFFF ∧ t.dev.get F.PLAN_BUDGET_BUDGET = min c.result.budget 0xFFFFFFFF
          ∧ t.dev.armed = s.dev.armed ∧ t.dev.get F.PLAN_CHK_ACTIVE = s.dev.get F.PLAN_CHK_ACTIVE
          ∧ RegsKept ([R.PG_COMMIT_STAT 4, R.PLAN_CHK, R.PLAN_DEMAND, R.PLAN_BUDGET, R.PLAN_ADV] ++ eventRegs 4) s t ∧ MemKept s t) ∧
      (c.result.code = 0 → c.other = none → c.pages = [4] → s.dev.planActive = false → cleated s.dev 8 = false →
        ∃ t, exec (.planCheckDone dt) s = .next t ∧ t.dev.planCheck = none ∧ t.dev.get F.PLAN_CHK_ACTIVE = 1 ∧ t.dev.get F.PLAN_CHK_CODE = 0
          ∧ t.dev.get (F.PG_COMMIT_STAT_STATUS 4) = 2 ∧ EventSet t 4 1
          ∧ t.dev.get F.EPOCH_NOW_EPOCH = s.dev.get (shadowOf F.PLAN_EPOCH0_EPOCH0))) ∧
    (s.dev.planCheck = none → s.dev.openSessions = 0 → (∀ n, (s.dev.sess n).held = [] ∧ (s.dev.sess n).todo = []) →
      ∃ t, exec (.planCheckDone dt) s = .next t ∧ RegsKept [] s t ∧ MemKept s t) ∧
    (s.dev.planActive = true →
      (∃ t, exec (.planStopEpoch dt) s = .next t ∧ t.dev.stopMode = (if s.dev.stopMode = 0 then 1 else s.dev.stopMode)
        ∧ (s.dev.stopMode = 0 → t.dev.stopOrd = ordNow s.dev) ∧ (s.dev.stopMode ≠ 0 → t.dev.stopOrd = s.dev.stopOrd)
        ∧ (s.dev.stopMode ≠ 0 → t.dev.planes = s.dev.planes)
        ∧ (s.dev.stopMode = 0 → ∀ p, p < 8 → (t.dev.plane p).next = (s.dev.plane p).next
            ∧ ∀ x, x ∈ (t.dev.plane p).assigns ↔ x ∈ (s.dev.plane p).assigns ∧ ordOfLine s.dev p x.line ≤ ordNow s.dev)
        ∧ RegsKept [] s t ∧ MemKept s t) ∧
      (∃ t, exec (.planStopLine dt) s = .next t ∧ t.dev.stopMode = 2
        ∧ (∀ p, p < 8 → (t.dev.plane p).assigns = [] ∧ (t.dev.plane p).slots = [] ∧ (t.dev.plane p).next = (s.dev.plane p).next)
        ∧ RegsKept [] s t ∧ MemKept s t)) ∧
    (s.dev.planActive = false → s.dev.get (F.PG_FAULT_VALID 4) = 0 →
      ∀ k : Instr, k = .planStopEpoch dt ∨ k = .planStopLine dt →
        ∃ t, exec k s = .next t ∧ t.dev.stopMode = s.dev.stopMode ∧ t.dev.get (F.PG_FAULT_CODE 4) = 0x01
          ∧ RegsKept (faultRegs 4) s t ∧ MemKept s t) ∧
    (s.dev.planActive = true → s.dev.stopMode ≠ 0 → stopPlanes.all (planeEnded (s.dev.elapse dt)) = true →
      ∃ t, exec (.planEnd dt) s = .next t ∧ t.dev.get F.PLAN_CHK_ACTIVE = 0 ∧ t.dev.stopMode = 0
        ∧ (∀ p, p < 8 → t.dev.get (F.STORE_SEAM_STAT_STATE p) = seamRun ∧ t.dev.get (F.STORE_SEAM_STAT_CAUSES p) = 0)
        ∧ t.dev.pinLevel .seamReq 0 = 0 ∧ (∀ h, h < 32 → t.dev.get (F.HP_STAT_STOP h) = 0)
        ∧ (∀ p a, cellGet none s.dev.armed p = some a → (a.mode = 3 ∧ pageFire p = true → isArmed t.dev p = false)
            ∧ (a.mode ≠ 3 ∨ pageFire p = false → cellGet none t.dev.armed p = some a))) ∧
    (s.dev.planActive = false ∨ s.dev.stopMode = 0 ∨ stopPlanes.all (planeEnded (s.dev.elapse dt)) = false →
      ∃ t, exec (.planEnd dt) s = .next t ∧ RegsKept [] s t ∧ MemKept s t)

/-- On a ready block with no plan active, nothing armed and due but NEXT_BEAT commits of page 0x44, the local clock not a
ring's, and PATH and the loop engine off: a boundary in the beat performed last does nothing; one in a new beat notes it,
applies the NEXT_BEAT commit of page 0x44 that was armed at least 100 ns before, without the shadow writes of the
boundary's own cycle, and leaves a later one armed, publishes the largest junction temperature and the members heard,
rings each core whose beat tick or compare is due, and, where a unit is named, counts and raises an overrun with that
unit. Where none is named the frame is stated. (R17, R19, R28, R345, R391, R437) -/
def Obligations.BeatBoundary : Prop :=
  ∀ (dt u m k : Nat) (c : Fin 4) (a : Nat) (sh : Dev) (s : State), Ready s → k = (s.dev.elapse dt).beatNum →
    sh = (if s.dev.shAt = (s.dev.now + dt) / 2 + 1 then withShadows s.dev.shOld s.dev else s.dev) →
    (k = s.dev.lastBeat → ∃ t, exec (.beatBoundary dt u m) s = .next t ∧ RegsKept [] s t ∧ MemKept s t) ∧
    (QuietBeat s dt → s.dev.planActive = false → s.dev.get (F.PG_CTL_EN 0x48) = 0 → (∀ l, l < 32 → (s.dev.loop l).inSched = false) →
      (s.dev.armed = [] ∨ ∃ x, s.dev.armed = [(0x44, some { mode := 2, target := none, source := 0, at_ := x })]) →
      ∃ t, exec (.beatBoundary dt u m) s = .next t ∧ t.dev.lastBeat = k
        ∧ (∀ x, s.dev.armed = [(0x44, some { mode := 2, target := none, source := 0, at_ := x })] →
            (x + 100 ≤ s.dev.now + dt → t.dev.armed = [] ∧ t.dev.get (F.PG_COMMIT_STAT_STATUS 0x44) = 2
              ∧ t.dev.reg a &&& BitVec.ofNat 32 (rwsMask a) = (if a / 0x1000 = 0x44 ∧ 0x40 ≤ a % 0x1000 ∧ a % 0x1000 < 0x800
                  then sh.reg (a + 0x800) else t.dev.reg a) &&& BitVec.ofNat 32 (rwsMask a)) ∧
            (s.dev.now + dt < x + 100 → t.dev.armed = s.dev.armed))
        ∧ t.dev.get F.VENC_STAT_LOST = 0 ∧ t.dev.get F.STAY_STAT_MEMBERS = s.dev.stay.heard % 65536 ∧ t.dev.getI F.TRIM_TJMAX_TJ = thetaJ s.dev
        ∧ (s.dev.get (F.EVTC_TICK_TICK_EN c) = 1 → k % 2 ^ s.dev.get (F.EVTC_TICK_TICK_LOG2 c) = 0 → bit (t.dev.get (F.EVTC_PEND_PEND c)) 0 = true)
        ∧ (s.dev.get (F.EVTC_TICK_BCMP_EN c) = 1 → k % 2 ^ 32 = s.dev.get (F.EVTC_BCMP_BEAT c) → bit (t.dev.get (F.EVTC_PEND_PEND c)) 1 = true)
        ∧ (u ≠ 0 → m = 0 → t.dev.get F.BEAT_OVERRUN_COUNT = min (s.dev.get F.BEAT_OVERRUN_COUNT + 1) 0xFFFF
            ∧ t.dev.get F.BEAT_OVERRUN_UNIT = u % 256 ∧ EventSet t 3 8)
        ∧ (u = 0 → ∀ b, b / 0x1000 ≠ 0x44 →
            b ∉ [R.TRIM_TJMAX, R.STAY_STAT, R.VENC_STAT, R.EVT_PEND 2] ++ (List.range 4).map R.FIN_FREQ ++ (List.range 4).map R.EVTC_PEND
              ++ (List.range 4).map R.EVTC_CNT → t.dev.reg b = s.dev.reg b)
        ∧ MemKept s t)

/-- On a ready block, at a quiet boundary of a plan with one plane that assigns no line: every line in the pipeline that is
not framed advances one stage, a decoded one to its final levels under its own epoch's configuration, and where the one
line that enters stage 2 is the first of its epoch the live halves show that epoch's configuration. With four lines issued
ahead nothing is issued and memory is kept. With fewer, a line of an epoch whose descriptor is not in its slot is not
issued: STORE_MISS shows DESC with code 1; a line with a background record that is present and no overlay is issued: it
stands in decode with the delivered samples of its record, or, where the record fails, with none and a codec error
counted, and the stream position moves past the record. Other planes are as they were. (R21, R22, R150, R153, R166, R171,
R173, R174, R185, R201, R433) -/
def Obligations.PipelineAtBoundary : Prop :=
  ∀ (dt p n o : Nat) (v : Version) (s : State), Ready s → QuietBeat s dt → s.dev.armed = [] → OnePlane s v p →
    (s.dev.get (F.LEV_STAT_REV p) = 1 ∨ (s.dev.plane p).hwm = none) → n = (s.dev.plane p).issue → o = ordOfLine s.dev p n →
    (∃ t, exec (.beatBoundary dt 0 0) s = .next t ∧ t.dev.lastBeat = (s.dev.elapse dt).beatNum ∧ t.dev.versions = s.dev.versions
      ∧ (∀ (x : Slot) (a : Nat), (s.dev.plane p).slots.filter (fun q => q.stage == 1) = [x] → x.line = firstLine s.dev x.ord p → s.dev.liveOrd ≤ x.ord →
          t.dev.liveOrd = x.ord + 1 ∧ (pageFire (a / 0x1000) = true → 0x40 ≤ a % 0x1000 → a % 0x1000 < 0x800 →
            t.dev.reg a &&& BitVec.ofNat 32 (rwsMask a) = cellGet (resetWord a) v.cfg.regs a &&& BitVec.ofNat 32 (rwsMask a)))) ∧
    ((s.dev.plane p).next + 4 ≤ n →
      ∃ t, exec (.beatBoundary dt 0 0) s = .next t ∧ (t.dev.plane p).slots = (s.dev.plane p).slots.map (advanced s.dev p)
        ∧ (t.dev.plane p).issue = n ∧ (t.dev.plane p).next = (s.dev.plane p).next ∧ (t.dev.plane p).cursor = (s.dev.plane p).cursor
        ∧ (t.dev.plane p).assigns = (s.dev.plane p).assigns
        ∧ (∀ q, q ≠ p → t.dev.plane q = s.dev.plane q) ∧ MemKept s t) ∧
    (∀ (e addr : Nat), mayIssue s.dev p = true → SoundMemory s → captured s.dev o = false → e = epochNumber s.dev o →
      addr = corBase s.dev + 32 * (e % 65536) → Reach s 8 kindRead addr 32 →
      leAt ((List.range 32).map (fun i => s.byte (addr + i))) 0 4 ≠ e →
      ∃ t, exec (.beatBoundary dt 0 0) s = .next t ∧ (t.dev.reg (R.STORE_MISS p)).toNat = 0x101
        ∧ (t.dev.plane p).slots = (s.dev.plane p).slots.map (advanced s.dev p) ∧ (t.dev.plane p).issue = n ∧ (∀ q, q ≠ p → t.dev.plane q = s.dev.plane q) ∧ MemKept s t) ∧
    (∀ (w k addr : Nat) (st : Stream) (x : DecState) (bs : List Byte), mayIssue s.dev p = true → SoundMemory s → captured s.dev o = true →
      n < firstLine s.dev (o + 1) p → overlayCovers (s.dev.copyAt o).desc p (n - firstLine s.dev o p) = false →
      cfgGet v.cfg (F.LAYER_BG_EN p) = 1 → n - firstLine s.dev o p < cfgGet v.cfg (F.LAYER_BG_LINES_LINES p) →
      w = cfgWidth v.cfg p → st = s.dev.stream (cfgGet v.cfg (F.LAYER_BG_STREAM p)) →
      st.en = true → st.kind = 0 → st.plane = p → st.ring = false →
      x = (if n = firstLine s.dev o p then enterCopy s.dev p o (issueState s.dev p) else issueState s.dev p) →
      addr = st.base * 4096 + x.bgPos → k = recordExtent w (cfgDepth v.cfg p) (beAt ((List.range 4).map (fun i => s.byte (addr + i))) 0 4) →
      x.bgPos + k ≤ st.fill → Reach s 8 kindRead addr k → bs = (List.range k).map (fun i => s.byte (addr + i)) →
      (∀ l, decodeLine w (cfgDepth v.cfg p) x.bgRef x.bgBad bs = .inl l →
        ∃ t, exec (.beatBoundary dt 0 0) s = .next t ∧ (t.dev.plane p).issue = n + 1 ∧ t.dev.reg (R.STORE_MISS p) = 0
          ∧ (t.dev.plane p).slots = (s.dev.plane p).slots.map (advanced s.dev p) ++ [{
              line := n, ord := o, j := n - firstLine s.dev o p, stage := 1, why := 0, levels := []
              samples := l.map (deliver (cfgGet v.cfg (F.PLAN_PLANE_A_IN_MODE p)))
              after := { x with bgPos := x.bgPos + k, bgRef := l, bgBad := false, line := n + 1 } }]
          ∧ t.dev.get F.CODEC_ERR_CNT_COUNT = s.dev.get F.CODEC_ERR_CNT_COUNT ∧ (∀ q, q ≠ p → t.dev.plane q = s.dev.plane q) ∧ MemKept s t) ∧
      (∀ f, decodeLine w (cfgDepth v.cfg p) x.bgRef x.bgBad bs = .inr f → inSeamStop s.dev p = false →
        ∃ t, exec (.beatBoundary dt 0 0) s = .next t ∧ (t.dev.plane p).issue = n + 1
          ∧ (t.dev.plane p).slots = (s.dev.plane p).slots.map (advanced s.dev p) ++ [{
              line := n, ord := o, j := n - firstLine s.dev o p, stage := 1, why := 2, levels := [], samples := []
              after := { x with bgPos := x.bgPos + k, bgRef := [], bgBad := true, line := n + 1 } }]
          ∧ t.dev.get F.CODEC_ERR_CNT_COUNT = min (s.dev.get F.CODEC_ERR_CNT_COUNT + 1) 0xFFFF ∧ EventSet t 0x10 8
          ∧ (t.dev.stream (cfgGet v.cfg (F.LAYER_BG_STREAM p))).failed = true ∧ MemKept s t))

/-- On a ready block, at a quiet boundary of a plan with one plane that is neither in reverse, nor stopped, nor waiting at a
turn, no copy beginning in stage 1: with the next boundary above the high-water mark, the cursor line's predicted instant
within the next beat and its frame due in time, it is assigned at the later of that instant and the beat's start, and the
cursor moves on; with the instant after that beat nothing is assigned; with the boundary reached already it is assigned
late at the beat's start, and LATE is set; where its frame is not due in time, or it failed, the plane enters seam-stop
with that cause and the line as resume line. A line issued of an epoch whose cut-off has not passed passes it: the one
commit armed for it, of a fire-stream page other than 0x04, is captured as a new configuration from that epoch on with its
shadow half, is APPLIED with the epoch, and no live register changes yet. (R20, R30, R31, R50, R51, R175, R177, R178,
R433, R435, R438) -/
def Obligations.AssignmentAndCapture : Prop :=
  ∀ (dt p n b : Nat) (v : Version) (s : State), Ready s → QuietBeat s dt → OnePlane s v p →
    n = (s.dev.plane p).cursor → b = (s.dev.elapse dt).beatNum →
    (∀ q ∈ (s.dev.plane p).slots, q.stage = 1 → q.line ≠ firstLine s.dev q.ord p) →
    (∀ (h : Int) (w : Nat), s.dev.armed = [] → (s.dev.plane p).hwm = some h → s.dev.get (F.LEV_STAT_REV p) = 0 → inSeamStop s.dev p = false →
      (s.dev.plane p).turn = 0 → pitchOf s.dev p ≠ 0 →
      w = (match (s.dev.plane p).slots.find? (fun q => q.line == n) with
        | some q => if q.why ≠ 0 then q.why else if 2 ≤ q.stage then 0 else causeLate
        | none => causeLate) →
      (∀ (k : Track) (t' : Int), effPlane (s.dev.elapse dt) p = some k → h < boundaryOf s.dev p n → 0 < k.vh →
        (s.dev.get F.LEV_VMIN_VMIN : Int) ≤ k.vh → t' = predictT (boundaryOf s.dev p n) k →
        (t' < (((s.dev.elapse dt).beatStart (b + 2) : Nat) : Int) * 65536 → w = 0 → (s.dev.plane p).next + 4 ≤ (s.dev.plane p).issue →
          ∃ t, exec (.beatBoundary dt 0 0) s = .next t ∧ (t.dev.plane p).cursor = n + 1 ∧ (t.dev.plane p).lastEvent = some t'
            ∧ (t.dev.plane p).assigns = (s.dev.plane p).assigns.filter (fun a => decide ((s.dev.plane p).next ≤ a.line) || !a.seen)
                ++ [{ line := n, t := max t' ((((s.dev.elapse dt).beatStart (b + 1) : Nat) : Int) * 65536), late := false, seen := false }]
            ∧ t.dev.get (F.LEV_STAT_LATE p) = s.dev.get (F.LEV_STAT_LATE p) ∧ MemKept s t) ∧
        ((((s.dev.elapse dt).beatStart (b + 2) : Nat) : Int) * 65536 ≤ t' → (s.dev.plane p).next + 4 ≤ (s.dev.plane p).issue →
          ∃ t, exec (.beatBoundary dt 0 0) s = .next t ∧ (t.dev.plane p).cursor = n ∧ (t.dev.plane p).assigns = (s.dev.plane p).assigns
            ∧ (t.dev.plane p).lastEvent = (s.dev.plane p).lastEvent ∧ MemKept s t) ∧
        (t' < (((s.dev.elapse dt).beatStart (b + 2) : Nat) : Int) * 65536 → w ≠ 0 → w < 4 → s.dev.get (F.STORE_SEAM_STAT_STATE p) = seamRun →
          (s.dev.plane p).next ≤ n →
          ∃ t, exec (.beatBoundary dt 0 0) s = .next t ∧ inSeamStop t.dev p = true ∧ holdsCause t.dev p w = true ∧ (t.dev.plane p).resume = n
            ∧ (t.dev.plane p).cursor ≤ n ∧ (∀ a ∈ (t.dev.plane p).assigns, a.line < n) ∧ EventSet t 0x0E 9)) ∧
      (boundaryOf s.dev p n ≤ h → w = 0 → (s.dev.plane p).next + 4 ≤ (s.dev.plane p).issue →
        ∃ t, exec (.beatBoundary dt 0 0) s = .next t ∧ (t.dev.plane p).cursor = n + 1 ∧ t.dev.get (F.LEV_STAT_LATE p) = 1
          ∧ (t.dev.plane p).assigns = (s.dev.plane p).assigns.filter (fun a => decide ((s.dev.plane p).next ≤ a.line) || !a.seen)
              ++ [{ line := n, t := (((s.dev.elapse dt).beatStart (b + 1) : Nat) : Int) * 65536, late := true, seen := true }] ∧ MemKept s t)) ∧
    (∀ (pg o a : Nat) (x : Armed) (m : Word), s.dev.armed = [(pg, some x)] → x.mode = 3 → pageFire pg = true → pageShadow pg = true → pg ≠ 0x04 →
      pg < 128 → s.dev.get (F.LEV_STAT_REV p) = 1 → (s.dev.plane p).slots = [] → mayIssue s.dev p = true → o = ordOfLine s.dev p (s.dev.plane p).issue →
      s.dev.cutoffDone ≤ o → (x.target = none ∨ x.target = some (epochNumber s.dev o)) → s.dev.shAt ≠ (s.dev.now + dt) / 2 + 1 →
      m = BitVec.ofNat 32 (rwsMask a) →
      ∃ t u, exec (.beatBoundary dt 0 0) s = .next t ∧ t.dev.versions = [u, v] ∧ u.ord = o ∧ o < t.dev.cutoffDone ∧ isArmed t.dev pg = false
        ∧ t.dev.get (F.PG_COMMIT_STAT_STATUS pg) = 2 ∧ t.dev.get (F.PG_COMMIT_STAT_EPOCH_LO pg) = epochNumber s.dev o % 2 ^ 16 ∧ EventSet t pg 1
        ∧ (a / 0x1000 = pg → 0x40 ≤ a % 0x1000 → a % 0x1000 < 0x800 → cellGet (resetWord a) u.cfg.regs a &&& m = s.dev.reg (a + 0x800) &&& m)
        ∧ (a / 0x1000 ≠ pg → cellGet (resetWord a) u.cfg.regs a = cellGet (resetWord a) v.cfg.regs a)
        ∧ u.cfg.noz = (if pg = 0x12 then s.dev.nozSh else v.cfg.noz) ∧ u.cfg.tile = (if pg = 0x11 then s.dev.tileSh else v.cfg.tile)
        ∧ u.cfg.wave = (if pg = 0x14 then s.dev.waveSh else v.cfg.wave)
        ∧ t.dev.reg a &&& m = s.dev.reg a &&& m)

/-- On a ready block, at a quiet boundary with no plan and the loop engine on, for each loop: one that is not due keeps its
states, LOOP_OUT and LOOP_STAT; one that has left the schedule keeps its states and sets its PWM duty from SAFE where
SAFE_EN and DEST say so. A due loop with set-point source 0 takes a region whose thresholds allow it, remembers its
record, the measurement and the output, which LOOP_OUT shows and which lies within the limits and the rate; with its
filters bypassed and no derivative the integrator and the output are exactly those of R301; with DEST set its PWM duty is
the output's share of PERIOD. A FIN input with two edges in its window shows their frequency, with none 0. Other registers
and memory are unchanged. (R294, R295, R296, R299, R300, R301, R302, R303, R307) -/
def Obligations.LoopBoundary : Prop :=
  ∀ (dt k : Nat) (l : Fin 32) (i : Fin 4) (s : State), Ready s → QuietBeat s dt → s.dev.armed = [] → s.dev.planActive = false →
    s.dev.get (F.PG_CTL_EN 0x48) = 1 → k = (s.dev.elapse dt).beatNum →
    ∃ t, exec (.beatBoundary dt 0 0) s = .next t ∧
      (loopDue s.dev l k = false → (s.dev.loop l).inSched = loopIn s.dev l →
        t.dev.loop l = s.dev.loop l ∧ t.dev.reg (R.LOOP_OUT l) = s.dev.reg (R.LOOP_OUT l) ∧ t.dev.reg (R.LOOP_STAT l) = s.dev.reg (R.LOOP_STAT l)) ∧
      ((s.dev.loop l).inSched = true → loopIn s.dev l = false →
        t.dev.loop l = { s.dev.loop l with inSched := false } ∧ t.dev.reg (R.LOOP_OUT l) = s.dev.reg (R.LOOP_OUT l)
        ∧ (s.dev.get (F.LOOP_CFG_SAFE_EN l) = 1 → s.dev.get (F.LOOP_CFG_DEST l) = 1 → s.dev.get (F.LOOP_CFG_PWM_SEL l) < 24 →
            (∀ j, j < 32 → j ≠ l.val → s.dev.get (F.LOOP_CFG_DEST j) = 0) →
            t.dev.get (F.PWM_DUTY_DUTY (s.dev.get (F.LOOP_CFG_PWM_SEL l)))
              = (s.dev.getI (F.LOOP_SAFE_SAFE l)).toNat * s.dev.get (F.PWM_PERIOD_PERIOD (s.dev.get (F.LOOP_CFG_PWM_SEL l))) / 131072)) ∧
      (∀ (x y : Loop) (r : Nat) (cf : List Nat) (sp m q out : Int), loopDue s.dev l k = true → s.dev.get (F.LOOP_CFG_SP_SRC l) = 0 →
        x = s.dev.loop l → y = t.dev.loop l → r = y.region → cf = coefRecord s.dev.mot.coefLive l r → sp = s.dev.getI (F.LOOP_SP_SP l) →
        m = 32 * (s.dev.get (F.ADC_DATA_VALUE (s.dev.get (F.LOOP_CFG_MEAS_CH l))) : Int) → q = (if s.dev.get (F.LOOP_CFG_SCHED l) = 1 then m else sp) →
        out = y.outPrev → recLo cf ≤ recHi cf → (x.fresh = false → recLo cf ≤ x.outPrev ∧ x.outPrev ≤ recHi cf) →
        y.record = cf ∧ y.yPrev = m ∧ y.fresh = false ∧ t.dev.get (F.LOOP_STAT_REGION l) = r % 8
        ∧ (x.fresh = true → r ≤ s.dev.get (F.LOOP_CFG_NREG_M1 l) ∧ (r = 0 ∨ thr s.dev.mot.coefLive l r ≤ q)
            ∧ ∀ j, r < j → j ≤ s.dev.get (F.LOOP_CFG_NREG_M1 l) → q < thr s.dev.mot.coefLive l j)
        ∧ (x.fresh = false → (s.dev.get (F.LOOP_CFG_NREG_M1 l) ≤ x.region
              ∨ q < thr s.dev.mot.coefLive l (x.region + 1) + hys s.dev.mot.coefLive l (x.region + 1)) →
            (x.region = 0 ∨ thr s.dev.mot.coefLive l x.region - hys s.dev.mot.coefLive l x.region ≤ q) → r = x.region)
        ∧ (bits (recW cf 16) 0 18 = 0 ∨ x.fresh = false → recLo cf ≤ out ∧ out ≤ recHi cf ∧ t.dev.getI (F.LOOP_OUT_OUT l) = out)
        ∧ (bits (recW cf 16) 0 18 ≠ 0 → x.fresh = false → (out - x.outPrev).natAbs ≤ bits (recW cf 16) 0 18)
        ∧ (s.dev.get (F.LOOP_CFG_DEST l) = 1 → s.dev.get (F.LOOP_CFG_PWM_SEL l) < 24 → (∀ j, j < 32 → j ≠ l.val → s.dev.get (F.LOOP_CFG_DEST j) = 0) →
            t.dev.get (F.PWM_DUTY_DUTY (s.dev.get (F.LOOP_CFG_PWM_SEL l)))
              = out.toNat * s.dev.get (F.PWM_PERIOD_PERIOD (s.dev.get (F.LOOP_CFG_PWM_SEL l))) / 131072)
        ∧ (∀ (e i0 u : Int), s.dev.get (F.LOOP_CFG_REVERSE l) = 0 → recByp cf 4 = true → recByp cf 9 = true → bits (recW cf 16) 0 18 = 0 → recK cf 2 = 0 →
            (x.fresh = false → x.region = r ∧ x.record = cf ∧ x.d = 0 ∧ x.awSide = 0 ∧ x.limSide = 0) →
            e = satS 18 (sp - m) → i0 = (if x.fresh then 0 else x.i) →
            u = satS 18 ((recK cf 0 * 2 ^ (recX cf 0 + 32).toNat * e + y.i * 2 ^ 27 + 2 ^ 48) / 2 ^ 49) →
            y.i = max (recLo cf * 2 ^ 22) (min (recHi cf * 2 ^ 22) ((i0 * 2 ^ 27 + recK cf 1 * 2 ^ (recX cf 0 + 32).toNat * e + 2 ^ 26) / 2 ^ 27))
            ∧ out = max (recLo cf) (min (recHi cf) u))) ∧
      (∀ (a b ka kb : Nat), cellGet [] s.dev.mot.fin i = [(b, kb), (a, ka)] → ka ≤ kb → k ≤ ka + 4096 →
        k ≤ ka + 2 ^ s.dev.get (match i.val with | 0 => F.FIN_CFG_WIN0 | 1 => F.FIN_CFG_WIN1 | 2 => F.FIN_CFG_WIN2 | _ => F.FIN_CFG_WIN3) →
        t.dev.get (F.FIN_FREQ_F i) = 51200000000 / (b - a) % 2 ^ 32) ∧
      (cellGet [] s.dev.mot.fin i = [] → t.dev.get (F.FIN_FREQ_F i) = 0) ∧
      (∀ b, b ∉ [R.TRIM_TJMAX, R.STAY_STAT, R.VENC_STAT, R.EVT_PEND 2] ++ (List.range 4).map R.FIN_FREQ ++ (List.range 4).map R.EVTC_PEND
            ++ (List.range 32).map R.LOOP_OUT ++ (List.range 32).map R.LOOP_STAT ++ (List.range 32).map R.PWM_DUTY ++ eventRegs 0x48 →
          t.dev.reg b = s.dev.reg b) ∧ MemKept s t

/-- On a ready block under a plan, for the launch of a plane's framed and assigned next line on its one bound port: each
nozzle that fires counts one actuation, the copy's digest takes the line, and the line is out of the pipeline; as the
resume line of a re-armed plane it sets STATE to RUN, counts, tags the copy's seam and enters a RESUME record in the print
log; as the last line of a copy on its only plane it enters the COPY record with the copy's fields. At a sample a stopped
plane with no cause left re-arms once its web stands or comes back far enough before the resume line, and not while a
cause stands. A judged result keeps its run in the history, and forms a verdict exactly when the run confirms a change: it
is counted, numbered, and sent to the chip that carries the nozzle, or held there during reef. (R54, R180, R182, R189,
R207, R208, R211, R212, R289, R290, R291) -/
def Obligations.LaunchCompletes : Prop :=
  (∀ (dt : Nat) (p : Fin 8) (h : Fin 32) (delays : List Nat) (a : Assign) (l : Slot) (c : FireCfg) (k : Copy) (lv : List Nat) (dg b : Nat) (s : State),
    Ready s → s.dev.planActive = true → (s.dev.plane p).assigns.find? (fun x => x.line == (s.dev.plane p).next) = some a →
    (s.dev.plane p).slots.find? (fun x => x.line == (s.dev.plane p).next && x.stage == 4) = some l → a.t ≤ (s.dev.elapse dt).t16 →
    c = cfgFor s.dev l.ord → cfgPorts c p = [h.val] → cfgGet c (F.PLAN_HP_A_WAVE_EN h) = 0 → l.levels = [(h.val, lv)] → lv.length ≤ 4096 →
    ((s.dev.link h).up = false ∨ schedulePending s.dev h (b2n (bit (cfgVersion s.dev l.ord).wset h)) = false) →
    k = s.dev.copyAt l.ord → dg = digestLine (cellGet 0 k.digest p) l.line (2 + cfgGet c (F.PLAN_PLANE_A_DROP_BITS p)) lv →
    b = s.dev.get2 F.PLOG_BASE_LO_BASE F.PLOG_BASE_HI_BASE + s.dev.get F.PLOG_HEAD_HEAD * 96 →
    (∃ t, exec (.fireFrameLaunch dt p delays) s = .next t
      ∧ (∀ g, cellGet 0 t.dev.wear g = (if g / 4096 = h.val ∧ lv.getD (g % 4096) 0 ≠ 0 then min (cellGet 0 s.dev.wear g + 1) (2 ^ 48 - 1) else cellGet 0 s.dev.wear g))
      ∧ cellGet 0 (t.dev.copyAt l.ord).digest p = dg ∧ (t.dev.plane p).next = (s.dev.plane p).next + 1) ∧
    (s.dev.get (F.STORE_SEAM_STAT_STATE p) = seamRearmed → l.line = (s.dev.plane p).resume → LogReady s →
      (∀ o, o ≤ s.dev.copies.length + 1 → captured s.dev o = true → (s.dev.plane p).next + 1 < firstLine s.dev (o + 1) p) →
      ∃ t, exec (.fireFrameLaunch dt p delays) s = .next t ∧ t.dev.get (F.STORE_SEAM_STAT_STATE p) = seamRun
        ∧ t.dev.get (F.STORE_SEAM_STAT_COUNT p) = min (s.dev.get (F.STORE_SEAM_STAT_COUNT p) + 1) (2 ^ (F.STORE_SEAM_STAT_COUNT p).width - 1)
        ∧ bit (t.dev.copyAt l.ord).seam p = true ∧ EventSet t 0x0E 10 ∧ t.dev.plogHeld = s.dev.plogHeld + 1
        ∧ (t.byte b).toNat = 0x04 ∧ (t.byte (b + 1)).toNat = p ∧ leAt ((List.range 6).map (fun i => t.byte (b + 24 + i))) 0 6 = l.line % 2 ^ 48
        ∧ MemKeptOutside b 96 s t) ∧
    (s.dev.get (F.STORE_SEAM_STAT_STATE p) = seamRun → cfgPlanes c = [p.val] → k.desc.repeat_ ≠ 0 → bit k.done p = false → k.logged = false →
      bit k.desc.ovlPlanes p = false → firstLine s.dev (l.ord + 1) p ≤ (s.dev.plane p).next + 1 → l.ord ≤ s.dev.copies.length →
      (∀ o, o ≤ s.dev.copies.length + 1 → o ≠ l.ord → captured s.dev o = true → bit (s.dev.copyAt o).done p = true ∨ (s.dev.plane p).next + 1 < firstLine s.dev (o + 1) p) →
      LogReady s → inReef s.dev = false →
      ∃ t, exec (.fireFrameLaunch dt p delays) s = .next t ∧ (t.dev.copyAt l.ord).logged = true ∧ bit (t.dev.copyAt l.ord).done p = true
        ∧ t.dev.plogHeld = s.dev.plogHeld + 1 ∧ (t.byte b).toNat = 0x01 ∧ leAt ((List.range 4).map (fun i => t.byte (b + 4 + i))) 0 4 = s.dev.get F.PLOG_SEQ_SEQ
        ∧ leAt ((List.range 4).map (fun i => t.byte (b + 8 + i))) 0 4 = epochNumber s.dev l.ord
        ∧ (t.byte (b + 23)).toNat = 2 * b2n k.reject + 4 * b2n k.ecc ∧ leAt ((List.range 4).map (fun i => t.byte (b + 24 + i))) 0 4 = k.desc.tag % 2 ^ 32
        ∧ (t.byte (b + 28)).toNat = 2 ^ p.val ∧ (t.byte (b + 29)).toNat = k.torn % 256 ∧ (t.byte (b + 30)).toNat = k.reef % 256
        ∧ (t.byte (b + 31)).toNat = k.seam % 256
        ∧ leAt ((List.range 8).map (fun i => t.byte (b + 32 + 8 * p + i))) 0 8 = dg % 2 ^ 64
        ∧ MemKeptOutside b 96 s t)) ∧
  (∀ (p m : Nat) (k : Track) (h : Int) (d : Dev), p < 8 → effPlane d p = some k → (d.plane p).turn = 0 → m = (d.plane p).resume → inSeamStop d p = true →
    (d.plane p).hwm = some h → k.x ≤ h → (d.get (F.LEV_STAT_REV p) = 1 ∨ h - k.x ≤ d.get (F.LEV_CFG_HYST p)) →
    ((d.get (F.STORE_SEAM_STAT_CAUSES p) = 0 → ((d.plane p).encStop = false ∨ sourceUncertain d (sourceInUse d p) = false) →
        (h ≤ boundaryOf d p m - backup d p ∨ (d.get (F.LEV_STAT_REV p) = 1 ∧ k.x ≤ boundaryOf d p m - backup d p)) →
        (hwmUpdate p d).get (F.STORE_SEAM_STAT_STATE p) = seamRearmed ∧ ((hwmUpdate p d).plane p).cursor = m ∧ ((hwmUpdate p d).plane p).hwm = some k.x
          ∧ ((hwmUpdate p d).plane p).encStop = false ∧ (hwmUpdate p d).get (F.LEV_STAT_REV p) = 0) ∧
      (d.get (F.STORE_SEAM_STAT_CAUSES p) ≠ 0 ∨ (boundaryOf d p m - backup d p < h ∧ (d.get (F.LEV_STAT_REV p) = 0 ∨ boundaryOf d p m - backup d p < k.x)) →
        (hwmUpdate p d).get (F.STORE_SEAM_STAT_STATE p) = seamStopped ∧ (hwmUpdate p d).plane p = d.plane p))) ∧
  (∀ (f : CamFrame) (v x nz res ratio ep k e run sent : Nat) (off : Int) (d : Dev), k = f.get (F.VIEW_HBASE_HBASE v) + (x - f.get (F.VIEW_X0_X v)) →
    e = cellGet 0 d.insp.hist k → run = (if bits e 0 2 = res then min 15 (bits e 2 4 + 1) else 1) → sent = bits e 6 2 →
    (run < f.get F.VRD_CFG_CONFIRM ∨ res = sent →
      (verdictForm f v x nz res off ratio ep d).insp.hist = cellSet 0 d.insp.hist k (res + 4 * run + 64 * sent)
      ∧ (verdictForm f v x nz res off ratio ep d).regs = d.regs ∧ (verdictForm f v x nz res off ratio ep d).stay = d.stay) ∧
    (f.get F.VRD_CFG_CONFIRM ≤ run → res ≠ sent →
      (verdictForm f v x nz res off ratio ep d).get F.VRD_CNT_FORMED_CNT = min (d.get F.VRD_CNT_FORMED_CNT + 1) (2 ^ 32 - 1)
      ∧ (verdictForm f v x nz res off ratio ep d).insp.vseq = (d.insp.vseq + 1) % 65536
      ∧ (f.get (F.VIEW_CFG_DEST v) ≠ ringPos d → d.get F.PLAN_STAY_EN = 1 →
          (verdictForm f v x nz res off ratio ep d).insp.hist = cellSet 0 d.insp.hist k (res + 4 * run + 64 * res)
          ∧ (d.stay.verdicts.length < 1024 → (verdictForm f v x nz res off ratio ep d).stay.verdicts = d.stay.verdicts
              ++ [{ dest := f.get (F.VIEW_CFG_DEST v), state := res, nozzle := nz, epoch := ep, vseq := d.insp.vseq % 65536 }]))
      ∧ (f.get (F.VIEW_CFG_DEST v) = ringPos d → f.get F.VRD_CFG_REEF_HOLD = 1 → (d.copyAt f.ord).reef ≠ 0 →
          (verdictForm f v x nz res off ratio ep d).insp.hist = cellSet 0 d.insp.hist k (res + 4 * run + 64 * sent)
          ∧ (verdictForm f v x nz res off ratio ep d).nozSh = d.nozSh ∧ (verdictForm f v x nz res off ratio ep d).stay = d.stay)))

/-- A step of a block whose queue begins with the command c is exec of c on the block with the rest of the queue; with an
empty queue it answers the state as it is. (That the queue is first in, first out and that an empty queue idles is the
model's choice, log entry 8.) (spec/00_scope.md, spec/95_what_each_step_holds.md) -/
def Obligations.StepTakesTheFrontCommand : Prop :=
  ∀ (c : Instr) (l : List Instr) (s : State),
    (s.pending = c :: l → step s = exec c { s with pending := l }) ∧ (s.pending = [] → step s = .next s)

/-- From every state, whatever its power phase, every command with any operands answers a next state: none ends in a fault or
a refusal. The next state has the same queue, at least as many fuses burnt, and what was put on the balls and links before
is still on the record, with what the command put out in front of it. (The record of outputs is the model's own state, log
entry 9.) (R420, spec/00_scope.md) -/
def Obligations.EveryCommandAnswersNext : Prop :=
  ∀ (c : Instr) (s : State), ∃ t, exec c s = .next t ∧ t.pending = s.pending ∧ s.fuses ≤ t.fuses ∧ ∃ l, t.wire = l ++ s.wire

/-- For every state s that is settled (no SYS reset is owed, no fuse burning is owed, nothing waits to be put out), if a step
of s answers a next state t, then t is settled: whatever command is at the front of the queue and whatever its operands,
the reset or burning that it asked for is carried out within the step. The reset state is settled (ResetState). (R408,
R420) -/
def Obligations.EveryStepSettles : Prop :=
  ∀ s t : State, Settled s → step s = .next t → Settled t

/-- The reset state is settled and in the power phase run; no fuse is burnt since; nothing waits in the queue; every register
reads its reset value; nothing is held in DRAM, L2, the copies, the axes, the sessions or the print log, and memory is in
canonical form. PWR_RST_CAUSE says VBAT POR and POR with COUNT 1. (That RAM reads 0 and that the machine stands right
after power-on are the model's choices, log entries 3 and 13.) (R408, R410) -/
def Obligations.ResetState : Prop :=
  Settled State.reset ∧ State.reset.dev.power = .run ∧ State.reset.fuses = 0 ∧ State.reset.pending = [] ∧ State.reset.wire = []
    ∧ (∀ a, State.reset.dev.reg a = resetWord a) ∧ Memory.wf State.reset.dev ∧ (∀ a, State.reset.dev.dram = [] ∧ cellGet 0 State.reset.dev.dram a = 0)
    ∧ State.reset.dev.l2 = [] ∧ State.reset.dev.copies = [] ∧ State.reset.dev.mot.axes = [] ∧ State.reset.dev.jtp = {} ∧ State.reset.dev.plogHeld = 0 ∧ State.reset.dev.planActive = false
    ∧ State.reset.dev.get F.PWR_RST_CAUSE_COUNT = 1 ∧ bit (State.reset.dev.reg R.PWR_RST_CAUSE).toNat causePor = true ∧ bit (State.reset.dev.reg R.PWR_RST_CAUSE).toNat 0 = true
    ∧ (∀ p, p < 8 → State.reset.dev.get (F.STORE_SEAM_STAT_STATE p) = seamRun) ∧ (∀ h, h < 32 → State.reset.dev.get (F.HP_STAT_CUT h) = 1)

/-- While the block is in power-on reset, held in SYS reset, or in standby, every command but WAKE_EDGE, AGEING_TICK,
VBAT_POR, POR_RELEASE, WAKE_TIMER_EXPIRY and SYS_RESET_RELEASE answers the same state after its own time dt: no register,
memory, output, fuse or queue entry changes. (R402, R407, R408, R415) -/
def Obligations.OffPhaseCommands : Prop :=
  ∀ (c : Instr) (s : State), Settled s → s.dev.power ≠ .run →
    (∀ dt i, c ≠ .wakeEdge dt i) → (∀ dt, c ≠ .ageingTick dt) → (∀ dt, c ≠ .vbatPor dt) → (∀ dt, c ≠ .porRelease dt) →
    (∀ dt, c ≠ .wakeTimerExpiry dt) → (∀ dt, c ≠ .sysResetRelease dt) →
    exec c s = .next { s with dev := s.dev.elapse c.dt }

/-- From every state whose DRAM and L2 are in canonical form (addresses strictly rising, no entry that reads as an unlisted
one), every command with any operands, and every step, leave them in canonical form: whether memory is written by a
master, by an engine, by error correction or by a held write performed late, or is emptied by a reset. The reset state is
in that form (ResetState). (That an unlisted byte reads 0 is the choice of log entry 3.) (R322, R335, R337, R362, R381,
R408, R423) -/
def Obligations.MemoryForm : Prop :=
  (∀ (c : Instr) (s t : State), Memory.wf s.dev → exec c s = .next t → Memory.wf t.dev) ∧
  (∀ s t : State, Memory.wf s.dev → step s = .next t → Memory.wf t.dev)
end

