-- ==== Sys2Proof/Laws/Cells.lean ====
section
/-! SUPPORT. The laws of sparse tables: read after write, other keys, and the canonical form kept by every write. -/
namespace Sys2Proof.Machine

variable {α : Type}

@[simp] theorem cellGet_nil (d : α) (k : Nat) : cellGet d [] k = d := rfl

theorem cellGet_cellErase_same (d : α) (m : Cells α) (k : Nat) : cellGet d (cellErase m k) k = d := by
  induction m with
  | nil => rfl
  | cons e m ih =>
    obtain ⟨k', v⟩ := e
    by_cases h : k = k' <;> simp [cellErase, cellGet, h]
    · simpa [h] using ih
    · simpa [h] using ih

theorem cellGet_cellErase_ne (d : α) (m : Cells α) (k j : Nat) (h : j ≠ k) :
    cellGet d (cellErase m k) j = cellGet d m j := by
  induction m with
  | nil => rfl
  | cons e m ih =>
    obtain ⟨k', v⟩ := e
    by_cases hk : k = k'
    · subst hk; simp [cellErase, cellGet, h, ih]
    · simp only [cellErase, hk, if_false, cellGet, ih]

theorem cellGet_cellInsert_same (d : α) (m : Cells α) (k : Nat) (v : α) : cellGet d (cellInsert m k v) k = v := by
  induction m with
  | nil => simp [cellInsert, cellGet]
  | cons e m ih =>
    obtain ⟨k', w⟩ := e
    unfold cellInsert
    split
    · simp [cellGet]
    · split
      · simp [cellGet]
      · rename_i h; simp [cellGet, h, ih]

theorem cellGet_cellInsert_ne (d : α) (m : Cells α) (k j : Nat) (v : α) (h : j ≠ k) :
    cellGet d (cellInsert m k v) j = cellGet d m j := by
  induction m with
  | nil => simp [cellInsert, cellGet, h]
  | cons e m ih =>
    obtain ⟨k', w⟩ := e
    unfold cellInsert
    split
    · simp [cellGet, h]
    · split
      · rename_i hk; subst hk; simp [cellGet, h]
      · simp only [cellGet, ih]

/-- A key reads what was last written there. -/
theorem cellGet_cellSet_same [DecidableEq α] (d : α) (m : Cells α) (k : Nat) (v : α) : cellGet d (cellSet d m k v) k = v := by
  unfold cellSet
  split
  · rename_i h; rw [h, cellGet_cellErase_same]
  · exact cellGet_cellInsert_same d m k v

/-- Another key reads as before, whatever unlisted keys read as there. -/
theorem cellGet_cellSet_ne [DecidableEq α] (d d' : α) (m : Cells α) (k j : Nat) (v : α) (h : j ≠ k) :
    cellGet d' (cellSet d m k v) j = cellGet d' m j := by
  unfold cellSet
  split
  · exact cellGet_cellErase_ne d' m k j h
  · exact cellGet_cellInsert_ne d' m k j v h

/-! ### The canonical form -/

theorem cellRising_mono {b b' : Nat} (m : Cells α) (h : b' ≤ b) (hm : cellRising b m = true) : cellRising b' m = true := by
  cases m with
  | nil => rfl
  | cons e m =>
    obtain ⟨k, v⟩ := e
    simp only [cellRising, Bool.and_eq_true, decide_eq_true_eq] at *
    exact ⟨lt_of_le_of_lt h hm.1, hm.2⟩

theorem cellRising_erase (b k : Nat) (m : Cells α) (hm : cellRising b m = true) : cellRising b (cellErase m k) = true := by
  induction m generalizing b with
  | nil => rfl
  | cons e m ih =>
    obtain ⟨k', v⟩ := e
    simp only [cellRising, Bool.and_eq_true, decide_eq_true_eq] at hm
    unfold cellErase
    split
    · exact ih b (cellRising_mono m (le_of_lt hm.1) hm.2)
    · simp only [cellRising, Bool.and_eq_true, decide_eq_true_eq]; exact ⟨hm.1, ih k' hm.2⟩

theorem cellRising_insert (b k : Nat) (v : α) (m : Cells α) (hb : b < k) (hm : cellRising b m = true) :
    cellRising b (cellInsert m k v) = true := by
  induction m generalizing b with
  | nil => simp [cellInsert, cellRising, hb]
  | cons e m ih =>
    obtain ⟨k', w⟩ := e
    simp only [cellRising, Bool.and_eq_true, decide_eq_true_eq] at hm
    unfold cellInsert
    split
    · rename_i h; simp [cellRising, hb, h, hm.2]
    · split
      · rename_i h; subst h; simp [cellRising, hb, hm.2]
      · rename_i h1 h2
        simp only [cellRising, Bool.and_eq_true, decide_eq_true_eq]
        exact ⟨hm.1, ih k' (by omega) hm.2⟩

theorem cellErase_subset (m : Cells α) (k : Nat) : ∀ e ∈ cellErase m k, e ∈ m := by
  induction m with
  | nil => simp [cellErase]
  | cons e m ih =>
    obtain ⟨k', v⟩ := e
    unfold cellErase
    split
    · intro x hx; exact List.mem_cons_of_mem _ (ih x hx)
    · intro x hx
      rcases List.mem_cons.1 hx with h | h
      · exact h ▸ List.mem_cons_self
      · exact List.mem_cons_of_mem _ (ih x h)

theorem cellInsert_subset (m : Cells α) (k : Nat) (v : α) : ∀ e ∈ cellInsert m k v, e = (k, v) ∨ e ∈ m := by
  induction m with
  | nil => simp [cellInsert]
  | cons e m ih =>
    obtain ⟨k', w⟩ := e
    unfold cellInsert
    split
    · intro x hx; simpa using hx
    · split
      · intro x hx
        rcases List.mem_cons.1 hx with h | h
        · exact .inl h
        · exact .inr (List.mem_cons_of_mem _ h)
      · intro x hx
        rcases List.mem_cons.1 hx with h | h
        · exact .inr (h ▸ List.mem_cons_self)
        · rcases ih x h with h | h
          · exact .inl h
          · exact .inr (List.mem_cons_of_mem _ h)

/-- The canonical form in two parts: keys rise, and no entry equals what its key reads as when unlisted. -/
theorem cellWf_iff [DecidableEq α] (d : Nat → α) (m : Cells α) :
    cellWf d m = true ↔ (m = [] ∨ ∃ k v t, m = (k, v) :: t ∧ cellRising k t = true) ∧ ∀ e ∈ m, e.2 ≠ d e.1 := by
  cases m with
  | nil => simp [cellWf]
  | cons e m =>
    obtain ⟨k, v⟩ := e
    simp [cellWf, and_assoc]

theorem cellWf_of_rising [DecidableEq α] (d : Nat → α) (b : Nat) (m : Cells α) (h : cellRising b m = true)
    (hv : ∀ e ∈ m, e.2 ≠ d e.1) : cellWf d m = true := by
  rw [cellWf_iff]
  refine ⟨?_, hv⟩
  cases m with
  | nil => exact .inl rfl
  | cons e m =>
    obtain ⟨k, v⟩ := e
    simp only [cellRising, Bool.and_eq_true] at h
    exact .inr ⟨k, v, m, rfl, h.2⟩

theorem cellWf_erase [DecidableEq α] (d : Nat → α) (m : Cells α) (k : Nat) (h : cellWf d m = true) :
    cellWf d (cellErase m k) = true := by
  obtain ⟨hr, hv⟩ := (cellWf_iff d m).1 h
  have hv' : ∀ e ∈ cellErase m k, e.2 ≠ d e.1 := fun e he => hv e (cellErase_subset m k e he)
  rcases hr with rfl | ⟨j, v, t, rfl, ht⟩
  · exact h
  · by_cases hk : k = j
    · rw [cellErase, if_pos hk] at hv' ⊢
      exact cellWf_of_rising d j _ (cellRising_erase j k t ht) hv'
    · rw [cellErase, if_neg hk] at hv' ⊢
      exact (cellWf_iff d _).2 ⟨.inr ⟨j, v, _, rfl, cellRising_erase j k t ht⟩, hv'⟩

theorem cellWf_insert [DecidableEq α] (d : Nat → α) (m : Cells α) (k : Nat) (v : α) (hk : v ≠ d k)
    (h : cellWf d m = true) : cellWf d (cellInsert m k v) = true := by
  obtain ⟨hr, hv⟩ := (cellWf_iff d m).1 h
  have hv' : ∀ e ∈ cellInsert m k v, e.2 ≠ d e.1 := by
    intro e he
    rcases cellInsert_subset m k v e he with h | h
    · exact h ▸ hk
    · exact hv e h
  rcases hr with rfl | ⟨j, w, t, rfl, ht⟩
  · exact (cellWf_iff d _).2 ⟨.inr ⟨k, v, [], rfl, rfl⟩, hv'⟩
  · refine (cellWf_iff d _).2 ⟨.inr ?_, hv'⟩
    unfold cellInsert
    split
    · rename_i hj; exact ⟨k, v, _, rfl, by simp [cellRising, hj, ht]⟩
    · split
      · rename_i hj; subst hj; exact ⟨k, v, t, rfl, ht⟩
      · exact ⟨j, w, _, rfl, cellRising_insert j k v t (by omega) ht⟩

/-- A write keeps the canonical form. -/
theorem cellWf_cellSet [DecidableEq α] (d : Nat → α) (m : Cells α) (k : Nat) (v : α) (h : cellWf d m = true) :
    cellWf d (cellSet (d k) m k v) = true := by
  unfold cellSet
  split
  · exact cellWf_erase d m k h
  · rename_i hk; exact cellWf_insert d m k v hk h

end Sys2Proof.Machine
end

