-- ==== Sys2Proof/Laws/Line.lean ====
section
/-! SUPPORT. Laws of the line code: what a lane pair and the scrambler do is undone on the other side; and what a step that
waits for an engine's write comes to. -/
namespace Sys2Proof.Machine

/-- The receiver's payload is the sender's, from equal scrambled bits before it (R239). -/
theorem descramble_scramble (l : List Bool) (h : Nat) : descramble h (scramble h l) = l := by
  induction l generalizing h with
  | nil => rfl
  | cons d l ih => simp only [scramble, descramble]; rw [ih]; cases d <;> cases histTap h <;> rfl

theorem scramble_length (l : List Bool) (h : Nat) : (scramble h l).length = l.length := by
  induction l generalizing h with
  | nil => rfl
  | cons d l ih => simp only [scramble, List.length_cons, ih]

/-- Two lanes split from a pair-wise bit list bond into it again (R242). -/
theorem bond_split (l : List (Bool × Bool)) :
    rxBond (everyOther (l.flatMap (fun p => [p.1, p.2]))) (everyOther ((l.flatMap (fun p => [p.1, p.2])).drop 1))
      = (l.flatMap (fun p => [p.1, p.2]), [], []) := by
  induction l with
  | nil => rfl
  | cons p l ih =>
    cases l with
    | nil => rfl
    | cons q l =>
      rw [List.flatMap_cons]
      exact congrArg (fun r : List Bool × List Bool × List Bool => (p.1 :: p.2 :: r.1, r.2)) ih

/-- A step of a master that is not cleated and has no write held is not held (R330, R377). -/
theorem afterWrite_run (m : Nat) (x : AfterWrite) (f : Dev → Dev) (d : Dev) (h : cleated d m = false)
    (g : stepsHeld d m = false) : afterWrite m x f d = f d := by
  unfold afterWrite; simp [h, g]

/-- A step of a cleated master waits, and does nothing else (R377). -/
theorem afterWrite_held (m : Nat) (x : AfterWrite) (f : Dev → Dev) (d : Dev) (h : cleated d m = true) :
    afterWrite m x f d = afterCleat m x d := by
  unfold afterWrite; simp [h]

end Sys2Proof.Machine
end

