-- ==== Sys2Proof/Laws/State.lean ====
section
/-! SUPPORT. One lemma per field per update: what a register write, an output and the passing of time leave as it was. -/
namespace Sys2Proof.Machine

@[simp] theorem Dev.setReg_power (d : Dev) (a : Nat) (w : Word) : (d.setReg a w).power = d.power := rfl
@[simp] theorem Dev.setReg_pwrEn (d : Dev) (a : Nat) (w : Word) : (d.setReg a w).pwrEn = d.pwrEn := rfl
@[simp] theorem Dev.setReg_sleepAt (d : Dev) (a : Nat) (w : Word) : (d.setReg a w).sleepAt = d.sleepAt := rfl
@[simp] theorem Dev.setReg_now (d : Dev) (a : Nat) (w : Word) : (d.setReg a w).now = d.now := rfl
@[simp] theorem Dev.setReg_resetAt (d : Dev) (a : Nat) (w : Word) : (d.setReg a w).resetAt = d.resetAt := rfl
@[simp] theorem Dev.setReg_clk (d : Dev) (a : Nat) (w : Word) : (d.setReg a w).clk = d.clk := rfl
@[simp] theorem Dev.setReg_sysReq (d : Dev) (a : Nat) (w : Word) : (d.setReg a w).sysReq = d.sysReq := rfl
@[simp] theorem Dev.setReg_sysHold (d : Dev) (a : Nat) (w : Word) : (d.setReg a w).sysHold = d.sysHold := rfl
@[simp] theorem Dev.setReg_burnReq (d : Dev) (a : Nat) (w : Word) : (d.setReg a w).burnReq = d.burnReq := rfl
@[simp] theorem Dev.setReg_out (d : Dev) (a : Nat) (w : Word) : (d.setReg a w).out = d.out := rfl
@[simp] theorem Dev.setReg_freeCtr (d : Dev) (a : Nat) (w : Word) : (d.setReg a w).freeCtr = d.freeCtr := rfl
@[simp] theorem Dev.setReg_busResp (d : Dev) (a : Nat) (w : Word) : (d.setReg a w).busResp = d.busResp := rfl
@[simp] theorem Dev.setReg_pins (d : Dev) (a : Nat) (w : Word) : (d.setReg a w).pins = d.pins := rfl
@[simp] theorem Dev.setReg_lastBeat (d : Dev) (a : Nat) (w : Word) : (d.setReg a w).lastBeat = d.lastBeat := rfl
@[simp] theorem Dev.setReg_armed (d : Dev) (a : Nat) (w : Word) : (d.setReg a w).armed = d.armed := rfl
@[simp] theorem Dev.setReg_planCheck (d : Dev) (a : Nat) (w : Word) : (d.setReg a w).planCheck = d.planCheck := rfl
@[simp] theorem Dev.setReg_evq (d : Dev) (a : Nat) (w : Word) : (d.setReg a w).evq = d.evq := rfl
@[simp] theorem Dev.setReg_versions (d : Dev) (a : Nat) (w : Word) : (d.setReg a w).versions = d.versions := rfl
@[simp] theorem Dev.setReg_liveOrd (d : Dev) (a : Nat) (w : Word) : (d.setReg a w).liveOrd = d.liveOrd := rfl
@[simp] theorem Dev.setReg_planeLive (d : Dev) (a : Nat) (w : Word) : (d.setReg a w).planeLive = d.planeLive := rfl
@[simp] theorem Dev.setReg_epoch0 (d : Dev) (a : Nat) (w : Word) : (d.setReg a w).epoch0 = d.epoch0 := rfl
@[simp] theorem Dev.setReg_cutoffDone (d : Dev) (a : Nat) (w : Word) : (d.setReg a w).cutoffDone = d.cutoffDone := rfl
@[simp] theorem Dev.setReg_stopMode (d : Dev) (a : Nat) (w : Word) : (d.setReg a w).stopMode = d.stopMode := rfl
@[simp] theorem Dev.setReg_stopOrd (d : Dev) (a : Nat) (w : Word) : (d.setReg a w).stopOrd = d.stopOrd := rfl
@[simp] theorem Dev.setReg_planJob (d : Dev) (a : Nat) (w : Word) : (d.setReg a w).planJob = d.planJob := rfl
@[simp] theorem Dev.setReg_passWritten (d : Dev) (a : Nat) (w : Word) : (d.setReg a w).passWritten = d.passWritten := rfl
@[simp] theorem Dev.setReg_nozSh (d : Dev) (a : Nat) (w : Word) : (d.setReg a w).nozSh = d.nozSh := rfl
@[simp] theorem Dev.setReg_tileSh (d : Dev) (a : Nat) (w : Word) : (d.setReg a w).tileSh = d.tileSh := rfl
@[simp] theorem Dev.setReg_waveSh (d : Dev) (a : Nat) (w : Word) : (d.setReg a w).waveSh = d.waveSh := rfl
@[simp] theorem Dev.setReg_ftrimSh (d : Dev) (a : Nat) (w : Word) : (d.setReg a w).ftrimSh = d.ftrimSh := rfl
@[simp] theorem Dev.setReg_dtrimSh (d : Dev) (a : Nat) (w : Word) : (d.setReg a w).dtrimSh = d.dtrimSh := rfl
@[simp] theorem Dev.setReg_shAt (d : Dev) (a : Nat) (w : Word) : (d.setReg a w).shAt = d.shAt := rfl
@[simp] theorem Dev.setReg_shOld (d : Dev) (a : Nat) (w : Word) : (d.setReg a w).shOld = d.shOld := rfl
@[simp] theorem Dev.setReg_encs (d : Dev) (a : Nat) (w : Word) : (d.setReg a w).encs = d.encs := rfl
@[simp] theorem Dev.setReg_qdIn (d : Dev) (a : Nat) (w : Word) : (d.setReg a w).qdIn = d.qdIn := rfl
@[simp] theorem Dev.setReg_venc (d : Dev) (a : Nat) (w : Word) : (d.setReg a w).venc = d.venc := rfl
@[simp] theorem Dev.setReg_vencIdle (d : Dev) (a : Nat) (w : Word) : (d.setReg a w).vencIdle = d.vencIdle := rfl
@[simp] theorem Dev.setReg_vencFresh (d : Dev) (a : Nat) (w : Word) : (d.setReg a w).vencFresh = d.vencFresh := rfl
@[simp] theorem Dev.setReg_pubFb (d : Dev) (a : Nat) (w : Word) : (d.setReg a w).pubFb = d.pubFb := rfl
@[simp] theorem Dev.setReg_pubDelta (d : Dev) (a : Nat) (w : Word) : (d.setReg a w).pubDelta = d.pubDelta := rfl
@[simp] theorem Dev.setReg_vencSeqs (d : Dev) (a : Nat) (w : Word) : (d.setReg a w).vencSeqs = d.vencSeqs := rfl
@[simp] theorem Dev.setReg_vencAt (d : Dev) (a : Nat) (w : Word) : (d.setReg a w).vencAt = d.vencAt := rfl
@[simp] theorem Dev.setReg_vencOut (d : Dev) (a : Nat) (w : Word) : (d.setReg a w).vencOut = d.vencOut := rfl
@[simp] theorem Dev.setReg_vencPrev (d : Dev) (a : Nat) (w : Word) : (d.setReg a w).vencPrev = d.vencPrev := rfl
@[simp] theorem Dev.setReg_tm (d : Dev) (a : Nat) (w : Word) : (d.setReg a w).tm = d.tm := rfl
@[simp] theorem Dev.setReg_path (d : Dev) (a : Nat) (w : Word) : (d.setReg a w).path = d.path := rfl
@[simp] theorem Dev.setReg_jtp (d : Dev) (a : Nat) (w : Word) : (d.setReg a w).jtp = d.jtp := rfl
@[simp] theorem Dev.setReg_cmp (d : Dev) (a : Nat) (w : Word) : (d.setReg a w).cmp = d.cmp := rfl
@[simp] theorem Dev.setReg_codecErrHeld (d : Dev) (a : Nat) (w : Word) : (d.setReg a w).codecErrHeld = d.codecErrHeld := rfl
@[simp] theorem Dev.setReg_streams (d : Dev) (a : Nat) (w : Word) : (d.setReg a w).streams = d.streams := rfl
@[simp] theorem Dev.setReg_corPending (d : Dev) (a : Nat) (w : Word) : (d.setReg a w).corPending = d.corPending := rfl
@[simp] theorem Dev.setReg_copies (d : Dev) (a : Nat) (w : Word) : (d.setReg a w).copies = d.copies := rfl
@[simp] theorem Dev.setReg_planes (d : Dev) (a : Nat) (w : Word) : (d.setReg a w).planes = d.planes := rfl
@[simp] theorem Dev.setReg_plogHeld (d : Dev) (a : Nat) (w : Word) : (d.setReg a w).plogHeld = d.plogHeld := rfl
@[simp] theorem Dev.setReg_plogReserve (d : Dev) (a : Nat) (w : Word) : (d.setReg a w).plogReserve = d.plogReserve := rfl
@[simp] theorem Dev.setReg_plogLost (d : Dev) (a : Nat) (w : Word) : (d.setReg a w).plogLost = d.plogLost := rfl
@[simp] theorem Dev.setReg_wear (d : Dev) (a : Nat) (w : Word) : (d.setReg a w).wear = d.wear := rfl
@[simp] theorem Dev.setReg_nozHi (d : Dev) (a : Nat) (w : Word) : (d.setReg a w).nozHi = d.nozHi := rfl
@[simp] theorem Dev.setReg_wearHi (d : Dev) (a : Nat) (w : Word) : (d.setReg a w).wearHi = d.wearHi := rfl
@[simp] theorem Dev.setReg_heads (d : Dev) (a : Nat) (w : Word) : (d.setReg a w).heads = d.heads := rfl
@[simp] theorem Dev.setReg_taus (d : Dev) (a : Nat) (w : Word) : (d.setReg a w).taus = d.taus := rfl
@[simp] theorem Dev.setReg_tapSeen (d : Dev) (a : Nat) (w : Word) : (d.setReg a w).tapSeen = d.tapSeen := rfl
@[simp] theorem Dev.setReg_rejects (d : Dev) (a : Nat) (w : Word) : (d.setReg a w).rejects = d.rejects := rfl
@[simp] theorem Dev.setReg_rejectPts (d : Dev) (a : Nat) (w : Word) : (d.setReg a w).rejectPts = d.rejectPts := rfl
@[simp] theorem Dev.setReg_rejectEnd (d : Dev) (a : Nat) (w : Word) : (d.setReg a w).rejectEnd = d.rejectEnd := rfl
@[simp] theorem Dev.setReg_schedDue (d : Dev) (a : Nat) (w : Word) : (d.setReg a w).schedDue = d.schedDue := rfl
@[simp] theorem Dev.setReg_links (d : Dev) (a : Nat) (w : Word) : (d.setReg a w).links = d.links := rfl
@[simp] theorem Dev.setReg_sscLag (d : Dev) (a : Nat) (w : Word) : (d.setReg a w).sscLag = d.sscLag := rfl
@[simp] theorem Dev.setReg_sscAt (d : Dev) (a : Nat) (w : Word) : (d.setReg a w).sscAt = d.sscAt := rfl
@[simp] theorem Dev.setReg_stay (d : Dev) (a : Nat) (w : Word) : (d.setReg a w).stay = d.stay := rfl
@[simp] theorem Dev.setReg_insp (d : Dev) (a : Nat) (w : Word) : (d.setReg a w).insp = d.insp := rfl
@[simp] theorem Dev.setReg_mot (d : Dev) (a : Nat) (w : Word) : (d.setReg a w).mot = d.mot := rfl
@[simp] theorem Dev.setReg_dram (d : Dev) (a : Nat) (w : Word) : (d.setReg a w).dram = d.dram := rfl
@[simp] theorem Dev.setReg_ue (d : Dev) (a : Nat) (w : Word) : (d.setReg a w).ue = d.ue := rfl
@[simp] theorem Dev.setReg_remap (d : Dev) (a : Nat) (w : Word) : (d.setReg a w).remap = d.remap := rfl
@[simp] theorem Dev.setReg_autoWant (d : Dev) (a : Nat) (w : Word) : (d.setReg a w).autoWant = d.autoWant := rfl
@[simp] theorem Dev.setReg_training (d : Dev) (a : Nat) (w : Word) : (d.setReg a w).training = d.training := rfl
@[simp] theorem Dev.setReg_trainedRates (d : Dev) (a : Nat) (w : Word) : (d.setReg a w).trainedRates = d.trainedRates := rfl
@[simp] theorem Dev.setReg_eyes (d : Dev) (a : Nat) (w : Word) : (d.setReg a w).eyes = d.eyes := rfl
@[simp] theorem Dev.setReg_refsbCount (d : Dev) (a : Nat) (w : Word) : (d.setReg a w).refsbCount = d.refsbCount := rfl
@[simp] theorem Dev.setReg_trackLane (d : Dev) (a : Nat) (w : Word) : (d.setReg a w).trackLane = d.trackLane := rfl
@[simp] theorem Dev.setReg_rankDown (d : Dev) (a : Nat) (w : Word) : (d.setReg a w).rankDown = d.rankDown := rfl
@[simp] theorem Dev.setReg_rankUsed (d : Dev) (a : Nat) (w : Word) : (d.setReg a w).rankUsed = d.rankUsed := rfl
@[simp] theorem Dev.setReg_rows (d : Dev) (a : Nat) (w : Word) : (d.setReg a w).rows = d.rows := rfl
@[simp] theorem Dev.setReg_throttled (d : Dev) (a : Nat) (w : Word) : (d.setReg a w).throttled = d.throttled := rfl
@[simp] theorem Dev.setReg_dramHeld (d : Dev) (a : Nat) (w : Word) : (d.setReg a w).dramHeld = d.dramHeld := rfl
@[simp] theorem Dev.setReg_banks (d : Dev) (a : Nat) (w : Word) : (d.setReg a w).banks = d.banks := rfl
@[simp] theorem Dev.setReg_lastAct (d : Dev) (a : Nat) (w : Word) : (d.setReg a w).lastAct = d.lastAct := rfl
@[simp] theorem Dev.setReg_stalled (d : Dev) (a : Nat) (w : Word) : (d.setReg a w).stalled = d.stalled := rfl
@[simp] theorem Dev.setReg_scrubPos (d : Dev) (a : Nat) (w : Word) : (d.setReg a w).scrubPos = d.scrubPos := rfl
@[simp] theorem Dev.setReg_leakAt (d : Dev) (a : Nat) (w : Word) : (d.setReg a w).leakAt = d.leakAt := rfl
@[simp] theorem Dev.setReg_leakUndo (d : Dev) (a : Nat) (w : Word) : (d.setReg a w).leakUndo = d.leakUndo := rfl
@[simp] theorem Dev.setReg_corePc (d : Dev) (a : Nat) (w : Word) : (d.setReg a w).corePc = d.corePc := rfl
@[simp] theorem Dev.setReg_spurWatch (d : Dev) (a : Nat) (w : Word) : (d.setReg a w).spurWatch = d.spurWatch := rfl
@[simp] theorem Dev.setReg_mgmtReq (d : Dev) (a : Nat) (w : Word) : (d.setReg a w).mgmtReq = d.mgmtReq := rfl
@[simp] theorem Dev.setReg_wdogAt (d : Dev) (a : Nat) (w : Word) : (d.setReg a w).wdogAt = d.wdogAt := rfl
@[simp] theorem Dev.setReg_wdogHit (d : Dev) (a : Nat) (w : Word) : (d.setReg a w).wdogHit = d.wdogHit := rfl
@[simp] theorem Dev.setReg_wakeLatch (d : Dev) (a : Nat) (w : Word) : (d.setReg a w).wakeLatch = d.wakeLatch := rfl
@[simp] theorem Dev.setReg_l2Ram (d : Dev) (a : Nat) (w : Word) : (d.setReg a w).l2Ram = d.l2Ram := rfl
@[simp] theorem Dev.setReg_l2 (d : Dev) (a : Nat) (w : Word) : (d.setReg a w).l2 = d.l2 := rfl
@[simp] theorem Dev.setReg_enHeld (d : Dev) (a : Nat) (w : Word) : (d.setReg a w).enHeld = d.enHeld := rfl
@[simp] theorem Dev.setReg_regions (d : Dev) (a : Nat) (w : Word) : (d.setReg a w).regions = d.regions := rfl
@[simp] theorem Dev.setReg_heldSteps (d : Dev) (a : Nat) (w : Word) : (d.setReg a w).heldSteps = d.heldSteps := rfl
@[simp] theorem Dev.setReg_regWrites (d : Dev) (a : Nat) (w : Word) : (d.setReg a w).regWrites = d.regWrites := rfl
@[simp] theorem Dev.setReg_vioAt (d : Dev) (a : Nat) (w : Word) : (d.setReg a w).vioAt = d.vioAt := rfl
@[simp] theorem Dev.setReg_trim (d : Dev) (a : Nat) (w : Word) : (d.setReg a w).trim = d.trim := rfl
@[simp] theorem Dev.setReg_reef (d : Dev) (a : Nat) (w : Word) : (d.setReg a w).reef = d.reef := rfl
@[simp] theorem Dev.setReg_booted (d : Dev) (a : Nat) (w : Word) : (d.setReg a w).booted = d.booted := rfl
@[simp] theorem Dev.setReg_bootHalted (d : Dev) (a : Nat) (w : Word) : (d.setReg a w).bootHalted = d.bootHalted := rfl
@[simp] theorem Dev.setReg_runRollback (d : Dev) (a : Nat) (w : Word) : (d.setReg a w).runRollback = d.runRollback := rfl
@[simp] theorem Dev.setReg_pllLostAt (d : Dev) (a : Nat) (w : Word) : (d.setReg a w).pllLostAt = d.pllLostAt := rfl
@[simp] theorem Dev.setReg_warmLen (d : Dev) (a : Nat) (w : Word) : (d.setReg a w).warmLen = d.warmLen := rfl
@[simp] theorem Dev.setReg_warmEntry (d : Dev) (a : Nat) (w : Word) : (d.setReg a w).warmEntry = d.warmEntry := rfl
@[simp] theorem Dev.setReg_warmRollback (d : Dev) (a : Nat) (w : Word) : (d.setReg a w).warmRollback = d.warmRollback := rfl
@[simp] theorem Dev.setReg_warmVersion (d : Dev) (a : Nat) (w : Word) : (d.setReg a w).warmVersion = d.warmVersion := rfl
@[simp] theorem Dev.setReg_standbyAt (d : Dev) (a : Nat) (w : Word) : (d.setReg a w).standbyAt = d.standbyAt := rfl

@[simp] theorem Dev.put_power (d : Dev) (f : RegField) (v : Nat) : (d.put f v).power = d.power := rfl
@[simp] theorem Dev.put_pwrEn (d : Dev) (f : RegField) (v : Nat) : (d.put f v).pwrEn = d.pwrEn := rfl
@[simp] theorem Dev.put_sleepAt (d : Dev) (f : RegField) (v : Nat) : (d.put f v).sleepAt = d.sleepAt := rfl
@[simp] theorem Dev.put_now (d : Dev) (f : RegField) (v : Nat) : (d.put f v).now = d.now := rfl
@[simp] theorem Dev.put_resetAt (d : Dev) (f : RegField) (v : Nat) : (d.put f v).resetAt = d.resetAt := rfl
@[simp] theorem Dev.put_clk (d : Dev) (f : RegField) (v : Nat) : (d.put f v).clk = d.clk := rfl
@[simp] theorem Dev.put_sysReq (d : Dev) (f : RegField) (v : Nat) : (d.put f v).sysReq = d.sysReq := rfl
@[simp] theorem Dev.put_sysHold (d : Dev) (f : RegField) (v : Nat) : (d.put f v).sysHold = d.sysHold := rfl
@[simp] theorem Dev.put_burnReq (d : Dev) (f : RegField) (v : Nat) : (d.put f v).burnReq = d.burnReq := rfl
@[simp] theorem Dev.put_out (d : Dev) (f : RegField) (v : Nat) : (d.put f v).out = d.out := rfl
@[simp] theorem Dev.put_freeCtr (d : Dev) (f : RegField) (v : Nat) : (d.put f v).freeCtr = d.freeCtr := rfl
@[simp] theorem Dev.put_busResp (d : Dev) (f : RegField) (v : Nat) : (d.put f v).busResp = d.busResp := rfl
@[simp] theorem Dev.put_pins (d : Dev) (f : RegField) (v : Nat) : (d.put f v).pins = d.pins := rfl
@[simp] theorem Dev.put_lastBeat (d : Dev) (f : RegField) (v : Nat) : (d.put f v).lastBeat = d.lastBeat := rfl
@[simp] theorem Dev.put_armed (d : Dev) (f : RegField) (v : Nat) : (d.put f v).armed = d.armed := rfl
@[simp] theorem Dev.put_planCheck (d : Dev) (f : RegField) (v : Nat) : (d.put f v).planCheck = d.planCheck := rfl
@[simp] theorem Dev.put_evq (d : Dev) (f : RegField) (v : Nat) : (d.put f v).evq = d.evq := rfl
@[simp] theorem Dev.put_versions (d : Dev) (f : RegField) (v : Nat) : (d.put f v).versions = d.versions := rfl
@[simp] theorem Dev.put_liveOrd (d : Dev) (f : RegField) (v : Nat) : (d.put f v).liveOrd = d.liveOrd := rfl
@[simp] theorem Dev.put_planeLive (d : Dev) (f : RegField) (v : Nat) : (d.put f v).planeLive = d.planeLive := rfl
@[simp] theorem Dev.put_epoch0 (d : Dev) (f : RegField) (v : Nat) : (d.put f v).epoch0 = d.epoch0 := rfl
@[simp] theorem Dev.put_cutoffDone (d : Dev) (f : RegField) (v : Nat) : (d.put f v).cutoffDone = d.cutoffDone := rfl
@[simp] theorem Dev.put_stopMode (d : Dev) (f : RegField) (v : Nat) : (d.put f v).stopMode = d.stopMode := rfl
@[simp] theorem Dev.put_stopOrd (d : Dev) (f : RegField) (v : Nat) : (d.put f v).stopOrd = d.stopOrd := rfl
@[simp] theorem Dev.put_planJob (d : Dev) (f : RegField) (v : Nat) : (d.put f v).planJob = d.planJob := rfl
@[simp] theorem Dev.put_passWritten (d : Dev) (f : RegField) (v : Nat) : (d.put f v).passWritten = d.passWritten := rfl
@[simp] theorem Dev.put_nozSh (d : Dev) (f : RegField) (v : Nat) : (d.put f v).nozSh = d.nozSh := rfl
@[simp] theorem Dev.put_tileSh (d : Dev) (f : RegField) (v : Nat) : (d.put f v).tileSh = d.tileSh := rfl
@[simp] theorem Dev.put_waveSh (d : Dev) (f : RegField) (v : Nat) : (d.put f v).waveSh = d.waveSh := rfl
@[simp] theorem Dev.put_ftrimSh (d : Dev) (f : RegField) (v : Nat) : (d.put f v).ftrimSh = d.ftrimSh := rfl
@[simp] theorem Dev.put_dtrimSh (d : Dev) (f : RegField) (v : Nat) : (d.put f v).dtrimSh = d.dtrimSh := rfl
@[simp] theorem Dev.put_shAt (d : Dev) (f : RegField) (v : Nat) : (d.put f v).shAt = d.shAt := rfl
@[simp] theorem Dev.put_shOld (d : Dev) (f : RegField) (v : Nat) : (d.put f v).shOld = d.shOld := rfl
@[simp] theorem Dev.put_encs (d : Dev) (f : RegField) (v : Nat) : (d.put f v).encs = d.encs := rfl
@[simp] theorem Dev.put_qdIn (d : Dev) (f : RegField) (v : Nat) : (d.put f v).qdIn = d.qdIn := rfl
@[simp] theorem Dev.put_venc (d : Dev) (f : RegField) (v : Nat) : (d.put f v).venc = d.venc := rfl
@[simp] theorem Dev.put_vencIdle (d : Dev) (f : RegField) (v : Nat) : (d.put f v).vencIdle = d.vencIdle := rfl
@[simp] theorem Dev.put_vencFresh (d : Dev) (f : RegField) (v : Nat) : (d.put f v).vencFresh = d.vencFresh := rfl
@[simp] theorem Dev.put_pubFb (d : Dev) (f : RegField) (v : Nat) : (d.put f v).pubFb = d.pubFb := rfl
@[simp] theorem Dev.put_pubDelta (d : Dev) (f : RegField) (v : Nat) : (d.put f v).pubDelta = d.pubDelta := rfl
@[simp] theorem Dev.put_vencSeqs (d : Dev) (f : RegField) (v : Nat) : (d.put f v).vencSeqs = d.vencSeqs := rfl
@[simp] theorem Dev.put_vencAt (d : Dev) (f : RegField) (v : Nat) : (d.put f v).vencAt = d.vencAt := rfl
@[simp] theorem Dev.put_vencOut (d : Dev) (f : RegField) (v : Nat) : (d.put f v).vencOut = d.vencOut := rfl
@[simp] theorem Dev.put_vencPrev (d : Dev) (f : RegField) (v : Nat) : (d.put f v).vencPrev = d.vencPrev := rfl
@[simp] theorem Dev.put_tm (d : Dev) (f : RegField) (v : Nat) : (d.put f v).tm = d.tm := rfl
@[simp] theorem Dev.put_path (d : Dev) (f : RegField) (v : Nat) : (d.put f v).path = d.path := rfl
@[simp] theorem Dev.put_jtp (d : Dev) (f : RegField) (v : Nat) : (d.put f v).jtp = d.jtp := rfl
@[simp] theorem Dev.put_cmp (d : Dev) (f : RegField) (v : Nat) : (d.put f v).cmp = d.cmp := rfl
@[simp] theorem Dev.put_codecErrHeld (d : Dev) (f : RegField) (v : Nat) : (d.put f v).codecErrHeld = d.codecErrHeld := rfl
@[simp] theorem Dev.put_streams (d : Dev) (f : RegField) (v : Nat) : (d.put f v).streams = d.streams := rfl
@[simp] theorem Dev.put_corPending (d : Dev) (f : RegField) (v : Nat) : (d.put f v).corPending = d.corPending := rfl
@[simp] theorem Dev.put_copies (d : Dev) (f : RegField) (v : Nat) : (d.put f v).copies = d.copies := rfl
@[simp] theorem Dev.put_planes (d : Dev) (f : RegField) (v : Nat) : (d.put f v).planes = d.planes := rfl
@[simp] theorem Dev.put_plogHeld (d : Dev) (f : RegField) (v : Nat) : (d.put f v).plogHeld = d.plogHeld := rfl
@[simp] theorem Dev.put_plogReserve (d : Dev) (f : RegField) (v : Nat) : (d.put f v).plogReserve = d.plogReserve := rfl
@[simp] theorem Dev.put_plogLost (d : Dev) (f : RegField) (v : Nat) : (d.put f v).plogLost = d.plogLost := rfl
@[simp] theorem Dev.put_wear (d : Dev) (f : RegField) (v : Nat) : (d.put f v).wear = d.wear := rfl
@[simp] theorem Dev.put_nozHi (d : Dev) (f : RegField) (v : Nat) : (d.put f v).nozHi = d.nozHi := rfl
@[simp] theorem Dev.put_wearHi (d : Dev) (f : RegField) (v : Nat) : (d.put f v).wearHi = d.wearHi := rfl
@[simp] theorem Dev.put_heads (d : Dev) (f : RegField) (v : Nat) : (d.put f v).heads = d.heads := rfl
@[simp] theorem Dev.put_taus (d : Dev) (f : RegField) (v : Nat) : (d.put f v).taus = d.taus := rfl
@[simp] theorem Dev.put_tapSeen (d : Dev) (f : RegField) (v : Nat) : (d.put f v).tapSeen = d.tapSeen := rfl
@[simp] theorem Dev.put_rejects (d : Dev) (f : RegField) (v : Nat) : (d.put f v).rejects = d.rejects := rfl
@[simp] theorem Dev.put_rejectPts (d : Dev) (f : RegField) (v : Nat) : (d.put f v).rejectPts = d.rejectPts := rfl
@[simp] theorem Dev.put_rejectEnd (d : Dev) (f : RegField) (v : Nat) : (d.put f v).rejectEnd = d.rejectEnd := rfl
@[simp] theorem Dev.put_schedDue (d : Dev) (f : RegField) (v : Nat) : (d.put f v).schedDue = d.schedDue := rfl
@[simp] theorem Dev.put_links (d : Dev) (f : RegField) (v : Nat) : (d.put f v).links = d.links := rfl
@[simp] theorem Dev.put_sscLag (d : Dev) (f : RegField) (v : Nat) : (d.put f v).sscLag = d.sscLag := rfl
@[simp] theorem Dev.put_sscAt (d : Dev) (f : RegField) (v : Nat) : (d.put f v).sscAt = d.sscAt := rfl
@[simp] theorem Dev.put_stay (d : Dev) (f : RegField) (v : Nat) : (d.put f v).stay = d.stay := rfl
@[simp] theorem Dev.put_insp (d : Dev) (f : RegField) (v : Nat) : (d.put f v).insp = d.insp := rfl
@[simp] theorem Dev.put_mot (d : Dev) (f : RegField) (v : Nat) : (d.put f v).mot = d.mot := rfl
@[simp] theorem Dev.put_dram (d : Dev) (f : RegField) (v : Nat) : (d.put f v).dram = d.dram := rfl
@[simp] theorem Dev.put_ue (d : Dev) (f : RegField) (v : Nat) : (d.put f v).ue = d.ue := rfl
@[simp] theorem Dev.put_remap (d : Dev) (f : RegField) (v : Nat) : (d.put f v).remap = d.remap := rfl
@[simp] theorem Dev.put_autoWant (d : Dev) (f : RegField) (v : Nat) : (d.put f v).autoWant = d.autoWant := rfl
@[simp] theorem Dev.put_training (d : Dev) (f : RegField) (v : Nat) : (d.put f v).training = d.training := rfl
@[simp] theorem Dev.put_trainedRates (d : Dev) (f : RegField) (v : Nat) : (d.put f v).trainedRates = d.trainedRates := rfl
@[simp] theorem Dev.put_eyes (d : Dev) (f : RegField) (v : Nat) : (d.put f v).eyes = d.eyes := rfl
@[simp] theorem Dev.put_refsbCount (d : Dev) (f : RegField) (v : Nat) : (d.put f v).refsbCount = d.refsbCount := rfl
@[simp] theorem Dev.put_trackLane (d : Dev) (f : RegField) (v : Nat) : (d.put f v).trackLane = d.trackLane := rfl
@[simp] theorem Dev.put_rankDown (d : Dev) (f : RegField) (v : Nat) : (d.put f v).rankDown = d.rankDown := rfl
@[simp] theorem Dev.put_rankUsed (d : Dev) (f : RegField) (v : Nat) : (d.put f v).rankUsed = d.rankUsed := rfl
@[simp] theorem Dev.put_rows (d : Dev) (f : RegField) (v : Nat) : (d.put f v).rows = d.rows := rfl
@[simp] theorem Dev.put_throttled (d : Dev) (f : RegField) (v : Nat) : (d.put f v).throttled = d.throttled := rfl
@[simp] theorem Dev.put_dramHeld (d : Dev) (f : RegField) (v : Nat) : (d.put f v).dramHeld = d.dramHeld := rfl
@[simp] theorem Dev.put_banks (d : Dev) (f : RegField) (v : Nat) : (d.put f v).banks = d.banks := rfl
@[simp] theorem Dev.put_lastAct (d : Dev) (f : RegField) (v : Nat) : (d.put f v).lastAct = d.lastAct := rfl
@[simp] theorem Dev.put_stalled (d : Dev) (f : RegField) (v : Nat) : (d.put f v).stalled = d.stalled := rfl
@[simp] theorem Dev.put_scrubPos (d : Dev) (f : RegField) (v : Nat) : (d.put f v).scrubPos = d.scrubPos := rfl
@[simp] theorem Dev.put_leakAt (d : Dev) (f : RegField) (v : Nat) : (d.put f v).leakAt = d.leakAt := rfl
@[simp] theorem Dev.put_leakUndo (d : Dev) (f : RegField) (v : Nat) : (d.put f v).leakUndo = d.leakUndo := rfl
@[simp] theorem Dev.put_corePc (d : Dev) (f : RegField) (v : Nat) : (d.put f v).corePc = d.corePc := rfl
@[simp] theorem Dev.put_spurWatch (d : Dev) (f : RegField) (v : Nat) : (d.put f v).spurWatch = d.spurWatch := rfl
@[simp] theorem Dev.put_mgmtReq (d : Dev) (f : RegField) (v : Nat) : (d.put f v).mgmtReq = d.mgmtReq := rfl
@[simp] theorem Dev.put_wdogAt (d : Dev) (f : RegField) (v : Nat) : (d.put f v).wdogAt = d.wdogAt := rfl
@[simp] theorem Dev.put_wdogHit (d : Dev) (f : RegField) (v : Nat) : (d.put f v).wdogHit = d.wdogHit := rfl
@[simp] theorem Dev.put_wakeLatch (d : Dev) (f : RegField) (v : Nat) : (d.put f v).wakeLatch = d.wakeLatch := rfl
@[simp] theorem Dev.put_l2Ram (d : Dev) (f : RegField) (v : Nat) : (d.put f v).l2Ram = d.l2Ram := rfl
@[simp] theorem Dev.put_l2 (d : Dev) (f : RegField) (v : Nat) : (d.put f v).l2 = d.l2 := rfl
@[simp] theorem Dev.put_enHeld (d : Dev) (f : RegField) (v : Nat) : (d.put f v).enHeld = d.enHeld := rfl
@[simp] theorem Dev.put_regions (d : Dev) (f : RegField) (v : Nat) : (d.put f v).regions = d.regions := rfl
@[simp] theorem Dev.put_heldSteps (d : Dev) (f : RegField) (v : Nat) : (d.put f v).heldSteps = d.heldSteps := rfl
@[simp] theorem Dev.put_regWrites (d : Dev) (f : RegField) (v : Nat) : (d.put f v).regWrites = d.regWrites := rfl
@[simp] theorem Dev.put_vioAt (d : Dev) (f : RegField) (v : Nat) : (d.put f v).vioAt = d.vioAt := rfl
@[simp] theorem Dev.put_trim (d : Dev) (f : RegField) (v : Nat) : (d.put f v).trim = d.trim := rfl
@[simp] theorem Dev.put_reef (d : Dev) (f : RegField) (v : Nat) : (d.put f v).reef = d.reef := rfl
@[simp] theorem Dev.put_booted (d : Dev) (f : RegField) (v : Nat) : (d.put f v).booted = d.booted := rfl
@[simp] theorem Dev.put_bootHalted (d : Dev) (f : RegField) (v : Nat) : (d.put f v).bootHalted = d.bootHalted := rfl
@[simp] theorem Dev.put_runRollback (d : Dev) (f : RegField) (v : Nat) : (d.put f v).runRollback = d.runRollback := rfl
@[simp] theorem Dev.put_pllLostAt (d : Dev) (f : RegField) (v : Nat) : (d.put f v).pllLostAt = d.pllLostAt := rfl
@[simp] theorem Dev.put_warmLen (d : Dev) (f : RegField) (v : Nat) : (d.put f v).warmLen = d.warmLen := rfl
@[simp] theorem Dev.put_warmEntry (d : Dev) (f : RegField) (v : Nat) : (d.put f v).warmEntry = d.warmEntry := rfl
@[simp] theorem Dev.put_warmRollback (d : Dev) (f : RegField) (v : Nat) : (d.put f v).warmRollback = d.warmRollback := rfl
@[simp] theorem Dev.put_warmVersion (d : Dev) (f : RegField) (v : Nat) : (d.put f v).warmVersion = d.warmVersion := rfl
@[simp] theorem Dev.put_standbyAt (d : Dev) (f : RegField) (v : Nat) : (d.put f v).standbyAt = d.standbyAt := rfl

@[simp] theorem Dev.putB_power (d : Dev) (f : RegField) (b : Bool) : (d.putB f b).power = d.power := rfl
@[simp] theorem Dev.putB_pwrEn (d : Dev) (f : RegField) (b : Bool) : (d.putB f b).pwrEn = d.pwrEn := rfl
@[simp] theorem Dev.putB_sleepAt (d : Dev) (f : RegField) (b : Bool) : (d.putB f b).sleepAt = d.sleepAt := rfl
@[simp] theorem Dev.putB_now (d : Dev) (f : RegField) (b : Bool) : (d.putB f b).now = d.now := rfl
@[simp] theorem Dev.putB_resetAt (d : Dev) (f : RegField) (b : Bool) : (d.putB f b).resetAt = d.resetAt := rfl
@[simp] theorem Dev.putB_clk (d : Dev) (f : RegField) (b : Bool) : (d.putB f b).clk = d.clk := rfl
@[simp] theorem Dev.putB_sysReq (d : Dev) (f : RegField) (b : Bool) : (d.putB f b).sysReq = d.sysReq := rfl
@[simp] theorem Dev.putB_sysHold (d : Dev) (f : RegField) (b : Bool) : (d.putB f b).sysHold = d.sysHold := rfl
@[simp] theorem Dev.putB_burnReq (d : Dev) (f : RegField) (b : Bool) : (d.putB f b).burnReq = d.burnReq := rfl
@[simp] theorem Dev.putB_out (d : Dev) (f : RegField) (b : Bool) : (d.putB f b).out = d.out := rfl
@[simp] theorem Dev.putB_freeCtr (d : Dev) (f : RegField) (b : Bool) : (d.putB f b).freeCtr = d.freeCtr := rfl
@[simp] theorem Dev.putB_busResp (d : Dev) (f : RegField) (b : Bool) : (d.putB f b).busResp = d.busResp := rfl
@[simp] theorem Dev.putB_pins (d : Dev) (f : RegField) (b : Bool) : (d.putB f b).pins = d.pins := rfl
@[simp] theorem Dev.putB_lastBeat (d : Dev) (f : RegField) (b : Bool) : (d.putB f b).lastBeat = d.lastBeat := rfl
@[simp] theorem Dev.putB_armed (d : Dev) (f : RegField) (b : Bool) : (d.putB f b).armed = d.armed := rfl
@[simp] theorem Dev.putB_planCheck (d : Dev) (f : RegField) (b : Bool) : (d.putB f b).planCheck = d.planCheck := rfl
@[simp] theorem Dev.putB_evq (d : Dev) (f : RegField) (b : Bool) : (d.putB f b).evq = d.evq := rfl
@[simp] theorem Dev.putB_versions (d : Dev) (f : RegField) (b : Bool) : (d.putB f b).versions = d.versions := rfl
@[simp] theorem Dev.putB_liveOrd (d : Dev) (f : RegField) (b : Bool) : (d.putB f b).liveOrd = d.liveOrd := rfl
@[simp] theorem Dev.putB_planeLive (d : Dev) (f : RegField) (b : Bool) : (d.putB f b).planeLive = d.planeLive := rfl
@[simp] theorem Dev.putB_epoch0 (d : Dev) (f : RegField) (b : Bool) : (d.putB f b).epoch0 = d.epoch0 := rfl
@[simp] theorem Dev.putB_cutoffDone (d : Dev) (f : RegField) (b : Bool) : (d.putB f b).cutoffDone = d.cutoffDone := rfl
@[simp] theorem Dev.putB_stopMode (d : Dev) (f : RegField) (b : Bool) : (d.putB f b).stopMode = d.stopMode := rfl
@[simp] theorem Dev.putB_stopOrd (d : Dev) (f : RegField) (b : Bool) : (d.putB f b).stopOrd = d.stopOrd := rfl
@[simp] theorem Dev.putB_planJob (d : Dev) (f : RegField) (b : Bool) : (d.putB f b).planJob = d.planJob := rfl
@[simp] theorem Dev.putB_passWritten (d : Dev) (f : RegField) (b : Bool) : (d.putB f b).passWritten = d.passWritten := rfl
@[simp] theorem Dev.putB_nozSh (d : Dev) (f : RegField) (b : Bool) : (d.putB f b).nozSh = d.nozSh := rfl
@[simp] theorem Dev.putB_tileSh (d : Dev) (f : RegField) (b : Bool) : (d.putB f b).tileSh = d.tileSh := rfl
@[simp] theorem Dev.putB_waveSh (d : Dev) (f : RegField) (b : Bool) : (d.putB f b).waveSh = d.waveSh := rfl
@[simp] theorem Dev.putB_ftrimSh (d : Dev) (f : RegField) (b : Bool) : (d.putB f b).ftrimSh = d.ftrimSh := rfl
@[simp] theorem Dev.putB_dtrimSh (d : Dev) (f : RegField) (b : Bool) : (d.putB f b).dtrimSh = d.dtrimSh := rfl
@[simp] theorem Dev.putB_shAt (d : Dev) (f : RegField) (b : Bool) : (d.putB f b).shAt = d.shAt := rfl
@[simp] theorem Dev.putB_shOld (d : Dev) (f : RegField) (b : Bool) : (d.putB f b).shOld = d.shOld := rfl
@[simp] theorem Dev.putB_encs (d : Dev) (f : RegField) (b : Bool) : (d.putB f b).encs = d.encs := rfl
@[simp] theorem Dev.putB_qdIn (d : Dev) (f : RegField) (b : Bool) : (d.putB f b).qdIn = d.qdIn := rfl
@[simp] theorem Dev.putB_venc (d : Dev) (f : RegField) (b : Bool) : (d.putB f b).venc = d.venc := rfl
@[simp] theorem Dev.putB_vencIdle (d : Dev) (f : RegField) (b : Bool) : (d.putB f b).vencIdle = d.vencIdle := rfl
@[simp] theorem Dev.putB_vencFresh (d : Dev) (f : RegField) (b : Bool) : (d.putB f b).vencFresh = d.vencFresh := rfl
@[simp] theorem Dev.putB_pubFb (d : Dev) (f : RegField) (b : Bool) : (d.putB f b).pubFb = d.pubFb := rfl
@[simp] theorem Dev.putB_pubDelta (d : Dev) (f : RegField) (b : Bool) : (d.putB f b).pubDelta = d.pubDelta := rfl
@[simp] theorem Dev.putB_vencSeqs (d : Dev) (f : RegField) (b : Bool) : (d.putB f b).vencSeqs = d.vencSeqs := rfl
@[simp] theorem Dev.putB_vencAt (d : Dev) (f : RegField) (b : Bool) : (d.putB f b).vencAt = d.vencAt := rfl
@[simp] theorem Dev.putB_vencOut (d : Dev) (f : RegField) (b : Bool) : (d.putB f b).vencOut = d.vencOut := rfl
@[simp] theorem Dev.putB_vencPrev (d : Dev) (f : RegField) (b : Bool) : (d.putB f b).vencPrev = d.vencPrev := rfl
@[simp] theorem Dev.putB_tm (d : Dev) (f : RegField) (b : Bool) : (d.putB f b).tm = d.tm := rfl
@[simp] theorem Dev.putB_path (d : Dev) (f : RegField) (b : Bool) : (d.putB f b).path = d.path := rfl
@[simp] theorem Dev.putB_jtp (d : Dev) (f : RegField) (b : Bool) : (d.putB f b).jtp = d.jtp := rfl
@[simp] theorem Dev.putB_cmp (d : Dev) (f : RegField) (b : Bool) : (d.putB f b).cmp = d.cmp := rfl
@[simp] theorem Dev.putB_codecErrHeld (d : Dev) (f : RegField) (b : Bool) : (d.putB f b).codecErrHeld = d.codecErrHeld := rfl
@[simp] theorem Dev.putB_streams (d : Dev) (f : RegField) (b : Bool) : (d.putB f b).streams = d.streams := rfl
@[simp] theorem Dev.putB_corPending (d : Dev) (f : RegField) (b : Bool) : (d.putB f b).corPending = d.corPending := rfl
@[simp] theorem Dev.putB_copies (d : Dev) (f : RegField) (b : Bool) : (d.putB f b).copies = d.copies := rfl
@[simp] theorem Dev.putB_planes (d : Dev) (f : RegField) (b : Bool) : (d.putB f b).planes = d.planes := rfl
@[simp] theorem Dev.putB_plogHeld (d : Dev) (f : RegField) (b : Bool) : (d.putB f b).plogHeld = d.plogHeld := rfl
@[simp] theorem Dev.putB_plogReserve (d : Dev) (f : RegField) (b : Bool) : (d.putB f b).plogReserve = d.plogReserve := rfl
@[simp] theorem Dev.putB_plogLost (d : Dev) (f : RegField) (b : Bool) : (d.putB f b).plogLost = d.plogLost := rfl
@[simp] theorem Dev.putB_wear (d : Dev) (f : RegField) (b : Bool) : (d.putB f b).wear = d.wear := rfl
@[simp] theorem Dev.putB_nozHi (d : Dev) (f : RegField) (b : Bool) : (d.putB f b).nozHi = d.nozHi := rfl
@[simp] theorem Dev.putB_wearHi (d : Dev) (f : RegField) (b : Bool) : (d.putB f b).wearHi = d.wearHi := rfl
@[simp] theorem Dev.putB_heads (d : Dev) (f : RegField) (b : Bool) : (d.putB f b).heads = d.heads := rfl
@[simp] theorem Dev.putB_taus (d : Dev) (f : RegField) (b : Bool) : (d.putB f b).taus = d.taus := rfl
@[simp] theorem Dev.putB_tapSeen (d : Dev) (f : RegField) (b : Bool) : (d.putB f b).tapSeen = d.tapSeen := rfl
@[simp] theorem Dev.putB_rejects (d : Dev) (f : RegField) (b : Bool) : (d.putB f b).rejects = d.rejects := rfl
@[simp] theorem Dev.putB_rejectPts (d : Dev) (f : RegField) (b : Bool) : (d.putB f b).rejectPts = d.rejectPts := rfl
@[simp] theorem Dev.putB_rejectEnd (d : Dev) (f : RegField) (b : Bool) : (d.putB f b).rejectEnd = d.rejectEnd := rfl
@[simp] theorem Dev.putB_schedDue (d : Dev) (f : RegField) (b : Bool) : (d.putB f b).schedDue = d.schedDue := rfl
@[simp] theorem Dev.putB_links (d : Dev) (f : RegField) (b : Bool) : (d.putB f b).links = d.links := rfl
@[simp] theorem Dev.putB_sscLag (d : Dev) (f : RegField) (b : Bool) : (d.putB f b).sscLag = d.sscLag := rfl
@[simp] theorem Dev.putB_sscAt (d : Dev) (f : RegField) (b : Bool) : (d.putB f b).sscAt = d.sscAt := rfl
@[simp] theorem Dev.putB_stay (d : Dev) (f : RegField) (b : Bool) : (d.putB f b).stay = d.stay := rfl
@[simp] theorem Dev.putB_insp (d : Dev) (f : RegField) (b : Bool) : (d.putB f b).insp = d.insp := rfl
@[simp] theorem Dev.putB_mot (d : Dev) (f : RegField) (b : Bool) : (d.putB f b).mot = d.mot := rfl
@[simp] theorem Dev.putB_dram (d : Dev) (f : RegField) (b : Bool) : (d.putB f b).dram = d.dram := rfl
@[simp] theorem Dev.putB_ue (d : Dev) (f : RegField) (b : Bool) : (d.putB f b).ue = d.ue := rfl
@[simp] theorem Dev.putB_remap (d : Dev) (f : RegField) (b : Bool) : (d.putB f b).remap = d.remap := rfl
@[simp] theorem Dev.putB_autoWant (d : Dev) (f : RegField) (b : Bool) : (d.putB f b).autoWant = d.autoWant := rfl
@[simp] theorem Dev.putB_training (d : Dev) (f : RegField) (b : Bool) : (d.putB f b).training = d.training := rfl
@[simp] theorem Dev.putB_trainedRates (d : Dev) (f : RegField) (b : Bool) : (d.putB f b).trainedRates = d.trainedRates := rfl
@[simp] theorem Dev.putB_eyes (d : Dev) (f : RegField) (b : Bool) : (d.putB f b).eyes = d.eyes := rfl
@[simp] theorem Dev.putB_refsbCount (d : Dev) (f : RegField) (b : Bool) : (d.putB f b).refsbCount = d.refsbCount := rfl
@[simp] theorem Dev.putB_trackLane (d : Dev) (f : RegField) (b : Bool) : (d.putB f b).trackLane = d.trackLane := rfl
@[simp] theorem Dev.putB_rankDown (d : Dev) (f : RegField) (b : Bool) : (d.putB f b).rankDown = d.rankDown := rfl
@[simp] theorem Dev.putB_rankUsed (d : Dev) (f : RegField) (b : Bool) : (d.putB f b).rankUsed = d.rankUsed := rfl
@[simp] theorem Dev.putB_rows (d : Dev) (f : RegField) (b : Bool) : (d.putB f b).rows = d.rows := rfl
@[simp] theorem Dev.putB_throttled (d : Dev) (f : RegField) (b : Bool) : (d.putB f b).throttled = d.throttled := rfl
@[simp] theorem Dev.putB_dramHeld (d : Dev) (f : RegField) (b : Bool) : (d.putB f b).dramHeld = d.dramHeld := rfl
@[simp] theorem Dev.putB_banks (d : Dev) (f : RegField) (b : Bool) : (d.putB f b).banks = d.banks := rfl
@[simp] theorem Dev.putB_lastAct (d : Dev) (f : RegField) (b : Bool) : (d.putB f b).lastAct = d.lastAct := rfl
@[simp] theorem Dev.putB_stalled (d : Dev) (f : RegField) (b : Bool) : (d.putB f b).stalled = d.stalled := rfl
@[simp] theorem Dev.putB_scrubPos (d : Dev) (f : RegField) (b : Bool) : (d.putB f b).scrubPos = d.scrubPos := rfl
@[simp] theorem Dev.putB_leakAt (d : Dev) (f : RegField) (b : Bool) : (d.putB f b).leakAt = d.leakAt := rfl
@[simp] theorem Dev.putB_leakUndo (d : Dev) (f : RegField) (b : Bool) : (d.putB f b).leakUndo = d.leakUndo := rfl
@[simp] theorem Dev.putB_corePc (d : Dev) (f : RegField) (b : Bool) : (d.putB f b).corePc = d.corePc := rfl
@[simp] theorem Dev.putB_spurWatch (d : Dev) (f : RegField) (b : Bool) : (d.putB f b).spurWatch = d.spurWatch := rfl
@[simp] theorem Dev.putB_mgmtReq (d : Dev) (f : RegField) (b : Bool) : (d.putB f b).mgmtReq = d.mgmtReq := rfl
@[simp] theorem Dev.putB_wdogAt (d : Dev) (f : RegField) (b : Bool) : (d.putB f b).wdogAt = d.wdogAt := rfl
@[simp] theorem Dev.putB_wdogHit (d : Dev) (f : RegField) (b : Bool) : (d.putB f b).wdogHit = d.wdogHit := rfl
@[simp] theorem Dev.putB_wakeLatch (d : Dev) (f : RegField) (b : Bool) : (d.putB f b).wakeLatch = d.wakeLatch := rfl
@[simp] theorem Dev.putB_l2Ram (d : Dev) (f : RegField) (b : Bool) : (d.putB f b).l2Ram = d.l2Ram := rfl
@[simp] theorem Dev.putB_l2 (d : Dev) (f : RegField) (b : Bool) : (d.putB f b).l2 = d.l2 := rfl
@[simp] theorem Dev.putB_enHeld (d : Dev) (f : RegField) (b : Bool) : (d.putB f b).enHeld = d.enHeld := rfl
@[simp] theorem Dev.putB_regions (d : Dev) (f : RegField) (b : Bool) : (d.putB f b).regions = d.regions := rfl
@[simp] theorem Dev.putB_heldSteps (d : Dev) (f : RegField) (b : Bool) : (d.putB f b).heldSteps = d.heldSteps := rfl
@[simp] theorem Dev.putB_regWrites (d : Dev) (f : RegField) (b : Bool) : (d.putB f b).regWrites = d.regWrites := rfl
@[simp] theorem Dev.putB_vioAt (d : Dev) (f : RegField) (b : Bool) : (d.putB f b).vioAt = d.vioAt := rfl
@[simp] theorem Dev.putB_trim (d : Dev) (f : RegField) (b : Bool) : (d.putB f b).trim = d.trim := rfl
@[simp] theorem Dev.putB_reef (d : Dev) (f : RegField) (b : Bool) : (d.putB f b).reef = d.reef := rfl
@[simp] theorem Dev.putB_booted (d : Dev) (f : RegField) (b : Bool) : (d.putB f b).booted = d.booted := rfl
@[simp] theorem Dev.putB_bootHalted (d : Dev) (f : RegField) (b : Bool) : (d.putB f b).bootHalted = d.bootHalted := rfl
@[simp] theorem Dev.putB_runRollback (d : Dev) (f : RegField) (b : Bool) : (d.putB f b).runRollback = d.runRollback := rfl
@[simp] theorem Dev.putB_pllLostAt (d : Dev) (f : RegField) (b : Bool) : (d.putB f b).pllLostAt = d.pllLostAt := rfl
@[simp] theorem Dev.putB_warmLen (d : Dev) (f : RegField) (b : Bool) : (d.putB f b).warmLen = d.warmLen := rfl
@[simp] theorem Dev.putB_warmEntry (d : Dev) (f : RegField) (b : Bool) : (d.putB f b).warmEntry = d.warmEntry := rfl
@[simp] theorem Dev.putB_warmRollback (d : Dev) (f : RegField) (b : Bool) : (d.putB f b).warmRollback = d.warmRollback := rfl
@[simp] theorem Dev.putB_warmVersion (d : Dev) (f : RegField) (b : Bool) : (d.putB f b).warmVersion = d.warmVersion := rfl
@[simp] theorem Dev.putB_standbyAt (d : Dev) (f : RegField) (b : Bool) : (d.putB f b).standbyAt = d.standbyAt := rfl

@[simp] theorem Dev.putI_power (d : Dev) (f : RegField) (v : Int) : (d.putI f v).power = d.power := rfl
@[simp] theorem Dev.putI_pwrEn (d : Dev) (f : RegField) (v : Int) : (d.putI f v).pwrEn = d.pwrEn := rfl
@[simp] theorem Dev.putI_sleepAt (d : Dev) (f : RegField) (v : Int) : (d.putI f v).sleepAt = d.sleepAt := rfl
@[simp] theorem Dev.putI_now (d : Dev) (f : RegField) (v : Int) : (d.putI f v).now = d.now := rfl
@[simp] theorem Dev.putI_resetAt (d : Dev) (f : RegField) (v : Int) : (d.putI f v).resetAt = d.resetAt := rfl
@[simp] theorem Dev.putI_clk (d : Dev) (f : RegField) (v : Int) : (d.putI f v).clk = d.clk := rfl
@[simp] theorem Dev.putI_sysReq (d : Dev) (f : RegField) (v : Int) : (d.putI f v).sysReq = d.sysReq := rfl
@[simp] theorem Dev.putI_sysHold (d : Dev) (f : RegField) (v : Int) : (d.putI f v).sysHold = d.sysHold := rfl
@[simp] theorem Dev.putI_burnReq (d : Dev) (f : RegField) (v : Int) : (d.putI f v).burnReq = d.burnReq := rfl
@[simp] theorem Dev.putI_out (d : Dev) (f : RegField) (v : Int) : (d.putI f v).out = d.out := rfl
@[simp] theorem Dev.putI_freeCtr (d : Dev) (f : RegField) (v : Int) : (d.putI f v).freeCtr = d.freeCtr := rfl
@[simp] theorem Dev.putI_busResp (d : Dev) (f : RegField) (v : Int) : (d.putI f v).busResp = d.busResp := rfl
@[simp] theorem Dev.putI_pins (d : Dev) (f : RegField) (v : Int) : (d.putI f v).pins = d.pins := rfl
@[simp] theorem Dev.putI_lastBeat (d : Dev) (f : RegField) (v : Int) : (d.putI f v).lastBeat = d.lastBeat := rfl
@[simp] theorem Dev.putI_armed (d : Dev) (f : RegField) (v : Int) : (d.putI f v).armed = d.armed := rfl
@[simp] theorem Dev.putI_planCheck (d : Dev) (f : RegField) (v : Int) : (d.putI f v).planCheck = d.planCheck := rfl
@[simp] theorem Dev.putI_evq (d : Dev) (f : RegField) (v : Int) : (d.putI f v).evq = d.evq := rfl
@[simp] theorem Dev.putI_versions (d : Dev) (f : RegField) (v : Int) : (d.putI f v).versions = d.versions := rfl
@[simp] theorem Dev.putI_liveOrd (d : Dev) (f : RegField) (v : Int) : (d.putI f v).liveOrd = d.liveOrd := rfl
@[simp] theorem Dev.putI_planeLive (d : Dev) (f : RegField) (v : Int) : (d.putI f v).planeLive = d.planeLive := rfl
@[simp] theorem Dev.putI_epoch0 (d : Dev) (f : RegField) (v : Int) : (d.putI f v).epoch0 = d.epoch0 := rfl
@[simp] theorem Dev.putI_cutoffDone (d : Dev) (f : RegField) (v : Int) : (d.putI f v).cutoffDone = d.cutoffDone := rfl
@[simp] theorem Dev.putI_stopMode (d : Dev) (f : RegField) (v : Int) : (d.putI f v).stopMode = d.stopMode := rfl
@[simp] theorem Dev.putI_stopOrd (d : Dev) (f : RegField) (v : Int) : (d.putI f v).stopOrd = d.stopOrd := rfl
@[simp] theorem Dev.putI_planJob (d : Dev) (f : RegField) (v : Int) : (d.putI f v).planJob = d.planJob := rfl
@[simp] theorem Dev.putI_passWritten (d : Dev) (f : RegField) (v : Int) : (d.putI f v).passWritten = d.passWritten := rfl
@[simp] theorem Dev.putI_nozSh (d : Dev) (f : RegField) (v : Int) : (d.putI f v).nozSh = d.nozSh := rfl
@[simp] theorem Dev.putI_tileSh (d : Dev) (f : RegField) (v : Int) : (d.putI f v).tileSh = d.tileSh := rfl
@[simp] theorem Dev.putI_waveSh (d : Dev) (f : RegField) (v : Int) : (d.putI f v).waveSh = d.waveSh := rfl
@[simp] theorem Dev.putI_ftrimSh (d : Dev) (f : RegField) (v : Int) : (d.putI f v).ftrimSh = d.ftrimSh := rfl
@[simp] theorem Dev.putI_dtrimSh (d : Dev) (f : RegField) (v : Int) : (d.putI f v).dtrimSh = d.dtrimSh := rfl
@[simp] theorem Dev.putI_shAt (d : Dev) (f : RegField) (v : Int) : (d.putI f v).shAt = d.shAt := rfl
@[simp] theorem Dev.putI_shOld (d : Dev) (f : RegField) (v : Int) : (d.putI f v).shOld = d.shOld := rfl
@[simp] theorem Dev.putI_encs (d : Dev) (f : RegField) (v : Int) : (d.putI f v).encs = d.encs := rfl
@[simp] theorem Dev.putI_qdIn (d : Dev) (f : RegField) (v : Int) : (d.putI f v).qdIn = d.qdIn := rfl
@[simp] theorem Dev.putI_venc (d : Dev) (f : RegField) (v : Int) : (d.putI f v).venc = d.venc := rfl
@[simp] theorem Dev.putI_vencIdle (d : Dev) (f : RegField) (v : Int) : (d.putI f v).vencIdle = d.vencIdle := rfl
@[simp] theorem Dev.putI_vencFresh (d : Dev) (f : RegField) (v : Int) : (d.putI f v).vencFresh = d.vencFresh := rfl
@[simp] theorem Dev.putI_pubFb (d : Dev) (f : RegField) (v : Int) : (d.putI f v).pubFb = d.pubFb := rfl
@[simp] theorem Dev.putI_pubDelta (d : Dev) (f : RegField) (v : Int) : (d.putI f v).pubDelta = d.pubDelta := rfl
@[simp] theorem Dev.putI_vencSeqs (d : Dev) (f : RegField) (v : Int) : (d.putI f v).vencSeqs = d.vencSeqs := rfl
@[simp] theorem Dev.putI_vencAt (d : Dev) (f : RegField) (v : Int) : (d.putI f v).vencAt = d.vencAt := rfl
@[simp] theorem Dev.putI_vencOut (d : Dev) (f : RegField) (v : Int) : (d.putI f v).vencOut = d.vencOut := rfl
@[simp] theorem Dev.putI_vencPrev (d : Dev) (f : RegField) (v : Int) : (d.putI f v).vencPrev = d.vencPrev := rfl
@[simp] theorem Dev.putI_tm (d : Dev) (f : RegField) (v : Int) : (d.putI f v).tm = d.tm := rfl
@[simp] theorem Dev.putI_path (d : Dev) (f : RegField) (v : Int) : (d.putI f v).path = d.path := rfl
@[simp] theorem Dev.putI_jtp (d : Dev) (f : RegField) (v : Int) : (d.putI f v).jtp = d.jtp := rfl
@[simp] theorem Dev.putI_cmp (d : Dev) (f : RegField) (v : Int) : (d.putI f v).cmp = d.cmp := rfl
@[simp] theorem Dev.putI_codecErrHeld (d : Dev) (f : RegField) (v : Int) : (d.putI f v).codecErrHeld = d.codecErrHeld := rfl
@[simp] theorem Dev.putI_streams (d : Dev) (f : RegField) (v : Int) : (d.putI f v).streams = d.streams := rfl
@[simp] theorem Dev.putI_corPending (d : Dev) (f : RegField) (v : Int) : (d.putI f v).corPending = d.corPending := rfl
@[simp] theorem Dev.putI_copies (d : Dev) (f : RegField) (v : Int) : (d.putI f v).copies = d.copies := rfl
@[simp] theorem Dev.putI_planes (d : Dev) (f : RegField) (v : Int) : (d.putI f v).planes = d.planes := rfl
@[simp] theorem Dev.putI_plogHeld (d : Dev) (f : RegField) (v : Int) : (d.putI f v).plogHeld = d.plogHeld := rfl
@[simp] theorem Dev.putI_plogReserve (d : Dev) (f : RegField) (v : Int) : (d.putI f v).plogReserve = d.plogReserve := rfl
@[simp] theorem Dev.putI_plogLost (d : Dev) (f : RegField) (v : Int) : (d.putI f v).plogLost = d.plogLost := rfl
@[simp] theorem Dev.putI_wear (d : Dev) (f : RegField) (v : Int) : (d.putI f v).wear = d.wear := rfl
@[simp] theorem Dev.putI_nozHi (d : Dev) (f : RegField) (v : Int) : (d.putI f v).nozHi = d.nozHi := rfl
@[simp] theorem Dev.putI_wearHi (d : Dev) (f : RegField) (v : Int) : (d.putI f v).wearHi = d.wearHi := rfl
@[simp] theorem Dev.putI_heads (d : Dev) (f : RegField) (v : Int) : (d.putI f v).heads = d.heads := rfl
@[simp] theorem Dev.putI_taus (d : Dev) (f : RegField) (v : Int) : (d.putI f v).taus = d.taus := rfl
@[simp] theorem Dev.putI_tapSeen (d : Dev) (f : RegField) (v : Int) : (d.putI f v).tapSeen = d.tapSeen := rfl
@[simp] theorem Dev.putI_rejects (d : Dev) (f : RegField) (v : Int) : (d.putI f v).rejects = d.rejects := rfl
@[simp] theorem Dev.putI_rejectPts (d : Dev) (f : RegField) (v : Int) : (d.putI f v).rejectPts = d.rejectPts := rfl
@[simp] theorem Dev.putI_rejectEnd (d : Dev) (f : RegField) (v : Int) : (d.putI f v).rejectEnd = d.rejectEnd := rfl
@[simp] theorem Dev.putI_schedDue (d : Dev) (f : RegField) (v : Int) : (d.putI f v).schedDue = d.schedDue := rfl
@[simp] theorem Dev.putI_links (d : Dev) (f : RegField) (v : Int) : (d.putI f v).links = d.links := rfl
@[simp] theorem Dev.putI_sscLag (d : Dev) (f : RegField) (v : Int) : (d.putI f v).sscLag = d.sscLag := rfl
@[simp] theorem Dev.putI_sscAt (d : Dev) (f : RegField) (v : Int) : (d.putI f v).sscAt = d.sscAt := rfl
@[simp] theorem Dev.putI_stay (d : Dev) (f : RegField) (v : Int) : (d.putI f v).stay = d.stay := rfl
@[simp] theorem Dev.putI_insp (d : Dev) (f : RegField) (v : Int) : (d.putI f v).insp = d.insp := rfl
@[simp] theorem Dev.putI_mot (d : Dev) (f : RegField) (v : Int) : (d.putI f v).mot = d.mot := rfl
@[simp] theorem Dev.putI_dram (d : Dev) (f : RegField) (v : Int) : (d.putI f v).dram = d.dram := rfl
@[simp] theorem Dev.putI_ue (d : Dev) (f : RegField) (v : Int) : (d.putI f v).ue = d.ue := rfl
@[simp] theorem Dev.putI_remap (d : Dev) (f : RegField) (v : Int) : (d.putI f v).remap = d.remap := rfl
@[simp] theorem Dev.putI_autoWant (d : Dev) (f : RegField) (v : Int) : (d.putI f v).autoWant = d.autoWant := rfl
@[simp] theorem Dev.putI_training (d : Dev) (f : RegField) (v : Int) : (d.putI f v).training = d.training := rfl
@[simp] theorem Dev.putI_trainedRates (d : Dev) (f : RegField) (v : Int) : (d.putI f v).trainedRates = d.trainedRates := rfl
@[simp] theorem Dev.putI_eyes (d : Dev) (f : RegField) (v : Int) : (d.putI f v).eyes = d.eyes := rfl
@[simp] theorem Dev.putI_refsbCount (d : Dev) (f : RegField) (v : Int) : (d.putI f v).refsbCount = d.refsbCount := rfl
@[simp] theorem Dev.putI_trackLane (d : Dev) (f : RegField) (v : Int) : (d.putI f v).trackLane = d.trackLane := rfl
@[simp] theorem Dev.putI_rankDown (d : Dev) (f : RegField) (v : Int) : (d.putI f v).rankDown = d.rankDown := rfl
@[simp] theorem Dev.putI_rankUsed (d : Dev) (f : RegField) (v : Int) : (d.putI f v).rankUsed = d.rankUsed := rfl
@[simp] theorem Dev.putI_rows (d : Dev) (f : RegField) (v : Int) : (d.putI f v).rows = d.rows := rfl
@[simp] theorem Dev.putI_throttled (d : Dev) (f : RegField) (v : Int) : (d.putI f v).throttled = d.throttled := rfl
@[simp] theorem Dev.putI_dramHeld (d : Dev) (f : RegField) (v : Int) : (d.putI f v).dramHeld = d.dramHeld := rfl
@[simp] theorem Dev.putI_banks (d : Dev) (f : RegField) (v : Int) : (d.putI f v).banks = d.banks := rfl
@[simp] theorem Dev.putI_lastAct (d : Dev) (f : RegField) (v : Int) : (d.putI f v).lastAct = d.lastAct := rfl
@[simp] theorem Dev.putI_stalled (d : Dev) (f : RegField) (v : Int) : (d.putI f v).stalled = d.stalled := rfl
@[simp] theorem Dev.putI_scrubPos (d : Dev) (f : RegField) (v : Int) : (d.putI f v).scrubPos = d.scrubPos := rfl
@[simp] theorem Dev.putI_leakAt (d : Dev) (f : RegField) (v : Int) : (d.putI f v).leakAt = d.leakAt := rfl
@[simp] theorem Dev.putI_leakUndo (d : Dev) (f : RegField) (v : Int) : (d.putI f v).leakUndo = d.leakUndo := rfl
@[simp] theorem Dev.putI_corePc (d : Dev) (f : RegField) (v : Int) : (d.putI f v).corePc = d.corePc := rfl
@[simp] theorem Dev.putI_spurWatch (d : Dev) (f : RegField) (v : Int) : (d.putI f v).spurWatch = d.spurWatch := rfl
@[simp] theorem Dev.putI_mgmtReq (d : Dev) (f : RegField) (v : Int) : (d.putI f v).mgmtReq = d.mgmtReq := rfl
@[simp] theorem Dev.putI_wdogAt (d : Dev) (f : RegField) (v : Int) : (d.putI f v).wdogAt = d.wdogAt := rfl
@[simp] theorem Dev.putI_wdogHit (d : Dev) (f : RegField) (v : Int) : (d.putI f v).wdogHit = d.wdogHit := rfl
@[simp] theorem Dev.putI_wakeLatch (d : Dev) (f : RegField) (v : Int) : (d.putI f v).wakeLatch = d.wakeLatch := rfl
@[simp] theorem Dev.putI_l2Ram (d : Dev) (f : RegField) (v : Int) : (d.putI f v).l2Ram = d.l2Ram := rfl
@[simp] theorem Dev.putI_l2 (d : Dev) (f : RegField) (v : Int) : (d.putI f v).l2 = d.l2 := rfl
@[simp] theorem Dev.putI_enHeld (d : Dev) (f : RegField) (v : Int) : (d.putI f v).enHeld = d.enHeld := rfl
@[simp] theorem Dev.putI_regions (d : Dev) (f : RegField) (v : Int) : (d.putI f v).regions = d.regions := rfl
@[simp] theorem Dev.putI_heldSteps (d : Dev) (f : RegField) (v : Int) : (d.putI f v).heldSteps = d.heldSteps := rfl
@[simp] theorem Dev.putI_regWrites (d : Dev) (f : RegField) (v : Int) : (d.putI f v).regWrites = d.regWrites := rfl
@[simp] theorem Dev.putI_vioAt (d : Dev) (f : RegField) (v : Int) : (d.putI f v).vioAt = d.vioAt := rfl
@[simp] theorem Dev.putI_trim (d : Dev) (f : RegField) (v : Int) : (d.putI f v).trim = d.trim := rfl
@[simp] theorem Dev.putI_reef (d : Dev) (f : RegField) (v : Int) : (d.putI f v).reef = d.reef := rfl
@[simp] theorem Dev.putI_booted (d : Dev) (f : RegField) (v : Int) : (d.putI f v).booted = d.booted := rfl
@[simp] theorem Dev.putI_bootHalted (d : Dev) (f : RegField) (v : Int) : (d.putI f v).bootHalted = d.bootHalted := rfl
@[simp] theorem Dev.putI_runRollback (d : Dev) (f : RegField) (v : Int) : (d.putI f v).runRollback = d.runRollback := rfl
@[simp] theorem Dev.putI_pllLostAt (d : Dev) (f : RegField) (v : Int) : (d.putI f v).pllLostAt = d.pllLostAt := rfl
@[simp] theorem Dev.putI_warmLen (d : Dev) (f : RegField) (v : Int) : (d.putI f v).warmLen = d.warmLen := rfl
@[simp] theorem Dev.putI_warmEntry (d : Dev) (f : RegField) (v : Int) : (d.putI f v).warmEntry = d.warmEntry := rfl
@[simp] theorem Dev.putI_warmRollback (d : Dev) (f : RegField) (v : Int) : (d.putI f v).warmRollback = d.warmRollback := rfl
@[simp] theorem Dev.putI_warmVersion (d : Dev) (f : RegField) (v : Int) : (d.putI f v).warmVersion = d.warmVersion := rfl
@[simp] theorem Dev.putI_standbyAt (d : Dev) (f : RegField) (v : Int) : (d.putI f v).standbyAt = d.standbyAt := rfl

@[simp] theorem Dev.count_power (d : Dev) (f : RegField) (n : Nat) : (d.count f n).power = d.power := rfl
@[simp] theorem Dev.count_pwrEn (d : Dev) (f : RegField) (n : Nat) : (d.count f n).pwrEn = d.pwrEn := rfl
@[simp] theorem Dev.count_sleepAt (d : Dev) (f : RegField) (n : Nat) : (d.count f n).sleepAt = d.sleepAt := rfl
@[simp] theorem Dev.count_now (d : Dev) (f : RegField) (n : Nat) : (d.count f n).now = d.now := rfl
@[simp] theorem Dev.count_resetAt (d : Dev) (f : RegField) (n : Nat) : (d.count f n).resetAt = d.resetAt := rfl
@[simp] theorem Dev.count_clk (d : Dev) (f : RegField) (n : Nat) : (d.count f n).clk = d.clk := rfl
@[simp] theorem Dev.count_sysReq (d : Dev) (f : RegField) (n : Nat) : (d.count f n).sysReq = d.sysReq := rfl
@[simp] theorem Dev.count_sysHold (d : Dev) (f : RegField) (n : Nat) : (d.count f n).sysHold = d.sysHold := rfl
@[simp] theorem Dev.count_burnReq (d : Dev) (f : RegField) (n : Nat) : (d.count f n).burnReq = d.burnReq := rfl
@[simp] theorem Dev.count_out (d : Dev) (f : RegField) (n : Nat) : (d.count f n).out = d.out := rfl
@[simp] theorem Dev.count_freeCtr (d : Dev) (f : RegField) (n : Nat) : (d.count f n).freeCtr = d.freeCtr := rfl
@[simp] theorem Dev.count_busResp (d : Dev) (f : RegField) (n : Nat) : (d.count f n).busResp = d.busResp := rfl
@[simp] theorem Dev.count_pins (d : Dev) (f : RegField) (n : Nat) : (d.count f n).pins = d.pins := rfl
@[simp] theorem Dev.count_lastBeat (d : Dev) (f : RegField) (n : Nat) : (d.count f n).lastBeat = d.lastBeat := rfl
@[simp] theorem Dev.count_armed (d : Dev) (f : RegField) (n : Nat) : (d.count f n).armed = d.armed := rfl
@[simp] theorem Dev.count_planCheck (d : Dev) (f : RegField) (n : Nat) : (d.count f n).planCheck = d.planCheck := rfl
@[simp] theorem Dev.count_evq (d : Dev) (f : RegField) (n : Nat) : (d.count f n).evq = d.evq := rfl
@[simp] theorem Dev.count_versions (d : Dev) (f : RegField) (n : Nat) : (d.count f n).versions = d.versions := rfl
@[simp] theorem Dev.count_liveOrd (d : Dev) (f : RegField) (n : Nat) : (d.count f n).liveOrd = d.liveOrd := rfl
@[simp] theorem Dev.count_planeLive (d : Dev) (f : RegField) (n : Nat) : (d.count f n).planeLive = d.planeLive := rfl
@[simp] theorem Dev.count_epoch0 (d : Dev) (f : RegField) (n : Nat) : (d.count f n).epoch0 = d.epoch0 := rfl
@[simp] theorem Dev.count_cutoffDone (d : Dev) (f : RegField) (n : Nat) : (d.count f n).cutoffDone = d.cutoffDone := rfl
@[simp] theorem Dev.count_stopMode (d : Dev) (f : RegField) (n : Nat) : (d.count f n).stopMode = d.stopMode := rfl
@[simp] theorem Dev.count_stopOrd (d : Dev) (f : RegField) (n : Nat) : (d.count f n).stopOrd = d.stopOrd := rfl
@[simp] theorem Dev.count_planJob (d : Dev) (f : RegField) (n : Nat) : (d.count f n).planJob = d.planJob := rfl
@[simp] theorem Dev.count_passWritten (d : Dev) (f : RegField) (n : Nat) : (d.count f n).passWritten = d.passWritten := rfl
@[simp] theorem Dev.count_nozSh (d : Dev) (f : RegField) (n : Nat) : (d.count f n).nozSh = d.nozSh := rfl
@[simp] theorem Dev.count_tileSh (d : Dev) (f : RegField) (n : Nat) : (d.count f n).tileSh = d.tileSh := rfl
@[simp] theorem Dev.count_waveSh (d : Dev) (f : RegField) (n : Nat) : (d.count f n).waveSh = d.waveSh := rfl
@[simp] theorem Dev.count_ftrimSh (d : Dev) (f : RegField) (n : Nat) : (d.count f n).ftrimSh = d.ftrimSh := rfl
@[simp] theorem Dev.count_dtrimSh (d : Dev) (f : RegField) (n : Nat) : (d.count f n).dtrimSh = d.dtrimSh := rfl
@[simp] theorem Dev.count_shAt (d : Dev) (f : RegField) (n : Nat) : (d.count f n).shAt = d.shAt := rfl
@[simp] theorem Dev.count_shOld (d : Dev) (f : RegField) (n : Nat) : (d.count f n).shOld = d.shOld := rfl
@[simp] theorem Dev.count_encs (d : Dev) (f : RegField) (n : Nat) : (d.count f n).encs = d.encs := rfl
@[simp] theorem Dev.count_qdIn (d : Dev) (f : RegField) (n : Nat) : (d.count f n).qdIn = d.qdIn := rfl
@[simp] theorem Dev.count_venc (d : Dev) (f : RegField) (n : Nat) : (d.count f n).venc = d.venc := rfl
@[simp] theorem Dev.count_vencIdle (d : Dev) (f : RegField) (n : Nat) : (d.count f n).vencIdle = d.vencIdle := rfl
@[simp] theorem Dev.count_vencFresh (d : Dev) (f : RegField) (n : Nat) : (d.count f n).vencFresh = d.vencFresh := rfl
@[simp] theorem Dev.count_pubFb (d : Dev) (f : RegField) (n : Nat) : (d.count f n).pubFb = d.pubFb := rfl
@[simp] theorem Dev.count_pubDelta (d : Dev) (f : RegField) (n : Nat) : (d.count f n).pubDelta = d.pubDelta := rfl
@[simp] theorem Dev.count_vencSeqs (d : Dev) (f : RegField) (n : Nat) : (d.count f n).vencSeqs = d.vencSeqs := rfl
@[simp] theorem Dev.count_vencAt (d : Dev) (f : RegField) (n : Nat) : (d.count f n).vencAt = d.vencAt := rfl
@[simp] theorem Dev.count_vencOut (d : Dev) (f : RegField) (n : Nat) : (d.count f n).vencOut = d.vencOut := rfl
@[simp] theorem Dev.count_vencPrev (d : Dev) (f : RegField) (n : Nat) : (d.count f n).vencPrev = d.vencPrev := rfl
@[simp] theorem Dev.count_tm (d : Dev) (f : RegField) (n : Nat) : (d.count f n).tm = d.tm := rfl
@[simp] theorem Dev.count_path (d : Dev) (f : RegField) (n : Nat) : (d.count f n).path = d.path := rfl
@[simp] theorem Dev.count_jtp (d : Dev) (f : RegField) (n : Nat) : (d.count f n).jtp = d.jtp := rfl
@[simp] theorem Dev.count_cmp (d : Dev) (f : RegField) (n : Nat) : (d.count f n).cmp = d.cmp := rfl
@[simp] theorem Dev.count_codecErrHeld (d : Dev) (f : RegField) (n : Nat) : (d.count f n).codecErrHeld = d.codecErrHeld := rfl
@[simp] theorem Dev.count_streams (d : Dev) (f : RegField) (n : Nat) : (d.count f n).streams = d.streams := rfl
@[simp] theorem Dev.count_corPending (d : Dev) (f : RegField) (n : Nat) : (d.count f n).corPending = d.corPending := rfl
@[simp] theorem Dev.count_copies (d : Dev) (f : RegField) (n : Nat) : (d.count f n).copies = d.copies := rfl
@[simp] theorem Dev.count_planes (d : Dev) (f : RegField) (n : Nat) : (d.count f n).planes = d.planes := rfl
@[simp] theorem Dev.count_plogHeld (d : Dev) (f : RegField) (n : Nat) : (d.count f n).plogHeld = d.plogHeld := rfl
@[simp] theorem Dev.count_plogReserve (d : Dev) (f : RegField) (n : Nat) : (d.count f n).plogReserve = d.plogReserve := rfl
@[simp] theorem Dev.count_plogLost (d : Dev) (f : RegField) (n : Nat) : (d.count f n).plogLost = d.plogLost := rfl
@[simp] theorem Dev.count_wear (d : Dev) (f : RegField) (n : Nat) : (d.count f n).wear = d.wear := rfl
@[simp] theorem Dev.count_nozHi (d : Dev) (f : RegField) (n : Nat) : (d.count f n).nozHi = d.nozHi := rfl
@[simp] theorem Dev.count_wearHi (d : Dev) (f : RegField) (n : Nat) : (d.count f n).wearHi = d.wearHi := rfl
@[simp] theorem Dev.count_heads (d : Dev) (f : RegField) (n : Nat) : (d.count f n).heads = d.heads := rfl
@[simp] theorem Dev.count_taus (d : Dev) (f : RegField) (n : Nat) : (d.count f n).taus = d.taus := rfl
@[simp] theorem Dev.count_tapSeen (d : Dev) (f : RegField) (n : Nat) : (d.count f n).tapSeen = d.tapSeen := rfl
@[simp] theorem Dev.count_rejects (d : Dev) (f : RegField) (n : Nat) : (d.count f n).rejects = d.rejects := rfl
@[simp] theorem Dev.count_rejectPts (d : Dev) (f : RegField) (n : Nat) : (d.count f n).rejectPts = d.rejectPts := rfl
@[simp] theorem Dev.count_rejectEnd (d : Dev) (f : RegField) (n : Nat) : (d.count f n).rejectEnd = d.rejectEnd := rfl
@[simp] theorem Dev.count_schedDue (d : Dev) (f : RegField) (n : Nat) : (d.count f n).schedDue = d.schedDue := rfl
@[simp] theorem Dev.count_links (d : Dev) (f : RegField) (n : Nat) : (d.count f n).links = d.links := rfl
@[simp] theorem Dev.count_sscLag (d : Dev) (f : RegField) (n : Nat) : (d.count f n).sscLag = d.sscLag := rfl
@[simp] theorem Dev.count_sscAt (d : Dev) (f : RegField) (n : Nat) : (d.count f n).sscAt = d.sscAt := rfl
@[simp] theorem Dev.count_stay (d : Dev) (f : RegField) (n : Nat) : (d.count f n).stay = d.stay := rfl
@[simp] theorem Dev.count_insp (d : Dev) (f : RegField) (n : Nat) : (d.count f n).insp = d.insp := rfl
@[simp] theorem Dev.count_mot (d : Dev) (f : RegField) (n : Nat) : (d.count f n).mot = d.mot := rfl
@[simp] theorem Dev.count_dram (d : Dev) (f : RegField) (n : Nat) : (d.count f n).dram = d.dram := rfl
@[simp] theorem Dev.count_ue (d : Dev) (f : RegField) (n : Nat) : (d.count f n).ue = d.ue := rfl
@[simp] theorem Dev.count_remap (d : Dev) (f : RegField) (n : Nat) : (d.count f n).remap = d.remap := rfl
@[simp] theorem Dev.count_autoWant (d : Dev) (f : RegField) (n : Nat) : (d.count f n).autoWant = d.autoWant := rfl
@[simp] theorem Dev.count_training (d : Dev) (f : RegField) (n : Nat) : (d.count f n).training = d.training := rfl
@[simp] theorem Dev.count_trainedRates (d : Dev) (f : RegField) (n : Nat) : (d.count f n).trainedRates = d.trainedRates := rfl
@[simp] theorem Dev.count_eyes (d : Dev) (f : RegField) (n : Nat) : (d.count f n).eyes = d.eyes := rfl
@[simp] theorem Dev.count_refsbCount (d : Dev) (f : RegField) (n : Nat) : (d.count f n).refsbCount = d.refsbCount := rfl
@[simp] theorem Dev.count_trackLane (d : Dev) (f : RegField) (n : Nat) : (d.count f n).trackLane = d.trackLane := rfl
@[simp] theorem Dev.count_rankDown (d : Dev) (f : RegField) (n : Nat) : (d.count f n).rankDown = d.rankDown := rfl
@[simp] theorem Dev.count_rankUsed (d : Dev) (f : RegField) (n : Nat) : (d.count f n).rankUsed = d.rankUsed := rfl
@[simp] theorem Dev.count_rows (d : Dev) (f : RegField) (n : Nat) : (d.count f n).rows = d.rows := rfl
@[simp] theorem Dev.count_throttled (d : Dev) (f : RegField) (n : Nat) : (d.count f n).throttled = d.throttled := rfl
@[simp] theorem Dev.count_dramHeld (d : Dev) (f : RegField) (n : Nat) : (d.count f n).dramHeld = d.dramHeld := rfl
@[simp] theorem Dev.count_banks (d : Dev) (f : RegField) (n : Nat) : (d.count f n).banks = d.banks := rfl
@[simp] theorem Dev.count_lastAct (d : Dev) (f : RegField) (n : Nat) : (d.count f n).lastAct = d.lastAct := rfl
@[simp] theorem Dev.count_stalled (d : Dev) (f : RegField) (n : Nat) : (d.count f n).stalled = d.stalled := rfl
@[simp] theorem Dev.count_scrubPos (d : Dev) (f : RegField) (n : Nat) : (d.count f n).scrubPos = d.scrubPos := rfl
@[simp] theorem Dev.count_leakAt (d : Dev) (f : RegField) (n : Nat) : (d.count f n).leakAt = d.leakAt := rfl
@[simp] theorem Dev.count_leakUndo (d : Dev) (f : RegField) (n : Nat) : (d.count f n).leakUndo = d.leakUndo := rfl
@[simp] theorem Dev.count_corePc (d : Dev) (f : RegField) (n : Nat) : (d.count f n).corePc = d.corePc := rfl
@[simp] theorem Dev.count_spurWatch (d : Dev) (f : RegField) (n : Nat) : (d.count f n).spurWatch = d.spurWatch := rfl
@[simp] theorem Dev.count_mgmtReq (d : Dev) (f : RegField) (n : Nat) : (d.count f n).mgmtReq = d.mgmtReq := rfl
@[simp] theorem Dev.count_wdogAt (d : Dev) (f : RegField) (n : Nat) : (d.count f n).wdogAt = d.wdogAt := rfl
@[simp] theorem Dev.count_wdogHit (d : Dev) (f : RegField) (n : Nat) : (d.count f n).wdogHit = d.wdogHit := rfl
@[simp] theorem Dev.count_wakeLatch (d : Dev) (f : RegField) (n : Nat) : (d.count f n).wakeLatch = d.wakeLatch := rfl
@[simp] theorem Dev.count_l2Ram (d : Dev) (f : RegField) (n : Nat) : (d.count f n).l2Ram = d.l2Ram := rfl
@[simp] theorem Dev.count_l2 (d : Dev) (f : RegField) (n : Nat) : (d.count f n).l2 = d.l2 := rfl
@[simp] theorem Dev.count_enHeld (d : Dev) (f : RegField) (n : Nat) : (d.count f n).enHeld = d.enHeld := rfl
@[simp] theorem Dev.count_regions (d : Dev) (f : RegField) (n : Nat) : (d.count f n).regions = d.regions := rfl
@[simp] theorem Dev.count_heldSteps (d : Dev) (f : RegField) (n : Nat) : (d.count f n).heldSteps = d.heldSteps := rfl
@[simp] theorem Dev.count_regWrites (d : Dev) (f : RegField) (n : Nat) : (d.count f n).regWrites = d.regWrites := rfl
@[simp] theorem Dev.count_vioAt (d : Dev) (f : RegField) (n : Nat) : (d.count f n).vioAt = d.vioAt := rfl
@[simp] theorem Dev.count_trim (d : Dev) (f : RegField) (n : Nat) : (d.count f n).trim = d.trim := rfl
@[simp] theorem Dev.count_reef (d : Dev) (f : RegField) (n : Nat) : (d.count f n).reef = d.reef := rfl
@[simp] theorem Dev.count_booted (d : Dev) (f : RegField) (n : Nat) : (d.count f n).booted = d.booted := rfl
@[simp] theorem Dev.count_bootHalted (d : Dev) (f : RegField) (n : Nat) : (d.count f n).bootHalted = d.bootHalted := rfl
@[simp] theorem Dev.count_runRollback (d : Dev) (f : RegField) (n : Nat) : (d.count f n).runRollback = d.runRollback := rfl
@[simp] theorem Dev.count_pllLostAt (d : Dev) (f : RegField) (n : Nat) : (d.count f n).pllLostAt = d.pllLostAt := rfl
@[simp] theorem Dev.count_warmLen (d : Dev) (f : RegField) (n : Nat) : (d.count f n).warmLen = d.warmLen := rfl
@[simp] theorem Dev.count_warmEntry (d : Dev) (f : RegField) (n : Nat) : (d.count f n).warmEntry = d.warmEntry := rfl
@[simp] theorem Dev.count_warmRollback (d : Dev) (f : RegField) (n : Nat) : (d.count f n).warmRollback = d.warmRollback := rfl
@[simp] theorem Dev.count_warmVersion (d : Dev) (f : RegField) (n : Nat) : (d.count f n).warmVersion = d.warmVersion := rfl
@[simp] theorem Dev.count_standbyAt (d : Dev) (f : RegField) (n : Nat) : (d.count f n).standbyAt = d.standbyAt := rfl

@[simp] theorem Dev.emit_power (d : Dev) (o : Out) : (d.emit o).power = d.power := rfl
@[simp] theorem Dev.emit_pwrEn (d : Dev) (o : Out) : (d.emit o).pwrEn = d.pwrEn := rfl
@[simp] theorem Dev.emit_sleepAt (d : Dev) (o : Out) : (d.emit o).sleepAt = d.sleepAt := rfl
@[simp] theorem Dev.emit_now (d : Dev) (o : Out) : (d.emit o).now = d.now := rfl
@[simp] theorem Dev.emit_resetAt (d : Dev) (o : Out) : (d.emit o).resetAt = d.resetAt := rfl
@[simp] theorem Dev.emit_clk (d : Dev) (o : Out) : (d.emit o).clk = d.clk := rfl
@[simp] theorem Dev.emit_regs (d : Dev) (o : Out) : (d.emit o).regs = d.regs := rfl
@[simp] theorem Dev.emit_sysReq (d : Dev) (o : Out) : (d.emit o).sysReq = d.sysReq := rfl
@[simp] theorem Dev.emit_sysHold (d : Dev) (o : Out) : (d.emit o).sysHold = d.sysHold := rfl
@[simp] theorem Dev.emit_burnReq (d : Dev) (o : Out) : (d.emit o).burnReq = d.burnReq := rfl
@[simp] theorem Dev.emit_freeCtr (d : Dev) (o : Out) : (d.emit o).freeCtr = d.freeCtr := rfl
@[simp] theorem Dev.emit_busResp (d : Dev) (o : Out) : (d.emit o).busResp = d.busResp := rfl
@[simp] theorem Dev.emit_pins (d : Dev) (o : Out) : (d.emit o).pins = d.pins := rfl
@[simp] theorem Dev.emit_lastBeat (d : Dev) (o : Out) : (d.emit o).lastBeat = d.lastBeat := rfl
@[simp] theorem Dev.emit_armed (d : Dev) (o : Out) : (d.emit o).armed = d.armed := rfl
@[simp] theorem Dev.emit_planCheck (d : Dev) (o : Out) : (d.emit o).planCheck = d.planCheck := rfl
@[simp] theorem Dev.emit_evq (d : Dev) (o : Out) : (d.emit o).evq = d.evq := rfl
@[simp] theorem Dev.emit_versions (d : Dev) (o : Out) : (d.emit o).versions = d.versions := rfl
@[simp] theorem Dev.emit_liveOrd (d : Dev) (o : Out) : (d.emit o).liveOrd = d.liveOrd := rfl
@[simp] theorem Dev.emit_planeLive (d : Dev) (o : Out) : (d.emit o).planeLive = d.planeLive := rfl
@[simp] theorem Dev.emit_epoch0 (d : Dev) (o : Out) : (d.emit o).epoch0 = d.epoch0 := rfl
@[simp] theorem Dev.emit_cutoffDone (d : Dev) (o : Out) : (d.emit o).cutoffDone = d.cutoffDone := rfl
@[simp] theorem Dev.emit_stopMode (d : Dev) (o : Out) : (d.emit o).stopMode = d.stopMode := rfl
@[simp] theorem Dev.emit_stopOrd (d : Dev) (o : Out) : (d.emit o).stopOrd = d.stopOrd := rfl
@[simp] theorem Dev.emit_planJob (d : Dev) (o : Out) : (d.emit o).planJob = d.planJob := rfl
@[simp] theorem Dev.emit_passWritten (d : Dev) (o : Out) : (d.emit o).passWritten = d.passWritten := rfl
@[simp] theorem Dev.emit_nozSh (d : Dev) (o : Out) : (d.emit o).nozSh = d.nozSh := rfl
@[simp] theorem Dev.emit_tileSh (d : Dev) (o : Out) : (d.emit o).tileSh = d.tileSh := rfl
@[simp] theorem Dev.emit_waveSh (d : Dev) (o : Out) : (d.emit o).waveSh = d.waveSh := rfl
@[simp] theorem Dev.emit_ftrimSh (d : Dev) (o : Out) : (d.emit o).ftrimSh = d.ftrimSh := rfl
@[simp] theorem Dev.emit_dtrimSh (d : Dev) (o : Out) : (d.emit o).dtrimSh = d.dtrimSh := rfl
@[simp] theorem Dev.emit_shAt (d : Dev) (o : Out) : (d.emit o).shAt = d.shAt := rfl
@[simp] theorem Dev.emit_shOld (d : Dev) (o : Out) : (d.emit o).shOld = d.shOld := rfl
@[simp] theorem Dev.emit_encs (d : Dev) (o : Out) : (d.emit o).encs = d.encs := rfl
@[simp] theorem Dev.emit_qdIn (d : Dev) (o : Out) : (d.emit o).qdIn = d.qdIn := rfl
@[simp] theorem Dev.emit_venc (d : Dev) (o : Out) : (d.emit o).venc = d.venc := rfl
@[simp] theorem Dev.emit_vencIdle (d : Dev) (o : Out) : (d.emit o).vencIdle = d.vencIdle := rfl
@[simp] theorem Dev.emit_vencFresh (d : Dev) (o : Out) : (d.emit o).vencFresh = d.vencFresh := rfl
@[simp] theorem Dev.emit_pubFb (d : Dev) (o : Out) : (d.emit o).pubFb = d.pubFb := rfl
@[simp] theorem Dev.emit_pubDelta (d : Dev) (o : Out) : (d.emit o).pubDelta = d.pubDelta := rfl
@[simp] theorem Dev.emit_vencSeqs (d : Dev) (o : Out) : (d.emit o).vencSeqs = d.vencSeqs := rfl
@[simp] theorem Dev.emit_vencAt (d : Dev) (o : Out) : (d.emit o).vencAt = d.vencAt := rfl
@[simp] theorem Dev.emit_vencOut (d : Dev) (o : Out) : (d.emit o).vencOut = d.vencOut := rfl
@[simp] theorem Dev.emit_vencPrev (d : Dev) (o : Out) : (d.emit o).vencPrev = d.vencPrev := rfl
@[simp] theorem Dev.emit_tm (d : Dev) (o : Out) : (d.emit o).tm = d.tm := rfl
@[simp] theorem Dev.emit_path (d : Dev) (o : Out) : (d.emit o).path = d.path := rfl
@[simp] theorem Dev.emit_jtp (d : Dev) (o : Out) : (d.emit o).jtp = d.jtp := rfl
@[simp] theorem Dev.emit_cmp (d : Dev) (o : Out) : (d.emit o).cmp = d.cmp := rfl
@[simp] theorem Dev.emit_codecErrHeld (d : Dev) (o : Out) : (d.emit o).codecErrHeld = d.codecErrHeld := rfl
@[simp] theorem Dev.emit_streams (d : Dev) (o : Out) : (d.emit o).streams = d.streams := rfl
@[simp] theorem Dev.emit_corPending (d : Dev) (o : Out) : (d.emit o).corPending = d.corPending := rfl
@[simp] theorem Dev.emit_copies (d : Dev) (o : Out) : (d.emit o).copies = d.copies := rfl
@[simp] theorem Dev.emit_planes (d : Dev) (o : Out) : (d.emit o).planes = d.planes := rfl
@[simp] theorem Dev.emit_plogHeld (d : Dev) (o : Out) : (d.emit o).plogHeld = d.plogHeld := rfl
@[simp] theorem Dev.emit_plogReserve (d : Dev) (o : Out) : (d.emit o).plogReserve = d.plogReserve := rfl
@[simp] theorem Dev.emit_plogLost (d : Dev) (o : Out) : (d.emit o).plogLost = d.plogLost := rfl
@[simp] theorem Dev.emit_wear (d : Dev) (o : Out) : (d.emit o).wear = d.wear := rfl
@[simp] theorem Dev.emit_nozHi (d : Dev) (o : Out) : (d.emit o).nozHi = d.nozHi := rfl
@[simp] theorem Dev.emit_wearHi (d : Dev) (o : Out) : (d.emit o).wearHi = d.wearHi := rfl
@[simp] theorem Dev.emit_heads (d : Dev) (o : Out) : (d.emit o).heads = d.heads := rfl
@[simp] theorem Dev.emit_taus (d : Dev) (o : Out) : (d.emit o).taus = d.taus := rfl
@[simp] theorem Dev.emit_tapSeen (d : Dev) (o : Out) : (d.emit o).tapSeen = d.tapSeen := rfl
@[simp] theorem Dev.emit_rejects (d : Dev) (o : Out) : (d.emit o).rejects = d.rejects := rfl
@[simp] theorem Dev.emit_rejectPts (d : Dev) (o : Out) : (d.emit o).rejectPts = d.rejectPts := rfl
@[simp] theorem Dev.emit_rejectEnd (d : Dev) (o : Out) : (d.emit o).rejectEnd = d.rejectEnd := rfl
@[simp] theorem Dev.emit_schedDue (d : Dev) (o : Out) : (d.emit o).schedDue = d.schedDue := rfl
@[simp] theorem Dev.emit_links (d : Dev) (o : Out) : (d.emit o).links = d.links := rfl
@[simp] theorem Dev.emit_sscLag (d : Dev) (o : Out) : (d.emit o).sscLag = d.sscLag := rfl
@[simp] theorem Dev.emit_sscAt (d : Dev) (o : Out) : (d.emit o).sscAt = d.sscAt := rfl
@[simp] theorem Dev.emit_stay (d : Dev) (o : Out) : (d.emit o).stay = d.stay := rfl
@[simp] theorem Dev.emit_insp (d : Dev) (o : Out) : (d.emit o).insp = d.insp := rfl
@[simp] theorem Dev.emit_mot (d : Dev) (o : Out) : (d.emit o).mot = d.mot := rfl
@[simp] theorem Dev.emit_dram (d : Dev) (o : Out) : (d.emit o).dram = d.dram := rfl
@[simp] theorem Dev.emit_ue (d : Dev) (o : Out) : (d.emit o).ue = d.ue := rfl
@[simp] theorem Dev.emit_remap (d : Dev) (o : Out) : (d.emit o).remap = d.remap := rfl
@[simp] theorem Dev.emit_autoWant (d : Dev) (o : Out) : (d.emit o).autoWant = d.autoWant := rfl
@[simp] theorem Dev.emit_training (d : Dev) (o : Out) : (d.emit o).training = d.training := rfl
@[simp] theorem Dev.emit_trainedRates (d : Dev) (o : Out) : (d.emit o).trainedRates = d.trainedRates := rfl
@[simp] theorem Dev.emit_eyes (d : Dev) (o : Out) : (d.emit o).eyes = d.eyes := rfl
@[simp] theorem Dev.emit_refsbCount (d : Dev) (o : Out) : (d.emit o).refsbCount = d.refsbCount := rfl
@[simp] theorem Dev.emit_trackLane (d : Dev) (o : Out) : (d.emit o).trackLane = d.trackLane := rfl
@[simp] theorem Dev.emit_rankDown (d : Dev) (o : Out) : (d.emit o).rankDown = d.rankDown := rfl
@[simp] theorem Dev.emit_rankUsed (d : Dev) (o : Out) : (d.emit o).rankUsed = d.rankUsed := rfl
@[simp] theorem Dev.emit_rows (d : Dev) (o : Out) : (d.emit o).rows = d.rows := rfl
@[simp] theorem Dev.emit_throttled (d : Dev) (o : Out) : (d.emit o).throttled = d.throttled := rfl
@[simp] theorem Dev.emit_dramHeld (d : Dev) (o : Out) : (d.emit o).dramHeld = d.dramHeld := rfl
@[simp] theorem Dev.emit_banks (d : Dev) (o : Out) : (d.emit o).banks = d.banks := rfl
@[simp] theorem Dev.emit_lastAct (d : Dev) (o : Out) : (d.emit o).lastAct = d.lastAct := rfl
@[simp] theorem Dev.emit_stalled (d : Dev) (o : Out) : (d.emit o).stalled = d.stalled := rfl
@[simp] theorem Dev.emit_scrubPos (d : Dev) (o : Out) : (d.emit o).scrubPos = d.scrubPos := rfl
@[simp] theorem Dev.emit_leakAt (d : Dev) (o : Out) : (d.emit o).leakAt = d.leakAt := rfl
@[simp] theorem Dev.emit_leakUndo (d : Dev) (o : Out) : (d.emit o).leakUndo = d.leakUndo := rfl
@[simp] theorem Dev.emit_corePc (d : Dev) (o : Out) : (d.emit o).corePc = d.corePc := rfl
@[simp] theorem Dev.emit_spurWatch (d : Dev) (o : Out) : (d.emit o).spurWatch = d.spurWatch := rfl
@[simp] theorem Dev.emit_mgmtReq (d : Dev) (o : Out) : (d.emit o).mgmtReq = d.mgmtReq := rfl
@[simp] theorem Dev.emit_wdogAt (d : Dev) (o : Out) : (d.emit o).wdogAt = d.wdogAt := rfl
@[simp] theorem Dev.emit_wdogHit (d : Dev) (o : Out) : (d.emit o).wdogHit = d.wdogHit := rfl
@[simp] theorem Dev.emit_wakeLatch (d : Dev) (o : Out) : (d.emit o).wakeLatch = d.wakeLatch := rfl
@[simp] theorem Dev.emit_l2Ram (d : Dev) (o : Out) : (d.emit o).l2Ram = d.l2Ram := rfl
@[simp] theorem Dev.emit_l2 (d : Dev) (o : Out) : (d.emit o).l2 = d.l2 := rfl
@[simp] theorem Dev.emit_enHeld (d : Dev) (o : Out) : (d.emit o).enHeld = d.enHeld := rfl
@[simp] theorem Dev.emit_regions (d : Dev) (o : Out) : (d.emit o).regions = d.regions := rfl
@[simp] theorem Dev.emit_heldSteps (d : Dev) (o : Out) : (d.emit o).heldSteps = d.heldSteps := rfl
@[simp] theorem Dev.emit_regWrites (d : Dev) (o : Out) : (d.emit o).regWrites = d.regWrites := rfl
@[simp] theorem Dev.emit_vioAt (d : Dev) (o : Out) : (d.emit o).vioAt = d.vioAt := rfl
@[simp] theorem Dev.emit_trim (d : Dev) (o : Out) : (d.emit o).trim = d.trim := rfl
@[simp] theorem Dev.emit_reef (d : Dev) (o : Out) : (d.emit o).reef = d.reef := rfl
@[simp] theorem Dev.emit_booted (d : Dev) (o : Out) : (d.emit o).booted = d.booted := rfl
@[simp] theorem Dev.emit_bootHalted (d : Dev) (o : Out) : (d.emit o).bootHalted = d.bootHalted := rfl
@[simp] theorem Dev.emit_runRollback (d : Dev) (o : Out) : (d.emit o).runRollback = d.runRollback := rfl
@[simp] theorem Dev.emit_pllLostAt (d : Dev) (o : Out) : (d.emit o).pllLostAt = d.pllLostAt := rfl
@[simp] theorem Dev.emit_warmLen (d : Dev) (o : Out) : (d.emit o).warmLen = d.warmLen := rfl
@[simp] theorem Dev.emit_warmEntry (d : Dev) (o : Out) : (d.emit o).warmEntry = d.warmEntry := rfl
@[simp] theorem Dev.emit_warmRollback (d : Dev) (o : Out) : (d.emit o).warmRollback = d.warmRollback := rfl
@[simp] theorem Dev.emit_warmVersion (d : Dev) (o : Out) : (d.emit o).warmVersion = d.warmVersion := rfl
@[simp] theorem Dev.emit_standbyAt (d : Dev) (o : Out) : (d.emit o).standbyAt = d.standbyAt := rfl

@[simp] theorem Dev.elapse_power (d : Dev) (dt : Nat) : (d.elapse dt).power = d.power := rfl
@[simp] theorem Dev.elapse_pwrEn (d : Dev) (dt : Nat) : (d.elapse dt).pwrEn = d.pwrEn := rfl
@[simp] theorem Dev.elapse_sleepAt (d : Dev) (dt : Nat) : (d.elapse dt).sleepAt = d.sleepAt := rfl
@[simp] theorem Dev.elapse_resetAt (d : Dev) (dt : Nat) : (d.elapse dt).resetAt = d.resetAt := rfl
@[simp] theorem Dev.elapse_regs (d : Dev) (dt : Nat) : (d.elapse dt).regs = d.regs := rfl
@[simp] theorem Dev.elapse_sysReq (d : Dev) (dt : Nat) : (d.elapse dt).sysReq = d.sysReq := rfl
@[simp] theorem Dev.elapse_sysHold (d : Dev) (dt : Nat) : (d.elapse dt).sysHold = d.sysHold := rfl
@[simp] theorem Dev.elapse_burnReq (d : Dev) (dt : Nat) : (d.elapse dt).burnReq = d.burnReq := rfl
@[simp] theorem Dev.elapse_out (d : Dev) (dt : Nat) : (d.elapse dt).out = d.out := rfl
@[simp] theorem Dev.elapse_freeCtr (d : Dev) (dt : Nat) : (d.elapse dt).freeCtr = d.freeCtr := rfl
@[simp] theorem Dev.elapse_busResp (d : Dev) (dt : Nat) : (d.elapse dt).busResp = d.busResp := rfl
@[simp] theorem Dev.elapse_pins (d : Dev) (dt : Nat) : (d.elapse dt).pins = d.pins := rfl
@[simp] theorem Dev.elapse_lastBeat (d : Dev) (dt : Nat) : (d.elapse dt).lastBeat = d.lastBeat := rfl
@[simp] theorem Dev.elapse_armed (d : Dev) (dt : Nat) : (d.elapse dt).armed = d.armed := rfl
@[simp] theorem Dev.elapse_planCheck (d : Dev) (dt : Nat) : (d.elapse dt).planCheck = d.planCheck := rfl
@[simp] theorem Dev.elapse_evq (d : Dev) (dt : Nat) : (d.elapse dt).evq = d.evq := rfl
@[simp] theorem Dev.elapse_versions (d : Dev) (dt : Nat) : (d.elapse dt).versions = d.versions := rfl
@[simp] theorem Dev.elapse_liveOrd (d : Dev) (dt : Nat) : (d.elapse dt).liveOrd = d.liveOrd := rfl
@[simp] theorem Dev.elapse_planeLive (d : Dev) (dt : Nat) : (d.elapse dt).planeLive = d.planeLive := rfl
@[simp] theorem Dev.elapse_epoch0 (d : Dev) (dt : Nat) : (d.elapse dt).epoch0 = d.epoch0 := rfl
@[simp] theorem Dev.elapse_cutoffDone (d : Dev) (dt : Nat) : (d.elapse dt).cutoffDone = d.cutoffDone := rfl
@[simp] theorem Dev.elapse_stopMode (d : Dev) (dt : Nat) : (d.elapse dt).stopMode = d.stopMode := rfl
@[simp] theorem Dev.elapse_stopOrd (d : Dev) (dt : Nat) : (d.elapse dt).stopOrd = d.stopOrd := rfl
@[simp] theorem Dev.elapse_planJob (d : Dev) (dt : Nat) : (d.elapse dt).planJob = d.planJob := rfl
@[simp] theorem Dev.elapse_passWritten (d : Dev) (dt : Nat) : (d.elapse dt).passWritten = d.passWritten := rfl
@[simp] theorem Dev.elapse_nozSh (d : Dev) (dt : Nat) : (d.elapse dt).nozSh = d.nozSh := rfl
@[simp] theorem Dev.elapse_tileSh (d : Dev) (dt : Nat) : (d.elapse dt).tileSh = d.tileSh := rfl
@[simp] theorem Dev.elapse_waveSh (d : Dev) (dt : Nat) : (d.elapse dt).waveSh = d.waveSh := rfl
@[simp] theorem Dev.elapse_ftrimSh (d : Dev) (dt : Nat) : (d.elapse dt).ftrimSh = d.ftrimSh := rfl
@[simp] theorem Dev.elapse_dtrimSh (d : Dev) (dt : Nat) : (d.elapse dt).dtrimSh = d.dtrimSh := rfl
@[simp] theorem Dev.elapse_shAt (d : Dev) (dt : Nat) : (d.elapse dt).shAt = d.shAt := rfl
@[simp] theorem Dev.elapse_shOld (d : Dev) (dt : Nat) : (d.elapse dt).shOld = d.shOld := rfl
@[simp] theorem Dev.elapse_encs (d : Dev) (dt : Nat) : (d.elapse dt).encs = d.encs := rfl
@[simp] theorem Dev.elapse_qdIn (d : Dev) (dt : Nat) : (d.elapse dt).qdIn = d.qdIn := rfl
@[simp] theorem Dev.elapse_venc (d : Dev) (dt : Nat) : (d.elapse dt).venc = d.venc := rfl
@[simp] theorem Dev.elapse_vencIdle (d : Dev) (dt : Nat) : (d.elapse dt).vencIdle = d.vencIdle := rfl
@[simp] theorem Dev.elapse_vencFresh (d : Dev) (dt : Nat) : (d.elapse dt).vencFresh = d.vencFresh := rfl
@[simp] theorem Dev.elapse_pubFb (d : Dev) (dt : Nat) : (d.elapse dt).pubFb = d.pubFb := rfl
@[simp] theorem Dev.elapse_pubDelta (d : Dev) (dt : Nat) : (d.elapse dt).pubDelta = d.pubDelta := rfl
@[simp] theorem Dev.elapse_vencSeqs (d : Dev) (dt : Nat) : (d.elapse dt).vencSeqs = d.vencSeqs := rfl
@[simp] theorem Dev.elapse_vencAt (d : Dev) (dt : Nat) : (d.elapse dt).vencAt = d.vencAt := rfl
@[simp] theorem Dev.elapse_vencOut (d : Dev) (dt : Nat) : (d.elapse dt).vencOut = d.vencOut := rfl
@[simp] theorem Dev.elapse_vencPrev (d : Dev) (dt : Nat) : (d.elapse dt).vencPrev = d.vencPrev := rfl
@[simp] theorem Dev.elapse_tm (d : Dev) (dt : Nat) : (d.elapse dt).tm = d.tm := rfl
@[simp] theorem Dev.elapse_path (d : Dev) (dt : Nat) : (d.elapse dt).path = d.path := rfl
@[simp] theorem Dev.elapse_jtp (d : Dev) (dt : Nat) : (d.elapse dt).jtp = d.jtp := rfl
@[simp] theorem Dev.elapse_cmp (d : Dev) (dt : Nat) : (d.elapse dt).cmp = d.cmp := rfl
@[simp] theorem Dev.elapse_codecErrHeld (d : Dev) (dt : Nat) : (d.elapse dt).codecErrHeld = d.codecErrHeld := rfl
@[simp] theorem Dev.elapse_streams (d : Dev) (dt : Nat) : (d.elapse dt).streams = d.streams := rfl
@[simp] theorem Dev.elapse_corPending (d : Dev) (dt : Nat) : (d.elapse dt).corPending = d.corPending := rfl
@[simp] theorem Dev.elapse_copies (d : Dev) (dt : Nat) : (d.elapse dt).copies = d.copies := rfl
@[simp] theorem Dev.elapse_planes (d : Dev) (dt : Nat) : (d.elapse dt).planes = d.planes := rfl
@[simp] theorem Dev.elapse_plogHeld (d : Dev) (dt : Nat) : (d.elapse dt).plogHeld = d.plogHeld := rfl
@[simp] theorem Dev.elapse_plogReserve (d : Dev) (dt : Nat) : (d.elapse dt).plogReserve = d.plogReserve := rfl
@[simp] theorem Dev.elapse_plogLost (d : Dev) (dt : Nat) : (d.elapse dt).plogLost = d.plogLost := rfl
@[simp] theorem Dev.elapse_wear (d : Dev) (dt : Nat) : (d.elapse dt).wear = d.wear := rfl
@[simp] theorem Dev.elapse_nozHi (d : Dev) (dt : Nat) : (d.elapse dt).nozHi = d.nozHi := rfl
@[simp] theorem Dev.elapse_wearHi (d : Dev) (dt : Nat) : (d.elapse dt).wearHi = d.wearHi := rfl
@[simp] theorem Dev.elapse_heads (d : Dev) (dt : Nat) : (d.elapse dt).heads = d.heads := rfl
@[simp] theorem Dev.elapse_taus (d : Dev) (dt : Nat) : (d.elapse dt).taus = d.taus := rfl
@[simp] theorem Dev.elapse_tapSeen (d : Dev) (dt : Nat) : (d.elapse dt).tapSeen = d.tapSeen := rfl
@[simp] theorem Dev.elapse_rejects (d : Dev) (dt : Nat) : (d.elapse dt).rejects = d.rejects := rfl
@[simp] theorem Dev.elapse_rejectPts (d : Dev) (dt : Nat) : (d.elapse dt).rejectPts = d.rejectPts := rfl
@[simp] theorem Dev.elapse_rejectEnd (d : Dev) (dt : Nat) : (d.elapse dt).rejectEnd = d.rejectEnd := rfl
@[simp] theorem Dev.elapse_schedDue (d : Dev) (dt : Nat) : (d.elapse dt).schedDue = d.schedDue := rfl
@[simp] theorem Dev.elapse_links (d : Dev) (dt : Nat) : (d.elapse dt).links = d.links := rfl
@[simp] theorem Dev.elapse_sscLag (d : Dev) (dt : Nat) : (d.elapse dt).sscLag = d.sscLag := rfl
@[simp] theorem Dev.elapse_sscAt (d : Dev) (dt : Nat) : (d.elapse dt).sscAt = d.sscAt := rfl
@[simp] theorem Dev.elapse_stay (d : Dev) (dt : Nat) : (d.elapse dt).stay = d.stay := rfl
@[simp] theorem Dev.elapse_insp (d : Dev) (dt : Nat) : (d.elapse dt).insp = d.insp := rfl
@[simp] theorem Dev.elapse_mot (d : Dev) (dt : Nat) : (d.elapse dt).mot = d.mot := rfl
@[simp] theorem Dev.elapse_dram (d : Dev) (dt : Nat) : (d.elapse dt).dram = d.dram := rfl
@[simp] theorem Dev.elapse_ue (d : Dev) (dt : Nat) : (d.elapse dt).ue = d.ue := rfl
@[simp] theorem Dev.elapse_remap (d : Dev) (dt : Nat) : (d.elapse dt).remap = d.remap := rfl
@[simp] theorem Dev.elapse_autoWant (d : Dev) (dt : Nat) : (d.elapse dt).autoWant = d.autoWant := rfl
@[simp] theorem Dev.elapse_training (d : Dev) (dt : Nat) : (d.elapse dt).training = d.training := rfl
@[simp] theorem Dev.elapse_trainedRates (d : Dev) (dt : Nat) : (d.elapse dt).trainedRates = d.trainedRates := rfl
@[simp] theorem Dev.elapse_eyes (d : Dev) (dt : Nat) : (d.elapse dt).eyes = d.eyes := rfl
@[simp] theorem Dev.elapse_refsbCount (d : Dev) (dt : Nat) : (d.elapse dt).refsbCount = d.refsbCount := rfl
@[simp] theorem Dev.elapse_trackLane (d : Dev) (dt : Nat) : (d.elapse dt).trackLane = d.trackLane := rfl
@[simp] theorem Dev.elapse_rankDown (d : Dev) (dt : Nat) : (d.elapse dt).rankDown = d.rankDown := rfl
@[simp] theorem Dev.elapse_rankUsed (d : Dev) (dt : Nat) : (d.elapse dt).rankUsed = d.rankUsed := rfl
@[simp] theorem Dev.elapse_rows (d : Dev) (dt : Nat) : (d.elapse dt).rows = d.rows := rfl
@[simp] theorem Dev.elapse_throttled (d : Dev) (dt : Nat) : (d.elapse dt).throttled = d.throttled := rfl
@[simp] theorem Dev.elapse_dramHeld (d : Dev) (dt : Nat) : (d.elapse dt).dramHeld = d.dramHeld := rfl
@[simp] theorem Dev.elapse_banks (d : Dev) (dt : Nat) : (d.elapse dt).banks = d.banks := rfl
@[simp] theorem Dev.elapse_lastAct (d : Dev) (dt : Nat) : (d.elapse dt).lastAct = d.lastAct := rfl
@[simp] theorem Dev.elapse_stalled (d : Dev) (dt : Nat) : (d.elapse dt).stalled = d.stalled := rfl
@[simp] theorem Dev.elapse_scrubPos (d : Dev) (dt : Nat) : (d.elapse dt).scrubPos = d.scrubPos := rfl
@[simp] theorem Dev.elapse_leakAt (d : Dev) (dt : Nat) : (d.elapse dt).leakAt = d.leakAt := rfl
@[simp] theorem Dev.elapse_leakUndo (d : Dev) (dt : Nat) : (d.elapse dt).leakUndo = d.leakUndo := rfl
@[simp] theorem Dev.elapse_corePc (d : Dev) (dt : Nat) : (d.elapse dt).corePc = d.corePc := rfl
@[simp] theorem Dev.elapse_spurWatch (d : Dev) (dt : Nat) : (d.elapse dt).spurWatch = d.spurWatch := rfl
@[simp] theorem Dev.elapse_mgmtReq (d : Dev) (dt : Nat) : (d.elapse dt).mgmtReq = d.mgmtReq := rfl
@[simp] theorem Dev.elapse_wdogAt (d : Dev) (dt : Nat) : (d.elapse dt).wdogAt = d.wdogAt := rfl
@[simp] theorem Dev.elapse_wdogHit (d : Dev) (dt : Nat) : (d.elapse dt).wdogHit = d.wdogHit := rfl
@[simp] theorem Dev.elapse_wakeLatch (d : Dev) (dt : Nat) : (d.elapse dt).wakeLatch = d.wakeLatch := rfl
@[simp] theorem Dev.elapse_l2Ram (d : Dev) (dt : Nat) : (d.elapse dt).l2Ram = d.l2Ram := rfl
@[simp] theorem Dev.elapse_l2 (d : Dev) (dt : Nat) : (d.elapse dt).l2 = d.l2 := rfl
@[simp] theorem Dev.elapse_enHeld (d : Dev) (dt : Nat) : (d.elapse dt).enHeld = d.enHeld := rfl
@[simp] theorem Dev.elapse_regions (d : Dev) (dt : Nat) : (d.elapse dt).regions = d.regions := rfl
@[simp] theorem Dev.elapse_heldSteps (d : Dev) (dt : Nat) : (d.elapse dt).heldSteps = d.heldSteps := rfl
@[simp] theorem Dev.elapse_regWrites (d : Dev) (dt : Nat) : (d.elapse dt).regWrites = d.regWrites := rfl
@[simp] theorem Dev.elapse_vioAt (d : Dev) (dt : Nat) : (d.elapse dt).vioAt = d.vioAt := rfl
@[simp] theorem Dev.elapse_trim (d : Dev) (dt : Nat) : (d.elapse dt).trim = d.trim := rfl
@[simp] theorem Dev.elapse_reef (d : Dev) (dt : Nat) : (d.elapse dt).reef = d.reef := rfl
@[simp] theorem Dev.elapse_booted (d : Dev) (dt : Nat) : (d.elapse dt).booted = d.booted := rfl
@[simp] theorem Dev.elapse_bootHalted (d : Dev) (dt : Nat) : (d.elapse dt).bootHalted = d.bootHalted := rfl
@[simp] theorem Dev.elapse_runRollback (d : Dev) (dt : Nat) : (d.elapse dt).runRollback = d.runRollback := rfl
@[simp] theorem Dev.elapse_pllLostAt (d : Dev) (dt : Nat) : (d.elapse dt).pllLostAt = d.pllLostAt := rfl
@[simp] theorem Dev.elapse_warmLen (d : Dev) (dt : Nat) : (d.elapse dt).warmLen = d.warmLen := rfl
@[simp] theorem Dev.elapse_warmEntry (d : Dev) (dt : Nat) : (d.elapse dt).warmEntry = d.warmEntry := rfl
@[simp] theorem Dev.elapse_warmRollback (d : Dev) (dt : Nat) : (d.elapse dt).warmRollback = d.warmRollback := rfl
@[simp] theorem Dev.elapse_warmVersion (d : Dev) (dt : Nat) : (d.elapse dt).warmVersion = d.warmVersion := rfl
@[simp] theorem Dev.elapse_standbyAt (d : Dev) (dt : Nat) : (d.elapse dt).standbyAt = d.standbyAt := rfl

@[simp] theorem Dev.sent_power (d : Dev) : d.sent.power = d.power := rfl
@[simp] theorem Dev.sent_pwrEn (d : Dev) : d.sent.pwrEn = d.pwrEn := rfl
@[simp] theorem Dev.sent_sleepAt (d : Dev) : d.sent.sleepAt = d.sleepAt := rfl
@[simp] theorem Dev.sent_now (d : Dev) : d.sent.now = d.now := rfl
@[simp] theorem Dev.sent_resetAt (d : Dev) : d.sent.resetAt = d.resetAt := rfl
@[simp] theorem Dev.sent_clk (d : Dev) : d.sent.clk = d.clk := rfl
@[simp] theorem Dev.sent_regs (d : Dev) : d.sent.regs = d.regs := rfl
@[simp] theorem Dev.sent_sysReq (d : Dev) : d.sent.sysReq = d.sysReq := rfl
@[simp] theorem Dev.sent_sysHold (d : Dev) : d.sent.sysHold = d.sysHold := rfl
@[simp] theorem Dev.sent_burnReq (d : Dev) : d.sent.burnReq = d.burnReq := rfl
@[simp] theorem Dev.sent_freeCtr (d : Dev) : d.sent.freeCtr = d.freeCtr := rfl
@[simp] theorem Dev.sent_busResp (d : Dev) : d.sent.busResp = d.busResp := rfl
@[simp] theorem Dev.sent_pins (d : Dev) : d.sent.pins = d.pins := rfl
@[simp] theorem Dev.sent_lastBeat (d : Dev) : d.sent.lastBeat = d.lastBeat := rfl
@[simp] theorem Dev.sent_armed (d : Dev) : d.sent.armed = d.armed := rfl
@[simp] theorem Dev.sent_planCheck (d : Dev) : d.sent.planCheck = d.planCheck := rfl
@[simp] theorem Dev.sent_evq (d : Dev) : d.sent.evq = d.evq := rfl
@[simp] theorem Dev.sent_versions (d : Dev) : d.sent.versions = d.versions := rfl
@[simp] theorem Dev.sent_liveOrd (d : Dev) : d.sent.liveOrd = d.liveOrd := rfl
@[simp] theorem Dev.sent_planeLive (d : Dev) : d.sent.planeLive = d.planeLive := rfl
@[simp] theorem Dev.sent_epoch0 (d : Dev) : d.sent.epoch0 = d.epoch0 := rfl
@[simp] theorem Dev.sent_cutoffDone (d : Dev) : d.sent.cutoffDone = d.cutoffDone := rfl
@[simp] theorem Dev.sent_stopMode (d : Dev) : d.sent.stopMode = d.stopMode := rfl
@[simp] theorem Dev.sent_stopOrd (d : Dev) : d.sent.stopOrd = d.stopOrd := rfl
@[simp] theorem Dev.sent_planJob (d : Dev) : d.sent.planJob = d.planJob := rfl
@[simp] theorem Dev.sent_passWritten (d : Dev) : d.sent.passWritten = d.passWritten := rfl
@[simp] theorem Dev.sent_nozSh (d : Dev) : d.sent.nozSh = d.nozSh := rfl
@[simp] theorem Dev.sent_tileSh (d : Dev) : d.sent.tileSh = d.tileSh := rfl
@[simp] theorem Dev.sent_waveSh (d : Dev) : d.sent.waveSh = d.waveSh := rfl
@[simp] theorem Dev.sent_ftrimSh (d : Dev) : d.sent.ftrimSh = d.ftrimSh := rfl
@[simp] theorem Dev.sent_dtrimSh (d : Dev) : d.sent.dtrimSh = d.dtrimSh := rfl
@[simp] theorem Dev.sent_shAt (d : Dev) : d.sent.shAt = d.shAt := rfl
@[simp] theorem Dev.sent_shOld (d : Dev) : d.sent.shOld = d.shOld := rfl
@[simp] theorem Dev.sent_encs (d : Dev) : d.sent.encs = d.encs := rfl
@[simp] theorem Dev.sent_qdIn (d : Dev) : d.sent.qdIn = d.qdIn := rfl
@[simp] theorem Dev.sent_venc (d : Dev) : d.sent.venc = d.venc := rfl
@[simp] theorem Dev.sent_vencIdle (d : Dev) : d.sent.vencIdle = d.vencIdle := rfl
@[simp] theorem Dev.sent_vencFresh (d : Dev) : d.sent.vencFresh = d.vencFresh := rfl
@[simp] theorem Dev.sent_pubFb (d : Dev) : d.sent.pubFb = d.pubFb := rfl
@[simp] theorem Dev.sent_pubDelta (d : Dev) : d.sent.pubDelta = d.pubDelta := rfl
@[simp] theorem Dev.sent_vencSeqs (d : Dev) : d.sent.vencSeqs = d.vencSeqs := rfl
@[simp] theorem Dev.sent_vencAt (d : Dev) : d.sent.vencAt = d.vencAt := rfl
@[simp] theorem Dev.sent_vencOut (d : Dev) : d.sent.vencOut = d.vencOut := rfl
@[simp] theorem Dev.sent_vencPrev (d : Dev) : d.sent.vencPrev = d.vencPrev := rfl
@[simp] theorem Dev.sent_tm (d : Dev) : d.sent.tm = d.tm := rfl
@[simp] theorem Dev.sent_path (d : Dev) : d.sent.path = d.path := rfl
@[simp] theorem Dev.sent_jtp (d : Dev) : d.sent.jtp = d.jtp := rfl
@[simp] theorem Dev.sent_cmp (d : Dev) : d.sent.cmp = d.cmp := rfl
@[simp] theorem Dev.sent_codecErrHeld (d : Dev) : d.sent.codecErrHeld = d.codecErrHeld := rfl
@[simp] theorem Dev.sent_streams (d : Dev) : d.sent.streams = d.streams := rfl
@[simp] theorem Dev.sent_corPending (d : Dev) : d.sent.corPending = d.corPending := rfl
@[simp] theorem Dev.sent_copies (d : Dev) : d.sent.copies = d.copies := rfl
@[simp] theorem Dev.sent_planes (d : Dev) : d.sent.planes = d.planes := rfl
@[simp] theorem Dev.sent_plogHeld (d : Dev) : d.sent.plogHeld = d.plogHeld := rfl
@[simp] theorem Dev.sent_plogReserve (d : Dev) : d.sent.plogReserve = d.plogReserve := rfl
@[simp] theorem Dev.sent_plogLost (d : Dev) : d.sent.plogLost = d.plogLost := rfl
@[simp] theorem Dev.sent_wear (d : Dev) : d.sent.wear = d.wear := rfl
@[simp] theorem Dev.sent_nozHi (d : Dev) : d.sent.nozHi = d.nozHi := rfl
@[simp] theorem Dev.sent_wearHi (d : Dev) : d.sent.wearHi = d.wearHi := rfl
@[simp] theorem Dev.sent_heads (d : Dev) : d.sent.heads = d.heads := rfl
@[simp] theorem Dev.sent_taus (d : Dev) : d.sent.taus = d.taus := rfl
@[simp] theorem Dev.sent_tapSeen (d : Dev) : d.sent.tapSeen = d.tapSeen := rfl
@[simp] theorem Dev.sent_rejects (d : Dev) : d.sent.rejects = d.rejects := rfl
@[simp] theorem Dev.sent_rejectPts (d : Dev) : d.sent.rejectPts = d.rejectPts := rfl
@[simp] theorem Dev.sent_rejectEnd (d : Dev) : d.sent.rejectEnd = d.rejectEnd := rfl
@[simp] theorem Dev.sent_schedDue (d : Dev) : d.sent.schedDue = d.schedDue := rfl
@[simp] theorem Dev.sent_links (d : Dev) : d.sent.links = d.links := rfl
@[simp] theorem Dev.sent_sscLag (d : Dev) : d.sent.sscLag = d.sscLag := rfl
@[simp] theorem Dev.sent_sscAt (d : Dev) : d.sent.sscAt = d.sscAt := rfl
@[simp] theorem Dev.sent_stay (d : Dev) : d.sent.stay = d.stay := rfl
@[simp] theorem Dev.sent_insp (d : Dev) : d.sent.insp = d.insp := rfl
@[simp] theorem Dev.sent_mot (d : Dev) : d.sent.mot = d.mot := rfl
@[simp] theorem Dev.sent_dram (d : Dev) : d.sent.dram = d.dram := rfl
@[simp] theorem Dev.sent_ue (d : Dev) : d.sent.ue = d.ue := rfl
@[simp] theorem Dev.sent_remap (d : Dev) : d.sent.remap = d.remap := rfl
@[simp] theorem Dev.sent_autoWant (d : Dev) : d.sent.autoWant = d.autoWant := rfl
@[simp] theorem Dev.sent_training (d : Dev) : d.sent.training = d.training := rfl
@[simp] theorem Dev.sent_trainedRates (d : Dev) : d.sent.trainedRates = d.trainedRates := rfl
@[simp] theorem Dev.sent_eyes (d : Dev) : d.sent.eyes = d.eyes := rfl
@[simp] theorem Dev.sent_refsbCount (d : Dev) : d.sent.refsbCount = d.refsbCount := rfl
@[simp] theorem Dev.sent_trackLane (d : Dev) : d.sent.trackLane = d.trackLane := rfl
@[simp] theorem Dev.sent_rankDown (d : Dev) : d.sent.rankDown = d.rankDown := rfl
@[simp] theorem Dev.sent_rankUsed (d : Dev) : d.sent.rankUsed = d.rankUsed := rfl
@[simp] theorem Dev.sent_rows (d : Dev) : d.sent.rows = d.rows := rfl
@[simp] theorem Dev.sent_throttled (d : Dev) : d.sent.throttled = d.throttled := rfl
@[simp] theorem Dev.sent_dramHeld (d : Dev) : d.sent.dramHeld = d.dramHeld := rfl
@[simp] theorem Dev.sent_banks (d : Dev) : d.sent.banks = d.banks := rfl
@[simp] theorem Dev.sent_lastAct (d : Dev) : d.sent.lastAct = d.lastAct := rfl
@[simp] theorem Dev.sent_stalled (d : Dev) : d.sent.stalled = d.stalled := rfl
@[simp] theorem Dev.sent_scrubPos (d : Dev) : d.sent.scrubPos = d.scrubPos := rfl
@[simp] theorem Dev.sent_leakAt (d : Dev) : d.sent.leakAt = d.leakAt := rfl
@[simp] theorem Dev.sent_leakUndo (d : Dev) : d.sent.leakUndo = d.leakUndo := rfl
@[simp] theorem Dev.sent_corePc (d : Dev) : d.sent.corePc = d.corePc := rfl
@[simp] theorem Dev.sent_spurWatch (d : Dev) : d.sent.spurWatch = d.spurWatch := rfl
@[simp] theorem Dev.sent_mgmtReq (d : Dev) : d.sent.mgmtReq = d.mgmtReq := rfl
@[simp] theorem Dev.sent_wdogAt (d : Dev) : d.sent.wdogAt = d.wdogAt := rfl
@[simp] theorem Dev.sent_wdogHit (d : Dev) : d.sent.wdogHit = d.wdogHit := rfl
@[simp] theorem Dev.sent_wakeLatch (d : Dev) : d.sent.wakeLatch = d.wakeLatch := rfl
@[simp] theorem Dev.sent_l2Ram (d : Dev) : d.sent.l2Ram = d.l2Ram := rfl
@[simp] theorem Dev.sent_l2 (d : Dev) : d.sent.l2 = d.l2 := rfl
@[simp] theorem Dev.sent_enHeld (d : Dev) : d.sent.enHeld = d.enHeld := rfl
@[simp] theorem Dev.sent_regions (d : Dev) : d.sent.regions = d.regions := rfl
@[simp] theorem Dev.sent_heldSteps (d : Dev) : d.sent.heldSteps = d.heldSteps := rfl
@[simp] theorem Dev.sent_regWrites (d : Dev) : d.sent.regWrites = d.regWrites := rfl
@[simp] theorem Dev.sent_vioAt (d : Dev) : d.sent.vioAt = d.vioAt := rfl
@[simp] theorem Dev.sent_trim (d : Dev) : d.sent.trim = d.trim := rfl
@[simp] theorem Dev.sent_reef (d : Dev) : d.sent.reef = d.reef := rfl
@[simp] theorem Dev.sent_booted (d : Dev) : d.sent.booted = d.booted := rfl
@[simp] theorem Dev.sent_bootHalted (d : Dev) : d.sent.bootHalted = d.bootHalted := rfl
@[simp] theorem Dev.sent_runRollback (d : Dev) : d.sent.runRollback = d.runRollback := rfl
@[simp] theorem Dev.sent_pllLostAt (d : Dev) : d.sent.pllLostAt = d.pllLostAt := rfl
@[simp] theorem Dev.sent_warmLen (d : Dev) : d.sent.warmLen = d.warmLen := rfl
@[simp] theorem Dev.sent_warmEntry (d : Dev) : d.sent.warmEntry = d.warmEntry := rfl
@[simp] theorem Dev.sent_warmRollback (d : Dev) : d.sent.warmRollback = d.warmRollback := rfl
@[simp] theorem Dev.sent_warmVersion (d : Dev) : d.sent.warmVersion = d.warmVersion := rfl
@[simp] theorem Dev.sent_standbyAt (d : Dev) : d.sent.standbyAt = d.standbyAt := rfl

@[simp] theorem Dev.free_power (d : Dev) (w : Nat) : (d.free w).2.power = d.power := rfl
@[simp] theorem Dev.free_pwrEn (d : Dev) (w : Nat) : (d.free w).2.pwrEn = d.pwrEn := rfl
@[simp] theorem Dev.free_sleepAt (d : Dev) (w : Nat) : (d.free w).2.sleepAt = d.sleepAt := rfl
@[simp] theorem Dev.free_now (d : Dev) (w : Nat) : (d.free w).2.now = d.now := rfl
@[simp] theorem Dev.free_resetAt (d : Dev) (w : Nat) : (d.free w).2.resetAt = d.resetAt := rfl
@[simp] theorem Dev.free_clk (d : Dev) (w : Nat) : (d.free w).2.clk = d.clk := rfl
@[simp] theorem Dev.free_regs (d : Dev) (w : Nat) : (d.free w).2.regs = d.regs := rfl
@[simp] theorem Dev.free_sysReq (d : Dev) (w : Nat) : (d.free w).2.sysReq = d.sysReq := rfl
@[simp] theorem Dev.free_sysHold (d : Dev) (w : Nat) : (d.free w).2.sysHold = d.sysHold := rfl
@[simp] theorem Dev.free_burnReq (d : Dev) (w : Nat) : (d.free w).2.burnReq = d.burnReq := rfl
@[simp] theorem Dev.free_out (d : Dev) (w : Nat) : (d.free w).2.out = d.out := rfl
@[simp] theorem Dev.free_busResp (d : Dev) (w : Nat) : (d.free w).2.busResp = d.busResp := rfl
@[simp] theorem Dev.free_pins (d : Dev) (w : Nat) : (d.free w).2.pins = d.pins := rfl
@[simp] theorem Dev.free_lastBeat (d : Dev) (w : Nat) : (d.free w).2.lastBeat = d.lastBeat := rfl
@[simp] theorem Dev.free_armed (d : Dev) (w : Nat) : (d.free w).2.armed = d.armed := rfl
@[simp] theorem Dev.free_planCheck (d : Dev) (w : Nat) : (d.free w).2.planCheck = d.planCheck := rfl
@[simp] theorem Dev.free_evq (d : Dev) (w : Nat) : (d.free w).2.evq = d.evq := rfl
@[simp] theorem Dev.free_versions (d : Dev) (w : Nat) : (d.free w).2.versions = d.versions := rfl
@[simp] theorem Dev.free_liveOrd (d : Dev) (w : Nat) : (d.free w).2.liveOrd = d.liveOrd := rfl
@[simp] theorem Dev.free_planeLive (d : Dev) (w : Nat) : (d.free w).2.planeLive = d.planeLive := rfl
@[simp] theorem Dev.free_epoch0 (d : Dev) (w : Nat) : (d.free w).2.epoch0 = d.epoch0 := rfl
@[simp] theorem Dev.free_cutoffDone (d : Dev) (w : Nat) : (d.free w).2.cutoffDone = d.cutoffDone := rfl
@[simp] theorem Dev.free_stopMode (d : Dev) (w : Nat) : (d.free w).2.stopMode = d.stopMode := rfl
@[simp] theorem Dev.free_stopOrd (d : Dev) (w : Nat) : (d.free w).2.stopOrd = d.stopOrd := rfl
@[simp] theorem Dev.free_planJob (d : Dev) (w : Nat) : (d.free w).2.planJob = d.planJob := rfl
@[simp] theorem Dev.free_passWritten (d : Dev) (w : Nat) : (d.free w).2.passWritten = d.passWritten := rfl
@[simp] theorem Dev.free_nozSh (d : Dev) (w : Nat) : (d.free w).2.nozSh = d.nozSh := rfl
@[simp] theorem Dev.free_tileSh (d : Dev) (w : Nat) : (d.free w).2.tileSh = d.tileSh := rfl
@[simp] theorem Dev.free_waveSh (d : Dev) (w : Nat) : (d.free w).2.waveSh = d.waveSh := rfl
@[simp] theorem Dev.free_ftrimSh (d : Dev) (w : Nat) : (d.free w).2.ftrimSh = d.ftrimSh := rfl
@[simp] theorem Dev.free_dtrimSh (d : Dev) (w : Nat) : (d.free w).2.dtrimSh = d.dtrimSh := rfl
@[simp] theorem Dev.free_shAt (d : Dev) (w : Nat) : (d.free w).2.shAt = d.shAt := rfl
@[simp] theorem Dev.free_shOld (d : Dev) (w : Nat) : (d.free w).2.shOld = d.shOld := rfl
@[simp] theorem Dev.free_encs (d : Dev) (w : Nat) : (d.free w).2.encs = d.encs := rfl
@[simp] theorem Dev.free_qdIn (d : Dev) (w : Nat) : (d.free w).2.qdIn = d.qdIn := rfl
@[simp] theorem Dev.free_venc (d : Dev) (w : Nat) : (d.free w).2.venc = d.venc := rfl
@[simp] theorem Dev.free_vencIdle (d : Dev) (w : Nat) : (d.free w).2.vencIdle = d.vencIdle := rfl
@[simp] theorem Dev.free_vencFresh (d : Dev) (w : Nat) : (d.free w).2.vencFresh = d.vencFresh := rfl
@[simp] theorem Dev.free_pubFb (d : Dev) (w : Nat) : (d.free w).2.pubFb = d.pubFb := rfl
@[simp] theorem Dev.free_pubDelta (d : Dev) (w : Nat) : (d.free w).2.pubDelta = d.pubDelta := rfl
@[simp] theorem Dev.free_vencSeqs (d : Dev) (w : Nat) : (d.free w).2.vencSeqs = d.vencSeqs := rfl
@[simp] theorem Dev.free_vencAt (d : Dev) (w : Nat) : (d.free w).2.vencAt = d.vencAt := rfl
@[simp] theorem Dev.free_vencOut (d : Dev) (w : Nat) : (d.free w).2.vencOut = d.vencOut := rfl
@[simp] theorem Dev.free_vencPrev (d : Dev) (w : Nat) : (d.free w).2.vencPrev = d.vencPrev := rfl
@[simp] theorem Dev.free_tm (d : Dev) (w : Nat) : (d.free w).2.tm = d.tm := rfl
@[simp] theorem Dev.free_path (d : Dev) (w : Nat) : (d.free w).2.path = d.path := rfl
@[simp] theorem Dev.free_jtp (d : Dev) (w : Nat) : (d.free w).2.jtp = d.jtp := rfl
@[simp] theorem Dev.free_cmp (d : Dev) (w : Nat) : (d.free w).2.cmp = d.cmp := rfl
@[simp] theorem Dev.free_codecErrHeld (d : Dev) (w : Nat) : (d.free w).2.codecErrHeld = d.codecErrHeld := rfl
@[simp] theorem Dev.free_streams (d : Dev) (w : Nat) : (d.free w).2.streams = d.streams := rfl
@[simp] theorem Dev.free_corPending (d : Dev) (w : Nat) : (d.free w).2.corPending = d.corPending := rfl
@[simp] theorem Dev.free_copies (d : Dev) (w : Nat) : (d.free w).2.copies = d.copies := rfl
@[simp] theorem Dev.free_planes (d : Dev) (w : Nat) : (d.free w).2.planes = d.planes := rfl
@[simp] theorem Dev.free_plogHeld (d : Dev) (w : Nat) : (d.free w).2.plogHeld = d.plogHeld := rfl
@[simp] theorem Dev.free_plogReserve (d : Dev) (w : Nat) : (d.free w).2.plogReserve = d.plogReserve := rfl
@[simp] theorem Dev.free_plogLost (d : Dev) (w : Nat) : (d.free w).2.plogLost = d.plogLost := rfl
@[simp] theorem Dev.free_wear (d : Dev) (w : Nat) : (d.free w).2.wear = d.wear := rfl
@[simp] theorem Dev.free_nozHi (d : Dev) (w : Nat) : (d.free w).2.nozHi = d.nozHi := rfl
@[simp] theorem Dev.free_wearHi (d : Dev) (w : Nat) : (d.free w).2.wearHi = d.wearHi := rfl
@[simp] theorem Dev.free_heads (d : Dev) (w : Nat) : (d.free w).2.heads = d.heads := rfl
@[simp] theorem Dev.free_taus (d : Dev) (w : Nat) : (d.free w).2.taus = d.taus := rfl
@[simp] theorem Dev.free_tapSeen (d : Dev) (w : Nat) : (d.free w).2.tapSeen = d.tapSeen := rfl
@[simp] theorem Dev.free_rejects (d : Dev) (w : Nat) : (d.free w).2.rejects = d.rejects := rfl
@[simp] theorem Dev.free_rejectPts (d : Dev) (w : Nat) : (d.free w).2.rejectPts = d.rejectPts := rfl
@[simp] theorem Dev.free_rejectEnd (d : Dev) (w : Nat) : (d.free w).2.rejectEnd = d.rejectEnd := rfl
@[simp] theorem Dev.free_schedDue (d : Dev) (w : Nat) : (d.free w).2.schedDue = d.schedDue := rfl
@[simp] theorem Dev.free_links (d : Dev) (w : Nat) : (d.free w).2.links = d.links := rfl
@[simp] theorem Dev.free_sscLag (d : Dev) (w : Nat) : (d.free w).2.sscLag = d.sscLag := rfl
@[simp] theorem Dev.free_sscAt (d : Dev) (w : Nat) : (d.free w).2.sscAt = d.sscAt := rfl
@[simp] theorem Dev.free_stay (d : Dev) (w : Nat) : (d.free w).2.stay = d.stay := rfl
@[simp] theorem Dev.free_insp (d : Dev) (w : Nat) : (d.free w).2.insp = d.insp := rfl
@[simp] theorem Dev.free_mot (d : Dev) (w : Nat) : (d.free w).2.mot = d.mot := rfl
@[simp] theorem Dev.free_dram (d : Dev) (w : Nat) : (d.free w).2.dram = d.dram := rfl
@[simp] theorem Dev.free_ue (d : Dev) (w : Nat) : (d.free w).2.ue = d.ue := rfl
@[simp] theorem Dev.free_remap (d : Dev) (w : Nat) : (d.free w).2.remap = d.remap := rfl
@[simp] theorem Dev.free_autoWant (d : Dev) (w : Nat) : (d.free w).2.autoWant = d.autoWant := rfl
@[simp] theorem Dev.free_training (d : Dev) (w : Nat) : (d.free w).2.training = d.training := rfl
@[simp] theorem Dev.free_trainedRates (d : Dev) (w : Nat) : (d.free w).2.trainedRates = d.trainedRates := rfl
@[simp] theorem Dev.free_eyes (d : Dev) (w : Nat) : (d.free w).2.eyes = d.eyes := rfl
@[simp] theorem Dev.free_refsbCount (d : Dev) (w : Nat) : (d.free w).2.refsbCount = d.refsbCount := rfl
@[simp] theorem Dev.free_trackLane (d : Dev) (w : Nat) : (d.free w).2.trackLane = d.trackLane := rfl
@[simp] theorem Dev.free_rankDown (d : Dev) (w : Nat) : (d.free w).2.rankDown = d.rankDown := rfl
@[simp] theorem Dev.free_rankUsed (d : Dev) (w : Nat) : (d.free w).2.rankUsed = d.rankUsed := rfl
@[simp] theorem Dev.free_rows (d : Dev) (w : Nat) : (d.free w).2.rows = d.rows := rfl
@[simp] theorem Dev.free_throttled (d : Dev) (w : Nat) : (d.free w).2.throttled = d.throttled := rfl
@[simp] theorem Dev.free_dramHeld (d : Dev) (w : Nat) : (d.free w).2.dramHeld = d.dramHeld := rfl
@[simp] theorem Dev.free_banks (d : Dev) (w : Nat) : (d.free w).2.banks = d.banks := rfl
@[simp] theorem Dev.free_lastAct (d : Dev) (w : Nat) : (d.free w).2.lastAct = d.lastAct := rfl
@[simp] theorem Dev.free_stalled (d : Dev) (w : Nat) : (d.free w).2.stalled = d.stalled := rfl
@[simp] theorem Dev.free_scrubPos (d : Dev) (w : Nat) : (d.free w).2.scrubPos = d.scrubPos := rfl
@[simp] theorem Dev.free_leakAt (d : Dev) (w : Nat) : (d.free w).2.leakAt = d.leakAt := rfl
@[simp] theorem Dev.free_leakUndo (d : Dev) (w : Nat) : (d.free w).2.leakUndo = d.leakUndo := rfl
@[simp] theorem Dev.free_corePc (d : Dev) (w : Nat) : (d.free w).2.corePc = d.corePc := rfl
@[simp] theorem Dev.free_spurWatch (d : Dev) (w : Nat) : (d.free w).2.spurWatch = d.spurWatch := rfl
@[simp] theorem Dev.free_mgmtReq (d : Dev) (w : Nat) : (d.free w).2.mgmtReq = d.mgmtReq := rfl
@[simp] theorem Dev.free_wdogAt (d : Dev) (w : Nat) : (d.free w).2.wdogAt = d.wdogAt := rfl
@[simp] theorem Dev.free_wdogHit (d : Dev) (w : Nat) : (d.free w).2.wdogHit = d.wdogHit := rfl
@[simp] theorem Dev.free_wakeLatch (d : Dev) (w : Nat) : (d.free w).2.wakeLatch = d.wakeLatch := rfl
@[simp] theorem Dev.free_l2Ram (d : Dev) (w : Nat) : (d.free w).2.l2Ram = d.l2Ram := rfl
@[simp] theorem Dev.free_l2 (d : Dev) (w : Nat) : (d.free w).2.l2 = d.l2 := rfl
@[simp] theorem Dev.free_enHeld (d : Dev) (w : Nat) : (d.free w).2.enHeld = d.enHeld := rfl
@[simp] theorem Dev.free_regions (d : Dev) (w : Nat) : (d.free w).2.regions = d.regions := rfl
@[simp] theorem Dev.free_heldSteps (d : Dev) (w : Nat) : (d.free w).2.heldSteps = d.heldSteps := rfl
@[simp] theorem Dev.free_regWrites (d : Dev) (w : Nat) : (d.free w).2.regWrites = d.regWrites := rfl
@[simp] theorem Dev.free_vioAt (d : Dev) (w : Nat) : (d.free w).2.vioAt = d.vioAt := rfl
@[simp] theorem Dev.free_trim (d : Dev) (w : Nat) : (d.free w).2.trim = d.trim := rfl
@[simp] theorem Dev.free_reef (d : Dev) (w : Nat) : (d.free w).2.reef = d.reef := rfl
@[simp] theorem Dev.free_booted (d : Dev) (w : Nat) : (d.free w).2.booted = d.booted := rfl
@[simp] theorem Dev.free_bootHalted (d : Dev) (w : Nat) : (d.free w).2.bootHalted = d.bootHalted := rfl
@[simp] theorem Dev.free_runRollback (d : Dev) (w : Nat) : (d.free w).2.runRollback = d.runRollback := rfl
@[simp] theorem Dev.free_pllLostAt (d : Dev) (w : Nat) : (d.free w).2.pllLostAt = d.pllLostAt := rfl
@[simp] theorem Dev.free_warmLen (d : Dev) (w : Nat) : (d.free w).2.warmLen = d.warmLen := rfl
@[simp] theorem Dev.free_warmEntry (d : Dev) (w : Nat) : (d.free w).2.warmEntry = d.warmEntry := rfl
@[simp] theorem Dev.free_warmRollback (d : Dev) (w : Nat) : (d.free w).2.warmRollback = d.warmRollback := rfl
@[simp] theorem Dev.free_warmVersion (d : Dev) (w : Nat) : (d.free w).2.warmVersion = d.warmVersion := rfl
@[simp] theorem Dev.free_standbyAt (d : Dev) (w : Nat) : (d.free w).2.standbyAt = d.standbyAt := rfl
/-- All that `Dev.drive` can change. -/
theorem Dev.drive_frame (d : Dev) (p : OutPin) (i v : Nat) : d.drive p i v = { d with pins := (d.drive p i v).pins, out := (d.drive p i v).out } := by
  unfold Dev.drive
  simp only
  split <;> rfl

@[simp] theorem Dev.drive_power (d : Dev) (p : OutPin) (i v : Nat) : (d.drive p i v).power = d.power :=
  (congrArg Dev.power (Dev.drive_frame d p i v)).trans rfl
@[simp] theorem Dev.drive_now (d : Dev) (p : OutPin) (i v : Nat) : (d.drive p i v).now = d.now :=
  (congrArg Dev.now (Dev.drive_frame d p i v)).trans rfl
@[simp] theorem Dev.drive_clk (d : Dev) (p : OutPin) (i v : Nat) : (d.drive p i v).clk = d.clk :=
  (congrArg Dev.clk (Dev.drive_frame d p i v)).trans rfl
@[simp] theorem Dev.drive_regs (d : Dev) (p : OutPin) (i v : Nat) : (d.drive p i v).regs = d.regs :=
  (congrArg Dev.regs (Dev.drive_frame d p i v)).trans rfl
@[simp] theorem Dev.drive_sysReq (d : Dev) (p : OutPin) (i v : Nat) : (d.drive p i v).sysReq = d.sysReq :=
  (congrArg Dev.sysReq (Dev.drive_frame d p i v)).trans rfl
@[simp] theorem Dev.drive_burnReq (d : Dev) (p : OutPin) (i v : Nat) : (d.drive p i v).burnReq = d.burnReq :=
  (congrArg Dev.burnReq (Dev.drive_frame d p i v)).trans rfl
@[simp] theorem Dev.drive_freeCtr (d : Dev) (p : OutPin) (i v : Nat) : (d.drive p i v).freeCtr = d.freeCtr :=
  (congrArg Dev.freeCtr (Dev.drive_frame d p i v)).trans rfl
@[simp] theorem Dev.drive_busResp (d : Dev) (p : OutPin) (i v : Nat) : (d.drive p i v).busResp = d.busResp :=
  (congrArg Dev.busResp (Dev.drive_frame d p i v)).trans rfl
@[simp] theorem Dev.drive_lastBeat (d : Dev) (p : OutPin) (i v : Nat) : (d.drive p i v).lastBeat = d.lastBeat :=
  (congrArg Dev.lastBeat (Dev.drive_frame d p i v)).trans rfl
@[simp] theorem Dev.drive_armed (d : Dev) (p : OutPin) (i v : Nat) : (d.drive p i v).armed = d.armed :=
  (congrArg Dev.armed (Dev.drive_frame d p i v)).trans rfl
@[simp] theorem Dev.drive_evq (d : Dev) (p : OutPin) (i v : Nat) : (d.drive p i v).evq = d.evq :=
  (congrArg Dev.evq (Dev.drive_frame d p i v)).trans rfl
@[simp] theorem Dev.drive_tm (d : Dev) (p : OutPin) (i v : Nat) : (d.drive p i v).tm = d.tm :=
  (congrArg Dev.tm (Dev.drive_frame d p i v)).trans rfl
@[simp] theorem Dev.drive_path (d : Dev) (p : OutPin) (i v : Nat) : (d.drive p i v).path = d.path :=
  (congrArg Dev.path (Dev.drive_frame d p i v)).trans rfl
@[simp] theorem Dev.drive_jtp (d : Dev) (p : OutPin) (i v : Nat) : (d.drive p i v).jtp = d.jtp :=
  (congrArg Dev.jtp (Dev.drive_frame d p i v)).trans rfl
@[simp] theorem Dev.drive_planes (d : Dev) (p : OutPin) (i v : Nat) : (d.drive p i v).planes = d.planes :=
  (congrArg Dev.planes (Dev.drive_frame d p i v)).trans rfl
@[simp] theorem Dev.drive_heads (d : Dev) (p : OutPin) (i v : Nat) : (d.drive p i v).heads = d.heads :=
  (congrArg Dev.heads (Dev.drive_frame d p i v)).trans rfl
@[simp] theorem Dev.drive_links (d : Dev) (p : OutPin) (i v : Nat) : (d.drive p i v).links = d.links :=
  (congrArg Dev.links (Dev.drive_frame d p i v)).trans rfl
@[simp] theorem Dev.drive_stay (d : Dev) (p : OutPin) (i v : Nat) : (d.drive p i v).stay = d.stay :=
  (congrArg Dev.stay (Dev.drive_frame d p i v)).trans rfl
@[simp] theorem Dev.drive_insp (d : Dev) (p : OutPin) (i v : Nat) : (d.drive p i v).insp = d.insp :=
  (congrArg Dev.insp (Dev.drive_frame d p i v)).trans rfl
@[simp] theorem Dev.drive_mot (d : Dev) (p : OutPin) (i v : Nat) : (d.drive p i v).mot = d.mot :=
  (congrArg Dev.mot (Dev.drive_frame d p i v)).trans rfl
@[simp] theorem Dev.drive_dram (d : Dev) (p : OutPin) (i v : Nat) : (d.drive p i v).dram = d.dram :=
  (congrArg Dev.dram (Dev.drive_frame d p i v)).trans rfl
@[simp] theorem Dev.drive_l2 (d : Dev) (p : OutPin) (i v : Nat) : (d.drive p i v).l2 = d.l2 :=
  (congrArg Dev.l2 (Dev.drive_frame d p i v)).trans rfl
@[simp] theorem Dev.drive_trim (d : Dev) (p : OutPin) (i v : Nat) : (d.drive p i v).trim = d.trim :=
  (congrArg Dev.trim (Dev.drive_frame d p i v)).trans rfl

/-- All that `Dev.ring` can change. -/
theorem Dev.ring_frame (d : Dev) (n : Nat) : d.ring n = { d with regs := (d.ring n).regs } := by
  unfold Dev.ring Dev.setSharedPending
  split <;> rfl

@[simp] theorem Dev.ring_power (d : Dev) (n : Nat) : (d.ring n).power = d.power :=
  (congrArg Dev.power (Dev.ring_frame d n)).trans rfl
@[simp] theorem Dev.ring_now (d : Dev) (n : Nat) : (d.ring n).now = d.now :=
  (congrArg Dev.now (Dev.ring_frame d n)).trans rfl
@[simp] theorem Dev.ring_clk (d : Dev) (n : Nat) : (d.ring n).clk = d.clk :=
  (congrArg Dev.clk (Dev.ring_frame d n)).trans rfl
@[simp] theorem Dev.ring_sysReq (d : Dev) (n : Nat) : (d.ring n).sysReq = d.sysReq :=
  (congrArg Dev.sysReq (Dev.ring_frame d n)).trans rfl
@[simp] theorem Dev.ring_burnReq (d : Dev) (n : Nat) : (d.ring n).burnReq = d.burnReq :=
  (congrArg Dev.burnReq (Dev.ring_frame d n)).trans rfl
@[simp] theorem Dev.ring_out (d : Dev) (n : Nat) : (d.ring n).out = d.out :=
  (congrArg Dev.out (Dev.ring_frame d n)).trans rfl
@[simp] theorem Dev.ring_freeCtr (d : Dev) (n : Nat) : (d.ring n).freeCtr = d.freeCtr :=
  (congrArg Dev.freeCtr (Dev.ring_frame d n)).trans rfl
@[simp] theorem Dev.ring_busResp (d : Dev) (n : Nat) : (d.ring n).busResp = d.busResp :=
  (congrArg Dev.busResp (Dev.ring_frame d n)).trans rfl
@[simp] theorem Dev.ring_pins (d : Dev) (n : Nat) : (d.ring n).pins = d.pins :=
  (congrArg Dev.pins (Dev.ring_frame d n)).trans rfl
@[simp] theorem Dev.ring_lastBeat (d : Dev) (n : Nat) : (d.ring n).lastBeat = d.lastBeat :=
  (congrArg Dev.lastBeat (Dev.ring_frame d n)).trans rfl
@[simp] theorem Dev.ring_armed (d : Dev) (n : Nat) : (d.ring n).armed = d.armed :=
  (congrArg Dev.armed (Dev.ring_frame d n)).trans rfl
@[simp] theorem Dev.ring_evq (d : Dev) (n : Nat) : (d.ring n).evq = d.evq :=
  (congrArg Dev.evq (Dev.ring_frame d n)).trans rfl
@[simp] theorem Dev.ring_tm (d : Dev) (n : Nat) : (d.ring n).tm = d.tm :=
  (congrArg Dev.tm (Dev.ring_frame d n)).trans rfl
@[simp] theorem Dev.ring_path (d : Dev) (n : Nat) : (d.ring n).path = d.path :=
  (congrArg Dev.path (Dev.ring_frame d n)).trans rfl
@[simp] theorem Dev.ring_jtp (d : Dev) (n : Nat) : (d.ring n).jtp = d.jtp :=
  (congrArg Dev.jtp (Dev.ring_frame d n)).trans rfl
@[simp] theorem Dev.ring_planes (d : Dev) (n : Nat) : (d.ring n).planes = d.planes :=
  (congrArg Dev.planes (Dev.ring_frame d n)).trans rfl
@[simp] theorem Dev.ring_heads (d : Dev) (n : Nat) : (d.ring n).heads = d.heads :=
  (congrArg Dev.heads (Dev.ring_frame d n)).trans rfl
@[simp] theorem Dev.ring_links (d : Dev) (n : Nat) : (d.ring n).links = d.links :=
  (congrArg Dev.links (Dev.ring_frame d n)).trans rfl
@[simp] theorem Dev.ring_stay (d : Dev) (n : Nat) : (d.ring n).stay = d.stay :=
  (congrArg Dev.stay (Dev.ring_frame d n)).trans rfl
@[simp] theorem Dev.ring_insp (d : Dev) (n : Nat) : (d.ring n).insp = d.insp :=
  (congrArg Dev.insp (Dev.ring_frame d n)).trans rfl
@[simp] theorem Dev.ring_mot (d : Dev) (n : Nat) : (d.ring n).mot = d.mot :=
  (congrArg Dev.mot (Dev.ring_frame d n)).trans rfl
@[simp] theorem Dev.ring_dram (d : Dev) (n : Nat) : (d.ring n).dram = d.dram :=
  (congrArg Dev.dram (Dev.ring_frame d n)).trans rfl
@[simp] theorem Dev.ring_l2 (d : Dev) (n : Nat) : (d.ring n).l2 = d.l2 :=
  (congrArg Dev.l2 (Dev.ring_frame d n)).trans rfl
@[simp] theorem Dev.ring_trim (d : Dev) (n : Nat) : (d.ring n).trim = d.trim :=
  (congrArg Dev.trim (Dev.ring_frame d n)).trans rfl

/-- All that `Dev.ringPrivate` can change. -/
theorem Dev.ringPrivate_frame (d : Dev) (c n : Nat) : d.ringPrivate c n = { d with regs := (d.ringPrivate c n).regs } := by
  unfold Dev.ringPrivate
  simp only
  split <;> rfl

@[simp] theorem Dev.ringPrivate_power (d : Dev) (c n : Nat) : (d.ringPrivate c n).power = d.power :=
  (congrArg Dev.power (Dev.ringPrivate_frame d c n)).trans rfl
@[simp] theorem Dev.ringPrivate_now (d : Dev) (c n : Nat) : (d.ringPrivate c n).now = d.now :=
  (congrArg Dev.now (Dev.ringPrivate_frame d c n)).trans rfl
@[simp] theorem Dev.ringPrivate_clk (d : Dev) (c n : Nat) : (d.ringPrivate c n).clk = d.clk :=
  (congrArg Dev.clk (Dev.ringPrivate_frame d c n)).trans rfl
@[simp] theorem Dev.ringPrivate_sysReq (d : Dev) (c n : Nat) : (d.ringPrivate c n).sysReq = d.sysReq :=
  (congrArg Dev.sysReq (Dev.ringPrivate_frame d c n)).trans rfl
@[simp] theorem Dev.ringPrivate_burnReq (d : Dev) (c n : Nat) : (d.ringPrivate c n).burnReq = d.burnReq :=
  (congrArg Dev.burnReq (Dev.ringPrivate_frame d c n)).trans rfl
@[simp] theorem Dev.ringPrivate_out (d : Dev) (c n : Nat) : (d.ringPrivate c n).out = d.out :=
  (congrArg Dev.out (Dev.ringPrivate_frame d c n)).trans rfl
@[simp] theorem Dev.ringPrivate_freeCtr (d : Dev) (c n : Nat) : (d.ringPrivate c n).freeCtr = d.freeCtr :=
  (congrArg Dev.freeCtr (Dev.ringPrivate_frame d c n)).trans rfl
@[simp] theorem Dev.ringPrivate_busResp (d : Dev) (c n : Nat) : (d.ringPrivate c n).busResp = d.busResp :=
  (congrArg Dev.busResp (Dev.ringPrivate_frame d c n)).trans rfl
@[simp] theorem Dev.ringPrivate_pins (d : Dev) (c n : Nat) : (d.ringPrivate c n).pins = d.pins :=
  (congrArg Dev.pins (Dev.ringPrivate_frame d c n)).trans rfl
@[simp] theorem Dev.ringPrivate_lastBeat (d : Dev) (c n : Nat) : (d.ringPrivate c n).lastBeat = d.lastBeat :=
  (congrArg Dev.lastBeat (Dev.ringPrivate_frame d c n)).trans rfl
@[simp] theorem Dev.ringPrivate_armed (d : Dev) (c n : Nat) : (d.ringPrivate c n).armed = d.armed :=
  (congrArg Dev.armed (Dev.ringPrivate_frame d c n)).trans rfl
@[simp] theorem Dev.ringPrivate_evq (d : Dev) (c n : Nat) : (d.ringPrivate c n).evq = d.evq :=
  (congrArg Dev.evq (Dev.ringPrivate_frame d c n)).trans rfl
@[simp] theorem Dev.ringPrivate_tm (d : Dev) (c n : Nat) : (d.ringPrivate c n).tm = d.tm :=
  (congrArg Dev.tm (Dev.ringPrivate_frame d c n)).trans rfl
@[simp] theorem Dev.ringPrivate_path (d : Dev) (c n : Nat) : (d.ringPrivate c n).path = d.path :=
  (congrArg Dev.path (Dev.ringPrivate_frame d c n)).trans rfl
@[simp] theorem Dev.ringPrivate_jtp (d : Dev) (c n : Nat) : (d.ringPrivate c n).jtp = d.jtp :=
  (congrArg Dev.jtp (Dev.ringPrivate_frame d c n)).trans rfl
@[simp] theorem Dev.ringPrivate_planes (d : Dev) (c n : Nat) : (d.ringPrivate c n).planes = d.planes :=
  (congrArg Dev.planes (Dev.ringPrivate_frame d c n)).trans rfl
@[simp] theorem Dev.ringPrivate_heads (d : Dev) (c n : Nat) : (d.ringPrivate c n).heads = d.heads :=
  (congrArg Dev.heads (Dev.ringPrivate_frame d c n)).trans rfl
@[simp] theorem Dev.ringPrivate_links (d : Dev) (c n : Nat) : (d.ringPrivate c n).links = d.links :=
  (congrArg Dev.links (Dev.ringPrivate_frame d c n)).trans rfl
@[simp] theorem Dev.ringPrivate_stay (d : Dev) (c n : Nat) : (d.ringPrivate c n).stay = d.stay :=
  (congrArg Dev.stay (Dev.ringPrivate_frame d c n)).trans rfl
@[simp] theorem Dev.ringPrivate_insp (d : Dev) (c n : Nat) : (d.ringPrivate c n).insp = d.insp :=
  (congrArg Dev.insp (Dev.ringPrivate_frame d c n)).trans rfl
@[simp] theorem Dev.ringPrivate_mot (d : Dev) (c n : Nat) : (d.ringPrivate c n).mot = d.mot :=
  (congrArg Dev.mot (Dev.ringPrivate_frame d c n)).trans rfl
@[simp] theorem Dev.ringPrivate_dram (d : Dev) (c n : Nat) : (d.ringPrivate c n).dram = d.dram :=
  (congrArg Dev.dram (Dev.ringPrivate_frame d c n)).trans rfl
@[simp] theorem Dev.ringPrivate_l2 (d : Dev) (c n : Nat) : (d.ringPrivate c n).l2 = d.l2 :=
  (congrArg Dev.l2 (Dev.ringPrivate_frame d c n)).trans rfl
@[simp] theorem Dev.ringPrivate_trim (d : Dev) (c n : Nat) : (d.ringPrivate c n).trim = d.trim :=
  (congrArg Dev.trim (Dev.ringPrivate_frame d c n)).trans rfl

/-- All that `Dev.raiseBits` can change. -/
theorem Dev.raiseBits_frame (d : Dev) (p m : Nat) : d.raiseBits p m = { d with regs := (d.raiseBits p m).regs } := by
  unfold Dev.raiseBits Dev.withSource
  simp only
  split
  · rw [Dev.ring_frame]; rfl
  · split <;> rfl

@[simp] theorem Dev.raiseBits_power (d : Dev) (p m : Nat) : (d.raiseBits p m).power = d.power :=
  (congrArg Dev.power (Dev.raiseBits_frame d p m)).trans rfl
@[simp] theorem Dev.raiseBits_now (d : Dev) (p m : Nat) : (d.raiseBits p m).now = d.now :=
  (congrArg Dev.now (Dev.raiseBits_frame d p m)).trans rfl
@[simp] theorem Dev.raiseBits_clk (d : Dev) (p m : Nat) : (d.raiseBits p m).clk = d.clk :=
  (congrArg Dev.clk (Dev.raiseBits_frame d p m)).trans rfl
@[simp] theorem Dev.raiseBits_sysReq (d : Dev) (p m : Nat) : (d.raiseBits p m).sysReq = d.sysReq :=
  (congrArg Dev.sysReq (Dev.raiseBits_frame d p m)).trans rfl
@[simp] theorem Dev.raiseBits_burnReq (d : Dev) (p m : Nat) : (d.raiseBits p m).burnReq = d.burnReq :=
  (congrArg Dev.burnReq (Dev.raiseBits_frame d p m)).trans rfl
@[simp] theorem Dev.raiseBits_out (d : Dev) (p m : Nat) : (d.raiseBits p m).out = d.out :=
  (congrArg Dev.out (Dev.raiseBits_frame d p m)).trans rfl
@[simp] theorem Dev.raiseBits_freeCtr (d : Dev) (p m : Nat) : (d.raiseBits p m).freeCtr = d.freeCtr :=
  (congrArg Dev.freeCtr (Dev.raiseBits_frame d p m)).trans rfl
@[simp] theorem Dev.raiseBits_busResp (d : Dev) (p m : Nat) : (d.raiseBits p m).busResp = d.busResp :=
  (congrArg Dev.busResp (Dev.raiseBits_frame d p m)).trans rfl
@[simp] theorem Dev.raiseBits_pins (d : Dev) (p m : Nat) : (d.raiseBits p m).pins = d.pins :=
  (congrArg Dev.pins (Dev.raiseBits_frame d p m)).trans rfl
@[simp] theorem Dev.raiseBits_lastBeat (d : Dev) (p m : Nat) : (d.raiseBits p m).lastBeat = d.lastBeat :=
  (congrArg Dev.lastBeat (Dev.raiseBits_frame d p m)).trans rfl
@[simp] theorem Dev.raiseBits_armed (d : Dev) (p m : Nat) : (d.raiseBits p m).armed = d.armed :=
  (congrArg Dev.armed (Dev.raiseBits_frame d p m)).trans rfl
@[simp] theorem Dev.raiseBits_evq (d : Dev) (p m : Nat) : (d.raiseBits p m).evq = d.evq :=
  (congrArg Dev.evq (Dev.raiseBits_frame d p m)).trans rfl
@[simp] theorem Dev.raiseBits_tm (d : Dev) (p m : Nat) : (d.raiseBits p m).tm = d.tm :=
  (congrArg Dev.tm (Dev.raiseBits_frame d p m)).trans rfl
@[simp] theorem Dev.raiseBits_path (d : Dev) (p m : Nat) : (d.raiseBits p m).path = d.path :=
  (congrArg Dev.path (Dev.raiseBits_frame d p m)).trans rfl
@[simp] theorem Dev.raiseBits_jtp (d : Dev) (p m : Nat) : (d.raiseBits p m).jtp = d.jtp :=
  (congrArg Dev.jtp (Dev.raiseBits_frame d p m)).trans rfl
@[simp] theorem Dev.raiseBits_planes (d : Dev) (p m : Nat) : (d.raiseBits p m).planes = d.planes :=
  (congrArg Dev.planes (Dev.raiseBits_frame d p m)).trans rfl
@[simp] theorem Dev.raiseBits_heads (d : Dev) (p m : Nat) : (d.raiseBits p m).heads = d.heads :=
  (congrArg Dev.heads (Dev.raiseBits_frame d p m)).trans rfl
@[simp] theorem Dev.raiseBits_links (d : Dev) (p m : Nat) : (d.raiseBits p m).links = d.links :=
  (congrArg Dev.links (Dev.raiseBits_frame d p m)).trans rfl
@[simp] theorem Dev.raiseBits_stay (d : Dev) (p m : Nat) : (d.raiseBits p m).stay = d.stay :=
  (congrArg Dev.stay (Dev.raiseBits_frame d p m)).trans rfl
@[simp] theorem Dev.raiseBits_insp (d : Dev) (p m : Nat) : (d.raiseBits p m).insp = d.insp :=
  (congrArg Dev.insp (Dev.raiseBits_frame d p m)).trans rfl
@[simp] theorem Dev.raiseBits_mot (d : Dev) (p m : Nat) : (d.raiseBits p m).mot = d.mot :=
  (congrArg Dev.mot (Dev.raiseBits_frame d p m)).trans rfl
@[simp] theorem Dev.raiseBits_dram (d : Dev) (p m : Nat) : (d.raiseBits p m).dram = d.dram :=
  (congrArg Dev.dram (Dev.raiseBits_frame d p m)).trans rfl
@[simp] theorem Dev.raiseBits_l2 (d : Dev) (p m : Nat) : (d.raiseBits p m).l2 = d.l2 :=
  (congrArg Dev.l2 (Dev.raiseBits_frame d p m)).trans rfl
@[simp] theorem Dev.raiseBits_trim (d : Dev) (p m : Nat) : (d.raiseBits p m).trim = d.trim :=
  (congrArg Dev.trim (Dev.raiseBits_frame d p m)).trans rfl

/-- All that `Dev.clearEvt` can change. -/
theorem Dev.clearEvt_frame (d : Dev) (p : Nat) (w : Word) : d.clearEvt p w = { d with regs := (d.clearEvt p w).regs } := by
  unfold Dev.clearEvt Dev.withSource
  simp only
  split
  · rw [Dev.ring_frame]; rfl
  · split <;> rfl

@[simp] theorem Dev.clearEvt_power (d : Dev) (p : Nat) (w : Word) : (d.clearEvt p w).power = d.power :=
  (congrArg Dev.power (Dev.clearEvt_frame d p w)).trans rfl
@[simp] theorem Dev.clearEvt_now (d : Dev) (p : Nat) (w : Word) : (d.clearEvt p w).now = d.now :=
  (congrArg Dev.now (Dev.clearEvt_frame d p w)).trans rfl
@[simp] theorem Dev.clearEvt_clk (d : Dev) (p : Nat) (w : Word) : (d.clearEvt p w).clk = d.clk :=
  (congrArg Dev.clk (Dev.clearEvt_frame d p w)).trans rfl
@[simp] theorem Dev.clearEvt_sysReq (d : Dev) (p : Nat) (w : Word) : (d.clearEvt p w).sysReq = d.sysReq :=
  (congrArg Dev.sysReq (Dev.clearEvt_frame d p w)).trans rfl
@[simp] theorem Dev.clearEvt_burnReq (d : Dev) (p : Nat) (w : Word) : (d.clearEvt p w).burnReq = d.burnReq :=
  (congrArg Dev.burnReq (Dev.clearEvt_frame d p w)).trans rfl
@[simp] theorem Dev.clearEvt_out (d : Dev) (p : Nat) (w : Word) : (d.clearEvt p w).out = d.out :=
  (congrArg Dev.out (Dev.clearEvt_frame d p w)).trans rfl
@[simp] theorem Dev.clearEvt_freeCtr (d : Dev) (p : Nat) (w : Word) : (d.clearEvt p w).freeCtr = d.freeCtr :=
  (congrArg Dev.freeCtr (Dev.clearEvt_frame d p w)).trans rfl
@[simp] theorem Dev.clearEvt_busResp (d : Dev) (p : Nat) (w : Word) : (d.clearEvt p w).busResp = d.busResp :=
  (congrArg Dev.busResp (Dev.clearEvt_frame d p w)).trans rfl
@[simp] theorem Dev.clearEvt_pins (d : Dev) (p : Nat) (w : Word) : (d.clearEvt p w).pins = d.pins :=
  (congrArg Dev.pins (Dev.clearEvt_frame d p w)).trans rfl
@[simp] theorem Dev.clearEvt_lastBeat (d : Dev) (p : Nat) (w : Word) : (d.clearEvt p w).lastBeat = d.lastBeat :=
  (congrArg Dev.lastBeat (Dev.clearEvt_frame d p w)).trans rfl
@[simp] theorem Dev.clearEvt_armed (d : Dev) (p : Nat) (w : Word) : (d.clearEvt p w).armed = d.armed :=
  (congrArg Dev.armed (Dev.clearEvt_frame d p w)).trans rfl
@[simp] theorem Dev.clearEvt_evq (d : Dev) (p : Nat) (w : Word) : (d.clearEvt p w).evq = d.evq :=
  (congrArg Dev.evq (Dev.clearEvt_frame d p w)).trans rfl
@[simp] theorem Dev.clearEvt_tm (d : Dev) (p : Nat) (w : Word) : (d.clearEvt p w).tm = d.tm :=
  (congrArg Dev.tm (Dev.clearEvt_frame d p w)).trans rfl
@[simp] theorem Dev.clearEvt_path (d : Dev) (p : Nat) (w : Word) : (d.clearEvt p w).path = d.path :=
  (congrArg Dev.path (Dev.clearEvt_frame d p w)).trans rfl
@[simp] theorem Dev.clearEvt_jtp (d : Dev) (p : Nat) (w : Word) : (d.clearEvt p w).jtp = d.jtp :=
  (congrArg Dev.jtp (Dev.clearEvt_frame d p w)).trans rfl
@[simp] theorem Dev.clearEvt_planes (d : Dev) (p : Nat) (w : Word) : (d.clearEvt p w).planes = d.planes :=
  (congrArg Dev.planes (Dev.clearEvt_frame d p w)).trans rfl
@[simp] theorem Dev.clearEvt_heads (d : Dev) (p : Nat) (w : Word) : (d.clearEvt p w).heads = d.heads :=
  (congrArg Dev.heads (Dev.clearEvt_frame d p w)).trans rfl
@[simp] theorem Dev.clearEvt_links (d : Dev) (p : Nat) (w : Word) : (d.clearEvt p w).links = d.links :=
  (congrArg Dev.links (Dev.clearEvt_frame d p w)).trans rfl
@[simp] theorem Dev.clearEvt_stay (d : Dev) (p : Nat) (w : Word) : (d.clearEvt p w).stay = d.stay :=
  (congrArg Dev.stay (Dev.clearEvt_frame d p w)).trans rfl
@[simp] theorem Dev.clearEvt_insp (d : Dev) (p : Nat) (w : Word) : (d.clearEvt p w).insp = d.insp :=
  (congrArg Dev.insp (Dev.clearEvt_frame d p w)).trans rfl
@[simp] theorem Dev.clearEvt_mot (d : Dev) (p : Nat) (w : Word) : (d.clearEvt p w).mot = d.mot :=
  (congrArg Dev.mot (Dev.clearEvt_frame d p w)).trans rfl
@[simp] theorem Dev.clearEvt_dram (d : Dev) (p : Nat) (w : Word) : (d.clearEvt p w).dram = d.dram :=
  (congrArg Dev.dram (Dev.clearEvt_frame d p w)).trans rfl
@[simp] theorem Dev.clearEvt_l2 (d : Dev) (p : Nat) (w : Word) : (d.clearEvt p w).l2 = d.l2 :=
  (congrArg Dev.l2 (Dev.clearEvt_frame d p w)).trans rfl
@[simp] theorem Dev.clearEvt_trim (d : Dev) (p : Nat) (w : Word) : (d.clearEvt p w).trim = d.trim :=
  (congrArg Dev.trim (Dev.clearEvt_frame d p w)).trans rfl

/-- `e` is `d` but for its registers. -/
def OnlyRegs (d e : Dev) : Prop := ∃ r, e = { d with regs := r }

theorem OnlyRegs.frame {d e : Dev} (h : OnlyRegs d e) : e = { d with regs := e.regs } := by
  obtain ⟨r, rfl⟩ := h
  rfl
theorem OnlyRegs.refl (d : Dev) : OnlyRegs d d := ⟨d.regs, rfl⟩
theorem OnlyRegs.trans {d e f : Dev} (h : OnlyRegs d e) (g : OnlyRegs e f) : OnlyRegs d f := by
  obtain ⟨r, rfl⟩ := h
  obtain ⟨q, rfl⟩ := g
  exact ⟨q, rfl⟩
theorem OnlyRegs.put (d : Dev) (f : RegField) (v : Nat) : OnlyRegs d (d.put f v) := ⟨_, rfl⟩
theorem OnlyRegs.setReg (d : Dev) (a : Nat) (w : Word) : OnlyRegs d (d.setReg a w) := ⟨_, rfl⟩
theorem OnlyRegs.raiseBits (d : Dev) (p m : Nat) : OnlyRegs d (d.raiseBits p m) := ⟨_, Dev.raiseBits_frame d p m⟩

/-- All that `Dev.raise` can change. -/
theorem Dev.raise_frame (d : Dev) (p k : Nat) : d.raise p k = { d with regs := (d.raise p k).regs } := by
  exact Dev.raiseBits_frame d p _

@[simp] theorem Dev.raise_power (d : Dev) (p k : Nat) : (d.raise p k).power = d.power :=
  (congrArg Dev.power (Dev.raise_frame d p k)).trans rfl
@[simp] theorem Dev.raise_now (d : Dev) (p k : Nat) : (d.raise p k).now = d.now :=
  (congrArg Dev.now (Dev.raise_frame d p k)).trans rfl
@[simp] theorem Dev.raise_clk (d : Dev) (p k : Nat) : (d.raise p k).clk = d.clk :=
  (congrArg Dev.clk (Dev.raise_frame d p k)).trans rfl
@[simp] theorem Dev.raise_sysReq (d : Dev) (p k : Nat) : (d.raise p k).sysReq = d.sysReq :=
  (congrArg Dev.sysReq (Dev.raise_frame d p k)).trans rfl
@[simp] theorem Dev.raise_burnReq (d : Dev) (p k : Nat) : (d.raise p k).burnReq = d.burnReq :=
  (congrArg Dev.burnReq (Dev.raise_frame d p k)).trans rfl
@[simp] theorem Dev.raise_out (d : Dev) (p k : Nat) : (d.raise p k).out = d.out :=
  (congrArg Dev.out (Dev.raise_frame d p k)).trans rfl
@[simp] theorem Dev.raise_freeCtr (d : Dev) (p k : Nat) : (d.raise p k).freeCtr = d.freeCtr :=
  (congrArg Dev.freeCtr (Dev.raise_frame d p k)).trans rfl
@[simp] theorem Dev.raise_busResp (d : Dev) (p k : Nat) : (d.raise p k).busResp = d.busResp :=
  (congrArg Dev.busResp (Dev.raise_frame d p k)).trans rfl
@[simp] theorem Dev.raise_pins (d : Dev) (p k : Nat) : (d.raise p k).pins = d.pins :=
  (congrArg Dev.pins (Dev.raise_frame d p k)).trans rfl
@[simp] theorem Dev.raise_lastBeat (d : Dev) (p k : Nat) : (d.raise p k).lastBeat = d.lastBeat :=
  (congrArg Dev.lastBeat (Dev.raise_frame d p k)).trans rfl
@[simp] theorem Dev.raise_armed (d : Dev) (p k : Nat) : (d.raise p k).armed = d.armed :=
  (congrArg Dev.armed (Dev.raise_frame d p k)).trans rfl
@[simp] theorem Dev.raise_evq (d : Dev) (p k : Nat) : (d.raise p k).evq = d.evq :=
  (congrArg Dev.evq (Dev.raise_frame d p k)).trans rfl
@[simp] theorem Dev.raise_tm (d : Dev) (p k : Nat) : (d.raise p k).tm = d.tm :=
  (congrArg Dev.tm (Dev.raise_frame d p k)).trans rfl
@[simp] theorem Dev.raise_path (d : Dev) (p k : Nat) : (d.raise p k).path = d.path :=
  (congrArg Dev.path (Dev.raise_frame d p k)).trans rfl
@[simp] theorem Dev.raise_jtp (d : Dev) (p k : Nat) : (d.raise p k).jtp = d.jtp :=
  (congrArg Dev.jtp (Dev.raise_frame d p k)).trans rfl
@[simp] theorem Dev.raise_planes (d : Dev) (p k : Nat) : (d.raise p k).planes = d.planes :=
  (congrArg Dev.planes (Dev.raise_frame d p k)).trans rfl
@[simp] theorem Dev.raise_heads (d : Dev) (p k : Nat) : (d.raise p k).heads = d.heads :=
  (congrArg Dev.heads (Dev.raise_frame d p k)).trans rfl
@[simp] theorem Dev.raise_links (d : Dev) (p k : Nat) : (d.raise p k).links = d.links :=
  (congrArg Dev.links (Dev.raise_frame d p k)).trans rfl
@[simp] theorem Dev.raise_stay (d : Dev) (p k : Nat) : (d.raise p k).stay = d.stay :=
  (congrArg Dev.stay (Dev.raise_frame d p k)).trans rfl
@[simp] theorem Dev.raise_insp (d : Dev) (p k : Nat) : (d.raise p k).insp = d.insp :=
  (congrArg Dev.insp (Dev.raise_frame d p k)).trans rfl
@[simp] theorem Dev.raise_mot (d : Dev) (p k : Nat) : (d.raise p k).mot = d.mot :=
  (congrArg Dev.mot (Dev.raise_frame d p k)).trans rfl
@[simp] theorem Dev.raise_dram (d : Dev) (p k : Nat) : (d.raise p k).dram = d.dram :=
  (congrArg Dev.dram (Dev.raise_frame d p k)).trans rfl
@[simp] theorem Dev.raise_l2 (d : Dev) (p k : Nat) : (d.raise p k).l2 = d.l2 :=
  (congrArg Dev.l2 (Dev.raise_frame d p k)).trans rfl
@[simp] theorem Dev.raise_trim (d : Dev) (p k : Nat) : (d.raise p k).trim = d.trim :=
  (congrArg Dev.trim (Dev.raise_frame d p k)).trans rfl

/-- All that `Dev.pgFault` can change. -/
theorem Dev.pgFault_frame (d : Dev) (p code off : Nat) : d.pgFault p code off = { d with regs := (d.pgFault p code off).regs } := by
  have h : OnlyRegs d (d.pgFault p code off) := by
    unfold Dev.pgFault
    split
    · exact .put d _ _
    · exact (((OnlyRegs.put d _ _).trans (.put _ _ _)).trans (.put _ _ _)).trans (.put _ _ _) |>.trans (.raiseBits _ _ _)
  exact h.frame

@[simp] theorem Dev.pgFault_power (d : Dev) (p code off : Nat) : (d.pgFault p code off).power = d.power :=
  (congrArg Dev.power (Dev.pgFault_frame d p code off)).trans rfl
@[simp] theorem Dev.pgFault_now (d : Dev) (p code off : Nat) : (d.pgFault p code off).now = d.now :=
  (congrArg Dev.now (Dev.pgFault_frame d p code off)).trans rfl
@[simp] theorem Dev.pgFault_clk (d : Dev) (p code off : Nat) : (d.pgFault p code off).clk = d.clk :=
  (congrArg Dev.clk (Dev.pgFault_frame d p code off)).trans rfl
@[simp] theorem Dev.pgFault_sysReq (d : Dev) (p code off : Nat) : (d.pgFault p code off).sysReq = d.sysReq :=
  (congrArg Dev.sysReq (Dev.pgFault_frame d p code off)).trans rfl
@[simp] theorem Dev.pgFault_burnReq (d : Dev) (p code off : Nat) : (d.pgFault p code off).burnReq = d.burnReq :=
  (congrArg Dev.burnReq (Dev.pgFault_frame d p code off)).trans rfl
@[simp] theorem Dev.pgFault_out (d : Dev) (p code off : Nat) : (d.pgFault p code off).out = d.out :=
  (congrArg Dev.out (Dev.pgFault_frame d p code off)).trans rfl
@[simp] theorem Dev.pgFault_freeCtr (d : Dev) (p code off : Nat) : (d.pgFault p code off).freeCtr = d.freeCtr :=
  (congrArg Dev.freeCtr (Dev.pgFault_frame d p code off)).trans rfl
@[simp] theorem Dev.pgFault_busResp (d : Dev) (p code off : Nat) : (d.pgFault p code off).busResp = d.busResp :=
  (congrArg Dev.busResp (Dev.pgFault_frame d p code off)).trans rfl
@[simp] theorem Dev.pgFault_pins (d : Dev) (p code off : Nat) : (d.pgFault p code off).pins = d.pins :=
  (congrArg Dev.pins (Dev.pgFault_frame d p code off)).trans rfl
@[simp] theorem Dev.pgFault_lastBeat (d : Dev) (p code off : Nat) : (d.pgFault p code off).lastBeat = d.lastBeat :=
  (congrArg Dev.lastBeat (Dev.pgFault_frame d p code off)).trans rfl
@[simp] theorem Dev.pgFault_armed (d : Dev) (p code off : Nat) : (d.pgFault p code off).armed = d.armed :=
  (congrArg Dev.armed (Dev.pgFault_frame d p code off)).trans rfl
@[simp] theorem Dev.pgFault_evq (d : Dev) (p code off : Nat) : (d.pgFault p code off).evq = d.evq :=
  (congrArg Dev.evq (Dev.pgFault_frame d p code off)).trans rfl
@[simp] theorem Dev.pgFault_tm (d : Dev) (p code off : Nat) : (d.pgFault p code off).tm = d.tm :=
  (congrArg Dev.tm (Dev.pgFault_frame d p code off)).trans rfl
@[simp] theorem Dev.pgFault_path (d : Dev) (p code off : Nat) : (d.pgFault p code off).path = d.path :=
  (congrArg Dev.path (Dev.pgFault_frame d p code off)).trans rfl
@[simp] theorem Dev.pgFault_jtp (d : Dev) (p code off : Nat) : (d.pgFault p code off).jtp = d.jtp :=
  (congrArg Dev.jtp (Dev.pgFault_frame d p code off)).trans rfl
@[simp] theorem Dev.pgFault_planes (d : Dev) (p code off : Nat) : (d.pgFault p code off).planes = d.planes :=
  (congrArg Dev.planes (Dev.pgFault_frame d p code off)).trans rfl
@[simp] theorem Dev.pgFault_heads (d : Dev) (p code off : Nat) : (d.pgFault p code off).heads = d.heads :=
  (congrArg Dev.heads (Dev.pgFault_frame d p code off)).trans rfl
@[simp] theorem Dev.pgFault_links (d : Dev) (p code off : Nat) : (d.pgFault p code off).links = d.links :=
  (congrArg Dev.links (Dev.pgFault_frame d p code off)).trans rfl
@[simp] theorem Dev.pgFault_stay (d : Dev) (p code off : Nat) : (d.pgFault p code off).stay = d.stay :=
  (congrArg Dev.stay (Dev.pgFault_frame d p code off)).trans rfl
@[simp] theorem Dev.pgFault_insp (d : Dev) (p code off : Nat) : (d.pgFault p code off).insp = d.insp :=
  (congrArg Dev.insp (Dev.pgFault_frame d p code off)).trans rfl
@[simp] theorem Dev.pgFault_mot (d : Dev) (p code off : Nat) : (d.pgFault p code off).mot = d.mot :=
  (congrArg Dev.mot (Dev.pgFault_frame d p code off)).trans rfl
@[simp] theorem Dev.pgFault_dram (d : Dev) (p code off : Nat) : (d.pgFault p code off).dram = d.dram :=
  (congrArg Dev.dram (Dev.pgFault_frame d p code off)).trans rfl
@[simp] theorem Dev.pgFault_l2 (d : Dev) (p code off : Nat) : (d.pgFault p code off).l2 = d.l2 :=
  (congrArg Dev.l2 (Dev.pgFault_frame d p code off)).trans rfl
@[simp] theorem Dev.pgFault_trim (d : Dev) (p code off : Nat) : (d.pgFault p code off).trim = d.trim :=
  (congrArg Dev.trim (Dev.pgFault_frame d p code off)).trans rfl

/-- All that `Dev.refuseAt` can change. -/
theorem Dev.refuseAt_frame (d : Dev) (a : Nat) : d.refuseAt a = { d with regs := (d.refuseAt a).regs } := by
  exact Dev.pgFault_frame d _ _ _

@[simp] theorem Dev.refuseAt_power (d : Dev) (a : Nat) : (d.refuseAt a).power = d.power :=
  (congrArg Dev.power (Dev.refuseAt_frame d a)).trans rfl
@[simp] theorem Dev.refuseAt_now (d : Dev) (a : Nat) : (d.refuseAt a).now = d.now :=
  (congrArg Dev.now (Dev.refuseAt_frame d a)).trans rfl
@[simp] theorem Dev.refuseAt_clk (d : Dev) (a : Nat) : (d.refuseAt a).clk = d.clk :=
  (congrArg Dev.clk (Dev.refuseAt_frame d a)).trans rfl
@[simp] theorem Dev.refuseAt_sysReq (d : Dev) (a : Nat) : (d.refuseAt a).sysReq = d.sysReq :=
  (congrArg Dev.sysReq (Dev.refuseAt_frame d a)).trans rfl
@[simp] theorem Dev.refuseAt_burnReq (d : Dev) (a : Nat) : (d.refuseAt a).burnReq = d.burnReq :=
  (congrArg Dev.burnReq (Dev.refuseAt_frame d a)).trans rfl
@[simp] theorem Dev.refuseAt_out (d : Dev) (a : Nat) : (d.refuseAt a).out = d.out :=
  (congrArg Dev.out (Dev.refuseAt_frame d a)).trans rfl
@[simp] theorem Dev.refuseAt_freeCtr (d : Dev) (a : Nat) : (d.refuseAt a).freeCtr = d.freeCtr :=
  (congrArg Dev.freeCtr (Dev.refuseAt_frame d a)).trans rfl
@[simp] theorem Dev.refuseAt_busResp (d : Dev) (a : Nat) : (d.refuseAt a).busResp = d.busResp :=
  (congrArg Dev.busResp (Dev.refuseAt_frame d a)).trans rfl
@[simp] theorem Dev.refuseAt_pins (d : Dev) (a : Nat) : (d.refuseAt a).pins = d.pins :=
  (congrArg Dev.pins (Dev.refuseAt_frame d a)).trans rfl
@[simp] theorem Dev.refuseAt_lastBeat (d : Dev) (a : Nat) : (d.refuseAt a).lastBeat = d.lastBeat :=
  (congrArg Dev.lastBeat (Dev.refuseAt_frame d a)).trans rfl
@[simp] theorem Dev.refuseAt_armed (d : Dev) (a : Nat) : (d.refuseAt a).armed = d.armed :=
  (congrArg Dev.armed (Dev.refuseAt_frame d a)).trans rfl
@[simp] theorem Dev.refuseAt_evq (d : Dev) (a : Nat) : (d.refuseAt a).evq = d.evq :=
  (congrArg Dev.evq (Dev.refuseAt_frame d a)).trans rfl
@[simp] theorem Dev.refuseAt_tm (d : Dev) (a : Nat) : (d.refuseAt a).tm = d.tm :=
  (congrArg Dev.tm (Dev.refuseAt_frame d a)).trans rfl
@[simp] theorem Dev.refuseAt_path (d : Dev) (a : Nat) : (d.refuseAt a).path = d.path :=
  (congrArg Dev.path (Dev.refuseAt_frame d a)).trans rfl
@[simp] theorem Dev.refuseAt_jtp (d : Dev) (a : Nat) : (d.refuseAt a).jtp = d.jtp :=
  (congrArg Dev.jtp (Dev.refuseAt_frame d a)).trans rfl
@[simp] theorem Dev.refuseAt_planes (d : Dev) (a : Nat) : (d.refuseAt a).planes = d.planes :=
  (congrArg Dev.planes (Dev.refuseAt_frame d a)).trans rfl
@[simp] theorem Dev.refuseAt_heads (d : Dev) (a : Nat) : (d.refuseAt a).heads = d.heads :=
  (congrArg Dev.heads (Dev.refuseAt_frame d a)).trans rfl
@[simp] theorem Dev.refuseAt_links (d : Dev) (a : Nat) : (d.refuseAt a).links = d.links :=
  (congrArg Dev.links (Dev.refuseAt_frame d a)).trans rfl
@[simp] theorem Dev.refuseAt_stay (d : Dev) (a : Nat) : (d.refuseAt a).stay = d.stay :=
  (congrArg Dev.stay (Dev.refuseAt_frame d a)).trans rfl
@[simp] theorem Dev.refuseAt_insp (d : Dev) (a : Nat) : (d.refuseAt a).insp = d.insp :=
  (congrArg Dev.insp (Dev.refuseAt_frame d a)).trans rfl
@[simp] theorem Dev.refuseAt_mot (d : Dev) (a : Nat) : (d.refuseAt a).mot = d.mot :=
  (congrArg Dev.mot (Dev.refuseAt_frame d a)).trans rfl
@[simp] theorem Dev.refuseAt_dram (d : Dev) (a : Nat) : (d.refuseAt a).dram = d.dram :=
  (congrArg Dev.dram (Dev.refuseAt_frame d a)).trans rfl
@[simp] theorem Dev.refuseAt_l2 (d : Dev) (a : Nat) : (d.refuseAt a).l2 = d.l2 :=
  (congrArg Dev.l2 (Dev.refuseAt_frame d a)).trans rfl
@[simp] theorem Dev.refuseAt_trim (d : Dev) (a : Nat) : (d.refuseAt a).trim = d.trim :=
  (congrArg Dev.trim (Dev.refuseAt_frame d a)).trans rfl

/-- All that `Dev.queueEvent` can change. -/
theorem Dev.queueEvent_frame (d : Dev) (todo : Nat) (bs : List Byte) : d.queueEvent todo bs = { d with regs := (d.queueEvent todo bs).regs, evq := (d.queueEvent todo bs).evq } := by
  unfold Dev.queueEvent
  split
  · rfl
  · split <;> rfl

@[simp] theorem Dev.queueEvent_power (d : Dev) (todo : Nat) (bs : List Byte) : (d.queueEvent todo bs).power = d.power :=
  (congrArg Dev.power (Dev.queueEvent_frame d todo bs)).trans rfl
@[simp] theorem Dev.queueEvent_now (d : Dev) (todo : Nat) (bs : List Byte) : (d.queueEvent todo bs).now = d.now :=
  (congrArg Dev.now (Dev.queueEvent_frame d todo bs)).trans rfl
@[simp] theorem Dev.queueEvent_clk (d : Dev) (todo : Nat) (bs : List Byte) : (d.queueEvent todo bs).clk = d.clk :=
  (congrArg Dev.clk (Dev.queueEvent_frame d todo bs)).trans rfl
@[simp] theorem Dev.queueEvent_sysReq (d : Dev) (todo : Nat) (bs : List Byte) : (d.queueEvent todo bs).sysReq = d.sysReq :=
  (congrArg Dev.sysReq (Dev.queueEvent_frame d todo bs)).trans rfl
@[simp] theorem Dev.queueEvent_burnReq (d : Dev) (todo : Nat) (bs : List Byte) : (d.queueEvent todo bs).burnReq = d.burnReq :=
  (congrArg Dev.burnReq (Dev.queueEvent_frame d todo bs)).trans rfl
@[simp] theorem Dev.queueEvent_out (d : Dev) (todo : Nat) (bs : List Byte) : (d.queueEvent todo bs).out = d.out :=
  (congrArg Dev.out (Dev.queueEvent_frame d todo bs)).trans rfl
@[simp] theorem Dev.queueEvent_freeCtr (d : Dev) (todo : Nat) (bs : List Byte) : (d.queueEvent todo bs).freeCtr = d.freeCtr :=
  (congrArg Dev.freeCtr (Dev.queueEvent_frame d todo bs)).trans rfl
@[simp] theorem Dev.queueEvent_busResp (d : Dev) (todo : Nat) (bs : List Byte) : (d.queueEvent todo bs).busResp = d.busResp :=
  (congrArg Dev.busResp (Dev.queueEvent_frame d todo bs)).trans rfl
@[simp] theorem Dev.queueEvent_pins (d : Dev) (todo : Nat) (bs : List Byte) : (d.queueEvent todo bs).pins = d.pins :=
  (congrArg Dev.pins (Dev.queueEvent_frame d todo bs)).trans rfl
@[simp] theorem Dev.queueEvent_lastBeat (d : Dev) (todo : Nat) (bs : List Byte) : (d.queueEvent todo bs).lastBeat = d.lastBeat :=
  (congrArg Dev.lastBeat (Dev.queueEvent_frame d todo bs)).trans rfl
@[simp] theorem Dev.queueEvent_armed (d : Dev) (todo : Nat) (bs : List Byte) : (d.queueEvent todo bs).armed = d.armed :=
  (congrArg Dev.armed (Dev.queueEvent_frame d todo bs)).trans rfl
@[simp] theorem Dev.queueEvent_tm (d : Dev) (todo : Nat) (bs : List Byte) : (d.queueEvent todo bs).tm = d.tm :=
  (congrArg Dev.tm (Dev.queueEvent_frame d todo bs)).trans rfl
@[simp] theorem Dev.queueEvent_path (d : Dev) (todo : Nat) (bs : List Byte) : (d.queueEvent todo bs).path = d.path :=
  (congrArg Dev.path (Dev.queueEvent_frame d todo bs)).trans rfl
@[simp] theorem Dev.queueEvent_jtp (d : Dev) (todo : Nat) (bs : List Byte) : (d.queueEvent todo bs).jtp = d.jtp :=
  (congrArg Dev.jtp (Dev.queueEvent_frame d todo bs)).trans rfl
@[simp] theorem Dev.queueEvent_planes (d : Dev) (todo : Nat) (bs : List Byte) : (d.queueEvent todo bs).planes = d.planes :=
  (congrArg Dev.planes (Dev.queueEvent_frame d todo bs)).trans rfl
@[simp] theorem Dev.queueEvent_heads (d : Dev) (todo : Nat) (bs : List Byte) : (d.queueEvent todo bs).heads = d.heads :=
  (congrArg Dev.heads (Dev.queueEvent_frame d todo bs)).trans rfl
@[simp] theorem Dev.queueEvent_links (d : Dev) (todo : Nat) (bs : List Byte) : (d.queueEvent todo bs).links = d.links :=
  (congrArg Dev.links (Dev.queueEvent_frame d todo bs)).trans rfl
@[simp] theorem Dev.queueEvent_stay (d : Dev) (todo : Nat) (bs : List Byte) : (d.queueEvent todo bs).stay = d.stay :=
  (congrArg Dev.stay (Dev.queueEvent_frame d todo bs)).trans rfl
@[simp] theorem Dev.queueEvent_insp (d : Dev) (todo : Nat) (bs : List Byte) : (d.queueEvent todo bs).insp = d.insp :=
  (congrArg Dev.insp (Dev.queueEvent_frame d todo bs)).trans rfl
@[simp] theorem Dev.queueEvent_mot (d : Dev) (todo : Nat) (bs : List Byte) : (d.queueEvent todo bs).mot = d.mot :=
  (congrArg Dev.mot (Dev.queueEvent_frame d todo bs)).trans rfl
@[simp] theorem Dev.queueEvent_dram (d : Dev) (todo : Nat) (bs : List Byte) : (d.queueEvent todo bs).dram = d.dram :=
  (congrArg Dev.dram (Dev.queueEvent_frame d todo bs)).trans rfl
@[simp] theorem Dev.queueEvent_l2 (d : Dev) (todo : Nat) (bs : List Byte) : (d.queueEvent todo bs).l2 = d.l2 :=
  (congrArg Dev.l2 (Dev.queueEvent_frame d todo bs)).trans rfl
@[simp] theorem Dev.queueEvent_trim (d : Dev) (todo : Nat) (bs : List Byte) : (d.queueEvent todo bs).trim = d.trim :=
  (congrArg Dev.trim (Dev.queueEvent_frame d todo bs)).trans rfl

/-- All that `Dev.sendEvent` can change. -/
theorem Dev.sendEvent_frame (d : Dev) (c pl l i0 i1 : Nat) : d.sendEvent c pl l i0 i1 = { d with regs := (d.sendEvent c pl l i0 i1).regs, evq := (d.sendEvent c pl l i0 i1).evq } := by
  unfold Dev.sendEvent
  split
  · rfl
  · exact Dev.queueEvent_frame d _ _

@[simp] theorem Dev.sendEvent_power (d : Dev) (c pl l i0 i1 : Nat) : (d.sendEvent c pl l i0 i1).power = d.power :=
  (congrArg Dev.power (Dev.sendEvent_frame d c pl l i0 i1)).trans rfl
@[simp] theorem Dev.sendEvent_now (d : Dev) (c pl l i0 i1 : Nat) : (d.sendEvent c pl l i0 i1).now = d.now :=
  (congrArg Dev.now (Dev.sendEvent_frame d c pl l i0 i1)).trans rfl
@[simp] theorem Dev.sendEvent_clk (d : Dev) (c pl l i0 i1 : Nat) : (d.sendEvent c pl l i0 i1).clk = d.clk :=
  (congrArg Dev.clk (Dev.sendEvent_frame d c pl l i0 i1)).trans rfl
@[simp] theorem Dev.sendEvent_sysReq (d : Dev) (c pl l i0 i1 : Nat) : (d.sendEvent c pl l i0 i1).sysReq = d.sysReq :=
  (congrArg Dev.sysReq (Dev.sendEvent_frame d c pl l i0 i1)).trans rfl
@[simp] theorem Dev.sendEvent_burnReq (d : Dev) (c pl l i0 i1 : Nat) : (d.sendEvent c pl l i0 i1).burnReq = d.burnReq :=
  (congrArg Dev.burnReq (Dev.sendEvent_frame d c pl l i0 i1)).trans rfl
@[simp] theorem Dev.sendEvent_out (d : Dev) (c pl l i0 i1 : Nat) : (d.sendEvent c pl l i0 i1).out = d.out :=
  (congrArg Dev.out (Dev.sendEvent_frame d c pl l i0 i1)).trans rfl
@[simp] theorem Dev.sendEvent_freeCtr (d : Dev) (c pl l i0 i1 : Nat) : (d.sendEvent c pl l i0 i1).freeCtr = d.freeCtr :=
  (congrArg Dev.freeCtr (Dev.sendEvent_frame d c pl l i0 i1)).trans rfl
@[simp] theorem Dev.sendEvent_busResp (d : Dev) (c pl l i0 i1 : Nat) : (d.sendEvent c pl l i0 i1).busResp = d.busResp :=
  (congrArg Dev.busResp (Dev.sendEvent_frame d c pl l i0 i1)).trans rfl
@[simp] theorem Dev.sendEvent_pins (d : Dev) (c pl l i0 i1 : Nat) : (d.sendEvent c pl l i0 i1).pins = d.pins :=
  (congrArg Dev.pins (Dev.sendEvent_frame d c pl l i0 i1)).trans rfl
@[simp] theorem Dev.sendEvent_lastBeat (d : Dev) (c pl l i0 i1 : Nat) : (d.sendEvent c pl l i0 i1).lastBeat = d.lastBeat :=
  (congrArg Dev.lastBeat (Dev.sendEvent_frame d c pl l i0 i1)).trans rfl
@[simp] theorem Dev.sendEvent_armed (d : Dev) (c pl l i0 i1 : Nat) : (d.sendEvent c pl l i0 i1).armed = d.armed :=
  (congrArg Dev.armed (Dev.sendEvent_frame d c pl l i0 i1)).trans rfl
@[simp] theorem Dev.sendEvent_tm (d : Dev) (c pl l i0 i1 : Nat) : (d.sendEvent c pl l i0 i1).tm = d.tm :=
  (congrArg Dev.tm (Dev.sendEvent_frame d c pl l i0 i1)).trans rfl
@[simp] theorem Dev.sendEvent_path (d : Dev) (c pl l i0 i1 : Nat) : (d.sendEvent c pl l i0 i1).path = d.path :=
  (congrArg Dev.path (Dev.sendEvent_frame d c pl l i0 i1)).trans rfl
@[simp] theorem Dev.sendEvent_jtp (d : Dev) (c pl l i0 i1 : Nat) : (d.sendEvent c pl l i0 i1).jtp = d.jtp :=
  (congrArg Dev.jtp (Dev.sendEvent_frame d c pl l i0 i1)).trans rfl
@[simp] theorem Dev.sendEvent_planes (d : Dev) (c pl l i0 i1 : Nat) : (d.sendEvent c pl l i0 i1).planes = d.planes :=
  (congrArg Dev.planes (Dev.sendEvent_frame d c pl l i0 i1)).trans rfl
@[simp] theorem Dev.sendEvent_heads (d : Dev) (c pl l i0 i1 : Nat) : (d.sendEvent c pl l i0 i1).heads = d.heads :=
  (congrArg Dev.heads (Dev.sendEvent_frame d c pl l i0 i1)).trans rfl
@[simp] theorem Dev.sendEvent_links (d : Dev) (c pl l i0 i1 : Nat) : (d.sendEvent c pl l i0 i1).links = d.links :=
  (congrArg Dev.links (Dev.sendEvent_frame d c pl l i0 i1)).trans rfl
@[simp] theorem Dev.sendEvent_stay (d : Dev) (c pl l i0 i1 : Nat) : (d.sendEvent c pl l i0 i1).stay = d.stay :=
  (congrArg Dev.stay (Dev.sendEvent_frame d c pl l i0 i1)).trans rfl
@[simp] theorem Dev.sendEvent_insp (d : Dev) (c pl l i0 i1 : Nat) : (d.sendEvent c pl l i0 i1).insp = d.insp :=
  (congrArg Dev.insp (Dev.sendEvent_frame d c pl l i0 i1)).trans rfl
@[simp] theorem Dev.sendEvent_mot (d : Dev) (c pl l i0 i1 : Nat) : (d.sendEvent c pl l i0 i1).mot = d.mot :=
  (congrArg Dev.mot (Dev.sendEvent_frame d c pl l i0 i1)).trans rfl
@[simp] theorem Dev.sendEvent_dram (d : Dev) (c pl l i0 i1 : Nat) : (d.sendEvent c pl l i0 i1).dram = d.dram :=
  (congrArg Dev.dram (Dev.sendEvent_frame d c pl l i0 i1)).trans rfl
@[simp] theorem Dev.sendEvent_l2 (d : Dev) (c pl l i0 i1 : Nat) : (d.sendEvent c pl l i0 i1).l2 = d.l2 :=
  (congrArg Dev.l2 (Dev.sendEvent_frame d c pl l i0 i1)).trans rfl
@[simp] theorem Dev.sendEvent_trim (d : Dev) (c pl l i0 i1 : Nat) : (d.sendEvent c pl l i0 i1).trim = d.trim :=
  (congrArg Dev.trim (Dev.sendEvent_frame d c pl l i0 i1)).trans rfl

@[simp] theorem Dev.free_freeCtr (d : Dev) (w : Nat) : (d.free w).2.freeCtr = d.freeCtr + 1 := rfl
@[simp] theorem Dev.elapse_now (d : Dev) (dt : Nat) : (d.elapse dt).now = d.now + dt := rfl
@[simp] theorem Dev.emit_out (d : Dev) (o : Out) : (d.emit o).out = o :: d.out := rfl
@[simp] theorem Dev.sent_out (d : Dev) : d.sent.out = [] := rfl
@[simp] theorem settle_pending (s : State) (d : Dev) : (settle s d).pending = s.pending := rfl
@[simp] theorem settle_out (s : State) (d : Dev) : (settle s d).dev.out = [] := rfl

end Sys2Proof.Machine
end

