-- ==== Sys2Proof/Laws/Registers.lean ====
section
/-! SUPPORT. What reading a register or a field gives after the register operations of Ops.lean. -/
namespace Sys2Proof.Machine

@[simp] theorem Dev.reg_setReg_same (d : Dev) (a : Nat) (w : Word) : (d.setReg a w).reg a = w :=
  cellGet_cellSet_same _ _ _ _

theorem Dev.reg_setReg_ne (d : Dev) (a b : Nat) (w : Word) (h : b ≠ a) : (d.setReg a w).reg b = d.reg b :=
  cellGet_cellSet_ne _ _ _ _ _ _ h

/-- Registers depend on the register table alone. -/
theorem Dev.reg_congr (d e : Dev) (h : d.regs = e.regs) (a : Nat) : d.reg a = e.reg a := by unfold Dev.reg; rw [h]

theorem Dev.get_congr (d e : Dev) (h : d.regs = e.regs) (f : RegField) : d.get f = e.get f := by
  unfold Dev.get; rw [Dev.reg_congr d e h]

@[simp] theorem Dev.reg_elapse (d : Dev) (dt a : Nat) : (d.elapse dt).reg a = d.reg a := rfl
@[simp] theorem Dev.get_elapse (d : Dev) (dt : Nat) (f : RegField) : (d.elapse dt).get f = d.get f := rfl
@[simp] theorem Dev.reg_emit (d : Dev) (o : Out) (a : Nat) : (d.emit o).reg a = d.reg a := rfl
@[simp] theorem Dev.get_emit (d : Dev) (o : Out) (f : RegField) : (d.emit o).get f = d.get f := rfl
@[simp] theorem Dev.reg_free (d : Dev) (w a : Nat) : (d.free w).2.reg a = d.reg a := rfl
@[simp] theorem Dev.get_free (d : Dev) (w : Nat) (f : RegField) : (d.free w).2.get f = d.get f := rfl

@[simp] theorem Dev.reg_drive (d : Dev) (p : OutPin) (i v a : Nat) : (d.drive p i v).reg a = d.reg a :=
  Dev.reg_congr _ _ (Dev.drive_regs d p i v) a
@[simp] theorem Dev.get_drive (d : Dev) (p : OutPin) (i v : Nat) (f : RegField) : (d.drive p i v).get f = d.get f :=
  Dev.get_congr _ _ (Dev.drive_regs d p i v) f

theorem Dev.get_lt (d : Dev) (f : RegField) : d.get f < 2 ^ f.width := bits_lt _ _ _

theorem Dev.reg_put_same (d : Dev) (f : RegField) (v : Nat) :
    (d.put f v).reg f.addr = BitVec.ofNat 32 (setBits (d.reg f.addr).toNat f.lo f.width v) := by
  unfold Dev.put; simp

theorem Dev.reg_put_ne (d : Dev) (f : RegField) (v a : Nat) (h : a ≠ f.addr) : (d.put f v).reg a = d.reg a :=
  Dev.reg_setReg_ne _ _ _ _ h

theorem Dev.toNat_put (d : Dev) (f : RegField) (v : Nat) (hf : f.lo + f.width ≤ 32) :
    ((d.put f v).reg f.addr).toNat = setBits (d.reg f.addr).toNat f.lo f.width v := by
  rw [Dev.reg_put_same, BitVec.toNat_ofNat, Nat.mod_eq_of_lt]
  exact setBits_lt _ _ _ _ _ (BitVec.isLt _) hf

/-- A field reads what was put there, cut to its width. -/
theorem Dev.get_put_same (d : Dev) (f : RegField) (v : Nat) (hf : f.lo + f.width ≤ 32) :
    (d.put f v).get f = v % 2 ^ f.width := by
  unfold Dev.get; rw [Dev.toNat_put d f v hf, bits_setBits]

/-- Two fields share no bit. -/
abbrev Apart (f g : RegField) : Prop := g.addr ≠ f.addr ∨ f.lo + f.width ≤ g.lo ∨ g.lo + g.width ≤ f.lo

/-- A field that shares no bit with the one put reads as before. -/
theorem Dev.get_put_apart (d : Dev) (f g : RegField) (v : Nat) (hf : f.lo + f.width ≤ 32) (h : Apart f g) :
    (d.put f v).get g = d.get g := by
  by_cases ha : g.addr = f.addr
  · unfold Dev.get
    rw [ha, Dev.toNat_put d f v hf]
    rcases h with h | h | h
    · exact absurd ha h
    · exact bits_setBits_above _ _ _ _ _ _ h
    · exact bits_setBits_below _ _ _ _ _ _ h
  · unfold Dev.get; rw [Dev.reg_put_ne d f v g.addr ha]

theorem Dev.getB_put_apart (d : Dev) (f g : RegField) (v : Nat) (hf : f.lo + f.width ≤ 32) (h : Apart f g) :
    (d.put f v).getB g = d.getB g := by unfold Dev.getB; rw [Dev.get_put_apart d f g v hf h]

/-- A counter reads one more, or stays at its largest value. -/
theorem Dev.get_count_same (d : Dev) (f : RegField) (n : Nat) (hf : f.lo + f.width ≤ 32) :
    (d.count f n).get f = satInc f.width (d.get f) n := by
  unfold Dev.count
  rw [Dev.get_put_same _ _ _ hf, Nat.mod_eq_of_lt]
  unfold satInc
  have := Nat.two_pow_pos f.width
  omega

theorem Dev.reg_count_ne (d : Dev) (f : RegField) (n a : Nat) (h : a ≠ f.addr) : (d.count f n).reg a = d.reg a :=
  Dev.reg_put_ne _ _ _ _ h

theorem Dev.get_count_apart (d : Dev) (f g : RegField) (n : Nat) (hf : f.lo + f.width ≤ 32) (h : Apart f g) :
    (d.count f n).get g = d.get g := Dev.get_put_apart _ _ _ _ hf h

/-! ### Event sources and block events -/

/-- The registers an event source ringing may change: its pending word and its core's coalesce counter. -/
def ringRegs (d : Dev) (n a : Nat) : Prop :=
  a = (F.EVT_PEND_PEND (n / 32)).addr ∨ a = (F.EVTC_CNT_COAL (d.routeOf n)).addr

theorem Dev.reg_ring (d : Dev) (n a : Nat) (h : ¬ ringRegs d n a) : (d.ring n).reg a = d.reg a := by
  unfold ringRegs at h
  unfold Dev.ring Dev.setSharedPending
  split
  · exact Dev.reg_count_ne _ _ _ _ (fun e => h (.inr e))
  · exact Dev.reg_put_ne _ _ _ _ (fun e => h (.inl e))

theorem Dev.reg_setSharedPending (d : Dev) (n : Nat) (b : Bool) (a : Nat) (h : a ≠ (F.EVT_PEND_PEND (n / 32)).addr) :
    (d.setSharedPending n b).reg a = d.reg a := Dev.reg_put_ne _ _ _ _ h

/-- What following a source's condition leaves as the change itself made it. -/
theorem Dev.reg_withSource (d : Dev) (n : Nat) (f : Dev → Dev) (a : Nat) (h : ¬ ringRegs (f d) n a) :
    (d.withSource n f).reg a = (f d).reg a := by
  unfold Dev.withSource
  simp only
  split
  · exact Dev.reg_ring _ _ _ h
  · split
    · exact Dev.reg_setSharedPending _ _ _ _ (fun e => h (.inl e))
    · rfl

theorem Dev.raise_reg_ne (d : Dev) (p m a : Nat) (h : ¬ ringRegs d (pageSource p) a) (ha : a ≠ R.PG_EVT p)
    (hr : (F.EVT_ROUTE_CORE (pageSource p)).addr ≠ R.PG_EVT p) : (d.raiseBits p m).reg a = d.reg a := by
  unfold Dev.raiseBits
  rw [Dev.reg_withSource]
  · exact Dev.reg_setReg_ne _ _ _ _ ha
  · unfold ringRegs Dev.routeOf Dev.get at *
    rwa [Dev.reg_setReg_ne _ _ _ _ hr]

end Sys2Proof.Machine
end

