-- ==== Sys2Proof/Laws/Memory.lean ====
section
/-! SUPPORT. Memory: read after write, and every memory operation keeps the canonical form `Memory.wf`; what an operation
that writes no memory leaves is in the lemmas ending in `_mem`. -/
namespace Sys2Proof.Machine

/-- `e` has the memories of `d`. -/
def SameMem (d e : Dev) : Prop := e.dram = d.dram ∧ e.l2 = d.l2

theorem SameMem.refl (d : Dev) : SameMem d d := ⟨rfl, rfl⟩

theorem SameMem.trans {d e f : Dev} (h : SameMem d e) (g : SameMem e f) : SameMem d f :=
  ⟨g.1.trans h.1, g.2.trans h.2⟩

theorem Memory.wf_of_same {d e : Dev} (h : SameMem d e) (w : Memory.wf d) : Memory.wf e := by
  unfold Memory.wf; rw [h.1, h.2]; exact w

theorem Memory.wf_ite {c : Prop} [Decidable c] {x y : Dev} (hx : Memory.wf x) (hy : Memory.wf y) :
    Memory.wf (if c then x else y) := by split <;> assumption

theorem reset_memory_wf : Memory.wf Dev.reset := ⟨rfl, rfl⟩

/-! ### Stores -/

theorem dramStore_nil (a : Nat) (m : Cells Byte) : dramStore a [] m = m := rfl

theorem dramStore_cons (a : Nat) (b : Byte) (bs : List Byte) (m : Cells Byte) :
    dramStore a (b :: bs) m = dramStore (a + 1) bs (cellSet 0 m a b) := rfl

/-- A store keeps the canonical form. -/
theorem dramStore_wf (bs : List Byte) (a : Nat) (m : Cells Byte) (h : cellWf (fun _ => (0 : Byte)) m = true) :
    cellWf (fun _ => (0 : Byte)) (dramStore a bs m) = true := by
  induction bs generalizing a m with
  | nil => exact h
  | cons b bs ih => rw [dramStore_cons]; exact ih _ _ (cellWf_cellSet (fun _ => (0 : Byte)) m a b h)

/-- Below the store every byte reads as before. -/
theorem dramStore_below (bs : List Byte) (a : Nat) (m : Cells Byte) (x : Nat) (h : x < a) :
    cellGet 0 (dramStore a bs m) x = cellGet 0 m x := by
  induction bs generalizing a m with
  | nil => rfl
  | cons b bs ih => rw [dramStore_cons, ih _ _ (by omega), cellGet_cellSet_ne _ _ _ _ _ _ (by omega)]

/-- Above the store every byte reads as before. -/
theorem dramStore_above (bs : List Byte) (a : Nat) (m : Cells Byte) (x : Nat) (h : a + bs.length ≤ x) :
    cellGet 0 (dramStore a bs m) x = cellGet 0 m x := by
  induction bs generalizing a m with
  | nil => rfl
  | cons b bs ih =>
    simp only [List.length_cons] at h
    rw [dramStore_cons, ih _ _ (by omega), cellGet_cellSet_ne _ _ _ _ _ _ (by omega)]

/-- Each byte stored reads back. -/
theorem dramStore_read (bs : List Byte) (a : Nat) (m : Cells Byte) (i : Nat) (h : i < bs.length) :
    cellGet 0 (dramStore a bs m) (a + i) = bs.getD i 0 := by
  induction bs generalizing a m i with
  | nil => simp at h
  | cons b bs ih =>
    rw [dramStore_cons]
    cases i with
    | zero => rw [dramStore_below _ _ _ _ (by omega)]; simp [cellGet_cellSet_same]
    | succ i =>
      rw [show a + (i + 1) = a + 1 + i by omega, ih _ _ _ (by simpa using h)]
      rfl

/-! ### Operations that write no memory -/

theorem SameMem.ite {d x y : Dev} {c : Prop} [Decidable c] (hx : SameMem d x) (hy : SameMem d y) :
    SameMem d (if c then x else y) := by split <;> assumption

theorem SameMem.put {d e : Dev} (h : SameMem d e) (f : RegField) (v : Nat) : SameMem d (e.put f v) := h
theorem SameMem.count {d e : Dev} (h : SameMem d e) (f : RegField) (n : Nat) : SameMem d (e.count f n) := h
theorem SameMem.raiseBits {d e : Dev} (h : SameMem d e) (p k : Nat) : SameMem d (e.raiseBits p k) :=
  ⟨(Dev.raiseBits_dram e p k).trans h.1, (Dev.raiseBits_l2 e p k).trans h.2⟩
theorem SameMem.raise {d e : Dev} (h : SameMem d e) (p k : Nat) : SameMem d (e.raise p k) := h.raiseBits p _

theorem pgFault_mem (d : Dev) (p c o : Nat) : SameMem d (d.pgFault p c o) := by
  unfold Dev.pgFault
  exact SameMem.ite ((SameMem.refl d).put _ _) (((((SameMem.refl d).put _ _).put _ _).put _ _).put _ _ |>.raiseBits _ _)

theorem dramOutOfRange_mem (d : Dev) : SameMem d (dramOutOfRange d) := ((SameMem.refl d).put _ _).raise _ _

theorem queueEvent_mem (d : Dev) (n : Nat) (l : List Byte) : SameMem d (d.queueEvent n l) := by
  unfold Dev.queueEvent
  exact SameMem.ite (SameMem.refl d) (SameMem.ite ((SameMem.refl d).count _ _) ⟨rfl, rfl⟩)

theorem sendEvent_mem (d : Dev) (c p l x y : Nat) : SameMem d (d.sendEvent c p l x y) := by
  unfold Dev.sendEvent
  exact SameMem.ite (SameMem.refl d) (queueEvent_mem d _ _)

theorem mgmtRequest_mem (d : Dev) (c : Nat) : SameMem d (mgmtRequest c d) := by
  unfold mgmtRequest
  exact SameMem.ite (SameMem.refl d) ⟨rfl, rfl⟩

theorem setCleat_mem (d : Dev) (m : Nat) (b : Bool) : SameMem d (setCleat m b d) := by
  unfold setCleat
  exact ((SameMem.refl d).put _ _).put _ _

theorem dramActivate_mem (m b r : Nat) (d : Dev) : SameMem d (dramActivate m b r d) := by
  unfold dramActivate
  extract_lets d1 mine rest n others low others2 d2 d3 d4
  have h1 : SameMem d d1 := ⟨rfl, rfl⟩
  refine SameMem.ite h1 (SameMem.raise (SameMem.put ?_ _ _) _ _)
  refine SameMem.count (SameMem.put ?_ _ _) _ _
  exact SameMem.ite (c := m = 8) (x := d2) h1 h1

/-- Serving a request moves no byte: its data went when it was taken. -/
theorem dramServe_mem (b : Nat) (r : DramReq) (d : Dev) : SameMem d (dramServe b r d) := by
  unfold dramServe
  extract_lets x o y z rank d1 d2
  have h : SameMem d d2 := ⟨rfl, rfl⟩
  exact SameMem.ite h (h.trans (dramActivate_mem _ _ _ _))

theorem dramServeAll_mem (n sub : Nat) (d : Dev) : SameMem d (dramServeAll n sub d) := by
  induction n generalizing d with
  | zero => exact SameMem.refl d
  | succ n ih =>
    unfold dramServeAll
    split
    · exact SameMem.refl d
    · exact (dramServe_mem _ _ _).trans (ih _)

theorem selfRefresh_mem (d : Dev) : SameMem d (selfRefresh d) := ⟨rfl, rfl⟩

theorem dramRun_mem (d : Dev) : SameMem d (dramRun d) := by
  unfold dramRun
  extract_lets d1 d2
  have h1 : SameMem d d1 := SameMem.ite ⟨rfl, rfl⟩ (SameMem.refl d)
  have h2 : SameMem d d2 :=
    SameMem.ite (SameMem.refl d) (h1.trans ((dramServeAll_mem _ 0 d1).trans (dramServeAll_mem _ 1 _)))
  exact SameMem.ite (h2.trans (selfRefresh_mem _)) h2

/-- With no request in the banks, and no change of rate that has still to reach self-refresh, nothing is served. -/
theorem dramRun_none (d : Dev) (h : d.banks = [])
    (g : (d.getB F.DRAMC_FCHG_BUSY && !d.getB F.DRAMC_STAT_SELFREF) = false) : dramRun d = d := by
  unfold dramRun; simp [h, g]

theorem dramPlace_mem (n b : Nat) (d : Dev) : SameMem d (dramPlace n b d) := by
  induction n generalizing d with
  | zero => exact SameMem.refl d
  | succ n ih =>
    unfold dramPlace
    refine SameMem.ite (SameMem.refl d) ?_
    split
    · exact SameMem.refl d
    · exact (dramServe_mem _ _ _).trans (ih _)

theorem dramAccept_mem (m a : Nat) (w : Bool) (d : Dev) : SameMem d (dramAccept m a w d) := by
  unfold dramAccept
  extract_lets br d1 x y
  have h : SameMem d d1 := SameMem.ite (dramPlace_mem _ _ d) (SameMem.refl d)
  exact h.trans ⟨rfl, rfl⟩

theorem ueRewrite_mem (c i o n : Nat) (d : Dev) : SameMem d (ueRewrite c i o n d) := by
  unfold ueRewrite
  extract_lets w w1 d1
  exact SameMem.ite (SameMem.refl d) (SameMem.ite ⟨rfl, rfl⟩ ⟨rfl, rfl⟩)

theorem warmTouched_mem (a n : Nat) (d : Dev) : SameMem d (warmTouched a n d) := by
  unfold warmTouched
  exact SameMem.ite ((SameMem.refl d).put _ _) (SameMem.refl d)

theorem violation_mem (m k a : Nat) (r : Option Nat) (d : Dev) : SameMem d (violation m k a r d) := by
  unfold violation
  extract_lets lvl d1 d2 held e0 e1 e2 e3 d3 d4
  have h2 : SameMem d d2 := ((setCleat_mem d m true).raiseBits _ _).count _ _
  have he : SameMem d e0 := h2.trans ⟨rfl, rfl⟩
  have h3 : SameMem d d3 :=
    SameMem.ite (c := held = true) h2
      (((((((he.put _ _).put _ _).put _ _).put _ _).put _ _).put _ _).put _ _ |>.put _ _)
  have h4 : SameMem d d4 := (h3.raise _ _).trans (sendEvent_mem _ _ _ _ _ _)
  exact SameMem.ite (h4.trans (mgmtRequest_mem _ _)) h4

theorem l2Rewrite_mem (o n : Nat) (d : Dev) : SameMem d (l2Rewrite o n d) := by
  unfold l2Rewrite
  refine SameMem.ite (SameMem.refl d) ?_
  generalize List.range ((o + n + 7) / 8 - o / 8) = l
  induction l generalizing d with
  | nil => exact SameMem.refl d
  | cons j l ih => exact (ueRewrite_mem _ _ _ _ d).trans (ih _)

/-! ### Transactions -/

/-- A permitted write keeps the canonical form. -/
theorem targetWrite_wf (m a : Nat) (bs : List Byte) (d : Dev) (h : Memory.wf d) : Memory.wf (targetWrite m a bs d) := by
  unfold targetWrite
  split
  · split
    · refine Memory.wf_of_same ((ueRewrite_mem _ _ _ _ _).trans (warmTouched_mem _ _ _)) ?_
      obtain ⟨h1, h2⟩ := Memory.wf_of_same (dramAccept_mem m a true d) h
      exact ⟨dramStore_wf _ _ _ h1, h2⟩
    · exact Memory.wf_of_same (dramOutOfRange_mem d) h
  · split
    · exact Memory.wf_of_same (l2Rewrite_mem _ _ _) ⟨h.1, dramStore_wf _ _ _ h.2⟩
    · split
      · split
        · exact h
        · exact h
      · exact h

/-- A register read by an engine changes no memory. -/
theorem plainRead_mem (a : Nat) (d : Dev) : SameMem d (plainRead a d).2 := by
  unfold plainRead
  simp only
  split
  · exact SameMem.ite (SameMem.refl d) ⟨rfl, rfl⟩
  · exact SameMem.refl d

/-- A read changes no memory. -/
theorem targetRead_mem (m a n : Nat) (d : Dev) : SameMem d (targetRead m a n d).2 := by
  unfold targetRead
  split
  · split
    · exact dramAccept_mem m a false d
    · exact dramOutOfRange_mem d
  · split
    · exact SameMem.refl d
    · split
      · exact SameMem.refl d
      · split
        · split
          · exact SameMem.refl d
          · split
            · exact pgFault_mem _ _ _ _
            · split
              · exact (plainRead_mem _ d).trans (plainRead_mem _ _)
              · exact plainRead_mem _ d
        · exact SameMem.refl d

theorem engineWrite1_wf (m a : Nat) (bs : List Byte) (d : Dev) (h : Memory.wf d) : Memory.wf (engineWrite1 m a bs d) := by
  unfold engineWrite1
  split
  · exact h
  · simp only
    split
    · exact Memory.wf_of_same (violation_mem _ _ _ _ _) h
    · split
      · exact h
      · exact targetWrite_wf _ _ _ _ h

theorem engineRead1_mem (m a n : Nat) (d : Dev) : SameMem d (engineRead1 m a n d).2 := by
  unfold engineRead1
  split
  · exact SameMem.refl d
  · simp only
    split
    · exact targetRead_mem _ _ _ _
    · exact violation_mem _ _ _ _ _

theorem engineWrite_fold_wf (m : Nat) (l : List (Nat × Nat)) (bs : List Byte) (d : Dev) (h : Memory.wf d) :
    Memory.wf (l.foldl (fun (p : List Byte × Dev) q => (p.1.drop q.2, engineWrite1 m q.1 (p.1.take q.2) p.2)) (bs, d)).2 := by
  induction l generalizing bs d with
  | nil => exact h
  | cons q l ih => exact ih _ _ (engineWrite1_wf _ _ _ _ h)

/-- An engine's write keeps the canonical form. -/
theorem engineWrite_wf (m a : Nat) (bs : List Byte) (d : Dev) (h : Memory.wf d) : Memory.wf (engineWrite m a bs d) :=
  Memory.wf_of_same (dramRun_mem _) (engineWrite_fold_wf m _ bs d h)

theorem engineRead_fold_mem (m : Nat) (l : List (Nat × Nat)) (x : Option (List Byte)) (d : Dev) :
    SameMem d (l.foldl (fun (p : Option (List Byte) × Dev) q =>
      let r := engineRead1 m q.1 q.2 p.2
      (match p.1, r.1 with
        | some x, some y => some (x ++ y)
        | _, _ => none, r.2)) (x, d)).2 := by
  induction l generalizing x d with
  | nil => exact SameMem.refl d
  | cons q l ih => exact (engineRead1_mem m q.1 q.2 d).trans (ih _ _)

/-- An engine's read changes no memory. -/
theorem engineRead_mem (m a n : Nat) (d : Dev) : SameMem d (engineRead m a n d).2 :=
  (engineRead_fold_mem m _ _ d).trans (dramRun_mem _)

theorem leakCancels_mem (c : Nat) (d e : Dev) (h : leakCancels c d = some e) : SameMem d e := by
  unfold leakCancels at h
  extract_lets due at h
  generalize due = due at h
  split at h
  · obtain rfl := Option.some.inj h; exact ⟨rfl, rfl⟩
  · split at h
    · cases h
    · rename_i at_ l o _
      generalize hu : cellSet none d.leakUndo c none = u at h
      split at h
      · obtain rfl := Option.some.inj h
        exact SameMem.put (SameMem.put ⟨rfl, rfl⟩ _ _) _ _
      · cases h

theorem bucketFill_cancelled (c : Nat) (d e : Dev) (h : leakCancels c d = some e) : bucketFill c d = e := by
  unfold bucketFill; rw [h]

theorem bucketFill_mem (c : Nat) (d : Dev) : SameMem d (bucketFill c d) := by
  by_cases hl : leakCancels c d = none
  · unfold bucketFill
    rw [hl]
    simp only
    have h : SameMem d (d.count (F.ECC_BKT_LEVEL c) 1) := SameMem.count (SameMem.refl d) _ _
    generalize d.count (F.ECC_BKT_LEVEL c) 1 = x at h ⊢
    exact SameMem.ite (SameMem.raise (SameMem.put h _ _) _ _) h
  · obtain ⟨e, he⟩ := Option.ne_none_iff_exists'.mp hl
    rw [bucketFill_cancelled c d e he]
    exact leakCancels_mem c d e he

theorem countCorrected_mem (c i : Nat) (d : Dev) : SameMem d (countCorrected c i d) := by
  unfold countCorrected
  extract_lets d1 again d2
  have h1 : SameMem d d1 := by
    unfold d1
    split
    · exact SameMem.count (SameMem.refl d) _ _
    · exact SameMem.refl d
  have h2 : SameMem d d2 := SameMem.put h1 _ _
  clear_value d2
  refine SameMem.trans ?_ (bucketFill_mem _ _)
  exact SameMem.ite (SameMem.trans h2 ⟨rfl, rfl⟩) h2

theorem countUncorrectable_mem (c i a m : Nat) (x : Bool) (d : Dev) : SameMem d (countUncorrectable c i a m x d) := by
  unfold countUncorrectable
  extract_lets d1 d2 d3 e1 d4 d5
  have h1 : SameMem d d1 := by
    unfold d1
    split
    · exact (SameMem.refl d).put _ _
    · exact SameMem.refl d
  have h2 : SameMem d d2 := ⟨h1.1, h1.2⟩
  have h3 : SameMem d d3 := h2.count _ _
  have he : SameMem d e1 := ((h3.put _ _).put _ _).put _ _
  have h4 : SameMem d d4 := SameMem.ite h3 (((he.put _ _).put _ _).put _ _)
  have h5 : SameMem d d5 := SameMem.ite ⟨h4.1, h4.2⟩ h4
  exact h5.raise _ _

/-- A memory read completed keeps the canonical form: a correction of DRAM is stored. -/
theorem memoryReadComplete_wf (cls m a w c h w2 c2 h2 : Nat) (d : Dev) (hd : Memory.wf d) :
    Memory.wf (memoryReadComplete cls m a w c h w2 c2 h2 d) := by
  have hc (i v : Nat) (e : Dev) (he : Memory.wf e) : Memory.wf { countCorrected cls i e with busResp := .ok v } :=
    Memory.wf_of_same (countCorrected_mem cls i e) he
  have hu (i : Nat) (x : Bool) : Memory.wf { countUncorrectable cls i a m x d with busResp := .poison } :=
    Memory.wf_of_same (countUncorrectable_mem cls i a m x d) hd
  have hs (b : Bool) (v : Nat) : Memory.wf (if b then { d with dram := dramStore a (leBytes 8 v) d.dram } else d) :=
    Memory.wf_ite ⟨dramStore_wf _ _ _ hd.1, hd.2⟩ hd
  unfold memoryReadComplete
  extract_lets idx finish r r2
  refine Memory.wf_ite hd (Memory.wf_ite hd (Memory.wf_ite (Memory.wf_ite (hc _ _ _ (hs _ _)) (hu _ _)) ?_))
  cases r with
  | sound => exact hd
  | corrected v => exact hc _ _ _ (hs _ _)
  | uncorrectable => exact hu _ _

end Sys2Proof.Machine
end

