-- ==== Sys2Proof/Laws/Perform.lean ====
section
/-! SUPPORT. What performing a command comes to: while the block runs and is ready it is the effect at the new instant,
settled; in reset or standby only time passes. -/
namespace Sys2Proof.Machine

theorem perform_run (dt : Nat) (s : State) (f : Dev → Dev) (h : s.dev.power = .run) :
    perform dt s f = .next (settle s (f (s.dev.elapse dt))) := by
  unfold perform performAny; simp [h]

theorem perform_off (dt : Nat) (s : State) (f : Dev → Dev) (h : s.dev.power ≠ .run) :
    perform dt s f = .next (settle s (s.dev.elapse dt)) := by
  unfold perform performAny; simp [h]

/-- With nothing owed, settling only moves what was put out to the record. -/
theorem settle_plain (s : State) (d : Dev) (hs : d.sysReq = none) (hb : d.burnReq = 0) :
    settle s d = { dev := d.sent, fuses := s.fuses, wire := d.out ++ s.wire, pending := s.pending } := by
  unfold settle; simp [hs, hb]

theorem jtpDrain_none (n : Nat) (d : Dev) (h : regSession d = none) : jtpDrain n d = d := by
  cases n with
  | zero => rfl
  | succ n => unfold jtpDrain; rw [h]

theorem regSession_congr (d e : Dev) (h : d.jtp.sess = e.jtp.sess)
    (g : d.getB F.DRAMC_FCHG_BUSY = e.getB F.DRAMC_FCHG_BUSY) : regSession d = regSession e := by
  unfold regSession Dev.sess; rw [h, g]

theorem regWritesRun_none (d : Dev) (h : d.regWrites = []) : regWritesRun d = d := by
  have e : { d with regWrites := [] } = d := by rw [← h]
  unfold regWritesRun
  rw [h, e]
  rfl

theorem cleatSeam_none (d : Dev) (h : (cleated d 8 && d.planActive) = false) : cleatSeam d = d := by
  unfold cleatSeam; simp [h]

theorem afterCommand_quiet (d : Dev) (h : regSession d = none) (hc : (cleated d 8 && d.planActive) = false)
    (hb : d.banks = []) (hw : d.regWrites = []) (hf : (d.getB F.DRAMC_FCHG_BUSY && !d.getB F.DRAMC_STAT_SELFREF) = false) :
    afterCommand d = d := by
  unfold afterCommand
  simp only
  rw [regWritesRun_none _ hw, jtpDrain_none _ _ h, dramRun_none _ hb hf, cleatSeam_none _ hc]

/-- Whether a master is cleated, and whether a plan is active, are register fields. -/
theorem quiet_congr (d e : Dev) (hp : e.get F.PLAN_CHK_ACTIVE = d.get F.PLAN_CHK_ACTIVE)
    (hc : cleated e 8 = cleated d 8) : (cleated e 8 && e.planActive) = (cleated d 8 && d.planActive) := by
  unfold Dev.planActive Dev.getB; rw [hp, hc]

/-- A command of a ready block whose effect touches neither the sessions, nor the cleats, nor the plan, leaves no
request of DRAM waiting, and asks for no reset or burning: its outcome is its effect, its outputs recorded. -/
theorem perform_ready (dt : Nat) (s : State) (f : Dev → Dev) (h : Ready s)
    (hj : (f (s.dev.elapse dt)).jtp.sess = s.dev.jtp.sess)
    (hc : cleated (f (s.dev.elapse dt)) 8 = cleated s.dev 8)
    (hp : (f (s.dev.elapse dt)).get F.PLAN_CHK_ACTIVE = s.dev.get F.PLAN_CHK_ACTIVE)
    (hd : (f (s.dev.elapse dt)).banks = []) (hw : (f (s.dev.elapse dt)).regWrites = [])
    (hy : (f (s.dev.elapse dt)).getB F.DRAMC_FCHG_BUSY = s.dev.getB F.DRAMC_FCHG_BUSY)
    (hf : ((f (s.dev.elapse dt)).getB F.DRAMC_FCHG_BUSY && !(f (s.dev.elapse dt)).getB F.DRAMC_STAT_SELFREF) = false)
    (hs : (f (s.dev.elapse dt)).sysReq = none) (hb : (f (s.dev.elapse dt)).burnReq = 0) :
    perform dt s (fun d => afterCommand (f d)) = .next
      { dev := (f (s.dev.elapse dt)).sent, fuses := s.fuses, wire := (f (s.dev.elapse dt)).out ++ s.wire,
        pending := s.pending } := by
  obtain ⟨hr, -, hq, hcp, -⟩ := h
  rw [perform_run _ _ _ hr, afterCommand_quiet, settle_plain _ _ hs hb]
  · rw [regSession_congr _ s.dev hj hy]; exact hq
  · rw [quiet_congr s.dev _ hp hc]; exact hcp
  · exact hd
  · exact hw
  · exact hf

/-- The same with the effect's result named: the two registers that decide what follows a command read as before. -/
theorem perform_calm {dt : Nat} {s : State} {f : Dev → Dev} (h : Ready s) {e : Dev} (he : f (s.dev.elapse dt) = e)
    (hj : e.jtp.sess = s.dev.jtp.sess) (hc : e.reg R.SHROUD_CLEAT_LO = s.dev.reg R.SHROUD_CLEAT_LO)
    (hp : e.reg R.PLAN_CHK = s.dev.reg R.PLAN_CHK) (hd : e.banks = []) (hw : e.regWrites = [])
    (hg : e.reg R.DRAMC_FCHG = s.dev.reg R.DRAMC_FCHG) (hm : e.reg R.DRAMC_STAT = s.dev.reg R.DRAMC_STAT)
    (hs : e.sysReq = none) (hb : e.burnReq = 0) :
    perform dt s (fun d => afterCommand (f d)) = .next
      { dev := e.sent, fuses := s.fuses, wire := e.out ++ s.wire, pending := s.pending } := by
  subst he
  refine perform_ready dt s f h hj ?_ ?_ hd hw ?_ ?_ hs hb
  · rw [cleated, cleated, if_pos (by decide), if_pos (by decide), Dev.get, Dev.get, hc]
  · unfold Dev.get; rw [hp]
  · unfold Dev.getB Dev.get; rw [hg]
  · have := h.2.2.2.2.2.2
    unfold Dev.getB Dev.get at this ⊢
    rw [hg, hm]; exact this

@[simp] theorem Dev.reg_sent (d : Dev) (a : Nat) : d.sent.reg a = d.reg a := rfl
@[simp] theorem Dev.get_sent (d : Dev) (f : RegField) : d.sent.get f = d.get f := rfl

/-- The reset state is ready once a command arrives. -/
theorem reset_settled : Settled State.reset := ⟨rfl, rfl, rfl⟩

end Sys2Proof.Machine
end

