-- ==== Sys2Proof/WellFormed.lean ====
section
/-! DEFINITION. What a well-formed command is: every operand whose type is wider than what the spec gives it is within the
spec's width, and lists have the lengths the spec gives. `exec` is total on ill-formed commands too. -/
namespace Sys2Proof

/-- The operand fits in `w` bits. -/
def below (w x : Nat) : Bool := decide (x < 2 ^ w)

/-- What training reports: a stage 1 to 7 and a lane 0 to 19 where it failed (R328), and at most 20 lane words. -/
def trainOk (fail : Option (Nat × Nat)) (eyes : List Word) : Bool :=
  fail.all (fun f => decide (1 ≤ f.1) && decide (f.1 ≤ 7) && decide (f.2 < 20)) && decide (eyes.length ≤ 20)

/-- The checks of each command's operands. -/
def Instr.wf : Instr → Bool
  | .beatBoundary _ unit planes =>
    [0, 0x10, 0x11, 0x12, 0x13, 0x14, 0x15].contains unit && below 8 planes
  | .commitCancel _ _ => true
  | .commitImmediate _ _ => true
  | .commitNextBeat _ _ => true
  | .commitAtEpoch _ _ target =>
    below 30 target
  | .planCheckDone _ => true
  | .planStopEpoch _ => true
  | .planStopLine _ => true
  | .planEnd _ => true
  | .encSample _ _ sin cos _ =>
    below 12 sin && below 12 cos
  | .qdTransition _ _ _ _ _ => true
  | .camTriggerHeld _ _ => true
  | .encArm _ _ => true
  | .encClrFault _ _ => true
  | .encLoad _ _ => true
  | .levRestore _ planes =>
    below 8 planes
  | .vencSampleRx _ sample =>
    sample.length == 32
  | .vencLost _ => true
  | .ptpMessageRx _ _ _ => true
  | .ptpMessageTx _ _ _ => true
  | .timeSet _ => true
  | .timeActDomWrite _ _ => true
  | .domainLost _ _ => true
  | .tsqData0Read _ => true
  | .tpulseEdge _ _ => true
  | .ethRxFrame _ _ _ _ _ => true
  | .ethLinkChange _ _ _ _ _ _ => true
  | .stbyDupTimeout _ => true
  | .snapshotComplete _ => true
  | .pathEngineFault _ _ => true
  | .pathSwitchCmd _ => true
  | .pathDrillTimer _ => true
  | .pathDrillNow _ => true
  | .drillPostTimeout _ => true
  | .txrTailWrite _ _ => true
  | .ethTxFrame _ _ => true
  | .ethTxDone _ _ => true
  | .helloOpen _ _ _ _ _ _ _ _ => true
  | .helloProbe _ _ _ _ _ _ _ => true
  | .helloClose _ _ _ _ _ _ _ => true
  | .planLoad _ _ _ _ _ _ _ => true
  | .tableWrite _ _ _ _ _ _ _ => true
  | .layerSegment _ _ _ _ _ _ _ => true
  | .copyOrder _ _ _ _ _ _ _ => true
  | .epochCommit _ _ _ _ _ _ _ => true
  | .ackReceived _ _ _ _ _ _ _ => true
  | .nakReceived _ _ _ _ _ _ _ => true
  | .creditReceived _ _ _ _ _ _ _ => true
  | .regRead _ _ _ _ _ _ _ => true
  | .regWrite _ _ _ _ _ _ _ => true
  | .doorbell _ _ _ _ _ _ _ => true
  | .position _ _ _ _ _ _ _ => true
  | .ackTimer _ _ => true
  | .nakHoldTimer _ _ => true
  | .jtpRetransmitTimer _ _ => true
  | .reportSend _ _ _ _ => true
  | .mtxTailWrite _ _ => true
  | .keyLoad _ _ _ _ => true
  | .sessionEnable _ _ => true
  | .sessionDisable _ _ => true
  | .compressorStart _ _ => true
  | .compressorAbort _ => true
  | .compressorLineDone _ fills bad _ =>
    fills.all (below 20) && bad.all (below 6)
  | .cmpDescTailWrite _ _ => true
  | .storeStreamReset _ => true
  | .storeStreamRewind _ => true
  | .storeReissue _ planes =>
    below 8 planes
  | .storeSeam _ planes =>
    below 8 planes
  | .storeSeamClr _ planes =>
    below 8 planes
  | .fireFrameLaunch _ _ delays =>
    decide (delays.length ≤ 32)
  | .fireStrobe _ _ => true
  | .nozShLoWrite _ _ => true
  | .nozWearLoWrite _ _ => true
  | .plogSentWrite _ _ => true
  | .plogRingRewrite _ _ _ => true
  | .statusFrameRx _ _ _ => true
  | .tempValidTimeout _ _ => true
  | .hpCutCmd _ _ => true
  | .hpCutClr _ _ => true
  | .rejectMarkEnd _ => true
  | .fireRejReq _ _ => true
  | .fireRejClr _ => true
  | .laneLockChange _ _ _ _ => true
  | .trainFrameRx _ _ _ _ _ _ _ => true
  | .startFrameRx _ _ _ => true
  | .linkTrainTimeout _ _ => true
  | .hplStatusTimeout _ _ => true
  | .hplDownCmd _ _ => true
  | .linkCycle _ _ => true
  | .senseReplyRx _ _ _ => true
  | .hplMbxSend _ _ => true
  | .memberFrameTx _ _ _ => true
  | .memberFrameRx _ _ _ _ => true
  | .cxpHeartbeatRx _ _ => true
  | .camHbTimeout _ _ => true
  | .camLineRx _ _ _ _ samples =>
    samples.all (below 12)
  | .camLineTimeout _ _ => true
  | .pipelineLineDone _ => true
  | .ccAckRx _ _ status _ =>
    [0, 1, 3].contains status
  | .ccTimeout _ _ => true
  | .camCcGo _ _ _ => true
  | .strobePulse _ _ => true
  | .vrdHclr _ views =>
    below 8 views
  | .vrdSentWrite _ _ => true
  | .adcConversion _ code =>
    below 12 code
  | .finEdge _ _ => true
  | .loopRst _ _ => true
  | .pwmPeriodStart _ _ => true
  | .gpioOutWrite _ _ => true
  | .gpioSet _ _ => true
  | .gpioClr _ _ => true
  | .gpioEdge _ _ _ => true
  | .stpMove _ _ _ => true
  | .stpStop _ _ => true
  | .stpHome _ _ => true
  | .stpSetPos _ _ => true
  | .stpClrFault _ _ => true
  | .stpDisable _ _ => true
  | .stepPulse _ _ => true
  | .stallInput _ _ => true
  | .busTransaction _ _ _ addr size data =>
    decide (0 < size) && decide (addr % 64 + size ≤ 64) && below 40 addr && below (8 * size) data
  | .memoryReadComplete _ _ _ addr word check hash word2 check2 hash2 =>
    below 40 addr && below 64 word && below 8 check && below 8 hash && below 64 word2 && below 8 check2 && below 8 hash2
  | .dramRefresh _ delay =>
    below 8 delay
  | .dramRatePoll _ _ => true
  | .dramTrain _ => true
  | .dramTrainDone _ fail eyes =>
    trainOk fail eyes
  | .dramTrack _ _ delta =>
    decide (-128 ≤ delta) && decide (delta < 128)
  | .dramFchg _ target =>
    below 3 target
  | .dramFchgDone _ fail eyes =>
    trainOk fail eyes
  | .dramPowerDown _ _ => true
  | .rhWindowRenew _ => true
  | .dramScrub _ => true
  | .eccLeak _ _ => true
  | .remapInstall _ => true
  | .remapRemove _ => true
  | .remapAutoInstall _ _ _ => true
  | .evtDoorbell _ _ => true
  | .evtcDoorbell _ _ _ => true
  | .eventAccept _ _ ret =>
    below 40 ret
  | .evtcEoi _ _ _ => true
  | .eventReturn _ _ => true
  | .evtMset _ _ _ => true
  | .evtMclr _ _ _ => true
  | .evtcMset _ _ _ => true
  | .evtcMclr _ _ _ => true
  | .evtRouteWrite _ _ _ _ => true
  | .coreWait _ _ => true
  | .wakeEdge _ _ => true
  | .wdogKick _ _ => true
  | .wdogExpiry _ _ => true
  | .mgmtResetRequest _ _ => true
  | .mgmtResetApply _ => true
  | .blockDisable _ _ => true
  | .blockEnable _ _ => true
  | .blockAbort _ _ => true
  | .blockIdle _ _ => true
  | .shroudEnable _ _ => true
  | .shroudApply _ _ => true
  | .shroudRead _ _ => true
  | .shroudRelease _ _ _ => true
  | .shroudReleaseReset _ _ _ => true
  | .tapcalWindow _ _ _ => true
  | .encPairSwap _ _ _ _ => true
  | .adcBankCal _ => true
  | .adcCalCmd _ => true
  | .adcBankCalDone _ => true
  | .tjSensorCal _ => true
  | .supplyConvCal _ => true
  | .wearSnap _ => true
  | .wearRestore _ => true
  | .wearCopyDone _ => true
  | .wearEvaluation _ monitors =>
    monitors.length == 24 && monitors.all (below 16)
  | .ageingTick _ => true
  | .reefEnter _ _ => true
  | .reefRecover _ _ => true
  | .reefHoldExceeded _ _ => true
  | .railReset _ _ => true
  | .vbatPor _ => true
  | .porRelease _ => true
  | .resetPin _ => true
  | .sysSoftReset _ _ => true
  | .blockReset _ _ _ => true
  | .refLoss _ => true
  | .refRestore _ => true
  | .pllUnlock _ _ _ => true
  | .pllRelockTimeout _ _ => true
  | .clkMzWrite _ _ => true
  | .pwrOeWrite _ _ => true
  | .standbyEnter _ => true
  | .pwrEnLow _ => true
  | .wakeTimerExpiry _ => true
  | .bootJump _ _ _ => true
  | .bootWatchdogExpiry _ => true
  | .rollbackAdvance _ _ _ => true
  | .bootVerify _ _ => true
  | .bootVerifyDone _ => true
  | .registerWrite _ _ addr _ =>
    addr % 4 == 0 && decide (addr < 0x80000)
  | .gweatFrameDiscard _ _ => true
  | .cxpLinkChange _ _ _ _ => true
  | .tjSensorCalDone _ value =>
    below 12 value
  | .supplyConvCalDone _ millivolts =>
    millivolts.length == 10 && millivolts.all (below 16)
  | .sysResetRelease _ => true

end Sys2Proof
end

