-- ==== Sys2Proof/Tests/Slice0.lean ====
section
/-! SUPPORT. Tests of the model and, for every statement with hypotheses, a state and operands that meet them. -/
namespace Sys2Proof.Machine.Tests
open Sys2Proof Sys2Proof.Machine

set_option maxRecDepth 100000
set_option synthInstance.maxSize 1000

/-- The reset state with the given fields put. -/
def mkState (l : List (RegField × Nat)) : State := { dev := l.foldl (fun d e => d.put e.1 e.2) Dev.reset }

/-! ### Well-formed commands: one ill-formed term for each check -/

theorem test_wf_refuses_beat : Instr.wf (.beatBoundary 7 0x16 0) = false ∧ Instr.wf (.beatBoundary 7 0x10 256) = false
    ∧ Instr.wf (.beatBoundary 7 0x10 3) = true ∧ Instr.wf (.commitAtEpoch 7 4 (2 ^ 30)) = false
    ∧ Instr.wf (.commitAtEpoch 7 4 9) = true := by decide
theorem test_wf_refuses_samples : Instr.wf (.encSample 7 0 4096 0 []) = false ∧ Instr.wf (.encSample 7 0 0 4096 []) = false
    ∧ Instr.wf (.encSample 7 0 4095 0 []) = true ∧ Instr.wf (.adcConversion 7 4096) = false
    ∧ Instr.wf (.vencSampleRx 7 [0]) = false ∧ Instr.wf (.camLineRx 7 0 0 true [4096]) = false := by decide
theorem test_wf_refuses_masks : Instr.wf (.levRestore 7 256) = false ∧ Instr.wf (.storeReissue 7 256) = false
    ∧ Instr.wf (.storeSeam 7 256) = false ∧ Instr.wf (.storeSeamClr 7 256) = false ∧ Instr.wf (.vrdHclr 7 256) = false
    ∧ Instr.wf (.fireFrameLaunch 7 0 (List.replicate 33 0)) = false ∧ Instr.wf (.ccAckRx 7 0 2 0) = false := by decide
theorem test_wf_refuses_line : Instr.wf (.compressorLineDone 7 [2 ^ 20] [] false) = false
    ∧ Instr.wf (.compressorLineDone 7 [] [64] false) = false ∧ Instr.wf (.compressorLineDone 7 [63] [0] false) = true := by decide
theorem test_wf_refuses_bus : Instr.wf (.busTransaction 7 0 0 0x1000000000 0 0) = false
    ∧ Instr.wf (.busTransaction 7 0 0 0x100000003C 8 0) = false ∧ Instr.wf (.busTransaction 7 0 0 (2 ^ 40) 4 0) = false
    ∧ Instr.wf (.busTransaction 7 0 1 0x1000000000 4 (2 ^ 32)) = false ∧ Instr.wf (.registerWrite 7 0 2 0) = false
    ∧ Instr.wf (.registerWrite 7 0 0x80000 0) = false := by decide
theorem test_wf_refuses_memory_read : Instr.wf (.memoryReadComplete 7 14 0 (2 ^ 40) 0 0 0 0 0 0) = false
    ∧ Instr.wf (.memoryReadComplete 7 14 0 0 (2 ^ 64) 0 0 0 0 0) = false ∧ Instr.wf (.memoryReadComplete 7 14 0 0 0 256 0 0 0 0) = false
    ∧ Instr.wf (.memoryReadComplete 7 14 0 0 0 0 256 0 0 0) = false ∧ Instr.wf (.memoryReadComplete 7 14 0 0 0 0 0 (2 ^ 64) 0 0) = false
    ∧ Instr.wf (.memoryReadComplete 7 14 0 0 0 0 0 0 256 0) = false ∧ Instr.wf (.memoryReadComplete 7 14 0 0 0 0 0 0 0 256) = false := by decide
theorem test_wf_refuses_dram : Instr.wf (.dramRefresh 7 256) = false ∧ Instr.wf (.dramTrainDone 7 (some (8, 0)) []) = false
    ∧ Instr.wf (.dramTrainDone 7 (some (0, 0)) []) = false ∧ Instr.wf (.dramTrainDone 7 none (List.replicate 21 0)) = false
    ∧ Instr.wf (.dramTrack 7 0 128) = false ∧ Instr.wf (.dramTrack 7 0 (-129)) = false ∧ Instr.wf (.dramFchg 7 8) = false
    ∧ Instr.wf (.dramFchgDone 7 (some (1, 20)) []) = false := by decide
theorem test_wf_refuses_others : Instr.wf (.eventAccept 7 0 (2 ^ 40)) = false ∧ Instr.wf (.wearEvaluation 7 []) = false
    ∧ Instr.wf (.wearEvaluation 7 (List.replicate 24 65536)) = false ∧ Instr.wf (.tjSensorCalDone 7 4096) = false
    ∧ Instr.wf (.supplyConvCalDone 7 []) = false ∧ Instr.wf (.supplyConvCalDone 7 (List.replicate 10 65536)) = false := by decide

/-! ### No word spells a command -/

theorem test_no_word_decodes (n w : Nat) : decodeTableWord n w = none := rfl
theorem test_withFetchWord_keeps (s : State) (n w : Nat) : s.withFetchWord n w = s := rfl

/-! ### The spec's worked examples -/

/-- The worked admission of chapter 03: P(1,000) to P(1,002) on press N (R47). -/
theorem test_boundary_press_n : let d := (mkState [(F.LEV_PITCH_PITCH 3, 28409419)]).dev
    (boundary d 3 1000, boundary d 3 1001, boundary d 3 1002) = (433493, 433926, 434360) := by decide
/-- The worked segment of chapter 07: LEFT, k = 1, an escape, 72 bits (R144 to R148, R155). -/
theorem test_segment_press_n : (let r := encodeSegment 8 false [120, 120, 121, 121, 122, 122, 123, 123] [121, 122, 122, 126, 123, 10, 11, 12]
    (r.length, packBits 9 r)) = (72, [0xC0, 0x0E, 0x06, 0x43, 0xCD, 0xFF, 0xFF, 0xE1, 0x90]) := by decide
/-- The line header of the same example with a FILL segment before it (R140 to R142). -/
theorem test_line_header : (encodeLine 8 true [] [] (List.replicate 8 0)).take 4 = [0xBA, 0x00, 0x00, 0x06] := by decide
/-- The worked trims of chapter 10 at θ = 41.5 °C: DT and AG (R226). -/
theorem test_trim_press_n : (trimAt (fun i => if i = 1 then -400 else -1100) 664, trimAt (fun i => if i = 1 then 4260 else 4096) 664)
    = (-855, 4153) := by decide
/-- The worked draw of chapter 10 (R223). -/
theorem test_segment_samples : segSamples 4153 2048 0x00058320 = [1823, 1571, 1317, 1065, 811] := by decide
/-- The worked compensation of chapter 09: tone-corrected values (R192). -/
theorem test_tone_press_n : toneValue (2150 * 2 ^ 26 + 4076 * 2 ^ 38) 2056 = 2138 ∧ toneValue (1980 * 2 ^ 26 + 12 * 2 ^ 38) 2056 = 2000 := by decide
/-- The worked ring time of chapter 11: d = 25 ns, 2^-8 ns (R261). -/
theorem test_ring_delay : (let d := { (mkState [(F.PLAN_STAY_RING_SIZE, 1)]).dev with
      clk := 4422 * 2 ^ 48, stay := { sentAt := [(1, 7, 400 * 256)] } }
    let f : List Byte := [0x10, 0x10, 0x10, 0] ++ List.replicate 20 0 ++ beBytes 4 (3972 * 256) ++ beBytes 2 7
    (stayMeasure 1 f d).getI F.STAY_DELAY_W_D) = 25 * 256 := by decide
/-- The worked address of chapter 14: bank group 6, bank 3, subchannel B, rank 0, row 1,024; one row on, bank group 7 (R324). -/
theorem test_dram_decode : let d := (mkState [(F.DRAMC_CFG_RANKS, 1), (F.DRAMC_CFG_WIDTH, 0)]).dev
    (dramBankRow d 0x1020001F40, dramBankRow d 0x1020081F40) = ((3 + 4 * 6 + 64, 1024), (3 + 4 * 7 + 64, 1025)) := by decide
/-- The worked address hash of chapter 14 (R336). -/
theorem test_address_hash : addressHash 0x1020001F40 = 0xED ∧ addressHash 0x1020081F40 = 0xEC := by decide
/-- The worked head life of chapter 17: L, L90 and WEAR_USED (R393). -/
theorem test_head_life : (let x := forecast 40000000000 100000006144 { r := 90000000, s2 := 144000000000000 }
    (x.l, x.l90, x.used)) = (666, 569, 26214) := by decide

def encW : State :=
  let s := mkState [(F.ENC_CFG_SRC 0, 3), (F.ENC_CFG_FILT 0, 0), (F.ENC_CFG_IDX_MODE 1, 1), (F.ENC_CFG_SRC 1, 1), (F.ENC_IDX_LO_VALUE 0, 7)]
  { s with dev := (s.dev.setEnc 0 { x := 41, qd := 1 }).setEnc 1 { x := 5, phi := 10, phiSeen := true } }
def encX : State := { encW with dev := (encW.dev.put (F.ENC_CFG_IDX_MODE 0) 1).setEnc 0 { x := 41, qd := 1, edge := true } }
theorem witness_PositionSamples : Ready encW ∧ PositionAlone encW ∧ encFaulty encW.dev 0 = false
    ∧ encFaulty encW.dev 1 = false ∧ encW.dev.get (F.ENC_CFG_FAULT_N 0) ≠ 0 ∧ encW.dev.get (F.ENC_CFG_FAULT_N 1) ≠ 0
    ∧ encW.dev.get (F.ENC_CFG_SRC 0) = 3 ∧ LevelsTaken encW 0 ∧ (encW.dev.enc 0).qdBad = false ∧ (encW.dev.enc 0).edge = false
    ∧ (encW.dev.enc 0).x + (encW.dev.enc 0).qd = 42 ∧ encW.dev.get (F.ENC_CFG_SRC 1) = 1 ∧ (encW.dev.enc 1).phiSeen = true
    ∧ 16 * ((0x800 % 4096 : Nat) - (encW.dev.get (F.ENC_ADC_OFS_SIN_OFS 1) : Int)) - pairCorr encW.dev 0 0 = 0
    ∧ 16 * ((0xC00 % 4096 : Nat) - (encW.dev.get (F.ENC_ADC_OFS_COS_OFS 1) : Int)) - pairCorr encW.dev 0 1 = 16384
    ∧ 256 * (encW.dev.get (F.ENC_AMP_AMIN 1) : Int) ^ 2 ≤ 16384 ^ 2 ∧ 16384 ^ 2 ≤ 256 * (encW.dev.get (F.ENC_AMP_AMAX 1) : Int) ^ 2
    ∧ (refSamples (encW.dev.get (F.ENC_CFG_FILT 1)) [false, false] (encW.dev.enc 1)).edge = false
    ∧ ((phase 0 16384 + 1024 - (encW.dev.enc 1).phi + 512) % 1024 : Nat) - 512 = (-10 : Int) := by decide
theorem witness_PositionSamples_index : Ready encX ∧ PositionAlone encX ∧ encFaulty encX.dev 0 = false
    ∧ encX.dev.get (F.ENC_CFG_FAULT_N 0) ≠ 0 ∧ encX.dev.get (F.ENC_CFG_SRC 0) = 3 ∧ (encX.dev.enc 0).edge = true
    ∧ encX.dev.get (F.ENC_CFG_IDX_MODE 0) = 1 ∧ 0 < (encX.dev.enc 0).qd ∧ (encX.dev.enc 0).x = 41
    ∧ LevelsTaken encX 0 ∧ countMin < indexValue encX.dev 0 ∧ indexValue encX.dev 0 < countMax
    ∧ (∀ p, p < 8 → (encX.dev.plane p).assigns = []) := by decide
theorem witness_TrackingFilter : ((Dev.reset).enc 0).restart = true
    ∧ ((Dev.reset.setEnc 0 { x := 3, restart := false }).enc 0).restart = false := by decide

/-- Unit 0 reads QD[0], whose balls show the levels `l`. -/
def qdW (l filt : Nat) : State :=
  { encW with dev := { encW.dev.put (F.ENC_CFG_FILT 0) filt with qdIn := cellSet 0 [] 0 l } }
theorem witness_QuadratureTransitions : Ready (qdW 1 0) ∧ PositionSteady (qdW 1 0) ∧ (qdW 1 0).dev.get (F.ENC_CFG_SRC 0) = 3
    ∧ (qdW 1 0).dev.get (F.ENC_CFG_SRC 1) ≠ 3 ∧ ((qdW 1 0).dev.elapse 7).fastSample = 2 ∧ qdLevels (qdW 1 0).dev 0 = 1
    ∧ ((qdW 1 0).dev.enc 0).qdAt = 0 ∧ ((qdW 1 0).dev.enc 0).a = false ∧ ((qdW 1 0).dev.enc 0).b = false
    ∧ ((qdW 1 0).dev.enc 0).accAt = 0 ∧ (if bit 1 0 = ((qdW 1 0).dev.enc 0).a then (0 : Nat) else 5) = 5
    ∧ ((qdW 1 0).dev.enc 0).x + ((qdW 1 0).dev.enc 0).qd + 1 = 43 ∧ ((qdW 1 0).dev.elapse 0).fastSample = 0 := by decide
theorem witness_QuadratureTransitions_rest : Ready (qdW 2 3) ∧ PositionSteady (qdW 2 3) ∧ ((qdW 2 3).dev.elapse 15).fastSample = 3
    ∧ (qdW 2 3).dev.get (F.ENC_CFG_FILT 0) = 3 ∧ Ready (qdW 0 0) ∧ LevelsTaken (qdW 0 0) 0
    ∧ Ready (qdW 3 0) ∧ PositionSteady (qdW 3 0) ∧ ((qdW 3 0).dev.enc 0).qdAt + (qdW 3 0).dev.get (F.ENC_CFG_FILT 0) < 2
    ∧ (∀ p ∈ activePlanes (qdW 3 0).dev, sourceInUse (qdW 3 0).dev p ≠ 0) ∧ encFaulty (qdW 3 0).dev 0 = false
    ∧ ((qdW 3 0).dev.enc 0).pa = none ∧ ((qdW 3 0).dev.enc 0).pb = none := by decide

def encF : State :=
  let s := mkState [(F.ENC_CFG_SRC 0, 3), (F.ENC_STAT_FAULT 1, 1), (F.ENC_STAT_FAULT 0, 1), (F.ENC_STAT_FCODE 0, 2)]
  { s with dev := s.dev.setEnc 0 { x := 41, goodRun := 20 } }
/-- A plan that enables plane 0, whose primary is unit 0, is in force. -/
def encP : State :=
  let s := mkState [(F.PLAN_CHK_ACTIVE, 1), (F.ENC_CFG_SRC 0, 3)]
  let d := s.dev.put (F.PLAN_PLANE_A_EN 0) 1
  { s with dev := { s.dev with versions := [{ plan := true, cfg := { regs := [(R.PLAN_PLANE_A 0, d.reg (R.PLAN_PLANE_A 0))] } }] } }
def encM : State := mkState [(F.ENC_CFG_SRC 0, 3), (F.ENC_IDX_HI_VALUE 0, 0x8000)]
def encV : State :=
  let s := mkState [(F.ENC_CFG_SRC 0, 3), (F.LEV_STAT_FB_ACTIVE 2, 1)]
  { s with dev := s.dev.setEnc 0 { x := 41, valid := true } }
theorem witness_EncoderControls : Ready encF ∧ encFaulty encF.dev 0 = true
    ∧ encF.dev.get (F.ENC_CFG_FAULT_N 0) ≤ (encF.dev.enc 0).goodRun ∧ encFaulty encF.dev 1 = true
    ∧ (encF.dev.enc 1).goodRun < encF.dev.get (F.ENC_CFG_FAULT_N 1) ∧ encF.dev.get (F.PG_FAULT_VALID 6) = 0
    ∧ LevelsTaken encF 0 ∧ LevelsTaken encF 1 ∧ (encF.dev.enc 0).qdBad = false ∧ PositionSteady encF
    ∧ (∀ p, p < 8 → sourceInUse encF.dev p = 0 → (encF.dev.plane p).assigns = [])
    ∧ countMin < indexValue encF.dev 0 ∧ indexValue encF.dev 0 < countMax
    ∧ boundToPlan encF.dev 0 = false := by decide
theorem witness_EncoderControls_rest : Ready encM ∧ boundToPlan encM.dev 0 = false ∧ LevelsTaken encM 0 ∧ PositionSteady encM ∧ encFaulty encM.dev 0 = false
    ∧ (∀ p, p < 8 → sourceInUse encM.dev p = 0 → (encM.dev.plane p).assigns = []) ∧ indexValue encM.dev 0 = countMin
    ∧ Ready encP ∧ boundToPlan encP.dev 0 = true ∧ encP.dev.get (F.PG_FAULT_VALID 5) = 0
    ∧ Ready encV ∧ encV.dev.planActive = false
    ∧ (sourceTrack (encV.dev.elapse 7) (encV.dev.get (F.LEV_CFG_PRI 2))).isSome = true := by decide

def vencBs (dom : Nat) : List Byte := [1#8, 8#8, BitVec.ofNat 8 dom] ++ List.replicate 29 3#8
def vencW : State := mkState [(F.TIME_DOM_CFG_DOMAIN 1, 9), (F.ENC_CFG_SRC 0, 3), (F.PLAN_CHK_ACTIVE, 1), (F.PLAN_STAY_EN, 1)]
def vencI : State := { vencW with dev := { vencW.dev with vencIdle := 70000 } }
def vencA : State := mkState [(F.TIME_DOM_CFG_DOMAIN 1, 9)]
def vencS : State := { vencA with dev := { vencA.dev with vencSeqs := [0x03030303] } }
theorem witness_PublishedPosition : Ready vencA ∧ PositionAlone vencA ∧ vencA.dev.get F.TIME_CTL_SRC = 0
    ∧ vencA.dev.get (F.TIME_DOM_STAT_ACTIVE 1) = 0 ∧ vencA.dev.get (F.TIME_DOM_CFG_DOMAIN 0) = 0
    ∧ vencA.dev.get (F.TIME_DOM_CFG_DOMAIN 1) = 9 ∧ (vencBs 9).length = 32 ∧ byteAt (vencBs 9) 0 = 1
    ∧ byteAt (vencBs 9) 2 = 9 ∧ byteAt (vencBs 0) 2 = 0 ∧ byteAt (vencBs 7) 2 = 7
    ∧ vencA.dev.vencSeqs.contains (beAt (vencBs 9) 4 4) = false ∧ vencS.dev.vencSeqs.contains (beAt (vencBs 9) 4 4) = true
    ∧ Ready vencI ∧ vencMonitored vencI.dev = true ∧ vencI.dev.get F.VENC_STAT_LOST = 0
    ∧ vencI.dev.get F.VENC_CFG_TMO ≤ vencI.dev.vencIdle ∧ vencI.dev.get F.PLAN_STAY_PUBLISHER = 0
    ∧ (∀ p, p < 8 → vencI.dev.get (F.LEV_CFG_FB_EN p) = 0 ∧ sourceInUse vencI.dev p ≠ 2
        ∧ sourceFailed vencI.dev (sourceInUse vencI.dev p) = false ∧ holdsCause vencI.dev p causeEncoder = false) := by decide

def syncMsg (typ dom : Nat) : List Byte :=
  [BitVec.ofNat 8 typ, 2#8, 0#8, 44#8, BitVec.ofNat 8 dom] ++ List.replicate 35 0#8 ++ [1#8, 0#8, 0#8, 9#8]
def ptpW : State :=
  let s := mkState [(F.TIME_DOM_CFG_EN 1, 1), (F.TIME_DOM_CFG_DOMAIN 1, 9), (F.TIME_DOM_CFG_P2P 1, 1), (F.TIME_DOM_CFG_QUAL_N 1, 1),
    (F.ETH_LINK_LINK_UP 0, 1), (F.PG_CTL_EN 0x0A, 1)]
  { s with dev := s.dev.setDom 1 { mpd := some 100 } }
theorem witness_SyncMeasuresTheStandbyDomain : Ready ptpW ∧ 44 ≤ (syncMsg 0 9).length ∧ byteAt (syncMsg 0 9) 1 % 16 = 2
    ∧ ptpW.dev.get (F.TIME_DOM_CFG_EN 1) = 1 ∧ ptpW.dev.get (F.TIME_DOM_CFG_DOMAIN 1) = byteAt (syncMsg 0 9) 4
    ∧ ptpW.dev.get (F.TIME_DOM_CFG_DOMAIN 0) ≠ byteAt (syncMsg 0 9) 4 ∧ byteAt (syncMsg 0 9) 0 % 16 = 0
    ∧ bit (byteAt (syncMsg 0 9) 6) 1 = false ∧ ptpW.dev.get (F.TIME_DOM_CFG_PORT 1) = 0
    ∧ beAt (syncMsg 0 9) 20 10 = parentOf ptpW.dev 1 ∧ actDom ptpW.dev = 0 ∧ ptpW.dev.get F.TIME_CTL_REVERT = 0
    ∧ ptpW.dev.get F.TIME_STAT_HOLDOVER = 0 ∧ (ptpW.dev.dom 1).mpd = some 100
    ∧ byteAt (syncMsg 2 9) 0 % 16 = 2 ∧ ptpW.dev.get (F.TIME_DOM_CFG_P2P 1) = 1
    ∧ ptpW.dev.get (F.TIME_DOM_CFG_TRANSPORT 1) ≤ 2 ∧ SendsNow ptpW 0 := by decide

def servoW : Dev := (Dev.reset.put F.TIME_CTL_SERVO_EN 1).put F.TIME_SLEW_STEP_THR 1
theorem witness_ClockServo : servoW.get F.TIME_CTL_SERVO_EN = 1 ∧ servoW.get F.TIME_STAT_HOLDOVER = 0
    ∧ servoW.planActive = false ∧ servoW.tm.noStep = false ∧ (5 : Int).natAbs ≤ servoW.get F.TIME_SLEW_STEP_THR * 10 * 2 ^ 16
    ∧ servoW.get F.TIME_SLEW_STEP_THR * 10 * 2 ^ 16 < (655361 : Int).natAbs
    ∧ (Dev.reset.put F.TIME_STAT_HOLDOVER 1).get F.TIME_STAT_HOLDOVER = 1 := by decide

def domW : State := mkState [(F.TIME_DOM_CFG_EN 0, 1), (F.TIME_DOM_CFG_EN 1, 1), (F.TIME_DOM_CFG_BC_MASTER 1, 1), (F.TIME_SET_NS_NS, 5),
  (F.TIME_DOM_CFG_P2P 1, 1), (F.ETH_LINK_LINK_UP 1, 1), (F.PG_CTL_EN 0x0B, 1)]
def domQ : State := { domW with dev := domW.dev.put (F.TIME_DOM_STAT_QUAL 1) 1 }
def domL : State := { domW with dev := domW.dev.put (F.TIME_DOM_STAT_LOST 0) 1 }
def domP : State := { domW with dev := domW.dev.put F.PLAN_CHK_ACTIVE 1 }
theorem witness_TimeCommands : Ready domW ∧ domW.dev.planActive = false ∧ Ready domP ∧ domP.dev.planActive = true
    ∧ domP.dev.get (F.PG_FAULT_VALID 0x08) = 0 ∧ domW.dev.get (F.TIME_DOM_CFG_EN 1) = 1
    ∧ domW.dev.get (F.TIME_DOM_STAT_LOST 1) = 0 ∧ domW.dev.get (F.TIME_DOM_CFG_EN 0) = 1
    ∧ domW.dev.get (F.TIME_DOM_STAT_LOST 0) = 0
    ∧ (domW.dev.dom 0).syncAt + domW.dev.get (F.TIME_DOM_CFG_LOSS_N 0) * syncInterval domW.dev 0 ≤ domW.dev.now + 255000000000
    ∧ (domW.dev.dom 1).syncAt + domW.dev.get (F.TIME_DOM_CFG_LOSS_N 1) * syncInterval domW.dev 1 ≤ domW.dev.now + 255000000000
    ∧ actDom domW.dev = 0 ∧ domW.dev.get F.TIME_CTL_SRC = 0 ∧ domW.dev.get (F.TIME_DOM_STAT_QUAL 1) = 0
    ∧ domW.dev.get F.TIME_STAT_HOLDOVER = 0 ∧ Ready domQ ∧ actDom domQ.dev = 0 ∧ domQ.dev.get F.TIME_CTL_SRC = 0
    ∧ domQ.dev.get (F.TIME_DOM_STAT_QUAL 1) = 1 ∧ domW.dev.get (F.TIME_DOM_CFG_BC_MASTER 1) = 1
    ∧ domW.dev.get (F.TIME_DOM_CFG_P2P 1) = 1 ∧ 1 = 1 - domW.dev.get (F.TIME_DOM_CFG_PORT 1) ∧ SendsNow domW 1
    ∧ domW.dev.get (F.TIME_DOM_CFG_TRANSPORT 1) ≤ 2 ∧ domW.dev.get F.TIME_CTL_ACT_DOM ≠ 1 ∧ domW.dev.get F.TIME_CTL_ACT_DOM = 0
    ∧ Ready domL ∧ actDom domL.dev = 0 ∧ domL.dev.get (F.TIME_DOM_STAT_LOST 0) = 1 ∧ domL.dev.get (F.TIME_DOM_STAT_LOST 1) = 0
    ∧ Ready ptpW ∧ ptpW.dev.get (F.TIME_DOM_CFG_EN 1) = 1 ∧ (2 : Fin 3).val = 1 + ptpW.dev.get (F.TIME_DOM_CFG_P2P 1)
    ∧ 0 = ptpW.dev.get (F.TIME_DOM_CFG_PORT 1) ∧ SendsNow ptpW 0 ∧ ptpW.dev.get (F.TIME_DOM_CFG_TRANSPORT 1) ≤ 2 := by decide

def tsqW : State := { dev := { Dev.reset with tm := { Dev.reset.tm with tsq := [(5, 1, 70000)] } } }
def tpW : State := mkState [(F.PG_CTL_EN 9, 1), (F.TP_CFG_EN 3, 1), (F.TP_WIDTH_WIDTH 3, 6)]
def tpE : State := { tpW with dev := tpW.dev.setTp 3 { endT := some 4, k := 1 } }
theorem witness_StampsAndPulses : Ready tsqW ∧ tsqW.dev.tm.tsq = (5, 1, 70000) :: [] ∧ Ready tpW ∧ tpW.dev.tm.tsq = []
    ∧ tpW.dev.get (F.PG_CTL_EN 9) = 1 ∧ tpW.dev.get (F.TP_CFG_EN 3) = 1 ∧ (tpW.dev.tp 3).endT = none
    ∧ (tpW.dev.tp 3).k < tpW.dev.get (F.TP_CFG_COUNT 3) ∧ tpBefore tpW.dev 3 (tpW.dev.tp 3).start (tpW.dev.tp 3).hold ≤ (tpW.dev.tp 3).k
    ∧ (tpW.dev.tp 3).start = 0 ∧ 0 ≤ (tpW.dev.elapse 7).tNs
    ∧ Ready tpE ∧ (tpE.dev.tp 3).endT = some 4 ∧ 4 ≤ (tpE.dev.elapse 7).tNs := by decide

def ethFr (dst etype n : Nat) : List Byte := beBytes 6 dst ++ beBytes 6 0x0A0B0C0D0E0F ++ beBytes 2 etype ++ List.replicate n 7#8
def arpFr : List Byte := beBytes 6 0xFFFFFFFFFFFF ++ beBytes 6 0x0A0B0C0D0E0F ++ beBytes 2 0x0806 ++ beBytes 6 0x000108000604
  ++ beBytes 2 1 ++ beBytes 6 0x0A0B0C0D0E0F ++ beBytes 4 9 ++ beBytes 6 0 ++ beBytes 4 0x0A000001 ++ List.replicate 18 0#8
def rxW : State :=
  let s := mkState [(F.PG_CTL_EN 0x0B, 1), (F.ETH_LINK_LINK_UP 1, 1), (F.ETH_MAC_LO_MAC 1, 5), (F.ETH_CFG_IP4_EN 1, 1),
    (F.ETH_IP4_ADDR 1, 0x0A000001), (F.RXR_BASE_LO_BASE, 0x20000000), (F.RXR_SIZE_SIZE, 8), (F.RXR_TAIL_TAIL, 4)]
  { s with dev := { s.dev with l2Ram := true, l2 := [(1, 1#8), (3, 0x20#8)] } }
def rxS : State := mkState [(F.PG_CTL_EN 0x0B, 1), (F.ETH_LINK_LINK_UP 1, 1), (F.ETH_MAC_LO_MAC 1, 5), (F.ETH_CFG_IP4_EN 1, 1),
  (F.ETH_IP4_ADDR 1, 0x0A000001)]
theorem witness_ReceivedFrames : Ready rxW ∧ rxW.dev.planActive = false ∧ rxW.dev.get (F.PG_CTL_EN 0x0B) = 1
    ∧ ethUp rxW.dev 1 = true ∧ activePort rxW.dev ≠ 1 ∧ (ethFr 5 0x88B5 46).length = 60
    ∧ 64 ≤ rxW.dev.get (F.ETH_CFG_MAX_FRAME 1) ∧ (ethView (ethFr 5 0x8808 46)).etype = 0x8808
    ∧ (ethView (ethFr 9 0x88B5 46)).etype ≠ 0x8808 ∧ (ethView (ethFr 9 0x88B5 46)).dst ≠ portMac rxW.dev 1
    ∧ (ethView (ethFr 9 0x88B5 46)).dst ≠ 0xFFFFFFFFFFFF ∧ mcastMac rxW.dev 1 (ethView (ethFr 9 0x88B5 46)).dst = false
    ∧ (ethView arpFr).dst = 0xFFFFFFFFFFFF ∧ (ethView arpFr).tags = 0 ∧ rxW.dev.get (F.ETH_CFG_VLAN_EN 1) = 0
    ∧ arpFr.length = 60 ∧ arpForUs rxW.dev 1 (ethView arpFr) = true ∧ SendsNow rxS 1 ∧ Ready rxS ∧ rxS.dev.planActive = false
    ∧ (ethView arpFr).etype ≠ 0x8808 ∧ arpForUs rxS.dev 1 (ethView arpFr) = true := by decide
theorem witness_ReceivedFrames_record : (ethView (ethFr 5 0x88B5 46)).dst = portMac rxW.dev 1
    ∧ (ethView (ethFr 5 0x88B5 46)).tags = 0
    ∧ (ethView (ethFr 5 0x88B5 46)).etype ∉ [0x8808, 0x88F7, 0x0806, 0x0800, 0x86DD]
    ∧ rxW.dev.get F.RXR_HEAD_HEAD ≠ rxW.dev.get F.RXR_TAIL_TAIL ∧ rxW.dev.get F.RXR_SIZE_SIZE ≠ 0
    ∧ rxW.dev.get2 F.RXR_BASE_LO_BASE F.RXR_BASE_HI_BASE + 16 * rxW.dev.get F.RXR_HEAD_HEAD = 0x20000000
    ∧ Reach rxW mEthRings kindRead 0x20000000 8
    ∧ (engineRead mEthRings 0x20000000 8 (rxW.dev.elapse 7)).1 = some [0#8, 1#8, 0#8, 0x20#8, 0#8, 0#8, 0#8, 0#8]
    ∧ leAt [0#8, 1#8, 0#8, 0x20#8, 0#8, 0#8, 0#8, 0#8] 0 5 = 0x20000100
    ∧ Reach rxW mEthRings kindWrite 0x20000100 60 ∧ Reach rxW mEthRings kindWrite 0x20000008 8 := by decide

def txW : State :=
  let s := mkState [(F.PG_CTL_EN 0x0B, 1), (F.ETH_LINK_LINK_UP 1, 1), (F.TXR_BASE_LO_BASE, 0x20000000), (F.TXR_SIZE_SIZE, 8),
    (F.TXR_TAIL_TAIL, 4)]
  { s with dev := { s.dev with l2Ram := true, l2 := [(1, 1#8), (3, 0x20#8), (8, 60#8), (10, 1#8), (0x101, 3#8)] } }
def txFr : List Byte := 0#8 :: 3#8 :: List.replicate 58 0#8
def txD : List Byte := [0#8, 1#8, 0#8, 0x20#8, 0#8, 0#8, 0#8, 0#8, 60#8, 0#8, 1#8] ++ List.replicate 21 0#8
def txE : State := { txW with dev := { (txW.dev.put F.TXR_HEAD_HEAD 1) with path := { txW.dev.path with txFlight := [(0, 2)] } } }
theorem witness_TransmitRing : Ready txW ∧ ethUp txW.dev 1 = true ∧ txW.dev.get (F.PG_CTL_EN 0x0B) = 1
    ∧ txW.dev.get F.TXR_HEAD_HEAD ≠ txW.dev.get F.TXR_TAIL_TAIL ∧ txW.dev.path.txFlight = [] ∧ txW.dev.path.txStarted = 0 ∧ txW.dev.path.txWait = []
    ∧ txW.dev.get F.TXR_SIZE_SIZE ≠ 0
    ∧ txW.dev.get2 F.TXR_BASE_LO_BASE F.TXR_BASE_HI_BASE + 32 * txW.dev.get F.TXR_HEAD_HEAD = 0x20000000
    ∧ Reach txW mEthRings kindRead 0x20000000 32
    ∧ (engineRead mEthRings 0x20000000 32 (txW.dev.elapse 7)).1 = some txD
    ∧ byteAt txD 10 = 1 ∧ byteAt txD 11 = 0 ∧ launchTimed (leAt txD 16 8) = false ∧ leAt txD 8 2 = 60
    ∧ 64 ≤ txW.dev.get (F.ETH_CFG_MAX_FRAME 1) ∧ leAt txD 0 5 = 0x20000100
    ∧ Reach txW mEthRings kindRead 0x20000100 60
    ∧ (engineRead mEthRings 0x20000100 60 (engineRead mEthRings 0x20000000 32 (txW.dev.elapse 7)).2).1 = some txFr
    ∧ isOneStep txFr = false := by decide
theorem witness_TransmitRing_done : Ready txE ∧ txE.dev.path.txFlight = [(0, 2 ^ (1 : Fin 2).val)]
    ∧ txE.dev.get F.TXR_HEAD_HEAD ≠ 0 ∧ Reach txE mEthRings kindRead 0x2000000B 1
    ∧ Reach txE mEthRings kindWrite 0x2000000B 1
    ∧ (engineRead mEthRings 0x2000000B 1 (txE.dev.elapse 7)).1 = some [0#8] := by decide

def pathW : State := mkState [(F.ETH_LINK_LINK_UP 0, 1), (F.ETH_LINK_LINK_UP 1, 1), (F.PG_CTL_EN 0x0C, 1), (F.PATH_CFG_AUTO_SW, 1),
  (F.PATH_CFG_DUP_TMO, 10), (F.PATH_CFG_T_DRILL, 1)]
def pathG : State := { pathW with dev := { pathW.dev with path := { pathW.dev.path with checked := 3, dupAt := [(1, 1)] } } }
def snapW : State := { pathW with dev := { pathW.dev with path := { pathW.dev.path with coming := some { beat := 1, rx := [], fills := [], corFill := 0 } } } }
def snapR : State := { snapW with dev := { snapW.dev with path := { snapW.dev.path with resume := some 4 } } }
def snapC : Snap := { beat := 1, opened := 2, rx := [(1, (7, 4))], fills := [], corFill := 9 }
def snapF : State :=
  let s := mkState [(F.ETH_LINK_LINK_UP 0, 1), (F.ETH_LINK_LINK_UP 1, 1), (F.PG_CTL_EN 0x0C, 1), (F.SESS_CFG_EN 1, 1),
    (F.SESS_STAT_STATE 1, 2), (F.RX_CUM_CUM 1, 9), (F.PG_CTL_EN 0x0D, 1)]
  { s with dev := { s.dev with path := { s.dev.path with coming := some snapC, resume := some 3, cur := some { snapC with beat := 0, corFill := 5, rx := [] } } } }
theorem witness_PortLinksAndHealth_fault : Ready snapF ∧ snapF.dev.path.coming = some snapC ∧ snapF.dev.path.resume = some 3
    ∧ snapF.dev.path.held = [] ∧ snapF.dev.jtp.sess = [] ∧ sessOpen snapF.dev 1 = true ∧ bit snapC.opened 1 = true
    ∧ cellGet (0, 0) snapC.rx 1 = (7, 4) ∧ snapF.dev.path.cur.isSome = true := by decide
theorem witness_PortLinksAndHealth_sessions (k : Nat) : (snapF.dev.sess k).todo = [] ∧ (snapF.dev.sess k).held = [] := by
  exact ⟨rfl, rfl⟩
theorem witness_PortLinksAndHealth_down : Ready pathG ∧ activePort pathG.dev = 0 ∧ ethUp pathG.dev 0 = true
    ∧ pathG.dev.get (F.PG_CTL_EN 0x0C) = 1 ∧ pathG.dev.get F.PATH_CFG_AUTO_SW = 1 ∧ pathG.dev.path.resume = none
    ∧ standbyHealthy (pathG.dev.elapse 7) = true ∧ standbyHealthy (pathW.dev.elapse 7) = false ∧ pathW.dev.path.resume = none
    ∧ activePort pathW.dev = 0 ∧ ethUp pathW.dev 0 = true := by decide
theorem witness_PortLinksAndHealth : Ready pathW ∧ activePort pathW.dev ≠ 1 ∧ ethUp pathW.dev 1 ≠ (false && !false && !false && true)
    ∧ Ready snapW ∧ snapW.dev.path.coming = some { beat := 1, rx := [], fills := [], corFill := 0 } ∧ snapW.dev.path.resume = none
    ∧ Ready snapR ∧ snapR.dev.path.resume = some 4 ∧ snapR.dev.path.held = [] ∧ snapR.dev.openSessions = 0 := by decide

def pathT : State := { pathG with dev := { pathG.dev with path := { pathG.dev.path with dupAt := [(1, 1000000000)], post := some 0 } } }
theorem witness_SwitchoverAndDrill : Ready pathG ∧ pathG.dev.get (F.PG_CTL_EN 0x0C) = 1
    ∧ pathG.dev.get F.PATH_CFG_AUTO_SW = 1 ∧ pathG.dev.path.resume = none ∧ pathW.dev.path.resume = none
    ∧ Ready snapR ∧ snapR.dev.path.resume = some 4 ∧ snapR.dev.get F.PATH_CFG_AUTO_SW = 1 ∧ snapR.dev.get (F.PG_CTL_EN 0x0C) = 1
    ∧ standbyHealthy (pathG.dev.elapse 7) = true ∧ standbyHealthy (pathW.dev.elapse 7) = false ∧ Ready pathW
    ∧ pathW.dev.get F.PATH_CFG_AUTO_SW = 1
    ∧ Ready pathT ∧ standbyHealthy (pathT.dev.elapse 1000000000) = true ∧ pathT.dev.path.drillLate = false
    ∧ pathT.dev.get F.PATH_CFG_T_DRILL ≠ 0
    ∧ pathT.dev.path.switchAt + pathT.dev.get F.PATH_CFG_T_DRILL * 1000000000 ≤ pathT.dev.now + 1000000000
    ∧ pathT.dev.path.post = some 0
    ∧ 0 + pathT.dev.get F.PATH_ERRLIM_POST_TMO ≤ (pathT.dev.elapse 1000000000).beatNum := by decide

def jtpW : State :=
  let s := mkState [(F.PG_CTL_EN 0x0D, 1), (F.SESS_CFG_EN 3, 1), (F.SESS_STAT_STATE 3, 2), (F.SESS_CFG_CREDIT_MAX 3, 8),
    (F.RX_CUM_CUM 3, 9), (F.WIN_BASE_LO_BASE 3, 0x20000000), (F.WIN_SIZE_SIZE 3, 16), (F.STORE_COR_BASE_LO_BASE, 0x20000000),
    (F.SESS_CFG_REG_EN 3, 1), (F.PLAN_STAY_RING_POS, 1), (F.ETH_LINK_LINK_UP 0, 1)]
  { s with dev := ({ s.dev with l2Ram := true }).setStream 5 { base := 0x20001, size := 4, en := true } }
def segP (a : Nat) : List Byte := beBytes 8 a ++ beBytes 2 5 ++ beBytes 2 0 ++ beBytes 4 0xFFFFFFFF ++ [1#8, 2#8, 3#8]
def copP : List Byte := beBytes 4 2 ++ beBytes 4 0x10000 ++ (List.range 32).map (BitVec.ofNat 8)
theorem witness_BulkToMemory : Ready jtpW ∧ ethUp jtpW.dev 0 = true ∧ CalmSession jtpW 3 ∧ (segP 0x20001000).length = 19
    ∧ (9#32).toNat = jtpW.dev.get (F.RX_CUM_CUM 3) ∧ BulkFlows jtpW 3 0 19 ∧ beAt (segP 0x20001000) 0 8 = 0x20001000
    ∧ layerCheck jtpW.dev (winBase jtpW.dev 3) (winSize jtpW.dev 3) 0x20001000 (beAt (segP 0x20001000) 8 2)
        (byteAt (segP 0x20001000) 10) (byteAt (segP 0x20001000) 11) (beAt (segP 0x20001000) 12 4) 3 = 0
    ∧ Reach jtpW mJtpBulk kindWrite 0x20001000 3
    ∧ 0x20001000 = streamBase (jtpW.dev.stream 5) + (jtpW.dev.stream 5).fill ∧ (jtpW.dev.stream 5).ring = false
    ∧ layerCheck jtpW.dev (winBase jtpW.dev 3) (winSize jtpW.dev 3) 0x20001004 5 0 0 0xFFFFFFFF 3 = 0
    ∧ Reach jtpW mJtpBulk kindWrite 0x20001004 3
    ∧ copP.length = 40 ∧ BulkFlows jtpW 3 0 40 ∧ copyOrderCheck jtpW.dev (beAt copP 0 4) (beAt copP 4 2) 40 = 0
    ∧ beAt copP 0 4 = 2 ∧ beAt copP 4 2 = 1 ∧ corBase jtpW.dev + 32 * 2 = 0x20000040
    ∧ Reach jtpW mJtpBulk kindWrite 0x20000040 32 := by decide

def planP : List Byte := beBytes 2 0x40 ++ beBytes 2 1 ++ beBytes 4 0xFFFFFFFF
def tabP : List Byte := beBytes 2 0x0100 ++ beBytes 2 1 ++ beBytes 4 6 ++ beBytes 4 5 ++ beBytes 4 0xFFFFFFFF
theorem witness_BulkToShadows : Ready jtpW ∧ CalmSession jtpW 3 ∧ planP.length = 8 ∧ BulkFlows jtpW 3 0 8
    ∧ beAt planP 0 2 = 0x40 ∧ beAt planP 2 2 = 1
    ∧ (shroudCheck jtpW.dev mJtpBulk kindWrite 0x40004840 false).1 = true
    ∧ tabP.length = 16 ∧ BulkFlows jtpW 3 0 16 ∧ byteAt tabP 0 = 1 ∧ byteAt tabP 1 = 0 ∧ beAt tabP 2 2 = 1 ∧ beAt tabP 4 4 = 6
    ∧ (shroudCheck jtpW.dev mJtpBulk kindWrite 0x40012000 false).1 = true := by decide
def tabQ (table inst : Nat) : List Byte := beBytes 1 table ++ beBytes 1 inst ++ beBytes 2 2 ++ beBytes 4 6 ++ beBytes 4 5 ++ beBytes 4 0xFFFFFFFF
theorem witness_BulkToShadows_tables : tableShape 2 = some (1, 1048576, 1) ∧ tableShape 3 = some (64, 512, 1) ∧ tableShape 4 = some (32, 256, 1)
    ∧ (tabQ 3 63).length = 16 ∧ BulkFlows jtpW 3 0 16 ∧ byteAt (tabQ 3 63) 0 = 3 ∧ byteAt (tabQ 3 63) 1 = 63 ∧ beAt (tabQ 3 63) 2 2 = 2 ∧ beAt (tabQ 3 63) 4 4 = 6
    ∧ byteAt (tabQ 2 0) 0 = 2 ∧ byteAt (tabQ 4 31) 0 = 4 ∧ byteAt (tabQ 4 31) 1 = 31
    ∧ (shroudCheck jtpW.dev mJtpBulk kindWrite (0x40000000 + 0x1000 * tablePage 2) false).1 = true
    ∧ (shroudCheck jtpW.dev mJtpBulk kindWrite (0x40000000 + 0x1000 * tablePage 3) false).1 = true
    ∧ (shroudCheck jtpW.dev mJtpBulk kindWrite (0x40000000 + 0x1000 * tablePage 4) false).1 = true := by decide

def reqAt (a v : Nat) : List Byte := beBytes 8 a ++ beBytes 2 1 ++ List.replicate 6 0#8 ++ beBytes 4 v
theorem witness_RegisterRequests_registers : (0x40000800 + R.LOOP_SP 0) = beAt (reqAt (0x40000800 + R.LOOP_SP 0) 5) 0 8
    ∧ beAt (reqAt (0x40000800 + R.LOOP_SP 0) 5) 8 2 = 1 ∧ (reqAt (0x40000800 + R.LOOP_SP 0) 5).length = 20
    ∧ (5#32).toNat = beAt (reqAt (0x40000800 + R.LOOP_SP 0) 5) 16 4 ∧ Permitted jtpW mJtpRemote kindWrite (0x40000800 + R.LOOP_SP 0) 4
    ∧ (regDesc (R.LOOP_SP 0 / 0x1000) (R.LOOP_SP 0 % 0x1000)).any (fun r => r.rws != 0 && r.cor == 0 && rangesOk r r.rws 5) = true
    ∧ crossRangeOk (R.LOOP_SP 0) 5 jtpW.dev = true ∧ R.LOOP_SP 0 ∉ shadowPorts ∧ R.LOOP_SP 0 ∉ readPorts ∧ R.LOOP_SP 0 / 0x1000 = 0x48
    ∧ pageListed 7 = true ∧ Permitted jtpW mJtpRemote kindWrite (0x40000000 + R.PG_EVT 7) 4
    ∧ Permitted jtpW mJtpRemote kindRead (0x40000000 + R.LOOP_SP 0) 4 ∧ Permitted jtpW mJtpRemote kindRead (0x40000800 + R.LOOP_SP 0) 4 := by decide
def reqW : State := { jtpW with dev := { (jtpW.dev.setSess 3 { credit := 4, maxPayload := 9216 }) with l2 := [(8, 0x55#8)] } }
def reqP : List Byte := beBytes 8 0x20000008 ++ beBytes 2 1 ++ List.replicate 6 0#8
theorem witness_RegisterRequests : Ready reqW ∧ CalmSession reqW 3 ∧ (9#32).toNat = reqW.dev.get (F.RX_CUM_CUM 3)
    ∧ reqW.dev.get (F.SESS_CFG_REG_EN 3) = 1 ∧ (reqW.dev.sess 3).queue = [] ∧ hasRoom reqW.dev 3 1 = true ∧ 20 ≤ payloadMax reqW.dev 3 tRegRead
    ∧ beAt reqP 0 8 = 0x20000008 ∧ beAt reqP 8 2 = 1 ∧ reqP.length = 16
    ∧ beAt (reqP ++ beBytes 4 0x01020304) 0 8 = 0x20000008 ∧ (reqP ++ beBytes 4 0x01020304).length = 20
    ∧ Reach reqW mJtpRemote kindWrite 0x20000008 4 ∧ Reach reqW mJtpRemote kindRead 0x20000008 4
    ∧ (engineRead mJtpRemote 0x20000008 4 (reqW.dev.elapse 7)).1 = some [0x55#8, 0#8, 0#8, 0#8] := by decide

def commitW : State := { reqW with dev := reqW.dev.put F.PLAN_CHK_ACTIVE 1 }
def commitP : List Byte := beBytes 4 0x40000 ++ List.replicate 12 0#8
def bellW : State :=
  let d := ((jtpW.dev.put F.MRX_BASE_LO_BASE 0x20000000).put F.MRX_SIZE_SIZE 8).put F.MRX_TAIL_TAIL 4
  { jtpW with dev := { d.put F.MRX_WMARK_WMARK 3 with l2 := [(1, 1#8), (3, 0x20#8)] } }
def bellP : List Byte := [1#8, 2#8, 3#8, 4#8, 0#8, 5#8, 0#8, 0#8]
theorem witness_CommitAndDoorbellMessages : Ready commitW ∧ CalmSession commitW 3
    ∧ (9#32).toNat = commitW.dev.get (F.RX_CUM_CUM 3) ∧ commitPages commitP = [18] ∧ commitP.length = 16
    ∧ pageListed 18 = true ∧ pageShadow 18 = true ∧ commitW.dev.planActive = true ∧ (commitW.dev.sess 3).queue = []
    ∧ hasRoom commitW.dev 3 1 = true ∧ 16 ≤ payloadMax commitW.dev 3 tEpochCommit := by decide
theorem witness_CommitAndDoorbellMessages_ring : Ready bellW ∧ CalmSession bellW 3
    ∧ (9#32).toNat = bellW.dev.get (F.RX_CUM_CUM 3) ∧ bellP.length = 8 ∧ beAt bellP 4 2 ≤ 15
    ∧ bellW.dev.jtp.mrxHeld < bellW.dev.get F.MRX_WMARK_WMARK ∧ bellW.dev.get F.MRX_HEAD_HEAD ≠ bellW.dev.get F.MRX_TAIL_TAIL
    ∧ bellW.dev.get F.MRX_SIZE_SIZE ≠ 0
    ∧ bellW.dev.get2 F.MRX_BASE_LO_BASE F.MRX_BASE_HI_BASE + 16 * bellW.dev.get F.MRX_HEAD_HEAD = 0x20000000
    ∧ Reach bellW mJtpRings kindRead 0x20000000 8
    ∧ (engineRead mJtpRings 0x20000000 8 (bellW.dev.elapse 7)).1 = some [0#8, 1#8, 0#8, 0x20#8, 0#8, 0#8, 0#8, 0#8]
    ∧ Reach bellW mJtpRings kindWrite 0x20000100 36 ∧ Reach bellW mJtpRings kindWrite 0x20000008 8 := by decide

def msgW (q : Nat) : SentMsg := { seq := q, type := tEvent, cost := 1, at_ := 0, bytes := [], records := 0 }
def ackW : State := { jtpW with dev := jtpW.dev.setSess 3 { txNum := 4, sent := [msgW 1, msgW 2, msgW 3], peerMap := 4, peerCum := 1 } }
def ackP : List Byte := beBytes 4 2 ++ beBytes 8 2 ++ beBytes 4 7 ++ beBytes 4 0x01000000 ++ beBytes 4 2
def posW : State := mkState [(F.PG_CTL_EN 0x0D, 1), (F.SESS_CFG_EN 0, 1), (F.ETH_LINK_LINK_UP 0, 1)]
theorem witness_FeedbackMessages : Ready ackW ∧ CalmSession ackW 3 ∧ FreshFeedback ackW 3 0 4
    ∧ (∀ m ∈ (ackW.dev.sess 3).sent, m.type ≠ tVerdict ∧ m.type ≠ tPrintLog) ∧ ackP.length = 24
    ∧ (ackW.dev.sess 3).sent.Pairwise (fun x y => x.seq ≠ y.seq) ∧ (beBytes 4 2 ++ beBytes 4 7 : List Byte).length = 8
    ∧ Ready posW ∧ ethUp posW.dev 0 = true ∧ PositionAlone posW ∧ posW.dev.get (F.PG_CTL_EN 0x0D) = 1 ∧ posW.dev.path.resume = none
    ∧ posW.dev.get (F.SESS_CFG_EN 0) = 1 ∧ posW.dev.get (F.SESS_CFG_AUTH_REQ 0) = 0 ∧ FreshFeedback posW 0 0 4
    ∧ (1#8 :: List.replicate 31 0#8 : List Byte).length = 32 ∧ byteAt (1#8 :: List.replicate 31 0#8) 0 = 1
    ∧ posW.dev.get F.TIME_CTL_SRC = 0
    ∧ byteAt (1#8 :: List.replicate 31 0#8) 2 = posW.dev.get (F.TIME_DOM_CFG_DOMAIN (posW.dev.get (F.TIME_DOM_STAT_ACTIVE 1)))
    ∧ posW.dev.vencSeqs.contains (beAt (1#8 :: List.replicate 31 0#8) 4 4) = false := by decide

def helloW : State := mkState [(F.PG_CTL_EN 0x0D, 1), (F.SESS_CFG_EN 3, 1), (F.SESS_STAT_STATE 3, 1), (F.SESS_CFG_CREDIT_MAX 4, 8),
  (F.SESS_CFG_CREDIT_MAX 3, 8), (F.JTP_STAGE_UNITS, 64), (F.JTP_KEY_DATA_KEY 2, 77), (F.ETH_LINK_LINK_UP 0, 1)]
theorem witness_SessionLife : Ready helloW ∧ ethUp helloW.dev 0 = true ∧ helloW.dev.get (F.PG_CTL_EN 0x0D) = 1 ∧ helloW.dev.path.resume = none
    ∧ helloW.dev.get (F.SESS_CFG_EN 3) = 1 ∧ helloW.dev.get (F.SESS_CFG_AUTH_REQ 3) = 0
    ∧ secondCopy (helloW.dev.sess 3) (4 + 2 ^ 32) 0 = false ∧ helloW.dev.get (F.SESS_STAT_STATE 3) = 1
    ∧ Ready jtpW ∧ CalmSession jtpW 3 ∧ FreshFeedback jtpW 3 0 4
    ∧ helloW.dev.get (F.SESS_CFG_EN 4) = 0 ∧ helloW.dev.get (F.SESS_STAT_STATE 4) = 0
    ∧ helloW.dev.get (F.SESS_CFG_CREDIT_MAX 4) ≠ 0
    ∧ (List.range 16).foldl (fun a t => if t = 4 ∨ helloW.dev.getB (F.SESS_CFG_EN t)
        then a + helloW.dev.get (F.SESS_CFG_CREDIT_MAX t) else a) 0 ≤ helloW.dev.get F.JTP_STAGE_UNITS
    ∧ helloW.dev.get (F.SESS_CFG_CREDIT_MAX 3) ≠ 0 ∧ (helloW.dev.sess 3).held = []
    ∧ MayWrite helloW 0 R.JTP_KEY_SEL := by decide

def timerS : Sess :=
  { firstAt := some 0, since := 2, got := 2, nakCum := some 9, sent := [msgW 0], txNum := 1, credit := 9, maxPayload := 9216,
    queue := [(tEpochCommit, [1#8])] }
def timerW : State :=
  { jtpW with dev := ((((jtpW.dev.put (F.ETH_LINK_LINK_UP 0) 1).put (F.ETH_LINK_LINK_UP 1) 1).put (F.PG_CTL_EN 0x0A) 1).put
      (F.PG_CTL_EN 0x0B) 1).setSess 3 timerS }
def mtxW : State :=
  let d := (timerW.dev.setSess 3 { credit := 9, maxPayload := 9216 }).put F.MTX_SIZE_SIZE 4
  { jtpW with dev := { d.put F.MTX_BASE_LO_BASE 0x20000000 with
    l2 := [(1, 1#8), (3, 0x20#8), (8, 2#8), (10, 10#8), (11, 3#8), (0x101, 3#8)] } }
def mtxD : List Byte := [0#8, 1#8, 0#8, 0x20#8, 0#8, 0#8, 0#8, 0#8, 2#8, 0#8, 10#8, 3#8, 0#8, 0#8, 0#8, 0#8]
theorem witness_TransportTimersAndReports : Ready timerW ∧ timerW.dev.get (F.PG_CTL_EN 0x0D) = 1
    ∧ timerW.dev.get (F.SESS_STAT_STATE 3) = 2 ∧ timerW.dev.get (F.SESS_CFG_AUTH_REQ 3) = 0
    ∧ (timerW.dev.sess 3).firstAt = some 0 ∧ 0 + timerW.dev.get F.JTP_TMR_ACK_TMO * 1000 ≤ timerW.dev.now + 100000000
    ∧ (timerW.dev.sess 3).got ≠ 0 ∧ (timerW.dev.sess 3).nakCum = some (timerW.dev.get (F.RX_CUM_CUM 3))
    ∧ (timerW.dev.sess 3).nakAt + timerW.dev.get F.JTP_TMR_NAK_HOLD * 1000 ≤ timerW.dev.now + 100000000
    ∧ (timerW.dev.sess 3).sent = [msgW 0] ∧ marked (timerW.dev.sess 3) 0 = false ∧ (msgW 0).type ∉ [tTelemetry, tPrintLog]
    ∧ (msgW 0).at_ + timerW.dev.get F.JTP_RTO_RTO * 1000 ≤ timerW.dev.now + 100000000
    ∧ BothSend timerW 3 52 ∧ BothSend timerW 3 0 ∧ tEpochCommit ∉ [tTelemetry, tPrintLog]
    ∧ (timerW.dev.sess 3).queue = (tEpochCommit, [1#8]) :: [] ∧ hasRoom timerW.dev 3 (jtpCost 1 false) = true := by decide
theorem witness_TransportTimersAndReports_ring : Ready mtxW ∧ CalmSession mtxW 3 ∧ mtxW.dev.get F.MTX_SIZE_SIZE = 4
    ∧ mtxW.dev.get F.MTX_HEAD_HEAD = 0 ∧ mtxW.dev.get2 F.MTX_BASE_LO_BASE F.MTX_BASE_HI_BASE = 0x20000000
    ∧ Reach mtxW mJtpRings kindRead 0x20000000 16
    ∧ (engineRead mJtpRings 0x20000000 16 (mtxW.dev.elapse 7)).1 = some mtxD ∧ byteAt mtxD 10 = tTelemetry
    ∧ byteAt mtxD 11 = 3 ∧ leAt mtxD 0 5 = 0x20000100 ∧ leAt mtxD 8 2 = 2 ∧ Reach mtxW mJtpRings kindRead 0x20000100 2
    ∧ (engineRead mJtpRings 0x20000100 2 (engineRead mJtpRings 0x20000000 16 (mtxW.dev.elapse 7)).2).1 = some [0#8, 3#8]
    ∧ 2 ≤ payloadMax mtxW.dev 3 tTelemetry ∧ PortSends mtxW 3 (activePort mtxW.dev) 30
    ∧ (mtxW.dev.sess 3).queue = [] ∧ hasRoom mtxW.dev 3 (jtpCost 2 false) = true := by decide

theorem witness_CodecRoundTrip : (8 ∈ [2, 3, 8, 12]) ∧ [3, 9, 255].length = [1, 2, 3].length
    ∧ (∀ v ∈ [3, 9, 255], v < 2 ^ 8) ∧ (∀ v ∈ [1, 2, 3], v < 2 ^ 8) ∧ (0 : Nat) < [3, 9, 255].length := by decide

def cmpW : State := mkState [(F.PG_CTL_EN 0x10, 1)]
def cmpB : State :=
  let s := mkState [(F.PG_CTL_EN 0x10, 1), (F.CMP_STAT_BUSY, 1)]
  { s with dev := { s.dev with cmp := { tap := true, queue := [[3, 3, 3]], buf := some (0x20000100, 4096, 2) }, l2Ram := true } }
def cmpBR : State := { cmpB with dev := { cmpB.dev.put F.CMP_CFG_QLO 0 with cmp := { cmpB.dev.cmp with raw := true } } }
def cmpN : State := { cmpB with dev := { cmpB.dev with cmp := { tap := true, lines := 5 } } }
theorem witness_CompressorCommands : Ready cmpW ∧ cmpW.dev.get (F.PG_CTL_EN 0x10) = 1 ∧ cmpW.dev.get F.CMP_STAT_BUSY = 0
    ∧ Ready cmpB ∧ cmpB.dev.get F.CMP_STAT_BUSY = 1 ∧ cmpB.dev.get (F.PG_FAULT_VALID 0x10) = 0
    ∧ cmpB.dev.get F.CMP_STAT_STALLED = 0 ∧ cmpB.dev.get (F.PG_STAT_STOPPING 0x10) = 0 ∧ cmpB.dev.cmp.tap = true
    ∧ cmpB.dev.cmp.queue = [3, 3, 3] :: [] ∧ cmpB.dev.cmp.valid ≤ cmpB.dev.cmp.written ∧ (cmpRawSegments cmpB.dev (cmpFill cmpB.dev []) 3).1 = []
    ∧ [3, 3, 3] = [3, 3, 3].map (· % 2 ^ cmpDepth cmpB.dev) ∧ cmpB.dev.cmp.rest = [] ∧ cmpB.dev.cmp.buf = some (0x20000100, 4096, 2)
    ∧ (encodeLine (cmpDepth cmpB.dev) (cmpB.dev.cmp.lines == 0) [] cmpB.dev.cmp.ref [3, 3, 3]).length = 6
    ∧ cmpB.dev.get F.CMP_LINES_LINES = 0 ∧ Reach cmpB 9 kindWrite 0x20000102 6
    ∧ Ready cmpN ∧ cmpN.dev.get F.CMP_STAT_BUSY = 1 ∧ cmpN.dev.cmp.buf = none ∧ cmpN.dev.cmp.full = none := by decide

def storeW : State :=
  let s := mkState [(F.STORE_SIDX_IDX, 3), (F.STORE_SEAM_STAT_CAUSES 4, 0x102), (F.STORE_SEAM_STAT_STATE 4, 1)]
  { s with dev := s.dev.setStream 3 { fill := 9, sfail := 4, failed := true, size := 1 } }
def storeU : State := { storeW with dev := (storeW.dev.put (F.LAYER_BG_EN 0) 1).put (F.LAYER_BG_STREAM 0) 3 }
def seamW : State :=
  let d := (encP.dev.put F.PLOG_BASE_LO_BASE 0x20000000).put F.PLOG_SIZE_SIZE 8
  { encP with dev := { (d.setPlane 0 { next := 5 }) with l2Ram := true } }
theorem witness_StoreCommands : Ready storeW ∧ storeW.dev.get F.STORE_SIDX_IDX = 3 ∧ streamInUse storeW.dev 3 = false
    ∧ (storeW.dev.stream 3).failed = true ∧ Ready storeU ∧ storeU.dev.get F.STORE_SIDX_IDX = 3
    ∧ streamInUse storeU.dev 3 = true ∧ storeU.dev.get (F.PG_FAULT_VALID 0x0E) = 0
    ∧ holdsCause storeW.dev 4 causeDecode = true ∧ holdsCause storeW.dev 4 causeFirmware = true := by decide
theorem witness_StoreCommands_seam : Ready seamW ∧ bitsOf 8 (1 % 256) = [(0 : Fin 8).val]
    ∧ (0 : Fin 8).val ∈ activePlanes seamW.dev ∧ seamW.dev.get (F.STORE_SEAM_STAT_STATE 0) = seamRun ∧ LogReady seamW := by decide

def fireSlot : Slot := ⟨0, 0, 0, 4, 0, [], [(5, [1, 2])], {}⟩
def fireW : State :=
  let s := mkState [(F.PLAN_CHK_ACTIVE, 1), (F.HP_STAT_CUT 5, 0)]
  let d := (s.dev.put (F.PLAN_PLANE_A_EN 2) 1).put (F.PLAN_HP_A_EN 5) 1
  let d := (d.put (F.PLAN_HP_A_PLANE 5) 2)
  { s with dev := { (s.dev.setPlane 2 { next := 0, assigns := [{ line := 0, t := 0, late := false, seen := false }], slots := [fireSlot] }).setLink 5
      { up := true } with
      versions := [{ plan := true, cfg := { regs := [(R.PLAN_PLANE_A 2, d.reg (R.PLAN_PLANE_A 2)), (R.PLAN_HP_A 5, d.reg (R.PLAN_HP_A 5))] } }] } }
def strobeW : State := { fireW with dev := (fireW.dev.setReg R.PWR_OE 1).setHead 5 { strobes := [⟨0, 0, 0, 0, 70005, 1, 3⟩] } }
theorem witness_FireLaunch : Ready fireW ∧ fireW.dev.planActive = true
    ∧ (fireW.dev.plane 2).assigns.find? (fun x => x.line == (fireW.dev.plane 2).next)
        = some { line := 0, t := 0, late := false, seen := false }
    ∧ (fireW.dev.plane 2).slots.find? (fun x => x.line == (fireW.dev.plane 2).next && x.stage == 4) = some fireSlot
    ∧ 0 ≤ (fireW.dev.elapse 7).t16 ∧ cfgPorts (cfgFor fireW.dev 0) 2 = [(5 : Fin 32).val]
    ∧ (fireW.dev.link 5).up = true ∧ schedulePending fireW.dev 5 (b2n (bit (cfgVersion fireW.dev 0).wset 5)) = false
    ∧ cfgGet (cfgFor fireW.dev 0) (F.PLAN_HP_A_WAVE_EN 5) = 0 ∧ fireW.dev.get (F.HP_STAT_CUT 5) = 0
    ∧ (fireW.dev.link 5).wave = false ∧ (fireW.dev.link 5).wait = []
    ∧ launchDelay (fireW.dev.link 5) (laneOf (fireW.dev.elapse 7) 5 0) 0 * (fireW.dev.link 5).rate * 50 ≤ 32000000 ∧ 0 ≤ ordNow fireW.dev
    ∧ fireW.dev.get (F.STORE_SEAM_STAT_STATE 2) = seamRun
    ∧ (∀ o, o ≤ fireW.dev.copies.length → captured fireW.dev o = true → 0 + 1 < firstLine fireW.dev (o + 1) 2) := by decide
theorem witness_FireLaunch_strobe : Ready strobeW ∧ (strobeW.dev.head 5).strobes = ⟨0, 0, 0, 0, 70005, 1, 3⟩ :: []
    ∧ (0 : Int) + 1 * 20000 ≤ (placeEdge strobeW.dev 5 70005).1 ∧ (strobeW.dev.head 5).lastDrop = none := by decide

def nozW : State :=
  let s := mkState [(F.NOZ_IDX_IDX, 131071), (F.NOZ_IDX_INC, 1), (F.PLOG_CFG_LOCAL, 1), (F.PLOG_SIZE_SIZE, 8), (F.PLOG_SENT_SENT, 7)]
  { s with dev := { s.dev with nozHi := 0xFFFFFFFF, wearHi := 3, plogHeld := 2 } }
theorem witness_NozzlePorts : Ready nozW ∧ nozW.dev.get F.PLOG_CFG_LOCAL = 1
    ∧ nozW.dev.get F.PLOG_SENT_SENT < nozW.dev.get F.PLOG_SIZE_SIZE ∧ nozW.dev.get F.PLOG_SIZE_SIZE = 8
    ∧ (1 + 8 - nozW.dev.get F.PLOG_SENT_SENT) % 8 ≤ nozW.dev.plogHeld ∧ nozW.dev.plogReserve = [] ∧ nozW.dev.plogLost = 0
    ∧ nozW.dev.plogHeld < (2 + 8 - nozW.dev.get F.PLOG_SENT_SENT) % 8 ∧ nozW.dev.get (F.PG_FAULT_VALID 0x12) = 0
    ∧ nozW.dev.planActive = false ∧ 1048576 ∈ (List.range 15).map (fun k => 64 * 2 ^ k) ∧ 0xFFFFF000 % 4096 = 0 := by decide

/-- A STATUS frame with the given FLAGS, CACK and TEMP. -/
def statusBytes (flags cack temp : Nat) : List Byte :=
  let b := beBytes 1 0x81 ++ beBytes 1 flags ++ beBytes 1 cack ++ beBytes 1 0 ++ beBytes 2 temp ++ List.replicate 8 0
    ++ beBytes 4 0x40203010 ++ beBytes 2 0
  b ++ beBytes 4 (crc32c b)
def headW (up : Bool) : State :=
  let s := mkState [(F.HPL_CFG_EN 5, 1), (F.HPL_STAT_STAGE 5, 5), (F.HP_STAT_TEMP_VALID 5, 1), (F.HP_STAT_TEMP 5, 320),
    (F.HP_STAT_CUT 5, 0)]
  { s with dev := (s.dev.setLink 5 { startSent := true, up := up }).setHead 5 { idleBeats := 15 } }
def headB (l : List Busy) : State :=
  let d := ((fireW.dev.put (F.HP_STAT_TEMP_VALID 5) 1).put (F.HP_TEMP_B_TMO 5) 3).put (F.HP_STAT_CUT 5) 0
  { fireW with dev := d.setHead 5 { prog := l, idleBeats := 3 } }
def headC : State := mkState [(F.HP_STAT_CUT 5, 1)]
theorem witness_HeadStatusAndCut : Ready (headW true) ∧ lanesOn (headW true).dev 5 = true
    ∧ (let f := statusBytes 1 9 1200; frameOk f && byteAt f 0 == 0x81 && f.length == 24) = true
    ∧ ((headW true).dev.link 5).up = true ∧ linkStage (headW true).dev 5 = 5 ∧ ((headW true).dev.link 5).startSent = true
    ∧ bit (byteAt (statusBytes 1 9 1200) 1) 0 = true ∧ PortFree (headW true) 7 5
    ∧ (headW true).dev.getI (F.HP_TEMP_B_T_CUT 5) < 1200 ∧ (1200 : Int) = toSigned 12 (beAt (statusBytes 1 9 1200) 4 2)
    ∧ (headW true).dev.get (F.HP_STAT_CUT 5) = 0 := by decide
theorem witness_HeadStatusAndCut_rise : Ready (headW false) ∧ lanesOn (headW false).dev 5 = true
    ∧ (let f := statusBytes 0 9 1200; frameOk f && byteAt f 0 == 0x81 && f.length == 24) = true
    ∧ ((headW false).dev.link 5).up = false ∧ linkStage (headW false).dev 5 = 5 ∧ ((headW false).dev.link 5).startSent = true
    ∧ bit (byteAt (statusBytes 0 9 1200) 1) 0 = false ∧ (headW false).dev.now + 7 ≤ ((headW false).dev.link 5).start + 100000
    ∧ (let f := statusBytes 0 9 1200 ++ [0]; frameOk f && byteAt f 0 == 0x81 && f.length == 24) = false := by decide
theorem witness_HeadStatusAndCut_cut : Ready (headB []) ∧ boundPlanes (headB []).dev 5 = [2] ∧ (headB []).dev.planActive = true
    ∧ (headB []).dev.get (F.HP_STAT_TEMP_VALID 5) = 1 ∧ (headB []).dev.get (F.HP_TEMP_B_TMO 5) ≤ ((headB []).dev.head 5).idleBeats
    ∧ (headB []).dev.get (F.HP_STAT_CUT 5) = 0 ∧ inProgress ((headB []).dev.elapse 7) 5 = []
    ∧ Ready (headB [{ plane := 2, line := 0, ord := 0, endT := none }])
    ∧ inProgress ((headB [{ plane := 2, line := 0, ord := 0, endT := none }]).dev.elapse 7) 5 = [{ plane := 2, line := 0, ord := 0, endT := none }]
    ∧ Ready headC ∧ headC.dev.get (F.HP_STAT_CUT 5) = 1 := by decide
theorem witness_HeadStatusAndCut_clear : headLinkUp (headW true).dev 5 = true
    ∧ (headW true).dev.get (F.HP_STAT_TEMP_VALID 5) = 1 ∧ headTheta (headW true).dev 5 < (headW true).dev.getI (F.HP_TEMP_B_T_RESUME 5)
    ∧ headLinkUp headC.dev 5 = false ∧ headC.dev.get (F.PG_FAULT_VALID (hpPage 5)) = 0 := by decide

def rejW (l : List Nat) (h : Option Int) : State :=
  let s := mkState [(F.PLAN_CHK_ACTIVE, 1), (F.FIRE_CFG_REJ_EN, 1), (F.FIRE_STAT_REJ_OVF, 0)]
  { s with dev := { (s.dev.setPlane 0 { hwm := h }) with rejects := l, rejectEnd := some 20 } }
theorem witness_RejectMarks : Ready (rejW [] none) ∧ (rejW [] none).dev.get F.FIRE_CFG_REJ_PLANE = 0
    ∧ Ready (mkState []) ∧ (mkState []).dev.planActive = false ∧ captured (mkState []).dev 0 = false ∧ (rejW [] none).dev.planActive = true
    ∧ (ordNow (rejW [] none).dev : Int) + toSigned 32 ((0#32).toNat + 2 ^ 32 - (rejW [] none).dev.get F.EPOCH_NOW_EPOCH) = ((0 : Nat) : Int)
    ∧ ((rejW [] none).dev.plane 0).hwm = none ∧ (rejW [] none).dev.rejectEnd = some 20
    ∧ 20 ≤ (rejW [] none).dev.now + 20 ∧ (rejW [] none).dev.now + 7 < 20 := by decide
/-- No plan is active; the last one captured copy 0, whose point is 40, and unit 0 stands at `x`. -/
def rejE (x : Int) : State :=
  let s := mkState [(F.FIRE_REJ_DIST_LO_DIST, 40), (F.ENC_CFG_SRC 0, 1)]
  { s with dev := (s.dev.setEnc 0 { valid := true, vx := x }).setCopy 0 { desc := { repeat_ := 1 } } }
theorem witness_RejectMarks_ended : Ready (rejE 0) ∧ (rejE 0).dev.planActive = false ∧ captured (rejE 0).dev 0 = true
    ∧ (rejE 0).dev.rejectPts.length < 64 ∧ (ordNow (rejE 0).dev : Int) + toSigned 32 ((0#32).toNat + 2 ^ 32 - (rejE 0).dev.get F.EPOCH_NOW_EPOCH) = ((0 : Nat) : Int)
    ∧ rejectCount (rejE 0).dev (transform (rejE 0).dev 0 (ordOfLine (rejE 0).dev 0 ((rejE 0).dev.plane 0).cursor)) 0 = some 40
    ∧ (planeTrack ((rejE 0).dev.elapse 7) 0).map (fun k => k.x) = some 0 ∧ (planeTrack ((rejE 40).dev.elapse 7) 0).map (fun k => k.x) = some 40 := by
  decide
theorem witness_RejectMarks_ahead : Ready (rejW [] (some (-1))) ∧ ((rejW [] (some (-1))).dev.plane 0).hwm = some (-1)
    ∧ -1 < boundary (rejW [] (some (-1))).dev 0 (firstLine (rejW [] (some (-1))).dev 0 0)
        + toSigned 48 ((rejW [] (some (-1))).dev.get2 F.FIRE_REJ_DIST_LO_DIST F.FIRE_REJ_DIST_HI_DIST) := by decide
theorem witness_RejectMarks_late : Ready (rejW [] (some 0)) ∧ ((rejW [] (some 0)).dev.plane 0).hwm = some 0
    ∧ boundary (rejW [] (some 0)).dev 0 (firstLine (rejW [] (some 0)).dev 0 0)
        + toSigned 48 ((rejW [] (some 0)).dev.get2 F.FIRE_REJ_DIST_LO_DIST F.FIRE_REJ_DIST_HI_DIST) ≤ 0
    ∧ Ready (rejW (List.range' 1 64) none) ∧ 64 ≤ (rejW (List.range' 1 64) none).dev.rejects.length
    ∧ 0 ∉ (rejW (List.range' 1 64) none).dev.rejects := by decide

def linkW' (i : Nat) (l : List (RegField × Nat)) (x : Link) : State :=
  let s := mkState ([(F.HPL_CFG_EN 5, 1), (F.STAY_CFG_EN_E, 1), (F.STAY_CFG_EN_W, 1)] ++ l)
  { s with dev := s.dev.setLink i x }
/-- A TRAIN frame with REQ0 `req` and REQ_SEQ `seq`. -/
def trainBytes (req seq : Nat) : List Byte :=
  let b := [0x0F, 0, 4, BitVec.ofNat 8 req, 0, 0, 0, 1, BitVec.ofNat 8 seq, 0]
  b ++ beBytes 4 (crc32c b)
def startBytes (rate : Nat) (c : Nat := 0) : List Byte :=
  let b := [0x0E, BitVec.ofNat 8 rate, BitVec.ofNat 8 (2 * c), 0]
  b ++ beBytes 4 (crc32c b)
/-- The line bits of a frame of unknown TYPE. -/
def badLine : List Bool := (lineFlush 0 (fun _ => []) (frameBound 5) { q := [(0, [0x55, 1, 2, 3, 4])] } []).1
theorem witness_LinkBringUp_bits : lanesOn (linkW' 5 [(F.HPL_STAT_STAGE 5, 5)] {}).dev 5 = true
    ∧ (let r := (rxEvents true false {} badLine).2
      r.length = 1 ∧ ∀ x ∈ r, NoFrame x)
    ∧ lanesOn (linkW' 33 [(F.STAY_STAT_STAGE_W, 5)] {}).dev 33 = true
    ∧ (let b := laneSplit false badLine
      let r := (rxEvents false false {} (rxBond b.1 b.2).1).2
      r.length = 1 ∧ ∀ x ∈ r, NoFrame x) := by decide
theorem witness_LinkBringUp_lock : Ready (linkW' 33 [(F.STAY_STAT_STAGE_W, 1)] { locks := 1 })
    ∧ linkEnabled (linkW' 33 [(F.STAY_STAT_STAGE_W, 1)] { locks := 1 }).dev 33 = true
    ∧ linkStage (linkW' 33 [(F.STAY_STAT_STAGE_W, 1)] { locks := 1 }).dev 33 = 1
    ∧ allLanes 33 (setBit ((linkW' 33 [(F.STAY_STAT_STAGE_W, 1)] { locks := 1 }).dev.link 33).locks 1) = true
    ∧ Ready (linkW' 33 [(F.STAY_STAT_STAGE_W, 3)] { locks := 3 })
    ∧ 2 ≤ linkStage (linkW' 33 [(F.STAY_STAT_STAGE_W, 3)] { locks := 3 }).dev 33
    ∧ lanesOn (linkW' 5 [(F.HPL_STAT_STAGE 5, 5)] { up := true }).dev 5 = true
    ∧ Ready (linkW' 5 [(F.HPL_STAT_STAGE 5, 5)] { up := true }) ∧ PortFree (linkW' 5 [(F.HPL_STAT_STAGE 5, 5)] { up := true }) 7 5
    := by decide
theorem witness_LinkBringUp_train :
    (let f := trainBytes 1 7; frameOk f && byteAt f 0 == 0x0F && f.length == 14) = true
    ∧ Ready (linkW' 5 [(F.HPL_STAT_STAGE 5, 2)] {}) ∧ linkStage (linkW' 5 [(F.HPL_STAT_STAGE 5, 2)] {}).dev 5 = 2
    ∧ Ready (linkW' 33 [(F.STAY_STAT_STAGE_W, 4)] {}) ∧ linkStage (linkW' 33 [(F.STAY_STAT_STAGE_W, 4)] {}).dev 33 = 4
    ∧ 7 = byteAt (trainBytes 1 7) 8 := by decide
theorem witness_LinkBringUp_start :
    (let f := startBytes 100; frameOk f && byteAt f 0 == 0x0E && f.length == 8) = true
    ∧ Ready (linkW' 32 [(F.STAY_STAT_STAGE_E, 5)] { startSent := true })
    ∧ byteAt (startBytes 100) 1 = ((linkW' 32 [(F.STAY_STAT_STAGE_E, 5)] { startSent := true }).dev.link 32).rate
    ∧ bit (byteAt (startBytes 100) 2) 1 = ((linkW' 32 [(F.STAY_STAT_STAGE_E, 5)] { startSent := true }).dev.link 32).cyc250
    ∧ (let f := startBytes 99; frameOk f && byteAt f 0 == 0x0E && f.length == 8) = true
    ∧ byteAt (startBytes 99) 1 ≠ ((linkW' 32 [(F.STAY_STAT_STAGE_E, 5)] { startSent := true }).dev.link 32).rate
    ∧ lanesOn (linkW' 32 [(F.STAY_STAT_STAGE_E, 5)] { startSent := true }).dev 32 = true
    ∧ (let f := startBytes 100 1; frameOk f && byteAt f 0 == 0x0E && f.length == 8) = true
    ∧ bit (byteAt (startBytes 100 1) 2) 1 ≠ ownCyc250 (linkW' 32 [(F.STAY_STAT_STAGE_E, 5)] { startSent := true }).dev 32
    ∧ ((linkW' 32 [(F.STAY_STAT_STAGE_E, 5)] {}).dev.link 32).stageAt
        + (linkW' 32 [(F.STAY_STAT_STAGE_E, 5)] {}).dev.get F.LANES_TRAIN_TMO * 1000000
        ≤ (linkW' 32 [(F.STAY_STAT_STAGE_E, 5)] {}).dev.now + 100000000 := by decide

def lnkW (x : Link) : State :=
  let s := mkState [(F.HPL_CFG_EN 5, 1), (F.HPL_STAT_STAGE 5, 5), (F.HP_STAT_CUT 5, 0), (F.BCR_BASE_LO_BASE, 0x20000000), (F.BCR_TAIL_TAIL, 3),
    (F.BCR_SIZE_SIZE, 4), (F.HPL_MBX_CTL_LEN 5, 6), (F.HPL_MBX_DATA_DATA 5 0, 0x01020304), (F.HPL_MBX_DATA_DATA 5 1, 0x05060708)]
  { s with dev := { ((s.dev.put (F.PG_CTL_EN 0x40) 1).setLink 5 { x with startSent := true }) with l2Ram := true } }
def senseBytes (p : List Byte) : List Byte :=
  let b := [0x82, 0] ++ beBytes 2 p.length ++ p
  b ++ beBytes 4 (crc32c b)
def ringW (l : List (RegField × Nat)) (west : Bool) : State :=
  let s := mkState ([(F.PLAN_STAY_EN, 1), (F.PLAN_STAY_RING_POS, 1), (F.PLAN_STAY_RING_SIZE, 2), (F.PLAN_STAY_VMAX, 8), (F.PG_CTL_EN 0x5F, 1),
    (F.TIME_CTL_SRC, 1), (F.TIME_LAUNCH_STAY_LATE_DROP, 1)] ++ l)
  let d := { s.dev with clk := 400 * 2 ^ 48, stay := { verdicts := [{ dest := 2, state := 2, nozzle := 77, epoch := 5, vseq := 9 }] } }
  { s with dev := (d.setLink 32 { up := true }).setLink 33 { up := west } }
def ringF : State := let s := ringW [] true; { s with dev := { s.dev with stay := { s.dev.stay with sentBeat := some 0 } } }
/-- A MEMBER frame with the given second and third byte and its verdict records. -/
def memBytes (b1 b2 n : Nat) (tail : List Byte) : List Byte :=
  let b := [0x10, BitVec.ofNat 8 b1, BitVec.ofNat 8 b2, BitVec.ofNat 8 n] ++ List.replicate 10 0 ++ [21, 22] ++ beBytes 4 9
    ++ List.replicate 18 0 ++ tail
  b ++ beBytes 4 (crc32c b)
def vrdTail : List Byte := [1, 2, 0, 0, 0x50, 7, 0, 0, 0, 3, 0, 1]
def vrdW : State :=
  let s := ringW [(F.PLAN_CHK_ACTIVE, 1), (F.PLAN_PLANE_A_EN 2, 1), (F.PLAN_HP_A_EN 5, 1), (F.PLAN_HP_A_PLANE 5, 2),
    (F.PLAN_HP_A_NCOUNT 5, 64)] true
  { s with dev := { s.dev with versions := [{ plan := true, cfg := {
    regs := [(R.PLAN_PLANE_A 2, s.dev.reg (R.PLAN_PLANE_A 2)), (R.PLAN_HP_A 5, s.dev.reg (R.PLAN_HP_A 5))] } }] } }
theorem witness_HeadLinksAndRing_cycle : Ready (lnkW { up := true }) ∧ ((lnkW { up := true }).dev.link 5).up = true
    ∧ PortFree (lnkW { up := true }) 7 5 ∧ PortFree (lnkW { up := true }) 16000 5
    ∧ ((lnkW { up := true }).dev.link 5).statusAt + (lnkW { up := true }).dev.get (F.HPL_CFG_LNK_TMO 5) * (lnkW { up := true }).dev.beatLen
        ≤ (lnkW { up := true }).dev.now + 16000
    ∧ ((lnkW { up := true }).dev.link 5).origin + (((lnkW { up := true }).dev.link 5).cycle * 4000000 : Nat) ≤ laneNow ((lnkW { up := true }).dev.elapse 7) 5
    ∧ (lnkW { up := true }).dev.get (F.PG_CTL_EN 0x40) = 1
    ∧ ((lnkW { up := true, queue := [(0x81, [9])] }).dev.link 5).queue = (0x81, [9]) :: []
    ∧ ((lnkW { up := true, sent := [⟨1, 0x80, [], 4, 0⟩], cycles := 2 }).dev.link 5).sent = [⟨1, 0x80, [], 4, 0⟩] := by decide
theorem witness_HeadLinksAndRing_sense : Ready (lnkW {}) ∧ lanesOn (lnkW {}).dev 5 = true
    ∧ frameOk (senseBytes [1, 2, 3]) = true ∧ (senseBytes [1, 2, 3]).length = beAt (senseBytes [1, 2, 3]) 2 2 + 8
    ∧ (lnkW {}).dev.get F.BCR_HEAD_HEAD ≠ (lnkW {}).dev.get F.BCR_TAIL_TAIL ∧ frameOk [1, 2] = false
    ∧ (mkState []).dev.get F.BCR_HEAD_HEAD = (mkState []).dev.get F.BCR_TAIL_TAIL := by decide
theorem witness_HeadLinksAndRing_reach : Reach (lnkW {}) 14 kindWrite 0x20000000 528 := by decide
theorem witness_HeadLinksAndRing_mailbox : (lnkW {}).dev.get (F.HPL_MBX_CTL_BUSY 5) = 0 ∧ 0x80 ≤ (lnkW {}).dev.get (F.HPL_MBX_CTL_OP 5)
    ∧ (lnkW {}).dev.get (F.HPL_MBX_CTL_LEN 5) ≤ 112 ∧ Ready (mkState [(F.HPL_MBX_CTL_OP 5, 1)])
    ∧ (mkState [(F.HPL_MBX_CTL_OP 5, 1)]).dev.get (F.HPL_MBX_CTL_OP 5) < 0x80
    ∧ (mkState [(F.HPL_MBX_CTL_OP 5, 1)]).dev.get (F.PG_FAULT_VALID (hpPage 5)) = 0 := by decide
theorem witness_HeadLinksAndRing_member : Ready (ringW [] true) ∧ (ringW [] true).dev.get F.PLAN_STAY_EN = 1
    ∧ (let e := (ringW [] true).dev.elapse 3; e.beatStart e.beatNum + (ringW [] true).dev.get F.STAY_CFG_LAUNCH ≤ e.nt
      ∧ ∀ i, i < 2 → memberLate e i e.beatNum = false)
    ∧ (let e := (ringW [] true).dev.elapse 107; ∀ i, i < 2 → memberLate e i e.beatNum = true) ∧ Ready ringF
    ∧ (∀ k, k < 2 → let e := ringF.dev.elapse 7
        forwardWaits e k (memBytes 0x20 0 0 []).length (max (e.t16 + 100 * 256) (memberStart e k)) = false)
    ∧ byteAt (memBytes 0x20 0 0 []) 1 % 16 = (ringF.dev.get F.PLAN_STAY_RING_POS + ringSize ringF.dev - 1) % ringSize ringF.dev
    ∧ ((ringW [] true).dev.link 32).up = true
    ∧ ((ringW [] true).dev.link 33).up = true ∧ (ringW [] true).dev.get F.TIME_LAUNCH_STAY_LATE_DROP = 1
    ∧ frameOk (memBytes 0x20 0 0 []) = true ∧ (memBytes 0x20 0 0 []).length = memberLen (memBytes 0x20 0 0 []) + 4
    ∧ byteAt (memBytes 0x22 0 0 []) 1 % 16 ≠ ((ringW [] true).dev.get F.PLAN_STAY_RING_POS + ringSize (ringW [] true).dev - 1) % ringSize (ringW [] true).dev
    ∧ frameOk (memBytes 0x22 0 0 []) = true ∧ Ready (ringW [] false) ∧ ((ringW [] false).dev.link 33).up = false
    ∧ bit (byteAt (memBytes 0x20 4 0 []) 2) 2 = true ∧ (ringW [] false).dev.get F.TIME_CTL_SRC = 1 := by decide
theorem witness_HeadLinksAndRing_verdict : Ready vrdW ∧ frameOk (memBytes 0x20 0 1 vrdTail) = true
    ∧ (memBytes 0x20 0 1 vrdTail).length = memberLen (memBytes 0x20 0 1 vrdTail) + 4
    ∧ byteAt (memBytes 0x20 0 1 vrdTail) 38 % 16 = vrdW.dev.get F.PLAN_STAY_RING_POS
    ∧ 0x5007 = beAt (memBytes 0x20 0 1 vrdTail) 40 4 % 131072 ∧ 2 = byteAt (memBytes 0x20 0 1 vrdTail) 39 % 4
    ∧ vrdW.dev.planActive = true ∧ (nozPlane vrdW.dev 0x5007).isSome = true
    ∧ precedes (beAt (memBytes 0x20 0 1 vrdTail) 44 4) (vrdW.dev.get F.VRD_EPOCH_MIN_EPOCH) = false
    ∧ stateRank (nozState (nozShadow vrdW.dev 0x5007)) < stateRank 2 := by decide

def camW (x : Cam) : State :=
  let s := mkState [(F.PLAN_CHK_ACTIVE, 1), (F.PLAN_CAM_A_EN 1, 1), (F.CAM_CC_CTL_BUSY 0, 1), (F.EXP_WIDTH_WIDTH 1, 9), (F.LGT_STRB_EN 2, 1), (F.PG_CTL_EN 0x42, 1),
    (F.CAM_CC_ADDR_ADDR 1, 0x40), (F.CAM_CC_DATA_DATA 1, 7)]
  { s with dev := setInsp ((s.dev.setReg R.PWR_OE 0x20).setCam 1 x) (fun i => { i with pulses := [(2, 5, 9), (2, 1, 2)] }) }
def camT : State := camW { heldBack := true, chwm := some 100 }
def camE (w : List (Nat × Nat)) : State :=
  camW { cc := some { gen := some 3, write := true, at_ := 0 }, pending := some { gen := 3, width := 9, writes := w, issued := true } }
theorem witness_CameraPorts_trigger : Ready camT ∧ (camT.dev.cam 1).heldBack = true ∧ trigDue (camT.dev.elapse 7) 1 = true
    ∧ trigSpaced (camT.dev.elapse 7) 1 = true ∧ camT.dev.get (F.CAM_STAT_HB_LOST 1) = 0
    ∧ (camT.dev.cam 1).hbAt + camT.dev.get (F.CAM_TMO_HB_TMO 1) * 1000000 ≤ camT.dev.now + 1000000000 := by decide
theorem witness_CameraPorts_channel : camT.dev.get (F.CAM_CC_CTL_BUSY 1) = 0 ∧ camT.dev.get (F.CAM_CC_CTL_BUSY 0) = 1
    ∧ camT.dev.get (F.PG_FAULT_VALID 0x41) = 0
    ∧ Ready (camW { cc := some { gen := none, write := false, at_ := 0 } })
    ∧ ((camW { cc := some { gen := none, write := false, at_ := 0 } }).dev.cam 1).cc = some { gen := none, write := false, at_ := 0 }
    ∧ ((camW { cc := some { gen := none, write := false, at_ := 0 } }).dev.cam 1).pending = none
    ∧ 0 + 1000000 ≤ (camE []).dev.now + 1000000 ∧ (camE []).dev.now + 7 < 0 + 1000000 := by decide
theorem witness_CameraPorts_exposure : Ready (camE []) ∧ ((camE []).dev.cam 1).cc = some { gen := some 3, write := true, at_ := 0 }
    ∧ ((camE []).dev.cam 1).pending = some { gen := 3, width := 9, writes := [], issued := true } := by decide

def lineF : CamFrame := { ord := 0, npix := 2, npl := 1, sent := 1 }
def lineW (l : List FifoLine) : State :=
  let s := mkState [(F.VRD_RING_CFG_LOCAL, 1), (F.VRD_SIZE_SIZE, 8), (F.VIEW_X1_X 3, 4), (F.VIEW_HBASE_HBASE 3, 10),
    (F.PG_CTL_EN 0x42, 1), (F.LEV_PITCH_PITCH 0, 65536), (F.CAM_CPITCH_CPITCH 1, 65536)]
  let d := s.dev.setCam 1 { trigs := [⟨0, 0, 0⟩], frames := [lineF], fifo := l }
  let d := { d with copies := [(0, { desc := { repeat_ := 5 } })] }
  { s with dev := setInsp d (fun i => { i with pipe := some (1, ⟨0, none, false⟩), served := 1, vrdHeld := 2, hist := [(9, 1), (12, 2)] }) }
def tapW : State :=
  let s := mkState [(F.INS_TAP_BASE_LO_BASE, 0x20000000), (F.INS_TAP_SIZE_SIZE, 2)]
  { s with dev := { setInsp s.dev (fun i => { i with pipe := some (0, ⟨0, some [0x123, 5], false⟩), tapPos := 8 }) with l2Ram := true }.setCam 0 { frames := [{ lineF with tapped := true }] } }
theorem witness_CameraLines_line : Ready (lineW []) ∧ camWorks (lineW []).dev 1 = true ∧ ((lineW []).dev.cam 1).trigs.find? (fun u =>
      decide (u.at_ + (lineW []).dev.get (F.CAM_TMO_TRIG_LAT 1) * 100 ≤ (lineW []).dev.now + 1000000 - 7)) = some ⟨0, 0, 0⟩
    ∧ ((lineW []).dev.cam 1).frames = [lineF] ∧ (lineW []).dev.insp.pipe = some (1, ⟨0, none, false⟩)
    ∧ (∀ u ∈ ((lineW []).dev.cam 1).trigs, (lineW []).dev.now + 7 - 7 < u.at_ + (lineW []).dev.get (F.CAM_TMO_TRIG_LAT 1) * 100)
    ∧ ((lineW []).dev.cam 1).trigs.head? = some ⟨0, 0, 0⟩ ∧ (lineW []).dev.insp.served = (1 : Fin 2)
    ∧ 0 + (lineW []).dev.get (F.CAM_TMO_LINE_TMO 1) * 1000 ≤ (lineW []).dev.now + 100000000
    ∧ 4 ≤ ((lineW (List.replicate 4 ⟨0, none, false⟩)).dev.cam 1).fifo.length ∧ Ready (lineW (List.replicate 4 ⟨0, none, false⟩)) := by decide
theorem witness_CameraLines_captured : captured (lineW []).dev 0 = true ∧ frameTrigs (lineW []).dev 1 lineF.ord = some 5 ∧ frameTrigs (lineW []).dev 1 lineF.ord ≠ some (lineF.matched + 1) := by decide
theorem witness_CameraLines_tap : Ready tapW ∧ tapW.dev.insp.pipe = some ((0 : Fin 2).val, ⟨0, some [0x123, 5], false⟩)
    ∧ tapW.dev.insp.tapPos % (tapW.dev.get F.INS_TAP_SIZE_SIZE * 4096) + 4 ≤ tapW.dev.get F.INS_TAP_SIZE_SIZE * 4096
    ∧ (∀ g ∈ (tapW.dev.cam 0).frames, frameTrigs tapW.dev 0 g.ord ≠ some g.matched)
    ∧ tapW.dev.get F.INS_TAP_READ_READ = 0 ∧ Reach tapW 11 kindWrite 0x20000008 4 := by decide
theorem witness_CameraLines_sent : (lineW []).dev.get F.VRD_RING_CFG_LOCAL = 1 ∧ (2#32).toNat < (lineW []).dev.get F.VRD_SIZE_SIZE
    ∧ (lineW []).dev.get F.VRD_SENT_SENT < (lineW []).dev.get F.VRD_SIZE_SIZE
    ∧ 2 = ((2#32).toNat + (lineW []).dev.get F.VRD_SIZE_SIZE - (lineW []).dev.get F.VRD_SENT_SENT) % (lineW []).dev.get F.VRD_SIZE_SIZE
    ∧ 2 ≤ (lineW []).dev.insp.vrdHeld ∧ (lineW []).dev.insp.vrdHeld < 3 ∧ (lineW []).dev.get (F.PG_FAULT_VALID 0x45) = 0
    ∧ tapW.dev.get F.VRD_RING_CFG_LOCAL = 0 := by decide

def loopW : State := mkState [(F.PG_CTL_EN 0x49, 1), (F.ADC_EN_EN, 0x8), (F.PG_CTL_EN 0x4A, 1), (F.PWM_CFG_EN 2, 1),
  (F.PWM_PERIOD_PERIOD 2, 100), (F.PWM_DUTY_DUTY 2, 10), (F.PWR_OE_PWM, 1)]
theorem witness_LoopInputCommands : Ready loopW ∧ loopW.dev.get (F.PG_CTL_EN 0x49) = 1 ∧ loopW.dev.mot.adcCal = false
    ∧ adcNext (loopW.dev.get F.ADC_EN_EN) loopW.dev.mot.adcLast = some 3 ∧ loopW.dev.get (F.ADC_CH_AVG 3) = 0
    ∧ (cellGet [] loopW.dev.mot.fin 1).head? = none ∧ bit (5#32).toNat 2 = true ∧ bit (5#32).toNat 1 = false
    ∧ loopW.dev.get (F.PG_CTL_EN 0x4A) = 1 ∧ loopW.dev.get (F.PWM_CFG_EN 2) = 1 ∧ (loopW.dev.pwmOut 2).running = false
    ∧ loopW.dev.get F.PWR_OE_PWM = 1 := by decide
def loopW2 : State := { loopW with dev := (loopW.dev.put (F.ADC_CH_AVG 3) 1).sent }
def loopW3 : State := { loopW2 with dev := { loopW2.dev with mot := { loopW2.dev.mot with
  codes := [(3, [4095, 1])], fin := [(1, [(7, 0)])], pwm := [(2, ⟨true, 0, 1, 1⟩)] } } }
theorem witness_LoopInputCommands_mean : Ready loopW3 ∧ loopW3.dev.get (F.ADC_CH_AVG 3) = 1
    ∧ 2 ≤ (0 :: cellGet [] loopW3.dev.mot.codes 3).length
    ∧ (∃ e ∈ (cellGet [] loopW3.dev.mot.fin 1).head?, (loopW3.dev.now + 9) / 5 < e.1 + 40)
    ∧ (loopW3.dev.pwmOut 2).since + 5 * (loopW3.dev.pwmOut 2).period ≤ loopW3.dev.now + 5 := by decide
def gpioW : State := mkState [(F.PG_CTL_EN 0x4C, 1), (F.GPIO_CFG_RISE 5, 1)]
theorem witness_GpioCommands : Ready gpioW ∧ gpioDriven gpioW.dev 5 = false ∧ bit gpioW.dev.mot.gpioIn 5 ≠ true
    ∧ gpioW.dev.get (F.PG_CTL_EN 0x4C) = 1 ∧ gpioW.dev.get (F.GPIO_CFG_RISE 5) = 1 := by decide

def stepW : State := mkState [(F.PG_CTL_EN 0x4B, 1), (F.STP_CFG_EN 2, 1), (F.STP_TARGET_T 2, 5), (F.STP_CFG_STALL_SRC 2, 1)]
def stepM : State := { stepW with dev := stepW.dev.setAxis 2 { mode := .move, left := 5, v := 2 ^ 30, due := 3 } }
theorem witness_StepperCommands : Ready stepW ∧ (stepW.dev.axis 2).mode = .still ∧ stepW.dev.get (F.STP_STAT_FAULT 2) = 0
    ∧ axisOn stepW.dev 2 = true
    ∧ (5 : Int) = stepW.dev.getI (F.STP_TARGET_T 2) - stepW.dev.getI (F.STP_POS_POS 2) ∧ (5 : Int) ≠ 0
    ∧ stepW.dev.get (F.STP_CFG_STALL_SRC 2) ≠ 0 ∧ Ready stepM ∧ (stepM.dev.axis 2).mode ≠ .still := by decide
def stepH : State := { stepW with dev := stepW.dev.setAxis 2 { mode := .homing } }
theorem witness_StepperPulses : Ready stepM ∧ (stepM.dev.axis 2).mode ≠ .still ∧ (stepM.dev.axis 2).due ≤ stepM.dev.now + 7
    ∧ (stepM.dev.axis 2).mode ≠ .homing ∧ stepM.dev.get (F.STP_CFG_STALL_SRC 2) % 2 = 1
    ∧ Ready stepH ∧ (stepH.dev.axis 2).mode = .homing ∧ stepH.dev.get (F.STP_CFG_STALL_SRC 2) % 2 = 1
    ∧ ¬(2 ≤ stepH.dev.get (F.STP_CFG_STALL_SRC 2)) := by decide

def busW : State :=
  let s := mkState [(F.DRAMC_STAT_READY, 1), (F.SHROUD_CLEAT_LO_CLEAT, 0x20)]
  { s with dev := { s.dev with l2Ram := true, ue := cellSet 0 s.dev.ue (ueKey 14 1) 1 } }
def busN : State := mkState []
def dramF : State := mkState [(F.DRAMC_STAT_READY, 1), (F.DRAMC_FCHG_BUSY, 1), (F.DRAMC_FCHG_TARGET, 3), (F.DRAMC_STAT_SELFREF, 1)]
theorem witness_BusTransactions : Ready busW ∧ Permitted busW 0 kindWrite 0x20000004 8 ∧ Permitted busW 7 kindWrite 0x1000000038 8
    ∧ ((inL2 0x20000004 && busW.dev.l2Ram) || dramServes busW.dev 0x20000004) = true ∧ dramServes busW.dev 0x1000000038 = true
    ∧ 0x1000000038 % 64 + 8 ≤ 64 ∧ dramPoisoned busW.dev 0x1000000038 8 = false
    ∧ dramPoisoned busW.dev 0x1000000040 8 = true ∧ Permitted busW 7 kindRead 0x1000000040 8
    ∧ dramServes busW.dev 0x1000000040 = true ∧ cleated busW.dev 5 = true ∧ Ready busN ∧ inDram 0x1000000040 = true
    ∧ Permitted busN 7 kindRead 0x1000000040 8 ∧ dramServes busN.dev 0x1000000040 = false ∧ issues busN.dev 7 = true ∧ issues busN.dev 40 = false
    ∧ Ready dramF ∧ Permitted dramF 0 kindWrite 0x1000000040 4 ∧ Permitted dramF 7 kindWrite 0x1000000040 4 ∧ dramF.dev.get F.DRAMC_FCHG_BUSY = 1
    ∧ (shroudCheck busN.dev 7 1 0x40054040 (true && reachesRwm 0x40054040 4)).1 = false := by decide
theorem witness_BusTransactions_registers : Ready busN ∧ pageListed 7 = true ∧ MayWrite busN 0 (R.PG_EVT 7)
    ∧ (regDesc (R.ENC_CFG 0 / 0x1000) (R.ENC_CFG 0 % 0x1000)).isSome = true ∧ pageListed 0x60 = false
    ∧ MayWrite busN 0 0x60044 ∧ regDesc 0x54 0x5C = none ∧ MayWrite busN 0 0x5405C := by decide
theorem witness_BusTransactions_shadow : (regDesc (R.LOOP_SP 0 / 0x1000) (R.LOOP_SP 0 % 0x1000)).any (fun r => r.rws != 0
    && rangesOk r r.rws 5) = true ∧ crossRangeOk (R.LOOP_SP 0) 5 busN.dev = true ∧ R.LOOP_SP 0 ∉ shadowPorts ∧ MayWrite busN 0 (R.LOOP_SP 0 + 0x800) := by decide

def dramW : State :=
  let s := mkState [(F.DRAMC_STAT_READY, 1), (F.DPHY_CTL_TRACK_EN, 1), (F.DRAMC_PD_PD_EN, 1), (F.DRAMC_PD_PD_IDLE, 1), (F.DRAMC_SCRUB_EN, 1), (F.PG_CTL_EN 0x50, 1)]
  { s with dev := { s.dev with refsbCount := 15 } }
def dramT : State := { busN with dev := { busN.dev with training := true } }
def dramG : State := { dramF with dev := { dramF.dev with trainedRates := [(3, [7, 8])] } }
theorem dramF_sessions (n : Nat) : (dramF.dev.sess n).held = [] ∧ (dramF.dev.sess n).todo = [] := ⟨rfl, rfl⟩
theorem dramG_sessions (n : Nat) : (dramG.dev.sess n).held = [] ∧ (dramG.dev.sess n).todo = [] := ⟨rfl, rfl⟩
theorem witness_DramCommands : Ready dramW ∧ dramW.dev.get F.DRAMC_STAT_READY = 1 ∧ dramW.dev.get F.DPHY_CTL_TRACK_EN = 1
    ∧ (dramW.dev.refsbCount + 1) % 16 = 0 ∧ dramW.dev.get F.DRAMC_PD_PD_EN = 1
    ∧ cellGet 0 dramW.dev.rankUsed 1 + dramW.dev.get F.DRAMC_PD_PD_IDLE * 10 ≤ dramW.dev.now + 10
    ∧ dramW.dev.get F.DRAMC_SCRUB_EN = 1 ∧ dramW.dev.get (F.PG_CTL_EN 0x50) = 1 ∧ Permitted dramW 15 kindRead (0x1000000000 + 64 * dramW.dev.scrubPos) 64
    ∧ dramW.dev.scrubPos < dramCap dramW.dev / 64 ∧ dramW.dev.planActive = false ∧ dramW.dev.get F.DRAMC_FCHG_BUSY = 0 := by decide
theorem witness_DramCommands_training : Ready busN ∧ busN.dev.planActive = false ∧ busN.dev.get F.DRAMC_STAT_READY = 0 ∧ dramW.dev.get (F.PG_FAULT_VALID 0x51) = 0
    ∧ Ready dramT ∧ dramT.dev.training = true ∧ Ready cmpB ∧ Ready fireW ∧ fireW.dev.planActive = true
    ∧ Ready dramF ∧ dramF.dev.get F.DRAMC_FCHG_BUSY = 1 ∧ dramF.dev.trainedRates.find? (fun r => r.1 == dramF.dev.get F.DRAMC_FCHG_TARGET) = none
    ∧ dramF.dev.openSessions = 0 ∧ Ready dramG ∧ dramG.dev.openSessions = 0 ∧ dramG.dev.get F.DRAMC_FCHG_BUSY = 1
    ∧ dramG.dev.trainedRates.find? (fun r => r.1 == dramG.dev.get F.DRAMC_FCHG_TARGET) = some (3, [7, 8])
    ∧ dramF.dev.stalled = [] ∧ dramG.dev.stalled = [] ∧ dramF.dev.heldSteps = [] ∧ dramG.dev.heldSteps = [] := by decide

def eccW : State :=
  let s := mkState [(F.DRAMC_STAT_READY, 1), (F.REMAP_SEL_GROUP, 14), (F.REMAP_SEL_ENTRY, 63), (F.REMAP_ENT_INDEX, 5), (F.REMAP_CFG_AUTO, 1)]
  { s with dev := { s.dev with autoWant := [(14, 7)] } }
def eccR : State := { eccW with dev := { eccW.dev with remap := cellSet noRemap [] (64 * 14 + 63) { valid := true, index := 5 } } }
def eccB : State := { eccW with dev := { eccW.dev with remap := cellSet noRemap [] (64 * 14 + 63) { valid := true, index := 5, poison := true } } }
theorem witness_MemoryErrors : Ready eccW ∧ dramServes eccW.dev (0x1000000000 + 7 * 64) = true
    ∧ 7 = lineIndex (0x1000000000 + 7 * 64) ∧ indexExists eccW.dev 14 7 = true ∧ NoLeakNow eccW 7 14 ∧ indexExists eccW.dev 14 5 = true
    ∧ (cellGet 0 eccW.dev.leakAt 14 + eccW.dev.get (F.ECC_BKT_CFG_LEAK 14) * 1000000) / 2
      = (eccW.dev.now + eccW.dev.get (F.ECC_BKT_CFG_LEAK 14) * 1000000) / 2 ∧ eccW.dev.get F.ECC_UE_HI_VALID = 0
    ∧ cellGet 0 eccW.dev.leakAt 14 + eccW.dev.get (F.ECC_BKT_CFG_LEAK 14) * 1000000 ≤ eccW.dev.now + 10000000000
    ∧ eccW.dev.get F.REMAP_SEL_ENTRY < remapSize 14 ∧ (cellGet noRemap eccW.dev.remap (64 * 14 + 63)).valid = false
    ∧ remapped eccW.dev 14 5 = false ∧ spareBad eccW.dev 14 7 = false ∧ eccW.dev.autoWant.contains (14, 7) = true ∧ eccW.dev.get F.REMAP_CFG_AUTO = 1
    ∧ (List.range (remapSize 14)).find? (fun n => !(cellGet noRemap eccW.dev.remap (64 * 14 + n)).valid) = some 0 := by decide
theorem witness_MemoryErrors_mapped : Ready eccR ∧ (cellGet noRemap eccR.dev.remap (64 * 14 + 63)).valid = true
    ∧ Ready eccB ∧ spareBad eccB.dev 14 5 = true ∧ dramServes eccB.dev (0x1000000000 + 5 * 64) = true ∧ eccR.dev.get F.REMAP_SEL_GROUP = 14 ∧ eccR.dev.get F.REMAP_SEL_ENTRY = 63 ∧ eccR.dev.get (F.PG_FAULT_VALID 0x53) = 0 := by decide

def evtW : State := mkState [(F.EVT_PEND_PEND 4, 2), (F.EVT_ROUTE_CORE 129, 2)]
theorem witness_EventDoorbellsAndMasks : Ready evtW ∧ evtW.dev.sharedPending 130 = false ∧ evtW.dev.sharedPending 129 = true
    ∧ evtW.dev.get (F.PG_FAULT_VALID 0x55) = 0 ∧ bit (evtW.dev.get (F.EVTC_PEND_PEND 1)) (257 - 256) = false
    ∧ evtW.dev.get (F.PG_FAULT_VALID 0x57) = 0 := by decide

def svcW : State := mkState [(F.EVTC_CORE_EE 0, 1), (F.EVT_PEND_PEND 4, 2), (F.EVT_MASK_MASK 4, 0), (F.EVTC_VEC_LO_VEC 0, 0x100),
  (F.EVTC_ACTIVE_VALID 1, 1), (F.EVTC_ACTIVE_SRC 1, 16), (F.PG_EVT_EN_EN 5, 0xFFFFFFFF), (F.PG_EVT_BLOCK 5, 1), (F.WDOG_MCTL_RUN, 15)]
theorem witness_EventService : Ready svcW ∧ coreRuns svcW.dev 0 = true ∧ svcW.dev.get (F.EVTC_CORE_EE 0) = 1
    ∧ presented svcW.dev 0 = some 129 ∧ svcW.dev.get (F.EVTC_ACTIVE_VALID 1) = 1 ∧ svcW.dev.get (F.EVTC_ACTIVE_SRC 1) = 16
    ∧ sourceLevel 16 = true ∧ svcW.dev.sourceCond 16 = true ∧ MayWrite svcW 0 (R.EVT_ROUTE 7) := by decide
theorem witness_NoNestedService : Ready svcW ∧ svcW.dev.get (F.EVTC_ACTIVE_VALID (1 : Fin 4)) = 1 := by decide

def wdogW : State := mkState [(F.WDOG_CFG_EN 0, 1), (F.WDOG_CFG_TMO 0, 1), (F.WDOG_MCTL_RUN, 1)]
def wdogB : State := { wdogW with dev := { wdogW.dev with wdogHit := [(0, true)], mgmtReq := none } }
def mgmtW : State := { wdogW with dev := { wdogW.dev with mgmtReq := some 2 } }
theorem witness_WatchdogAndManagementReset : Ready wdogW ∧ wdogW.dev.get (F.WDOG_CFG_EN 0) = 1
    ∧ bit (wdogW.dev.get F.WDOG_MCTL_RUN) 0 = true
    ∧ cellGet 0 wdogW.dev.wdogAt 0 + wdogW.dev.get (F.WDOG_CFG_TMO 0) * 1000000 ≤ wdogW.dev.now + 1000000
    ∧ cellGet false wdogW.dev.wdogHit 0 = false ∧ MayWrite wdogW 0 R.WDOG_MCTL ∧ Ready wdogB
    ∧ cellGet false wdogB.dev.wdogHit 0 = true ∧ wdogB.dev.get (F.WDOG_CFG_EN 0) = 1
    ∧ Ready mgmtW ∧ mgmtW.dev.mgmtReq = some 2 := by decide

def blkW : State := mkState [(F.PG_CTL_EN 0x49, 1), (F.PG_STAT_ACTIVE 0x49, 1), (F.PG_STAT_IDLE 0x49, 0),
  (F.PG_STAT_STOPPING 0x4A, 1), (F.PG_STAT_IDLE 0x4A, 0)]
theorem witness_BlockControl : Ready blkW ∧ (∀ p ∈ [0x48, 0x49, 0x4A], pageListed p = true ∧ pageAlwaysOn p = false
    ∧ pageBound blkW.dev p = false ∧ cellGet false blkW.dev.enHeld p = false)
    ∧ stopping blkW.dev 0x48 = false ∧ blkW.dev.get (F.PG_CTL_EN 0x48) = 0
    ∧ stopping blkW.dev 0x49 = false ∧ blkW.dev.get (F.PG_CTL_EN 0x49) = 1 ∧ blkW.dev.get (F.PG_CTL_STOP_MODE 0x49) = 0
    ∧ unitsInFlight (blkW.dev.elapse 7) 0x49 = 0
    ∧ stopping blkW.dev 0x4A = true ∧ unitsInFlight (blkW.dev.elapse 7) 0x4A = 0 := by decide

def shrW : State := mkState [(F.SHROUD_RSEL_REGION, 127), (F.SHROUD_RDATA0_BASE, 5), (F.SHROUD_RDATA0_EN, 1), (F.SHROUD_RDATA1_LIMIT, 5),
  (F.SHROUD_RDATA2_PERM, 0x17000000), (F.SHROUD_CLEAT_LO_CLEAT, 0x31A), (F.EVTC_CORE_LVL 1, 2)]
def shrH : State := { shrW with dev := { shrW.dev.put F.SHROUD_CLEAT_LO_CLEAT 0x1000 with l2Ram := true, heldSteps := [.write 12 0x20000038 [1, 2, 3]] } }
def shrX : State := mkState [(F.SHROUD_RDATA0_BASE, 5), (F.SHROUD_RDATA0_EN, 1), (F.SHROUD_RDATA1_LIMIT, 6), (F.SHROUD_RDATA3_PERM, 0x18000000)]
theorem witness_ShroudCommands : Ready shrW ∧ MayWrite shrW 0 R.SHROUD_CFG ∧ MayWrite shrW 0 R.SHROUD_RCTL
    ∧ (shrW.dev.reg R.SHROUD_RDATA0).toNat % 2 ^ 28 ≤ (shrW.dev.reg R.SHROUD_RDATA1).toNat % 2 ^ 28
    ∧ (∀ g, g < 4 → bits (shrW.dev.reg R.SHROUD_RDATA2).toNat (8 * g + 3) 2 ≠ 3 ∧ bits (shrW.dev.reg R.SHROUD_RDATA3).toNat (8 * g + 3) 2 ≠ 3)
    ∧ Ready shrX ∧ bit (shrX.dev.reg R.SHROUD_RDATA0).toNat 31 = true ∧ shrX.dev.get (F.PG_FAULT_VALID 0x54) = 0
    ∧ bits (shrX.dev.reg R.SHROUD_RDATA3).toNat (8 * 3 + 3) 2 = 3 := by decide
def shrJ (m : Nat) (res : List (List Byte)) : State :=
  let s := mkState [(F.SHROUD_CLEAT_LO_CLEAT, 2 ^ m), (F.PLOG_BASE_LO_BASE, 0x20000000), (F.PLOG_SIZE_SIZE, 64), (F.PLOG_STAT_FULL, 1)]
  { s with dev := { s.dev with l2Ram := true, plogReserve := res } }
theorem shrJ_sessions (m : Nat) (res : List (List Byte)) (n : Nat) : ((shrJ m res).dev.sess n).held = [] ∧ ((shrJ m res).dev.sess n).todo = [] := ⟨rfl, rfl⟩
theorem witness_ShroudCommands_engines : Ready (shrJ 5 []) ∧ MayWrite (shrJ 5 []) 0 (R.SHROUD_RELEASE 5) ∧ cleated (shrJ 5 []).dev 5 = true
    ∧ (shrJ 5 []).dev.openSessions = 0 ∧ Ready (shrJ 10 []) ∧ cleated (shrJ 10 []).dev 10 = true ∧ (shrJ 10 []).dev.plogLost = 0
    ∧ MayWrite (shrJ 10 []) 0 (R.SHROUD_RELEASE 10)
    ∧ LogReady { shrJ 10 [List.replicate 96 7] with dev := setCleat 10 false { (shrJ 10 [List.replicate 96 7]).dev with plogReserve := [] } } := by decide
theorem witness_ShroudCommands_release : Ready shrW ∧ MayWrite shrW 0 (R.SHROUD_RELEASE 3) ∧ cleated shrW.dev 3 = true
    ∧ cleated shrW.dev 40 = false ∧ MayWrite shrW 0 (R.SHROUD_RELEASE 40) ∧ cleated shrW.dev 8 = true ∧ cleated shrW.dev 1 = true
    ∧ shrW.dev.heldSteps = [] ∧ shrW.dev.get F.CMP_STAT_BUSY = 0 ∧ Ready shrH ∧ MayWrite shrH 0 (R.SHROUD_RELEASE 12)
    ∧ cleated shrH.dev 12 = true ∧ inL2 0x20000038 = true ∧ (shroudCheck shrH.dev 12 kindWrite 0x20000038 false).1 = true
    ∧ cleated shrW.dev 9 = true ∧ pageBound shrW.dev (masterPage 9) = false := by decide

def capW : State := mkState [(F.SHROUD_CLEAT_LO_CLEAT, 14), (F.SHROUD_VIO_INFO_VALID, 1), (F.EVTC_CORE_LVL 0, 1)]
theorem witness_ShroudCapture : Ready capW ∧ issues capW.dev 0 = true ∧ capW.dev.vioAt / 2 ≠ (capW.dev.now + 7) / 2 ∧ (shroudCheck capW.dev 0 0 0x40054040 (false && reachesRwm 0x40054040 4)).1 = false
    ∧ capW.dev.get F.SHROUD_VIO_INFO_VALID = 1 ∧ Ready busN ∧ MayWrite busN 0 R.SHROUD_VIO_INFO ∧ MayWrite busN 0 (R.PG_EVT 0x54)
    ∧ busN.dev.get F.SHROUD_VIO_INFO_VALID = 0 ∧ issues busN.dev 7 = true
    ∧ (shroudCheck busN.dev 7 1 0x40054040 (true && reachesRwm 0x40054040 4)).1 = false := by decide

def calW : State := mkState [(F.TRIM_CFG_ADC_CAL_S, 1), (F.TRIM_CFG_TAPCAL_EN, 1), (F.TRIM_ENC_CFG_SWAP_LIM, 2), (F.TRIM_STALE_SUPPLY, 1)]
def calB : State := { mkState [(F.TRIM_CFG_ADC_CAL_S, 0)] with dev := { (mkState [(F.TRIM_CFG_ADC_CAL_S, 0)]).dev with
  mot := { adcCal := true }, trim := { tjCal := some 7 } } }
def calQ : State := { calW with dev := { calW.dev with taus := cellSet 0 [] (256 * 5 + 254) 10006, trim := { tapNext := cellSet 1 [] 5 255 } } }
def calR : State := { calW with dev := { calW.dev with trim := { tapRejects := cellSet 0 [] 5 3 } } }
theorem witness_Calibrations : Ready calW ∧ calW.dev.mot.adcCal = false ∧ calW.dev.get F.TRIM_CFG_ADC_CAL_S ≠ 0
    ∧ Ready calB ∧ calB.dev.get F.TRIM_CFG_ADC_CAL_S = 0 ∧ calB.dev.mot.adcCal = true ∧ calB.dev.get (F.PG_FAULT_VALID 0x5B) = 0
    ∧ calW.dev.trim.tjCal = none ∧ calW.dev.trim.tjNext < 8 ∧ calB.dev.trim.tjCal = some 7 ∧ calW.dev.get F.TRIM_STALE_SUPPLY = 1
    ∧ ([5] : List Nat).length = 1 := by decide
theorem witness_Calibrations_taps : Ready calW ∧ calW.dev.get F.TRIM_CFG_TAPCAL_EN = 1 ∧ 600 ≤ tapWindow (calW.dev.elapse 100) 5
    ∧ cellGet 0 calW.dev.trim.tapBeat 5 ≠ (calW.dev.elapse 100).beatNum + 1 ∧ cellGet 1 calW.dev.trim.tapNext 5 = 1
    ∧ tauOf calW.dev 5 0 = 0 ∧ (79 : Int) ≤ 2 * (((45 : Nat) : Int) - tauOf calW.dev 5 (1 - 1)) ∧ cellGet 0 calW.dev.trim.tapRejects 5 < 3
    ∧ Ready calQ ∧ 600 ≤ tapWindow (calQ.dev.elapse 100) 5 ∧ calQ.dev.get F.TRIM_CFG_TAPCAL_EN = 1
    ∧ cellGet 0 calQ.dev.trim.tapBeat 5 ≠ (calQ.dev.elapse 100).beatNum + 1 ∧ cellGet 1 calQ.dev.trim.tapNext 5 = 255
    ∧ cellGet 0 calQ.dev.trim.tapRejects 5 = 0 ∧ tauOf calQ.dev 5 254 = 10005 ∧ 79 ≤ 2 * ((10049 : Int) - 10005) ∧ (10049 : Int) - 10005 ≤ 48
    ∧ Ready calR ∧ cellGet 0 calR.dev.trim.tapRejects 5 = 3 ∧ (32 : Int).natAbs ≤ 16 * calW.dev.get F.TRIM_ENC_CFG_SWAP_LIM
    ∧ 16 * calW.dev.get F.TRIM_ENC_CFG_SWAP_LIM < (-33 : Int).natAbs := by decide

def wearW : State := mkState [(F.WEAR_SNAP_BASE_LO_BASE, 0x100000), (F.WEAR_SNAP_BASE_HI_BASE, 0x10), (F.DRAMC_STAT_READY, 1),
  (F.WEAR_ARATED_RATED 3, 1), (F.STP_STEPS_LO_STEPS 3, 65536), (F.WEAR_WARN_HOURS, 5)]
def wearB : State := { wearW with dev := { (wearW.dev.put F.WEAR_STAT_BUSY 1) with trim := { copy := some { restore := true, taken := true } } } }
def wearI : WearCopy :=
  { restore := false, taken := true, wear := cellSet 0 [] 3 0x0A0B0C, steps := [0, 0, 0, 0, 0, 0, 0, 0x123] }
def wearC : State := { wearB with dev := { wearB.dev with trim := { copy := some wearI } } }
theorem dramServes_mono (d : Dev) (x y : Nat) (h : 0x1000000000 ≤ x) (hxy : x ≤ y) (hy : dramServes d y = true) : dramServes d x = true := by
  simp only [dramServes, inDram, Bool.and_eq_true, decide_eq_true_eq] at hy ⊢
  obtain ⟨⟨h1, -, h3⟩, h4⟩ := hy
  exact ⟨⟨h1, h, by omega⟩, by omega⟩
theorem dramPoisoned_clean (d : Dev) (a n : Nat) (hr : d.remap = []) (hu : d.ue = []) : dramPoisoned d a n = false := by
  simp [dramPoisoned, spareBad, hr, hu, cellGet, bits]
theorem wearW_image (i : Nat) (hi : i < 16385) : dramServes wearW.dev (wearBase wearW.dev + 64 * i) = true
    ∧ dramPoisoned wearW.dev (wearBase wearW.dev + 64 * i) 64 = false :=
  ⟨dramServes_mono _ _ (wearBase wearW.dev + 64 * 16384)
    (Nat.le_trans (by decide : 0x1000000000 ≤ wearBase wearW.dev) (Nat.le_add_right _ _)) (by omega) (by decide),
    dramPoisoned_clean _ _ _ rfl rfl⟩
theorem witness_WearAndReef : Ready wearW ∧ wearW.dev.get F.WEAR_STAT_BUSY = 0 ∧ wearW.dev.planActive = false
    ∧ anyAxisMoving wearW.dev = false ∧ Ready wearB ∧ wearB.dev.get F.WEAR_STAT_BUSY = 1 ∧ wearB.dev.get (F.PG_FAULT_VALID 0x5C) = 0
    ∧ wearB.dev.trim.copy = some { restore := true, taken := true } ∧ Ready wearC ∧ wearBase wearC.dev % 64 = 0
    ∧ wearW.dev.get (F.WEAR_ARATED_RATED 0) = 0 ∧ wearW.dev.get (F.WEAR_ARATED_RATED 3) * 65536 ≤ stepsOf wearW.dev 3
    ∧ 0 < ([7] : List Nat).length := by decide
theorem wearC_image (i : Nat) (hi : i < 16385) : dramServes wearC.dev (wearBase wearC.dev + 64 * i) = true :=
  dramServes_mono _ _ (wearBase wearC.dev + 64 * 16384)
    (Nat.le_trans (by decide : 0x1000000000 ≤ wearBase wearC.dev) (Nat.le_add_right _ _)) (by omega) (by decide)
def reefE : Reef := { since := 0, beat := 2, held := false }
def reefW : State :=
  let s := mkState [(F.PLOG_BASE_LO_BASE, 0x20000000), (F.PLOG_SIZE_SIZE, 64), (F.SUPV_CFG_T_HOLD, 1), (F.SUPV_STAT_REEF_CORE, 1)]
  { s with dev := { s.dev with l2Ram := true, reef := [(0, some reefE)] } }
theorem witness_WearAndReef_reef : Ready reefW ∧ reefW.dev.reefOf 1 = none ∧ reefW.dev.reefOf 0 = some reefE ∧ reefE.held = false
    ∧ reefE.since + holdTime reefW.dev ≤ reefW.dev.now + 1000 ∧ reefW.dev.planActive = false ∧ LogReady reefW
    ∧ reefW.dev.reef = [((0 : Fin 2).val, some reefE)] ∧ reefW.dev.now + 1000 ≤ reefE.since + holdTime reefW.dev := by decide

def rstW : State := mkState [(F.BOOT_TRY_EN, 1), (F.PWR_RST_CAUSE_COUNT, 65535), (F.LOOP_CSEL_IDX, 3)]
def rstP : State := { rstW with dev := { rstW.dev with power := .por } }
def rstH : State := { rstW with dev := { rstW.dev with power := .sysHeld } }
theorem witness_Resets : Ready rstW ∧ MayWrite rstW 0 R.SYS_CTL ∧ MayWrite rstW 0 R.SYS_BRST ∧ pageListed 0x48 = true
    ∧ resetProtected 0x48 = false ∧ pageBound rstW.dev 0x48 = false ∧ pageListed 0x15 = false ∧ rstW.dev.get (F.PG_FAULT_VALID 0) = 0
    ∧ resetProtected 0x54 = true ∧ Settled rstP ∧ rstP.dev.power = .por ∧ Settled rstW ∧ rstW.dev.power = .run
    ∧ Settled rstH ∧ rstH.dev.power = .sysHeld := by decide

def oeW : State := { fireW with dev := fireW.dev.put F.PWR_OE_HEADCUT 1 }
theorem witness_OutputEnables : Ready oeW ∧ oeW.dev.planActive = true ∧ bit (oeW.dev.reg R.PWR_OE).toNat 1 = true
    ∧ bit (8#32).toNat 1 = false ∧ oeW.dev.get (F.PG_FAULT_VALID 1) = 0 ∧ bit (oeW.dev.reg R.PWR_OE).toNat 3 ≠ bit (10#32).toNat 3
    ∧ (∀ k, k < 3 → bit (oeW.dev.reg R.PWR_OE).toNat k = true → bit (10#32).toNat k = true)
    ∧ MayWrite oeW 0 R.SYS_BRST ∧ pageListed 0x4C = true ∧ resetProtected 0x4C = false ∧ pageBound oeW.dev 0x4C = false := by decide
theorem oeW_sessions (n : Nat) : (oeW.dev.sess n).todo = [] ∧ (oeW.dev.sess n).waiting = [] ∧ (oeW.dev.sess n).held = [] :=
  ⟨rfl, rfl, rfl⟩
theorem witness_OutputEnables_reset : Ready { oeW with dev := { oeW.dev with mgmtReq := some 1 } } := by decide

def clkW : State :=
  let s := mkState [(F.PWR_OE_GPIO, 1), (F.HPL_CFG_EN 3, 1), (F.HPL_STAT_STAGE 3, 1), (F.CLK_STAT_LOCK_T, 1)]
  { s with dev := { s.dev.setLink 3 { locks := 1 } with pllLostAt := cellSet none [] 1 (some 0), sleepAt := some 0 } }
def clkU : State :=
  let s := mkState [(F.HPL_CFG_EN 3, 1), (F.HPL_STAT_STAGE 3, 5), (F.HPL_CFG_EN 9, 1), (F.HPL_STAT_STAGE 9, 5), (F.HP_STAT_CUT 3, 0)]
  { s with dev := (s.dev.setLink 3 { locks := 1, up := true }).setLink 9 { locks := 1, up := true } }
def clkS : State :=
  let s := mkState [(F.PWR_WAKE_CFG_TMR_EN, 1), (F.PWR_WAKE_TMR_TICKS, 32768)]
  { s with dev := { s.dev with power := .standby } }
theorem witness_ClocksAndStandby : Ready clkW ∧ clkW.dev.get F.CLK_STAT_REF_LOST = 0
    ∧ (∀ q, q < 2 → clkW.dev.get (F.ETH_LINK_LINK_UP q) = 0) ∧ (∀ i, i < 34 → (clkW.dev.link i).up = false ∧ linkStage clkW.dev i ≤ 1)
    ∧ clkW.dev.get (lockField 2) = 1 ∧ cellGet none clkW.dev.pllLostAt 1 = some 0 ∧ 0 + 100000 ≤ clkW.dev.now + 100000
    ∧ (6#32).toNat % 4 ≠ 3 ∧ (7#32).toNat % 4 = 3 ∧ clkW.dev.get (F.PG_FAULT_VALID 2) = 0 := by decide
theorem witness_ClocksAndStandby_head : Ready clkU ∧ clkU.dev.get F.CLK_STAT_REF_LOST = 0
    ∧ (∀ q, q < 2 → clkU.dev.get (F.ETH_LINK_LINK_UP q) = 0)
    ∧ (∀ h ∈ [3, 9], h < 32 ∧ lanesOn clkU.dev h = true ∧ (clkU.dev.link h).up = true ∧ PortFree clkU 7 h)
    ∧ (∀ i, i < 34 → i ∉ [3, 9] → (clkU.dev.link i).up = false ∧ linkStage clkU.dev i ≤ 1) ∧ clkU.dev.get (F.HP_STAT_CUT 3) = 0 := by decide
theorem witness_ClocksAndStandby_sleep : Ready busN ∧ busN.dev.planActive = false ∧ anyAxisMoving busN.dev = false
    ∧ busN.dev.get F.DRAMC_FCHG_BUSY = 0 ∧ busN.dev.sleepAt = none ∧ Ready oeW ∧ oeW.dev.planActive = true ∧ clkW.dev.sleepAt = some 0
    ∧ oeW.dev.get (F.PG_FAULT_VALID 1) = 0 ∧ Settled clkS ∧ clkS.dev.power = .standby ∧ clkS.dev.get F.PWR_WAKE_CFG_TMR_EN = 1
    ∧ clkS.dev.get F.PWR_WAKE_TMR_TICKS * 1000000000 ≤ (clkS.dev.now + 1000000000 - clkS.dev.standbyAt) * 32768 := by decide

def bootW : State := mkState [(F.BOOT_TRY_EN, 1)]
def bootV : State :=
  let s := mkState [(F.BOOT_VERIFY_BUSY, 1), (F.BOOT_WARM_LO_ADDR, 0x20000000)]
  { s with dev := { s.dev with l2Ram := true, booted := true } }
theorem witness_Boot : Ready bootW ∧ bootW.dev.booted = false ∧ bootW.dev.bootHalted = false ∧ bootW.dev.mgmtReq = none
    ∧ cleated bootW.dev 17 = false ∧ bootW.dev.get F.SHROUD_CFG_EN = 0 ∧ bootW.dev.resetAt + 1000000000 ≤ bootW.dev.now + 1000000000
    ∧ MayWrite bootW 0 R.BOOT_VERIFY ∧ MayWrite bootW 0 R.BOOT_RBK ∧ bootW.dev.runRollback < 9
    ∧ bootW.dev.get (F.PG_FAULT_VALID 0x5E) = 0 ∧ Ready bootV ∧ bootV.dev.booted = true ∧ bootV.dev.get F.BOOT_VERIFY_BUSY = 1
    ∧ bootV.dev.get F.BOOT_VERIFY_VALID = 0 := by decide
theorem witness_Boot_verify : imgRangeOk ((List.range 512).map (fun i => bootV.byte (0x20000000 + i))) = false
    ∧ (∀ i, i < 512 → (if inL2 (0x20000000 + i) then l2Poisoned bootV.dev (0x20000000 + i - 0x20000000) 1 else true) = false) ∧ cleated bootV.dev 17 = false
    ∧ (∀ i, i < 512 → (shroudCheck bootV.dev 17 kindRead (0x20000000 + i) false).1 = true ∧ (inL2 (0x20000000 + i) && bootV.dev.l2Ram) = true) := by
  decide
def bootR : State := { dev := { Dev.reset with regs := [(R.BOOT_STAT, 0)], runRollback := 64 } }
theorem witness_Boot_rollback : Ready bootR ∧ MayWrite bootR 0 R.BOOT_RBK ∧ bootR.dev.get F.BOOT_STAT_RBK < (64 : Fin 128).val
    ∧ (64 : Fin 128).val ≤ bootR.dev.runRollback := by decide

def comW : State :=
  let s := mkState [(F.PG_COMMIT_STAT_CHECKING 4, 1)]
  { s with dev := { s.dev with armed := cellSet none [] 0x44 (some { mode := 2, target := none, source := 0, at_ := 0 }) } }
def comP : State := { fireW with dev := fireW.dev.put F.EPOCH_NOW_EPOCH 9 }
def comL : State :=
  let s := mkState [(F.PLOG_BASE_LO_BASE, 0x20000000), (F.PLOG_SIZE_SIZE, 64)]
  { s with dev := { s.dev with l2Ram := true } }
def comI : State := mkState [(shadowOf (F.LOOP_FREE_EN 0), 1), (shadowOf (F.LOOP_FREE_DIV_LOG2 0), 15), (shadowOf (F.PLAN_LOOP_EN 0), 1)]
theorem witness_CommitWrites : Ready comW ∧ pageShadow 0x44 = true ∧ comW.dev.get (F.PG_COMMIT_STAT_CHECKING 0x44) = 0
    ∧ isArmed comW.dev 0x44 = true ∧ isArmed comW.dev 0x45 = false ∧ armCheck 0x44 (comW.dev.elapse 7) = none
    ∧ armCheck 0x46 (comW.dev.elapse 7) = none ∧ pageFire 0x0F = true ∧ comW.dev.planActive = false ∧ pageFire 0x44 = false
    ∧ comW.dev.get (F.PG_COMMIT_STAT_CHECKING 4) = 1 ∧ comW.dev.get (F.PG_FAULT_VALID 4) = 0 ∧ pageShadow 0x05 = false := by decide
theorem witness_CommitWrites_log : Ready comL ∧ comL.dev.planActive = false ∧ armCheck 0x44 (comL.dev.elapse 7) = none ∧ LogReady comL
    ∧ comL.dev.get (F.PG_COMMIT_STAT_CHECKING 0x44) = 0 ∧ comI.dev.planActive = false := by decide
theorem witness_CommitWrites_plan : Ready comP ∧ comP.dev.planActive = true ∧ pageFire 0x0F = true ∧ pageShadow 0x0F = true
    ∧ comP.dev.get (F.PG_COMMIT_STAT_CHECKING 0x0F) = 0 ∧ armCheck 0x0F (comP.dev.elapse 7) = none
    ∧ cutoffPassed comP.dev (resolveTarget comP.dev 10) = false ∧ cutoffPassed comP.dev (resolveTarget comP.dev 8) = true
    ∧ Ready comI ∧ comI.dev.get (F.PG_COMMIT_STAT_CHECKING 0x48) = 0 ∧ (armCheck 0x48 (comI.dev.elapse 7)).isSome = true := by decide

def chkW (code : Nat) : State :=
  let s := mkState [(F.PG_COMMIT_STAT_CHECKING 4, 1), (shadowOf F.PLAN_EPOCH0_EPOCH0, 77)]
  { s with dev := { s.dev with planCheck := some ⟨none, 0, 0, [4], { code := code, inst := 3 }, none, none⟩ } }
def endW : State :=
  let a := cellSet none [] 0x0F (some { mode := 3, target := none, source := 0, at_ := 0 })
  { fireW with dev := { fireW.dev with stopMode := 1, stopOrd := 0, cutoffDone := 0, armed := a } }
def endL : State := { endW with dev := { endW.dev with stopMode := 2 } }
theorem chkW_sessions (n : Nat) : ((chkW 0).dev.sess n).held = [] ∧ ((chkW 0).dev.sess n).todo = [] := ⟨rfl, rfl⟩
theorem witness_PlanLife : Ready (chkW 5) ∧ (chkW 5).dev.planCheck.isSome = true ∧ (chkW 5).dev.openSessions = 0 ∧ Ready (chkW 0)
    ∧ (chkW 0).dev.planActive = false ∧ cleated (chkW 0).dev 8 = false ∧ Ready busN ∧ busN.dev.planCheck = none
    ∧ Ready fireW ∧ fireW.dev.planActive = true ∧ fireW.dev.stopMode = 0 ∧ busN.dev.planActive = false
    ∧ busN.dev.get (F.PG_FAULT_VALID 4) = 0 := by decide
theorem witness_PlanLife_end : Ready endL ∧ endL.dev.planActive = true ∧ endL.dev.stopMode ≠ 0
    ∧ stopPlanes.all (planeEnded (endL.dev.elapse 7)) = true ∧ Ready fireW ∧ (pageFire 0x0F = true)
    ∧ (cellGet none endL.dev.armed 0x0F).isSome = true := by decide

def beatW (x : Nat) : State :=
  let s := mkState [(F.EVTC_TICK_TICK_EN 2, 1), (F.EVTC_TICK_BCMP_EN 1, 1), (F.EVTC_BCMP_BEAT 1, 4), (shadowOf F.STS_CFG_ZY_M1, 1)]
  { s with dev := { s.dev with armed := [(0x44, some { mode := 2, target := none, source := 0, at_ := x })] } }
theorem witness_BeatBoundary : Ready (beatW 0) ∧ (beatW 0).dev.lastBeat = ((beatW 0).dev.elapse 0).beatNum
    ∧ 4 = ((beatW 0).dev.elapse 16000).beatNum ∧ QuietBeat (beatW 0) 16000 ∧ (beatW 0).dev.planActive = false ∧ (beatW 0).dev.get (F.PG_CTL_EN 0x48) = 0
    ∧ (beatW 0).dev.shAt ≠ ((beatW 0).dev.now + 16000) / 2 + 1
    ∧ (∀ l, l < 32 → ((beatW 0).dev.loop l).inSched = false) := by decide
theorem witness_BeatBoundary_due : 0 + 100 ≤ (beatW 0).dev.now + 16000 ∧ (beatW 15950).dev.now + 16000 < 15950 + 100
    ∧ (beatW 0).dev.get (F.EVTC_TICK_TICK_EN 2) = 1 ∧ 4 % 2 ^ (beatW 0).dev.get (F.EVTC_TICK_TICK_LOG2 2) = 0
    ∧ (beatW 0).dev.get (F.EVTC_TICK_BCMP_EN 1) = 1 ∧ 4 % 2 ^ 32 = (beatW 0).dev.get (F.EVTC_BCMP_BEAT 1) := by decide

/-- Plane 2 on port 5, four nozzles, a background of ten lines in stream 3, whose record stands in L2. -/
def pipeD (rec : List Byte) (x : Plane) (cap : Bool) : State :=
  let r := ((Dev.reset.put (F.PLAN_PLANE_A_EN 2) 1).put (F.PLAN_PLANE_A_F_MAX 2) 200000).put (F.LEV_PITCH_PITCH 2) 0x1000000
  let d := (((r.put (F.PLAN_HP_A_EN 5) 1).put (F.PLAN_HP_A_PLANE 5) 2).put (F.PLAN_HP_A_NCOUNT 5) 4).put F.PLAN_CHK_ACTIVE 1
  let d := ((d.put (F.LAYER_BG_EN 2) 1).put (F.LAYER_BG_STREAM 2) 3).put (F.LAYER_BG_LINES_LINES 2) 10
  let d := (d.put F.STORE_COR_BASE_LO_BASE 0x20001000).put (F.LEV_STAT_REV 2) (if x.hwm = none then 1 else 0)
  let c : FireCfg := { regs := [R.PLAN_PLANE_A 2, R.PLAN_HP_A 5, R.LAYER_BG 2, R.LAYER_BG_LINES 2].map (fun a => (a, d.reg a)) }
  { State.reset with dev := { d.setPlane 2 x with
      l2Ram := true, l2 := rec.zipIdx.filterMap (fun e => if e.1 = 0 then none else some (e.2, e.1))
      versions := [{ plan := true, cfg := c }]
      streams := [(3, { en := true, kind := 0, plane := 2, base := 0x20000, size := 1, fill := 100 })]
      copies := if cap then [(0, { desc := { repeat_ := 100000 } })] else [] } }
def pipeRec : List Byte := encodeLine 8 true [] [] [9, 9, 10, 200]
def pipeSlot (n st : Nat) : Slot := ⟨n, 0, n, st, 0, [144, 144, 160, 3212], [], {}⟩
def pipeA : State := pipeD [] { issue := 4, slots := [pipeSlot 0 3, pipeSlot 1 2, pipeSlot 2 1] } true
def pipeB : State := pipeD [] { slots := [] } false
def pipeC : State := pipeD pipeRec { slots := [] } true
def pipeE : State := pipeD [1, 2] { issue := 3, slots := [pipeSlot 0 1] } true
theorem witness_PipelineAtBoundary : Ready pipeA ∧ QuietBeat pipeA 16000 ∧ pipeA.dev.armed = [] ∧ OnePlane pipeA (pipeA.dev.versions.headD {}) 2
    ∧ pipeA.dev.get (F.LEV_STAT_REV 2) = 1 ∧ (pipeA.dev.plane 2).next + 4 ≤ (pipeA.dev.plane 2).issue
    ∧ Ready pipeE ∧ QuietBeat pipeE 16000 ∧ OnePlane pipeE (pipeE.dev.versions.headD {}) 2
    ∧ (pipeE.dev.plane 2).slots.filter (fun q => q.stage == 1) = [pipeSlot 0 1] ∧ 0 = firstLine pipeE.dev 0 2 ∧ pipeE.dev.liveOrd ≤ 0 := by decide
theorem witness_PipelineAtBoundary_descriptor : Ready pipeB ∧ QuietBeat pipeB 16000 ∧ OnePlane pipeB (pipeB.dev.versions.headD {}) 2
    ∧ mayIssue pipeB.dev 2 = true ∧ SoundMemory pipeB ∧ captured pipeB.dev 0 = false ∧ ordOfLine pipeB.dev 2 0 = 0
    ∧ Reach { pipeB with dev := { pipeB.dev with epoch0 := 7 } } 8 kindRead (corBase pipeB.dev + 32 * 7) 32
    ∧ leAt ((List.range 32).map (fun i => pipeB.byte (corBase pipeB.dev + 224 + i))) 0 4 ≠ epochNumber { pipeB.dev with epoch0 := 7 } 0 := by decide
theorem witness_PipelineAtBoundary_issue : Ready pipeC ∧ QuietBeat pipeC 16000 ∧ OnePlane pipeC (pipeC.dev.versions.headD {}) 2
    ∧ mayIssue pipeC.dev 2 = true ∧ captured pipeC.dev 0 = true ∧ 0 < firstLine pipeC.dev 1 2
    ∧ overlayCovers (pipeC.dev.copyAt 0).desc 2 0 = false ∧ cfgWidth (pipeC.dev.versions.headD {}).cfg 2 = 4
    ∧ (let b := (List.range 4).map (fun i => pipeC.byte (0x20000000 + i)); recordExtent 4 8 (beAt b 0 4) = pipeRec.length)
    ∧ Reach pipeC 8 kindRead 0x20000000 pipeRec.length := by decide
theorem witness_PipelineAtBoundary_decode : decodeLine 4 8 [] false pipeRec = .inl [9, 9, 10, 200]
    ∧ decodeLine 4 8 [] false [1, 2, 0, 0] = .inr (1, 0) := by decide

/-- Plane 2 of `pipeD`, its source ENC[0] at 5 counts and 2^-6 counts a nanosecond; line 1 starts at 256 counts. -/
def asgW (l : List Slot) (h : Int) (v : Int) : State :=
  let s := pipeD [] { cursor := 1, issue := 5, next := 1, hwm := some h, slots := l } true
  let d := s.dev.put (F.ENC_CFG_SRC 0) 3
  { s with dev := d.setEnc 0 { valid := true, vx := 250, xh := 250 * 65536, vh := v, restart := false, x := 250, vt := 12000 * 65536 } }
def asgC (pg : Nat) : State :=
  let s := pipeD [] { slots := [] } false
  let d := (s.dev.put (shadowOf F.SCR_PASS_GROUP_M1) 3).put (shadowOf (F.LAYER_BG_LINES_LINES 2)) 77
  { s with dev := { d with armed := [(pg, some { mode := 3, target := none, source := 0, at_ := 0 })], nozSh := [(3, 5)] } }
theorem witness_AssignmentAndCapture : Ready (asgW [pipeSlot 1 3] 250 11184) ∧ QuietBeat (asgW [pipeSlot 1 3] 250 11184) 16000
    ∧ OnePlane (asgW [pipeSlot 1 3] 250 11184) ((asgW [pipeSlot 1 3] 250 11184).dev.versions.headD {}) 2
    ∧ (∀ q ∈ [pipeSlot 1 3], q.stage = 1 → q.line ≠ firstLine (asgW [pipeSlot 1 3] 250 11184).dev q.ord 2)
    ∧ inSeamStop (asgW [pipeSlot 1 3] 250 11184).dev 2 = false ∧ pitchOf (asgW [pipeSlot 1 3] 250 11184).dev 2 ≠ 0
    ∧ (asgW [pipeSlot 1 3] 250 11184).dev.get (F.LEV_STAT_REV 2) = 0 := by decide
theorem witness_AssignmentAndCapture_times :
    (effPlane ((asgW [pipeSlot 1 3] 250 11184).dev.elapse 16000) 2).isSome = true
    ∧ (250 : Int) < boundaryOf (asgW [pipeSlot 1 3] 250 11184).dev 2 1
    ∧ (match effPlane ((asgW [pipeSlot 1 3] 250 11184).dev.elapse 16000) 2 with
        | some k => decide (0 < k.vh) && decide (((asgW [pipeSlot 1 3] 250 11184).dev.get F.LEV_VMIN_VMIN : Int) ≤ k.vh)
            && decide (predictT (boundaryOf (asgW [pipeSlot 1 3] 250 11184).dev 2 1) k < ((((asgW [pipeSlot 1 3] 250 11184).dev.elapse 16000).beatStart 6 : Nat) : Int) * 65536)
        | none => false) = true
    ∧ (match effPlane ((asgW [pipeSlot 1 3] 250 7743).dev.elapse 16000) 2 with
        | some k => decide (0 < k.vh) && decide (((((asgW [pipeSlot 1 3] 250 7743).dev.elapse 16000).beatStart 6 : Nat) : Int) * 65536
            ≤ predictT (boundaryOf (asgW [pipeSlot 1 3] 250 7743).dev 2 1) k)
        | none => false) = true
    ∧ boundaryOf (asgW [pipeSlot 1 3] 256 11184).dev 2 1 ≤ 256
    ∧ (asgW [] 250 11184).dev.get (F.STORE_SEAM_STAT_STATE 2) = seamRun := by decide
theorem witness_AssignmentAndCapture_capture : Ready (asgC 0x0F) ∧ QuietBeat (asgC 0x0F) 16000 ∧ OnePlane (asgC 0x0F) ((asgC 0x0F).dev.versions.headD {}) 2
    ∧ pageFire 0x0F = true ∧ pageShadow 0x0F = true ∧ (asgC 0x0F).dev.get (F.LEV_STAT_REV 2) = 1 ∧ mayIssue (asgC 0x0F).dev 2 = true
    ∧ (asgC 0x0F).dev.cutoffDone ≤ ordOfLine (asgC 0x0F).dev 2 ((asgC 0x0F).dev.plane 2).issue
    ∧ (asgC 0x0F).dev.shAt ≠ ((asgC 0x0F).dev.now + 16000) / 2 + 1 := by decide

/-- Loop 3 free-running at every beat with a PI record (KP 1, KI 1/8, limits 0 to 100,000), its measurement on channel 2, output to PWM 7. -/
def loopBW (fresh : Bool) : State :=
  let s := mkState [(F.PG_CTL_EN 0x48, 1), (F.LOOP_FREE_EN 3, 1), (F.LOOP_CFG_MEAS_CH 3, 2), (F.LOOP_CFG_DEST 3, 1), (F.LOOP_CFG_PWM_SEL 3, 7),
    (F.LOOP_SP_SP 3, 50000), (F.ADC_DATA_VALUE 2, 1000), (F.LOOP_CFG_SAFE_EN 4, 1), (F.LOOP_SAFE_SAFE 4, 65536)]
  let cf : Cells Nat := (0, 0x00020000) :: [(1, 0x4000), (4, 0x80000000), (9, 0x80000000), (15, 100000)]
  let live := cf.map (fun e => (32 * 24 + e.1, if e.1 = 0 then 0x1FFFF else e.2))
  { s with dev := { s.dev with mot := { s.dev.mot with
      coefLive := live
      loops := [(3, { fresh := fresh, inSched := true, record := coefRecord live 3 0, i := if fresh then 0 else 2 ^ 40 }), (4, { inSched := true })]
      fin := [(1, [(300, 4), (100, 3)])] } } }
theorem witness_LoopBoundary : Ready (loopBW false) ∧ QuietBeat (loopBW false) 16000 ∧ (loopBW false).dev.armed = [] ∧ (loopBW false).dev.planActive = false
    ∧ (loopBW false).dev.get (F.PG_CTL_EN 0x48) = 1 ∧ 4 = ((loopBW false).dev.elapse 16000).beatNum ∧ loopDue (loopBW false).dev 3 4 = true
    ∧ loopDue (loopBW false).dev 5 4 = false ∧ ((loopBW false).dev.loop 5).inSched = loopIn (loopBW false).dev 5
    ∧ ((loopBW false).dev.loop 4).inSched = true ∧ loopIn (loopBW false).dev 4 = false
    ∧ (loopBW false).dev.get (F.LOOP_CFG_SP_SRC 3) = 0 ∧ (∀ j, j < 32 → j ≠ 3 → (loopBW false).dev.get (F.LOOP_CFG_DEST j) = 0) := by decide
theorem witness_LoopBoundary_sample : (let cf := coefRecord (loopBW false).dev.mot.coefLive 3 0
      recLo cf ≤ recHi cf ∧ recByp cf 4 = true ∧ recByp cf 9 = true ∧ bits (recW cf 16) 0 18 = 0 ∧ recK cf 2 = 0
      ∧ ((loopBW false).dev.loop 3).record = cf ∧ recLo cf ≤ ((loopBW false).dev.loop 3).outPrev ∧ ((loopBW false).dev.loop 3).outPrev ≤ recHi cf)
    ∧ cellGet [] (loopBW false).dev.mot.fin 1 = [(300, 4), (100, 3)] ∧ 4 ≤ 3 + 2 ^ (loopBW false).dev.get F.FIN_CFG_WIN1
    ∧ cellGet [] (loopBW false).dev.mot.fin 0 = [] ∧ (loopBW true).dev.loop 3 = { inSched := true, record := coefRecord (loopBW true).dev.mot.coefLive 3 0 } := by decide

/-- `fireW` with line 0 as the one line of a copy, its framed levels on port 5, and a print log in L2. -/
def launchW (rep state : Nat) : State :=
  let d := ((fireW.dev.put F.PLOG_BASE_LO_BASE 0x20000000).put F.PLOG_SIZE_SIZE 64).put (F.LEV_PITCH_PITCH 2) 0x1000000
  let d := d.put (F.STORE_SEAM_STAT_STATE 2) state
  { fireW with dev := { d with l2Ram := true, copies := [(0, { desc := { repeat_ := rep, tag := 0x1234567 }, torn := 4, seam := 2, reject := true })] } }
def armW (x h : Int) (causes : Nat) : Dev :=
  let s := asgW [] h 11184
  let d := (s.dev.setEnc 0 { s.dev.enc 0 with vx := x, x := x }).put (F.STORE_SEAM_STAT_STATE 2) 1
  ((d.put (F.STORE_SEAM_STAT_CAUSES 2) causes).put (F.ENC_STAT_UNCERTAIN 0) 0).setPlane 2 { hwm := some h, resume := 1, cursor := 1, encStop := true }
def verW (reef : Nat) : Dev :=
  { (mkState [(F.PLAN_STAY_EN, 1), (F.PLAN_STAY_RING_POS, 3)]).dev with insp := { vseq := 65535, hist := [(10, 2 + 4 * 2)] }, copies := [(0, { reef := reef })] }
def verF (dest : Nat) : CamFrame :=
  { ord := 0, regs := (((((Dev.reset.put (F.VIEW_HBASE_HBASE 1) 10).put F.VRD_CFG_CONFIRM 3).put F.VRD_CFG_REEF_HOLD 1).put (F.VIEW_CFG_DEST 1) dest)).regs }
theorem witness_LaunchCompletes : Ready (launchW 9 2) ∧ (launchW 9 2).dev.planActive = true
    ∧ ((launchW 9 2).dev.plane 2).assigns.find? (fun x => x.line == ((launchW 9 2).dev.plane 2).next) = some { line := 0, t := 0, late := false, seen := false }
    ∧ ((launchW 9 2).dev.plane 2).slots.find? (fun x => x.line == ((launchW 9 2).dev.plane 2).next && x.stage == 4) = some fireSlot
    ∧ cfgPorts (cfgFor (launchW 9 2).dev 0) 2 = [(5 : Fin 32).val] ∧ cfgGet (cfgFor (launchW 9 2).dev 0) (F.PLAN_HP_A_WAVE_EN 5) = 0
    ∧ schedulePending (launchW 9 2).dev 5 (b2n (bit (cfgVersion (launchW 9 2).dev 0).wset 5)) = false
    ∧ fireSlot.levels = [((5 : Fin 32).val, [1, 2])] ∧ (launchW 9 2).dev.get (F.STORE_SEAM_STAT_STATE 2) = seamRearmed
    ∧ fireSlot.line = ((launchW 9 2).dev.plane 2).resume ∧ LogReady (launchW 9 2) := by decide
theorem witness_LaunchCompletes_lines : (∀ o, o ≤ 2 → captured (launchW 900 2).dev o = true → 0 + 1 < firstLine (launchW 900 2).dev (o + 1) 2)
    ∧ firstLine (launchW 9 0).dev 1 2 ≤ 0 + 1 ∧ ((launchW 9 0).dev.copyAt 0).desc.repeat_ ≠ 0 ∧ (launchW 9 0).dev.get (F.STORE_SEAM_STAT_STATE 2) = seamRun
    ∧ cfgPlanes (cfgFor (launchW 9 0).dev 0) = [(2 : Fin 8).val] ∧ inReef (launchW 9 0).dev = false
    ∧ (∀ o, o ≤ 2 → o ≠ 0 → captured (launchW 9 0).dev o = true → bit ((launchW 9 0).dev.copyAt o).done 2 = true) := by decide
theorem witness_LaunchCompletes_rearm : (effPlane (armW (-801) (-800) 0) 2).isSome = true ∧ ((armW (-801) (-800) 0).plane 2).turn = 0 ∧ inSeamStop (armW (-801) (-800) 0) 2 = true
    ∧ ((armW (-801) (-800) 0).plane 2).hwm = some (-800) ∧ (-800 : Int) - (-801) ≤ (armW (-801) (-800) 0).get (F.LEV_CFG_HYST 2)
    ∧ (-800 : Int) ≤ boundaryOf (armW (-801) (-800) 0) 2 1 - backup (armW (-801) (-800) 0) 2 ∧ sourceUncertain (armW (-801) (-800) 0) (sourceInUse (armW (-801) (-800) 0) 2) = false
    ∧ (armW (-800) (-800) 4).get (F.STORE_SEAM_STAT_CAUSES 2) ≠ 0 := by decide
theorem witness_LaunchCompletes_verdict : cellGet 0 (verW 0).insp.hist ((verF 5).get (F.VIEW_HBASE_HBASE 1) + (0 - (verF 5).get (F.VIEW_X0_X 1))) = 2 + 4 * 2
    ∧ (verF 5).get F.VRD_CFG_CONFIRM = 3 ∧ (verF 5).get (F.VIEW_CFG_DEST 1) ≠ ringPos (verW 0) ∧ (verW 0).get F.PLAN_STAY_EN = 1
    ∧ (verF 3).get (F.VIEW_CFG_DEST 1) = ringPos (verW 1) ∧ (verF 3).get F.VRD_CFG_REEF_HOLD = 1 ∧ ((verW 1).copyAt 0).reef ≠ 0 := by decide

theorem witness_StepTakesTheFrontCommand : ({ State.reset with pending := [.planEnd 7] } : State).pending = .planEnd 7 :: []
    ∧ State.reset.pending = [] := by decide

theorem witness_EveryStepSettles : Settled State.reset ∧ step State.reset = .next State.reset := ⟨⟨rfl, rfl, rfl⟩, rfl⟩

def offW : State := { State.reset with dev := { Dev.reset with power := .standby } }
theorem witness_OffPhaseCommands : Settled offW ∧ offW.dev.power ≠ .run ∧ (∀ dt, Instr.planEnd 7 ≠ .ageingTick dt) :=
  ⟨by decide, by decide, fun _ => Instr.noConfusion⟩

theorem witness_MemoryForm : Memory.wf State.reset.dev ∧ step State.reset = .next State.reset := ⟨by decide, rfl⟩
theorem witness_MemoryForm_next : (match exec (.busTransaction 7 0 1 0x1000000000 4 9) State.reset with
    | .next t => decide (Memory.wf t.dev)
    | _ => false) = true := by decide

end Sys2Proof.Machine.Tests
end

namespace Sys2Proof.Machine

/-! ### A refused write of BOOT_RBK with ADV (R376, R420)

R420 adds PG_FAULT of page 0x5E to what a violation does when the write is one of BOOT_RBK with ADV. The frame that
`Obligations.BusTransactions` gives a transaction that is not permitted leaves that register out. -/

/-- The address of BOOT_RBK in the register window. -/
def rbkAddr : Nat := 0x40000000 + R.BOOT_RBK

/-- The reset state after the RIP's register requests (`mJtpRemote`, master 5, below Monitor level) have written BOOT_RBK
with TARGET 0 and ADV. -/
def resetAfterAdv : State :=
  settle State.reset (afterCommand (busTransaction 5 kindWrite rbkAddr 4 0x80 (State.reset.dev.elapse 0)))

/-- A transaction of a running block: what it does, what follows every command, and the end of the command. -/
theorem exec_busTransaction_run (dt : Nat) (m : Fin 48) (k : Fin 3) (a n v : Nat) (s : State) (h : s.dev.power = .run) :
    exec (.busTransaction dt m k a n v) s
      = .next (settle s (afterCommand (busTransaction m k a n v (s.dev.elapse dt)))) :=
  perform_run dt s (fun d => afterCommand (busTransaction m k a n v d)) h

/-- The write is a violation: the reset state is ready, master 5 issues transactions, and Shroud refuses it this one, which
reaches the RWM field TARGET (R5, R371). -/
theorem adv_refused_at_reset : Ready State.reset ∧ issues State.reset.dev 5 = true
    ∧ (shroudCheck State.reset.dev 5 kindWrite rbkAddr (kindWrite == 1 && reachesRwm rbkAddr 4)).1 = false := by decide

theorem reset_holds_no_fault : State.reset.dev.get (F.PG_FAULT_VALID 0x5E) = 0 := by decide

set_option maxRecDepth 4000 in
/-- The refused write captures a fault on page 0x5E (R420). -/
theorem adv_captures_fault : resetAfterAdv.dev.get (F.PG_FAULT_VALID 0x5E) = 1 := by decide

/-- Refutes O33: at reset, a write of BOOT_RBK with ADV by the RIP's register requests is a violation, and beside what R376
does it sets PG_FAULT of page 0x5E (R420), a register that the clause of refused transactions says is kept. -/
theorem not_busTransactions : ¬ Obligations.BusTransactions := by
  unfold Obligations.BusTransactions
  intro h
  obtain ⟨hready, hissues, hrefused⟩ := adv_refused_at_reset
  obtain ⟨memory, -⟩ := h 0 5 rbkAddr 4 0x80 0 State.reset hready (by decide) (by decide) (by decide)
  obtain ⟨-, -, -, -, -, -, refused⟩ := memory (.inl (by decide))
  obtain ⟨t, ht, -, -, -, -, -, -, kept, -⟩ := refused 1 (by decide) hissues (.inl (by decide)) hrefused
  have hexec := exec_busTransaction_run 0 5 1 rbkAddr 4 0x80 State.reset rfl
  obtain rfl : resetAfterAdv = t := Host.Outcome.next.inj (hexec.symm.trans ht)
  have same : resetAfterAdv.dev.get (F.PG_FAULT_VALID 0x5E) = State.reset.dev.get (F.PG_FAULT_VALID 0x5E) := by
    unfold Dev.get
    rw [kept (R.PG_FAULT 0x5E) (by decide)]
  rw [adv_captures_fault, reset_holds_no_fault] at same
  exact absurd same (by decide)

end Sys2Proof.Machine

section
/-! SUPPORT. What a command keeps: the registers outside a list, and the parts of the block that decide what follows every
command. A command that keeps them has the outcome that its own effect has. -/
namespace Sys2Proof.Machine

/-! ### Registers kept -/

/-- Every register of `d` but those at the byte offsets `l` reads the same in `e`. -/
def Kept (l : List Nat) (d e : Dev) : Prop := ∀ a, a ∉ l → e.reg a = d.reg a

namespace Kept
variable {l l' : List Nat} {d e f : Dev}

theorem refl (l : List Nat) (d : Dev) : Kept l d d := fun _ _ => rfl
theorem trans (h : Kept l d e) (g : Kept l e f) : Kept l d f := fun a ha => (g a ha).trans (h a ha)
theorem mono (h : Kept l d e) (hl : l ⊆ l') : Kept l' d e := fun a ha => h a (fun m => ha (hl m))
theorem of_regs (h : e.regs = d.regs) : Kept l d e := fun a _ => Dev.reg_congr e d h a
theorem reg_eq (h : Kept l d e) {a : Nat} (ha : a ∉ l) : e.reg a = d.reg a := h a ha
theorem get_eq (h : Kept l d e) {g : RegField} (hg : g.addr ∉ l) : e.get g = d.get g := by unfold Dev.get; rw [h _ hg]
theorem getB_eq (h : Kept l d e) {g : RegField} (hg : g.addr ∉ l) : e.getB g = d.getB g := by unfold Dev.getB; rw [h.get_eq hg]

theorem setReg (h : Kept l d e) {a : Nat} (w : Word) (ha : a ∈ l) : Kept l d (e.setReg a w) :=
  fun b hb => (Dev.reg_setReg_ne e a b w (fun x => hb (x ▸ ha))).trans (h b hb)
theorem put (h : Kept l d e) {g : RegField} (v : Nat) (hg : g.addr ∈ l) : Kept l d (e.put g v) := h.setReg _ hg
theorem count (h : Kept l d e) {g : RegField} (n : Nat) (hg : g.addr ∈ l) : Kept l d (e.count g n) := h.setReg _ hg
theorem ite {c : Prop} [Decidable c] (h : Kept l d e) (g : Kept l d f) : Kept l d (if c then e else f) := by split <;> assumption
end Kept

theorem pageSource_lt (p : Nat) : pageSource p < 512 := by
  unfold pageSource
  split
  · omega
  · split <;> omega

theorem Dev.routeOf_lt (d : Dev) (n : Nat) : d.routeOf n < 4 := Dev.get_lt d (F.EVT_ROUTE_CORE n)

/-- What rings the source of page `p` lies among the registers of a block event of the page. -/
theorem ringRegs_eventRegs {d : Dev} {p a : Nat} (h : ringRegs d (pageSource p) a) : a ∈ eventRegs p := by
  have hr := Dev.routeOf_lt d (pageSource p)
  unfold ringRegs at h
  unfold eventRegs
  generalize d.routeOf (pageSource p) = r at h hr
  rcases h with rfl | rfl
  · simp
  · interval_cases r <;> simp

/-- PG_EVT of a page is no register that rings a source. -/
theorem pgEvt_not_ring (d : Dev) (p q : Nat) : ¬ ringRegs d (pageSource p) (R.PG_EVT q) := by
  have hs := pageSource_lt p
  have hr := Dev.routeOf_lt d (pageSource p)
  unfold ringRegs
  simp only [R.PG_EVT, R.EVT_PEND, R.EVTC_CNT]
  omega

theorem Kept.raiseBits {l : List Nat} {d e : Dev} (h : Kept l d e) (p m : Nat) (hp : eventRegs p ⊆ l) : Kept l d (e.raiseBits p m) := by
  intro a ha
  have hev : a ∉ eventRegs p := fun x => ha (hp x)
  unfold Dev.raiseBits
  rw [Dev.reg_withSource _ _ _ _ (fun x => hev (ringRegs_eventRegs x)), Dev.reg_setReg_ne, h a ha]
  rintro rfl
  exact hev (by simp [eventRegs])

theorem Kept.raise {l : List Nat} {d e : Dev} (h : Kept l d e) (p k : Nat) (hp : eventRegs p ⊆ l) : Kept l d (e.raise p k) :=
  h.raiseBits p _ hp

/-- A block event sets its bits of PG_EVT and leaves the others. -/
theorem Dev.pgEvt_raiseBits (d : Dev) (p m : Nat) :
    (d.raiseBits p m).reg (R.PG_EVT p) = d.reg (R.PG_EVT p) ||| BitVec.ofNat 32 m := by
  unfold Dev.raiseBits
  rw [Dev.reg_withSource _ _ _ _ (pgEvt_not_ring _ p p), Dev.reg_setReg_same]

/-- Bit `k` of PG_EVT of page `p` is set in `d`. -/
abbrev Dev.evtSet (d : Dev) (p k : Nat) : Prop := bit (d.reg (R.PG_EVT p)).toNat k = true

theorem Dev.evtSet_raiseBits (d : Dev) (p k : Nat) (hk : k < 32) : (d.raiseBits p (2 ^ k)).evtSet p k := by
  rw [Dev.evtSet, Dev.pgEvt_raiseBits, bit, BitVec.toNat_or, Nat.testBit_or, BitVec.toNat_ofNat,
    Nat.mod_eq_of_lt (Nat.pow_lt_pow_right (by omega) hk), Nat.testBit_two_pow_self, Bool.or_true]

/-- A first page fault holds its code. -/
theorem Dev.pgFault_code (d : Dev) (p c o : Nat) (h : d.get (F.PG_FAULT_VALID p) = 0) (hc : c < 256) :
    (d.pgFault p c o).get (F.PG_FAULT_CODE p) = c := by
  have hne : R.PG_FAULT p ∉ eventRegs p := by
    have := pageSource_lt p
    simp only [eventRegs, R.PG_FAULT, R.PG_EVT, R.EVT_PEND, R.EVTC_CNT, List.mem_cons, List.not_mem_nil, or_false]
    omega
  unfold Dev.pgFault
  rw [if_neg (by simp [Dev.getB, h])]
  rw [((Kept.refl (eventRegs p) _).raiseBits p 1 (fun _ x => x)).get_eq hne]
  rw [Dev.get_put_apart _ _ _ _ (by simp) (.inl (by simp)), Dev.get_put_apart _ _ _ _ (by simp) (.inl (by simp)),
    Dev.get_put_apart _ _ _ _ (by simp) (.inr (.inr (by simp))), Dev.get_put_same _ _ _ (by simp)]
  exact Nat.mod_eq_of_lt hc

theorem Kept.pgFault {l : List Nat} {d e : Dev} (h : Kept l d e) (p c o : Nat) (hp : faultRegs p ⊆ l) : Kept l d (e.pgFault p c o) := by
  have h1 : R.PG_FAULT p ∈ l := hp (by simp [faultRegs])
  have h2 : R.PG_FAULT_INFO p ∈ l := hp (by simp [faultRegs])
  have h3 : eventRegs p ⊆ l := fun x hx => hp (by simp [faultRegs, hx])
  unfold Dev.pgFault
  exact .ite (h.put _ h1) ((((h.put _ h1).put _ h1).put _ h2).put _ h2 |>.raiseBits _ _ h3)

/-! ### What decides what follows a command -/

/-- `e` is `d` but for registers outside `l`, and but for what neither memory nor the end of a command depends on. -/
structure Calm (l : List Nat) (d e : Dev) : Prop where
  regs : Kept l d e
  dram : e.dram = d.dram
  l2 : e.l2 = d.l2
  sess : e.jtp.sess = d.jtp.sess
  banks : e.banks = d.banks
  regWrites : e.regWrites = d.regWrites
  sysReq : e.sysReq = d.sysReq
  burnReq : e.burnReq = d.burnReq

namespace Calm
variable {l l' : List Nat} {d e f : Dev}

theorem refl (l : List Nat) (d : Dev) : Calm l d d := ⟨.refl l d, rfl, rfl, rfl, rfl, rfl, rfl, rfl⟩
theorem trans (h : Calm l d e) (g : Calm l e f) : Calm l d f :=
  ⟨h.regs.trans g.regs, g.dram.trans h.dram, g.l2.trans h.l2, g.sess.trans h.sess, g.banks.trans h.banks,
    g.regWrites.trans h.regWrites, g.sysReq.trans h.sysReq, g.burnReq.trans h.burnReq⟩
theorem mono (h : Calm l d e) (hl : l ⊆ l') : Calm l' d e := { h with regs := h.regs.mono hl }
theorem of_onlyRegs (h : OnlyRegs d e) (k : Kept l d e) : Calm l d e := by
  obtain ⟨r, rfl⟩ := h
  exact ⟨k, rfl, rfl, rfl, rfl, rfl, rfl, rfl⟩
theorem setReg (h : Calm l d e) {a : Nat} (w : Word) (ha : a ∈ l) : Calm l d (e.setReg a w) :=
  h.trans (.of_onlyRegs (.setReg e a w) ((Kept.refl l e).setReg w ha))
theorem put (h : Calm l d e) {g : RegField} (v : Nat) (hg : g.addr ∈ l) : Calm l d (e.put g v) := h.setReg _ hg
theorem count (h : Calm l d e) {g : RegField} (n : Nat) (hg : g.addr ∈ l) : Calm l d (e.count g n) := h.setReg _ hg
theorem raiseBits (h : Calm l d e) (p m : Nat) (hp : eventRegs p ⊆ l) : Calm l d (e.raiseBits p m) :=
  h.trans (.of_onlyRegs (.raiseBits e p m) ((Kept.refl l e).raiseBits p m hp))
theorem raise (h : Calm l d e) (p k : Nat) (hp : eventRegs p ⊆ l) : Calm l d (e.raise p k) := h.raiseBits p _ hp
theorem pgFault (h : Calm l d e) (p c o : Nat) (hp : faultRegs p ⊆ l) : Calm l d (e.pgFault p c o) :=
  h.trans (.of_onlyRegs ⟨_, Dev.pgFault_frame e p c o⟩ ((Kept.refl l e).pgFault p c o hp))
theorem ite {c : Prop} [Decidable c] (h : Calm l d e) (g : Calm l d f) : Calm l d (if c then e else f) := by split <;> assumption
end Calm

/-- Nothing follows a command that leaves `d`: no register request, no stop of a cleated prefetch, no request of DRAM, no
write of an engine, no reset and no burning is due. -/
structure Quiet (d : Dev) : Prop where
  requests : regSession d = none
  cleat : (cleated d 8 && d.planActive) = false
  banks : d.banks = []
  regWrites : d.regWrites = []
  rate : (d.getB F.DRAMC_FCHG_BUSY && !d.getB F.DRAMC_STAT_SELFREF) = false
  sysReq : d.sysReq = none
  burnReq : d.burnReq = 0

theorem Quiet.of_ready {s : State} (h : Ready s) (dt : Nat) : Quiet (s.dev.elapse dt) := by
  obtain ⟨-, ⟨hs, hb, -⟩, hq, hc, hd, hw, hf⟩ := h
  exact ⟨hq, hc, hd, hw, hf, hs, hb⟩

theorem cleated_low {d e : Dev} (h : e.reg R.SHROUD_CLEAT_LO = d.reg R.SHROUD_CLEAT_LO) {m : Nat} (hm : m < 32) :
    cleated e m = cleated d m := by
  unfold cleated Dev.get; rw [if_pos hm, if_pos hm, h]

/-- The registers that the end of a command reads. -/
abbrev endRegs : List Nat := [R.SHROUD_CLEAT_LO, R.PLAN_CHK, R.DRAMC_FCHG, R.DRAMC_STAT]

theorem Quiet.of_calm {l : List Nat} {d e : Dev} (h : Quiet d) (k : Calm l d e) (hl : ∀ a ∈ endRegs, a ∉ l) : Quiet e where
  requests := by
    rw [regSession_congr e d k.sess (k.regs.getB_eq (hl _ (by simp)))]; exact h.requests
  cleat := by
    rw [quiet_congr d e (k.regs.get_eq (hl _ (by simp))) (cleated_low (k.regs.reg_eq (hl _ (by simp))) (by omega))]; exact h.cleat
  banks := k.banks.trans h.banks
  regWrites := k.regWrites.trans h.regWrites
  rate := by
    rw [k.regs.getB_eq (g := F.DRAMC_FCHG_BUSY) (hl _ (by simp)), k.regs.getB_eq (g := F.DRAMC_STAT_SELFREF) (hl _ (by simp))]
    exact h.rate
  sysReq := k.sysReq.trans h.sysReq
  burnReq := k.burnReq.trans h.burnReq

/-- The machine once a command that asks for no reset and no burning has left the block as `e`. -/
def State.after (s : State) (e : Dev) : State :=
  { dev := e.sent, fuses := s.fuses, wire := e.out ++ s.wire, pending := s.pending }

theorem perform_quiet {dt : Nat} {s : State} {f : Dev → Dev} (hr : s.dev.power = .run) (h : Quiet (f (s.dev.elapse dt))) :
    perform dt s (fun d => afterCommand (f d)) = .next (s.after (f (s.dev.elapse dt))) := by
  rw [perform_run _ _ _ hr, afterCommand_quiet _ h.requests h.cleat h.banks h.regWrites h.rate, settle_plain _ _ h.sysReq h.burnReq]
  rfl

@[simp] theorem State.after_reg (s : State) (e : Dev) (a : Nat) : (s.after e).dev.reg a = e.reg a := rfl
@[simp] theorem State.after_get (s : State) (e : Dev) (g : RegField) : (s.after e).dev.get g = e.get g := rfl

theorem memKept_of_same {s t : State} (h : t.dev.dram = s.dev.dram) (g : t.dev.l2 = s.dev.l2) : MemKept s t := by
  intro a; unfold State.byte; rw [h, g]

/-- A command whose effect keeps what the end of a command reads: it has that effect, and keeps what the effect keeps. -/
theorem perform_of_calm {dt : Nat} {s : State} {f : Dev → Dev} {l : List Nat} (h : Ready s)
    (k : Calm l (s.dev.elapse dt) (f (s.dev.elapse dt))) (hl : ∀ a ∈ endRegs, a ∉ l) :
    perform dt s (fun d => afterCommand (f d)) = .next (s.after (f (s.dev.elapse dt)))
      ∧ RegsKept l s (s.after (f (s.dev.elapse dt))) ∧ MemKept s (s.after (f (s.dev.elapse dt))) :=
  ⟨perform_quiet h.1 ((Quiet.of_ready h dt).of_calm k hl), k.regs, memKept_of_same k.dram k.l2⟩

end Sys2Proof.Machine
end

section
/-! SUPPORT. The commands of DRAM (R327 to R333, R337): what each does to the block, and what it keeps. -/
namespace Sys2Proof.Machine

theorem forN_succ {α : Type} (n : Nat) (f : Nat → α → α) (a : α) : forN (n + 1) f a = f n (forN n f a) := by
  unfold forN; rw [List.range_succ, List.foldl_append]; rfl

theorem Dev.getB_of_get_one {d : Dev} {f : RegField} (h : d.get f = 1) : d.getB f = true := by simp [Dev.getB, h]
theorem Dev.getB_of_get_zero {d : Dev} {f : RegField} (h : d.get f = 0) : d.getB f = false := by simp [Dev.getB, h]
theorem Dev.get_one_of_getB {d : Dev} {f : RegField} (hw : f.width = 1) (h : d.getB f = true) : d.get f = 1 := by
  have := Dev.get_lt d f
  simp only [Dev.getB, bne_iff_ne, ne_eq] at h
  rw [hw] at this
  omega

theorem toNat_setBits (w : Word) (lo n v : Nat) (h : lo + n ≤ 32) :
    (BitVec.ofNat 32 (setBits w.toNat lo n v)).toNat = setBits w.toNat lo n v := by
  rw [BitVec.toNat_ofNat, Nat.mod_eq_of_lt (setBits_lt _ _ _ _ _ w.isLt h)]

/-! ### Refresh, the rate poll, tracking and power-down -/

theorem dramRefresh_calm (rd : Nat) (d : Dev) : Calm [] d (dramRefresh rd d) := by
  unfold dramRefresh
  exact .ite (.refl _ _) (.ite ⟨.of_regs rfl, rfl, rfl, rfl, rfl, rfl, rfl, rfl⟩ ⟨.of_regs rfl, rfl, rfl, rfl, rfl, rfl, rfl, rfl⟩)

theorem dramRefresh_serving (rd : Nat) (d : Dev) (h : d.get F.DRAMC_STAT_READY = 1) :
    dramRefresh rd d =
      if (decide ((d.refsbCount + 1) % 16 = 0) && d.getB F.DPHY_CTL_TRACK_EN) = true then
        { ranksUsed d with
          refsbCount := d.refsbCount + 1
          eyes := cellSet 0 d.eyes d.trackLane (BitVec.ofNat 32 (setBits (cellGet 0 d.eyes d.trackLane).toNat 0 8 rd))
          trackLane := (d.trackLane + 1) % (if d.getB F.DRAMC_CFG_RANKS then 20 else 10) }
      else { ranksUsed d with refsbCount := d.refsbCount + 1 } := by
  unfold dramRefresh
  rw [if_neg (by simp [Dev.getB_of_get_one h])]
  rfl

theorem dramRefresh_counts (rd : Nat) (d : Dev) (h : d.get F.DRAMC_STAT_READY = 1) :
    (dramRefresh rd d).refsbCount = d.refsbCount + 1 := by
  rw [dramRefresh_serving rd d h]; split <;> rfl

/-- A sixteenth window, with tracking, recentres the lane whose turn it is. -/
theorem dramRefresh_recentres (rd : Nat) (d : Dev) (h : d.get F.DRAMC_STAT_READY = 1) (h16 : (d.refsbCount + 1) % 16 = 0)
    (ht : d.get F.DPHY_CTL_TRACK_EN = 1) :
    (dramRefresh rd d).eyes = cellSet 0 d.eyes d.trackLane
        (BitVec.ofNat 32 (setBits (cellGet 0 d.eyes d.trackLane).toNat 0 8 rd))
      ∧ (dramRefresh rd d).trackLane = (d.trackLane + 1) % (if d.get F.DRAMC_CFG_RANKS = 1 then 20 else 10) := by
  have hr : (d.getB F.DRAMC_CFG_RANKS = true) = (d.get F.DRAMC_CFG_RANKS = 1) := by
    rw [eq_iff_iff]
    exact ⟨Dev.get_one_of_getB rfl, Dev.getB_of_get_one⟩
  rw [dramRefresh_serving rd d h, if_pos (by simp [h16, Dev.getB_of_get_one ht])]
  exact ⟨rfl, by simp only [hr]⟩

/-- Any other window moves no eye. -/
theorem dramRefresh_keeps_eyes (rd : Nat) (d : Dev) (h : d.get F.DRAMC_STAT_READY = 1)
    (hn : ¬((d.refsbCount + 1) % 16 = 0 ∧ d.get F.DPHY_CTL_TRACK_EN = 1)) : (dramRefresh rd d).eyes = d.eyes := by
  rw [dramRefresh_serving rd d h, if_neg]
  · rfl
  · intro hc
    rw [Bool.and_eq_true, decide_eq_true_eq] at hc
    exact hn ⟨hc.1, Dev.get_one_of_getB rfl hc.2⟩

theorem dramRatePoll_serving (hot : Bool) (d : Dev) (h : d.get F.DRAMC_STAT_READY = 1) :
    dramRatePoll hot d = (ranksUsed d).putB F.DRAMC_STAT_HOT hot := by
  unfold dramRatePoll
  rw [Dev.getB_of_get_one h]
  rfl

/-- The write delays of the first `n` lanes of rank `rank` moved by `delta`. -/
theorem dramTrack_fold (rank n : Nat) (delta : Int) (d : Dev) :
    ∃ m, forN n (fun l (e : Dev) =>
        let k := 10 * rank + l
        let w := (cellGet 0 e.eyes k).toNat
        { e with eyes := cellSet 0 e.eyes k (BitVec.ofNat 32 (setBits w 16 8 (ofSigned 8 ((bits w 16 8 : Int) + delta)))) }) d
        = { d with eyes := m }
      ∧ ∀ k, (10 * rank ≤ k ∧ k < 10 * rank + n →
            (bits (cellGet 0 m k).toNat 16 8 : Int) = ((bits (cellGet 0 d.eyes k).toNat 16 8 : Int) + delta) % 256)
          ∧ (¬(10 * rank ≤ k ∧ k < 10 * rank + n) → cellGet 0 m k = cellGet 0 d.eyes k) := by
  induction n with
  | zero => exact ⟨d.eyes, rfl, fun k => ⟨fun h => by omega, fun _ => rfl⟩⟩
  | succ n ih =>
    obtain ⟨m, hm, hk⟩ := ih
    rw [forN_succ, hm]
    refine ⟨_, rfl, fun k => ?_⟩
    by_cases hkn : k = 10 * rank + n
    · subst hkn
      have hold := (hk (10 * rank + n)).2 (by omega)
      refine ⟨fun _ => ?_, fun h => by omega⟩
      dsimp only
      rw [cellGet_cellSet_same, toNat_setBits _ _ _ _ (by omega), bits_setBits, hold]
      unfold ofSigned
      omega
    · dsimp only
      rw [cellGet_cellSet_ne _ _ _ _ _ _ hkn]
      exact ⟨fun h => (hk k).1 (by omega), fun h => (hk k).2 (by omega)⟩

/-- Tracking moves the write delay of the ten lanes of the rank by the drift, and nothing else. -/
theorem dramTrack_serving (rank : Nat) (delta : Int) (d : Dev) (h : d.get F.DRAMC_STAT_READY = 1)
    (ht : d.get F.DPHY_CTL_TRACK_EN = 1) :
    ∃ m, dramTrack rank delta d = { d with rankUsed := cellSet 0 d.rankUsed rank d.now, eyes := m }
      ∧ ∀ k, (10 * rank ≤ k ∧ k < 10 * rank + 10 →
            (bits (cellGet 0 m k).toNat 16 8 : Int) = ((bits (cellGet 0 d.eyes k).toNat 16 8 : Int) + delta) % 256)
          ∧ (¬(10 * rank ≤ k ∧ k < 10 * rank + 10) → cellGet 0 m k = cellGet 0 d.eyes k) := by
  obtain ⟨m, hm, hk⟩ := dramTrack_fold rank 10 delta { d with rankUsed := cellSet 0 d.rankUsed rank d.now }
  refine ⟨m, ?_, hk⟩
  unfold dramTrack
  rw [Dev.getB_of_get_one h, Dev.getB_of_get_one ht]
  exact hm

theorem dramPowerDown_idle (rank : Nat) (d : Dev) (hp : d.get F.DRAMC_PD_PD_EN = 1) (h : d.get F.DRAMC_STAT_READY = 1)
    (hi : cellGet 0 d.rankUsed rank + d.get F.DRAMC_PD_PD_IDLE * 10 ≤ d.now) :
    dramPowerDown rank d = { d with rankDown := setBit d.rankDown rank } := by
  unfold dramPowerDown
  rw [Dev.getB_of_get_one h, Dev.getB_of_get_one hp, if_pos]
  simpa using hi

theorem bit_setBit (x i j : Nat) : bit (setBit x i) j = (bit x j || decide (j = i)) := by
  unfold bit setBit
  rw [Nat.testBit_or, Nat.testBit_two_pow]
  simp [eq_comm]

/-! ### Training -/

theorem putEyes_cons (w : Word) (es : List Word) (k : Nat) (d : Dev) :
    (((w :: es).foldl (fun (p : Nat × Dev) w => (p.1 + 1, { p.2 with eyes := cellSet 0 p.2.eyes p.1 w })) (k, d)).2 : Dev)
      = (es.foldl (fun (p : Nat × Dev) w => (p.1 + 1, { p.2 with eyes := cellSet 0 p.2.eyes p.1 w }))
          (k + 1, { d with eyes := cellSet 0 d.eyes k w })).2 := rfl

theorem putEyes_fold (es : List Word) (k : Nat) (d : Dev) :
    ∃ m, (es.foldl (fun (p : Nat × Dev) w => (p.1 + 1, { p.2 with eyes := cellSet 0 p.2.eyes p.1 w })) (k, d)).2
        = { d with eyes := m }
      ∧ (∀ i, i < es.length → cellGet 0 m (k + i) = es.getD i 0)
      ∧ ∀ i, i < k ∨ k + es.length ≤ i → cellGet 0 m i = cellGet 0 d.eyes i := by
  induction es generalizing k d with
  | nil => exact ⟨d.eyes, rfl, fun i h => by simp at h, fun _ _ => rfl⟩
  | cons w es ih =>
    rw [putEyes_cons]
    obtain ⟨m, hm, hin, hout⟩ := ih (k + 1) { d with eyes := cellSet 0 d.eyes k w }
    refine ⟨m, hm, fun i hi => ?_, fun i hi => ?_⟩
    · cases i with
      | zero => rw [hout _ (by omega)]; simp [cellGet_cellSet_same]
      | succ i =>
        rw [show k + (i + 1) = k + 1 + i by omega, hin i (by simpa using hi)]
        rfl
    · simp only [List.length_cons] at hi
      rw [hout _ (by omega)]
      exact cellGet_cellSet_ne _ _ _ _ _ _ (by omega)

/-- The eyes found by training stand lane by lane, the other lanes' as before. -/
theorem putEyes_spec (es : List Word) (d : Dev) :
    ∃ m, putEyes es d = { d with eyes := m }
      ∧ (∀ i, i < es.length → cellGet 0 m i = es.getD i 0) ∧ ∀ i, es.length ≤ i → cellGet 0 m i = cellGet 0 d.eyes i := by
  obtain ⟨m, hm, hin, hout⟩ := putEyes_fold es 0 d
  exact ⟨m, hm, fun i hi => by simpa using hin i hi, fun i hi => hout i (by omega)⟩

theorem dramHold_calm {l : List Nat} {d e : Dev} (h : Calm l d e) (v : Bool) : Calm l d (dramHold v e) := by
  unfold dramHold
  exact .ite h (h.trans ⟨.of_regs rfl, rfl, rfl, rfl, rfl, rfl, rfl, rfl⟩)

@[simp] theorem dramHold_get (v : Bool) (d : Dev) (f : RegField) : (dramHold v d).get f = d.get f := by
  unfold dramHold; split <;> rfl

/-- A training that may start is at stage 1. -/
theorem dramTrain_starts (d : Dev) (hp : d.planActive = false) (h : d.get F.DRAMC_STAT_READY = 0) :
    dramTrain d = { dramHold false ((d.put F.DPHY_STAT_STAGE 1).put F.DPHY_STAT_FAIL 0) with training := true } := by
  unfold dramTrain
  rw [hp, Dev.getB_of_get_zero h]
  rfl

theorem dramTrain_refused (d : Dev) (h : d.planActive = true ∨ d.get F.DRAMC_STAT_READY = 1) :
    dramTrain d = d.refuseAt R.DPHY_CTL := by
  unfold dramTrain
  rw [if_pos]
  rcases h with h | h
  · simp [h]
  · simp [Dev.getB_of_get_one h]

end Sys2Proof.Machine
end

section
/-! SUPPORT. The commands of DRAM, continued: training's end, and the change of rate (R328, R330). -/
namespace Sys2Proof.Machine

/-- The same where the command changes what the end of a command reads, and leaves it quiet all the same. -/
theorem perform_of_quiet {dt : Nat} {s : State} {f : Dev → Dev} {l : List Nat} (h : Ready s)
    (k : Calm l (s.dev.elapse dt) (f (s.dev.elapse dt))) (q : Quiet (f (s.dev.elapse dt))) :
    perform dt s (fun d => afterCommand (f d)) = .next (s.after (f (s.dev.elapse dt)))
      ∧ RegsKept l s (s.after (f (s.dev.elapse dt))) ∧ MemKept s (s.after (f (s.dev.elapse dt))) :=
  ⟨perform_quiet h.1 q, k.regs, memKept_of_same k.dram k.l2⟩

/-- A change that keeps the cleats, the plan and BUSY of DRAM's change of rate, and leaves no change that has still to reach
self-refresh, leaves the block quiet. -/
theorem Quiet.of_calm_rate {l : List Nat} {d e : Dev} (h : Quiet d) (k : Calm l d e) (hc : R.SHROUD_CLEAT_LO ∉ l)
    (hp : R.PLAN_CHK ∉ l) (hs : regSession e = none)
    (hr : (e.getB F.DRAMC_FCHG_BUSY && !e.getB F.DRAMC_STAT_SELFREF) = false) : Quiet e where
  requests := hs
  cleat := by rw [quiet_congr d e (k.regs.get_eq hp) (cleated_low (k.regs.reg_eq hc) (by omega))]; exact h.cleat
  banks := k.banks.trans h.banks
  regWrites := k.regWrites.trans h.regWrites
  rate := hr
  sysReq := k.sysReq.trans h.sysReq
  burnReq := k.burnReq.trans h.burnReq

theorem Calm.putEyes {l : List Nat} {d e : Dev} (h : Calm l d e) (es : List Word) : Calm l d (putEyes es e) := by
  obtain ⟨m, hm, -⟩ := putEyes_spec es e
  rw [hm]
  exact h.trans ⟨.of_regs rfl, rfl, rfl, rfl, rfl, rfl, rfl, rfl⟩

theorem Calm.ranksUsed {l : List Nat} {d e : Dev} (h : Calm l d e) : Calm l d (ranksUsed e) :=
  h.trans ⟨.of_regs rfl, rfl, rfl, rfl, rfl, rfl, rfl, rfl⟩

/-! ### The end of training -/

/-- The block once every lane has passed, but for the registers: the results are stored and stand in the lanes. -/
def trainedDev (es : List Word) (d : Dev) : Dev :=
  ranksUsed (putEyes es (storeTrained (d.get F.DRAMC_FCHG_RATE) es { d with training := false }))

theorem trainedDev_calm (es : List Word) (d : Dev) : Calm [] d (trainedDev es d) :=
  have h : Calm [] d (storeTrained (d.get F.DRAMC_FCHG_RATE) es { d with training := false }) :=
    ⟨.of_regs rfl, rfl, rfl, rfl, rfl, rfl, rfl, rfl⟩
  (h.putEyes es).ranksUsed

theorem trainedDev_eyes (es : List Word) (d : Dev) (i : Nat) (hi : i < es.length) :
    cellGet 0 (trainedDev es d).eyes i = es.getD i 0 := by
  obtain ⟨m, hm, hin, -⟩ := putEyes_spec es (storeTrained (d.get F.DRAMC_FCHG_RATE) es { d with training := false })
  unfold trainedDev
  rw [hm]
  exact hin i hi

theorem trainedDev_training (es : List Word) (d : Dev) : (trainedDev es d).training = false := by
  obtain ⟨m, hm, -⟩ := putEyes_spec es (storeTrained (d.get F.DRAMC_FCHG_RATE) es { d with training := false })
  unfold trainedDev
  rw [hm]
  rfl

/-- Training has passed: DRAM is ready, with its capacity. -/
theorem dramTrainDone_passed (es : List Word) (d : Dev) (h : d.training = true) :
    dramTrainDone none es d =
      (((((trainedDev es d).put F.DPHY_STAT_STAGE 7).put F.DPHY_STAT_FAIL 0).put F.DRAMC_STAT_READY 1).put F.DRAMC_STAT_CAP
        (dramCapGb (d.get F.DRAMC_CFG_RANKS) (d.get F.DRAMC_CFG_WIDTH) (d.get F.DRAMC_CFG_DENS))).put F.CLK_STAT_LOCK_D 1 := by
  have hk (f : RegField) (hf : Apart F.DRAMC_STAT_READY f ∧ Apart F.DPHY_STAT_FAIL f ∧ Apart F.DPHY_STAT_STAGE f) :
      ((((trainedDev es d).put F.DPHY_STAT_STAGE 7).put F.DPHY_STAT_FAIL 0).put F.DRAMC_STAT_READY 1).get f = d.get f := by
    rw [Dev.get_put_apart _ _ _ _ (by decide) hf.1, Dev.get_put_apart _ _ _ _ (by decide) hf.2.1,
      Dev.get_put_apart _ _ _ _ (by decide) hf.2.2]
    exact (trainedDev_calm es d).regs.get_eq (by simp)
  rw [← hk F.DRAMC_CFG_RANKS (by decide), ← hk F.DRAMC_CFG_WIDTH (by decide), ← hk F.DRAMC_CFG_DENS (by decide)]
  unfold dramTrainDone
  rw [if_neg (by simp [h])]
  rfl

/-- Training has failed in stage `st` on lane `lane`. -/
theorem dramTrainDone_failed (st lane : Nat) (es : List Word) (d : Dev) (h : d.training = true) :
    dramTrainDone (some (st, lane)) es d =
      ((({ d with training := false } : Dev).put F.DPHY_STAT_STAGE st).put F.DPHY_STAT_FAIL 1).put F.DPHY_STAT_LANE lane := by
  unfold dramTrainDone
  rw [if_neg (by simp [h])]

/-! ### The change of rate -/

theorem planActive_eq (d : Dev) : d.planActive = d.getB F.PLAN_CHK_ACTIVE := rfl

/-- A change asked for under a plan answers RESULT 1. -/
theorem dramFchg_under_plan (t : Nat) (d : Dev) (ht : t ≤ 4) (hp : d.planActive = true) :
    dramFchg t d = (d.put F.DRAMC_FCHG_TARGET t).put F.DRAMC_FCHG_RESULT 1 := by
  unfold dramFchg
  rw [if_neg (by omega), if_pos]
  rw [planActive_eq, Dev.getB_put_apart _ _ _ _ (by decide) (by decide)]
  exact hp

theorem dramRun_idle (d : Dev) (h : d.banks = []) :
    dramRun d = if (d.getB F.DRAMC_FCHG_BUSY && !d.getB F.DRAMC_STAT_SELFREF) = true then selfRefresh d else d := by
  unfold dramRun; simp [h]

theorem Calm.selfRefresh {l : List Nat} {d e : Dev} (h : Calm l d e) (hs : R.DRAMC_STAT ∈ l) (hc : R.CLK_STAT ∈ l) :
    Calm l d (selfRefresh e) := by
  have k := (h.put (g := F.DRAMC_STAT_SELFREF) 1 hs).put (g := F.CLK_STAT_LOCK_D) 0 hc
  exact ⟨k.regs, k.dram, k.l2, k.sess, k.banks, k.regWrites, k.sysReq, k.burnReq⟩

theorem selfRefresh_get (d : Dev) (f : RegField) (h : f.addr = R.DRAMC_FCHG) : (selfRefresh d).get f = d.get f :=
  (Dev.get_put_apart (d.put F.DRAMC_STAT_SELFREF 1) F.CLK_STAT_LOCK_D f 0 (by decide) (.inl (by rw [h]; decide))).trans
    (Dev.get_put_apart d F.DRAMC_STAT_SELFREF f 1 (by decide) (.inl (by rw [h]; decide)))

theorem selfRefresh_selfref (d : Dev) : (selfRefresh d).get F.DRAMC_STAT_SELFREF = 1 :=
  (Dev.get_put_apart (d.put F.DRAMC_STAT_SELFREF 1) F.CLK_STAT_LOCK_D F.DRAMC_STAT_SELFREF 0 (by decide) (by decide)).trans
    (Dev.get_put_same _ _ _ (by decide))

/-- The block with the change to rate `t` asked for. -/
def rateAsked (t : Nat) (d : Dev) : Dev := (d.put F.DRAMC_FCHG_TARGET t).put F.DRAMC_FCHG_BUSY 1

/-- The block as a change to rate `t` begins, with no request to complete: in self-refresh. -/
def rateChanging (t : Nat) (d : Dev) : Dev :=
  if (rateAsked t d).getB F.DRAMC_STAT_SELFREF = true then rateAsked t d else selfRefresh (rateAsked t d)

theorem rateAsked_busy (t : Nat) (d : Dev) : (rateAsked t d).get F.DRAMC_FCHG_BUSY = 1 := Dev.get_put_same _ _ _ (by decide)

theorem dramFchg_begins (t : Nat) (d : Dev) (ht : t ≤ 4) (hp : d.planActive = false) (hb : d.get F.DRAMC_FCHG_BUSY = 0)
    (hr : d.get F.DRAMC_STAT_READY = 1) (hk : d.banks = []) : dramFchg t d = rateChanging t d := by
  have hrun : dramRun (rateAsked t d) = rateChanging t d := by
    rw [dramRun_idle (rateAsked t d) hk, Dev.getB_of_get_one (rateAsked_busy t d), rateChanging]
    cases (rateAsked t d).getB F.DRAMC_STAT_SELFREF <;> rfl
  rw [← hrun]
  unfold dramFchg
  rw [if_neg (by omega), if_neg, if_neg]
  · rfl
  · rw [Dev.getB_put_apart _ _ _ _ (by decide) (by decide), Dev.getB_put_apart _ _ _ _ (by decide) (by decide),
      Dev.getB_of_get_zero hb, Dev.getB_of_get_one hr]
    decide
  · rw [planActive_eq, Dev.getB_put_apart _ _ _ _ (by decide) (by decide), ← planActive_eq, hp]
    decide

theorem rateChanging_calm (t : Nat) (d : Dev) : Calm [R.DRAMC_FCHG, R.DRAMC_STAT, R.CLK_STAT] d (rateChanging t d) := by
  have h : Calm [R.DRAMC_FCHG, R.DRAMC_STAT, R.CLK_STAT] d (rateAsked t d) :=
    ((Calm.refl _ d).put _ (by simp)).put _ (by simp)
  exact .ite h (h.selfRefresh (by simp) (by simp))

theorem rateChanging_selfref (t : Nat) (d : Dev) : (rateChanging t d).get F.DRAMC_STAT_SELFREF = 1 := by
  unfold rateChanging
  split
  · exact Dev.get_one_of_getB rfl ‹_›
  · exact selfRefresh_selfref _

/-- The beginning of a change leaves DRAMC_FCHG as the writes of TARGET and BUSY make it. -/
theorem rateChanging_get (t : Nat) (d : Dev) (f : RegField) (h : f.addr = R.DRAMC_FCHG) :
    (rateChanging t d).get f = (rateAsked t d).get f := by
  unfold rateChanging
  split
  · rfl
  · exact selfRefresh_get _ f h

/-- No session has a register request next while DRAM changes its rate, if none has one without. -/
theorem regSession_busy {d e : Dev} (h : regSession d = none) (hs : e.jtp.sess = d.jtp.sess)
    (hd : d.getB F.DRAMC_FCHG_BUSY = false) : regSession e = none := by
  unfold regSession at h ⊢
  rw [List.find?_eq_none] at h ⊢
  intro n hn
  have := h n hn
  rw [show e.sess n = d.sess n by unfold Dev.sess; rw [hs]]
  rw [hd] at this
  cases ht : (d.sess n).todo with
  | nil => simp
  | cons m l => simp_all

end Sys2Proof.Machine
end

section
/-! SUPPORT. What an access of DRAM touches beside the bytes: the banks and what row protection keeps (R325, R331, R333). -/
namespace Sys2Proof.Machine

/-- `e` is `d` but for the schedule of DRAM and for the registers of row protection. -/
structure DramTouch (d e : Dev) : Prop where
  frame : ∃ r b la th ro rd ru, e =
    { d with regs := r, banks := b, lastAct := la, throttled := th, rows := ro, rankDown := rd, rankUsed := ru }
  regs : Kept memRegs d e

namespace DramTouch
variable {d e f : Dev}

theorem refl (d : Dev) : DramTouch d d := ⟨⟨_, _, _, _, _, _, _, rfl⟩, .refl _ d⟩
theorem trans (h : DramTouch d e) (g : DramTouch e f) : DramTouch d f := by
  obtain ⟨⟨_, _, _, _, _, _, _, rfl⟩, k⟩ := h
  obtain ⟨⟨_, _, _, _, _, _, _, rfl⟩, k'⟩ := g
  exact ⟨⟨_, _, _, _, _, _, _, rfl⟩, k.trans k'⟩
theorem ite {c : Prop} [Decidable c] (h : DramTouch d e) (g : DramTouch d f) : DramTouch d (if c then e else f) := by
  split <;> assumption
theorem of_onlyRegs (h : OnlyRegs d e) (k : Kept memRegs d e) : DramTouch d e := by
  obtain ⟨r, rfl⟩ := h
  exact ⟨⟨_, _, _, _, _, _, _, rfl⟩, k⟩
theorem put (h : DramTouch d e) {g : RegField} (v : Nat) (hg : g.addr ∈ memRegs) : DramTouch d (e.put g v) :=
  h.trans (.of_onlyRegs (.put e g v) ((Kept.refl _ e).put v hg))
theorem count (h : DramTouch d e) {g : RegField} (n : Nat) (hg : g.addr ∈ memRegs) : DramTouch d (e.count g n) := h.put _ hg
theorem raise (h : DramTouch d e) (k : Nat) : DramTouch d (e.raise 0x50 k) :=
  h.trans (.of_onlyRegs (.raiseBits e 0x50 _) ((Kept.refl _ e).raiseBits 0x50 _ (by simp [memRegs])))

theorem sess (h : DramTouch d e) : e.jtp.sess = d.jtp.sess := by obtain ⟨⟨_, _, _, _, _, _, _, rfl⟩, -⟩ := h; rfl
theorem dram (h : DramTouch d e) : e.dram = d.dram := by obtain ⟨⟨_, _, _, _, _, _, _, rfl⟩, -⟩ := h; rfl
theorem l2 (h : DramTouch d e) : e.l2 = d.l2 := by obtain ⟨⟨_, _, _, _, _, _, _, rfl⟩, -⟩ := h; rfl
theorem regWrites (h : DramTouch d e) : e.regWrites = d.regWrites := by obtain ⟨⟨_, _, _, _, _, _, _, rfl⟩, -⟩ := h; rfl
theorem sysReq (h : DramTouch d e) : e.sysReq = d.sysReq := by obtain ⟨⟨_, _, _, _, _, _, _, rfl⟩, -⟩ := h; rfl
theorem burnReq (h : DramTouch d e) : e.burnReq = d.burnReq := by obtain ⟨⟨_, _, _, _, _, _, _, rfl⟩, -⟩ := h; rfl
end DramTouch

theorem dramActivate_touch (m b r : Nat) (d : Dev) : DramTouch d (dramActivate m b r d) := by
  unfold dramActivate
  extract_lets d1 mine rest n others low others2 d2 d3 d4
  have h1 : DramTouch d d1 := ⟨⟨_, _, _, _, _, _, _, rfl⟩, .of_regs rfl⟩
  have h2 (x : List RowCount) : DramTouch d { d1 with rows := x } := h1.trans ⟨⟨_, _, _, _, _, _, _, rfl⟩, .of_regs rfl⟩
  have h3 : DramTouch d d3 := .ite (h2 _) ((h2 _).trans ⟨⟨_, _, _, _, _, _, _, rfl⟩, .of_regs rfl⟩)
  have h4 : DramTouch d d4 := (h3.put _ (by simp [memRegs])).count _ (by simp [memRegs])
  exact .ite (h2 _) ((h4.put _ (by simp [memRegs])).raise 1)

theorem dramServe_touch (b : Nat) (r : DramReq) (d : Dev) : DramTouch d (dramServe b r d) := by
  unfold dramServe
  extract_lets x o y z rank d1 d2
  have h : DramTouch d d2 := ⟨⟨_, _, _, _, _, _, _, rfl⟩, .of_regs rfl⟩
  exact .ite h (h.trans (dramActivate_touch _ _ _ _))

theorem dramServeAll_touch (n sub : Nat) (d : Dev) : DramTouch d (dramServeAll n sub d) := by
  induction n generalizing d with
  | zero => exact .refl d
  | succ n ih =>
    unfold dramServeAll
    split
    · exact .refl d
    · exact (dramServe_touch _ _ _).trans (ih _)

theorem dramPlace_touch (n b : Nat) (d : Dev) : DramTouch d (dramPlace n b d) := by
  induction n generalizing d with
  | zero => exact .refl d
  | succ n ih =>
    unfold dramPlace
    refine .ite (.refl d) ?_
    split
    · exact .refl d
    · exact (dramServe_touch _ _ _).trans (ih _)

theorem dramAccept_touch (m a : Nat) (w : Bool) (d : Dev) : DramTouch d (dramAccept m a w d) := by
  unfold dramAccept
  extract_lets br d1 x y
  have h : DramTouch d d1 := .ite (dramPlace_touch _ _ d) (.refl d)
  exact h.trans ⟨⟨_, _, _, _, _, _, _, rfl⟩, .of_regs rfl⟩

/-- DRAM serves what it may; where no change of rate has still to reach self-refresh, that is all. -/
theorem dramRun_touch (d : Dev) (h : (d.getB F.DRAMC_FCHG_BUSY && !d.getB F.DRAMC_STAT_SELFREF) = false) :
    DramTouch d (dramRun d) := by
  unfold dramRun
  extract_lets d1 d2
  have h1 : DramTouch d d1 := .ite ⟨⟨_, _, _, _, _, _, _, rfl⟩, .of_regs rfl⟩ (.refl d)
  have h2 : DramTouch d d2 :=
    .ite (.refl d) (h1.trans ((dramServeAll_touch _ 0 d1).trans (dramServeAll_touch _ 1 _)))
  rw [if_neg]
  · exact h2
  · rw [h2.regs.getB_eq (g := F.DRAMC_FCHG_BUSY) (by decide), h2.regs.getB_eq (g := F.DRAMC_STAT_SELFREF) (by decide), h,
      Bool.false_and]
    exact Bool.false_ne_true

/-- A read of memory by a master that Shroud has permitted, where DRAM serves it or L2 or nothing answers. -/
theorem engineRead1_touch (m a n : Nat) (d : Dev) (hc : cleated d m = false) (hs : (shroudCheck d m kindRead a false).1 = true)
    (hm : (inDram a && !dramServes d a) = false) (hw : regOffset a = none) : DramTouch d (engineRead1 m a n d).2 := by
  unfold engineRead1
  rw [if_neg (by simp [hc])]
  simp only [hs, if_true]
  unfold targetRead
  rw [hw]
  split
  · rw [if_pos (by simp_all)]
    exact dramAccept_touch _ _ _ _
  · split
    · exact .refl d
    · split
      · exact .refl d
      · exact .refl d

/-! ### The scrubber -/

/-- Nothing but DRAM's schedule follows a command that leaves `d`. -/
theorem afterCommand_dram (d : Dev) (hq : regSession d = none) (hw : d.regWrites = [])
    (hc : (cleated d 8 && d.planActive) = false) (hf : (d.getB F.DRAMC_FCHG_BUSY && !d.getB F.DRAMC_STAT_SELFREF) = false) :
    afterCommand d = dramRun d := by
  have t := dramRun_touch d hf
  unfold afterCommand
  simp only
  rw [regWritesRun_none _ hw, jtpDrain_none _ _ hq, cleatSeam_none]
  rw [quiet_congr d _ (t.regs.get_eq (by decide)) (cleated_low (t.regs.reg_eq (by decide)) (by omega))]
  exact hc

/-- A command of a ready block that changes no register, no memory and nothing that the end of a command reads, but for
DRAM's schedule: its outcome keeps all but the registers of row protection. -/
theorem perform_of_touch {dt : Nat} {s : State} {f : Dev → Dev} {d : Dev} (h : Ready s) (c : Calm [] (s.dev.elapse dt) d)
    (k : DramTouch d (f (s.dev.elapse dt))) :
    ∃ e, DramTouch (f (s.dev.elapse dt)) e
      ∧ perform dt s (fun d => afterCommand (f d)) = .next (s.after e)
      ∧ RegsKept memRegs s (s.after e) ∧ MemKept s (s.after e) := by
  have q := (Quiet.of_ready h dt).of_calm c (by simp)
  have hf : ((f (s.dev.elapse dt)).getB F.DRAMC_FCHG_BUSY && !(f (s.dev.elapse dt)).getB F.DRAMC_STAT_SELFREF) = false := by
    rw [k.regs.getB_eq (g := F.DRAMC_FCHG_BUSY) (by decide), k.regs.getB_eq (g := F.DRAMC_STAT_SELFREF) (by decide)]
    exact q.rate
  have t := dramRun_touch _ hf
  have kt := k.trans t
  refine ⟨dramRun (f (s.dev.elapse dt)), t, ?_, (c.regs.mono (by simp)).trans kt.regs,
    memKept_of_same (kt.dram.trans c.dram) (kt.l2.trans c.l2)⟩
  rw [perform_run _ _ _ h.1, afterCommand_dram, settle_plain _ _ (kt.sysReq.trans q.sysReq) (kt.burnReq.trans q.burnReq)]
  · rfl
  · rw [regSession_congr _ _ k.sess (k.regs.getB_eq (by decide))]; exact q.requests
  · exact k.regWrites.trans q.regWrites
  · rw [quiet_congr d _ (k.regs.get_eq (by decide)) (cleated_low (k.regs.reg_eq (by decide)) (by omega))]
    exact q.cleat
  · exact hf

/-- A step of the scrubber while DRAM takes requests and its master is not cleated. -/
theorem dramScrub_runs (d : Dev) (he : d.get F.DRAMC_SCRUB_EN = 1) (hr : d.get F.DRAMC_STAT_READY = 1)
    (hen : d.get (F.PG_CTL_EN 0x50) = 1) (hb : d.get F.DRAMC_FCHG_BUSY = 0) (hc : cleated d 15 = false) :
    dramScrub d = { dramRun (engineRead1 15 (0x1000000000 + 64 * d.scrubPos) 64 d).2 with
      scrubPos := (d.scrubPos + 1) % (dramCap d / 64) } := by
  have ht : dramTakes d = true := by
    unfold dramTakes Dev.enabled
    rw [Dev.getB_of_get_one hen, Dev.getB_of_get_zero hb]
    rfl
  unfold dramScrub
  rw [if_neg (by rw [Dev.getB_of_get_one he, Dev.getB_of_get_one hr, ht, hc]; decide)]

/-- An address below the installed capacity is served, or lies outside DRAM's window. -/
theorem dramServes_below (d : Dev) (a : Nat) (hr : d.get F.DRAMC_STAT_READY = 1) (h : a < 0x1000000000 + dramCap d) :
    (inDram a && !dramServes d a) = false := by
  unfold dramServes
  rw [Dev.getB_of_get_one hr, decide_eq_true h]
  cases inDram a <;> rfl

theorem DramTouch.scrubPos {d e : Dev} (h : DramTouch d e) (x : Nat) :
    DramTouch { d with scrubPos := x } { e with scrubPos := x } := by
  obtain ⟨⟨_, _, _, _, _, _, _, rfl⟩, k⟩ := h
  exact ⟨⟨_, _, _, _, _, _, _, rfl⟩, k⟩

theorem regOffset_high (a : Nat) (h : 0x1000000000 ≤ a) : regOffset a = none := by
  unfold regOffset
  rw [if_neg (by omega)]

/-- The scrubber that may read its line: the position goes on, and only DRAM's schedule is touched. -/
theorem dramScrub_reads (d : Dev) (he : d.get F.DRAMC_SCRUB_EN = 1) (hr : d.get F.DRAMC_STAT_READY = 1)
    (hen : d.get (F.PG_CTL_EN 0x50) = 1) (hb : d.get F.DRAMC_FCHG_BUSY = 0) (hc : cleated d 15 = false)
    (hs : (shroudCheck d 15 kindRead (0x1000000000 + 64 * d.scrubPos) false).1 = true) (hp : d.scrubPos < dramCap d / 64) :
    DramTouch { d with scrubPos := (d.scrubPos + 1) % (dramCap d / 64) } (dramScrub d)
      ∧ (dramScrub d).scrubPos = (d.scrubPos + 1) % (dramCap d / 64) := by
  rw [dramScrub_runs d he hr hen hb hc]
  have ha : (inDram (0x1000000000 + 64 * d.scrubPos) && !dramServes d (0x1000000000 + 64 * d.scrubPos)) = false :=
    dramServes_below d _ hr (Nat.add_lt_add_left (by omega) _)
  have ho := regOffset_high (0x1000000000 + 64 * d.scrubPos) (Nat.le_add_right _ _)
  generalize 0x1000000000 + 64 * d.scrubPos = a at hs ha ho ⊢
  have t1 := engineRead1_touch 15 a 64 d hc hs ha ho
  have hbusy : (engineRead1 15 a 64 d).2.getB F.DRAMC_FCHG_BUSY = false :=
    (t1.regs.getB_eq (by decide)).trans (Dev.getB_of_get_zero hb)
  exact ⟨(t1.trans (dramRun_touch _ (by rw [hbusy]; rfl))).scrubPos _, rfl⟩

/-! ### The end of a change of rate -/

/-- The block as a change of rate ends, before the training results of the new rate are applied. -/
def rateDone (d : Dev) : Dev :=
  (((((ranksUsed d).put F.DRAMC_FCHG_BUSY 0).put F.DRAMC_STAT_SELFREF 0).put F.DRAMC_FCHG_LIVE (1 - d.get F.DRAMC_FCHG_LIVE)).put
    F.CLK_STAT_LOCK_D 1).put F.DRAMC_FCHG_RATE (d.get F.DRAMC_FCHG_TARGET)

theorem rateDone_calm (d : Dev) : Calm [R.DRAMC_FCHG, R.DRAMC_STAT, R.CLK_STAT] d (rateDone d) :=
  (((((Calm.refl _ d).ranksUsed.put _ (by simp)).put _ (by simp)).put _ (by simp)).put _ (by simp)).put _ (by simp)

theorem rateDone_get (d : Dev) : (rateDone d).get F.DRAMC_FCHG_BUSY = 0 ∧ (rateDone d).get F.DRAMC_STAT_SELFREF = 0
    ∧ (rateDone d).get F.DRAMC_FCHG_LIVE = 1 - d.get F.DRAMC_FCHG_LIVE
    ∧ (rateDone d).get F.DRAMC_FCHG_RATE = d.get F.DRAMC_FCHG_TARGET := by
  have hl := Dev.get_lt d F.DRAMC_FCHG_LIVE
  have ht := Dev.get_lt d F.DRAMC_FCHG_TARGET
  unfold rateDone
  simp (disch := decide) only [Dev.get_put_same, Dev.get_put_apart]
  refine ⟨rfl, rfl, Nat.mod_eq_of_lt (by omega), Nat.mod_eq_of_lt ht⟩

theorem rateDone_eq (d : Dev) : rateDone d =
    ((((((ranksUsed d).put F.DRAMC_FCHG_BUSY 0).put F.DRAMC_STAT_SELFREF 0).put F.DRAMC_FCHG_LIVE
      (1 - (((ranksUsed d).put F.DRAMC_FCHG_BUSY 0).put F.DRAMC_STAT_SELFREF 0).get F.DRAMC_FCHG_LIVE)).put
      F.CLK_STAT_LOCK_D 1).put F.DRAMC_FCHG_RATE (d.get F.DRAMC_FCHG_TARGET)) := by
  rw [Dev.get_put_apart _ _ _ _ (by decide) (by decide), Dev.get_put_apart _ _ _ _ (by decide) (by decide)]
  rfl

theorem rateDone_trainedRates (d : Dev) : (rateDone d).trainedRates = d.trainedRates := by
  simp only [rateDone, Dev.put_trainedRates]
  rfl

/-- A change of rate that ends finds the training results of the new rate, where they are stored. -/
theorem dramFchgDone_stored (fail : Option (Nat × Nat)) (es : List Word) (x : Nat × List Word) (d : Dev)
    (hb : d.get F.DRAMC_FCHG_BUSY = 1) (hs : d.getB F.DRAMC_STAT_SELFREF = true)
    (hx : d.trainedRates.find? (fun r => r.1 == d.get F.DRAMC_FCHG_TARGET) = some x) :
    dramFchgDone fail es d = dramRun ((putEyes x.2 (rateDone d)).put F.DRAMC_FCHG_RESULT 0) := by
  unfold dramFchgDone
  rw [if_neg (by rw [Dev.getB_of_get_one hb, hs]; decide)]
  dsimp only
  rw [← rateDone_eq, rateDone_trainedRates, hx]

/-- Where none are stored DRAM trains again; `st` and `lane` say where that failed. -/
theorem dramFchgDone_failed (st lane : Nat) (es : List Word) (d : Dev) (hb : d.get F.DRAMC_FCHG_BUSY = 1)
    (hs : d.getB F.DRAMC_STAT_SELFREF = true)
    (hx : d.trainedRates.find? (fun r => r.1 == d.get F.DRAMC_FCHG_TARGET) = none) :
    dramFchgDone (some (st, lane)) es d =
      dramRun (((((rateDone d).put F.DPHY_STAT_STAGE st).put F.DPHY_STAT_FAIL 1).put F.DPHY_STAT_LANE lane).put
        F.DRAMC_STAT_READY 0 |>.put F.DRAMC_FCHG_RESULT 2) := by
  unfold dramFchgDone
  rw [if_neg (by rw [Dev.getB_of_get_one hb, hs]; decide)]
  dsimp only
  rw [← rateDone_eq, rateDone_trainedRates, hx]

/-- With nothing to complete and no change of rate under way DRAM serves nothing. -/
theorem dramRun_served (d : Dev) (h : d.banks = []) (hb : d.get F.DRAMC_FCHG_BUSY = 0) : dramRun d = d :=
  dramRun_none d h (by rw [Dev.getB_of_get_zero hb]; rfl)

theorem foldl_setBit_eq_zero (l : List Nat) (a : Nat) (h : l.foldl setBit a = 0) : l = [] := by
  have grows (l : List Nat) (a i : Nat) (h : bit a i = true) : bit (l.foldl setBit a) i = true := by
    induction l generalizing a with
    | nil => exact h
    | cons x l ih => exact ih _ (by rw [bit_setBit, h, Bool.true_or])
  cases l with
  | nil => rfl
  | cons x l =>
    have := grows l (setBit a x) x (by rw [bit_setBit]; simp)
    rw [show l.foldl setBit (setBit a x) = 0 from h] at this
    simp [bit] at this

theorem sessOpen_of_none {d : Dev} (h : d.openSessions = 0) {n : Nat} (hn : n < 16) : sessOpen d n = false := by
  have := foldl_setBit_eq_zero _ _ h
  rw [List.filter_eq_nil_iff] at this
  unfold sessOpen
  simpa using this n (List.mem_range.mpr hn)

/-- A session that holds nothing and is not open does no work. -/
theorem sessWork_idle (n : Nat) (d : Dev) (hh : (d.sess n).held = []) (ht : (d.sess n).todo = []) (ho : sessOpen d n = false) :
    sessWork n d = d := by
  have h1 (k : Nat) : heldRun k n d = d := by
    cases k with
    | zero => rfl
    | succ k => unfold heldRun; rw [hh]
  have h2 (k : Nat) : todoRun k n d = d := by
    cases k with
    | zero => rfl
    | succ k => unfold todoRun; rw [ht]
  unfold sessWork
  simp only [h1, h2]
  rw [if_neg (by simp [ho])]

theorem forN_id {α : Type} (n : Nat) (f : Nat → α → α) (a : α) (h : ∀ i, i < n → f i a = a) : forN n f a = a := by
  induction n with
  | zero => rfl
  | succ n ih => rw [forN_succ, ih (fun i hi => h i (by omega)), h n (by omega)]

theorem jtpWork_idle (d : Dev) (ho : d.openSessions = 0) (hs : ∀ n, (d.sess n).held = [] ∧ (d.sess n).todo = []) : jtpWork d = d :=
  forN_id 16 sessWork d (fun n hn => sessWork_idle n d (hs n).1 (hs n).2 (sessOpen_of_none ho hn))

theorem heldRelease_none (d : Dev) (h : d.heldSteps = []) : heldRelease d = d := by
  unfold heldRelease
  apply forN_id
  intro i _
  rw [h]
  unfold heldStepsRun
  rw [h]
  rfl

theorem stalledRun_none (d : Dev) (h : d.stalled = []) : stalledRun d = d := by
  have e : { d with stalled := [] } = d := by rw [← h]
  unfold stalledRun
  rw [h, e]
  split <;> rfl

theorem openSessions_of_kept {l : List Nat} {d e : Dev} (k : Kept l d e) (h : ∀ n, n < 16 → R.SESS_STAT n ∉ l) :
    e.openSessions = d.openSessions := by
  unfold Dev.openSessions
  congr 1
  apply List.filter_congr
  intro n hn
  rw [k.get_eq (g := F.SESS_STAT_STATE n) (h n (List.mem_range.mp hn))]

end Sys2Proof.Machine
end

section
/-! SUPPORT. O34: what each command of DRAM leaves on a ready block. -/
namespace Sys2Proof.Machine

theorem succ_mod_wrap {x n : Nat} (h : x < n) : (x + 1) % n = if x + 1 = n then 0 else x + 1 := by
  split
  · simp_all
  · exact Nat.mod_eq_of_lt (by omega)

section
variable {dt : Nat} {s : State}

theorem exec_dramRefresh (delay : Nat) (h : Ready s) (hr : s.dev.get F.DRAMC_STAT_READY = 1) :
    ∃ t, exec (.dramRefresh dt delay) s = .next t ∧ t.dev.refsbCount = s.dev.refsbCount + 1
      ∧ ((s.dev.refsbCount + 1) % 16 = 0 → s.dev.get F.DPHY_CTL_TRACK_EN = 1 →
          bits (cellGet 0 t.dev.eyes s.dev.trackLane).toNat 0 8 = delay % 256
          ∧ bits (cellGet 0 t.dev.eyes s.dev.trackLane).toNat 8 24 = bits (cellGet 0 s.dev.eyes s.dev.trackLane).toNat 8 24
          ∧ t.dev.trackLane = (s.dev.trackLane + 1) % (if s.dev.get F.DRAMC_CFG_RANKS = 1 then 20 else 10))
      ∧ (¬((s.dev.refsbCount + 1) % 16 = 0 ∧ s.dev.get F.DPHY_CTL_TRACK_EN = 1) → t.dev.eyes = s.dev.eyes)
      ∧ (∀ l, l ≠ s.dev.trackLane → cellGet 0 t.dev.eyes l = cellGet 0 s.dev.eyes l) ∧ RegsKept [] s t ∧ MemKept s t := by
  obtain ⟨he, hk, hm⟩ := perform_of_calm h (dramRefresh_calm delay (s.dev.elapse dt)) (by simp)
  refine ⟨_, he, dramRefresh_counts delay (s.dev.elapse dt) hr, fun h16 ht => ?_,
    fun hn => dramRefresh_keeps_eyes delay (s.dev.elapse dt) hr hn, fun l hl => ?_, hk, hm⟩
  · obtain ⟨heyes, hlane⟩ := dramRefresh_recentres delay (s.dev.elapse dt) hr h16 ht
    have hword : cellGet 0 (dramRefresh delay (s.dev.elapse dt)).eyes s.dev.trackLane
        = BitVec.ofNat 32 (setBits (cellGet 0 s.dev.eyes s.dev.trackLane).toNat 0 8 delay) := by
      rw [heyes]; exact cellGet_cellSet_same _ _ _ _
    change bits (cellGet 0 (dramRefresh delay (s.dev.elapse dt)).eyes s.dev.trackLane).toNat 0 8 = _
      ∧ bits (cellGet 0 (dramRefresh delay (s.dev.elapse dt)).eyes s.dev.trackLane).toNat 8 24 = _ ∧ _
    rw [hword, toNat_setBits _ _ _ _ (by omega)]
    exact ⟨bits_setBits _ _ _ _, bits_setBits_above _ _ _ _ _ _ (by omega), hlane⟩
  · change cellGet 0 (dramRefresh delay (s.dev.elapse dt)).eyes l = _
    rw [dramRefresh_serving delay (s.dev.elapse dt) hr]
    split
    · exact cellGet_cellSet_ne _ _ _ _ _ _ hl
    · rfl

theorem exec_dramRatePoll (hot : Bool) (h : Ready s) (hr : s.dev.get F.DRAMC_STAT_READY = 1) :
    ∃ t, exec (.dramRatePoll dt hot) s = .next t ∧ t.dev.get F.DRAMC_STAT_HOT = (if hot then 1 else 0)
      ∧ t.dev.get F.DRAMC_STAT_READY = 1 ∧ t.dev.get F.DRAMC_STAT_SELFREF = s.dev.get F.DRAMC_STAT_SELFREF
      ∧ RegsKept [R.DRAMC_STAT] s t ∧ MemKept s t := by
  have q := Quiet.of_ready h dt
  have heq := dramRatePoll_serving hot (s.dev.elapse dt) hr
  have hk : Calm [R.DRAMC_STAT] (s.dev.elapse dt) (dramRatePoll hot (s.dev.elapse dt)) := by
    rw [heq]; exact (Calm.refl _ _).ranksUsed.put _ (by simp)
  have hg (f : RegField) (hf : Apart F.DRAMC_STAT_HOT f) : (dramRatePoll hot (s.dev.elapse dt)).get f = s.dev.get f := by
    rw [heq]; exact Dev.get_put_apart _ _ f _ (by decide) hf
  obtain ⟨he, hk, hm⟩ := perform_of_quiet h hk (q.of_calm_rate hk (by simp) (by simp)
    ((regSession_congr _ (s.dev.elapse dt) hk.sess (hk.regs.getB_eq (by simp))).trans q.requests)
    (by unfold Dev.getB; rw [hg _ (by decide), hg _ (by decide)]; exact q.rate))
  refine ⟨_, he, ?_, (hg F.DRAMC_STAT_READY (by decide)).trans hr, hg F.DRAMC_STAT_SELFREF (by decide), hk, hm⟩
  rw [State.after_get, heq]
  exact (Dev.get_put_same _ _ _ (by decide)).trans (by cases hot <;> rfl)

theorem exec_dramTrack (rank : Fin 2) (delta : Int) (h : Ready s) (hr : s.dev.get F.DRAMC_STAT_READY = 1)
    (ht : s.dev.get F.DPHY_CTL_TRACK_EN = 1) :
    ∃ t, exec (.dramTrack dt rank delta) s = .next t
      ∧ (∀ l, l < 10 → (bits (cellGet 0 t.dev.eyes (10 * rank + l)).toNat 16 8 : Int)
          = ((bits (cellGet 0 s.dev.eyes (10 * rank + l)).toNat 16 8 : Int) + delta) % 256)
      ∧ (∀ l, (l < 10 * rank.val ∨ 10 * rank.val + 10 ≤ l) → cellGet 0 t.dev.eyes l = cellGet 0 s.dev.eyes l)
      ∧ RegsKept [] s t ∧ MemKept s t := by
  obtain ⟨m, heq, hm⟩ := dramTrack_serving rank delta (s.dev.elapse dt) hr ht
  obtain ⟨he, hk, hm'⟩ := perform_of_calm h (dt := dt) (f := dramTrack rank delta) (l := [])
    (by rw [heq]; exact ⟨.of_regs rfl, rfl, rfl, rfl, rfl, rfl, rfl, rfl⟩) (by simp)
  refine ⟨_, he, fun l hl => ?_, fun l hl => ?_, hk, hm'⟩
  · rw [heq]; exact (hm (10 * rank + l)).1 ⟨by omega, by omega⟩
  · rw [heq]; exact (hm l).2 (by omega)

theorem exec_dramPowerDown (rank : Fin 2) (h : Ready s) (hp : s.dev.get F.DRAMC_PD_PD_EN = 1)
    (hr : s.dev.get F.DRAMC_STAT_READY = 1)
    (hi : cellGet 0 s.dev.rankUsed rank + s.dev.get F.DRAMC_PD_PD_IDLE * 10 ≤ s.dev.now + dt) :
    ∃ t, exec (.dramPowerDown dt rank) s = .next t ∧ bit t.dev.rankDown rank = true
      ∧ bit t.dev.rankDown (1 - rank) = bit s.dev.rankDown (1 - rank) ∧ RegsKept [] s t ∧ MemKept s t := by
  have heq := dramPowerDown_idle rank (s.dev.elapse dt) hp hr hi
  have hbit (j : Nat) : bit (dramPowerDown rank (s.dev.elapse dt)).rankDown j = (bit s.dev.rankDown j || decide (j = rank)) := by
    rw [heq]; exact bit_setBit _ _ _
  obtain ⟨he, hk, hm⟩ := perform_of_calm h (dt := dt) (f := dramPowerDown rank) (l := [])
    (by rw [heq]; exact ⟨.of_regs rfl, rfl, rfl, rfl, rfl, rfl, rfl, rfl⟩) (by simp)
  refine ⟨_, he, (hbit _).trans (by simp), (hbit _).trans ?_, hk, hm⟩
  fin_cases rank <;> simp

theorem exec_rhWindowRenew (h : Ready s) :
    ∃ t, exec (.rhWindowRenew dt) s = .next t ∧ t.dev.rows = [] ∧ t.dev.throttled = [] ∧ RegsKept [] s t ∧ MemKept s t := by
  have q := Quiet.of_ready h dt
  have heq : rhWindowRenew (s.dev.elapse dt) = { s.dev.elapse dt with rows := [], throttled := [] } := by
    unfold rhWindowRenew
    exact dramRun_none _ q.banks q.rate
  obtain ⟨he, hk, hm⟩ := perform_of_calm h (dt := dt) (f := rhWindowRenew) (l := [])
    (by rw [heq]; exact ⟨.of_regs rfl, rfl, rfl, rfl, rfl, rfl, rfl, rfl⟩) (by simp)
  exact ⟨_, he, by rw [heq]; rfl, by rw [heq]; rfl, hk, hm⟩

theorem exec_dramScrub (h : Ready s) (he : s.dev.get F.DRAMC_SCRUB_EN = 1) (hr : s.dev.get F.DRAMC_STAT_READY = 1)
    (hen : s.dev.get (F.PG_CTL_EN 0x50) = 1) (hb : s.dev.get F.DRAMC_FCHG_BUSY = 0)
    (hs : Permitted s 15 kindRead (0x1000000000 + 64 * s.dev.scrubPos) 64) (hp : s.dev.scrubPos < dramCap s.dev / 64) :
    ∃ t, exec (.dramScrub dt) s = .next t
      ∧ t.dev.scrubPos = (if s.dev.scrubPos + 1 = dramCap s.dev / 64 then 0 else s.dev.scrubPos + 1)
      ∧ RegsKept memRegs s t ∧ MemKept s t := by
  obtain ⟨hissue, hshroud⟩ := hs
  have hc : cleated s.dev 15 = false := by
    unfold issues at hissue
    simp only [Bool.and_eq_true, Bool.not_eq_true'] at hissue
    exact hissue.1.2
  obtain ⟨ht, hpos⟩ := dramScrub_reads (s.dev.elapse dt) he hr hen hb hc hshroud hp
  have hk (x : Nat) : Calm [] (s.dev.elapse dt) { s.dev.elapse dt with scrubPos := x } :=
    ⟨.of_regs rfl, rfl, rfl, rfl, rfl, rfl, rfl, rfl⟩
  obtain ⟨e, ⟨⟨_, _, _, _, _, _, _, hf⟩, -⟩, hx, hk, hm⟩ := perform_of_touch h (f := dramScrub) (hk _) ht
  refine ⟨_, hx, ?_, hk, hm⟩
  rw [← succ_mod_wrap hp]
  refine Eq.trans ?_ hpos
  rw [hf]
  rfl

theorem exec_dramTrain_starts (h : Ready s) (hp : s.dev.planActive = false) (hr : s.dev.get F.DRAMC_STAT_READY = 0) :
    ∃ t, exec (.dramTrain dt) s = .next t ∧ t.dev.get F.DPHY_STAT_STAGE = 1 ∧ t.dev.get F.DPHY_STAT_FAIL = 0 ∧ t.dev.training = true
      ∧ RegsKept [R.DPHY_STAT] s t ∧ MemKept s t := by
  have heq := dramTrain_starts (s.dev.elapse dt) hp hr
  have hk : Calm [R.DPHY_STAT] (s.dev.elapse dt) (dramTrain (s.dev.elapse dt)) := by
    rw [heq]
    exact (dramHold_calm (((Calm.refl _ _).put _ (by simp)).put _ (by simp)) _).trans
      ⟨.of_regs rfl, rfl, rfl, rfl, rfl, rfl, rfl, rfl⟩
  have hg (f : RegField) : (dramTrain (s.dev.elapse dt)).get f
      = (((s.dev.elapse dt).put F.DPHY_STAT_STAGE 1).put F.DPHY_STAT_FAIL 0).get f := by
    rw [heq]; exact dramHold_get false _ f
  obtain ⟨he, hk, hm⟩ := perform_of_calm h hk (by simp)
  refine ⟨_, he, ?_, ?_, by rw [heq]; rfl, hk, hm⟩
  · rw [State.after_get, hg]
    exact (Dev.get_put_apart _ _ _ _ (by decide) (by decide)).trans (Dev.get_put_same _ _ _ (by decide))
  · rw [State.after_get, hg]
    exact Dev.get_put_same _ _ _ (by decide)

theorem exec_dramTrain_refused (h : Ready s) (hc : s.dev.planActive = true ∨ s.dev.get F.DRAMC_STAT_READY = 1)
    (hv : s.dev.get (F.PG_FAULT_VALID 0x51) = 0) :
    ∃ t, exec (.dramTrain dt) s = .next t ∧ t.dev.training = s.dev.training ∧ t.dev.get (F.PG_FAULT_CODE 0x51) = 0x01
      ∧ RegsKept (faultRegs 0x51) s t ∧ MemKept s t := by
  have heq := dramTrain_refused (s.dev.elapse dt) hc
  have hk : Calm (faultRegs 0x51) (s.dev.elapse dt) (dramTrain (s.dev.elapse dt)) := by
    rw [heq]; exact (Calm.refl _ _).pgFault _ _ _ (fun _ h => h)
  obtain ⟨he, hk, hm⟩ := perform_of_calm h hk (by decide)
  refine ⟨_, he, ?_, ?_, hk, hm⟩
  · change (dramTrain (s.dev.elapse dt)).training = _
    rw [heq, Dev.refuseAt_frame]
    rfl
  · rw [State.after_get, heq]
    exact Dev.pgFault_code _ _ _ _ hv (by decide)

theorem dramTrainDone_passed_eyes (es : List Word) (d : Dev) (h : d.training = true) :
    (dramTrainDone none es d).eyes = (trainedDev es d).eyes ∧ (dramTrainDone none es d).training = false := by
  rw [dramTrainDone_passed es d h]
  simp only [Dev.put_eyes, Dev.put_training, trainedDev_training, and_self]

theorem exec_dramTrainDone_passed (es : List Word) (h : Ready s) (ht : s.dev.training = true) :
    ∃ t, exec (.dramTrainDone dt none es) s = .next t ∧ t.dev.training = false ∧ t.dev.get F.DPHY_STAT_STAGE = 7
      ∧ t.dev.get F.DPHY_STAT_FAIL = 0 ∧ t.dev.get F.DRAMC_STAT_READY = 1
      ∧ t.dev.get F.DRAMC_STAT_CAP
          = dramCapGb (s.dev.get F.DRAMC_CFG_RANKS) (s.dev.get F.DRAMC_CFG_WIDTH) (s.dev.get F.DRAMC_CFG_DENS) % 2 ^ 16
      ∧ (∀ i, i < es.length → cellGet 0 t.dev.eyes i = es.getD i 0)
      ∧ RegsKept [R.DPHY_STAT, R.DRAMC_STAT, R.CLK_STAT] s t ∧ MemKept s t := by
  have q := Quiet.of_ready h dt
  have heq := dramTrainDone_passed es (s.dev.elapse dt) ht
  obtain ⟨heyes, htr⟩ := dramTrainDone_passed_eyes es (s.dev.elapse dt) ht
  have hk : Calm [R.DPHY_STAT, R.DRAMC_STAT, R.CLK_STAT] (s.dev.elapse dt) (dramTrainDone none es (s.dev.elapse dt)) := by
    rw [heq]
    exact (((((trainedDev_calm es _).mono (by simp)).put _ (by simp)).put _ (by simp)).put _ (by simp)).put _ (by simp)
      |>.put _ (by simp)
  have hself : (dramTrainDone none es (s.dev.elapse dt)).getB F.DRAMC_STAT_SELFREF = s.dev.getB F.DRAMC_STAT_SELFREF := by
    rw [heq]
    simp (disch := decide) only [Dev.getB_put_apart]
    exact (trainedDev_calm es (s.dev.elapse dt)).regs.getB_eq (by simp)
  obtain ⟨he, hk', hm⟩ := perform_of_quiet h hk (q.of_calm_rate hk (by simp) (by simp)
    ((regSession_congr _ (s.dev.elapse dt) hk.sess (hk.regs.getB_eq (by simp))).trans q.requests)
    (by rw [hk.regs.getB_eq (g := F.DRAMC_FCHG_BUSY) (by simp), hself]; exact q.rate))
  refine ⟨_, he, htr, ?_, ?_, ?_, ?_, fun i hi => (congrArg (fun m => cellGet 0 m i) heyes).trans (trainedDev_eyes es _ i hi), hk', hm⟩
  all_goals
    rw [State.after_get, heq]
    simp (disch := decide) only [Dev.get_put_same, Dev.get_put_apart]
    rfl

theorem exec_dramTrainDone_failed (st lane : Nat) (es : List Word) (h : Ready s) (ht : s.dev.training = true) (hst : st < 8)
    (hl : lane < 32) :
    ∃ t, exec (.dramTrainDone dt (some (st, lane)) es) s = .next t ∧ t.dev.training = false ∧ t.dev.get F.DPHY_STAT_STAGE = st
      ∧ t.dev.get F.DPHY_STAT_FAIL = 1 ∧ t.dev.get F.DPHY_STAT_LANE = lane
      ∧ RegsKept [R.DPHY_STAT] s t ∧ MemKept s t := by
  have heq := dramTrainDone_failed st lane es (s.dev.elapse dt) ht
  have h0 : Calm [R.DPHY_STAT] (s.dev.elapse dt) { s.dev.elapse dt with training := false } :=
    ⟨.of_regs rfl, rfl, rfl, rfl, rfl, rfl, rfl, rfl⟩
  have hk : Calm [R.DPHY_STAT] (s.dev.elapse dt) (dramTrainDone (some (st, lane)) es (s.dev.elapse dt)) := by
    rw [heq]
    exact ((h0.put _ (by simp)).put _ (by simp)).put _ (by simp)
  obtain ⟨he, hk, hm⟩ := perform_of_calm h hk (by simp)
  refine ⟨_, he, ?_, ?_, ?_, ?_, hk, hm⟩
  · change (dramTrainDone (some (st, lane)) es (s.dev.elapse dt)).training = false
    rw [heq]
    simp only [Dev.put_training]
  all_goals
    rw [State.after_get, heq]
    simp (disch := decide) only [Dev.get_put_same, Dev.get_put_apart]
    omega

theorem exec_dramFchg_begins (target : Nat) (h : Ready s) (ht : target % 8 ≤ 4) (hp : s.dev.planActive = false)
    (hb : s.dev.get F.DRAMC_FCHG_BUSY = 0) (hr : s.dev.get F.DRAMC_STAT_READY = 1) :
    ∃ t, exec (.dramFchg dt target) s = .next t ∧ t.dev.get F.DRAMC_FCHG_TARGET = target % 8 ∧ t.dev.get F.DRAMC_FCHG_BUSY = 1
      ∧ t.dev.get F.DRAMC_STAT_SELFREF = 1 ∧ t.dev.get F.DRAMC_FCHG_RATE = s.dev.get F.DRAMC_FCHG_RATE
      ∧ RegsKept [R.DRAMC_FCHG, R.DRAMC_STAT, R.CLK_STAT] s t ∧ MemKept s t := by
  have q := Quiet.of_ready h dt
  have heq := dramFchg_begins (target % 8) (s.dev.elapse dt) ht hp hb hr q.banks
  have hk := rateChanging_calm (target % 8) (s.dev.elapse dt)
  have hself := rateChanging_selfref (target % 8) (s.dev.elapse dt)
  rw [← heq] at hk hself
  obtain ⟨he, hk', hm⟩ := perform_of_quiet h (f := dramFchg (target % 8)) hk (q.of_calm_rate hk (by simp) (by simp)
    (regSession_busy q.requests hk.sess (Dev.getB_of_get_zero hb)) (by rw [Dev.getB_of_get_one hself]; simp))
  refine ⟨_, he, ?_, ?_, hself, ?_, hk', hm⟩
  all_goals
    rw [State.after_get, heq, rateChanging_get _ _ _ rfl, rateAsked]
    simp (disch := decide) only [Dev.get_put_same, Dev.get_put_apart]
  · exact Nat.mod_mod _ _
  · rfl
  · rfl

theorem exec_dramFchg_under_plan (target : Nat) (h : Ready s) (ht : target % 8 ≤ 4) (hp : s.dev.planActive = true) :
    ∃ t, exec (.dramFchg dt target) s = .next t ∧ t.dev.get F.DRAMC_FCHG_RESULT = 1
      ∧ t.dev.get F.DRAMC_FCHG_BUSY = s.dev.get F.DRAMC_FCHG_BUSY ∧ RegsKept [R.DRAMC_FCHG] s t ∧ MemKept s t := by
  have q := Quiet.of_ready h dt
  have heq := dramFchg_under_plan (target % 8) (s.dev.elapse dt) ht hp
  have hk : Calm [R.DRAMC_FCHG] (s.dev.elapse dt) (dramFchg (target % 8) (s.dev.elapse dt)) := by
    rw [heq]; exact ((Calm.refl _ _).put _ (by simp)).put _ (by simp)
  have hbusy : (dramFchg (target % 8) (s.dev.elapse dt)).get F.DRAMC_FCHG_BUSY = s.dev.get F.DRAMC_FCHG_BUSY := by
    rw [heq]
    simp (disch := decide) only [Dev.get_put_apart]
    rfl
  have hbusy' : (dramFchg (target % 8) (s.dev.elapse dt)).getB F.DRAMC_FCHG_BUSY = (s.dev.elapse dt).getB F.DRAMC_FCHG_BUSY := by
    unfold Dev.getB; rw [hbusy]; rfl
  obtain ⟨he, hk', hm⟩ := perform_of_quiet h (f := dramFchg (target % 8)) hk (q.of_calm_rate hk (by simp) (by simp)
    ((regSession_congr _ (s.dev.elapse dt) hk.sess hbusy').trans q.requests)
    (by rw [hbusy', hk.regs.getB_eq (g := F.DRAMC_STAT_SELFREF) (by simp)]; exact q.rate))
  refine ⟨_, he, ?_, hbusy, hk', hm⟩
  rw [State.after_get, heq]
  exact Dev.get_put_same _ _ _ (by decide)

end

end Sys2Proof.Machine
end

section
/-! SUPPORT. O34, continued: the end of a change of rate, and the obligation. -/
namespace Sys2Proof.Machine

theorem regSession_idle (d : Dev) (h : ∀ n, (d.sess n).todo = []) : regSession d = none := by
  unfold regSession
  rw [List.find?_eq_none]
  intro n _
  rw [h n]
  simp

/-- Nothing waits for the end of a change of rate: no session is open or holds a message, no transaction stalls and no engine's
step is held. -/
abbrev NothingHeld (d : Dev) : Prop :=
  d.openSessions = 0 ∧ d.stalled = [] ∧ d.heldSteps = [] ∧ ∀ n, (d.sess n).held = [] ∧ (d.sess n).todo = []

theorem nothingHeld_followUp {e : Dev} (h : NothingHeld e) : jtpWork (heldRelease (stalledRun e)) = e := by
  obtain ⟨ho, hst, hh, hs⟩ := h
  rw [stalledRun_none e hst, heldRelease_none e hh, jtpWork_idle e ho hs]

/-- What DRAM_FCHG_DONE comes to, once the end of the change is known to leave `e` with DRAM serving and nothing held. -/
theorem exec_dramFchgDone {dt : Nat} {fail : Option (Nat × Nat)} {es : List Word} {s : State} {e : Dev} {l : List Nat} (h : Ready s)
    (he : dramFchgDone fail es (s.dev.elapse dt) = dramRun e) (k : Calm l (s.dev.elapse dt) e) (n : NothingHeld e)
    (hb : e.get F.DRAMC_FCHG_BUSY = 0) (hc : R.SHROUD_CLEAT_LO ∉ l) (hp : R.PLAN_CHK ∉ l) :
    exec (.dramFchgDone dt fail es) s = .next (s.after e) ∧ RegsKept l s (s.after e) ∧ MemKept s (s.after e) := by
  have q := Quiet.of_ready h dt
  have hf : jtpWork (heldRelease (stalledRun (dramFchgDone fail es (s.dev.elapse dt)))) = e := by
    rw [he, dramRun_served e (k.banks.trans q.banks) hb]
    exact nothingHeld_followUp n
  have hq : Quiet e := q.of_calm_rate k hc hp (regSession_idle e (fun i => (n.2.2.2 i).2)) (by rw [Dev.getB_of_get_zero hb]; rfl)
  have := perform_of_quiet (f := fun d => jtpWork (heldRelease (stalledRun (dramFchgDone fail es d)))) h (dt := dt)
    (l := l) (by simp only [hf]; exact k) (by simp only [hf]; exact hq)
  simp only [hf] at this
  exact this

theorem NothingHeld.of_calm {l : List Nat} {d e : Dev} (h : NothingHeld d) (k : Calm l d e) (hst : e.stalled = d.stalled)
    (hh : e.heldSteps = d.heldSteps) (hl : ∀ n, n < 16 → R.SESS_STAT n ∉ l) : NothingHeld e := by
  obtain ⟨ho, h1, h2, hs⟩ := h
  refine ⟨(openSessions_of_kept k.regs hl).trans ho, hst.trans h1, hh.trans h2, fun n => ?_⟩
  rw [show e.sess n = d.sess n by unfold Dev.sess; rw [k.sess]]
  exact hs n

theorem NothingHeld.elapse {d : Dev} (h : NothingHeld d) (dt : Nat) : NothingHeld (d.elapse dt) := h

/-- The registers of a change of rate are no session's. -/
theorem sessStat_not_rate (n : Nat) (hn : n < 16) : R.SESS_STAT n ∉ [R.DRAMC_FCHG, R.DRAMC_STAT, R.CLK_STAT, R.DPHY_STAT] := by
  simp only [R.SESS_STAT, R.DRAMC_FCHG, R.DRAMC_STAT, R.CLK_STAT, R.DPHY_STAT, List.mem_cons, List.not_mem_nil, or_false]
  omega

/-- The block once a change of rate has ended and the results `x` stored for the rate are applied. -/
def rateStored (x : Nat × List Word) (d : Dev) : Dev := (putEyes x.2 (rateDone d)).put F.DRAMC_FCHG_RESULT 0

theorem rateDone_rest (d : Dev) : (rateDone d).stalled = d.stalled ∧ (rateDone d).heldSteps = d.heldSteps
    ∧ (rateDone d).eyes = d.eyes := by
  simp only [rateDone, Dev.put_stalled, Dev.put_heldSteps, Dev.put_eyes]
  exact ⟨rfl, rfl, rfl⟩

theorem rateStored_rest (x : Nat × List Word) (d : Dev) : (rateStored x d).stalled = d.stalled
    ∧ (rateStored x d).heldSteps = d.heldSteps
    ∧ (∀ i, i < x.2.length → cellGet 0 (rateStored x d).eyes i = x.2.getD i 0)
    ∧ (∀ i, x.2.length ≤ i → cellGet 0 (rateStored x d).eyes i = cellGet 0 d.eyes i) := by
  obtain ⟨m, hm, hin, hout⟩ := putEyes_spec x.2 (rateDone d)
  obtain ⟨h1, h2, h3⟩ := rateDone_rest d
  rw [h3] at hout
  rw [rateStored, hm, Dev.put_stalled, Dev.put_heldSteps, Dev.put_eyes]
  exact ⟨h1, h2, hin, hout⟩

theorem rateStored_calm (x : Nat × List Word) (d : Dev) :
    Calm [R.DRAMC_FCHG, R.DRAMC_STAT, R.CLK_STAT] d (rateStored x d) :=
  ((rateDone_calm d).putEyes x.2).put _ (by simp)

theorem rateStored_get (x : Nat × List Word) (d : Dev) : (rateStored x d).get F.DRAMC_FCHG_BUSY = 0
    ∧ (rateStored x d).get F.DRAMC_FCHG_RESULT = 0 ∧ (rateStored x d).get F.DRAMC_FCHG_RATE = d.get F.DRAMC_FCHG_TARGET
    ∧ (rateStored x d).get F.DRAMC_FCHG_LIVE = 1 - d.get F.DRAMC_FCHG_LIVE ∧ (rateStored x d).get F.DRAMC_STAT_SELFREF = 0 := by
  obtain ⟨hb, hs, hl, hr⟩ := rateDone_get d
  have hk (f : RegField) (hf : Apart F.DRAMC_FCHG_RESULT f) : (rateStored x d).get f = (rateDone d).get f := by
    unfold rateStored
    rw [Dev.get_put_apart _ _ _ _ (by decide) hf]
    exact ((Calm.refl [] (rateDone d)).putEyes x.2).regs.get_eq (by simp)
  refine ⟨(hk _ (by decide)).trans hb, Dev.get_put_same _ _ _ (by decide), (hk _ (by decide)).trans hr,
    (hk _ (by decide)).trans hl, (hk _ (by decide)).trans hs⟩

section
variable {dt : Nat} {s : State}

/-- On a ready block a change of rate under way holds DRAM in self-refresh. -/
theorem selfRefresh_of_busy (h : Ready s) (hb : s.dev.get F.DRAMC_FCHG_BUSY = 1) : s.dev.getB F.DRAMC_STAT_SELFREF = true := by
  have hr := (Quiet.of_ready h 0).rate
  rw [show (s.dev.elapse 0).getB F.DRAMC_FCHG_BUSY = true from Dev.getB_of_get_one hb, Bool.true_and, Bool.not_eq_false'] at hr
  exact hr

theorem exec_dramFchgDone_stored (es : List Word) (x : Nat × List Word) (h : Ready s) (hb : s.dev.get F.DRAMC_FCHG_BUSY = 1)
    (hn : NothingHeld s.dev) (hx : s.dev.trainedRates.find? (fun r => r.1 == s.dev.get F.DRAMC_FCHG_TARGET) = some x) :
    ∃ t, exec (.dramFchgDone dt none es) s = .next t ∧ t.dev.get F.DRAMC_FCHG_BUSY = 0 ∧ t.dev.get F.DRAMC_FCHG_RESULT = 0
      ∧ t.dev.get F.DRAMC_FCHG_RATE = s.dev.get F.DRAMC_FCHG_TARGET
      ∧ t.dev.get F.DRAMC_FCHG_LIVE = 1 - s.dev.get F.DRAMC_FCHG_LIVE ∧ t.dev.get F.DRAMC_STAT_SELFREF = 0
      ∧ (∀ i, i < x.2.length → cellGet 0 t.dev.eyes i = x.2.getD i 0)
      ∧ (∀ i, x.2.length ≤ i → cellGet 0 t.dev.eyes i = cellGet 0 s.dev.eyes i)
      ∧ RegsKept [R.DRAMC_FCHG, R.DRAMC_STAT, R.CLK_STAT] s t ∧ MemKept s t := by
  have hself := selfRefresh_of_busy h hb
  have k := rateStored_calm x (s.dev.elapse dt)
  obtain ⟨hst, hh, hin, hout⟩ := rateStored_rest x (s.dev.elapse dt)
  obtain ⟨gb, gres, grate, glive, gself⟩ := rateStored_get x (s.dev.elapse dt)
  have hn' : NothingHeld (rateStored x (s.dev.elapse dt)) :=
    (hn.elapse dt).of_calm k hst hh (fun n hlt m => sessStat_not_rate n hlt (by simp at m ⊢; omega))
  obtain ⟨he, hk, hm⟩ := exec_dramFchgDone h (dramFchgDone_stored none es x (s.dev.elapse dt) hb hself hx) k hn' gb (by simp) (by simp)
  exact ⟨_, he, gb, gres, grate, glive, gself, hin, hout, hk, hm⟩

/-- The block once a change of rate has ended and the training that the rate needed has failed. -/
def rateFailed (st lane : Nat) (d : Dev) : Dev :=
  ((((rateDone d).put F.DPHY_STAT_STAGE st).put F.DPHY_STAT_FAIL 1).put F.DPHY_STAT_LANE lane).put F.DRAMC_STAT_READY 0
    |>.put F.DRAMC_FCHG_RESULT 2

theorem rateFailed_calm (st lane : Nat) (d : Dev) :
    Calm [R.DRAMC_FCHG, R.DRAMC_STAT, R.CLK_STAT, R.DPHY_STAT] d (rateFailed st lane d) :=
  ((((((rateDone_calm d).mono (by simp)).put _ (by simp)).put _ (by simp)).put _ (by simp)).put _ (by simp)).put _ (by simp)

theorem rateFailed_rest (st lane : Nat) (d : Dev) : (rateFailed st lane d).stalled = d.stalled
    ∧ (rateFailed st lane d).heldSteps = d.heldSteps := by
  simp only [rateFailed, Dev.put_stalled, Dev.put_heldSteps]
  exact ⟨(rateDone_rest d).1, (rateDone_rest d).2.1⟩

theorem rateFailed_get (st lane : Nat) (d : Dev) (hst : st < 8) (hl : lane < 32) : (rateFailed st lane d).get F.DRAMC_FCHG_BUSY = 0
    ∧ (rateFailed st lane d).get F.DRAMC_FCHG_RESULT = 2 ∧ (rateFailed st lane d).get F.DRAMC_STAT_READY = 0
    ∧ (rateFailed st lane d).get F.DPHY_STAT_STAGE = st ∧ (rateFailed st lane d).get F.DPHY_STAT_FAIL = 1
    ∧ (rateFailed st lane d).get F.DPHY_STAT_LANE = lane := by
  have hb := (rateDone_get d).1
  unfold rateFailed
  generalize rateDone d = c at hb ⊢
  simp (disch := decide) only [Dev.get_put_same, Dev.get_put_apart]
  exact ⟨hb, rfl, rfl, Nat.mod_eq_of_lt hst, rfl, Nat.mod_eq_of_lt hl⟩

theorem dramFchgDone_rateFailed (st lane : Nat) (es : List Word) (d : Dev) (hb : d.get F.DRAMC_FCHG_BUSY = 1)
    (hs : d.getB F.DRAMC_STAT_SELFREF = true) (hx : d.trainedRates.find? (fun r => r.1 == d.get F.DRAMC_FCHG_TARGET) = none) :
    dramFchgDone (some (st, lane)) es d = dramRun (rateFailed st lane d) := by
  rw [dramFchgDone_failed st lane es d hb hs hx, rateFailed]

theorem exec_dramFchgDone_failed (st lane : Nat) (es : List Word) (h : Ready s) (hb : s.dev.get F.DRAMC_FCHG_BUSY = 1) (hst : st < 8)
    (hl : lane < 32) (hn : NothingHeld s.dev)
    (hx : s.dev.trainedRates.find? (fun r => r.1 == s.dev.get F.DRAMC_FCHG_TARGET) = none) :
    ∃ t, exec (.dramFchgDone dt (some (st, lane)) es) s = .next t ∧ t.dev.get F.DRAMC_FCHG_BUSY = 0
      ∧ t.dev.get F.DRAMC_FCHG_RESULT = 2 ∧ t.dev.get F.DRAMC_STAT_READY = 0 ∧ t.dev.get F.DPHY_STAT_STAGE = st
      ∧ t.dev.get F.DPHY_STAT_FAIL = 1 ∧ t.dev.get F.DPHY_STAT_LANE = lane
      ∧ RegsKept [R.DRAMC_FCHG, R.DRAMC_STAT, R.CLK_STAT, R.DPHY_STAT] s t ∧ MemKept s t := by
  have hself := selfRefresh_of_busy h hb
  have k := rateFailed_calm st lane (s.dev.elapse dt)
  obtain ⟨hs1, hh⟩ := rateFailed_rest st lane (s.dev.elapse dt)
  have hn' : NothingHeld (rateFailed st lane (s.dev.elapse dt)) := (hn.elapse dt).of_calm k hs1 hh sessStat_not_rate
  obtain ⟨gb, gres, gready, gstage, gfail, glane⟩ := rateFailed_get st lane (s.dev.elapse dt) hst hl
  obtain ⟨he, hk, hm⟩ :=
    exec_dramFchgDone h (dramFchgDone_rateFailed st lane es (s.dev.elapse dt) hb hself hx) k hn' gb (by simp) (by simp)
  refine ⟨_, he, ?_, ?_, ?_, ?_, ?_, ?_, hk, hm⟩ <;> rw [State.after_get]
  exacts [gb, gres, gready, gstage, gfail, glane]
end

/-- Settles O34: each command's effect is one of the equations of this section, and nothing but it is due. -/
theorem dramCommands : Obligations.DramCommands := by
  unfold Obligations.DramCommands
  intro dt delay target hot rank delta st lane es x s hR
  exact ⟨exec_dramRefresh delay hR, exec_dramRatePoll hot hR, exec_dramTrack rank delta hR, exec_dramPowerDown rank hR,
    exec_rhWindowRenew hR, exec_dramScrub hR, exec_dramTrain_starts hR, exec_dramTrain_refused hR,
    exec_dramTrainDone_passed es hR, exec_dramTrainDone_failed st lane es hR, exec_dramFchg_begins target hR,
    exec_dramFchg_under_plan target hR,
    fun hb ho hx hst hh hs => exec_dramFchgDone_stored es x hR hb ⟨ho, hst, hh, hs⟩ hx,
    fun hb hst hl ho hx hs1 hh hs => exec_dramFchgDone_failed st lane es hR hb hst hl ⟨ho, hs1, hh, hs⟩ hx⟩

end Sys2Proof.Machine
end

section
/-! SUPPORT. O48: a commit of page 0x43 that disables the tap ends the compressor job which the tap feeds (R154, R272, R287,
R288), so that it changes registers of page 0x10, which the statement lists as kept. -/
namespace Sys2Proof.Machine

/-- The tap of a camera feeds a compressor job, no line of a tapped frame is on its way, and the shadow half of page 0x43
disables the tap. -/
def tapFed : State :=
  { State.reset with dev := { Dev.reset.put F.CMP_STAT_BUSY 1 with insp := { tapRun := true, tapCmp := true }, cmp := { tap := true } } }

/-- `tapFed` after an IMMEDIATE commit of page 0x43. -/
def tapStopped : State := settle tapFed (afterCommand (pgCommitWrite 0x43 1 0 (tapFed.dev.elapse 0)))

theorem tapFed_commits : Ready tapFed ∧ pageShadow 0x43 = true ∧ tapFed.dev.get (F.PG_COMMIT_STAT_CHECKING 0x43) = 0
    ∧ armCheck 0x43 (tapFed.dev.elapse 0) = none := by decide

theorem tapFed_compresses : tapFed.dev.get F.CMP_STAT_BUSY = 1 := by decide

set_option maxRecDepth 4000 in
/-- The commit ends the tap, and with it the job (R288). -/
theorem tapStopped_job_ended : tapStopped.dev.get F.CMP_STAT_BUSY = 0 := by decide

/-- A commit of page `p` at once, on a block that runs. -/
theorem exec_commitImmediate_run (dt : Nat) (p : Fin 128) (s : State) (h : s.dev.power = .run) :
    exec (.commitImmediate dt p) s = .next (settle s (afterCommand (pgCommitWrite p 1 0 (s.dev.elapse dt)))) :=
  perform_run dt s (fun d => afterCommand (pgCommitWrite p 1 0 d)) h

/-- Refutes O48: an IMMEDIATE commit of page 0x43 that disables a tap which feeds a compressor job ends that job: CMP_STAT of page
0x10, a register that the clause of the pages outside the fire stream says is kept, shows BUSY 0 after it. -/
theorem not_commitWrites : ¬ Obligations.CommitWrites := by
  unfold Obligations.CommitWrites
  intro h
  obtain ⟨hready, hshadow, hidle, hcheck⟩ := tapFed_commits
  obtain ⟨commits, -⟩ := h 0 0x43 0 R.CMP_STAT _ tapFed hready rfl
  obtain ⟨-, -, immediate, -⟩ := commits hshadow hidle
  obtain ⟨t, ht, -, -, -, -, kept, -⟩ := immediate (by decide) hcheck
  obtain rfl : tapStopped = t := Host.Outcome.next.inj ((exec_commitImmediate_run 0 0x43 tapFed rfl).symm.trans ht)
  have same : tapStopped.dev.get F.CMP_STAT_BUSY = tapFed.dev.get F.CMP_STAT_BUSY := by
    unfold Dev.get
    rw [kept (.inl (by decide)) (by decide)]
  rw [tapStopped_job_ended, tapFed_compresses] at same
  exact absurd same (by decide)

end Sys2Proof.Machine
end

section
/-! SUPPORT. O50: at a boundary with no plan active the web still carries the marks of copies of ended plans on (R233), and
position published by VENC is derived up to the boundary (R62): a mark whose point it reaches leaves FIRE_STAT.REJ_PEND, which
the statement lists as kept. -/
namespace Sys2Proof.Machine

/-- A boundary on a block that runs. -/
theorem exec_beatBoundary_run (dt u m : Nat) (s : State) (h : s.dev.power = .run) :
    exec (.beatBoundary dt u m) s = .next (settle s (afterCommand (beatBoundary u m (s.dev.elapse dt)))) :=
  perform_run dt s (fun d => afterCommand (beatBoundary u m d)) h

/-- A plan has ended and left one mark for count 100 of plane 0, which takes its position from VENC; the published position has
reached that count, and one sample instant of VENC is still to be derived at the boundary, 16 µs after reset. -/
def markWaits : State :=
  let d := (Dev.reset.put (F.LEV_CFG_PRI 0) 2).put F.FIRE_STAT_REJ_PEND 1
  { State.reset with dev := { d with rejectPts := [100], venc := some { x := 100 }, vencAt := 319 } }

/-- `markWaits` after the boundary. -/
def markRisen : State := settle markWaits (afterCommand (beatBoundary 0 0 (markWaits.dev.elapse 16000)))

set_option maxRecDepth 4000 in
theorem markWaits_quiet : Ready markWaits ∧ QuietBeat markWaits 16000 ∧ markWaits.dev.planActive = false
    ∧ markWaits.dev.get (F.PG_CTL_EN 0x48) = 0 ∧ (∀ l, l < 32 → (markWaits.dev.loop l).inSched = false) := by decide

theorem markWaits_pending : markWaits.dev.get F.FIRE_STAT_REJ_PEND = 1 := by decide

set_option maxRecDepth 20000 in
/-- The mark waits no longer (R233, R234). -/
theorem markRisen_pending : markRisen.dev.get F.FIRE_STAT_REJ_PEND = 0 := by decide

/-- Refutes O50: at a boundary with no plan and no unit named, the mark of a copy of an ended plan whose point VENC has reached
rises, and FIRE_STAT, a register that the clause of the frame says is kept, counts one mark fewer. -/
theorem not_beatBoundary : ¬ Obligations.BeatBoundary := by
  unfold Obligations.BeatBoundary
  intro h
  obtain ⟨hready, hquiet, hplan, hloops, hsched⟩ := markWaits_quiet
  obtain ⟨-, boundary⟩ := h 16000 0 0 _ 0 0 _ markWaits hready rfl rfl
  obtain ⟨t, ht, -, -, -, -, -, -, -, -, kept, -⟩ := boundary hquiet hplan hloops hsched (.inl rfl)
  obtain rfl : markRisen = t := Host.Outcome.next.inj ((exec_beatBoundary_run 16000 0 0 markWaits rfl).symm.trans ht)
  have same : markRisen.dev.get F.FIRE_STAT_REJ_PEND = markWaits.dev.get F.FIRE_STAT_REJ_PEND := by
    unfold Dev.get
    rw [kept rfl R.FIRE_STAT (by decide) (by decide)]
  rw [markRisen_pending, markWaits_pending] at same
  exact absurd same (by decide)

end Sys2Proof.Machine
end

section
/-! SUPPORT. O51 and O52: a line that enters stage 2 on a poisoned nozzle word marks the copy of its epoch for FLAGS.ECC (R338).
Where the list of copies does not hold that copy yet it grows by it, and with it the range in which a boundary looks for complete
copies (R208): one beyond the range that `OnePlane` speaks of may be complete, and its COPY record then goes into the print log's
ring (R209, R211), though the statements say that memory is kept. -/
namespace Sys2Proof.Machine

/-- Plane 2 prints with one nozzle of port 5, at 256 counts a line, from ENC[0]; the print log stands at the start of L2. -/
def eccRegs : Dev :=
  let d := ((Dev.reset.put (F.PLAN_PLANE_A_EN 2) 1).put (F.PLAN_PLANE_A_IN_MODE 2) 2).put (F.LEV_PITCH_PITCH 2) 0x1000000
  let d := (((d.put (F.PLAN_HP_A_EN 5) 1).put (F.PLAN_HP_A_PLANE 5) 2).put (F.PLAN_HP_A_NCOUNT 5) 1).put F.PLAN_CHK_ACTIVE 1
  ((d.put F.PLOG_BASE_LO_BASE 0x20000000).put F.PLOG_SIZE_SIZE 64).put (F.ENC_CFG_SRC 0) 3

/-- The one configuration of the plan. -/
def eccVersion : Version :=
  { plan := true, cfg := { regs := [R.PLAN_PLANE_A 2, R.PLAN_HP_A 5].map (fun a => (a, eccRegs.reg a)) } }

/-- Plane 2 with line 2 of epoch 0 in decode, four lines issued ahead, and the high-water mark `h`. -/
def eccPlane (h : Option Int) : Plane :=
  { hwm := h, cursor := 2, issue := 5, next := 1,
    slots := [{ line := 2, ord := 0, j := 2, stage := 1, why := 0, samples := [1], levels := [], after := {} }] }

/-- A plan on plane 2 whose nozzle has a poisoned word, and which holds the descriptor of epoch 2 alone. -/
def eccMet (h : Option Int) : State :=
  { State.reset with dev := { (eccRegs.setPlane 2 (eccPlane h)).setEnc 0
      { valid := true, vx := 250, xh := 250 * 65536, vh := 11184, restart := false, x := 250, vt := 12000 * 65536 } with
    l2Ram := true, versions := [eccVersion], ue := [(ueKey 0 20480, 1)], copies := [(2, { desc := { repeat_ := 1 } })] } }

/-- `eccMet` after the next boundary. -/
def eccLogged (h : Option Int) : State :=
  settle (eccMet h) (afterCommand (beatBoundary 0 0 ((eccMet h).dev.elapse 16000)))

theorem eccMet_exec (h : Option Int) : exec (.beatBoundary 16000 0 0) (eccMet h) = .next (eccLogged h) :=
  exec_beatBoundary_run 16000 0 0 (eccMet h) rfl

theorem eccMet_byte (h : Option Int) : (eccMet h).byte 0x20000000 = 0 := rfl

set_option maxRecDepth 20000 in
/-- The boundary at which nothing may be assigned for want of a high-water mark writes the COPY record of epoch 2. -/
theorem eccLogged_stopped : (eccLogged none).byte 0x20000000 = 1 := by decide

set_option maxRecDepth 20000 in
/-- So does the one at which the cursor line is not due. -/
theorem eccLogged_waiting : (eccLogged (some 250)).byte 0x20000000 = 1 := by decide

set_option maxRecDepth 20000 in
theorem eccMet_quiet (h : Option Int) (hh : h = none ∨ h = some 250) : Ready (eccMet h) ∧ QuietBeat (eccMet h) 16000
    ∧ OnePlane (eccMet h) eccVersion 2 := by
  obtain rfl | rfl := hh <;> decide

/-- A state whose first byte of L2 the boundary changes does not keep memory. -/
theorem not_memKept_eccLogged {h : Option Int} (hb : (eccLogged h).byte 0x20000000 = 1) : ¬ MemKept (eccMet h) (eccLogged h) := by
  intro hm
  have := hm 0x20000000
  rw [hb, eccMet_byte] at this
  exact absurd this (by decide)

/-- Refutes O51: with four lines issued ahead, the line that enters stage 2 marks the copy of epoch 0, which the list of copies does
not hold; the longer list reaches epoch 2, whose lines are all launched, and the boundary writes its COPY record. -/
theorem not_pipelineAtBoundary : ¬ Obligations.PipelineAtBoundary := by
  unfold Obligations.PipelineAtBoundary
  intro h
  obtain ⟨hready, hquiet, hplane⟩ := eccMet_quiet none (.inl rfl)
  obtain ⟨-, ahead, -⟩ := h 16000 2 _ _ eccVersion (eccMet none) hready hquiet rfl hplane (.inr rfl) rfl rfl
  obtain ⟨t, ht, -, -, -, -, -, -, hmem⟩ := ahead (by decide)
  obtain rfl : eccLogged none = t := Host.Outcome.next.inj ((eccMet_exec none).symm.trans ht)
  exact not_memKept_eccLogged eccLogged_stopped hmem

/-- The position of plane 2 in `eccMet` at the boundary: 250 counts at 12 µs, at 11184 × 2^-24 counts a nanosecond. -/
def eccTrack : Track := ((effPlane ((eccMet (some 250)).dev.elapse 16000) 2).getD ⟨0, 0, 0, 0, 0⟩)

set_option maxRecDepth 20000 in
/-- The cursor line of `eccMet`, whose copy does not begin with it, lies ahead of the web by more than the next beat. -/
theorem eccMet_waits : effPlane ((eccMet (some 250)).dev.elapse 16000) 2 = some eccTrack
    ∧ 250 < boundaryOf (eccMet (some 250)).dev 2 2 ∧ 0 < eccTrack.vh ∧ ((eccMet (some 250)).dev.get F.LEV_VMIN_VMIN : Int) ≤ eccTrack.vh
    ∧ ((((eccMet (some 250)).dev.elapse 16000).beatStart (((eccMet (some 250)).dev.elapse 16000).beatNum + 2) : Nat) : Int) * 65536
        ≤ predictT (boundaryOf (eccMet (some 250)).dev 2 2) eccTrack
    ∧ ∀ q ∈ ((eccMet (some 250)).dev.plane 2).slots, q.stage = 1 → q.line ≠ firstLine (eccMet (some 250)).dev q.ord 2 := by decide

theorem eccMet_assigns : (eccMet (some 250)).dev.get (F.LEV_STAT_REV 2) = 0 ∧ inSeamStop (eccMet (some 250)).dev 2 = false
    ∧ ((eccMet (some 250)).dev.plane 2).turn = 0 ∧ pitchOf (eccMet (some 250)).dev 2 ≠ 0
    ∧ ((eccMet (some 250)).dev.plane 2).next + 4 ≤ ((eccMet (some 250)).dev.plane 2).issue := by decide

/-- Refutes O52: at a boundary that assigns nothing, for the cursor line is not due in the next beat, the line that enters stage 2
makes the list of copies longer in the same way, and the boundary writes the COPY record of epoch 2. -/
theorem not_assignmentAndCapture : ¬ Obligations.AssignmentAndCapture := by
  unfold Obligations.AssignmentAndCapture
  intro h
  obtain ⟨hready, hquiet, hplane⟩ := eccMet_quiet (some 250) (.inr rfl)
  obtain ⟨htrack, hahead, hmoves, hfast, hlater, hinner⟩ := eccMet_waits
  obtain ⟨hrev, hrun, hturn, hpitch, hissued⟩ := eccMet_assigns
  obtain ⟨assigns, -⟩ := h 16000 2 _ _ eccVersion (eccMet (some 250)) hready hquiet hplane rfl rfl hinner
  obtain ⟨predicted, -⟩ := assigns 250 _ rfl rfl hrev hrun hturn hpitch rfl
  obtain ⟨-, later, -⟩ := predicted eccTrack _ htrack hahead hmoves hfast rfl
  obtain ⟨t, ht, -, -, -, hmem⟩ := later hlater hissued
  obtain rfl : eccLogged (some 250) = t := Host.Outcome.next.inj ((eccMet_exec (some 250)).symm.trans ht)
  exact not_memKept_eccLogged eccLogged_waiting hmem

end Sys2Proof.Machine
end

section
/-! SUPPORT. O49: PLAN_END writes a COPY record of every copy that has begun (R34, R208). The last word of such a record is the upper
half of plane 7's digest (R212), and an engine's write to the register window is performed like any other (R424): where firmware
has let the print log's ring end on SYS_CTL and given the log's master Monitor level (R369, R371), a digest with bit 32 set asks
for a soft reset (R408), which leaves no commit armed, though the statement says that commits of other modes stay. -/
namespace Sys2Proof.Machine

/-- Plane 7 of a plan that is being stopped with MODE 2 has launched a line; the print log's next record ends on SYS_CTL,
which its master may write. -/
def sysCtlLogRegs : Dev :=
  let d := ((Dev.reset.put (F.PLAN_PLANE_A_EN 7) 1).put (F.LEV_PITCH_PITCH 7) 0x1000000).put F.PLAN_CHK_ACTIVE 1
  ((d.put F.PLOG_BASE_LO_BASE (0x40000000 + R.SYS_CTL + 4 - 96)).put F.PLOG_SIZE_SIZE 64).put (F.SHROUD_MASTER_LVL 10) 0

/-- A NEXT_BEAT commit of page 0x44. -/
def nextBeat44 : Armed := { mode := 2, target := none, source := 0, at_ := 0 }

def endsOnSysCtl : State :=
  { State.reset with dev := { sysCtlLogRegs.setPlane 7 { next := 1 } with
      versions := [{ plan := true, cfg := { regs := [(R.PLAN_PLANE_A 7, sysCtlLogRegs.reg (R.PLAN_PLANE_A 7))] } }]
      stopMode := 2, armed := [(0x44, some nextBeat44)]
      copies := [(0, { desc := { repeat_ := 1 }, digest := [(7, 2 ^ 32)] })] } }

/-- `endsOnSysCtl` after PLAN_END. -/
def endedByReset : State := settle endsOnSysCtl (afterCommand (planEnd (endsOnSysCtl.dev.elapse 0)))

theorem endsOnSysCtl_ends : Ready endsOnSysCtl ∧ endsOnSysCtl.dev.planActive = true ∧ endsOnSysCtl.dev.stopMode ≠ 0
    ∧ stopPlanes.all (planeEnded (endsOnSysCtl.dev.elapse 0)) = true := by decide

set_option maxRecDepth 20000 in
/-- The block has been reset: no commit is armed. -/
theorem endedByReset_armed : cellGet none endedByReset.dev.armed 0x44 = none := by decide

/-- PLAN_END on a block that runs. -/
theorem exec_planEnd_run (dt : Nat) (s : State) (h : s.dev.power = .run) :
    exec (.planEnd dt) s = .next (settle s (afterCommand (planEnd (s.dev.elapse dt)))) :=
  perform_run dt s (fun d => afterCommand (planEnd d)) h

/-- Refutes O49: the COPY record that PLAN_END writes ends on SYS_CTL and asks for a soft reset, after which the NEXT_BEAT commit of
page 0x44, one that the end of a plan leaves armed, is armed no more. -/
theorem not_planLife : ¬ Obligations.PlanLife := by
  unfold Obligations.PlanLife
  intro h
  obtain ⟨hready, hplan, hstop, hended⟩ := endsOnSysCtl_ends
  obtain ⟨-, -, -, -, ends, -⟩ := h 0 ⟨none, 0, 0, [], { code := 0 }, none, none⟩ endsOnSysCtl hready
  obtain ⟨t, ht, -, -, -, -, -, armed⟩ := ends hplan hstop hended
  obtain rfl : endedByReset = t := Host.Outcome.next.inj ((exec_planEnd_run 0 endsOnSysCtl rfl).symm.trans ht)
  obtain ⟨-, stays⟩ := armed 0x44 nextBeat44 rfl
  have same := stays (.inl (by decide))
  rw [endedByReset_armed] at same
  exact absurd same (by decide)

end Sys2Proof.Machine
end

section
/-! SUPPORT. O2: before anything else, a change on a quadrature input lets the position published by VENC be derived up to now
(R62), and the planes of a plan that print on VENC follow it (R49): LEV_STAT.STOPPED of such a plane changes with the change on
QD, though the statement says that no register does. -/
namespace Sys2Proof.Machine

/-- A change on a quadrature input of a block that runs. -/
theorem exec_qdTransition_run (dt : Nat) (i : Fin 4) (a b z : Bool) (s : State) (h : s.dev.power = .run) :
    exec (.qdTransition dt i a b z) s = .next (settle s (afterCommand (qdInput i a b z (vencRun (s.dev.elapse dt))))) :=
  perform_run dt s (fun d => afterCommand (qdInput i a b z (vencRun d))) h

/-- A plan on plane 0, which takes its position from VENC; unit 0 reads QD[0]. -/
def vencPlanRegs : Dev :=
  (((Dev.reset.put F.PLAN_CHK_ACTIVE 1).put (F.PLAN_PLANE_A_EN 0) 1).put (F.LEV_CFG_PRI 0) 2).put (F.ENC_CFG_SRC 0) 3

/-- Plane 0 is marked as stopped, and the published web runs at 2^-4 counts a nanosecond; unit 0 has taken every sample of its
input up to now. -/
def vencRuns : State :=
  { State.reset with dev := { vencPlanRegs.setEnc 0 { qdAt := 100 } with
      venc := some { v := 2 ^ 20 }
      versions := [{ plan := true, cfg := { regs := [(R.PLAN_PLANE_A 0, vencPlanRegs.reg (R.PLAN_PLANE_A 0))] } }] } }

/-- `vencRuns` after a change on QD[0] one sample instant of VENC later. -/
def vencFollowed : State := settle vencRuns (afterCommand (qdInput (0 : Fin 4) true false false (vencRun (vencRuns.dev.elapse 50))))

theorem vencRuns_steady : Ready vencRuns ∧ PositionSteady vencRuns ∧ vencRuns.dev.get (F.ENC_CFG_SRC (0 : Fin 2)) = 3 + (0 : Fin 4)
    ∧ vencRuns.dev.get (F.ENC_CFG_SRC (1 : Fin 2)) ≠ 3 + (0 : Fin 4)
    ∧ (vencRuns.dev.elapse 50).fastSample ≤ (vencRuns.dev.enc (0 : Fin 2)).qdAt := by decide

theorem vencRuns_stopped : vencRuns.dev.get (F.LEV_STAT_STOPPED 0) = 1 := by decide

set_option maxRecDepth 20000 in
/-- Plane 0 has followed VENC, whose web moves (R49). -/
theorem vencFollowed_moves : vencFollowed.dev.get (F.LEV_STAT_STOPPED 0) = 0 := by decide

/-- Refutes O2: with no 200 MHz sample in between, a change on QD[0] leaves unit 0 as it was, but in the same command plane 0
follows VENC and is marked as moving, in LEV_STAT, a register that the statement says is kept. -/
theorem not_quadratureTransitions : ¬ Obligations.QuadratureTransitions := by
  unfold Obligations.QuadratureTransitions
  intro h
  obtain ⟨hready, hsteady, hsrc, hother, htaken⟩ := vencRuns_steady
  obtain ⟨taken, -⟩ := h 50 _ _ 0 0 0 1 true false false _ vencRuns hready hsteady (by decide) hsrc hother rfl rfl rfl
  obtain ⟨t, ht, -, -, kept, -⟩ := taken htaken
  obtain rfl : vencFollowed = t := Host.Outcome.next.inj ((exec_qdTransition_run 50 0 true false false vencRuns rfl).symm.trans ht)
  have same : vencFollowed.dev.get (F.LEV_STAT_STOPPED 0) = vencRuns.dev.get (F.LEV_STAT_STOPPED 0) := by
    unfold Dev.get
    rw [kept _ List.not_mem_nil]
  rw [vencFollowed_moves, vencRuns_stopped] at same
  exact absurd same (by decide)

end Sys2Proof.Machine
end

section
/-! SUPPORT. O3: a plane that has fallen back stays on its fall-back source when firmware clears FB_EN. ENC_LOAD looks at FB_EN to
see whether the unit serves the plan (R45, R363) and sets its count; where INDEX_VALUE is a limit of the count the fault that this
declares (R42) stops the plane (R56), which changes registers that the statement says are kept. -/
namespace Sys2Proof.Machine

/-- ENC_LOAD of a block that runs. -/
theorem exec_encLoad_run (dt : Nat) (e : Fin 2) (s : State) (h : s.dev.power = .run) :
    exec (.encLoad dt e) s = .next (settle s (afterCommand (encLoad e (s.dev.elapse dt)))) :=
  perform_run dt s (fun d => afterCommand (encLoad e d)) h

/-- A plan on plane 0, whose primary is unit 1 and which has fallen back to unit 0; FB_EN is 0, and INDEX_VALUE of unit 0 is
-2^47. -/
def fallenBackRegs : Dev :=
  let d := ((Dev.reset.put F.PLAN_CHK_ACTIVE 1).put (F.PLAN_PLANE_A_EN 0) 1).put (F.LEV_CFG_PRI 0) 1
  ((d.put (F.LEV_STAT_FB_ACTIVE 0) 1).put (F.ENC_CFG_SRC 0) 3).put (F.ENC_IDX_HI_VALUE 0) 0x8000

def fallenBack : State :=
  { State.reset with dev := { fallenBackRegs with
      versions := [{ plan := true, cfg := { regs := [(R.PLAN_PLANE_A 0, fallenBackRegs.reg (R.PLAN_PLANE_A 0))] } }] } }

/-- `fallenBack` after ENC_LOAD of unit 0. -/
def loadStopped : State := settle fallenBack (afterCommand (encLoad (0 : Fin 2) (fallenBack.dev.elapse 0)))

theorem fallenBack_steady : Ready fallenBack ∧ boundToPlan fallenBack.dev (0 : Fin 2) = false ∧ LevelsTaken fallenBack (0 : Fin 2)
    ∧ PositionSteady fallenBack ∧ (∀ p, p < 8 → sourceInUse fallenBack.dev p = (0 : Fin 2) → (fallenBack.dev.plane p).assigns = [])
    ∧ indexValue fallenBack.dev (0 : Fin 2) = countMin ∧ encFaulty fallenBack.dev (0 : Fin 2) = false := by decide

theorem fallenBack_runs : fallenBack.dev.get (F.STORE_SEAM_STAT_STATE 0) = seamRun := by decide

set_option maxRecDepth 20000 in
/-- Plane 0 is in seam-stop (R56, R178). -/
theorem loadStopped_stopped : loadStopped.dev.get (F.STORE_SEAM_STAT_STATE 0) = seamStopped := by decide

/-- Refutes O3: ENC_LOAD of a unit to a limit of the count, while a plane of the active plan is on that unit as its fall-back with
FB_EN 0, stops the plane: STORE_SEAM_STAT, a register that the clause of the saturation fault says is kept, shows it. -/
theorem not_encoderControls : ¬ Obligations.EncoderControls := by
  unfold Obligations.EncoderControls
  intro h
  obtain ⟨hready, hfree, htaken, hsteady, hassigns, hlimit, hsound⟩ := fallenBack_steady
  obtain ⟨-, -, -, load, -⟩ := h 0 0 0 fallenBack hready
  obtain ⟨saturates, -⟩ := load hfree htaken hsteady hassigns
  obtain ⟨t, ht, -, -, -, -, -, kept, -⟩ := saturates (.inl hlimit) hsound
  obtain rfl : loadStopped = t := Host.Outcome.next.inj ((exec_encLoad_run 0 0 fallenBack rfl).symm.trans ht)
  have same : loadStopped.dev.get (F.STORE_SEAM_STAT_STATE 0) = fallenBack.dev.get (F.STORE_SEAM_STAT_STATE 0) := by
    unfold Dev.get
    rw [kept (F.STORE_SEAM_STAT_STATE 0).addr (by decide)]
  rw [loadStopped_stopped, fallenBack_runs] at same
  exact absurd same (by decide)

end Sys2Proof.Machine
end

section
/-! SUPPORT. O54: the launch of a copy's last line writes its COPY record (R208), whose last word is the upper half of plane 7's
digest (R212). As in O49, a print log that ends on SYS_CTL makes that record ask for a soft reset when the digest has bit 32 set
(R408), and after the reset no line of the plane counts as launched. -/
namespace Sys2Proof.Machine

/-- A launch on a block that runs. -/
theorem exec_fireFrameLaunch_run (dt : Nat) (p : Fin 8) (delays : List Nat) (s : State) (h : s.dev.power = .run) :
    exec (.fireFrameLaunch dt p delays) s = .next (settle s (afterCommand (fireLaunch p delays (s.dev.elapse dt)))) :=
  perform_run dt s (fun d => afterCommand (fireLaunch p delays d)) h

/-- `sysCtlLogRegs` with port 5 bound to plane 7. -/
def lastLineRegs : Dev := (sysCtlLogRegs.put (F.PLAN_HP_A_EN 5) 1).put (F.PLAN_HP_A_PLANE 5) 7

/-- The one line of the copy, framed: one nozzle fires, with level 1. -/
def lastLine : Slot := { line := 0, ord := 0, j := 0, stage := 4, why := 0, samples := [], levels := [(5, [1])], after := {} }

def lastLineAt : Assign := { line := 0, t := 0, late := false, seen := false }

/-- Plane 7 is about to launch the one line of a copy; the print log's next record ends on SYS_CTL. -/
def lastLineDue : State :=
  { State.reset with dev := { lastLineRegs.setPlane 7 { assigns := [lastLineAt], slots := [lastLine] } with
      versions := [{ plan := true, cfg := { regs := [R.PLAN_PLANE_A 7, R.PLAN_HP_A 5].map (fun a => (a, lastLineRegs.reg a)) } }]
      copies := [(0, { desc := { repeat_ := 1 } })] } }

/-- `lastLineDue` after the launch. -/
def launchedIntoReset : State := settle lastLineDue (afterCommand (fireLaunch (7 : Fin 8) [] (lastLineDue.dev.elapse 0)))

set_option maxRecDepth 4000 in
theorem lastLineDue_ready : Ready lastLineDue ∧ lastLineDue.dev.planActive = true
    ∧ cfgPorts (cfgFor lastLineDue.dev 0) (7 : Fin 8) = [(5 : Fin 32).val]
    ∧ cfgGet (cfgFor lastLineDue.dev 0) (F.PLAN_HP_A_WAVE_EN (5 : Fin 32)) = 0 ∧ (lastLineDue.dev.link (5 : Fin 32)).up = false := by decide

set_option maxRecDepth 20000 in
/-- The block has been reset: plane 7 has launched no line. -/
theorem launchedIntoReset_next : (launchedIntoReset.dev.plane (7 : Fin 8)).next = 0 := by decide

/-- Refutes O54: the COPY record that the launch of a copy's last line writes ends on SYS_CTL and asks for a soft reset, after
which the plane's next line is line 0 again, not the one after the line launched. -/
theorem not_launchCompletes : ¬ Obligations.LaunchCompletes := by
  unfold Obligations.LaunchCompletes
  rintro ⟨launch, -⟩
  obtain ⟨hready, hplan, hport, hwave, hdown⟩ := lastLineDue_ready
  obtain ⟨⟨t, ht, -, -, hnext⟩, -⟩ := launch 0 7 5 [] lastLineAt lastLine _ _ [1] _ _ lastLineDue hready hplan rfl rfl
    (by decide) rfl hport hwave rfl (by decide) (.inl hdown) rfl rfl rfl
  obtain rfl : launchedIntoReset = t := Host.Outcome.next.inj ((exec_fireFrameLaunch_run 0 7 [] lastLineDue rfl).symm.trans ht)
  rw [launchedIntoReset_next] at hnext
  exact absurd hnext (by decide)

end Sys2Proof.Machine
end

section
/-! SUPPORT. Position samples that no plane answers: with no plan active, or with sound sources, a sample touches its own source
alone (R49, R55, R56, R59, R233). -/
namespace Sys2Proof.Machine

/-! ### Events -/

/-- An EVENT changes at most the count of those dropped. -/
theorem Kept.sendEvent {l : List Nat} {d e : Dev} (h : Kept l d e) (c pl n i j : Nat) (hl : R.CNT_EVT_DROP ∈ l) :
    Kept l d (e.sendEvent c pl n i j) := by
  unfold Dev.sendEvent Dev.queueEvent
  exact .ite h (.ite h (.ite (h.count _ hl) (h.trans (.of_regs rfl))))

theorem Calm.sendEvent {l : List Nat} {d e : Dev} (h : Calm l d e) (c pl n i j : Nat) (hl : R.CNT_EVT_DROP ∈ l) :
    Calm l d (e.sendEvent c pl n i j) := by
  have k := (Kept.refl l e).sendEvent c pl n i j hl
  have f := Dev.sendEvent_frame e c pl n i j
  generalize e.sendEvent c pl n i j = e' at k f
  refine h.trans ⟨k, ?_, ?_, ?_, ?_, ?_, ?_, ?_⟩ <;> rw [f]

/-! ### Planes -/

theorem activePlanes_lt {d : Dev} {p : Nat} (h : p ∈ activePlanes d) : p < 8 := by
  unfold activePlanes at h
  split at h
  · exact List.mem_range.1 (List.mem_of_mem_filter h)
  · exact absurd h List.not_mem_nil

theorem activePlanes_noPlan {d : Dev} (h : d.planActive = false) : activePlanes d = [] := by
  unfold activePlanes; simp [h]

/-- No plane has a fall-back source, the block publishes no position, and every active plane has a source that works:
`PositionSteady` of the block. -/
abbrev Steady (d : Dev) : Prop :=
  d.get F.PLAN_STAY_PUBLISHER = 0 ∧ (∀ p, p < 8 → d.get (F.LEV_CFG_FB_EN p) = 0)
    ∧ ∀ p ∈ activePlanes d, sourceFailed d (sourceInUse d p) = false ∧ holdsCause d p causeEncoder = false

theorem trackDelta_off {d : Dev} {p : Nat} (h : d.get (F.LEV_CFG_FB_EN p) = 0) : trackDelta p d = d := by
  unfold trackDelta; simp [Dev.getB, h]

/-- A plane with no fall-back, whose source works if it is at work, has nothing to answer. -/
theorem sourceCheck_steady {d : Dev} {p : Nat} (hf : d.get (F.LEV_CFG_FB_EN p) = 0)
    (hs : p ∈ activePlanes d → sourceFailed d (sourceInUse d p) = false ∧ holdsCause d p causeEncoder = false) :
    sourceCheck p d = d := by
  have hfb : fallbackValid d p = false := by unfold fallbackValid; simp [Dev.getB, hf]
  unfold sourceCheck
  simp only [hfb, Bool.and_false, Bool.false_eq_true, if_false]
  by_cases hp : p ∈ activePlanes d
  · simp [hs hp]
  · simp [hp]

theorem publisherTrack_off {d : Dev} (h : d.get F.PLAN_STAY_PUBLISHER = 0) : publisherTrack d = d := by
  unfold publisherTrack; simp [Dev.getB, h]

theorem planesAnswer_steady {d : Dev} (h : Steady d) : planesAnswer d = d := by
  obtain ⟨hpub, hfb, hsrc⟩ := h
  unfold planesAnswer
  rw [forN_id 8 _ d (fun p hp => by rw [trackDelta_off (hfb p hp), sourceCheck_steady (hfb p hp) (hsrc p)])]
  exact publisherTrack_off hpub

/-- A sample of a source that no active plane and no waiting mark is on. -/
theorem sampleFollowed_idle {d : Dev} {s : Nat} (h : Steady d) (hm : d.rejectPts = [] ∨ sourceInUse d (d.get F.FIRE_CFG_REJ_PLANE) ≠ s)
    (hs : ∀ p ∈ activePlanes d, sourceInUse d p ≠ s) : sampleFollowed s d = d := by
  have follow : forL (activePlanes d) (fun p x =>
      let q := sourceInUse x p
      if q = s || (q != sourceInUse d p && sourceInstant x q == x.now / 50) then hwmUpdate p x else x) d = d := by
    unfold forL
    generalize activePlanes d = l at hs
    induction l with
    | nil => rfl
    | cons p l ih =>
      rw [List.foldl_cons]
      simp only [hs p List.mem_cons_self, bne_self_eq_false, Bool.false_and, decide_false, Bool.or_false, Bool.false_eq_true, if_false]
      exact ih (fun q hq => hs q (List.mem_cons_of_mem _ hq))
  unfold sampleFollowed
  simp only [planesAnswer_steady h]
  rw [follow]
  unfold marksFollow
  rcases hm with hm | hm <;> simp [hm]

/-! ### A block with no plan -/

/-- No plan is active, no mark waits, no plane has a fall-back source and the block publishes no position: `PositionAlone` of
the block. -/
abbrev Alone (d : Dev) : Prop :=
  d.planActive = false ∧ d.rejectPts = [] ∧ d.get F.PLAN_STAY_PUBLISHER = 0 ∧ ∀ p, p < 8 → d.get (F.LEV_CFG_FB_EN p) = 0

/-- The registers that `Alone` reads. -/
abbrev aloneRegs : List Nat := [R.PLAN_CHK, R.PLAN_STAY] ++ (List.range 8).map R.LEV_CFG

theorem Alone.of_kept {l : List Nat} {d e : Dev} (h : Alone d) (k : Kept l d e) (hr : e.rejectPts = d.rejectPts)
    (hl : ∀ a ∈ aloneRegs, a ∉ l) : Alone e := by
  obtain ⟨hplan, hpts, hpub, hfb⟩ := h
  refine ⟨?_, hr.trans hpts, ?_, fun p hp => ?_⟩
  · exact (k.getB_eq (g := F.PLAN_CHK_ACTIVE) (hl _ (by simp))).trans hplan
  · exact (k.get_eq (g := F.PLAN_STAY_PUBLISHER) (hl _ (by simp))).trans hpub
  · refine (k.get_eq (g := F.LEV_CFG_FB_EN p) (hl _ ?_)).trans (hfb p hp)
    exact List.mem_append_right _ (List.mem_map_of_mem (List.mem_range.2 hp))

theorem Alone.steady {d : Dev} (h : Alone d) : Steady d := by
  obtain ⟨hplan, -, hpub, hfb⟩ := h
  exact ⟨hpub, hfb, by simp [activePlanes_noPlan hplan]⟩

theorem Alone.sampleFollowed {d : Dev} (h : Alone d) (s : Nat) : sampleFollowed s d = d :=
  sampleFollowed_idle h.steady (.inl h.2.1) (by simp [activePlanes_noPlan h.1])

theorem camsFollow_noPlan {d : Dev} (h : d.planActive = false) : camsFollow d = d := by
  have hb (c : Nat) : camFollow c d = d := by unfold camFollow camBound; simp [h]
  unfold camsFollow
  rw [hb, hb]

/-! ### VENC up to now -/

/-- Deriving VENC up to now notes the instant and does no more, where nothing takes its position from it. -/
theorem vencRun_idle {d : Dev} (h : (d.planActive = false ∧ d.rejectPts = []) ∨ ∀ p, p < 8 → sourceInUse d p ≠ 2) :
    vencRun d = { d with vencAt := d.now / 50 } := by
  unfold vencRun
  simp only
  rw [if_pos]
  rcases h with ⟨hplan, hpts⟩ | h
  · simp only [Bool.or_eq_true]
    refine .inl (.inl ?_)
    rw [hpts]
    exact congrArg (fun b => !b && true) hplan
  · simp only [Bool.or_eq_true]
    refine .inr ?_
    have hv : (List.range 8).any (fun p => sourceInUse d p == 2) = false := by simpa using h
    exact congrArg (!·) hv

theorem vencAt_calm (d : Dev) (n : Nat) : Calm [] d { d with vencAt := n } :=
  ⟨.of_regs rfl, rfl, rfl, rfl, rfl, rfl, rfl, rfl⟩

end Sys2Proof.Machine
end

section
/-! SUPPORT. O4: what a published sample and its absence do (R60, R61, R63). -/
namespace Sys2Proof.Machine

theorem Dev.b2n_getB (d : Dev) {f : RegField} (hw : f.width = 1) : b2n (d.getB f) = d.get f := by
  have := Dev.get_lt d f
  rw [hw] at this
  unfold Dev.getB
  interval_cases d.get f <;> rfl

/-! ### A sample arrives -/

/-- The number of the active PTP domain, and of the other one. -/
def activeDomain (d : Dev) : Nat := d.get (F.TIME_DOM_CFG_DOMAIN (d.get (F.TIME_DOM_STAT_ACTIVE 1)))
def standbyDomain (d : Dev) : Nat := d.get (F.TIME_DOM_CFG_DOMAIN (1 - d.get (F.TIME_DOM_STAT_ACTIVE 1)))

/-- The time that a sample states, 2^-16 ns (R60). -/
def sampleTime (bs : List Byte) : Int := ((beAt bs 8 6 * 1000000000 + beAt bs 14 4) * 65536 + beAt bs 18 2 : Nat)

/-- What sample `bs` of the active domain says, or one of the standby domain, whose time is moved to the local clock (R60, R61). -/
def sampleOf (bs : List Byte) (d : Dev) : VencSample :=
  { t := if byteAt bs 2 = activeDomain d then sampleTime bs
      else sampleTime bs - d.getI (F.TIME_DOM_OFS_OFS (1 - d.get (F.TIME_DOM_STAT_ACTIVE 1))) * 256
    x := toSigned 48 (beAt bs 20 6), v := toSigned 32 (beAt bs 26 4), a := toSigned 16 (beAt bs 30 2)
    flags := byteAt bs 1, seq := beAt bs 4 4 }

/-- VENC_STAT once a sample with `flags` has been taken (R61, R63). -/
def vencFlags (flags : Nat) (d : Dev) : Dev :=
  ((d.put F.VENC_STAT_LOST 0).putB F.VENC_STAT_PUB_FAULT (bit flags 1)).putB F.VENC_STAT_PUB_FALLBACK (bit flags 3)

/-- The block that holds sample `bs` as the latest one accepted. -/
def sampleHeld (bs : List Byte) (d : Dev) : Dev :=
  { d with vencSeqs := (beAt bs 4 4 :: d.vencSeqs).take 64, vencIdle := 0, vencFresh := true, venc := some (sampleOf bs d) }

/-- The block once sample `bs` has been taken, with nothing that follows it. -/
def sampleTaken (bs : List Byte) (d : Dev) : Dev := vencFlags (byteAt bs 1) (sampleHeld bs d)

section
variable {d : Dev} {bs : List Byte}

theorem vencAccept_seen (h : d.vencSeqs.contains (beAt bs 4 4) = true) : vencAccept bs d = d := by
  unfold vencAccept
  simp only [h, if_true, ite_self]

theorem vencAccept_unknown (ha : Alone d) (hr : d.get F.TIME_CTL_SRC = 0) (hlen : bs.length = 32) (hfmt : byteAt bs 0 = 1)
    (hnew : d.vencSeqs.contains (beAt bs 4 4) = false) (hact : byteAt bs 2 ≠ activeDomain d) (hstby : byteAt bs 2 ≠ standbyDomain d) :
    vencAccept bs d = d.count F.VENC_STAT_DISCARD 1 := by
  obtain ⟨-, -, hpub, -⟩ := ha
  unfold vencAccept
  simp only [Dev.getB_of_get_zero hpub, Dev.getB_of_get_zero hr, hlen, hfmt, hnew, d.b2n_getB (f := F.TIME_DOM_STAT_ACTIVE 1) rfl]
  rw [if_neg (by simp), if_neg (by simp)]
  exact if_pos ⟨hact, hstby⟩

theorem vencFlags_calm (flags : Nat) (d : Dev) : Calm [R.VENC_STAT] d (vencFlags flags d) :=
  (((Calm.refl _ d).put (g := F.VENC_STAT_LOST) _ (by simp)).put (g := F.VENC_STAT_PUB_FAULT) _ (by simp)).put
    (g := F.VENC_STAT_PUB_FALLBACK) _ (by simp)

theorem sampleTaken_calm (bs : List Byte) (d : Dev) : Calm [R.VENC_STAT] d (sampleTaken bs d) :=
  Calm.trans (e := sampleHeld bs d) ⟨.of_regs rfl, rfl, rfl, rfl, rfl, rfl, rfl, rfl⟩ (vencFlags_calm _ _)

theorem Alone.sampleTaken (h : Alone d) (bs : List Byte) : Alone (sampleTaken bs d) :=
  h.of_kept (sampleTaken_calm bs d).regs rfl (by decide)

theorem vencAccept_known (ha : Alone d) (hr : d.get F.TIME_CTL_SRC = 0) (hlen : bs.length = 32) (hfmt : byteAt bs 0 = 1)
    (hnew : d.vencSeqs.contains (beAt bs 4 4) = false) (hdom : byteAt bs 2 = activeDomain d ∨ byteAt bs 2 = standbyDomain d) :
    vencAccept bs d = sampleTaken bs d := by
  have hpub := ha.2.2.1
  have htaken := ha.sampleTaken bs
  have hstop : vencFaultStop (sampleTaken bs d) = sampleTaken bs d := by
    unfold vencFaultStop; rw [activePlanes_noPlan htaken.1]; rfl
  unfold vencAccept
  simp only [Dev.getB_of_get_zero hpub, Dev.getB_of_get_zero hr, hlen, hfmt, hnew, d.b2n_getB (f := F.TIME_DOM_STAT_ACTIVE 1) rfl]
  rw [if_neg (by simp), if_neg (by simp), if_neg (fun hn => hdom.elim hn.1 hn.2)]
  change sampleFollowed 2 (if bit (byteAt bs 1) 1 then vencFaultStop (sampleTaken bs d) else sampleTaken bs d) = _
  rw [hstop, ite_self]
  exact htaken.sampleFollowed 2

theorem vencFlags_get (flags : Nat) (d : Dev) : (vencFlags flags d).get F.VENC_STAT_LOST = 0
    ∧ (vencFlags flags d).get F.VENC_STAT_PUB_FAULT = b2n (bit flags 1)
    ∧ (vencFlags flags d).get F.VENC_STAT_PUB_FALLBACK = b2n (bit flags 3) := by
  have hb (b : Bool) : b2n b % 2 ^ 1 = b2n b := Nat.mod_eq_of_lt (b2n_lt b)
  unfold vencFlags Dev.putB
  refine ⟨?_, ?_, ?_⟩
  · rw [Dev.get_put_apart _ _ _ _ (by decide) (by decide), Dev.get_put_apart _ _ _ _ (by decide) (by decide),
      Dev.get_put_same _ _ _ (by decide), Nat.zero_mod]
  · rw [Dev.get_put_apart _ _ _ _ (by decide) (by decide), Dev.get_put_same _ _ _ (by decide), hb]
  · rw [Dev.get_put_same _ _ _ (by decide), hb]

theorem sampleTaken_get (bs : List Byte) (d : Dev) : (sampleTaken bs d).get F.VENC_STAT_LOST = 0
    ∧ (sampleTaken bs d).get F.VENC_STAT_PUB_FAULT = b2n (bit (byteAt bs 1) 1)
    ∧ (sampleTaken bs d).get F.VENC_STAT_PUB_FALLBACK = b2n (bit (byteAt bs 1) 3) := vencFlags_get _ _

theorem sampleTaken_venc (bs : List Byte) (d : Dev) : (sampleTaken bs d).venc = some (sampleOf bs d) := rfl
end

/-! ### No sample arrives -/

/-- The plane's source in use is register fields of its own. -/
theorem sourceInUse_kept {l : List Nat} {d e : Dev} (k : Kept l d e) {p : Nat} (hc : R.LEV_CFG p ∉ l) (hs : R.LEV_STAT p ∉ l) :
    sourceInUse e p = sourceInUse d p := by
  unfold sourceInUse
  rw [k.getB_eq (g := F.LEV_STAT_FB_ACTIVE p) hs, k.get_eq (g := F.LEV_CFG_FB p) hc, k.get_eq (g := F.LEV_CFG_PRI p) hc]

/-- Whether a unit has failed is register fields of its own. -/
theorem unitFailed_kept {l : List Nat} {d e : Dev} (k : Kept l d e) {u : Nat} (hu : u < 2) (hc : R.ENC_CFG u ∉ l) (hs : R.ENC_STAT u ∉ l) :
    sourceFailed e u = sourceFailed d u := by
  unfold sourceFailed encFaulty
  rw [if_pos hu, if_pos hu, k.get_eq (g := F.ENC_CFG_SRC u) hc, k.getB_eq (g := F.ENC_STAT_FAULT u) hs]

theorem holdsCause_kept {l : List Nat} {d e : Dev} (k : Kept l d e) {p : Nat} (hs : R.STORE_SEAM_STAT p ∉ l) (c : Nat) :
    holdsCause e p c = holdsCause d p c := by
  unfold holdsCause; rw [k.get_eq (g := F.STORE_SEAM_STAT_CAUSES p) hs]

/-- A source that works and is not VENC is a unit. -/
theorem unit_of_works {d : Dev} {u : Nat} (h : sourceFailed d u = false) (hv : u ≠ 2) : u < 2 := by
  unfold sourceFailed at h
  split at h
  · assumption
  · exact absurd h (by simp)

/-- No plane has a fall-back source, and each is on a unit that works and does not stop for its source. -/
abbrev OnUnits (d : Dev) : Prop :=
  ∀ p, p < 8 → d.get (F.LEV_CFG_FB_EN p) = 0 ∧ sourceInUse d p ≠ 2 ∧ sourceFailed d (sourceInUse d p) = false
    ∧ holdsCause d p causeEncoder = false

/-- The registers that the loss of VENC changes (R61). -/
abbrev lostRegs : List Nat := [R.VENC_STAT, R.CNT_EVT_DROP] ++ eventRegs 0x07

theorem OnUnits.of_kept {d e : Dev} (h : OnUnits d) (k : Kept lostRegs d e) : OnUnits e := by
  have hregs : ∀ p, p < 8 → R.LEV_CFG p ∉ lostRegs ∧ R.LEV_STAT p ∉ lostRegs ∧ R.STORE_SEAM_STAT p ∉ lostRegs := by decide
  have hunits : ∀ u, u < 2 → R.ENC_CFG u ∉ lostRegs ∧ R.ENC_STAT u ∉ lostRegs := by decide
  intro p hp
  obtain ⟨hcfg, hstat, hseam⟩ := hregs p hp
  obtain ⟨hfb, hvenc, hworks, hcause⟩ := h p hp
  have hu := unit_of_works hworks hvenc
  obtain ⟨hec, hes⟩ := hunits _ hu
  rw [sourceInUse_kept k hcfg hstat, unitFailed_kept k hu hec hes, holdsCause_kept k hseam, k.get_eq (g := F.LEV_CFG_FB_EN p) hcfg]
  exact ⟨hfb, hvenc, hworks, hcause⟩

/-- Planes on units do not follow VENC. -/
theorem OnUnits.sampleFollowed {d : Dev} (h : OnUnits d) (hp : d.get F.PLAN_STAY_PUBLISHER = 0) : sampleFollowed 2 d = d :=
  sampleFollowed_idle
    ⟨hp, fun p hp => (h p hp).1, fun p hp => (h p (activePlanes_lt hp)).2.2⟩
    (.inr (h _ (Dev.get_lt d F.FIRE_CFG_REJ_PLANE)).2.1) (fun p hp => (h p (activePlanes_lt hp)).2.1)

/-- VENC is lost: the flag, the block event and the EVENT (R61). -/
def vencGone (d : Dev) : Dev := ((d.put F.VENC_STAT_LOST 1).raise 0x07 5).sendEvent 9 0xFF 0 0 0

theorem vencGone_calm (d : Dev) : Calm lostRegs d (vencGone d) :=
  (((Calm.refl _ d).put (g := F.VENC_STAT_LOST) _ (by decide)).raise 0x07 5 (by decide)).sendEvent _ _ _ _ _ (by decide)

theorem vencGone_lost (d : Dev) : (vencGone d).get F.VENC_STAT_LOST = 1 := by
  have hsent := (Kept.refl [R.CNT_EVT_DROP] ((d.put F.VENC_STAT_LOST 1).raise 0x07 5)).sendEvent 9 0xFF 0 0 0 (by decide)
  have hraised := (Kept.refl (eventRegs 0x07) (d.put F.VENC_STAT_LOST 1)).raise 0x07 5 (List.Subset.refl _)
  rw [vencGone, hsent.get_eq (g := F.VENC_STAT_LOST) (by decide), hraised.get_eq (g := F.VENC_STAT_LOST) (by decide)]
  exact Dev.get_put_same _ _ _ (by decide)

theorem vencGone_event (d : Dev) : (vencGone d).evtSet 0x07 13 := by
  have hsent := (Kept.refl [R.CNT_EVT_DROP] ((d.put F.VENC_STAT_LOST 1).raise 0x07 5)).sendEvent 9 0xFF 0 0 0 (by decide)
  rw [vencGone, Dev.evtSet, hsent.reg_eq (by decide)]
  exact Dev.evtSet_raiseBits _ 0x07 13 (by omega)

theorem vencLost_gone {d : Dev} (hm : vencMonitored d = true) (hl : d.get F.VENC_STAT_LOST = 0) (ht : d.get F.VENC_CFG_TMO ≤ d.vencIdle)
    (hp : d.get F.PLAN_STAY_PUBLISHER = 0) (hu : OnUnits d) : vencLost d = vencGone d := by
  have k := (vencGone_calm d).regs
  unfold vencLost
  rw [if_pos (by simp [hm, Dev.getB_of_get_zero hl, ht])]
  exact (hu.of_kept k).sampleFollowed ((k.get_eq (g := F.PLAN_STAY_PUBLISHER) (by decide)).trans hp)

/-! ### The commands -/

@[simp] theorem State.after_venc (s : State) (e : Dev) : (s.after e).dev.venc = e.venc := rfl

/-- A command whose effect is `e`, which keeps what the end of a command reads: it has that effect, and keeps what `e` keeps. -/
theorem perform_effect {dt : Nat} {s : State} {f : Dev → Dev} {e : Dev} {l : List Nat} (h : Ready s) (he : f (s.dev.elapse dt) = e)
    (k : Calm l (s.dev.elapse dt) e) (hl : ∀ a ∈ endRegs, a ∉ l) :
    perform dt s (fun d => afterCommand (f d)) = .next (s.after e) ∧ RegsKept l s (s.after e) ∧ MemKept s (s.after e) := by
  subst he
  exact perform_of_calm h k hl

/-- The block `dt` ns later, with VENC derived up to then. -/
def vencUpTo (dt : Nat) (d : Dev) : Dev := { d.elapse dt with vencAt := (d.now + dt) / 50 }

section
variable {dt : Nat} {bs : List Byte} {s : State}

theorem Alone.vencUpTo {d : Dev} (h : Alone d) (dt : Nat) : Alone (vencUpTo dt d) := h

theorem vencRun_alone {d : Dev} (h : Alone d) (dt : Nat) : vencRun (d.elapse dt) = Machine.vencUpTo dt d :=
  vencRun_idle (.inl ⟨h.1, h.2.1⟩)

theorem exec_vencSampleRx_effect {e : Dev} {l : List Nat} (h : Ready s) (ha : Alone s.dev) (he : vencAccept bs (vencUpTo dt s.dev) = e)
    (k : Calm l (vencUpTo dt s.dev) e) (hl : ∀ a ∈ endRegs, a ∉ l) :
    exec (.vencSampleRx dt bs) s = .next (s.after e) ∧ RegsKept l s (s.after e) ∧ MemKept s (s.after e) := by
  have hplan : e.planActive = false := (k.regs.getB_eq (g := F.PLAN_CHK_ACTIVE) (hl _ (by simp))).trans ha.1
  refine perform_effect (f := fun d => camsFollow (vencAccept bs (vencRun d))) h ?_ ((vencAt_calm _ _).mono (by simp) |>.trans k) hl
  simp only [vencRun_alone ha, he, camsFollow_noPlan hplan]

theorem exec_vencLost_gone (h : Ready s) (hm : vencMonitored s.dev = true) (hl : s.dev.get F.VENC_STAT_LOST = 0)
    (ht : s.dev.get F.VENC_CFG_TMO ≤ s.dev.vencIdle) (hp : s.dev.get F.PLAN_STAY_PUBLISHER = 0) (hu : OnUnits s.dev) :
    exec (.vencLost dt) s = .next (s.after (vencGone (vencUpTo dt s.dev))) ∧ RegsKept lostRegs s (s.after (vencGone (vencUpTo dt s.dev)))
      ∧ MemKept s (s.after (vencGone (vencUpTo dt s.dev))) := by
  have hrun : vencRun (s.dev.elapse dt) = vencUpTo dt s.dev := vencRun_idle (.inr (fun p hp => (hu p hp).2.1))
  refine perform_effect (f := fun d => vencLost (vencRun d)) h ?_ ((vencAt_calm _ _).mono (by simp) |>.trans (vencGone_calm _)) (by decide)
  exact (congrArg vencLost hrun).trans (vencLost_gone (d := vencUpTo dt s.dev) hm hl ht hp hu)

end

/-- Settles O4: a sample is taken, counted or passed over by its domain and SEQ, each command's effect being the one that
`vencAccept` and `vencLost` have where no plane is on VENC. -/
theorem publishedPosition : Obligations.PublishedPosition := by
  unfold Obligations.PublishedPosition
  rintro dt bs _ _ s hready rfl rfl -
  refine ⟨fun ha hsrc hlen hfmt => ⟨fun hnew hdom => ?_, fun hnew hact hstby => ?_, fun hseen => ?_⟩, fun hm hl ht hp hu => ?_⟩
  · obtain ⟨hnext, hregs, hmem⟩ := exec_vencSampleRx_effect (dt := dt) hready ha
      (vencAccept_known (d := vencUpTo dt s.dev) ha hsrc hlen hfmt hnew hdom) (sampleTaken_calm _ _) (by decide)
    obtain ⟨hlost, hfault, hfallback⟩ := sampleTaken_get bs (vencUpTo dt s.dev)
    refine ⟨_, _, hnext, (State.after_venc ..).trans (sampleTaken_venc _ _), ?_, rfl, rfl, rfl, rfl, rfl,
      (State.after_get ..).trans hlost, (State.after_get ..).trans hfault, (State.after_get ..).trans hfallback, hregs, hmem⟩
    change (if byteAt bs 2 = activeDomain s.dev then sampleTime bs else _) = sampleTime bs - (if byteAt bs 2 = activeDomain s.dev then 0 else _)
    split
    · exact (sub_zero _).symm
    · rfl
  · obtain ⟨hnext, hregs, hmem⟩ := exec_vencSampleRx_effect (dt := dt) hready ha
      (vencAccept_unknown (d := vencUpTo dt s.dev) ha hsrc hlen hfmt hnew hact hstby)
      ((Calm.refl [R.VENC_STAT] _).count (g := F.VENC_STAT_DISCARD) 1 (by simp)) (by decide)
    have hcount := Dev.get_count_same (vencUpTo dt s.dev) F.VENC_STAT_DISCARD 1 (by decide)
    exact ⟨_, hnext, rfl, (State.after_get ..).trans hcount, hregs, hmem⟩
  · obtain ⟨hnext, hregs, hmem⟩ := exec_vencSampleRx_effect (dt := dt) hready ha (vencAccept_seen (d := vencUpTo dt s.dev) hseen)
      (Calm.refl [] _) (by simp)
    exact ⟨_, hnext, rfl, hregs, hmem⟩
  · obtain ⟨hnext, hregs, hmem⟩ := exec_vencLost_gone (dt := dt) hready hm hl ht hp hu
    exact ⟨_, hnext, (State.after_get ..).trans (vencGone_lost _), vencGone_event _, hregs, hmem⟩

end Sys2Proof.Machine
end

section
/-! SUPPORT. The position units (R37 to R46): what a sound sample, the tracking filter and the index do to a unit. -/
namespace Sys2Proof.Machine

@[simp] theorem Dev.enc_setEnc_same (d : Dev) (e : Nat) (u : Enc) : (d.setEnc e u).enc e = u := cellGet_cellSet_same _ _ _ _

theorem Dev.enc_put (d : Dev) (g : RegField) (v e : Nat) : (d.put g v).enc e = d.enc e := by
  unfold Dev.enc
  rw [Dev.put_encs]

/-- `e` is `d` but for its position units. -/
def OnlyEncs (d e : Dev) : Prop := ∃ m, e = { d with encs := m }

namespace OnlyEncs
variable {d e f : Dev}

theorem refl (d : Dev) : OnlyEncs d d := ⟨d.encs, rfl⟩
theorem trans (h : OnlyEncs d e) (g : OnlyEncs e f) : OnlyEncs d f := by
  obtain ⟨m, rfl⟩ := h
  obtain ⟨n, rfl⟩ := g
  exact ⟨n, rfl⟩
theorem setEnc (h : OnlyEncs d e) (u : Nat) (x : Enc) : OnlyEncs d (e.setEnc u x) := h.trans ⟨_, rfl⟩
theorem regs (h : OnlyEncs d e) : e.regs = d.regs := by obtain ⟨m, rfl⟩ := h; rfl
theorem calm (h : OnlyEncs d e) : Calm [] d e := by
  obtain ⟨m, rfl⟩ := h
  exact ⟨.of_regs rfl, rfl, rfl, rfl, rfl, rfl, rfl, rfl⟩
theorem get_eq (h : OnlyEncs d e) (g : RegField) : e.get g = d.get g := Dev.get_congr _ _ h.regs g
theorem getB_eq (h : OnlyEncs d e) (g : RegField) : e.getB g = d.getB g := by unfold Dev.getB; rw [h.get_eq]
end OnlyEncs

/-- `e` is `d` but for its position units and its registers. -/
def OnlyUnits (d e : Dev) : Prop := ∃ m r, e = { d with encs := m, regs := r }

namespace OnlyUnits
variable {d e f : Dev}

theorem of_onlyEncs (h : OnlyEncs d e) : OnlyUnits d e := by
  obtain ⟨m, rfl⟩ := h
  exact ⟨m, d.regs, rfl⟩
theorem setEnc (h : OnlyUnits d e) (u : Nat) (x : Enc) : OnlyUnits d (e.setEnc u x) := by
  obtain ⟨m, r, rfl⟩ := h
  exact ⟨_, r, rfl⟩
theorem put (h : OnlyUnits d e) (g : RegField) (v : Nat) : OnlyUnits d (e.put g v) := by
  obtain ⟨m, r, rfl⟩ := h
  exact ⟨m, _, rfl⟩
theorem planes (h : OnlyUnits d e) : e.planes = d.planes := by obtain ⟨m, r, rfl⟩ := h; rfl
theorem rejectPts (h : OnlyUnits d e) : e.rejectPts = d.rejectPts := by obtain ⟨m, r, rfl⟩ := h; rfl
theorem calm {l : List Nat} (h : OnlyUnits d e) (k : Kept l d e) : Calm l d e := by
  obtain ⟨m, r, rfl⟩ := h
  exact ⟨k, rfl, rfl, rfl, rfl, rfl, rfl, rfl⟩
end OnlyUnits

/-! ### Levels -/

/-- Unit `e` of `d` has accepted the levels `l` (R40). -/
abbrev Accepted (d : Dev) (e l : Nat) : Prop := (d.enc e).a = bit l 0 ∧ (d.enc e).b = bit l 1 ∧ (d.enc e).z = bit l 2

/-- Samples of the levels accepted accept nothing: what was waiting is forgotten (R40). -/
theorem qdSamples_accepted {d : Dev} {e l : Nat} (n : Nat) (h : Accepted d e l) :
    qdSamples e n l d = if n ≤ (d.enc e).qdAt then d else d.setEnc e { d.enc e with qdAt := n, pa := none, pb := none, pz := none } := by
  obtain ⟨ha, hb, hz⟩ := h
  have wait (p : Option Nat) (i : Nat) (x : Bool) : qdWait p i x x = none := by unfold qdWait; simp
  unfold qdSamples
  simp only [← ha, ← hb, ← hz, wait]
  split
  · rfl
  · exact forN_id 3 _ _ (fun i _ => by simp)

/-- The levels of a unit's input being those accepted, its samples are taken and nothing else of it that a sample reads changes. -/
theorem encNow_accepted {d : Dev} {e : Nat} (h : Accepted d e (qdLevels d e)) :
    OnlyEncs d (encNow e d) ∧ ((encNow e d).enc e).x = (d.enc e).x ∧ ((encNow e d).enc e).qd = (d.enc e).qd
      ∧ ((encNow e d).enc e).edge = (d.enc e).edge ∧ ((encNow e d).enc e).phi = (d.enc e).phi := by
  unfold encNow
  rw [qdSamples_accepted _ h]
  split
  · split
    · exact ⟨.refl d, rfl, rfl, rfl, rfl⟩
    · exact ⟨(OnlyEncs.refl d).setEnc _ _, by simp⟩
  · exact ⟨.refl d, rfl, rfl, rfl, rfl⟩

/-- Samples of REF touch the level accepted, its run and the edge alone (R40). -/
theorem refSample_keeps (n : Nat) (u : Enc) (l : Bool) : (refSample n u l).x = u.x ∧ (refSample n u l).phi = u.phi
    ∧ (refSample n u l).phiSeen = u.phiSeen := by
  unfold refSample
  split
  · exact ⟨rfl, rfl, rfl⟩
  · split <;> exact ⟨rfl, rfl, rfl⟩

theorem refSamples_keeps (n : Nat) (ref : List Bool) (u : Enc) : (refSamples n ref u).x = u.x ∧ (refSamples n ref u).phi = u.phi
    ∧ (refSamples n ref u).phiSeen = u.phiSeen := by
  have fold (v : Enc) : (ref.foldl (refSample n) v).x = v.x ∧ (ref.foldl (refSample n) v).phi = v.phi
      ∧ (ref.foldl (refSample n) v).phiSeen = v.phiSeen := by
    induction ref generalizing v with
    | nil => exact ⟨rfl, rfl, rfl⟩
    | cons l ref ih =>
      obtain ⟨hx, hphi, hseen⟩ := refSample_keeps n v l
      obtain ⟨ix, iphi, iseen⟩ := ih (refSample n v l)
      exact ⟨ix.trans hx, iphi.trans hphi, iseen.trans hseen⟩
  obtain ⟨hx, hphi, hseen⟩ := fold (if u.phiSeen then u else { u with z := ref.headD u.z, refRun := 0 })
  exact ⟨hx.trans (by split <;> rfl), hphi.trans (by split <;> rfl), hseen.trans (by split <;> rfl)⟩

/-! ### The filter -/

theorem ofSigned_mod (w : Nat) (x : Int) : ofSigned w x % 2 ^ w = ofSigned w x := by
  have h : (x % ((2 ^ w : Nat) : Int)) < ((2 ^ w : Nat) : Int) := Int.emod_lt_of_pos _ (by exact_mod_cast Nat.two_pow_pos w)
  have h0 : 0 ≤ x % ((2 ^ w : Nat) : Int) := Int.emod_nonneg _ (by exact_mod_cast (Nat.two_pow_pos w).ne')
  unfold ofSigned
  exact Nat.mod_eq_of_lt ((Int.toNat_lt h0).2 h)

/-- x_pred of R46, and the residual. -/
def predicted (u : Enc) : Int := (u.xh * 2 ^ 24 + u.vh * 50 * 2 ^ 16 + u.ah * 1250) / 2 ^ 24
def residual (u : Enc) : Int := u.x * 65536 - predicted u

/-- A unit once the filter, with gains 2^-`α`, 2^-`β` and 2^-`γ`, has taken its sample (R43, R46). -/
def filtered (α β γ : Nat) (u : Enc) : Enc :=
  if u.restart then { u with xh := u.x * 65536, vh := 0, ah := 0, restart := false }
  else { u with
    xh := predicted u + residual u / 2 ^ α
    vh := (u.vh * (2 ^ 16 * 50 * 2 ^ β) + u.ah * (2500 * 2 ^ β) + residual u * 2 ^ 24) / (2 ^ 16 * 50 * 2 ^ β)
    ah := (u.ah * (2500 * 2 ^ γ) + 2 * residual u * 2 ^ 24) / (2500 * 2 ^ γ) }

theorem trackFilter_eq (e : Nat) (d : Dev) : trackFilter e d =
    (d.setEnc e (filtered (d.get (F.ENC_TRK_ALPHA_SH e)) (d.get (F.ENC_TRK_BETA_SH e)) (d.get (F.ENC_TRK_GAMMA_SH e)) (d.enc e))).put
      (F.ENC_VEL_V e) (ofSigned 32 (satS 32 ((filtered (d.get (F.ENC_TRK_ALPHA_SH e)) (d.get (F.ENC_TRK_BETA_SH e))
        (d.get (F.ENC_TRK_GAMMA_SH e)) (d.enc e)).vh))) := rfl

theorem trackFilter_enc (e : Nat) (d : Dev) : (trackFilter e d).enc e =
    filtered (d.get (F.ENC_TRK_ALPHA_SH e)) (d.get (F.ENC_TRK_BETA_SH e)) (d.get (F.ENC_TRK_GAMMA_SH e)) (d.enc e) := by
  rw [trackFilter_eq, Dev.enc_put, Dev.enc_setEnc_same]

/-- ENC_VEL shows the estimate (R46). -/
theorem trackFilter_vel (e : Nat) (d : Dev) :
    (trackFilter e d).get (F.ENC_VEL_V e) = ofSigned 32 (satS 32 ((trackFilter e d).enc e).vh) := by
  rw [trackFilter_enc, trackFilter_eq, Dev.get_put_same _ _ _ (by simp)]
  exact ofSigned_mod 32 _

theorem trackFilter_units {e : Nat} {d f : Dev} (h : OnlyUnits d f) : OnlyUnits d (trackFilter e f) := by
  rw [trackFilter_eq]
  exact (h.setEnc _ _).put _ _

theorem trackFilter_calm (e : Nat) (d : Dev) : Calm [R.ENC_VEL e] d (trackFilter e d) := by
  rw [trackFilter_eq]
  exact (((OnlyEncs.refl d).setEnc _ _).calm.mono (by simp)).put (g := F.ENC_VEL_V e) _ (by simp)

theorem filtered_restart (α β γ : Nat) (u : Enc) : (filtered α β γ u).restart = false := by
  unfold filtered
  split
  · rfl
  · simpa using ‹¬u.restart = true›

/-- The filter keeps all of the unit but the estimates and its restart. -/
theorem filtered_keeps (α β γ : Nat) (u : Enc) : (filtered α β γ u).x = u.x ∧ (filtered α β γ u).qd = u.qd
    ∧ (filtered α β γ u).phi = u.phi ∧ (filtered α β γ u).valid = u.valid ∧ (filtered α β γ u).edge = u.edge := by
  unfold filtered
  split <;> exact ⟨rfl, rfl, rfl, rfl, rfl⟩

/-- The exact value of which `n` is the floor lies between `n` and `n + 1`. -/
theorem floor_bounds (y : Int) {k : Int} (hk : 0 < k) : y / k * k ≤ y ∧ y < (y / k + 1) * k :=
  ⟨Int.ediv_mul_le _ hk.ne', Int.lt_ediv_add_one_mul_self _ hk⟩

/-- The same of a change `y / k` of `v`. -/
theorem floor_change_bounds (v y : Int) {k : Int} (hk : 0 < k) :
    ((v * k + y) / k - v) * k ≤ y ∧ y < ((v * k + y) / k - v + 1) * k := by
  have h : (v * k + y) / k - v = y / k := by rw [Int.add_comm, Int.add_mul_ediv_right _ _ hk.ne']; ring
  rw [h]
  exact floor_bounds y hk

/-! ### A sound sample -/

/-- A sample of unit `e` that no fault can come of moves it by `n`, with `edge` of Z or REF accepted since the last one and `phi`
as its phase (R37, R38, R40, R41). -/
inductive SoundMove (e sin cos : Nat) (ref : List Bool) (d : Dev) : Int → Bool → Nat → Prop
  /-- The changes accepted since the last sample. -/
  | quadrature (hlo : 3 ≤ d.get (F.ENC_CFG_SRC e)) (hhi : d.get (F.ENC_CFG_SRC e) ≤ 6) (htaken : Accepted d e (qdLevels d e)) :
      SoundMove e sin cos ref d (d.enc e).qd (d.enc e).edge (d.enc e).phi
  /-- The phase difference from the last sample, at codes `a` and `b` in 1/16. -/
  | sinCos (a b q : Int) (hsrc : d.get (F.ENC_CFG_SRC e) = 1 ∨ d.get (F.ENC_CFG_SRC e) = 2) (hseen : (d.enc e).phiSeen = true)
      (ha : a = 16 * ((sin % 4096 : Nat) - (d.get (F.ENC_ADC_OFS_SIN_OFS e) : Int)) - pairCorr d (d.get (F.ENC_CFG_SRC e) - 1) 0)
      (hb : b = 16 * ((cos % 4096 : Nat) - (d.get (F.ENC_ADC_OFS_COS_OFS e) : Int)) - pairCorr d (d.get (F.ENC_CFG_SRC e) - 1) 1)
      (hab : ¬(a = 0 ∧ b = 0)) (hmin : 256 * (d.get (F.ENC_AMP_AMIN e) : Int) ^ 2 ≤ a ^ 2 + b ^ 2)
      (hmax : a ^ 2 + b ^ 2 ≤ 256 * (d.get (F.ENC_AMP_AMAX e) : Int) ^ 2)
      (hq : q = ((phase a b + 1024 - (d.enc e).phi + 512) % 1024 : Nat) - 512) (hlo : -256 ≤ q) (hhi : q ≤ 256) :
      SoundMove e sin cos ref d (if d.getB (F.ENC_CFG_INVERT e) then -q else q)
        (refSamples (d.get (F.ENC_CFG_FILT e)) ref (d.enc e)).edge (phase a b)

theorem moveCount_inside {x n : Int} (hlo : countMin < x + n) (hhi : x + n < countMax) : moveCount false x n = x + n := by
  unfold moveCount clampCount
  simp [not_lt_of_gt hlo, not_lt_of_gt hhi]

/-- What a sample moved by `n` leaves: the unit of `f`, which is `d` but for its units, has the count `x` and no edge (R37, R43). -/
def Moved (e : Nat) (n : Int) (phi : Nat) (d f : Dev) : Prop :=
  OnlyEncs d f ∧ (f.enc e).x = (d.enc e).x + n ∧ (f.enc e).valid = true ∧ (f.enc e).edge = false ∧ (f.enc e).phi = phi
    ∧ (3 ≤ d.get (F.ENC_CFG_SRC e) → (f.enc e).qd = 0)

/-- Whether an index is recognised at a sample that moves unit `e` by `n` (R44). -/
def indexed (e : Nat) (n : Int) (edge : Bool) (d : Dev) : Bool :=
  edge && decide (0 < n) && (d.get (F.ENC_CFG_IDX_MODE e) == 1 || (d.get (F.ENC_CFG_IDX_MODE e) == 2 && d.getB (F.ENC_STAT_ARMED e)))

/-- A sound sample moves the unit, shows its count, and runs the filter; an index follows. -/
theorem unitSample_sound {e sin cos : Nat} {ref : List Bool} {d : Dev} {n : Int} {edge : Bool} {phi : Nat}
    (h : SoundMove e sin cos ref d n edge phi) (hf : encFaulty d e = false) (hn : d.get (F.ENC_CFG_FAULT_N e) ≠ 0)
    (hlo : countMin < (d.enc e).x + n) (hhi : (d.enc e).x + n < countMax) :
    ∃ f, Moved e n phi d f ∧ unitSample e sin cos ref d =
      if indexed e n edge (trackFilter e (putPos e ((d.enc e).x + n) f)) then indexReset e (trackFilter e (putPos e ((d.enc e).x + n) f))
      else trackFilter e (putPos e ((d.enc e).x + n) f) := by
  unfold unitSample
  extract_lets src analog d1 u s c pf d2 q step x amp amin amax inWin badRun track ampBad sat good edge' d3 d4 ok u2 d5 d6 mode
  -- What the unit's input gives: the device it is read from, the move, and that no window is left.
  obtain ⟨hsrc, hd2, hux, hstep, hwin, htrack, hedge, hphi, hqd⟩ : (src ≠ 0 ∧ src ≠ 7) ∧ OnlyEncs d d2 ∧ u.x = (d.enc e).x
      ∧ step = n ∧ inWin = true ∧ track = false ∧ u.edge = edge ∧ (if analog then pf.1 else u.phi) = phi
      ∧ (3 ≤ src → analog = false) := by
    cases h with
    | quadrature hlo hhi htaken =>
      obtain ⟨honly, hx, hqd, hedge, hphi⟩ := encNow_accepted htaken
      have hanalog : analog = false := decide_eq_false (by omega)
      have hd1 : d1 = encNow e d := by simp only [d1, hanalog, Bool.false_eq_true, if_false]
      refine ⟨by omega, ?_, ?_, ?_, ?_, ?_, ?_, ?_, fun _ => hanalog⟩
      · simpa [d2, hanalog, hd1] using honly
      · simpa [u, hd1] using hx
      · simpa [step, hanalog, u, hd1] using hqd
      · simp [inWin, hanalog]
      · simp [track, hanalog]
      · simpa [u, hd1] using hedge
      · simpa [hanalog, u, hd1] using hphi
    | sinCos a b q' hsrc hseen ha hb hab hmin hmax hq hlo hhi =>
      have hanalog : analog = true := decide_eq_true (by omega)
      have hd1 : d1 = d.setEnc e (refSamples (d.get (F.ENC_CFG_FILT e)) ref (d.enc e)) := by simp only [d1, hanalog, if_true]
      have honly : OnlyEncs d d1 := hd1 ▸ (OnlyEncs.refl d).setEnc _ _
      have hu : u = refSamples (d.get (F.ENC_CFG_FILT e)) ref (d.enc e) := by simp only [u, hd1, Dev.enc_setEnc_same]
      obtain ⟨hx, hphi, hkept⟩ := refSamples_keeps (d.get (F.ENC_CFG_FILT e)) ref (d.enc e)
      have hs : s = a := by rw [ha]; simp only [s, hd1]; rfl
      have hc : c = b := by rw [hb]; simp only [c, hd1]; rfl
      have hpf : pf = (phase a b, d1) := by simp only [pf, hs, hc]; exact if_neg hab
      have hd2 : d2 = d1 := by simp only [d2, hanalog, hpf, if_true]
      have hq' : q = q' := by simp only [q, hpf, hu, hphi]; exact hq.symm
      have hstep : step = if d.getB (F.ENC_CFG_INVERT e) then -q' else q' := by
        simp only [step, hanalog, hu, hkept, hseen, hq', hd2, honly.getB_eq, Bool.not_true, Bool.false_eq_true, if_false]
      have hamp : amp = a ^ 2 + b ^ 2 := by simp only [amp, hs, hc]; ring
      refine ⟨by omega, hd2 ▸ honly, hu ▸ hx, hstep, ?_, ?_, by rw [hu], by simp [hanalog, hpf], fun h => absurd h (by omega)⟩
      · simp only [inWin, hamp, amin, amax, hd2, honly.get_eq, hanalog, Bool.not_true, Bool.false_or, Bool.and_eq_true,
          decide_eq_true_eq]
        push_cast
        rw [← pow_two, ← pow_two]
        exact ⟨hmin, hmax⟩
      · simp only [track, hanalog, Bool.true_and, decide_eq_false_iff_not, hstep]
        split <;> omega
  -- So the count does not saturate and no fault is declared.
  have hsound : encFaulty d2 e = false := (hd2.getB_eq _).trans hf
  have hx : x = (d.enc e).x + n := by simp only [x, hsound, hux, hstep]; exact moveCount_inside hlo hhi
  have hamp : ampBad = false := by simp [ampBad, badRun, hwin, hd2.get_eq, hn]
  have hsat : sat = false := by simp [sat, hx, hlo.ne', hhi.ne]
  have hd4 : d4 = d3 := by simp [d4, hamp, htrack, hsat]
  have hok : ok = true := by
    have : encFaulty d3 e = false := hsound
    simp [ok, hd4, this]
  -- The unit that is shown.
  have hd3 : OnlyEncs d d3 := hd2.setEnc _ _
  have hu2 : u2.edge = false ∧ u2.phi = phi ∧ u2.qd = if analog then u.qd else 0 := by
    simp only [u2, hd4, d3, Dev.enc_setEnc_same]
    exact ⟨trivial, hphi, trivial⟩
  obtain ⟨h2edge, h2phi, h2qd⟩ := hu2
  refine ⟨d4.setEnc e (if ok then { u2 with valid := true, vx := x, vt := u2.t, vn := d4.now / 50 } else { u2 with valid := false }), ?_, ?_⟩
  · rw [hok, if_pos rfl, hd4]
    refine ⟨hd3.setEnc _ _, ?_, ?_, ?_, ?_, fun h3 => ?_⟩ <;> rw [Dev.enc_setEnc_same]
    · simp only [u2, hd4, d3, Dev.enc_setEnc_same]; exact hx
    · exact h2edge
    · exact h2phi
    · exact h2qd.trans (by simp [hqd h3])
  · rw [if_neg (by omega), if_neg (by simp [hok]), ← hx]
    have hidx : (edge' && decide (0 < step) && (mode == 1 || mode == 2 && d6.getB (F.ENC_STAT_ARMED e))) = indexed e n edge d6 := by
      simp only [indexed, edge', hedge, hstep, mode]
    rw [hidx]

/-- What the block shows of a moved unit (R37, R46): `D` is `d` but for the unit, ENC_POS_LO and ENC_VEL. -/
structure Shown (e : Nat) (n : Int) (phi : Nat) (d D : Dev) : Prop where
  units : OnlyUnits d D
  regs : Kept [R.ENC_POS_LO e, R.ENC_VEL e] d D
  x : (D.enc e).x = (d.enc e).x + n
  valid : (D.enc e).valid = true
  edge : (D.enc e).edge = false
  phi : (D.enc e).phi = phi
  qd : 3 ≤ d.get (F.ENC_CFG_SRC e) → (D.enc e).qd = 0
  pos : D.get (F.ENC_POS_LO_X e) = ofSigned 32 ((d.enc e).x + n)
  vel : D.get (F.ENC_VEL_V e) = ofSigned 32 (satS 32 (D.enc e).vh)

theorem Moved.shown {e : Nat} {n : Int} {phi : Nat} {d f : Dev} (h : Moved e n phi d f) :
    Shown e n phi d (trackFilter e (putPos e ((d.enc e).x + n) f)) := by
  obtain ⟨honly, hx, hvalid, hedge, hphi, hqd⟩ := h
  have henc := trackFilter_enc e (putPos e ((d.enc e).x + n) f)
  have htrack := trackFilter_calm e (putPos e ((d.enc e).x + n) f)
  obtain ⟨kx, kqd, kphi, kvalid, kedge⟩ := filtered_keeps ((putPos e ((d.enc e).x + n) f).get (F.ENC_TRK_ALPHA_SH e))
    ((putPos e ((d.enc e).x + n) f).get (F.ENC_TRK_BETA_SH e)) ((putPos e ((d.enc e).x + n) f).get (F.ENC_TRK_GAMMA_SH e)) (f.enc e)
  refine ⟨trackFilter_units ((OnlyUnits.of_onlyEncs honly).put _ _), ?_, ?_, ?_, ?_, ?_, fun h3 => ?_, ?_, trackFilter_vel _ _⟩
  · exact ((Kept.of_regs honly.regs).put (g := F.ENC_POS_LO_X e) _ (by simp)).trans (htrack.regs.mono (by simp))
  · exact (congrArg Enc.x henc).trans (kx.trans hx)
  · exact (congrArg Enc.valid henc).trans (kvalid.trans hvalid)
  · exact (congrArg Enc.edge henc).trans (kedge.trans hedge)
  · exact (congrArg Enc.phi henc).trans (kphi.trans hphi)
  · exact (congrArg Enc.qd henc).trans (kqd.trans (hqd h3))
  · rw [htrack.regs.get_eq (g := F.ENC_POS_LO_X e) (by simp)]
    exact (Dev.get_put_same _ _ _ (by simp)).trans (ofSigned_mod 32 _)

/-! ### The index -/

/-- No line is assigned on any plane. -/
def Unassigned (d : Dev) : Prop := ∀ p, p < 8 → (d.plane p).assigns = []

theorem Unassigned.of_planes {d e : Dev} (h : Unassigned d) (hp : e.planes = d.planes) : Unassigned e := by
  intro p hp8
  unfold Dev.plane
  rw [hp]
  exact h p hp8

/-- `e` is `d` but for the marks of planes and cameras, and no line is assigned in it. -/
def MarksMoved (d e : Dev) : Prop := (∃ m i, e = { d with planes := m, insp := i }) ∧ Unassigned e

theorem forL_induct {α β : Type} {P : α → Prop} {f : β → α → α} (l : List β) {a : α} (h0 : P a)
    (hs : ∀ i ∈ l, ∀ x, P x → P (f i x)) : P (forL l f a) := by
  unfold forL
  induction l generalizing a with
  | nil => exact h0
  | cons i l ih => exact ih (hs i List.mem_cons_self a h0) (fun j hj => hs j (List.mem_cons_of_mem _ hj))

namespace MarksMoved
variable {d e : Dev}

theorem refl (h : Unassigned d) : MarksMoved d d := ⟨⟨d.planes, d.insp, rfl⟩, h⟩

theorem setPlane (h : MarksMoved d e) (p : Nat) {x : Plane} (hx : x.assigns = []) : MarksMoved d (e.setPlane p x) := by
  obtain ⟨⟨m, i, rfl⟩, hu⟩ := h
  refine ⟨⟨_, i, rfl⟩, fun q hq => ?_⟩
  by_cases hp : q = p
  · subst hp
    exact (congrArg Plane.assigns (cellGet_cellSet_same ..)).trans hx
  · exact (congrArg Plane.assigns (cellGet_cellSet_ne _ _ _ _ _ _ hp)).trans (hu q hq)

theorem setInsp (h : MarksMoved d e) (i : InspSt) : MarksMoved d { e with insp := i } := by
  obtain ⟨⟨m, j, rfl⟩, hu⟩ := h
  exact ⟨⟨m, i, rfl⟩, hu⟩

/-- With no line assigned a mark that moves up records no error. -/
theorem hwmReached (h : MarksMoved d e) {p : Nat} (hp : p < 8) (k t : Int) : MarksMoved d (hwmReached p k t e) := by
  have hnone := h.2 p hp
  unfold Machine.hwmReached
  split
  · exact h
  · simp only [hnone, List.filter_nil, List.map_nil]
    exact h.setPlane p (by split <;> rfl)

end MarksMoved

/-- The unit set to INDEX_VALUE, before what follows it (R45). -/
def unitAtIndex (e : Nat) (d : Dev) : Dev :=
  putPos e (indexValue d e) ((d.setEnc e { d.enc e with
    x := indexValue d e, qd := 0, accStep := 0
    xh := (d.enc e).xh + (indexValue d e - ((d.enc e).x + (d.enc e).qd)) * 65536
    vx := if (d.enc e).valid then indexValue d e else (d.enc e).vx }).put (F.ENC_STAT_UNCERTAIN e) 0)

theorem unitAtIndex_units (e : Nat) (d : Dev) : OnlyUnits d (unitAtIndex e d) :=
  ((OnlyUnits.setEnc ⟨d.encs, d.regs, rfl⟩ _ _).put _ _).put _ _

theorem unitAtIndex_regs (e : Nat) (d : Dev) : Kept [R.ENC_POS_LO e, R.ENC_STAT e] d (unitAtIndex e d) :=
  (((OnlyEncs.refl d).setEnc _ _).calm.regs.mono (by simp) |>.put (g := F.ENC_STAT_UNCERTAIN e) _ (by simp)).put (g := F.ENC_POS_LO_X e) _ (by simp)

theorem unitAtIndex_pos (e : Nat) (d : Dev) : (unitAtIndex e d).get (F.ENC_POS_LO_X e) = ofSigned 32 (indexValue d e) := by
  unfold unitAtIndex putPos
  exact (Dev.get_put_same _ _ _ (by simp)).trans (ofSigned_mod 32 _)

theorem unitAtIndex_certain (e : Nat) (d : Dev) : (unitAtIndex e d).get (F.ENC_STAT_UNCERTAIN e) = 0 := by
  unfold unitAtIndex putPos
  rw [Dev.get_put_apart _ _ _ _ (by simp) (.inl (by simp)), Dev.get_put_same _ _ _ (by simp), Nat.zero_mod]

theorem unitAtIndex_enc (e : Nat) (d : Dev) : ((unitAtIndex e d).enc e).x = indexValue d e
    ∧ ((unitAtIndex e d).enc e).edge = (d.enc e).edge := by
  unfold unitAtIndex putPos
  rw [Dev.enc_put, Dev.enc_put, Dev.enc_setEnc_same]
  exact ⟨rfl, rfl⟩

/-- Where no line is assigned, setting a unit to INDEX_VALUE inside the count moves marks alone beside the unit. -/
theorem setToIndex_unassigned {e : Nat} {d : Dev} (hu : Unassigned d) (hlo : countMin < indexValue d e)
    (hhi : indexValue d e < countMax) :
    MarksMoved (unitAtIndex e d) (setToIndex e d) := by
  have hsat : saturationFault e (indexValue d e) (unitAtIndex e d) = unitAtIndex e d := by
    unfold saturationFault
    exact if_neg (by omega)
  have hunit : Unassigned (unitAtIndex e d) := hu.of_planes (unitAtIndex_units e d).planes
  unfold setToIndex
  extract_lets u iv dx d1 d2
  have hd2 : d2 = unitAtIndex e d := hsat
  rw [hd2]
  refine forL_induct _ (.refl hunit) (fun p hp x hx => ?_)
  have hp8 : p < 8 := List.mem_range.1 (List.mem_of_mem_filter hp)
  extract_lets y sgn x1 x2
  have h1 : MarksMoved (unitAtIndex e d) x1 := hx.setPlane p (hx.2 p hp8)
  have h2 : MarksMoved (unitAtIndex e d) x2 := by
    simp only [x2]
    split
    · split
      · exact h1.hwmReached hp8 _ _
      · exact h1
    · exact h1
  refine forL_induct _ h2 (fun c _ z hz => ?_)
  simp only
  split
  · exact hz.setInsp _
  · exact hz

namespace MarksMoved
variable {d e : Dev}

theorem enc_eq (h : MarksMoved d e) (u : Nat) : e.enc u = d.enc u := by obtain ⟨⟨m, i, rfl⟩, -⟩ := h; rfl
theorem rejectPts (h : MarksMoved d e) : e.rejectPts = d.rejectPts := by obtain ⟨⟨m, i, rfl⟩, -⟩ := h; rfl
theorem regs (h : MarksMoved d e) : e.regs = d.regs := by obtain ⟨⟨m, i, rfl⟩, -⟩ := h; rfl
theorem calm (h : MarksMoved d e) : Calm [] d e := by
  obtain ⟨⟨m, i, rfl⟩, -⟩ := h
  exact ⟨.of_regs rfl, rfl, rfl, rfl, rfl, rfl, rfl, rfl⟩
end MarksMoved

/-- What an index in mode EVERY leaves (R44, R45): `D` is `d` but for the unit, marks, ENC_POS_LO and ENC_STAT. -/
structure Indexed (e : Nat) (d D : Dev) : Prop where
  calm : Calm [R.ENC_POS_LO e, R.ENC_STAT e] d D
  rejectPts : D.rejectPts = d.rejectPts
  x : (D.enc e).x = indexValue d e
  edge : (D.enc e).edge = (d.enc e).edge
  pos : D.get (F.ENC_POS_LO_X e) = ofSigned 32 (indexValue d e)
  seen : D.get (F.ENC_STAT_IDX_SEEN e) = 1
  certain : D.get (F.ENC_STAT_UNCERTAIN e) = 0

theorem indexReset_every {e : Nat} {d : Dev} (hp : d.planActive = false) (hm : d.get (F.ENC_CFG_IDX_MODE e) = 1) (hu : Unassigned d)
    (hlo : countMin < indexValue d e) (hhi : indexValue d e < countMax) : Indexed e d (indexReset e d) := by
  have hset := setToIndex_unassigned hu hlo hhi
  have hcalm : Calm [R.ENC_POS_LO e, R.ENC_STAT e] d (setToIndex e d) :=
    ((unitAtIndex_units e d).calm (unitAtIndex_regs e d)).trans (hset.calm.mono (by simp))
  have hidle : servesPlan d e = false := by unfold servesPlan; rw [activePlanes_noPlan hp]; rfl
  have hreset : indexReset e d = (setToIndex e d).put (F.ENC_STAT_IDX_SEEN e) 1 := by
    have hmode : ((setToIndex e d).put (F.ENC_STAT_IDX_SEEN e) 1).get (F.ENC_CFG_IDX_MODE e) = 1 := by
      rw [Dev.get_put_apart _ _ _ _ (by simp) (.inl (by simp)), hcalm.regs.get_eq (g := F.ENC_CFG_IDX_MODE e) (by simp), hm]
    unfold indexReset
    simp only [hidle, Bool.false_and, Bool.false_eq_true, if_false, hmode]
    rfl
  obtain ⟨hx, hedge⟩ := unitAtIndex_enc e d
  rw [hreset]
  refine ⟨hcalm.put (g := F.ENC_STAT_IDX_SEEN e) _ (by simp), ?_, ?_, ?_, ?_, Dev.get_put_same _ _ _ (by simp), ?_⟩
  · rw [Dev.put_rejectPts, hset.rejectPts, (unitAtIndex_units e d).rejectPts]
  · rw [Dev.enc_put, hset.enc_eq, hx]
  · rw [Dev.enc_put, hset.enc_eq, hedge]
  · rw [Dev.get_put_apart _ _ _ _ (by simp) (.inl (by simp)), Dev.get_congr _ _ hset.regs]
    exact unitAtIndex_pos e d
  · rw [Dev.get_put_apart _ _ _ _ (by simp) (.inr (by simp)), Dev.get_congr _ _ hset.regs]
    exact unitAtIndex_certain e d

end Sys2Proof.Machine
end

section
/-! SUPPORT. O1: the command ENC_SAMPLE with no plan active, and the obligation. -/
namespace Sys2Proof.Machine

@[simp] theorem State.after_enc (s : State) (d : Dev) (e : Nat) : (s.after d).dev.enc e = d.enc e := rfl

theorem aloneRegs_enc (e : Fin 2) : ∀ a ∈ aloneRegs, a ∉ [R.ENC_POS_LO e, R.ENC_VEL e, R.ENC_STAT e] := by
  revert e; decide

theorem endRegs_enc (e : Fin 2) : ∀ a ∈ endRegs, a ∉ [R.ENC_POS_LO e, R.ENC_VEL e, R.ENC_STAT e] := by
  revert e; decide

section
variable {dt sin cos : Nat} {e : Fin 2} {ref : List Bool} {s : State}

/-- With no plan active a sample has the effect that the unit has of it. -/
theorem exec_encSample_effect {D : Dev} {l : List Nat} (h : Ready s) (ha : Alone s.dev)
    (hD : unitSample e sin cos ref (vencUpTo dt s.dev) = D) (k : Calm l (vencUpTo dt s.dev) D) (hr : D.rejectPts = s.dev.rejectPts)
    (hl : l ⊆ [R.ENC_POS_LO e, R.ENC_VEL e, R.ENC_STAT e]) :
    exec (.encSample dt e sin cos ref) s = .next (s.after D) ∧ RegsKept l s (s.after D) ∧ MemKept s (s.after D) := by
  have haD : Alone D := (ha.vencUpTo dt).of_kept k.regs hr (fun a ha hm => aloneRegs_enc e a ha (hl hm))
  refine perform_effect (f := fun d => camsFollow (encSample e sin cos ref (vencRun d))) h ?_
    ((vencAt_calm _ _).mono (by simp) |>.trans k) (fun a ha hm => endRegs_enc e a ha (hl hm))
  unfold encSample
  simp only [vencRun_alone ha, hD, haD.sampleFollowed, camsFollow_noPlan haD.1]

variable {n : Int} {edge : Bool} {phi : Nat}

/-- A sound sample without an index. -/
theorem exec_encSample_shown (h : Ready s) (ha : Alone s.dev) (hm : SoundMove e sin cos ref (vencUpTo dt s.dev) n edge phi)
    (hedge : edge = false) (hf : encFaulty (vencUpTo dt s.dev) e = false) (hn : (vencUpTo dt s.dev).get (F.ENC_CFG_FAULT_N e) ≠ 0)
    (hlo : countMin < ((vencUpTo dt s.dev).enc e).x + n) (hhi : ((vencUpTo dt s.dev).enc e).x + n < countMax) :
    ∃ D, Shown e n phi (vencUpTo dt s.dev) D ∧ exec (.encSample dt e sin cos ref) s = .next (s.after D)
      ∧ RegsKept [R.ENC_POS_LO e, R.ENC_VEL e] s (s.after D) ∧ MemKept s (s.after D) := by
  subst hedge
  obtain ⟨f, hmoved, hsample⟩ := unitSample_sound hm hf hn hlo hhi
  have hshown := hmoved.shown
  exact ⟨_, hshown, exec_encSample_effect h ha hsample (hshown.units.calm hshown.regs) hshown.units.rejectPts (by simp)⟩

/-- A sound sample at which an index in mode EVERY is recognised. -/
theorem exec_encSample_indexed (h : Ready s) (ha : Alone s.dev) (hm : SoundMove e sin cos ref (vencUpTo dt s.dev) n edge phi)
    (hedge : edge = true) (hf : encFaulty (vencUpTo dt s.dev) e = false) (hn : (vencUpTo dt s.dev).get (F.ENC_CFG_FAULT_N e) ≠ 0)
    (hlo : countMin < ((vencUpTo dt s.dev).enc e).x + n) (hhi : ((vencUpTo dt s.dev).enc e).x + n < countMax) (hup : 0 < n)
    (hmode : (vencUpTo dt s.dev).get (F.ENC_CFG_IDX_MODE e) = 1) (hu : Unassigned (vencUpTo dt s.dev))
    (hilo : countMin < indexValue (vencUpTo dt s.dev) e) (hihi : indexValue (vencUpTo dt s.dev) e < countMax) :
    ∃ D, (D.enc e).x = indexValue (vencUpTo dt s.dev) e ∧ (D.enc e).edge = false
      ∧ D.get (F.ENC_POS_LO_X e) = ofSigned 32 (indexValue (vencUpTo dt s.dev) e)
      ∧ D.get (F.ENC_STAT_IDX_SEEN e) = 1 ∧ D.get (F.ENC_STAT_UNCERTAIN e) = 0
      ∧ exec (.encSample dt e sin cos ref) s = .next (s.after D)
      ∧ RegsKept [R.ENC_POS_LO e, R.ENC_VEL e, R.ENC_STAT e] s (s.after D) ∧ MemKept s (s.after D) := by
  subst hedge
  obtain ⟨f, hmoved, hsample⟩ := unitSample_sound hm hf hn hlo hhi
  obtain ⟨hunits, hregs, -, -, hedge, -, -, -, -⟩ := hmoved.shown
  generalize trackFilter e (putPos e (((vencUpTo dt s.dev).enc e).x + n) f) = m at hsample hunits hregs hedge
  have hmode' : m.get (F.ENC_CFG_IDX_MODE e) = 1 := (hregs.get_eq (g := F.ENC_CFG_IDX_MODE e) (by simp)).trans hmode
  have hvalue : indexValue m e = indexValue (vencUpTo dt s.dev) e := by
    unfold indexValue Dev.get2
    rw [hregs.get_eq (g := F.ENC_IDX_LO_VALUE e) (by simp), hregs.get_eq (g := F.ENC_IDX_HI_VALUE e) (by simp)]
  have hsub : [R.ENC_POS_LO e, R.ENC_VEL e] ⊆ [R.ENC_POS_LO e, R.ENC_VEL e, R.ENC_STAT e] := by simp
  have ham : Alone m := (ha.vencUpTo dt).of_kept hregs hunits.rejectPts (fun a ha hm => aloneRegs_enc e a ha (hsub hm))
  obtain ⟨hcalm, hpts, hx, hkept, hpos, hseen, hcertain⟩ := indexReset_every (e := e) ham.1 hmode' (hu.of_planes hunits.planes)
    (hvalue ▸ hilo) (hvalue ▸ hihi)
  rw [if_pos (by simp [indexed, hup, hmode'])] at hsample
  refine ⟨_, hx.trans hvalue, hkept.trans hedge, hpos.trans (congrArg _ hvalue), hseen, hcertain,
    exec_encSample_effect h ha hsample (((hunits.calm hregs).mono (by simp)).trans (hcalm.mono (by simp)))
      (hpts.trans hunits.rejectPts) (List.Subset.refl _)⟩

end

/-- The filter's step of R46 as bounds of each rounding. -/
theorem trackFilter_rounds (e : Nat) (d : Dev) (h : (d.enc e).restart = false) :
    ∃ xp r α β γ : Int,
      α = 2 ^ d.get (F.ENC_TRK_ALPHA_SH e) ∧ β = 2 ^ d.get (F.ENC_TRK_BETA_SH e) ∧ γ = 2 ^ d.get (F.ENC_TRK_GAMMA_SH e)
      ∧ xp * 2 ^ 24 ≤ (d.enc e).xh * 2 ^ 24 + (d.enc e).vh * 50 * 2 ^ 16 + (d.enc e).ah * 1250
      ∧ (d.enc e).xh * 2 ^ 24 + (d.enc e).vh * 50 * 2 ^ 16 + (d.enc e).ah * 1250 < (xp + 1) * 2 ^ 24
      ∧ r = (d.enc e).x * 2 ^ 16 - xp
      ∧ (((trackFilter e d).enc e).xh - xp) * α ≤ r ∧ r < (((trackFilter e d).enc e).xh - xp + 1) * α
      ∧ (((trackFilter e d).enc e).vh - (d.enc e).vh) * (2 ^ 16 * 50 * β) ≤ (d.enc e).ah * (2500 * β) + r * 2 ^ 24
      ∧ (d.enc e).ah * (2500 * β) + r * 2 ^ 24 < (((trackFilter e d).enc e).vh - (d.enc e).vh + 1) * (2 ^ 16 * 50 * β)
      ∧ (((trackFilter e d).enc e).ah - (d.enc e).ah) * (2500 * γ) ≤ 2 * r * 2 ^ 24
      ∧ 2 * r * 2 ^ 24 < (((trackFilter e d).enc e).ah - (d.enc e).ah + 1) * (2500 * γ) := by
  have hpow (n : Nat) : (0 : Int) < 2 ^ n := by positivity
  rw [trackFilter_enc]
  generalize d.get (F.ENC_TRK_ALPHA_SH e) = α, d.get (F.ENC_TRK_BETA_SH e) = β, d.get (F.ENC_TRK_GAMMA_SH e) = γ, d.enc e = u at h
  unfold filtered
  rw [if_neg (by simp [h])]
  obtain ⟨plo, phi⟩ := floor_bounds (u.xh * 2 ^ 24 + u.vh * 50 * 2 ^ 16 + u.ah * 1250) (k := 2 ^ 24) (by norm_num)
  obtain ⟨xlo, xhi⟩ := floor_bounds (residual u) (hpow α)
  obtain ⟨vlo, vhi⟩ := floor_change_bounds u.vh (u.ah * (2500 * 2 ^ β) + residual u * 2 ^ 24) (k := 2 ^ 16 * 50 * 2 ^ β) (by positivity)
  obtain ⟨alo, ahi⟩ := floor_change_bounds u.ah (2 * residual u * 2 ^ 24) (k := 2500 * 2 ^ γ) (by positivity)
  rw [← add_assoc] at vlo vhi
  refine ⟨predicted u, residual u, _, _, _, rfl, rfl, rfl, plo, phi, rfl, ?_, ?_, vlo, vhi, alo, ahi⟩
  · rwa [add_sub_cancel_left]
  · rwa [add_sub_cancel_left]

/-- Settles O1: a sound sample moves its unit alone (`unitSample_sound`), an index in mode EVERY sets it (`indexReset_every`), and
the filter's roundings are those of R46 (`trackFilter_rounds`). -/
theorem positionSamples : Obligations.PositionSamples := by
  unfold Obligations.PositionSamples
  refine ⟨fun dt e sin cos ref s hready ha hf hn => ⟨?quadrature, ?sinCos, ?index⟩, fun e d => ⟨?restarts, ?goesOn, trackFilter_vel e d⟩⟩
  case quadrature =>
    intro h3 h6 htaken _ hedge hlo hhi
    obtain ⟨D, hD, hnext, hregs, hmem⟩ := exec_encSample_shown (dt := dt) (sin := sin) (cos := cos) (ref := ref) hready ha
      (.quadrature h3 h6 htaken) hedge hf hn hlo hhi
    exact ⟨_, hnext, hD.x, hD.qd h3, hD.valid, (State.after_get ..).trans hD.pos, (State.after_get ..).trans hD.vel, hregs, hmem⟩
  case sinCos =>
    intro a b q hsrc hseen hedge ha' hb hab hmin hmax hq hqlo hqhi hlo hhi
    obtain ⟨D, hD, hnext, hregs, hmem⟩ := exec_encSample_shown (dt := dt) hready ha
      (.sinCos a b q hsrc hseen ha' hb hab hmin hmax hq hqlo hqhi) hedge hf hn hlo hhi
    exact ⟨_, hnext, hD.x, hD.phi, hD.valid, (State.after_get ..).trans (hD.pos.trans (congrArg _ hD.x.symm)),
      (State.after_get ..).trans hD.vel, hregs, hmem⟩
  case index =>
    intro h3 h6 htaken _ hilo hihi hu hedge hmode hup hlo hhi
    obtain ⟨D, hx, hkept, hpos, hseen, hcertain, hnext, hregs, hmem⟩ := exec_encSample_indexed (dt := dt) (sin := sin) (cos := cos)
      (ref := ref) hready ha (.quadrature h3 h6 htaken) hedge hf hn hlo hhi hup hmode hu hilo hihi
    exact ⟨_, hnext, hx, hkept, (State.after_get ..).trans hpos, (State.after_get ..).trans hseen,
      (State.after_get ..).trans hcertain, hregs, hmem⟩
  case restarts =>
    intro h
    rw [trackFilter_enc]
    unfold filtered
    rw [if_pos h]
    exact ⟨rfl, rfl, rfl, rfl⟩
  case goesOn =>
    intro h
    obtain ⟨xp, r, α, β, γ, hα, hβ, hγ, plo, phi, hr, xlo, xhi, vlo, vhi, alo, ahi⟩ := trackFilter_rounds e d h
    refine ⟨xp, r, α, β, γ, hα, hβ, hγ, plo, phi, hr, xlo, xhi, vlo, vhi, alo, ahi, ?_⟩
    rw [trackFilter_enc]
    exact filtered_restart ..

end Sys2Proof.Machine
end

section
/-! SUPPORT. The clock and its servo, and timed pulses (R65 to R67, R83, R84): what each does to the block, and what it keeps. -/
namespace Sys2Proof.Machine

/-! ### Signed fields -/

theorem toSigned_ofSigned {w : Nat} (hw : w ≠ 0) {x : Int} (hlo : -(2 ^ (w - 1) : Nat) ≤ x) (hhi : x < (2 ^ (w - 1) : Nat)) :
    toSigned w (ofSigned w x) = x := by
  obtain ⟨n, rfl⟩ := Nat.exists_eq_succ_of_ne_zero hw
  have hp : 2 ^ (n + 1) = 2 * 2 ^ n := by rw [pow_succ, mul_comm]
  simp only [Nat.succ_eq_add_one, Nat.add_sub_cancel] at hlo hhi
  unfold toSigned
  simp only [Nat.succ_eq_add_one, ofSigned_mod]
  unfold ofSigned
  rw [hp]
  generalize 2 ^ n = m at *
  rcases lt_or_ge x 0 with hx | hx
  · rw [← Int.add_emod_right, Int.emod_eq_of_lt (by omega) (by omega), if_neg (by omega)]
    omega
  · rw [Int.emod_eq_of_lt hx (by omega), if_pos (by omega)]
    omega

theorem satS_bounds {w : Nat} (x : Int) : -(2 ^ (w - 1) : Nat) ≤ satS w x ∧ satS w x < (2 ^ (w - 1) : Nat) := by
  have h := Nat.two_pow_pos (w - 1)
  unfold satS
  simp only
  generalize 2 ^ (w - 1) = m at *
  split
  · omega
  · split <;> omega

/-- A signed field reads the saturated value that was put there. -/
theorem Dev.getI_putI_satS (d : Dev) (f : RegField) (x : Int) (hw : f.width ≠ 0) (hf : f.lo + f.width ≤ 32) :
    (d.putI f (satS f.width x)).getI f = satS f.width x := by
  unfold Dev.getI Dev.putI
  rw [Dev.get_put_same _ _ _ hf, ofSigned_mod]
  obtain ⟨hlo, hhi⟩ := satS_bounds (w := f.width) x
  exact toSigned_ofSigned hw hlo hhi

/-! ### Timed pulses -/

@[simp] theorem Dev.tp_setTp_same (d : Dev) (i : Nat) (x : Tp) : (d.setTp i x).tp i = x := cellGet_cellSet_same _ _ _ _

theorem Dev.pinLevel_drive (d : Dev) (p : OutPin) (i v : Nat) : (d.drive p i v).pinLevel p i = v := by
  have h : (d.drive p i v).pins = cellSet 0 d.pins (pinKey p i) v := by unfold Dev.drive; simp only; split <;> rfl
  unfold Dev.pinLevel
  rw [h, cellGet_cellSet_same]

/-- `e` is `d` but for the schedules of TPULSE, the balls, what goes out, and registers of `l`. -/
structure PulseTouch (l : List Nat) (d e : Dev) : Prop where
  frame : ∃ r m p o, e = { d with regs := r, tm := { d.tm with tps := m }, pins := p, out := o }
  regs : Kept l d e

namespace PulseTouch
variable {l l' : List Nat} {d e f : Dev}

theorem refl (l : List Nat) (d : Dev) : PulseTouch l d d := ⟨⟨_, _, _, _, rfl⟩, .refl l d⟩
theorem trans (h : PulseTouch l d e) (g : PulseTouch l e f) : PulseTouch l d f := by
  obtain ⟨⟨_, _, _, _, rfl⟩, k⟩ := h
  obtain ⟨⟨_, _, _, _, rfl⟩, k'⟩ := g
  exact ⟨⟨_, _, _, _, rfl⟩, k.trans k'⟩
theorem mono (h : PulseTouch l d e) (hl : l ⊆ l') : PulseTouch l' d e := ⟨h.frame, h.regs.mono hl⟩
theorem setTp (h : PulseTouch l d e) (i : Nat) (x : Tp) : PulseTouch l d (e.setTp i x) :=
  h.trans ⟨⟨_, _, _, _, rfl⟩, .of_regs rfl⟩
theorem put (h : PulseTouch l d e) {g : RegField} (v : Nat) (hg : g.addr ∈ l) : PulseTouch l d (e.put g v) :=
  h.trans ⟨⟨_, _, _, _, rfl⟩, (Kept.refl l e).put v hg⟩
theorem drive (h : PulseTouch l d e) (p : OutPin) (i v : Nat) : PulseTouch l d (e.drive p i v) :=
  h.trans ⟨⟨e.regs, e.tm.tps, _, _, Dev.drive_frame e p i v⟩, .of_regs (Dev.drive_regs e p i v)⟩
theorem calm (h : PulseTouch l d e) : Calm l d e := by
  obtain ⟨⟨_, _, _, _, rfl⟩, k⟩ := h
  exact ⟨k, rfl, rfl, rfl, rfl, rfl, rfl, rfl⟩
theorem clk (h : PulseTouch l d e) : e.clk = d.clk := by obtain ⟨⟨_, _, _, _, rfl⟩, -⟩ := h; rfl
theorem iq (h : PulseTouch l d e) : e.tm.iq = d.tm.iq := by obtain ⟨⟨_, _, _, _, rfl⟩, -⟩ := h; rfl
end PulseTouch

theorem tpShow_touch (i : Nat) (d : Dev) : PulseTouch [R.TP_STAT i] d (tpShow i d) :=
  ((PulseTouch.refl _ d).put (g := F.TP_STAT_RUN i) _ (by simp)).drive _ _ _

theorem tpShow_tm (i : Nat) (d : Dev) : (tpShow i d).tm = d.tm := Dev.drive_tm ..

theorem tpShow_tp (i j : Nat) (d : Dev) : (tpShow i d).tp j = d.tp j := by unfold Dev.tp; rw [tpShow_tm]

/-- The ball is active while a pulse is in progress (R83). -/
theorem tpShow_pin (i : Nat) (d : Dev) :
    (tpShow i d).pinLevel .tpulse i = if (d.tp i).endT.isSome then 1 - d.get (F.TP_CFG_POL i) else d.get (F.TP_CFG_POL i) := by
  unfold tpShow
  simp only
  rw [Dev.pinLevel_drive, Dev.putB, Dev.get_put_apart _ _ _ _ (by simp) (.inl (by simp))]

theorem tpShow_run (i : Nat) (d : Dev) : (tpShow i d).get (F.TP_STAT_RUN i) = b2n ((d.tp i).endT.isSome || tpLeft d i (d.tp i)) := by
  unfold tpShow
  simp only
  rw [Dev.get_drive, Dev.putB, Dev.get_put_same _ _ _ (by simp)]
  exact Nat.mod_eq_of_lt (b2n_lt _)

theorem tpSkip_touch (late : Bool) (i : Nat) (t : Int) (d : Dev) : PulseTouch [R.TP_STAT i] d (tpSkip late i t d) := by
  have hlate : PulseTouch [R.TP_STAT i] d (if late then d.put (F.TP_STAT_LATE i) 1 else d) := by
    split
    · exact (PulseTouch.refl _ d).put (g := F.TP_STAT_LATE i) _ (by simp)
    · exact .refl _ d
  unfold tpSkip
  simp only
  split
  · exact (hlate.setTp _ _).trans (tpShow_touch i _)
  · exact .refl _ d

/-- Nothing is skipped where every pulse that begins before `t` has begun. -/
theorem tpSkip_none {late : Bool} {i : Nat} {t : Int} {d : Dev} (h : tpBefore d i (d.tp i).start t ≤ (d.tp i).k) : tpSkip late i t d = d := by
  unfold tpSkip
  exact if_neg (by simp [Nat.not_lt.2 h])

/-- The status registers of TPULSE. -/
abbrev pulseRegs : List Nat := (List.range 8).map R.TP_STAT

theorem tpStep_touch (d : Dev) : PulseTouch pulseRegs d (tpStep d) :=
  forL_induct (List.range 8) (.refl _ d) fun i hi x hx =>
    hx.trans ((tpSkip_touch true i x.t48 x).mono (List.cons_subset.2 ⟨List.mem_map_of_mem hi, List.nil_subset _⟩))

/-! ### Setting the clock -/

theorem memberRebase_calm (d : Dev) : Calm [] d (memberRebase d) := ⟨.of_regs rfl, rfl, rfl, rfl, rfl, rfl, rfl, rfl⟩

theorem clockSet_calm (t : Int) (d : Dev) : Calm pulseRegs d (clockSet t d) :=
  have hclk : Calm pulseRegs d { d with clk := t.toNat * 2 ^ 32 } := ⟨.of_regs rfl, rfl, rfl, rfl, rfl, rfl, rfl, rfl⟩
  (hclk.trans (tpStep_touch _).calm).trans ((memberRebase_calm _).mono (List.nil_subset _))

theorem clockSet_clk (t : Int) (d : Dev) : (clockSet t d).clk = t.toNat * 2 ^ 32 := (tpStep_touch { d with clk := t.toNat * 2 ^ 32 }).clk

theorem clockSet_iq (t : Int) (d : Dev) : (clockSet t d).tm.iq = d.tm.iq := (tpStep_touch { d with clk := t.toNat * 2 ^ 32 }).iq

/-! ### The servo -/

theorem timeStatus_clk (q c : Bool) (th : Int) (d : Dev) : (timeStatus q c th d).clk = d.clk := rfl
theorem timeStatus_tm (q c : Bool) (th : Int) (d : Dev) : (timeStatus q c th d).tm = d.tm := rfl

theorem timeStatus_regs (q c : Bool) (th : Int) (d : Dev) : Kept [R.TIME_STAT] d (timeStatus q c th d) :=
  ((Kept.refl _ d).put (g := F.TIME_STAT_LOCKED) _ (by simp)).put (g := F.TIME_STAT_SLEWING) _ (by simp)

theorem timeStatus_stepped (q c : Bool) (th : Int) (d : Dev) :
    (timeStatus q c th d).get F.TIME_STAT_STEPPED = d.get F.TIME_STAT_STEPPED := by
  unfold timeStatus Dev.putB
  rw [Dev.get_put_apart _ _ _ _ (by decide) (by decide), Dev.get_put_apart _ _ _ _ (by decide) (by decide)]

section
variable {th : Int} {qual : Bool} {d : Dev}

/-- Off, or in holdover, the servo reports and does no more. -/
theorem servo_idle (h : d.get F.TIME_CTL_SERVO_EN = 0 ∨ d.get F.TIME_STAT_HOLDOVER = 1) :
    servo th qual d = timeStatus qual false th d := by
  unfold servo
  rw [if_pos]
  rcases h with h | h
  · simp [Dev.getB_of_get_zero h]
  · simp [Dev.getB_of_get_one h]

/-- The step of R67: the clock takes its value plus θ. -/
theorem servo_steps (hen : d.get F.TIME_CTL_SERVO_EN = 1) (hho : d.get F.TIME_STAT_HOLDOVER = 0) (hp : d.planActive = false)
    (hn : d.tm.noStep = false) (hfar : d.get F.TIME_SLEW_STEP_THR * 10 * 65536 < th.natAbs) :
    servo th qual d = timeStatus qual false 0 (((clockSet (d.t16 + th) d).put F.TIME_STAT_STEPPED 1).raise 0x08 0) := by
  unfold servo
  rw [if_neg (by simp [Dev.getB_of_get_one hen, Dev.getB_of_get_zero hho])]
  exact if_pos (by simp [hp, hn, hfar])

/-- The proportional term and the integral step of R66, limited. -/
def servoP (th : Int) (d : Dev) : Int := clampI ((d.get F.TIME_SERVO_KP : Int) * th / 2 ^ 14) ((d.get F.TIME_SLEW_SLEW_LIM : Int) * 1024)
def servoI (th : Int) (d : Dev) : Int := clampI ((d.get F.TIME_SERVO_KI : Int) * th / 2 ^ 22) ((d.get F.TIME_SLEW_SLEW_LIM : Int) * 64)

/-- The block with the servo's values of R66, before TIME_STAT. -/
def steered (th : Int) (n : Bool) (d : Dev) : Dev :=
  { d with tm := { d.tm with noStep := n, iq := satS 32 (d.tm.iq + servoI th d) } }.putI F.TIME_FREQ_FREQ
    (satS 32 (satS 32 (d.tm.iq + servoI th d) + servoP th d))

/-- With no step due the servo runs the program of R66. -/
theorem servo_steers (hen : d.get F.TIME_CTL_SERVO_EN = 1) (hho : d.get F.TIME_STAT_HOLDOVER = 0)
    (h : d.planActive = true ∨ d.tm.noStep = true ∨ th.natAbs ≤ d.get F.TIME_SLEW_STEP_THR * 10 * 65536) :
    ∃ slew n, servo th qual d = timeStatus qual slew th (steered th n d) := by
  unfold servo
  rw [if_neg (by simp [Dev.getB_of_get_one hen, Dev.getB_of_get_zero hho])]
  extract_lets far
  rw [if_neg]
  · exact ⟨_, _, rfl⟩
  · rcases h with h | h | h
    · simp [h]
    · simp [h]
    · simp [far, Nat.not_lt.2 h]

theorem steered_regs (n : Bool) : Kept [R.TIME_FREQ] d (steered th n d) :=
  Kept.put (e := { d with tm := { d.tm with noStep := n, iq := satS 32 (d.tm.iq + servoI th d) } }) (.of_regs rfl)
    (g := F.TIME_FREQ_FREQ) _ (by simp)
end

/-- Settles O6: one sample is reported (`servo_idle`), steps the clock (`servo_steps`) or steers it (`servo_steers`). -/
theorem clockServo : Obligations.ClockServo := by
  unfold Obligations.ClockServo
  rintro th P Di lim qual d rfl hP hDi
  refine ⟨fun hen hho hsteer => ?steers, fun hen hho hp hn hfar => ?steps, fun hidle => ?idle⟩
  case steers =>
    obtain ⟨slew, n, hservo⟩ := servo_steers (qual := qual) hen hho hsteer
    have hkept := timeStatus_regs qual slew th (steered th n d)
    have hP' : servoP th d = P := hP.symm
    have hDi' : servoI th d = Di := hDi.symm
    rw [hservo]
    refine ⟨?_, ?_, ?_, fun a hfreq hstat => ?_⟩
    · rw [timeStatus_tm, ← hDi']; rfl
    · rw [Dev.getI, hkept.get_eq (g := F.TIME_FREQ_FREQ) (by decide), ← hDi', ← hP']
      exact Dev.getI_putI_satS _ F.TIME_FREQ_FREQ _ (by decide) (by decide)
    · rw [timeStatus_clk]; rfl
    · exact (hkept.reg_eq (by simpa using hstat)).trans ((steered_regs n).reg_eq (by simpa using hfreq))
  case steps =>
    rw [servo_steps hen hho hp hn hfar]
    have hset := clockSet_calm (d.t16 + th) d
    have hstepped := (Kept.refl [R.TIME_STAT] (clockSet (d.t16 + th) d)).put (g := F.TIME_STAT_STEPPED) 1 (by simp)
    have hraised := (Kept.refl (eventRegs 0x08) ((clockSet (d.t16 + th) d).put F.TIME_STAT_STEPPED 1)).raise 0x08 0 (List.Subset.refl _)
    have hkept := timeStatus_regs qual false 0 (((clockSet (d.t16 + th) d).put F.TIME_STAT_STEPPED 1).raise 0x08 0)
    refine ⟨?_, ?_, ?_, ?_, ?_⟩
    · rw [timeStatus_clk, Dev.raise_clk, Dev.put_clk, clockSet_clk]
    · rw [timeStatus_tm, Dev.raise_tm, Dev.put_tm, clockSet_iq]
    · rw [hkept.get_eq (g := F.TIME_FREQ_FREQ) (by decide), hraised.get_eq (g := F.TIME_FREQ_FREQ) (by decide),
        hstepped.get_eq (g := F.TIME_FREQ_FREQ) (by decide), hset.regs.get_eq (g := F.TIME_FREQ_FREQ) (by decide)]
    · rw [timeStatus_stepped, hraised.get_eq (g := F.TIME_STAT_STEPPED) (by decide)]
      exact Dev.get_put_same _ _ _ (by decide)
    · rw [hkept.reg_eq (by decide)]
      exact Dev.evtSet_raiseBits _ 0x08 8 (by omega)
  case idle =>
    rw [servo_idle hidle]
    exact ⟨timeStatus_clk .., congrArg TimeSt.iq (timeStatus_tm ..), fun a hstat => timeStatus_regs _ _ _ _ a (by simpa using hstat)⟩

end Sys2Proof.Machine
end

section
/-! SUPPORT. O8: the timestamp queue and the edges of a timed pulse (R77, R83). -/
namespace Sys2Proof.Machine

@[simp] theorem State.after_tm (s : State) (d : Dev) : (s.after d).dev.tm = d.tm := rfl
@[simp] theorem State.after_clk (s : State) (d : Dev) : (s.after d).dev.clk = d.clk := rfl
@[simp] theorem State.after_tp (s : State) (d : Dev) (i : Nat) : (s.after d).dev.tp i = d.tp i := rfl
@[simp] theorem State.after_busResp (s : State) (d : Dev) : (s.after d).dev.busResp = d.busResp := rfl
@[simp] theorem State.after_pinLevel (s : State) (d : Dev) (p : OutPin) (i : Nat) : (s.after d).dev.pinLevel p i = d.pinLevel p i := rfl

/-! ### The timestamp queue -/

/-- The registers that show the stamp read. -/
abbrev stampRegs : List Nat := [R.TSQ_DATA0, R.TSQ_DATA1, R.TSQ_DATA2, R.TSQ_DATA3]

/-- A stamp is put into the registers of the queue (R77). -/
def stampShown (id q t : Nat) (d : Dev) : Dev :=
  (((((d.put F.TSQ_DATA0_ID id).put F.TSQ_DATA0_PORT q).put F.TSQ_DATA0_VALID 1).put F.TSQ_DATA1_NS (t / 65536 % 1000000000)).put
    F.TSQ_DATA2_FRAC (t % 65536)).put F.TSQ_DATA3_SEC (t / 65536 / 1000000000)

theorem stampShown_calm (id q t : Nat) (d : Dev) : Calm stampRegs d (stampShown id q t d) :=
  ((((((Calm.refl _ d).put (g := F.TSQ_DATA0_ID) _ (by simp)).put (g := F.TSQ_DATA0_PORT) _ (by simp)).put (g := F.TSQ_DATA0_VALID) _
    (by simp)).put (g := F.TSQ_DATA1_NS) _ (by simp)).put (g := F.TSQ_DATA2_FRAC) _ (by simp)).put (g := F.TSQ_DATA3_SEC) _ (by simp)

/-- The registers show the stamp. -/
theorem stampShown_get (id q t : Nat) (d : Dev) : (stampShown id q t d).get F.TSQ_DATA0_ID = id % 2 ^ 16
    ∧ (stampShown id q t d).get F.TSQ_DATA0_PORT = q % 2 ∧ (stampShown id q t d).get F.TSQ_DATA0_VALID = 1
    ∧ (stampShown id q t d).get F.TSQ_DATA1_NS = t / 2 ^ 16 % 1000000000 ∧ (stampShown id q t d).get F.TSQ_DATA2_FRAC = t % 2 ^ 16
    ∧ (stampShown id q t d).get F.TSQ_DATA3_SEC = t / 2 ^ 16 / 1000000000 % 2 ^ 32 := by
  have apart {f g : RegField} {v : Nat} {x : Dev} (hf : f.lo + f.width ≤ 32) (h : Apart f g) : (x.put f v).get g = x.get g :=
    Dev.get_put_apart x f g v hf h
  have same {f : RegField} {v : Nat} {x : Dev} (hf : f.lo + f.width ≤ 32) : (x.put f v).get f = v % 2 ^ f.width := Dev.get_put_same x f v hf
  unfold stampShown
  refine ⟨?_, ?_, ?_, ?_, ?_, same (by decide)⟩
  · rw [apart (by decide) (by decide), apart (by decide) (by decide), apart (by decide) (by decide), apart (by decide) (by decide),
      apart (by decide) (by decide), same (by decide)]
  · rw [apart (by decide) (by decide), apart (by decide) (by decide), apart (by decide) (by decide), apart (by decide) (by decide),
      same (by decide)]
    rfl
  · rw [apart (by decide) (by decide), apart (by decide) (by decide), apart (by decide) (by decide), same (by decide)]
    rfl
  · rw [apart (by decide) (by decide), apart (by decide) (by decide), same (by decide)]
    exact Nat.mod_eq_of_lt ((Nat.mod_lt _ (by norm_num)).trans (by norm_num))
  · rw [apart (by decide) (by decide), same (by decide)]
    exact Nat.mod_mod _ _

/-- The queue has `l` left after a read; a full one has room again (R78). -/
def queueLeft (l : List (Nat × Nat × Nat)) (d : Dev) : Dev :=
  { d with tm := { d.tm with tsq := l, tsqRoom := if l.length = 15 then some (d.now / 2) else d.tm.tsqRoom } }

theorem queueLeft_calm (l : List (Nat × Nat × Nat)) (d : Dev) : Calm [] d (queueLeft l d) :=
  ⟨.of_regs rfl, rfl, rfl, rfl, rfl, rfl, rfl, rfl⟩

/-- The block once the head of the queue has been taken, with `l` left. -/
def stampTaken (id q t : Nat) (l : List (Nat × Nat × Nat)) (d : Dev) : Dev :=
  (queueLeft l (stampShown id q t d)).put F.TSQ_STAT_COUNT l.length

theorem tsqRead_cons {d : Dev} {id q t : Nat} {l : List (Nat × Nat × Nat)} (h : d.tm.tsq = (id, q, t) :: l) :
    tsqRead d = stampTaken id q t l d := by
  unfold tsqRead
  rw [h]
  rfl

theorem tsqRead_nil {d : Dev} (h : d.tm.tsq = []) : tsqRead d = d.put F.TSQ_DATA0_VALID 0 := by
  unfold tsqRead
  rw [h]

theorem stampTaken_tsq (id q t : Nat) (l : List (Nat × Nat × Nat)) (d : Dev) : (stampTaken id q t l d).tm.tsq = l := rfl

theorem stampTaken_calm (id q t : Nat) (l : List (Nat × Nat × Nat)) (d : Dev) :
    Calm (stampRegs ++ [R.TSQ_STAT]) d (stampTaken id q t l d) := by
  have hshown := (stampShown_calm id q t d).mono (List.subset_append_left stampRegs [R.TSQ_STAT])
  exact (hshown.trans ((queueLeft_calm l _).mono (List.nil_subset _))).put (g := F.TSQ_STAT_COUNT) _ (by simp)

theorem stampTaken_count (id q t : Nat) (l : List (Nat × Nat × Nat)) (d : Dev) :
    (stampTaken id q t l d).get F.TSQ_STAT_COUNT = l.length % 2 ^ 5 := by
  unfold stampTaken
  exact Dev.get_put_same _ _ _ (by decide)

/-- The count in TSQ_STAT touches none of what shows the stamp. -/
theorem stampTaken_get {id q t : Nat} {l : List (Nat × Nat × Nat)} {d : Dev} {g : RegField} (hg : g.addr ∈ stampRegs) :
    (stampTaken id q t l d).get g = (stampShown id q t d).get g := by
  have hne : g.addr ≠ R.TSQ_STAT := by
    intro h
    rw [h] at hg
    revert hg
    decide
  unfold stampTaken
  rw [Dev.get_put_apart _ _ _ _ (by decide) (.inl hne)]
  exact (queueLeft_calm l _).regs.get_eq List.not_mem_nil

/-- What the bus answers once a read of the queue has left `d`. -/
def stampAnswered (d : Dev) : Dev := { d with busResp := .ok (d.reg R.TSQ_DATA0).toNat }

theorem tsqDataRead_eq (d : Dev) : tsqDataRead d = stampAnswered (tsqRead d) := rfl

theorem stampAnswered_calm (d : Dev) : Calm [] d (stampAnswered d) := ⟨.of_regs rfl, rfl, rfl, rfl, rfl, rfl, rfl, rfl⟩

theorem stampAnswered_busResp (d : Dev) : (stampAnswered d).busResp = .ok ((stampAnswered d).reg R.TSQ_DATA0).toNat := rfl

theorem stampAnswered_tsq (d : Dev) : (stampAnswered d).tm.tsq = d.tm.tsq := rfl
theorem stampAnswered_get (d : Dev) (g : RegField) : (stampAnswered d).get g = d.get g := rfl

/-! ### The edges of a pulse -/

section
variable {d : Dev} {i : Nat}

/-- The end of the pulse in progress. -/
theorem tpulseEdge_ends {e : Int} (h : (d.tp i).endT = some e) (he : e ≤ d.tNs) :
    tpulseEdge i d = tpShow i (d.setTp i { d.tp i with endT := none }) := by
  unfold tpulseEdge
  simp only [h]
  exact if_pos he

/-- The start of the next pulse, whose instant has come. -/
theorem tpulseEdge_begins {st : Int} (hen : d.get (F.PG_CTL_EN 0x09) = 1) (hout : d.get (F.TP_CFG_EN i) = 1) (hend : (d.tp i).endT = none)
    (hleft : d.get (F.TP_CFG_COUNT i) = 0 ∨ (d.tp i).k < d.get (F.TP_CFG_COUNT i))
    (hskip : tpBefore d i (d.tp i).start (d.tp i).hold ≤ (d.tp i).k)
    (hst : st = (d.tp i).start + (d.tp i).k * (d.get (F.TP_PERIOD_PERIOD i) : Int)) (hnow : st ≤ d.tNs) :
    tpulseEdge i d = tpShow i (d.setTp i { d.tp i with
      k := (d.tp i).k + 1, endT := some (st + d.get (F.TP_WIDTH_WIDTH i)), hold := (st + d.get (F.TP_WIDTH_WIDTH i)) * nsUnit }) := by
  have hl : tpLeft d i (d.tp i) = true := by
    unfold tpLeft
    rw [Dev.getB_of_get_one hout]
    simpa using hleft
  unfold tpulseEdge
  simp only [hend]
  rw [if_neg (by simp [Dev.enabled, Dev.getB_of_get_one hen, hl]), tpSkip_none hskip]
  subst hst
  exact if_pos (by simp [hl, hnow])

/-- The block that shows schedule `x` of output `i`. -/
theorem pulseShown (i : Nat) (x : Tp) (d : Dev) : PulseTouch [R.TP_STAT i] d (tpShow i (d.setTp i x))
    ∧ (tpShow i (d.setTp i x)).tp i = x
    ∧ (tpShow i (d.setTp i x)).pinLevel .tpulse i = (if x.endT.isSome then 1 - d.get (F.TP_CFG_POL i) else d.get (F.TP_CFG_POL i))
    ∧ (tpShow i (d.setTp i x)).get (F.TP_STAT_RUN i) = b2n (x.endT.isSome || tpLeft d i x) := by
  refine ⟨((PulseTouch.refl _ d).setTp i x).trans (tpShow_touch i _), ?_, ?_, ?_⟩
  · rw [tpShow_tp, Dev.tp_setTp_same]
  · rw [tpShow_pin, Dev.tp_setTp_same]
    rfl
  · rw [tpShow_run, Dev.tp_setTp_same]
    rfl
end

theorem endRegs_tpStat (o : Fin 8) : ∀ a ∈ endRegs, a ∉ [R.TP_STAT o] := by revert o; decide

/-- Settles O8: the read takes the head of the queue or finds none, and an edge shows the schedule that it leaves (`pulseShown`). -/
theorem stampsAndPulses : Obligations.StampsAndPulses := by
  unfold Obligations.StampsAndPulses
  intro dt id q tim l o s hready
  refine ⟨fun hq => ?head, fun hq => ?empty, fun st hen hout hend hleft hskip hst hnow => ?begins, fun e hend he => ?ends⟩
  case head =>
    have heffect : tsqDataRead (s.dev.elapse dt) = stampAnswered (stampTaken id q tim l (s.dev.elapse dt)) := by
      rw [tsqDataRead_eq, tsqRead_cons (d := s.dev.elapse dt) hq]
    obtain ⟨hnext, hregs, hmem⟩ := perform_effect hready heffect
      ((stampTaken_calm ..).trans ((stampAnswered_calm _).mono (List.nil_subset _))) (by decide)
    obtain ⟨hid, hport, hvalid, hns, hfrac, hsec⟩ := stampShown_get id q tim (s.dev.elapse dt)
    have hget {g : RegField} (hg : g.addr ∈ stampRegs) : (s.after (stampAnswered (stampTaken id q tim l (s.dev.elapse dt)))).dev.get g
        = (stampShown id q tim (s.dev.elapse dt)).get g := by rw [State.after_get, stampAnswered_get, stampTaken_get hg]
    refine ⟨_, hnext, ?_, ?_, (hget (by decide)).trans hid, (hget (by decide)).trans hport, (hget (by decide)).trans hvalid,
      (hget (by decide)).trans hns, (hget (by decide)).trans hfrac, (hget (by decide)).trans hsec, ?_, hregs, hmem⟩
    · rw [State.after_tm, stampAnswered_tsq, stampTaken_tsq]
    · rw [State.after_busResp, State.after_reg, stampAnswered_busResp]
    · rw [State.after_get, stampAnswered_get, stampTaken_count]
  case empty =>
    have heffect : tsqDataRead (s.dev.elapse dt) = stampAnswered ((s.dev.elapse dt).put F.TSQ_DATA0_VALID 0) := by
      rw [tsqDataRead_eq, tsqRead_nil (d := s.dev.elapse dt) hq]
    obtain ⟨hnext, hregs, hmem⟩ := perform_effect hready heffect
      (((Calm.refl [R.TSQ_DATA0] _).put (g := F.TSQ_DATA0_VALID) 0 (by simp)).trans ((stampAnswered_calm _).mono (List.nil_subset _)))
      (by decide)
    refine ⟨_, hnext, ?_, ?_, hregs, hmem⟩
    · exact Dev.get_put_same (s.dev.elapse dt) F.TSQ_DATA0_VALID 0 (by decide)
    · rw [State.after_busResp, State.after_reg, stampAnswered_busResp]
  case begins =>
    obtain ⟨htouch, htp, hpin, hrun⟩ := pulseShown o { s.dev.tp o with
      k := (s.dev.tp o).k + 1, endT := some (st + s.dev.get (F.TP_WIDTH_WIDTH o)),
      hold := (st + s.dev.get (F.TP_WIDTH_WIDTH o)) * nsUnit } (s.dev.elapse dt)
    obtain ⟨hnext, hregs, hmem⟩ := perform_effect hready (tpulseEdge_begins (d := s.dev.elapse dt) hen hout hend hleft hskip hst hnow)
      htouch.calm (endRegs_tpStat o)
    exact ⟨_, hnext, congrArg Tp.k htp, congrArg Tp.endT htp, hpin, hrun, hregs, hmem⟩
  case ends =>
    obtain ⟨htouch, htp, hpin, -⟩ := pulseShown o { s.dev.tp o with endT := none } (s.dev.elapse dt)
    obtain ⟨hnext, hregs, hmem⟩ := perform_effect hready (tpulseEdge_ends (d := s.dev.elapse dt) hend he) htouch.calm (endRegs_tpStat o)
    exact ⟨_, hnext, (congrArg Tp.endT htp :), (congrArg Tp.k htp :), hpin, hregs, hmem⟩

end Sys2Proof.Machine
end

section
/-! SUPPORT. What sending a frame of the device's own touches (R69, R77, R81). -/
namespace Sys2Proof.Machine

/-- `e` is `d` but for what goes out, the frames that wait, the PTP domains and the free values drawn. -/
def OnlySends (d e : Dev) : Prop :=
  ∃ o w m n, e = { d with out := o, path := { d.path with txWait := w }, tm := { d.tm with doms := m }, freeCtr := n }

namespace OnlySends
variable {d e f : Dev}

theorem refl (d : Dev) : OnlySends d d := ⟨_, _, _, _, rfl⟩
theorem trans (h : OnlySends d e) (g : OnlySends e f) : OnlySends d f := by
  obtain ⟨_, _, _, _, rfl⟩ := h
  obtain ⟨_, _, _, _, rfl⟩ := g
  exact ⟨_, _, _, _, rfl⟩
theorem ite {c : Prop} [Decidable c] (h : OnlySends d e) (g : OnlySends d f) : OnlySends d (if c then e else f) := by
  split <;> assumption
theorem regs (h : OnlySends d e) : e.regs = d.regs := by obtain ⟨_, _, _, _, rfl⟩ := h; rfl
theorem dram (h : OnlySends d e) : e.dram = d.dram := by obtain ⟨_, _, _, _, rfl⟩ := h; rfl
theorem l2 (h : OnlySends d e) : e.l2 = d.l2 := by obtain ⟨_, _, _, _, rfl⟩ := h; rfl
theorem txFlight (h : OnlySends d e) : e.path.txFlight = d.path.txFlight := by obtain ⟨_, _, _, _, rfl⟩ := h; rfl
theorem calm (h : OnlySends d e) : Calm [] d e := by
  obtain ⟨_, _, _, _, rfl⟩ := h
  exact ⟨.of_regs rfl, rfl, rfl, rfl, rfl, rfl, rfl, rfl⟩
end OnlySends

theorem forN_induct {α : Type} {P : α → Prop} {n : Nat} {f : Nat → α → α} {a : α} (h0 : P a) (hs : ∀ i x, P x → P (f i x)) :
    P (forN n f a) :=
  forL_induct (List.range n) h0 fun i _ x hx => hs i x hx

theorem ptpSent_sends (q : Nat) (t : Int) (fr : List Byte) (d : Dev) : OnlySends d (ptpSent q t fr d) := by
  unfold ptpSent
  split
  · exact .refl d
  · refine .ite (.refl d) (forN_induct (.refl d) fun k x hx => ?_)
    exact .ite (hx.trans ⟨_, _, _, _, rfl⟩) hx

theorem departEth_sends (q : Nat) (fr : List Byte) (d : Dev) : OnlySends d (departEth q fr d) :=
  (ptpSent_sends q (txStamp d q) fr d).trans ⟨_, _, _, _, rfl⟩

theorem sendEth_sends (q : Nat) (fr : List Byte) (d : Dev) : OnlySends d (sendEth q fr d) :=
  .ite (.refl d) (.ite ⟨_, _, _, _, rfl⟩ (departEth_sends q fr d))

theorem sendWaiting_sends (q : Nat) (d : Dev) : OnlySends d (sendWaiting q d) := by
  unfold sendWaiting
  refine forN_induct (.refl d) fun _ x hx => ?_
  split
  · exact hx
  · rename_i w _
    have hgone : OnlySends x { x with path := { x.path with txWait := x.path.txWait.erase w } } := ⟨_, _, _, _, rfl⟩
    exact hx.trans (.ite hgone (.ite (.refl x) (hgone.trans (departEth_sends q w.2 _))))

theorem sendHeld_sends (d : Dev) : OnlySends d (sendHeld d) := (sendWaiting_sends 0 d).trans (sendWaiting_sends 1 _)

theorem sendWaiting_none {q : Nat} {d : Dev} (h : d.path.txWait = []) : sendWaiting q d = d := by
  unfold sendWaiting
  rw [h]
  rfl

theorem sendHeld_none {d : Dev} (h : d.path.txWait = []) : sendHeld d = d := by
  unfold sendHeld
  rw [sendWaiting_none h, sendWaiting_none h]

end Sys2Proof.Machine
end

section
/-! SUPPORT. What an engine's access of memory that it may reach does (R322, R325, R338, R369): a read is of the bytes there, a
write puts them there, and beside them only DRAM's schedule, what is known of poison and `memRegs` are touched. -/
namespace Sys2Proof.Machine

/-- `Reach` of the block: each of the `n` bytes from `a` is backed, and master `m` may reach it. -/
abbrev Reachable (d : Dev) (m kind a n : Nat) : Prop :=
  cleated d m = false ∧ stepsHeld d m = false ∧ ∀ i, i < n →
    (shroudCheck d m kind (a + i) false).1 = true
      ∧ ((inL2 (a + i) && d.l2Ram) || dramServes d (a + i) && !d.getB F.DRAMC_FCHG_BUSY) = true

namespace DramTouch
variable {d e : Dev}

theorem path (h : DramTouch d e) : e.path = d.path := by obtain ⟨⟨_, _, _, _, _, _, _, rfl⟩, -⟩ := h; rfl
theorem out (h : DramTouch d e) : e.out = d.out := by obtain ⟨⟨_, _, _, _, _, _, _, rfl⟩, -⟩ := h; rfl
theorem l2Ram (h : DramTouch d e) : e.l2Ram = d.l2Ram := by obtain ⟨⟨_, _, _, _, _, _, _, rfl⟩, -⟩ := h; rfl
theorem regions (h : DramTouch d e) : e.regions = d.regions := by obtain ⟨⟨_, _, _, _, _, _, _, rfl⟩, -⟩ := h; rfl
theorem heldSteps (h : DramTouch d e) : e.heldSteps = d.heldSteps := by obtain ⟨⟨_, _, _, _, _, _, _, rfl⟩, -⟩ := h; rfl
theorem ue (h : DramTouch d e) : e.ue = d.ue := by obtain ⟨⟨_, _, _, _, _, _, _, rfl⟩, -⟩ := h; rfl
theorem remap (h : DramTouch d e) : e.remap = d.remap := by obtain ⟨⟨_, _, _, _, _, _, _, rfl⟩, -⟩ := h; rfl

theorem busy (h : DramTouch d e) : e.getB F.DRAMC_FCHG_BUSY = d.getB F.DRAMC_FCHG_BUSY := h.regs.getB_eq (by decide)

theorem rate (h : DramTouch d e) (hr : (d.getB F.DRAMC_FCHG_BUSY && !d.getB F.DRAMC_STAT_SELFREF) = false) :
    (e.getB F.DRAMC_FCHG_BUSY && !e.getB F.DRAMC_STAT_SELFREF) = false := by
  rw [h.busy, h.regs.getB_eq (g := F.DRAMC_STAT_SELFREF) (by decide), hr]

theorem dramCap (h : DramTouch d e) : Machine.dramCap e = Machine.dramCap d := by
  unfold Machine.dramCap
  rw [h.regs.get_eq (g := F.DRAMC_CFG_RANKS) (by decide), h.regs.get_eq (g := F.DRAMC_CFG_WIDTH) (by decide),
    h.regs.get_eq (g := F.DRAMC_CFG_DENS) (by decide)]

theorem dramServes (h : DramTouch d e) (a : Nat) : Machine.dramServes e a = Machine.dramServes d a := by
  unfold Machine.dramServes
  rw [h.dramCap, h.regs.getB_eq (g := F.DRAMC_STAT_READY) (by decide)]

theorem masterLevel (h : DramTouch d e) {m : Nat} (hm : m < 18) : Machine.masterLevel e m = Machine.masterLevel d m := by
  have hcore : ∀ m, m < 4 → (F.EVTC_CORE_LVL m).addr ∉ memRegs := by decide
  have hmaster : ∀ m, m < 18 → (F.SHROUD_MASTER_LVL m).addr ∉ memRegs := by decide
  unfold Machine.masterLevel
  split
  · exact h.regs.get_eq (hcore m ‹_›)
  · exact h.regs.get_eq (hmaster m hm)

/-- What Shroud permits does not depend on what an access touches. -/
theorem shroudCheck (h : DramTouch d e) {m : Nat} (hm : m < 18) (kind a : Nat) (rwm : Bool) :
    Machine.shroudCheck e m kind a rwm = Machine.shroudCheck d m kind a rwm := by
  have hgroup : ∀ m, m < 18 → (F.SHROUD_MASTER_GROUP m).addr ∉ memRegs := by decide
  unfold Machine.shroudCheck unmapped decidingRegion regionHas regionPerm regionWord
  rw [h.masterLevel hm, h.l2Ram, h.regions, h.regs.getB_eq (g := F.SHROUD_CFG_EN) (by decide), h.regs.get_eq (hgroup m hm)]

theorem reachable (h : DramTouch d e) {m kind a n : Nat} (hm : m < 18) (hr : Reachable d m kind a n) : Reachable e m kind a n := by
  obtain ⟨hc, hs, hb⟩ := hr
  refine ⟨(cleated_low (h.regs.reg_eq (by decide)) (by omega)).trans hc, ?_, fun i hi => ?_⟩
  · unfold stepsHeld
    rw [h.heldSteps]
    exact hs
  · rw [h.shroudCheck hm, h.l2Ram, h.dramServes, h.busy]
    exact hb i hi
end DramTouch

theorem Reachable.sub {d : Dev} {m kind a n b k : Nat} (h : Reachable d m kind a n) (hlo : a ≤ b) (hhi : b + k ≤ a + n) :
    Reachable d m kind b k := by
  obtain ⟨hc, hs, hb⟩ := h
  refine ⟨hc, hs, fun i hi => ?_⟩
  have := hb (b - a + i) (by omega)
  rwa [show a + (b - a + i) = b + i by omega] at this

/-- A byte that is reached lies in L2 used as RAM, or in DRAM that takes requests. -/
theorem Reachable.backed {d : Dev} {m kind a n : Nat} (h : Reachable d m kind a n) (hn : 0 < n) :
    (shroudCheck d m kind a false).1 = true ∧ regOffset a = none ∧ inRom a = false
      ∧ ((inDram a = true ∧ inL2 a = false ∧ dramServes d a = true ∧ d.getB F.DRAMC_FCHG_BUSY = false)
        ∨ (inDram a = false ∧ inL2 a = true ∧ d.l2Ram = true)) := by
  obtain ⟨-, -, hb⟩ := h
  obtain ⟨hs, hw⟩ := hb 0 hn
  rw [Nat.add_zero] at hs hw
  refine ⟨hs, ?_⟩
  unfold regOffset inRom
  simp only [Bool.or_eq_true, Bool.and_eq_true, Bool.not_eq_true'] at hw
  rcases hw with ⟨hl, hram⟩ | ⟨hd, hbusy⟩
  · have h0 := hl
    unfold inL2 at h0
    simp only [Bool.and_eq_true, decide_eq_true_eq] at h0
    refine ⟨if_neg (by omega), decide_eq_false (by omega), .inr ⟨?_, hl, hram⟩⟩
    unfold inDram
    simp
    omega
  · have h0 := hd
    unfold dramServes inDram at h0
    simp only [Bool.and_eq_true, decide_eq_true_eq] at h0
    obtain ⟨⟨-, hlo, hhi⟩, -⟩ := h0
    refine ⟨if_neg (by omega), decide_eq_false (by omega), .inl ⟨?_, ?_, hd, hbusy⟩⟩
    · unfold inDram
      simp
      omega
    · unfold inL2
      simp
      omega

/-! ### Reads -/

theorem engineRead1_reachable {m a n k : Nat} {d : Dev} (h : Reachable d m kindRead a n) (hn : 0 < n) :
    DramTouch d (engineRead1 m a k d).2 := by
  obtain ⟨hs, hreg, -, hb⟩ := h.backed hn
  refine engineRead1_touch m a k d h.1 hs ?_ hreg
  rcases hb with ⟨-, -, hserves, -⟩ | ⟨hdram, -, -⟩
  · simp [hserves]
  · simp [hdram]

/-- Every piece of an access lies within it. -/
theorem linePieces_within (fuel a n : Nat) : ∀ q ∈ linePieces fuel a n, 0 < q.2 ∧ a ≤ q.1 ∧ q.1 + q.2 ≤ a + n := by
  induction fuel generalizing a n with
  | zero => simp [linePieces]
  | succ fuel ih =>
    unfold linePieces
    split
    · simp
    · intro q hq
      rcases List.mem_cons.1 hq with rfl | hq
      · have := Nat.mod_lt a (show 0 < 64 by omega)
        exact ⟨by simp only; omega, le_refl _, by simp only; omega⟩
      · obtain ⟨hpos, hlo, hhi⟩ := ih _ _ q hq
        exact ⟨hpos, by omega, by omega⟩

/-- A read of memory that the engine may reach touches DRAM's schedule alone. -/
theorem engineRead_touch {m a n : Nat} {d : Dev} (hm : m < 18) (h : Reachable d m kindRead a n)
    (hrate : (d.getB F.DRAMC_FCHG_BUSY && !d.getB F.DRAMC_STAT_SELFREF) = false) : DramTouch d (engineRead m a n d).2 := by
  have hfold (l : List (Nat × Nat)) (hl : ∀ q ∈ l, 0 < q.2 ∧ a ≤ q.1 ∧ q.1 + q.2 ≤ a + n) (x : Option (List Byte)) (e : Dev)
      (he : DramTouch d e) : DramTouch d (l.foldl (fun (p : Option (List Byte) × Dev) q =>
        let r := engineRead1 m q.1 q.2 p.2
        (match p.1, r.1 with
          | some x, some y => some (x ++ y)
          | _, _ => none, r.2)) (x, e)).2 := by
    induction l generalizing x e with
    | nil => exact he
    | cons q l ih =>
      obtain ⟨hpos, hlo, hhi⟩ := hl q List.mem_cons_self
      exact ih (fun q hq => hl q (List.mem_cons_of_mem _ hq)) _ _
        (he.trans (engineRead1_reachable ((he.reachable hm h).sub hlo hhi) hpos))
  have t := hfold _ (linePieces_within (n + 1) a n) (some []) d (.refl d)
  exact t.trans (dramRun_touch _ (t.rate hrate))

/-- What a read of the byte at `a` finds: none where it is poison (R338). -/
def byteFound (d : Dev) (a : Nat) : Option (List Byte) :=
  if inDram a then (if dramPoisoned d a 1 then none else some [cellGet 0 d.dram a])
  else (if l2Poisoned d (a - 0x20000000) 1 then none else some [cellGet 0 d.l2 (a - 0x20000000)])

theorem linePieces_one (a : Nat) : linePieces 2 a 1 = [(a, 1)] := by
  have := Nat.mod_lt a (show 0 < 64 by omega)
  have h1 : min 1 (64 - a % 64) = 1 := by omega
  unfold linePieces linePieces
  simp only [one_ne_zero, if_false, h1, Nat.sub_self, if_true]

theorem engineRead_byte {m a : Nat} {d : Dev} (h : Reachable d m kindRead a 1) : (engineRead m a 1 d).1 = byteFound d a := by
  obtain ⟨hs, -, -, hb⟩ := h.backed one_pos
  have hone : (engineRead m a 1 d).1 = (match (engineRead1 m a 1 d).1 with | some y => some ([] ++ y) | none => none) := by
    unfold engineRead
    rw [linePieces_one]
    simp only [List.foldl_cons, List.foldl_nil]
    cases (engineRead1 m a 1 d).1 <;> rfl
  have hread : (engineRead1 m a 1 d).1 = byteFound d a := by
    unfold engineRead1
    rw [if_neg (by simp [h.1])]
    simp only [hs, if_true]
    unfold targetRead byteFound
    rcases hb with ⟨hdram, -, hserves, hbusy⟩ | ⟨hdram, hl2, hram⟩
    · have t := dramAccept_touch m a false d
      simp only [hdram, if_true, hserves]
      unfold dramPoisoned spareBad dramLoad dramView
      rw [t.ue, t.remap, t.busy, t.dram, hbusy]
      simp
    · simp only [hdram, hl2, hram, Bool.true_and, if_true, Bool.false_eq_true, if_false]
      simp
  rw [hone, hread]
  cases byteFound d a <;> rfl

/-! ### Writes -/

/-- `e` is `d` with `bs` put into the memory that holds address `a`, but for DRAM's schedule, what is known of poison, and the
registers of row protection and of the warm image. -/
structure MemWritten (a : Nat) (bs : List Byte) (d e : Dev) : Prop where
  frame : ∃ r b la th ro rd ru u rm, e = { d with
    regs := r, banks := b, lastAct := la, throttled := th, rows := ro, rankDown := rd, rankUsed := ru, ue := u, remap := rm
    dram := if inDram a then dramStore a bs d.dram else d.dram
    l2 := if inDram a then d.l2 else dramStore (a - 0x20000000) bs d.l2 }
  regs : Kept memRegs d e

theorem MemWritten.touch {a : Nat} {bs : List Byte} {d e f : Dev} (h : MemWritten a bs d e) (g : DramTouch e f) : MemWritten a bs d f := by
  obtain ⟨⟨_, _, _, _, _, _, _, _, _, rfl⟩, k⟩ := h
  obtain ⟨⟨_, _, _, _, _, _, _, rfl⟩, k'⟩ := g
  exact ⟨⟨_, _, _, _, _, _, _, _, _, rfl⟩, k.trans k'⟩

theorem DramTouch.written {a : Nat} {bs : List Byte} {d e f : Dev} (h : DramTouch d e) (g : MemWritten a bs e f) : MemWritten a bs d f := by
  obtain ⟨⟨_, _, _, _, _, _, _, rfl⟩, k⟩ := h
  obtain ⟨⟨_, _, _, _, _, _, _, _, _, rfl⟩, k'⟩ := g
  exact ⟨⟨_, _, _, _, _, _, _, _, _, rfl⟩, k.trans k'⟩

/-- `e` is `d` but for what is known of poison. -/
def OnlyPoison (d e : Dev) : Prop := ∃ u rm, e = { d with ue := u, remap := rm }

theorem OnlyPoison.trans {d e f : Dev} (h : OnlyPoison d e) (g : OnlyPoison e f) : OnlyPoison d f := by
  obtain ⟨_, _, rfl⟩ := h
  obtain ⟨_, _, rfl⟩ := g
  exact ⟨_, _, rfl⟩

namespace MemWritten
variable {a : Nat} {bs : List Byte} {d e f : Dev}

theorem poison (h : MemWritten a bs d e) (g : OnlyPoison e f) : MemWritten a bs d f := by
  obtain ⟨⟨_, _, _, _, _, _, _, _, _, rfl⟩, k⟩ := h
  obtain ⟨_, _, rfl⟩ := g
  exact ⟨⟨_, _, _, _, _, _, _, _, _, rfl⟩, k⟩
theorem onlyRegs (h : MemWritten a bs d e) (g : OnlyRegs e f) (k : Kept memRegs e f) : MemWritten a bs d f :=
  h.touch (.of_onlyRegs g k)
theorem dram_eq (h : MemWritten a bs d e) : e.dram = if inDram a then dramStore a bs d.dram else d.dram := by
  obtain ⟨⟨_, _, _, _, _, _, _, _, _, rfl⟩, -⟩ := h
  rfl
theorem l2_eq (h : MemWritten a bs d e) : e.l2 = if inDram a then d.l2 else dramStore (a - 0x20000000) bs d.l2 := by
  obtain ⟨⟨_, _, _, _, _, _, _, _, _, rfl⟩, -⟩ := h
  rfl
theorem path (h : MemWritten a bs d e) : e.path = d.path := by
  obtain ⟨⟨_, _, _, _, _, _, _, _, _, rfl⟩, -⟩ := h
  rfl
theorem of_dram (h : DramTouch d e) (ha : inDram a = true) : MemWritten a bs d { e with dram := dramStore a bs e.dram } := by
  obtain ⟨⟨r, b, la, th, ro, rd, ru, rfl⟩, k⟩ := h
  exact ⟨⟨r, b, la, th, ro, rd, ru, d.ue, d.remap, by rw [if_pos ha, if_pos ha]⟩, k⟩
theorem of_l2 (d : Dev) (ha : inDram a = false) : MemWritten a bs d { d with l2 := dramStore (a - 0x20000000) bs d.l2 } :=
  ⟨⟨d.regs, d.banks, d.lastAct, d.throttled, d.rows, d.rankDown, d.rankUsed, d.ue, d.remap, by
    rw [if_neg (by simp [ha]), if_neg (by simp [ha])]⟩, .of_regs rfl⟩
end MemWritten

theorem ueRewrite_poison (c i o n : Nat) (d : Dev) : OnlyPoison d (ueRewrite c i o n d) := by
  unfold ueRewrite
  extract_lets w w' d'
  split
  · exact ⟨_, _, rfl⟩
  · split
    · exact ⟨_, _, rfl⟩
    · exact ⟨_, _, rfl⟩

theorem l2Rewrite_poison (o n : Nat) (d : Dev) : OnlyPoison d (l2Rewrite o n d) := by
  unfold l2Rewrite
  split
  · exact ⟨_, _, rfl⟩
  · exact forL_induct (P := OnlyPoison d) _ ⟨_, _, rfl⟩ fun j _ x hx => hx.trans (ueRewrite_poison _ _ _ _ x)

theorem warmTouched_regs (a n : Nat) (d : Dev) : OnlyRegs d (warmTouched a n d) ∧ Kept memRegs d (warmTouched a n d) := by
  unfold warmTouched
  simp only
  split
  · exact ⟨.put .., (Kept.refl _ d).put (g := F.BOOT_VERIFY_VALID) 0 (by decide)⟩
  · exact ⟨.refl d, .refl _ d⟩

/-- A permitted write within a line, of memory that is there. -/
theorem targetWrite_written {m a : Nat} {d : Dev} (bs : List Byte)
    (h : (inDram a = true ∧ dramServes d a = true) ∨ (inDram a = false ∧ inL2 a = true ∧ d.l2Ram = true)) :
    MemWritten a bs d (targetWrite m a bs d) := by
  unfold targetWrite
  rcases h with ⟨hdram, hserves⟩ | ⟨hdram, hl2, hram⟩
  · rw [if_pos hdram, if_pos hserves]
    obtain ⟨hwarm, kwarm⟩ := warmTouched_regs a bs.length (ueRewrite 14 (lineIndex a) (a % 64) bs.length
      { dramAccept m a true d with dram := dramStore a bs (dramAccept m a true d).dram })
    exact ((MemWritten.of_dram (dramAccept_touch m a true d) hdram).poison (ueRewrite_poison ..)).onlyRegs hwarm kwarm
  · rw [if_neg (by simp [hdram]), if_pos (by simp [hl2, hram])]
    exact (MemWritten.of_l2 d hdram).poison (l2Rewrite_poison ..)

/-- A write of one byte that the engine may reach. -/
theorem engineWrite_byte {m a : Nat} {d : Dev} (x : Byte) (h : Reachable d m kindWrite a 1)
    (hrate : (d.getB F.DRAMC_FCHG_BUSY && !d.getB F.DRAMC_STAT_SELFREF) = false) : MemWritten a [x] d (engineWrite m a [x] d) := by
  obtain ⟨hs, hreg, -, hb⟩ := h.backed one_pos
  have hrwm : reachesRwm a 1 = false := by unfold reachesRwm; rw [hreg]
  have hwrite : engineWrite1 m a [x] d = targetWrite m a [x] d := by
    unfold engineWrite1
    simp only [List.length_singleton, hrwm, hs, h.1, h.2.1, Bool.not_true, Bool.or_false, Bool.false_eq_true, if_false]
    rcases hb with ⟨-, -, -, hbusy⟩ | ⟨hdram, -, -⟩
    · simp [hbusy]
    · simp [hdram]
  have hengine : engineWrite m a [x] d = dramRun (targetWrite m a [x] d) := by
    unfold engineWrite
    rw [List.length_singleton, linePieces_one]
    simp only [List.foldl_cons, List.foldl_nil, List.take_succ_cons, List.take_zero]
    rw [hwrite]
  have t : MemWritten a [x] d (targetWrite m a [x] d) :=
    targetWrite_written [x] (hb.imp (fun h => ⟨h.1, h.2.2.1⟩) id)
  rw [hengine]
  refine t.touch (dramRun_touch _ ?_)
  rw [t.regs.getB_eq (g := F.DRAMC_FCHG_BUSY) (by decide), t.regs.getB_eq (g := F.DRAMC_STAT_SELFREF) (by decide), hrate]

/-- A store of one byte is read there, and changes no other. -/
theorem cellGet_dramStore_byte (a b : Nat) (x : Byte) (m : Cells Byte) :
    cellGet 0 (dramStore a [x] m) b = if b = a then x else cellGet 0 m b := by
  rcases Nat.lt_trichotomy b a with h | rfl | h
  · rw [dramStore_below _ _ _ _ h, if_neg (by omega)]
  · rw [if_pos rfl]
    exact dramStore_read [x] b m 0 (by simp)
  · rw [dramStore_above _ _ _ _ (by simpa using h), if_neg (by omega)]

/-- After a write of one byte of backed memory every byte reads as before, but the one written. -/
theorem byte_written {s t : State} {a : Nat} {x : Byte} (hrom : inRom a = false)
    (hb : (inDram a = true ∧ inL2 a = false) ∨ (inDram a = false ∧ inL2 a = true))
    (hd : t.dev.dram = if inDram a then dramStore a [x] s.dev.dram else s.dev.dram)
    (hl : t.dev.l2 = if inDram a then s.dev.l2 else dramStore (a - 0x20000000) [x] s.dev.l2) (b : Nat) :
    t.byte b = if b = a then x else s.byte b := by
  have hlow {y : Nat} (h : inL2 y = true) : 0x20000000 ≤ y := by
    unfold inL2 at h
    simp only [Bool.and_eq_true, decide_eq_true_eq] at h
    exact h.1
  unfold State.byte
  rw [hd, hl]
  by_cases hba : b = a
  · subst hba
    rcases hb with ⟨hdram, hl2⟩ | ⟨hdram, hl2⟩
    · simp only [hrom, hdram, hl2, if_true, Bool.false_eq_true, if_false, cellGet_dramStore_byte]
    · simp only [hrom, hdram, hl2, if_true, Bool.false_eq_true, if_false, cellGet_dramStore_byte]
  · rw [if_neg hba]
    split
    · rfl
    · rcases hb with ⟨hdram, hl2⟩ | ⟨hdram, hl2⟩
      · simp only [hdram, if_true, cellGet_dramStore_byte, if_neg hba]
      · simp only [hdram, Bool.false_eq_true, if_false]
        split
        · have h1 := hlow hl2
          have h2 := hlow ‹_›
          rw [cellGet_dramStore_byte, if_neg (by omega)]
        · rfl

/-! ### A command with such accesses -/

/-- `e` has what the end of a command reads of `d`, but for registers of `l`, and but for the banks of DRAM. -/
structure Ends (l : List Nat) (d e : Dev) : Prop where
  regs : Kept l d e
  sess : e.jtp.sess = d.jtp.sess
  regWrites : e.regWrites = d.regWrites
  sysReq : e.sysReq = d.sysReq
  burnReq : e.burnReq = d.burnReq

namespace Ends
variable {l l' : List Nat} {d e f : Dev}

theorem trans (h : Ends l d e) (g : Ends l e f) : Ends l d f :=
  ⟨h.regs.trans g.regs, g.sess.trans h.sess, g.regWrites.trans h.regWrites, g.sysReq.trans h.sysReq, g.burnReq.trans h.burnReq⟩
theorem mono (h : Ends l d e) (hl : l ⊆ l') : Ends l' d e := { h with regs := h.regs.mono hl }
theorem of_calm (h : Calm l d e) : Ends l d e := ⟨h.regs, h.sess, h.regWrites, h.sysReq, h.burnReq⟩
theorem of_touch (h : DramTouch d e) : Ends memRegs d e := ⟨h.regs, h.sess, h.regWrites, h.sysReq, h.burnReq⟩
theorem of_written {a : Nat} {bs : List Byte} (h : MemWritten a bs d e) : Ends memRegs d e := by
  obtain ⟨⟨_, _, _, _, _, _, _, _, _, rfl⟩, k⟩ := h
  exact ⟨k, rfl, rfl, rfl, rfl⟩
end Ends

/-- A command of a ready block whose effect `e` may leave requests of DRAM: they are served behind it as far as may be, and nothing
else follows. -/
theorem perform_ends {dt : Nat} {s : State} {f : Dev → Dev} {e : Dev} {l : List Nat} (h : Ready s) (he : f (s.dev.elapse dt) = e)
    (k : Ends l (s.dev.elapse dt) e) (hl : ∀ a ∈ endRegs, a ∉ l) (hm : memRegs ⊆ l) :
    ∃ g, DramTouch e g ∧ perform dt s (fun d => afterCommand (f d)) = .next (s.after g) ∧ RegsKept l s (s.after g) := by
  subst he
  have q := Quiet.of_ready h dt
  generalize hd : s.dev.elapse dt = d at k q
  have hf : ((f d).getB F.DRAMC_FCHG_BUSY && !(f d).getB F.DRAMC_STAT_SELFREF) = false := by
    rw [k.regs.getB_eq (g := F.DRAMC_FCHG_BUSY) (hl _ (by simp)), k.regs.getB_eq (g := F.DRAMC_STAT_SELFREF) (hl _ (by simp))]
    exact q.rate
  have t := dramRun_touch _ hf
  refine ⟨dramRun (f d), t, ?_, ?_⟩
  · rw [perform_run _ _ _ h.1, hd, afterCommand_dram, settle_plain _ _ (t.sysReq.trans (k.sysReq.trans q.sysReq))
      (t.burnReq.trans (k.burnReq.trans q.burnReq))]
    · rfl
    · rw [regSession_congr _ _ k.sess (k.regs.getB_eq (hl _ (by simp)))]
      exact q.requests
    · exact k.regWrites.trans q.regWrites
    · rw [quiet_congr d _ (k.regs.get_eq (hl _ (by simp))) (cleated_low (k.regs.reg_eq (hl _ (by simp))) (by omega))]
      exact q.cleat
    · exact hf
  · subst hd
    exact k.regs.trans (t.regs.mono hm)

end Sys2Proof.Machine
end

section
/-! SUPPORT. O10: the transmit ring (R81, R104). -/
namespace Sys2Proof.Machine

/-! ### TXR_TAIL -/

/-- The low `n` bits of a word written under mask `2 ^ n - 1` are those of the value written. -/
theorem mergeBits_low (old v n : Nat) : mergeBits old v (2 ^ n - 1) % 2 ^ n = v % 2 ^ n := by
  have hclear : clearBits old (2 ^ n - 1) % 2 ^ n = 0 := by
    unfold clearBits
    rw [Nat.and_two_pow_sub_one_eq_mod]
    exact Nat.sub_mod_eq_zero_of_mod_eq (Nat.mod_mod _ _).symm
  unfold mergeBits
  rw [Nat.or_mod_two_pow, hclear, Nat.zero_or, Nat.and_two_pow_sub_one_eq_mod, Nat.mod_mod]

/-- A write of TXR_TAIL is a plain one (R104). -/
theorem registerWrite_txrTail (v : Nat) (d : Dev) :
    registerWrite R.TXR_TAIL v d = d.setReg R.TXR_TAIL (BitVec.ofNat 32 (mergeBits (d.reg R.TXR_TAIL).toNat v (2 ^ 16 - 1))) := by
  have hclear (w : Nat) : clearBits w (v &&& 0) = w := by unfold clearBits; simp
  have hdesc : regDesc (R.TXR_TAIL / 0x1000) (R.TXR_TAIL % 0x1000) = some ⟨0x6c, 1, 0, 1, 0, 0xffff, 0, 0, 0, 0, 0, 0, 0, []⟩ := by decide
  have hshadow : pageShadow (R.TXR_TAIL / 0x1000) = false := by decide
  have hcross : crossRangeOk R.TXR_TAIL v d = true := by
    unfold crossRangeOk
    rw [if_neg (by decide), if_neg (by decide)]
    have : whichOf 8 R.VIEW_CFG R.TXR_TAIL = none := by decide
    rw [this]
    rfl
  have hpage : pageWrite R.TXR_TAIL v d = plainWrite R.TXR_TAIL v d := rfl
  have hplain : plainWrite R.TXR_TAIL v d
      = d.setReg R.TXR_TAIL (BitVec.ofNat 32 (mergeBits (d.reg R.TXR_TAIL).toNat v (2 ^ 16 - 1))) := by
    unfold plainWrite
    rw [hdesc]
    unfold plainStore
    simp only [if_true, Nat.or_zero, hclear]
    rfl
  unfold registerWrite
  rw [if_neg (by decide), if_neg (by decide)]
  simp only [hshadow, Bool.false_eq_true, if_false, hdesc, hcross]
  rw [if_neg (by decide), if_neg (by decide), if_neg (by simp [rangesOk]), hpage, hplain]

/-! ### A frame starts -/

theorem txInsert_none (d : Dev) (q pcp : Nat) (fr : List Byte) : txInsert d q 0 pcp fr = fr := by
  have hbit (i : Nat) : bit 0 i = false := Nat.zero_testBit i
  unfold txInsert
  simp only [hbit, Bool.false_and, Bool.false_eq_true, if_false]
  split <;> rfl

/-- Only a one-step message takes a timestamp as it leaves (R76). -/
theorem ptpStamp_plain {fr : List Byte} (h : isOneStep fr = false) (q : Nat) (t : Int) (l : List (Nat × Nat × Nat × Int)) :
    ptpStamp q t l fr = fr := by
  unfold isOneStep at h
  unfold ptpStamp
  split
  · rfl
  · rename_i o ip he
    simp only [he, Bool.or_eq_false_iff, beq_eq_false_iff_ne] at h
    split
    · exact absurd ‹_› h.1
    · exact absurd ‹_› h.2
    · rfl

/-- The frames of the descriptors `l` are in transmission. -/
def inFlight (l : List (Nat × Nat)) (d : Dev) : Dev := { d with path := { d.path with txFlight := l } }

/-- The block once port `q` has begun to send frame `fr` of descriptor `h`, the only one in transmission, which is for it alone. -/
def txBegun (q h : Nat) (fr : List Byte) (d : Dev) : Dev :=
  txNext h (inFlight [(h, 2 ^ q)] (d.emit (.eth q fr)))

/-- The one port that a descriptor is for has begun its frame: the device goes on to the next descriptor. -/
theorem txShare_whole {q h : Nat} {d : Dev} (hflight : d.path.txFlight = []) (hstarted : d.path.txStarted = 0) :
    txShare h q (2 ^ q) (inFlight (d.path.txFlight ++ [(h, 2 ^ q)]) d) = txNext h (inFlight [(h, 2 ^ q)] d) := by
  have hall : clearBits (2 ^ q) (setBit 0 q) = 0 := by
    unfold clearBits setBit
    simp
  rw [hflight, List.nil_append]
  unfold txShare
  simp only [inFlight, hstarted, hall, if_true]

section
variable {q : Fin 2} {d : Dev} {t fr : List Byte} {a : Nat}

/-- A free transmitter starts the frame that an untimed descriptor without insertions names, for its port alone. -/
theorem txStart_begins (hup : ethUp d q = true) (hen : d.get (F.PG_CTL_EN (0x0A + q)) = 1)
    (hdue : d.get F.TXR_HEAD_HEAD ≠ d.get F.TXR_TAIL_TAIL) (hflight : d.path.txFlight = []) (hstarted : d.path.txStarted = 0)
    (ha : a = d.get2 F.TXR_BASE_LO_BASE F.TXR_BASE_HI_BASE + 32 * d.get F.TXR_HEAD_HEAD)
    (hreach : Reachable d mEthRings kindRead a 32) (hrate : (d.getB F.DRAMC_FCHG_BUSY && !d.getB F.DRAMC_STAT_SELFREF) = false)
    (hdesc : (engineRead mEthRings a 32 d).1 = some t)
    (hport : byteAt t 10 = q) (hplain : byteAt t 11 = 0) (huntimed : launchTimed (leAt t 16 8) = false)
    (hmin : 60 ≤ leAt t 8 2) (hmax : leAt t 8 2 + 4 ≤ d.get (F.ETH_CFG_MAX_FRAME q))
    (hbuf : Reachable d mEthRings kindRead (leAt t 0 5) (leAt t 8 2))
    (hframe : (engineRead mEthRings (leAt t 0 5) (leAt t 8 2) (engineRead mEthRings a 32 d).2).1 = some fr)
    (hone : isOneStep fr = false) :
    ∃ e, DramTouch d e ∧ txStart q d = txBegun q (d.get F.TXR_HEAD_HEAD) fr e := by
  have t1 : DramTouch d (engineRead mEthRings a 32 d).2 := engineRead_touch (by decide) hreach hrate
  have t2 := engineRead_touch (by decide) (t1.reachable (by decide) hbuf) (t1.rate hrate)
  refine ⟨_, t1.trans t2, ?_⟩
  have hzero (i : Nat) : bit 0 i = false := Nat.zero_testBit i
  have hen' : d.enabled (portPage q) = true := Dev.getB_of_get_one hen
  have hpath : (engineRead mEthRings (leAt t 0 5) (leAt t 8 2) (engineRead mEthRings a 32 d).2).2.path = d.path := t2.path.trans t1.path
  subst ha
  unfold txStart
  refine (if_neg (by simp [hup, hen', hreach.1, hdue, hflight])).trans ?_
  simp only [hdesc, hport, huntimed, Bool.false_and, Bool.false_eq_true, if_false, hframe, hplain, txInsert_none, hzero]
  rw [if_neg (by fin_cases q <;> simpa using hmin), if_neg (by fin_cases q <;> simp [hstarted, hzero] <;> decide), if_neg (not_lt.2 hmax),
    ptpStamp_plain hone]
  generalize (engineRead mEthRings (leAt t 0 5) (leAt t 8 2) _).2 = e at hpath ⊢
  refine (congrArg (fun m => txShare _ q m _) (show _ = 2 ^ q.val by fin_cases q <;> rfl)).trans ?_
  exact txShare_whole (d := e.emit (.eth q fr)) (by rw [Dev.emit_path, hpath, hflight]) (by rw [Dev.emit_path, hpath, hstarted])
end

section
variable {q h : Nat} {fr : List Byte} {d : Dev}

/-- What beginning a frame leaves. -/
theorem txBegun_calm : Calm [R.TXR_HEAD] d (txBegun q h fr d) :=
  have hflight : Calm [R.TXR_HEAD] d (inFlight [(h, 2 ^ q)] (d.emit (.eth q fr))) := ⟨.of_regs rfl, rfl, rfl, rfl, rfl, rfl, rfl, rfl⟩
  (hflight.put (g := F.TXR_HEAD_HEAD) _ (by simp)).trans ⟨.of_regs rfl, rfl, rfl, rfl, rfl, rfl, rfl, rfl⟩

theorem txBegun_out : (txBegun q h fr d).out = .eth q fr :: d.out := rfl
theorem txBegun_txFlight : (txBegun q h fr d).path.txFlight = [(h, 2 ^ q)] := rfl
theorem txBegun_txWait : (txBegun q h fr d).path.txWait = d.path.txWait := rfl

theorem txBegun_head (hs : d.get F.TXR_SIZE_SIZE ≠ 0) :
    (txBegun q h fr d).get F.TXR_HEAD_HEAD = (h + 1) % d.get F.TXR_SIZE_SIZE := by
  have hlt : d.get F.TXR_SIZE_SIZE < 2 ^ 16 := Dev.get_lt d F.TXR_SIZE_SIZE
  have hmax : max 1 (d.get F.TXR_SIZE_SIZE) = d.get F.TXR_SIZE_SIZE := by omega
  have hput : (txBegun q h fr d).get F.TXR_HEAD_HEAD = (h + 1) % max 1 (d.get F.TXR_SIZE_SIZE) % 2 ^ 16 :=
    Dev.get_put_same (inFlight [(h, 2 ^ q)] (d.emit (.eth q fr))) F.TXR_HEAD_HEAD _ (by decide)
  rw [hput, hmax]
  exact Nat.mod_eq_of_lt ((Nat.mod_lt _ (by omega)).trans hlt)
end

/-! ### A frame has gone -/

/-- What the device writes into a descriptor that it could read. -/
theorem txMarkDone_read {h a : Nat} {bs : List Byte} {d : Dev} (ha : a = d.get2 F.TXR_BASE_LO_BASE F.TXR_BASE_HI_BASE + 32 * h + 11)
    (hread : (engineRead mEthRings a 1 d).1 = some bs) :
    txMarkDone h d = engineWrite mEthRings a (leBytes 1 (setBit (leNat bs) 4)) (engineRead mEthRings a 1 d).2 := by
  -- `unfold` would have the kernel compare the application with its body, and evaluate the read: the function itself is opened.
  suffices hdef : ∀ f, f = txMarkDone → f h d = engineWrite mEthRings a (leBytes 1 (setBit (leNat bs) 4)) (engineRead mEthRings a 1 d).2 from
    hdef _ rfl
  intro f hf
  delta txMarkDone at hf
  subst ha
  simp only [hf, hread]

/-- DONE (bit 4 of FLAGS) is set in the byte of the descriptor that `Reachable` says the device may read and write. -/
theorem txWriteDone_written {h a : Nat} {b : Byte} {d : Dev} (ha : a = d.get2 F.TXR_BASE_LO_BASE F.TXR_BASE_HI_BASE + 32 * h + 11)
    (hr : Reachable d mEthRings kindRead a 1) (hw : Reachable d mEthRings kindWrite a 1) (hb : byteFound d a = some [b])
    (hrate : (d.getB F.DRAMC_FCHG_BUSY && !d.getB F.DRAMC_STAT_SELFREF) = false) :
    MemWritten a [b ||| 0x10#8] d (txWriteDone h d) := by
  have t := engineRead_touch (by decide) hr hrate
  have hread : (engineRead mEthRings a 1 d).1 = some [b] := (engineRead_byte hr).trans hb
  have hset : leBytes 1 (setBit (leNat [b]) 4) = [b ||| 0x10#8] := by
    simp only [leBytes, setBit, leNat, Nat.mul_zero, Nat.add_zero, List.cons.injEq, and_true]
    apply BitVec.eq_of_toNat_eq
    rw [BitVec.toNat_ofNat, BitVec.toNat_or]
    exact Nat.mod_eq_of_lt (Nat.or_lt_two_pow b.isLt (by decide))
  have hdone : txWriteDone h d = engineWrite mEthRings a [b ||| 0x10#8] (engineRead mEthRings a 1 d).2 := by
    unfold txWriteDone afterWrite
    rw [if_neg (by simp [hr.1]), if_neg (by simp [hr.2.1])]
    rw [txMarkDone_read ha hread, hset]
  rw [hdone]
  exact t.written (engineWrite_byte _ (t.reachable (by decide) hw) (t.rate hrate))

/-- The only frame in transmission has gone, and the device has moved on: its descriptor receives DONE. -/
theorem ethTxDone_only {q : Fin 2} {h : Nat} {d : Dev} (hflight : d.path.txFlight = [(h, 2 ^ q.val)]) (hhead : d.get F.TXR_HEAD_HEAD ≠ h) :
    ethTxDone q d = sendHeld (txWriteDone h (inFlight [] d)) := by
  have hfind : [(h, 2 ^ q.val)].find? (fun e => bit e.2 q) = some (h, 2 ^ q.val) := List.find?_cons_of_pos Nat.testBit_two_pow_self
  have hleft : [(h, 2 ^ q.val)].filter (fun x => x != (h, 2 ^ q.val)) = [] := by simp
  unfold ethTxDone
  rw [hflight]
  simp only [hfind, hleft]
  exact congrArg sendHeld (if_neg (by
    rw [List.any_nil, Bool.false_or, Bool.and_eq_true]
    exact fun hh => hhead (eq_of_beq hh.1)))

/-- Settles O10: TXR_TAIL is written plainly, a free transmitter begins the frame (`txStart_begins`), and the descriptor of one that has
gone receives DONE (`txWriteDone_written`). -/
theorem transmitRing : Obligations.TransmitRing := by
  unfold Obligations.TransmitRing
  intro dt q w s hready
  have hrate := (Quiet.of_ready hready dt).rate
  refine ⟨?tail, ?begins, ?done⟩
  case tail =>
    obtain ⟨hnext, hregs, hmem⟩ := perform_effect (dt := dt) hready (registerWrite_txrTail w.toNat (s.dev.elapse dt))
      ((Calm.refl [R.TXR_TAIL] _).setReg _ (by simp)) (by decide)
    refine ⟨_, hnext, ?_, hregs, hmem⟩
    rw [State.after_get, Dev.get, Dev.reg_setReg_same, BitVec.toNat_ofNat]
    unfold bits
    rw [Nat.pow_zero, Nat.div_one, Nat.mod_mod_of_dvd _ (by decide)]
    exact mergeBits_low _ _ 16
  case begins =>
    intro a d fr hup hen hdue hflight hstarted hwait hsize ha hreach hdesc hport hplain huntimed hmin hmax hbuf hframe hone
    obtain ⟨e, he, hbegun⟩ := txStart_begins (d := s.dev.elapse dt) hup hen hdue hflight hstarted ha hreach hrate hdesc hport hplain
      huntimed hmin hmax hbuf hframe hone
    have heffect : ethTxFrame q (s.dev.elapse dt) = txBegun q (s.dev.get F.TXR_HEAD_HEAD) fr e := by
      unfold ethTxFrame
      rw [hbegun]
      exact sendHeld_none (by rw [txBegun_txWait, he.path]; exact hwait)
    obtain ⟨g, hg, hnext, hregs⟩ := perform_ends (l := R.TXR_HEAD :: memRegs) hready heffect
      (((Ends.of_touch he).mono (List.subset_cons_self ..)).trans ((Ends.of_calm txBegun_calm).mono (by simp))) (by decide)
      (List.subset_cons_self ..)
    refine ⟨_, hnext, ?_, ?_, ?_, hregs, memKept_of_same ?_ ?_⟩
    · change g.out ++ s.wire = _
      rw [hg.out, txBegun_out, he.out]
      exact congrArg (fun l => _ :: (l ++ s.wire)) hready.2.1.2.2
    · have hsize' : e.get F.TXR_SIZE_SIZE = s.dev.get F.TXR_SIZE_SIZE := he.regs.get_eq (g := F.TXR_SIZE_SIZE) (by decide)
      rw [State.after_get, hg.regs.get_eq (g := F.TXR_HEAD_HEAD) (by decide), txBegun_head (by rwa [hsize']), hsize']
    · change g.path.txFlight = _
      rw [hg.path, txBegun_txFlight]
    · exact hg.dram.trans (txBegun_calm.dram.trans he.dram)
    · exact hg.l2.trans (txBegun_calm.l2.trans he.l2)
  case done =>
    intro h a b hflight hhead ha hread hwrite hbyte
    have hfound : byteFound (s.dev.elapse dt) a = some [b] := (engineRead_byte (d := s.dev.elapse dt) hread).symm.trans hbyte
    obtain ⟨-, -, hrom, hbacked⟩ := Reachable.backed (d := s.dev.elapse dt) hwrite one_pos
    have t := txWriteDone_written (d := inFlight [] (s.dev.elapse dt)) ha hread hwrite hfound hrate
    have hsends := sendHeld_sends (txWriteDone h (inFlight [] (s.dev.elapse dt)))
    have hends : Ends memRegs (s.dev.elapse dt) (inFlight [] (s.dev.elapse dt)) := ⟨.of_regs rfl, rfl, rfl, rfl, rfl⟩
    obtain ⟨g, hg, hnext, hregs⟩ := perform_ends (l := memRegs) hready (ethTxDone_only (d := s.dev.elapse dt) hflight hhead)
      ((hends.trans (.of_written t)).trans ((Ends.of_calm hsends.calm).mono (List.nil_subset _))) (by decide) (List.Subset.refl _)
    have hbytes := byte_written (s := s) (t := s.after g) (x := b ||| 0x10#8) hrom
      (hbacked.imp (fun h => ⟨h.1, h.2.1⟩) (fun h => ⟨h.1, h.2.1⟩))
      ((hg.dram.trans hsends.dram).trans t.dram_eq) ((hg.l2.trans hsends.l2).trans t.l2_eq)
    refine ⟨_, hnext, ?_, ?_, hregs, fun x hx => ?_⟩
    · rw [hbytes, if_pos rfl]
    · change g.path.txFlight = []
      rw [hg.path, hsends.txFlight, t.path]
      rfl
    · rw [hbytes, if_neg (by omega)]

end Sys2Proof.Machine
end

section
/-! SUPPORT. Bytes in the wire's order: what is read of a number's bytes, of joined lists, and after a field is put in (R4). -/
namespace Sys2Proof.Machine

@[simp] theorem leBytes_length (n x : Nat) : (leBytes n x).length = n := by
  induction n generalizing x with
  | zero => rfl
  | succ n ih => rw [leBytes, List.length_cons, ih]

@[simp] theorem beBytes_length (n x : Nat) : (beBytes n x).length = n := by rw [beBytes, List.length_reverse, leBytes_length]

theorem beNat_append (xs ys : List Byte) : beNat (xs ++ ys) = beNat xs * 256 ^ ys.length + beNat ys := by
  have hfold (l : List Byte) (a : Nat) : l.foldl (fun a b => a * 256 + b.toNat) a = a * 256 ^ l.length + beNat l := by
    unfold beNat
    induction l generalizing a with
    | nil => simp
    | cons b l ih =>
      rw [List.foldl_cons, List.foldl_cons, ih, ih (0 * 256 + b.toNat), List.length_cons, pow_succ]
      ring
  unfold beNat
  rw [List.foldl_append, hfold]
  rfl

theorem beNat_beBytes (n x : Nat) : beNat (beBytes n x) = x % 256 ^ n := by
  induction n generalizing x with
  | zero => rw [pow_zero, Nat.mod_one]; rfl
  | succ n ih =>
    have hsplit : beBytes (n + 1) x = beBytes n (x / 256) ++ [BitVec.ofNat 8 x] := by rw [beBytes, leBytes, List.reverse_cons]; rfl
    rw [hsplit, beNat_append, ih, pow_succ', Nat.mod_mul]
    simp only [beNat, List.length_singleton, pow_one, List.foldl_cons, List.foldl_nil, BitVec.toNat_ofNat, Nat.zero_mul, Nat.zero_add]
    rw [show (2 : Nat) ^ 8 = 256 from rfl]
    ring

theorem beNat_lt (bs : List Byte) : beNat bs < 256 ^ bs.length := by
  induction bs using List.reverseRecOn with
  | nil => simp [beNat]
  | append_singleton bs b ih =>
    have hb := b.isLt
    rw [beNat_append, List.length_append, pow_add]
    simp only [beNat, List.length_singleton, pow_one, List.foldl_cons, List.foldl_nil, Nat.zero_mul, Nat.zero_add] at ih ⊢
    omega

/-! ### Reading -/

theorem byteAt_eq_beAt (bs : List Byte) (o : Nat) : byteAt bs o = beAt bs o 1 := by
  unfold byteAt beAt
  cases bs.drop o with
  | nil => rfl
  | cons b l => simp [beNat]

theorem beAt_lt (bs : List Byte) (o n : Nat) : beAt bs o n < 256 ^ n := by
  have hlen : ((bs.drop o).take n).length ≤ n := List.length_take_le ..
  have hlt := beNat_lt ((bs.drop o).take n)
  unfold beAt
  simp only
  generalize (bs.drop o).take n = c at hlen hlt
  calc beNat c * 256 ^ (n - c.length) < 256 ^ c.length * 256 ^ (n - c.length) := Nat.mul_lt_mul_of_pos_right hlt (by positivity)
    _ = 256 ^ n := by rw [← pow_add, Nat.add_sub_cancel' hlen]

theorem beAt_drop (bs : List Byte) (a o n : Nat) : beAt (bs.drop a) o n = beAt bs (a + o) n := by
  unfold beAt
  rw [List.drop_drop]

theorem beAt_take {bs : List Byte} {k o n : Nat} (h : o + n ≤ k) : beAt (bs.take k) o n = beAt bs o n := by
  unfold beAt
  rw [List.drop_take, List.take_take, min_eq_left (by omega)]

theorem beAt_append_left {xs ys : List Byte} {o n : Nat} (h : o + n ≤ xs.length) : beAt (xs ++ ys) o n = beAt xs o n := by
  unfold beAt
  rw [List.drop_append_of_le_length (by omega), List.take_append_of_le_length (by rw [List.length_drop]; omega)]

theorem beAt_append_right {xs ys : List Byte} {o n : Nat} (h : xs.length ≤ o) : beAt (xs ++ ys) o n = beAt ys (o - xs.length) n := by
  unfold beAt
  rw [List.drop_append, List.drop_eq_nil_of_le h, List.nil_append]

/-- Past a number's bytes. -/
theorem beAt_skip {k v o n : Nat} {ys : List Byte} (h : k ≤ o) : beAt (beBytes k v ++ ys) o n = beAt ys (o - k) n := by
  rw [beAt_append_right (by rwa [beBytes_length]), beBytes_length]

theorem beAt_beBytes (n v : Nat) : beAt (beBytes n v) 0 n = v % 256 ^ n := by
  unfold beAt
  simp only [List.drop_zero]
  rw [List.take_of_length_le (by rw [beBytes_length]), beBytes_length, Nat.sub_self, pow_zero, Nat.mul_one, beNat_beBytes]

/-- A number's bytes read as the number. -/
theorem beAt_here (n v : Nat) (ys : List Byte) : beAt (beBytes n v ++ ys) 0 n = v % 256 ^ n := by
  rw [beAt_append_left (by rw [beBytes_length, Nat.zero_add]), beAt_beBytes]

/-! ### A field put in -/

section
variable {bs : List Byte} {o n v p k : Nat}

theorem putBe_length (h : o + n ≤ bs.length) : (putBe bs o n v).length = bs.length := by
  unfold putBe
  rw [List.length_append, List.length_append, beBytes_length, List.length_take, List.length_drop]
  omega

theorem beAt_putBe_same (h : o + n ≤ bs.length) : beAt (putBe bs o n v) o n = v % 256 ^ n := by
  have hl : (bs.take o).length = o := by rw [List.length_take]; omega
  unfold putBe
  rw [List.append_assoc, beAt_append_right hl.le, hl, Nat.sub_self, beAt_here]

theorem beAt_putBe_before (h : o + n ≤ bs.length) (hp : p + k ≤ o) : beAt (putBe bs o n v) p k = beAt bs p k := by
  have hl : (bs.take o).length = o := by rw [List.length_take]; omega
  unfold putBe
  rw [List.append_assoc, beAt_append_left (by omega), beAt_take hp]

theorem beAt_putBe_after (h : o + n ≤ bs.length) (hp : o + n ≤ p) : beAt (putBe bs o n v) p k = beAt bs p k := by
  have hl : (bs.take o ++ beBytes n v).length = o + n := by rw [List.length_append, List.length_take, beBytes_length]; omega
  unfold putBe
  rw [beAt_append_right (hl.trans_le hp), hl, beAt_drop, Nat.add_sub_cancel' hp]

/-- A field put into the middle one of three lists. -/
theorem putBe_middle {a b : List Byte} (h : p + n ≤ bs.length) :
    putBe (a ++ (bs ++ b)) (a.length + p) n v = a ++ (putBe bs p n v ++ b) := by
  unfold putBe
  have hdrop : (a ++ (bs ++ b)).drop (a.length + p + n) = bs.drop (p + n) ++ b := by
    rw [Nat.add_assoc, List.drop_append, List.drop_eq_nil_of_le (Nat.le_add_right _ _), Nat.add_sub_cancel_left, List.nil_append,
      List.drop_append_of_le_length h]
  have htake : (a ++ (bs ++ b)).take (a.length + p) = a ++ bs.take p := by
    rw [List.take_length_add_append, List.take_append_of_le_length (by omega)]
  rw [htake, hdrop]
  simp only [List.append_assoc]
end

end Sys2Proof.Machine
end

section
/-! SUPPORT. Frames that carry a PTP event message (R68, R69, R76): where the message stands, and what a timestamp inserted as the
frame leaves changes of it. -/
namespace Sys2Proof.Machine

/-- `a` begins a frame with a header of `l` bytes, with a C-tag or without, and EtherType `et` (R89). -/
def EthHead (a : List Byte) (l et : Nat) : Prop :=
  (l = 14 ∧ beAt a 12 2 = et) ∨ (l = 18 ∧ beAt a 12 2 = 0x8100 ∧ beAt a 16 2 = et)

/-- `a` is what stands before an event message of `k` bytes by transport `tr` (R68): on IPv6 the message has a two-byte trailer. -/
inductive PtpHead (a : List Byte) (k : Nat) : Nat → Prop
  | udp4 {l : Nat} (eth : EthHead a l 0x0800) (len : a.length = l + 28) (version : beAt a l 1 = 0x45) (total : beAt a (l + 2) 2 = 28 + k)
      (proto : beAt a (l + 9) 1 = 17) (port : beAt a (l + 22) 2 = 319) : PtpHead a k 0
  | udp6 {l : Nat} (eth : EthHead a l 0x86DD) (len : a.length = l + 48) (payload : beAt a (l + 4) 2 = k + 10)
      (proto : beAt a (l + 6) 1 = 17) (port : beAt a (l + 42) 2 = 319) (udp : beAt a (l + 44) 2 = k + 10) : PtpHead a k 1
  | eth (eth : EthHead a a.length 0x88F7) : PtpHead a k 2

/-- Frame `fr` carries the event message `m` at byte `o` by transport `tr`. -/
def PtpIn (fr : List Byte) (o tr : Nat) (m : List Byte) : Prop :=
  ∃ a b, fr = a ++ (m ++ b) ∧ a.length = o ∧ PtpHead a m.length tr ∧ (tr = 1 → 2 ≤ b.length)

/-- `ip` is the datagram that carries a message of `k` bytes by transport `tr`, as far as a timestamp inserted goes by it. -/
inductive IpOf (k : Nat) : Option IpView → Nat → Prop
  | udp4 {i : IpView} (h : i.v6 = false) : IpOf k (some i) 0
  | udp6 {i : IpView} (h : i.v6 = true) (len : beAt i.l4 4 2 = k + 10) : IpOf k (some i) 1
  | eth : IpOf k none 2

theorem EthHead.append {a : List Byte} {l et : Nat} (h : EthHead a l et) (hl : l ≤ a.length) (b : List Byte) : EthHead (a ++ b) l et := by
  rcases h with ⟨rfl, h⟩ | ⟨rfl, h, h'⟩
  · exact .inl ⟨rfl, (beAt_append_left (by omega)).trans h⟩
  · exact .inr ⟨rfl, (beAt_append_left (by omega)).trans h, (beAt_append_left (by omega)).trans h'⟩

theorem EthHead.putBe {a : List Byte} {l et o n v : Nat} (h : EthHead a l et) (hl : l ≤ o) (ho : o + n ≤ a.length) :
    EthHead (putBe a o n v) l et := by
  rcases h with ⟨rfl, h⟩ | ⟨rfl, h, h'⟩
  · exact .inl ⟨rfl, (beAt_putBe_before ho (by omega)).trans h⟩
  · exact .inr ⟨rfl, (beAt_putBe_before ho (by omega)).trans h, (beAt_putBe_before ho (by omega)).trans h'⟩

/-- The header taken off. -/
theorem EthHead.view {fr : List Byte} {l et : Nat} (h : EthHead fr l et) (h1 : et ≠ 0x88A8) (h2 : et ≠ 0x8100) :
    (ethView fr).etype = et ∧ (ethView fr).body = fr.drop l := by
  unfold ethView
  rcases h with ⟨rfl, h⟩ | ⟨rfl, h, h'⟩
  · simp only [h, if_neg h1, if_neg h2]
    exact ⟨trivial, trivial⟩
  · simp only [h, h']
    exact ⟨rfl, rfl⟩

section
variable {fr m : List Byte} {o tr : Nat}

theorem PtpIn.read (h : PtpIn fr o tr m) {j n : Nat} (hj : j + n ≤ m.length) : beAt fr (o + j) n = beAt m j n := by
  obtain ⟨a, b, rfl, rfl, -, -⟩ := h
  rw [beAt_append_right (Nat.le_add_right _ _), Nat.add_sub_cancel_left, beAt_append_left hj]

/-- The message is found where it stands. -/
theorem PtpIn.event (h : PtpIn fr o tr m) : ∃ ip, ptpEvent fr = some (o, ip) ∧ IpOf m.length ip tr := by
  obtain ⟨a, b, rfl, rfl, hhead, -⟩ := h
  have hread {j n : Nat} (hj : j + n ≤ a.length) : beAt (a ++ (m ++ b)) j n = beAt a j n := beAt_append_left hj
  have hlen {l : Nat} (hl : l ≤ a.length) : (a ++ (m ++ b)).length - ((a ++ (m ++ b)).drop l).length = l := by
    rw [List.length_drop, List.length_append]
    omega
  cases hhead with
  | udp4 eth len version total proto port =>
    rename_i l
    obtain ⟨het, hbody⟩ := (eth.append (by omega) (m ++ b)).view (by decide) (by decide)
    unfold ptpEvent ipView
    simp only [het, hbody, if_true, byteAt_eq_beAt, beAt_drop, Nat.add_zero]
    rw [hread (j := l) (by omega), hread (j := l + 9) (by omega), hread (j := l + 2) (by omega), version, proto, total]
    have hport : beAt (((a ++ (m ++ b)).drop l).take (28 + m.length)) (20 + 2) 2 = 319 := by
      rw [beAt_take (by omega), beAt_drop, hread (by omega), ← port]
    simp only [Nat.reduceMod, Nat.reduceMul, hport, and_self, if_true, Bool.false_eq_true, if_false, hlen (show l ≤ a.length by omega)]
    exact ⟨_, by rw [len], .udp4 rfl⟩
  | udp6 eth len payload proto port udp =>
    rename_i l
    obtain ⟨het, hbody⟩ := (eth.append (by omega) (m ++ b)).view (by decide) (by decide)
    have hwalk (bs : List Byte) : extWalk 16 17 0 false bs = (17, 0, false, bs) := rfl
    unfold ptpEvent ipView
    simp only [het, hbody, byteAt_eq_beAt, beAt_drop]
    rw [if_neg (by decide), hread (j := l + 6) (by omega), proto, hread (j := l + 4) (by omega), payload, hwalk]
    have hudp {j : Nat} (hj : j + 2 ≤ 8) : beAt ((((a ++ (m ++ b)).drop l).drop 40).take (m.length + 10)) j 2 = beAt a (l + 40 + j) 2 := by
      rw [beAt_take (by omega), beAt_drop, beAt_drop, ← Nat.add_assoc, hread (by omega)]
    simp only [hudp (show 2 + 2 ≤ 8 by decide), port, and_self, if_true, hlen (show l ≤ a.length by omega)]
    exact ⟨_, by rw [len], .udp6 rfl ((hudp (j := 4) (by decide)).trans udp)⟩
  | eth eth =>
    obtain ⟨het, hbody⟩ := (eth.append (le_refl _) (m ++ b)).view (by decide) (by decide)
    unfold ptpEvent ipView
    simp only [het, hbody, hlen (le_refl _), if_true]
    exact ⟨none, rfl, .eth⟩

/-- A field put into the message. -/
theorem PtpIn.putBe (h : PtpIn fr o tr m) {p n : Nat} (hp : p + n ≤ m.length) (v : Nat) :
    PtpIn (putBe fr (o + p) n v) o tr (Machine.putBe m p n v) := by
  obtain ⟨a, b, rfl, rfl, hhead, htrailer⟩ := h
  exact ⟨a, b, putBe_middle hp, rfl, by rwa [putBe_length hp], htrailer⟩

/-- The UDP checksum made good again leaves the message as it is (R76). -/
theorem PtpIn.resum (h : PtpIn fr o tr m) {ip : Option IpView} (hip : IpOf m.length ip tr) : PtpIn (ptpResum o ip fr) o tr m := by
  obtain ⟨a, b, rfl, rfl, hhead, htrailer⟩ := h
  cases hip with
  | udp4 hv =>
    cases hhead with
    | udp4 eth len version total proto port =>
      rename_i i l
      have hfit : a.length - 2 + 2 ≤ a.length := by omega
      have hput : Machine.putBe (a ++ (m ++ b)) (a.length - 2) 2 0 = Machine.putBe a (a.length - 2) 2 0 ++ (m ++ b) := by
        have := putBe_middle (a := []) (bs := a) (b := m ++ b) (v := 0) hfit
        simpa using this
      unfold ptpResum
      simp only [hv, Bool.not_false, if_true, hput]
      refine ⟨_, b, rfl, putBe_length hfit, ?_, htrailer⟩
      exact .udp4 (l := l) (eth.putBe (by omega) hfit) ((putBe_length hfit).trans len) ((beAt_putBe_before hfit (by omega)).trans version)
        ((beAt_putBe_before hfit (by omega)).trans total) ((beAt_putBe_before hfit (by omega)).trans proto)
        ((beAt_putBe_before hfit (by omega)).trans port)
  | udp6 hv hlen =>
    have hb := htrailer rfl
    have h8 : 8 ≤ a.length := by cases hhead; omega
    have hput (c : List Byte) (hc : 2 ≤ c.length) (v : Nat) :
        Machine.putBe (a ++ (m ++ c)) (a.length + m.length) 2 v = a ++ (m ++ Machine.putBe c 0 2 v) := by
      have := putBe_middle (a := a ++ m) (bs := c) (b := []) (p := 0) (n := 2) (v := v) (by omega)
      simpa [List.append_assoc] using this
    have hat : a.length - 8 + (m.length + 10) - 2 = a.length + m.length := by omega
    have hlen' (v : Nat) (c : List Byte) (hc : 2 ≤ c.length) : (Machine.putBe c 0 2 v).length = c.length := putBe_length (by omega)
    unfold ptpResum
    simp only [hv, Bool.not_true, Bool.false_eq_true, if_false, hlen, hat]
    rw [hput b hb, hput _ (by rwa [hlen' _ b hb])]
    exact ⟨a, _, rfl, rfl, hhead, fun _ => by rwa [hlen' _ _ (by rwa [hlen' _ b hb]), hlen' _ b hb]⟩
  | eth => exact ⟨a, b, rfl, rfl, hhead, htrailer⟩

/-- What is seen of the message from outside. -/
theorem PtpIn.frame (h : PtpIn fr o tr m) (hlen : 34 ≤ m.length) : PtpFrame fr o tr (beAt m 0 1 % 16) (beAt m 4 1) (beAt m 30 2) := by
  obtain ⟨ip, hevent, hip⟩ := h.event
  refine ⟨⟨ip, hevent, ?_⟩, ?_, ?_, h.read (by omega)⟩
  · cases hip with
    | udp4 hv => simp [hv]
    | udp6 hv => simp [hv]
    | eth => rfl
  · rw [byteAt_eq_beAt, ← h.read (j := 0) (by omega), Nat.add_zero]
  · rw [byteAt_eq_beAt, h.read (by omega)]

/-! ### Timestamps as the frame leaves -/

/-- correctionField of message `m` with `c` added. -/
def corrected (c : Int) (m : List Byte) : List Byte := Machine.putBe m 8 8 (ofSigned 64 (toSigned 64 (beAt m 8 8) + c))

/-- A Sync with its originTimestamp for the instant `t`, 2^-16 ns, whose fraction is added to correctionField (R76). -/
def syncStamped (t : Int) (m : List Byte) : List Byte :=
  Machine.putBe (Machine.putBe (corrected (t.toNat % 65536 : Nat) m) 34 6 (t.toNat / 65536 / 1000000000)) 40 4 (t.toNat / 65536 % 1000000000)

theorem corrected_length {c : Int} (hm : 44 ≤ m.length) : (corrected c m).length = m.length := putBe_length (by omega)

theorem syncStamped_length {t : Int} (hm : 44 ≤ m.length) : (syncStamped t m).length = m.length := by
  have hc := corrected_length (c := (t.toNat % 65536 : Nat)) hm
  have hs := putBe_length (bs := corrected (t.toNat % 65536 : Nat) m) (o := 34) (n := 6) (v := t.toNat / 65536 / 1000000000) (by omega)
  exact (putBe_length (by omega)).trans (hs.trans hc)

theorem PtpIn.corrected (h : PtpIn fr o tr m) (hm : 44 ≤ m.length) (c : Int) : PtpIn (ptpCorrect o c fr) o tr (Machine.corrected c m) := by
  unfold ptpCorrect Machine.corrected
  rw [h.read (by omega)]
  exact h.putBe (by omega) _

/-- A Sync takes its departure (R76). -/
theorem PtpIn.stampSync (h : PtpIn fr o tr m) (hm : 44 ≤ m.length) (htyp : beAt m 0 1 % 16 = 0) (q : Nat) (t : Int)
    (l : List (Nat × Nat × Nat × Int)) : PtpIn (ptpStamp q t l fr) o tr (syncStamped t m) := by
  obtain ⟨ip, hevent, hip⟩ := h.event
  have htyp' : byteAt fr o % 16 = 0 := by rw [byteAt_eq_beAt, ← Nat.add_zero o, h.read (by omega), htyp]
  have hcorr := corrected_length (c := (t.toNat % 65536 : Nat)) hm
  have hsec := (h.corrected hm (t.toNat % 65536 : Nat)).putBe (p := 34) (n := 6) (by omega) (t.toNat / 65536 / 1000000000)
  have hsecLen : (Machine.putBe (Machine.corrected (t.toNat % 65536 : Nat) m) 34 6 (t.toNat / 65536 / 1000000000)).length = m.length :=
    (putBe_length (by omega)).trans hcorr
  have hns := hsec.putBe (p := 40) (n := 4) (by omega) (t.toNat / 65536 % 1000000000)
  unfold ptpStamp
  simp only [hevent, htyp']
  exact hns.resum (by rwa [putBe_length (by omega), hsecLen])

/-- A Pdelay_Resp takes the time since its request, when that is the latest one received (R76). -/
theorem PtpIn.stampResp (h : PtpIn fr o tr m) (hm : 54 ≤ m.length) (htyp : beAt m 0 1 % 16 = 3) (q : Nat) (t rx : Int)
    (l : List (Nat × Nat × Nat × Int)) :
    PtpIn (ptpStamp q t ((q, beAt m 44 10, beAt m 30 2, rx) :: l) fr) o tr (Machine.corrected (t - rx) m) := by
  obtain ⟨ip, hevent, hip⟩ := h.event
  have htyp' : byteAt fr o % 16 = 3 := by rw [byteAt_eq_beAt, ← Nat.add_zero o, h.read (by omega), htyp]
  have hreq : ((q, beAt m 44 10, beAt m 30 2, rx) :: l).find?
      (fun r => r.1 == q && r.2.1 == beAt fr (o + 44) 10 && r.2.2.1 == beAt fr (o + 30) 2) = some (q, beAt m 44 10, beAt m 30 2, rx) :=
    List.find?_cons_of_pos (by simp [h.read (show 44 + 10 ≤ m.length by omega), h.read (show 30 + 2 ≤ m.length by omega)])
  unfold ptpStamp
  simp only [hevent, htyp', hreq]
  exact (h.corrected (by omega) (t - rx)).resum (by rwa [corrected_length (by omega)])

/-- Other messages leave as they are. -/
theorem PtpIn.stampOther (h : PtpIn fr o tr m) (hm : 34 ≤ m.length) (h0 : beAt m 0 1 % 16 ≠ 0) (h3 : beAt m 0 1 % 16 ≠ 3) (q : Nat) (t : Int)
    (l : List (Nat × Nat × Nat × Int)) : ptpStamp q t l fr = fr := by
  obtain ⟨ip, hevent, -⟩ := h.event
  have hread : byteAt fr o = beAt m 0 1 := by rw [byteAt_eq_beAt, ← h.read (j := 0) (by omega), Nat.add_zero]
  refine ptpStamp_plain ?_ q t l
  unfold isOneStep
  simp [hevent, hread, h0, h3]

/-- What a stamped Sync says. -/
theorem syncStamped_read (t : Int) (hm : 44 ≤ m.length) (hcorr : beAt m 8 8 = 0) :
    beAt (syncStamped t m) 34 6 = t.toNat / 2 ^ 16 / 1000000000 % 2 ^ 48 ∧ beAt (syncStamped t m) 40 4 = t.toNat / 2 ^ 16 % 1000000000
      ∧ beAt (syncStamped t m) 8 8 = t.toNat % 2 ^ 16
      ∧ ∀ p n, p + n ≤ 8 ∨ (16 ≤ p ∧ p + n ≤ 34) → beAt (syncStamped t m) p n = beAt m p n := by
  have hc := corrected_length (c := (t.toNat % 65536 : Nat)) hm
  have hs : (Machine.putBe (corrected (t.toNat % 65536 : Nat) m) 34 6 (t.toNat / 65536 / 1000000000)).length = m.length :=
    (putBe_length (by omega)).trans hc
  unfold syncStamped
  refine ⟨?_, ?_, ?_, fun p n hp => ?_⟩
  · rw [beAt_putBe_before (by omega) (by omega), beAt_putBe_same (by omega)]
    rfl
  · rw [beAt_putBe_same (by omega)]
    exact Nat.mod_eq_of_lt ((Nat.mod_lt _ (by norm_num)).trans (by norm_num))
  · rw [beAt_putBe_before (by omega) (by omega), beAt_putBe_before (by omega) (by omega)]
    unfold corrected
    rw [beAt_putBe_same (by omega), hcorr]
    have h16 : t.toNat % 65536 < 65536 := Nat.mod_lt _ (by norm_num)
    have hzero : toSigned 64 0 = 0 := rfl
    rw [hzero, Int.zero_add, ofSigned]
    norm_num
    omega
  · rw [beAt_putBe_before (by omega) (by omega), beAt_putBe_before (by omega) (by omega)]
    unfold corrected
    rcases hp with hp | ⟨hp, -⟩
    · exact beAt_putBe_before (by omega) (by omega)
    · exact beAt_putBe_after (by omega) (by omega)
end

end Sys2Proof.Machine
end

section
/-! SUPPORT. The frames that the TIME block sends (R68): where the message stands in each, and what sending it leaves. -/
namespace Sys2Proof.Machine

/-! ### The headers -/

theorem ethFrame_split (d : Dev) (q dst pcp : Nat) {et : Nat} (het : et < 65536) (body : List Byte) :
    ∃ a pad, ethFrame d q dst pcp et body = a ++ (body ++ pad) ∧ EthHead a a.length et := by
  have htype : et % 256 ^ 2 = et := Nat.mod_eq_of_lt het
  unfold ethFrame
  cases d.getB (F.ETH_CFG_VLAN_EN q)
  · refine ⟨beBytes 6 dst ++ (beBytes 6 (portMac d q) ++ beBytes 2 et), _, by simp [List.append_assoc]; rfl, .inl ⟨by simp, ?_⟩⟩
    rw [beAt_skip (by decide), beAt_skip (by decide), beAt_beBytes, htype]
  · refine ⟨beBytes 6 dst ++ (beBytes 6 (portMac d q) ++ (beBytes 2 0x8100
      ++ (beBytes 2 (pcp * 2 ^ 13 + d.get (F.ETH_VLAN_VID q)) ++ beBytes 2 et))), _, by simp [List.append_assoc]; rfl, .inr ⟨by simp, ?_, ?_⟩⟩
    · rw [beAt_skip (by decide), beAt_skip (by decide), beAt_here]
      rfl
    · rw [beAt_skip (by decide), beAt_skip (by decide), beAt_skip (by decide), beAt_skip (by decide), beAt_beBytes, htype]

theorem ipUdpTtl_split4 (ttl src dst sport dport idn : Nat) (data : List Byte) :
    ∃ h, ipUdpTtl ttl false src dst sport dport idn data = h ++ data ∧ h.length = 28 ∧ beAt h 0 1 = 0x45
      ∧ beAt h 2 2 = (28 + data.length) % 65536 ∧ beAt h 9 1 = 17 ∧ beAt h 22 2 = dport % 65536 := by
  refine ⟨beBytes 2 0x4500 ++ (beBytes 2 (20 + (8 + data.length)) ++ (beBytes 2 idn ++ (beBytes 2 0x4000 ++ (beBytes 1 ttl ++ (beBytes 1 17
      ++ (beBytes 2 _ ++ (beBytes 4 src ++ (beBytes 4 dst ++ (beBytes 2 sport ++ (beBytes 2 dport ++ (beBytes 2 (8 + data.length)
      ++ beBytes 2 _))))))))))), by simp only [ipUdpTtl, Bool.false_eq_true, if_false, List.append_assoc]; rfl, by simp, ?_, ?_, ?_, ?_⟩
  · rw [beAt_append_left (by simp)]
    rfl
  · rw [beAt_skip (by decide), beAt_here, ← Nat.add_assoc]
    rfl
  · iterate 5 rw [beAt_skip (by decide)]
    rw [beAt_here]
    rfl
  · iterate 10 rw [beAt_skip (by decide)]
    rw [beAt_here]
    rfl

theorem ipUdpTtl_split6 (ttl src dst sport dport idn : Nat) (data : List Byte) :
    ∃ h, ipUdpTtl ttl true src dst sport dport idn data = h ++ data ∧ h.length = 48 ∧ beAt h 4 2 = (8 + data.length) % 65536
      ∧ beAt h 6 1 = 17 ∧ beAt h 42 2 = dport % 65536 ∧ beAt h 44 2 = (8 + data.length) % 65536 := by
  refine ⟨beBytes 4 0x60000000 ++ (beBytes 2 (8 + data.length) ++ (beBytes 1 17 ++ (beBytes 1 ttl ++ (beBytes 16 src ++ (beBytes 16 dst
      ++ (beBytes 2 sport ++ (beBytes 2 dport ++ (beBytes 2 (8 + data.length) ++ beBytes 2 _)))))))),
    by simp only [ipUdpTtl, if_true, List.append_assoc]; rfl, by simp, ?_, ?_, ?_, ?_⟩
  · rw [beAt_skip (by decide), beAt_here]
    rfl
  · iterate 2 rw [beAt_skip (by decide)]
    rw [beAt_here]
    rfl
  · iterate 7 rw [beAt_skip (by decide)]
    rw [beAt_here]
    rfl
  · iterate 8 rw [beAt_skip (by decide)]
    rw [beAt_here]
    rfl

section
variable {m : List Byte} (d : Dev) (q dst pcp ttl src a idn : Nat)

theorem PtpIn.of_eth (m : List Byte) : ∃ o, PtpIn (ethFrame d q dst pcp 0x88F7 m) o 2 m := by
  obtain ⟨p, pad, hfr, heth⟩ := ethFrame_split d q dst pcp (et := 0x88F7) (by decide) m
  exact ⟨_, p, pad, hfr, rfl, .eth heth, fun h => absurd h (by decide)⟩

theorem PtpIn.of_udp4 (hm : m.length ≤ 60) :
    ∃ o, PtpIn (ethFrame d q dst pcp 0x0800 (ipUdpTtl ttl false src a 319 319 idn m)) o 0 m := by
  obtain ⟨h, hip, hlen, hversion, htotal, hproto, hport⟩ := ipUdpTtl_split4 ttl src a 319 319 idn m
  obtain ⟨p, pad, hfr, heth⟩ := ethFrame_split d q dst pcp (et := 0x0800) (by decide) (ipUdpTtl ttl false src a 319 319 idn m)
  have hread (j n : Nat) : beAt (p ++ h) (p.length + j) n = beAt h j n := by
    rw [beAt_append_right (Nat.le_add_right _ _), Nat.add_sub_cancel_left]
  refine ⟨_, p ++ h, pad, by rw [hfr, hip, List.append_assoc, List.append_assoc], rfl, ?_, fun h => absurd h (by decide)⟩
  refine .udp4 (heth.append (le_refl _) h) (by rw [List.length_append, hlen]) ((hread 0 1).trans hversion) ((hread 2 2).trans ?_)
    ((hread 9 1).trans hproto) ((hread 22 2).trans hport)
  rw [htotal, Nat.mod_eq_of_lt (by omega)]

theorem PtpIn.of_udp6 (hm : m.length ≤ 60) :
    ∃ o, PtpIn (ethFrame d q dst pcp 0x86DD (ipUdpTtl ttl true src a 319 319 idn (m ++ beBytes 2 0))) o 1 m := by
  obtain ⟨h, hip, hlen, hpayload, hproto, hport, hudp⟩ := ipUdpTtl_split6 ttl src a 319 319 idn (m ++ beBytes 2 0)
  obtain ⟨p, pad, hfr, heth⟩ :=
    ethFrame_split d q dst pcp (et := 0x86DD) (by decide) (ipUdpTtl ttl true src a 319 319 idn (m ++ beBytes 2 0))
  have hread (j n : Nat) : beAt (p ++ h) (p.length + j) n = beAt h j n := by
    rw [beAt_append_right (Nat.le_add_right _ _), Nat.add_sub_cancel_left]
  have hdata : (8 + (m ++ beBytes 2 0).length) % 65536 = m.length + 10 := by
    rw [List.length_append, beBytes_length, Nat.mod_eq_of_lt (by omega)]
    omega
  refine ⟨_, p ++ h, beBytes 2 0 ++ pad, by rw [hfr, hip]; simp only [List.append_assoc], rfl, ?_, fun _ => by simp⟩
  exact .udp6 (heth.append (le_refl _) h) (by rw [List.length_append, hlen]) ((hread 4 2).trans (hpayload.trans hdata))
    ((hread 6 1).trans hproto) ((hread 42 2).trans hport) ((hread 44 2).trans (hudp.trans hdata))
end

/-! ### The messages -/

/-- What the device's own messages say. -/
theorem ptpMessage_read (typ dom corr ident seq ctl log : Nat) (tail : List Byte) :
    (ptpMessage typ dom corr ident seq ctl log tail).length = 34 + tail.length
      ∧ beAt (ptpMessage typ dom corr ident seq ctl log tail) 0 1 = typ % 256
      ∧ beAt (ptpMessage typ dom corr ident seq ctl log tail) 4 1 = dom % 256
      ∧ beAt (ptpMessage typ dom corr ident seq ctl log tail) 8 8 = corr % 2 ^ 64
      ∧ beAt (ptpMessage typ dom corr ident seq ctl log tail) 20 10 = ident % 2 ^ 80
      ∧ beAt (ptpMessage typ dom corr ident seq ctl log tail) 30 2 = seq % 2 ^ 16
      ∧ ∀ j n, beAt (ptpMessage typ dom corr ident seq ctl log tail) (34 + j) n = beAt tail j n := by
  have hhead : (ptpHeader typ (34 + tail.length) dom corr ident seq ctl log).length = 34 := by simp [ptpHeader]
  unfold ptpMessage
  refine ⟨by rw [List.length_append, hhead], ?_, ?_, ?_, ?_, ?_, fun j n => ?_⟩
  case refine_6 =>
    rw [beAt_append_right (by omega), hhead, Nat.add_sub_cancel_left]
  all_goals
    unfold ptpHeader
    simp only [List.append_assoc]
  · exact beAt_here ..
  · iterate 3 rw [beAt_skip (by decide)]
    exact beAt_here ..
  · iterate 5 rw [beAt_skip (by decide)]
    exact beAt_here ..
  · iterate 7 rw [beAt_skip (by decide)]
    exact beAt_here ..
  · iterate 8 rw [beAt_skip (by decide)]
    exact beAt_here ..

/-! ### Sending -/

theorem Dev.dom_setDom_same (d : Dev) (k : Nat) (x : Dom) : (d.setDom k x).dom k = x := cellGet_cellSet_same ..

theorem Dev.dom_setDom_ne (d : Dev) {j k : Nat} (h : j ≠ k) (x : Dom) : (d.setDom k x).dom j = d.dom j :=
  cellGet_cellSet_ne _ _ _ _ _ _ h

/-- Domain state `x` once its delay request has left at `t` (R69). -/
def Dom.asked (t : Int) (x : Dom) : Dom := { x with t3 := t }

/-- What holds of a block and still holds when a domain's delay request has left holds after `ptpSent`. -/
theorem ptpSent_induct {P : Dev → Prop} {q : Nat} {t : Int} {fr : List Byte} {d : Dev} (h0 : P d)
    (hs : ∀ k x, P x → P (x.setDom k (Dom.asked t (x.dom k)))) : P (ptpSent q t fr d) := by
  have hite {c : Prop} [Decidable c] {x y : Dev} (hx : P x) (hy : P y) : P (if c then x else y) := by split <;> assumption
  unfold ptpSent
  split
  · exact h0
  · exact hite h0 (forN_induct h0 fun k x hx => hite (hs k x hx) hx)

/-- Each PTP domain of `e` is that of `d`, or its delay request has left at `t`. -/
def DomSent (t : Int) (d e : Dev) : Prop := ∀ k, e.dom k = d.dom k ∨ e.dom k = Dom.asked t (d.dom k)

theorem ptpSent_dom (q : Nat) (t : Int) (fr : List Byte) (d : Dev) : DomSent t d (ptpSent q t fr d) := by
  refine ptpSent_induct (P := DomSent t d) (fun _ => .inl rfl) fun k x hx j => ?_
  rcases eq_or_ne j k with rfl | hne
  · rw [Dev.dom_setDom_same]
    exact .inr ((hx j).elim (fun h => by rw [h]) (fun h => by rw [h]; rfl))
  · rw [Dev.dom_setDom_ne _ hne]
    exact hx j

theorem departEth_dom (q : Nat) (fr : List Byte) (d : Dev) : DomSent (txStamp d q) d (departEth q fr d) :=
  ptpSent_dom q (txStamp d q) fr d

theorem sendEth_dom (q : Nat) (fr : List Byte) (d : Dev) : DomSent (txStamp d q) d (sendEth q fr d) := by
  unfold sendEth
  split
  · exact fun _ => .inl rfl
  · split
    · exact fun _ => .inl rfl
    · exact departEth_dom q fr d

theorem ptpSent_out (q : Nat) (t : Int) (fr : List Byte) (d : Dev) : (ptpSent q t fr d).out = d.out :=
  ptpSent_induct (P := fun x => Dev.out x = d.out) rfl fun _ _ hx => hx

/-- A frame of the device's own leaves port `q` at once: `SendsNow` of the block. -/
abbrev Sends (d : Dev) (q : Nat) : Prop :=
  ethUp d q = true ∧ d.get (F.PG_CTL_EN (portPage q)) = 1 ∧ d.path.txWait = [] ∧ d.get F.TXR_HEAD_HEAD = d.get F.TXR_TAIL_TAIL

theorem sendEth_now {q : Nat} {d : Dev} (h : Sends d q) (fr : List Byte) :
    (sendEth q fr d).out = .eth q (ptpStamp q (txStamp d q) d.tm.pdReq fr) :: d.out := by
  obtain ⟨hup, hen, hwait, hring⟩ := h
  have hon : (!(ethUp d q && d.enabled (portPage q))) = false := by
    rw [hup, show d.enabled (portPage q) = true from Dev.getB_of_get_one hen]
    rfl
  have htimed : txTimed d q = none := if_pos hring
  have hfree : (d.path.txWait.any (fun e => e.1 == q) || txBlocked d q fr.length) = false := by
    unfold txBlocked
    rw [hwait, htimed]
    rfl
  unfold sendEth
  rw [if_neg (by rw [hon]; decide), if_neg (by rw [hfree]; decide)]
  exact congrArg (_ :: ·) (ptpSent_out q (txStamp d q) fr d)

/-- An event message is sent in a frame that carries it, by one of the three transports. -/
theorem ptpSend_frame {tr : Nat} (htr : tr ≤ 2) (q : Nat) (peer : Bool) {m : List Byte} (hm : m.length ≤ 60) (d : Dev) :
    ∃ n fr o, ptpSend tr q peer m d = sendEth q fr { d with freeCtr := n } ∧ PtpIn fr o tr m := by
  unfold ptpSend
  interval_cases tr
  · obtain ⟨o, ho⟩ := PtpIn.of_udp4 (d.free 16).2 q (groupMac4 (if peer then 0xE000006B else 0xE0000181)) (d.get (F.ETH_CFG_PCP_CTL q))
      (if peer then 1 else Config.ipTtl) (d.get (F.ETH_IP4_ADDR q)) (if peer then 0xE000006B else 0xE0000181) (d.free 16).1 hm
    exact ⟨_, _, o, rfl, ho⟩
  · exact ⟨d.freeCtr, _, _, rfl, (PtpIn.of_udp6 d q _ _ _ _ _ 0 hm).choose_spec⟩
  · exact ⟨d.freeCtr, _, _, rfl, (PtpIn.of_eth d q _ _ m).choose_spec⟩

/-- An event message that leaves at once. -/
theorem ptpSend_now {tr q : Nat} {d : Dev} (h : Sends d q) (htr : tr ≤ 2) (peer : Bool) {m : List Byte} (hm : m.length ≤ 60) :
    ∃ fr o, (ptpSend tr q peer m d).out = .eth q (ptpStamp q (txStamp d q) d.tm.pdReq fr) :: d.out ∧ PtpIn fr o tr m := by
  obtain ⟨n, fr, o, hsend, hin⟩ := ptpSend_frame htr q peer hm d
  rw [hsend]
  exact ⟨fr, o, sendEth_now (d := { d with freeCtr := n }) h fr, hin⟩

theorem ptpSend_is (tr q : Nat) (peer : Bool) (m : List Byte) (d : Dev) :
    ∃ n fr, ptpSend tr q peer m d = sendEth q fr { d with freeCtr := n } := by
  unfold ptpSend
  by_cases h2 : tr = 2
  · exact ⟨d.freeCtr, _, if_pos h2⟩
  · by_cases h1 : tr = 1
    · exact ⟨d.freeCtr, _, (if_neg h2).trans (if_pos h1)⟩
    · exact ⟨_, _, (if_neg h2).trans (if_neg h1)⟩

/-- Whatever its transport and the port, what sending an event message touches. -/
theorem ptpSend_sends (tr q : Nat) (peer : Bool) (m : List Byte) (d : Dev) :
    OnlySends d (ptpSend tr q peer m d) ∧ DomSent (txStamp d q) d (ptpSend tr q peer m d) := by
  obtain ⟨n, fr, hsend⟩ := ptpSend_is tr q peer m d
  have hdraw : OnlySends d { d with freeCtr := n } := ⟨d.out, d.path.txWait, d.tm.doms, n, rfl⟩
  rw [hsend]
  exact ⟨hdraw.trans (sendEth_sends q fr _), sendEth_dom q fr { d with freeCtr := n }⟩

end Sys2Proof.Machine
end

section
/-! SUPPORT. The clock set and held, domains lost and the switch asked for (R67, R70 to R72). -/
namespace Sys2Proof.Machine

@[simp] theorem State.after_dom (s : State) (e : Dev) (k : Nat) : (s.after e).dev.dom k = e.dom k := rfl

@[simp] theorem State.after_getB (s : State) (e : Dev) (g : RegField) : (s.after e).dev.getB g = e.getB g := rfl

theorem statusReg_ne {i j : Nat} (h : i ≠ j) : R.TIME_DOM_STAT i ≠ R.TIME_DOM_STAT j := by
  unfold R.TIME_DOM_STAT
  omega

section
variable {d : Dev} {k : Nat}

theorem timeSet_clk (h : d.planActive = false) : (timeSet d).clk
    = (d.get2 F.TIME_SET_SEC_LO_SEC F.TIME_SET_SEC_HI_SEC * 1000000000 + d.get F.TIME_SET_NS_NS) * 2 ^ 48 := by
  unfold timeSet
  rw [h, if_neg Bool.false_ne_true, clockSet_clk, Int.toNat_natCast]
  ring

theorem timeSet_calm (h : d.planActive = false) : Calm pulseRegs d (timeSet d) := by
  unfold timeSet
  rw [h, if_neg Bool.false_ne_true]
  exact clockSet_calm _ d

theorem timeSet_refused (h : d.planActive = true) : timeSet d = (d.put F.TIME_STAT_SET_REFUSED 1).pgFault 0x08 0x01 (R.TIME_CTL % 0x1000) :=
  if_pos h

/-- A write of the field's own value changes nothing. -/
theorem timeActDom_same (h : d.get F.TIME_CTL_ACT_DOM = k) (hk : k < 2) : timeActDom k d = d :=
  if_pos (by rw [h]; omega)

/-- `x` is the switch of domain asked for. -/
def withSwitch (x : Option Nat) (d : Dev) : Dev := { d with tm := { d.tm with switchTo := x } }

theorem withSwitch_to (x : Option Nat) (d : Dev) : (withSwitch x d).tm.switchTo = x := rfl

theorem withSwitch_calm (x : Option Nat) (d : Dev) : Calm [] d (withSwitch x d) := ⟨.of_regs rfl, rfl, rfl, rfl, rfl, rfl, rfl, rfl⟩

/-- ACT_DOM written with `k`, and the switch that asks for (R71). -/
def switchAsked (k : Nat) (d : Dev) : Dev :=
  withSwitch (if actDom d = k then none else some k) (d.put F.TIME_CTL_ACT_DOM k)

theorem timeActDom_other (h : d.get F.TIME_CTL_ACT_DOM ≠ k) (hk : k < 2) : timeActDom k d = switchAsked k d := by
  have hmod : k % 2 = k := Nat.mod_eq_of_lt hk
  have hact : actDom (d.put F.TIME_CTL_ACT_DOM k) = actDom d := by
    unfold actDom
    rw [Dev.getB_put_apart _ _ _ _ (by decide) (.inl (by decide))]
  have hopen : timeActDom k d = withSwitch (if k = actDom (d.put F.TIME_CTL_ACT_DOM k) then none else some k) (d.put F.TIME_CTL_ACT_DOM k) := by
    unfold timeActDom
    rw [hmod]
    exact if_neg h.symm
  rw [hopen, hact, switchAsked]
  simp only [eq_comm]

theorem switchAsked_calm (k : Nat) (d : Dev) : Calm [R.TIME_CTL] d (switchAsked k d) :=
  ((Calm.refl [R.TIME_CTL] d).put (g := F.TIME_CTL_ACT_DOM) k (by simp)).trans ⟨.of_regs rfl, rfl, rfl, rfl, rfl, rfl, rfl, rfl⟩

theorem switchAsked_field (hk : k < 2) : (switchAsked k d).get F.TIME_CTL_ACT_DOM = k :=
  (Dev.get_put_same d F.TIME_CTL_ACT_DOM k (by decide)).trans (Nat.mod_eq_of_lt hk)

/-! ### A domain lost -/

/-- Domain `k` declared lost, before what that does to the clock (R70). -/
def declaredLost (k : Nat) (d : Dev) : Dev :=
  ((d.put (F.TIME_DOM_STAT_QUAL k) 0).put (F.TIME_DOM_STAT_LOST k) 1).setDom k { d.dom k with good := 0 }

theorem domainLost_declares (hen : d.get (F.TIME_DOM_CFG_EN k) = 1) (hlost : d.get (F.TIME_DOM_STAT_LOST k) = 0)
    (hlate : (d.dom k).syncAt + d.get (F.TIME_DOM_CFG_LOSS_N k) * syncInterval d k ≤ d.now) :
    domainLost k d = domainCheck (declaredLost k d) := by
  unfold domainLost
  rw [if_neg (by rw [Dev.getB_of_get_one hen]; decide), if_neg (not_lt.2 hlate), if_neg (by rw [Dev.getB_of_get_zero hlost]; decide)]
  rfl

theorem declaredLost_calm (k : Nat) (d : Dev) : Calm [R.TIME_DOM_STAT k] d (declaredLost k d) :=
  (((Calm.refl [R.TIME_DOM_STAT k] d).put (g := F.TIME_DOM_STAT_QUAL k) 0 (by simp)).put (g := F.TIME_DOM_STAT_LOST k) 1 (by simp)).trans
    ⟨.of_regs rfl, rfl, rfl, rfl, rfl, rfl, rfl, rfl⟩

theorem declaredLost_lost (k : Nat) (d : Dev) : (declaredLost k d).get (F.TIME_DOM_STAT_LOST k) = 1 :=
  Dev.get_put_same (d.put (F.TIME_DOM_STAT_QUAL k) 0) (F.TIME_DOM_STAT_LOST k) 1 (by simp)

theorem declaredLost_qual (k : Nat) (d : Dev) : (declaredLost k d).get (F.TIME_DOM_STAT_QUAL k) = 0 :=
  (Dev.get_put_apart (d.put (F.TIME_DOM_STAT_QUAL k) 0) (F.TIME_DOM_STAT_LOST k) (F.TIME_DOM_STAT_QUAL k) 1 (by simp)
    (.inr (.inr (by simp)))).trans (Dev.get_put_same d (F.TIME_DOM_STAT_QUAL k) 0 (by simp))

theorem declaredLost_good (k : Nat) (d : Dev) : ((declaredLost k d).dom k).good = 0 := by
  unfold declaredLost
  rw [Dev.dom_setDom_same]

theorem declaredLost_tm (k : Nat) (d : Dev) : (declaredLost k d).tm.switchTo = d.tm.switchTo ∧ (declaredLost k d).tm.iq = d.tm.iq :=
  ⟨rfl, rfl⟩

theorem declaredLost_actDom (k : Nat) (d : Dev) : actDom (declaredLost k d) = actDom d := by
  have hput : (declaredLost k d).getB (F.TIME_DOM_STAT_ACTIVE 1) = d.getB (F.TIME_DOM_STAT_ACTIVE 1) :=
    (Dev.getB_put_apart (d.put (F.TIME_DOM_STAT_QUAL k) 0) (F.TIME_DOM_STAT_LOST k) (F.TIME_DOM_STAT_ACTIVE 1) 1 (by simp)
      (.inr (.inl (by simp)))).trans
      (Dev.getB_put_apart d (F.TIME_DOM_STAT_QUAL k) (F.TIME_DOM_STAT_ACTIVE 1) 0 (by simp) (.inr (.inl (by simp))))
  unfold actDom
  rw [hput]

theorem declaredLost_other {g : RegField} (hg : g.addr ≠ R.TIME_DOM_STAT k) : (declaredLost k d).get g = d.get g :=
  (declaredLost_calm k d).regs.get_eq (by simpa using hg)

/-! ### What the loss of the active domain does -/

theorem domainCheck_stays (h : d.get F.TIME_CTL_SRC = 1 ∨ d.get (F.TIME_DOM_STAT_LOST (actDom d)) = 0) : domainCheck d = d := by
  refine if_pos ?_
  rcases h with h | h
  · rw [Dev.getB_of_get_one h, Bool.true_or]
  · rw [Dev.getB_of_get_zero h, Bool.not_false, Bool.or_true]

section
variable (hsrc : d.get F.TIME_CTL_SRC = 0) (hlost : d.get (F.TIME_DOM_STAT_LOST (actDom d)) = 1)
include hsrc hlost

theorem domainCheck_switches (hq : d.get (F.TIME_DOM_STAT_QUAL (1 - actDom d)) = 1) :
    domainCheck d = withSwitch (some (1 - actDom d)) d := by
  unfold domainCheck
  rw [if_neg (by rw [Dev.getB_of_get_zero hsrc, Dev.getB_of_get_one hlost]; decide), if_pos (Dev.getB_of_get_one hq)]
  rfl

theorem domainCheck_holds (hq : d.get (F.TIME_DOM_STAT_QUAL (1 - actDom d)) = 0) : domainCheck d = holdover (withSwitch none d) := by
  unfold domainCheck
  rw [if_neg (by rw [Dev.getB_of_get_zero hsrc, Dev.getB_of_get_one hlost]; decide),
    if_neg (by rw [Dev.getB_of_get_zero hq]; decide)]
  rfl
end

/-- The registers that entering holdover can change (R72, R429, R430). -/
abbrev holdoverRegs : List Nat := [R.TIME_STAT, R.TIME_FREQ, R.CNT_EVT_DROP] ++ eventRegs 0x08

/-- The clock held, with the event raised, before the session's event record is queued (R72). -/
def heldClock (d : Dev) : Dev :=
  (((d.putI F.TIME_FREQ_FREQ d.tm.iq).put F.TIME_STAT_LOCKED 0).put F.TIME_STAT_HOLDOVER 1).raise 0x08 2

theorem holdover_enters (h : d.get F.TIME_STAT_HOLDOVER = 0) :
    holdover d = (heldClock d).sendEvent 10 0xFF 0 ((heldClock d).reg R.TIME_STAT).toNat 0 := by
  have hclear : ((d.putI F.TIME_FREQ_FREQ d.tm.iq).put F.TIME_STAT_LOCKED 0).getB F.TIME_STAT_HOLDOVER = false := by
    rw [Dev.getB_put_apart _ _ _ _ (by decide) (.inr (by decide)), Dev.putI, Dev.getB_put_apart _ _ _ _ (by decide) (.inl (by decide))]
    exact Dev.getB_of_get_zero h
  exact if_neg (by rw [hclear]; decide)

theorem heldClock_calm (d : Dev) : Calm holdoverRegs d (heldClock d) :=
  ((((Calm.refl holdoverRegs d).put (g := F.TIME_FREQ_FREQ) _ (by simp)).put (g := F.TIME_STAT_LOCKED) 0 (by simp)).put
    (g := F.TIME_STAT_HOLDOVER) 1 (by simp)).raise 0x08 2 (List.subset_append_right _ _)

theorem holdover_calm (h : d.get F.TIME_STAT_HOLDOVER = 0) : Calm holdoverRegs d (holdover d) := by
  rw [holdover_enters h]
  exact (heldClock_calm d).sendEvent _ _ _ _ _ (by simp)

theorem holdover_tm (h : d.get F.TIME_STAT_HOLDOVER = 0) : (holdover d).tm = d.tm := by
  rw [holdover_enters h, Dev.sendEvent_tm, heldClock, Dev.raise_tm]
  rfl

/-- What the clock reads in holdover. -/
theorem holdover_read (h : d.get F.TIME_STAT_HOLDOVER = 0) :
    (holdover d).get F.TIME_STAT_HOLDOVER = 1 ∧ (holdover d).get F.TIME_STAT_LOCKED = 0
      ∧ (holdover d).get F.TIME_FREQ_FREQ = ofSigned 32 d.tm.iq ∧ bit ((holdover d).reg (R.PG_EVT 0x08)).toNat 10 = true := by
  have hsend := (Kept.refl [R.CNT_EVT_DROP] (heldClock d)).sendEvent 10 0xFF 0 ((heldClock d).reg R.TIME_STAT).toNat 0 (by simp)
  have hraise := (Kept.refl (eventRegs 0x08)
    (((d.putI F.TIME_FREQ_FREQ d.tm.iq).put F.TIME_STAT_LOCKED 0).put F.TIME_STAT_HOLDOVER 1)).raise 0x08 2 (List.Subset.refl _)
  rw [holdover_enters h]
  refine ⟨?_, ?_, ?_, ?_⟩
  · rw [hsend.get_eq (g := F.TIME_STAT_HOLDOVER) (by decide), heldClock, hraise.get_eq (g := F.TIME_STAT_HOLDOVER) (by decide)]
    exact Dev.get_put_same _ _ _ (by decide)
  · rw [hsend.get_eq (g := F.TIME_STAT_LOCKED) (by decide), heldClock, hraise.get_eq (g := F.TIME_STAT_LOCKED) (by decide),
      Dev.get_put_apart _ _ _ _ (by decide) (.inr (by decide))]
    exact Dev.get_put_same _ _ _ (by decide)
  · rw [hsend.get_eq (g := F.TIME_FREQ_FREQ) (by decide), heldClock, hraise.get_eq (g := F.TIME_FREQ_FREQ) (by decide),
      Dev.get_put_apart _ _ _ _ (by decide) (.inl (by decide)), Dev.get_put_apart _ _ _ _ (by decide) (.inl (by decide))]
    exact (Dev.get_put_same d F.TIME_FREQ_FREQ _ (by decide)).trans (ofSigned_mod 32 _)
  · rw [hsend.reg_eq (by decide)]
    exact Dev.evtSet_raiseBits _ 0x08 10 (by omega)
end

end Sys2Proof.Machine
end

section
/-! SUPPORT. The messages that the TIME block sends for a domain (R69, R76). -/
namespace Sys2Proof.Machine

/-- The Sync that domain `k` sends as master. -/
def ownSync (k : Nat) (d : Dev) : List Byte :=
  ptpMessage 0 (d.get (F.TIME_DOM_CFG_DOMAIN k)) 0 (ownIdentity d (1 - d.get (F.TIME_DOM_CFG_PORT k))) (d.dom k).txSeq 0
    (ofSigned 8 (d.getI (F.TIME_DOM_CFG_LOG_SYNC k))) (beBytes 10 0)

/-- Domain `k`'s delay request, of type `typ`. -/
def ownRequest (k typ : Nat) (d : Dev) : List Byte :=
  ptpMessage typ (d.get (F.TIME_DOM_CFG_DOMAIN k)) 0 (ownIdentity d (d.get (F.TIME_DOM_CFG_PORT k))) (((d.dom k).reqSeq + 1) % 65536)
    (if typ = 1 then 1 else 5) 0x7F (List.replicate (if typ = 1 then 10 else 20) 0)

section
variable {d : Dev} {k typ : Nat} (hen : d.get (F.TIME_DOM_CFG_EN k) = 1)
include hen

theorem ptpTx_sync (hbc : d.get (F.TIME_DOM_CFG_BC_MASTER k) = 1) :
    ptpTx k 0 d = ptpSend (d.get (F.TIME_DOM_CFG_TRANSPORT k)) (1 - d.get (F.TIME_DOM_CFG_PORT k)) false (ownSync k d)
      (d.setDom k { d.dom k with txSeq := ((d.dom k).txSeq + 1) % 65536 }) := by
  unfold ptpTx
  rw [if_neg (by rw [Dev.getB_of_get_one hen]; decide)]
  refine (if_pos rfl).trans ?_
  rw [if_neg (by rw [Dev.getB_of_get_one hbc]; decide)]
  rfl

theorem ptpTx_request (ht : typ = 1 + d.get (F.TIME_DOM_CFG_P2P k)) :
    ptpTx k typ d = ptpSend (d.get (F.TIME_DOM_CFG_TRANSPORT k)) (d.get (F.TIME_DOM_CFG_PORT k)) (typ == 2) (ownRequest k typ d)
      (d.setDom k { d.dom k with
        reqSeq := ((d.dom k).reqSeq + 1) % 65536, t3 := txStamp d (d.get (F.TIME_DOM_CFG_PORT k)), reqOut := true, respTwo := false }) := by
  have hp : d.get (F.TIME_DOM_CFG_P2P k) < 2 := Dev.get_lt d (F.TIME_DOM_CFG_P2P k)
  have hkind : (typ = 1 ∧ !d.getB (F.TIME_DOM_CFG_P2P k)) ∨ (typ = 2 ∧ d.getB (F.TIME_DOM_CFG_P2P k)) := by
    rcases Nat.lt_succ_iff_lt_or_eq.1 hp with h0 | h1
    · have h0 : d.get (F.TIME_DOM_CFG_P2P k) = 0 := by omega
      exact .inl ⟨by omega, by rw [Dev.getB_of_get_zero h0]; rfl⟩
    · exact .inr ⟨by omega, Dev.getB_of_get_one h1⟩
  unfold ptpTx
  rw [if_neg (by rw [Dev.getB_of_get_one hen]; decide)]
  refine (if_neg (by omega)).trans ?_
  rw [if_pos hkind]
  rfl
end

section
variable {s : State} {q tr : Nat} {m : List Byte}

/-- An event message that leaves at once is what the command shows on the wire. -/
theorem ptpSend_wire {d : Dev} (hout : d.out = []) (hnow : Sends d q) (htr : tr ≤ 2) (peer : Bool) (hm : m.length ≤ 60) :
    ∃ fr o, (s.after (ptpSend tr q peer m d)).wire = .eth q (ptpStamp q (txStamp d q) d.tm.pdReq fr) :: s.wire ∧ PtpIn fr o tr m := by
  obtain ⟨fr, o, hsent, hin⟩ := ptpSend_now hnow htr peer hm
  refine ⟨fr, o, ?_, hin⟩
  unfold State.after
  rw [hsent, hout]
  rfl
end

/-! ### The commands -/

theorem domStat_apart : ∀ k : Fin 2, ∀ a ∈ [R.TIME_CTL, R.TIME_STAT], a ≠ R.TIME_DOM_STAT k := by decide

theorem domStat_notHoldover : ∀ k : Fin 2, R.TIME_DOM_STAT k ∉ holdoverRegs := by decide

theorem endRegs_domStat : ∀ k : Fin 2, ∀ a ∈ endRegs, a ∉ [R.TIME_DOM_STAT k] := by decide

theorem endRegs_holdover : ∀ k : Fin 2, ∀ a ∈ endRegs, a ∉ R.TIME_DOM_STAT k :: holdoverRegs := by decide

section
variable {dt : Nat} {s : State} {k : Fin 2} (hready : Ready s)
include hready

/-- The loss of a domain, with what that does to the clock (R70 to R72). -/
theorem domainLost_command {e : Dev} {l : List Nat} (hen : s.dev.get (F.TIME_DOM_CFG_EN k) = 1)
    (hlost : s.dev.get (F.TIME_DOM_STAT_LOST k) = 0)
    (hlate : (s.dev.dom k).syncAt + s.dev.get (F.TIME_DOM_CFG_LOSS_N k) * syncInterval s.dev k ≤ s.dev.now + dt)
    (he : domainCheck (declaredLost k (s.dev.elapse dt)) = e) (hcalm : Calm l (declaredLost k (s.dev.elapse dt)) e)
    (hl : ∀ a ∈ endRegs, a ∉ R.TIME_DOM_STAT k :: l) :
    exec (.domainLost dt k) s = .next (s.after e) ∧ RegsKept (R.TIME_DOM_STAT k :: l) s (s.after e) ∧ MemKept s (s.after e) :=
  perform_effect (f := domainLost k) hready ((domainLost_declares (d := s.dev.elapse dt) hen hlost hlate).trans he)
    (((declaredLost_calm k _).mono (by simp)).trans (hcalm.mono (List.subset_cons_self ..))) hl

/-- A domain's message sent, its state noted as `x`: the frame of the command, and the domain after it (R69). -/
theorem ptpTx_command {typ : Fin 3} {tr q : Nat} {peer : Bool} {m : List Byte} {x : Dom}
    (he : ptpTx k typ (s.dev.elapse dt) = ptpSend tr q peer m ((s.dev.elapse dt).setDom k x)) :
    ∃ t, exec (.ptpMessageTx dt k typ) s = .next t ∧ RegsKept [] s t ∧ MemKept s t
      ∧ (t.dev.dom k = x ∨ t.dev.dom k = Dom.asked (txStamp (s.dev.elapse dt) q) x)
      ∧ (SendsNow s q → tr ≤ 2 → m.length ≤ 60 → ∃ fr o, PtpIn fr o tr m
          ∧ t.wire = .eth q (ptpStamp q (txStamp (s.dev.elapse dt) q) s.dev.tm.pdReq fr) :: s.wire) := by
  obtain ⟨hsends, hdom⟩ := ptpSend_sends tr q peer m ((s.dev.elapse dt).setDom k x)
  have hset : Calm [] (s.dev.elapse dt) ((s.dev.elapse dt).setDom k x) := ⟨.of_regs rfl, rfl, rfl, rfl, rfl, rfl, rfl, rfl⟩
  obtain ⟨hnext, hregs, hmem⟩ := perform_effect (f := ptpTx k typ) hready he (hset.trans hsends.calm) (by simp)
  refine ⟨_, hnext, hregs, hmem, ?_, fun hnow htr hm => ?_⟩
  · have := hdom k
    rwa [Dev.dom_setDom_same] at this
  · obtain ⟨fr, o, hwire, hin⟩ :=
      ptpSend_wire (s := s) (d := (s.dev.elapse dt).setDom k x) hready.2.1.2.2 hnow htr peer hm
    exact ⟨fr, o, hin, hwire⟩
end

theorem domain_mod (d : Dev) (k : Nat) : d.get (F.TIME_DOM_CFG_DOMAIN k) % 256 = d.get (F.TIME_DOM_CFG_DOMAIN k) :=
  Nat.mod_eq_of_lt (Dev.get_lt d (F.TIME_DOM_CFG_DOMAIN k))

theorem ownSync_read (k : Nat) (d : Dev) : (ownSync k d).length = 44 ∧ beAt (ownSync k d) 0 1 = 0
    ∧ beAt (ownSync k d) 4 1 = d.get (F.TIME_DOM_CFG_DOMAIN k) ∧ beAt (ownSync k d) 8 8 = 0
    ∧ beAt (ownSync k d) 30 2 = (d.dom k).txSeq % 2 ^ 16 := by
  obtain ⟨hlen, htyp, hdom, hcorr, -, hseq, -⟩ := ptpMessage_read 0 (d.get (F.TIME_DOM_CFG_DOMAIN k)) 0
    (ownIdentity d (1 - d.get (F.TIME_DOM_CFG_PORT k))) (d.dom k).txSeq 0 (ofSigned 8 (d.getI (F.TIME_DOM_CFG_LOG_SYNC k))) (beBytes 10 0)
  exact ⟨hlen.trans (by rw [beBytes_length]), htyp, hdom.trans (domain_mod d k), hcorr, hseq⟩

theorem ownRequest_read (k : Nat) {typ : Nat} (ht : typ = 1 ∨ typ = 2) (d : Dev) :
    (44 ≤ (ownRequest k typ d).length ∧ (ownRequest k typ d).length ≤ 60) ∧ beAt (ownRequest k typ d) 0 1 = typ
    ∧ beAt (ownRequest k typ d) 4 1 = d.get (F.TIME_DOM_CFG_DOMAIN k)
    ∧ beAt (ownRequest k typ d) 20 10 = ownIdentity d (d.get (F.TIME_DOM_CFG_PORT k)) % 2 ^ 80
    ∧ beAt (ownRequest k typ d) 30 2 = ((d.dom k).reqSeq + 1) % 2 ^ 16 := by
  obtain ⟨hlen, htyp, hdom, -, hident, hseq, -⟩ := ptpMessage_read typ (d.get (F.TIME_DOM_CFG_DOMAIN k)) 0
    (ownIdentity d (d.get (F.TIME_DOM_CFG_PORT k))) (((d.dom k).reqSeq + 1) % 65536) (if typ = 1 then 1 else 5) 0x7F
    (List.replicate (if typ = 1 then 10 else 20) 0)
  have hlen' : (ownRequest k typ d).length = 34 + (if typ = 1 then 10 else 20) := hlen.trans (by rw [List.length_replicate])
  exact ⟨by rw [hlen']; split <;> omega, htyp.trans (Nat.mod_eq_of_lt (by omega)), hdom.trans (domain_mod d k), hident,
    hseq.trans (Nat.mod_mod _ _)⟩

section
variable {fr : List Byte} {o tr k : Nat} {d : Dev}

/-- What leaves of a domain's Sync (R69, R76). -/
theorem ownSync_leaves (h : PtpIn fr o tr (ownSync k d)) (q : Nat) (t : Int) (l : List (Nat × Nat × Nat × Int)) :
    PtpFrame (ptpStamp q t l fr) o tr 0 (d.get (F.TIME_DOM_CFG_DOMAIN k)) ((d.dom k).txSeq % 2 ^ 16)
      ∧ beAt (ptpStamp q t l fr) (o + 34) 6 = t.toNat / 2 ^ 16 / 1000000000 % 2 ^ 48
      ∧ beAt (ptpStamp q t l fr) (o + 40) 4 = t.toNat / 2 ^ 16 % 1000000000 ∧ beAt (ptpStamp q t l fr) (o + 8) 8 = t.toNat % 2 ^ 16 := by
  obtain ⟨hlen, htyp, hdom, hcorr, hseq⟩ := ownSync_read k d
  obtain ⟨hsec, hns, hfrac, hkept⟩ := syncStamped_read t hlen.ge hcorr
  have hstamp := h.stampSync hlen.ge (by rw [htyp]) q t l
  have hlen' : (syncStamped t (ownSync k d)).length = 44 := (syncStamped_length hlen.ge).trans hlen
  have hframe := hstamp.frame (by omega)
  rw [hkept 0 1 (by decide), hkept 4 1 (by decide), hkept 30 2 (by decide), htyp, hdom, hseq] at hframe
  exact ⟨hframe, (hstamp.read (by omega)).trans hsec, (hstamp.read (by omega)).trans hns, (hstamp.read (by omega)).trans hfrac⟩

/-- What leaves of a domain's delay request (R69). -/
theorem ownRequest_leaves {typ : Nat} (ht : typ = 1 ∨ typ = 2) (h : PtpIn fr o tr (ownRequest k typ d)) (q : Nat) (t : Int)
    (l : List (Nat × Nat × Nat × Int)) :
    PtpFrame (ptpStamp q t l fr) o tr typ (d.get (F.TIME_DOM_CFG_DOMAIN k)) (((d.dom k).reqSeq + 1) % 2 ^ 16)
      ∧ beAt (ptpStamp q t l fr) (o + 20) 10 = ownIdentity d (d.get (F.TIME_DOM_CFG_PORT k)) % 2 ^ 80 := by
  obtain ⟨⟨hlen, -⟩, htyp, hdom, hident, hseq⟩ := ownRequest_read k ht d
  have hframe := h.frame (by omega)
  rw [htyp, hdom, hseq, Nat.mod_eq_of_lt (show typ < 16 by omega)] at hframe
  rw [h.stampOther (by omega) (by omega) (by omega) q t l]
  exact ⟨hframe, (h.read (by omega)).trans hident⟩
end

end Sys2Proof.Machine
end

section
/-! SUPPORT. The commands of the TIME block complete as R67 and R69 to R72 say. -/
namespace Sys2Proof.Machine

/-! ### The loss of a domain -/

section
variable {dt : Nat} {s : State} {k l : Fin 2} (hready : Ready s) (hkl : k ≠ l) (hen : s.dev.get (F.TIME_DOM_CFG_EN k) = 1)
  (hlost : s.dev.get (F.TIME_DOM_STAT_LOST k) = 0)
  (hlate : (s.dev.dom k).syncAt + s.dev.get (F.TIME_DOM_CFG_LOSS_N k) * syncInterval s.dev k ≤ s.dev.now + dt)

/-- What the declaration of the loss leaves of the clock's own registers. -/
theorem declaredLost_ctl (s : State) (dt : Nat) (k : Fin 2) {g : RegField} (hg : g.addr ∈ [R.TIME_CTL, R.TIME_STAT]) :
    (declaredLost k (s.dev.elapse dt)).get g = s.dev.get g :=
  declaredLost_other (d := s.dev.elapse dt) (domStat_apart k _ hg)

include hkl in
/-- What it leaves of the other domain's. -/
theorem declaredLost_peer (s : State) (dt : Nat) {g : RegField} (hg : g.addr = R.TIME_DOM_STAT l) :
    (declaredLost k (s.dev.elapse dt)).get g = s.dev.get g :=
  declaredLost_other (d := s.dev.elapse dt) (by rw [hg]; exact statusReg_ne (by omega))

theorem declaredLost_act (s : State) (dt k : Nat) : actDom (declaredLost k (s.dev.elapse dt)) = actDom s.dev :=
  declaredLost_actDom k (s.dev.elapse dt)

include hready hkl hen hlost hlate

theorem domainLost_standby (hact : actDom s.dev = l) (hstay : s.dev.get F.TIME_CTL_SRC = 1 ∨ s.dev.get (F.TIME_DOM_STAT_LOST l) = 0) :
    ∃ t, exec (.domainLost dt k) s = .next t ∧ t.dev.get (F.TIME_DOM_STAT_LOST k) = 1
      ∧ t.dev.get (F.TIME_DOM_STAT_QUAL k) = 0 ∧ (t.dev.dom k).good = 0 ∧ t.dev.tm.switchTo = s.dev.tm.switchTo
      ∧ RegsKept [R.TIME_DOM_STAT k] s t ∧ MemKept s t := by
  have hstays : domainCheck (declaredLost k (s.dev.elapse dt)) = declaredLost k (s.dev.elapse dt) := by
    refine domainCheck_stays ?_
    rw [declaredLost_act, hact, declaredLost_ctl s dt k (g := F.TIME_CTL_SRC) (by simp),
      declaredLost_peer hkl s dt (g := F.TIME_DOM_STAT_LOST l) rfl]
    exact hstay
  obtain ⟨hnext, hregs, hmem⟩ := domainLost_command hready hen hlost hlate hstays (.refl [] _) (endRegs_domStat k)
  refine ⟨_, hnext, ?_, ?_, ?_, ?_, hregs, hmem⟩
  · rw [State.after_get, declaredLost_lost]
  · rw [State.after_get, declaredLost_qual]
  · rw [State.after_dom, declaredLost_good]
  · rw [State.after_tm, (declaredLost_tm k _).1]
    rfl

theorem domainLost_active (hact : actDom s.dev = k) (hsrc : s.dev.get F.TIME_CTL_SRC = 0) (hq : s.dev.get (F.TIME_DOM_STAT_QUAL l) = 1) :
    ∃ t, exec (.domainLost dt k) s = .next t ∧ t.dev.get (F.TIME_DOM_STAT_LOST k) = 1
      ∧ t.dev.get (F.TIME_DOM_STAT_QUAL k) = 0 ∧ t.dev.tm.switchTo = some l.val
      ∧ RegsKept [R.TIME_DOM_STAT k] s t ∧ MemKept s t := by
  have hl : 1 - k.val = l.val := by omega
  have hswitch : domainCheck (declaredLost k (s.dev.elapse dt)) = withSwitch (some l.val) (declaredLost k (s.dev.elapse dt)) := by
    have hcheck := domainCheck_switches (d := declaredLost k (s.dev.elapse dt))
    rw [declaredLost_act, hact, hl, declaredLost_ctl s dt k (g := F.TIME_CTL_SRC) (by simp), declaredLost_lost,
      declaredLost_peer hkl s dt (g := F.TIME_DOM_STAT_QUAL l) rfl] at hcheck
    exact hcheck hsrc rfl hq
  obtain ⟨hnext, hregs, hmem⟩ := domainLost_command hready hen hlost hlate hswitch (withSwitch_calm _ _) (endRegs_domStat k)
  refine ⟨_, hnext, ?_, ?_, by rw [State.after_tm, withSwitch_to], hregs, hmem⟩
  · rw [State.after_get, (withSwitch_calm _ _).regs.get_eq (g := F.TIME_DOM_STAT_LOST k) (by simp), declaredLost_lost]
  · rw [State.after_get, (withSwitch_calm _ _).regs.get_eq (g := F.TIME_DOM_STAT_QUAL k) (by simp), declaredLost_qual]

theorem domainLost_both
    (hact : (actDom s.dev = k ∧ s.dev.get (F.TIME_DOM_STAT_QUAL l) = 0) ∨ (actDom s.dev = l ∧ s.dev.get (F.TIME_DOM_STAT_LOST l) = 1))
    (hsrc : s.dev.get F.TIME_CTL_SRC = 0) (hhold : s.dev.get F.TIME_STAT_HOLDOVER = 0) :
    ∃ t, exec (.domainLost dt k) s = .next t ∧ t.dev.get (F.TIME_DOM_STAT_LOST k) = 1
      ∧ t.dev.get F.TIME_STAT_HOLDOVER = 1 ∧ t.dev.get F.TIME_STAT_LOCKED = 0
      ∧ t.dev.get F.TIME_FREQ_FREQ = ofSigned 32 s.dev.tm.iq ∧ t.dev.tm.switchTo = none ∧ EventSet t 0x08 10
      ∧ RegsKept ([R.TIME_DOM_STAT k, R.TIME_STAT, R.TIME_FREQ, R.CNT_EVT_DROP] ++ eventRegs 0x08) s t ∧ MemKept s t := by
  have hheld : domainCheck (declaredLost k (s.dev.elapse dt)) = holdover (withSwitch none (declaredLost k (s.dev.elapse dt))) := by
    have hcheck := domainCheck_holds (d := declaredLost k (s.dev.elapse dt))
    rw [declaredLost_act, declaredLost_ctl s dt k (g := F.TIME_CTL_SRC) (by simp)] at hcheck
    rcases hact with ⟨hk, hq⟩ | ⟨hl, hlostL⟩
    · rw [hk, show 1 - k.val = l.val by omega, declaredLost_lost, declaredLost_peer hkl s dt (g := F.TIME_DOM_STAT_QUAL l) rfl] at hcheck
      exact hcheck hsrc rfl hq
    · rw [hl, show 1 - l.val = k.val by omega, declaredLost_qual, declaredLost_peer hkl s dt (g := F.TIME_DOM_STAT_LOST l) rfl] at hcheck
      exact hcheck hsrc hlostL rfl
  have hswitch := withSwitch_calm none (declaredLost k (s.dev.elapse dt))
  have hfree : (withSwitch none (declaredLost k (s.dev.elapse dt))).get F.TIME_STAT_HOLDOVER = 0 := by
    rw [hswitch.regs.get_eq (g := F.TIME_STAT_HOLDOVER) (by simp), declaredLost_ctl s dt k (by simp), hhold]
  have hcalm := (hswitch.mono (List.nil_subset _)).trans (holdover_calm hfree)
  obtain ⟨hin, hlocked, hfreq, hevent⟩ := holdover_read hfree
  obtain ⟨hnext, hregs, hmem⟩ := domainLost_command hready hen hlost hlate hheld hcalm (endRegs_holdover k)
  refine ⟨_, hnext, ?_, hin, hlocked, hfreq, ?_, hevent, hregs, hmem⟩
  · rw [State.after_get, hcalm.regs.get_eq (g := F.TIME_DOM_STAT_LOST k) (domStat_notHoldover k), declaredLost_lost]
  · rw [State.after_tm, holdover_tm hfree, withSwitch_to]
end

/-- Settles O7: each command has its effect (`timeSet_calm`, `switchAsked`, `domainLost_standby`, `domainLost_active`,
`domainLost_both`, `ptpTx_command`), and the frames sent are read field by field. -/
theorem timeCommands : Obligations.TimeCommands := by
  unfold Obligations.TimeCommands
  intro dt k l s hready hkl
  refine ⟨fun hplan => ?set, fun hplan hvalid => ?refused, ?actDom, fun hen hlost hlate => ?lost,
    fun hen => ⟨fun hbc => ?sync, fun typ htyp => ?request⟩⟩
  case set =>
    obtain ⟨hnext, hregs, hmem⟩ :=
      perform_effect (dt := dt) hready rfl (timeSet_calm (d := s.dev.elapse dt) hplan) (by decide)
    exact ⟨_, hnext, timeSet_clk (d := s.dev.elapse dt) hplan, hregs, hmem⟩
  case refused =>
    have hput : Calm (R.TIME_STAT :: faultRegs 0x08) (s.dev.elapse dt) ((s.dev.elapse dt).put F.TIME_STAT_SET_REFUSED 1) :=
      (Calm.refl _ _).put _ (by simp)
    have hfault := (Kept.refl (faultRegs 0x08) ((s.dev.elapse dt).put F.TIME_STAT_SET_REFUSED 1)).pgFault 0x08 0x01 (R.TIME_CTL % 0x1000)
      (List.Subset.refl _)
    obtain ⟨hnext, hregs, hmem⟩ := perform_effect (dt := dt) hready (timeSet_refused (d := s.dev.elapse dt) hplan)
      (hput.pgFault 0x08 0x01 (R.TIME_CTL % 0x1000) (List.subset_cons_self ..)) (by decide)
    refine ⟨_, hnext, ?_, ?_, ?_, hregs, hmem⟩
    · rw [State.after_clk, Dev.pgFault_clk, Dev.put_clk]
    · rw [State.after_get, hfault.get_eq (g := F.TIME_STAT_SET_REFUSED) (by decide)]
      exact Dev.get_put_same _ _ _ (by decide)
    · rw [State.after_get]
      refine Dev.pgFault_code _ _ _ _ ?_ (by decide)
      rw [Dev.get_put_apart _ _ _ _ (by decide) (.inl (by decide))]
      exact hvalid
  case actDom =>
    by_cases hsame : s.dev.get F.TIME_CTL_ACT_DOM = k
    · obtain ⟨hnext, hregs, hmem⟩ := perform_effect (dt := dt) hready (timeActDom_same (d := s.dev.elapse dt) hsame k.isLt)
        (.refl [R.TIME_CTL] _) (by decide)
      exact ⟨_, hnext, hsame, (if_pos hsame).symm, rfl, hregs, hmem⟩
    · obtain ⟨hnext, hregs, hmem⟩ := perform_effect (dt := dt) hready (timeActDom_other (d := s.dev.elapse dt) hsame k.isLt)
        (switchAsked_calm k _) (by decide)
      refine ⟨_, hnext, switchAsked_field k.isLt, (if_neg hsame).symm, ?_, hregs, hmem⟩
      unfold actDom
      rw [State.after_getB, (switchAsked_calm k _).regs.getB_eq (g := F.TIME_DOM_STAT_ACTIVE 1) (by decide)]
      rfl
  case lost =>
    exact ⟨domainLost_standby hready hkl hen hlost hlate, domainLost_active hready hkl hen hlost hlate,
      domainLost_both hready hkl hen hlost hlate⟩
  case sync =>
    obtain ⟨t, hnext, hregs, hmem, hdom, hsend⟩ :=
      ptpTx_command (typ := 0) hready (ptpTx_sync (d := s.dev.elapse dt) (k := k.val) hen hbc)
    refine ⟨t, hnext, ?_, ?_, hregs, hmem⟩
    · rcases hdom with h | h <;> exact congrArg Dom.txSeq h
    · rintro q n rfl hnow htr rfl
      obtain ⟨fr, o, hin, hwire⟩ := hsend hnow htr (by rw [(ownSync_read _ _).1]; decide)
      exact ⟨_, o, hwire, ownSync_leaves hin _ _ _⟩
  case request =>
    have htyp' : typ.val = 1 ∨ typ.val = 2 := by omega
    obtain ⟨t, hnext, hregs, hmem, hdom, hsend⟩ :=
      ptpTx_command hready (ptpTx_request (d := s.dev.elapse dt) (k := k.val) hen htyp)
    refine ⟨t, hnext, ?_, ?_, ?_, ?_, hregs, hmem⟩
    · rcases hdom with h | h <;> exact congrArg Dom.reqOut h
    · rcases hdom with h | h <;> exact congrArg Dom.reqSeq h
    · rcases hdom with h | h <;> exact congrArg Dom.t3 h
    · rintro q rfl hnow htr
      obtain ⟨fr, o, hin, hwire⟩ := hsend hnow htr (ownRequest_read _ htyp' _).1.2
      exact ⟨_, o, hwire, ownRequest_leaves htyp' hin _ _ _⟩

end Sys2Proof.Machine
end

section
/-! SUPPORT. A Sync of the standby domain (R66, R69, R70): what it measures, and what the clock does not do. -/
namespace Sys2Proof.Machine

/-- Of two steps the one that changes something. -/
theorem forN_two_only {α : Type} {f : Nat → α → α} {a : α} {k l : Fin 2} (hkl : k ≠ l) (h0 : f l a = a) (h1 : f l (f k a) = f k a) :
    forN 2 f a = f k a := by
  change f 1 (f 0 a) = f k a
  fin_cases k <;> fin_cases l
  · exact absurd rfl hkl
  · exact h1
  · exact congrArg (f 1) h0
  · exact absurd rfl hkl

theorem ptpForDomain_other {d : Dev} {dn l : Nat} (h : d.get (F.TIME_DOM_CFG_DOMAIN l) ≠ dn) : ptpForDomain none dn l d = false := by
  unfold ptpForDomain
  simp [h]

theorem ptpForDomain_own {d : Dev} {dn k : Nat} (hen : d.get (F.TIME_DOM_CFG_EN k) = 1) (h : d.get (F.TIME_DOM_CFG_DOMAIN k) = dn) :
    ptpForDomain none dn k d = true := by
  unfold ptpForDomain
  simp [Dev.getB_of_get_one hen, h]

/-- Domain state `x` with the time and fields of a one-step Sync that arrives at `now`, received at `rx` (R69). -/
def Dom.syncSeen (seq : Nat) (rx corr : Int) (now : Nat) (x : Dom) : Dom :=
  { x with syncSeq := seq, syncRx := rx, syncCorr := corr, syncTwo := false, syncAt := now }

/-- The same with the Sync's own times. -/
def Dom.measured (t1 t2 : Int) (x : Dom) : Dom := { x with t1 := t1, t2 := t2, synced := true }

/-- One more consecutive valid sample (R70). -/
def Dom.oneGood (x : Dom) : Dom := { x with good := x.good + 1 }

/-- Domain `k` with one more sample `th`, before what that does to QUAL (R66). -/
def sampled (k : Nat) (th : Int) (d : Dev) : Dev := (d.setDom k (d.dom k).oneGood).putI (F.TIME_DOM_OFS_OFS k) (satS 32 (th / 256))

/-- Domain `k` qualified (R70). -/
def qualified (k : Nat) (d : Dev) : Dev := (d.put (F.TIME_DOM_STAT_QUAL k) 1).put (F.TIME_DOM_STAT_LOST k) 0

section
variable {d : Dev} {k : Nat} {th : Int}

theorem actDom_of_get {d e : Dev} (h : e.getB (F.TIME_DOM_STAT_ACTIVE 1) = d.getB (F.TIME_DOM_STAT_ACTIVE 1)) : actDom e = actDom d := by
  unfold actDom
  rw [h]

theorem sampled_calm (k : Nat) (th : Int) (d : Dev) : Calm [R.TIME_DOM_OFS k] d (sampled k th d) :=
  have hset : Calm [R.TIME_DOM_OFS k] d (d.setDom k (d.dom k).oneGood) := ⟨.of_regs rfl, rfl, rfl, rfl, rfl, rfl, rfl, rfl⟩
  hset.put (g := F.TIME_DOM_OFS_OFS k) _ (by simp)

theorem sampled_dom (k : Nat) (th : Int) (d : Dev) : (sampled k th d).dom k = (d.dom k).oneGood := Dev.dom_setDom_same ..

theorem sampled_clk (k : Nat) (th : Int) (d : Dev) : (sampled k th d).clk = d.clk := rfl

theorem sampled_ofs (k : Nat) (th : Int) (d : Dev) : (sampled k th d).getI (F.TIME_DOM_OFS_OFS k) = satS 32 (th / 256) :=
  Dev.getI_putI_satS (d.setDom k (d.dom k).oneGood) (F.TIME_DOM_OFS_OFS k) _ (by simp) (by simp)

theorem qualified_calm (k : Nat) (d : Dev) : Calm [R.TIME_DOM_STAT k] d (qualified k d) :=
  ((Calm.refl [R.TIME_DOM_STAT k] d).put (g := F.TIME_DOM_STAT_QUAL k) 1 (by simp)).put (g := F.TIME_DOM_STAT_LOST k) 0 (by simp)

theorem qualified_dom (k j : Nat) (d : Dev) : (qualified k d).dom j = d.dom j := rfl

theorem qualified_clk (k : Nat) (d : Dev) : (qualified k d).clk = d.clk := rfl

theorem qualified_qual (k : Nat) (d : Dev) : (qualified k d).get (F.TIME_DOM_STAT_QUAL k) = 1 :=
  (Dev.get_put_apart (d.put (F.TIME_DOM_STAT_QUAL k) 1) (F.TIME_DOM_STAT_LOST k) (F.TIME_DOM_STAT_QUAL k) 0 (by simp)
    (.inr (.inr (by simp)))).trans (Dev.get_put_same d (F.TIME_DOM_STAT_QUAL k) 1 (by simp))

theorem qualified_actDom (k : Nat) (d : Dev) : actDom (qualified k d) = actDom d :=
  actDom_of_get
    ((Dev.getB_put_apart (d.put (F.TIME_DOM_STAT_QUAL k) 1) (F.TIME_DOM_STAT_LOST k) (F.TIME_DOM_STAT_ACTIVE 1) 0 (by simp)
      (.inr (.inl (by simp)))).trans
      (Dev.getB_put_apart d (F.TIME_DOM_STAT_QUAL k) (F.TIME_DOM_STAT_ACTIVE 1) 1 (by simp) (.inr (.inl (by simp)))))

end

/-- What a sample of a domain that the clock does not follow does, with no way back to domain 0 asked for and no holdover to end:
it is shown, and counts towards QUAL_N. -/
theorem offsetSample_standby {k l : Fin 2} (hkl : k ≠ l) {d : Dev} (hact : actDom d = l) (hrevert : d.get F.TIME_CTL_REVERT = 0)
    (hhold : d.get F.TIME_STAT_HOLDOVER = 0) (th : Int) :
    offsetSample k th d = if d.get (F.TIME_DOM_CFG_QUAL_N k) ≤ (d.dom k).good + 1 ∧ d.getB (F.TIME_DOM_STAT_QUAL k) = false
      then qualified k (sampled k th d) else sampled k th d := by
  have hapart : ∀ k : Fin 2, ∀ a ∈ [R.TIME_CTL, R.TIME_STAT, R.TIME_DOM_STAT 1, R.TIME_DOM_STAT k, R.TIME_DOM_CFG k],
      a ∉ [R.TIME_DOM_OFS k] := by decide
  have hapart' : ∀ k : Fin 2, ∀ a ∈ [R.TIME_CTL, R.TIME_STAT], a ∉ [R.TIME_DOM_STAT k] := by decide
  have hs := (sampled_calm k th d).regs
  have hq := (qualified_calm k (sampled k th d)).regs
  have hactS : actDom (sampled k th d) = l := (actDom_of_get (hs.getB_eq (hapart k _ (by simp)))).trans hact
  have hactQ : actDom (qualified k (sampled k th d)) = l := (qualified_actDom ..).trans hactS
  have hne : k.val ≠ l.val := by omega
  unfold offsetSample
  extract_lets x d1 d2 qn fresh d3 ring d4 tm1 dq tm2 dr
  have hfresh : fresh = true ↔ d.get (F.TIME_DOM_CFG_QUAL_N k) ≤ (d.dom k).good + 1 ∧ d.getB (F.TIME_DOM_STAT_QUAL k) = false := by
    have hqn : qn = d.get (F.TIME_DOM_CFG_QUAL_N k) := hs.get_eq (hapart k _ (by simp))
    have hqual : d2.getB (F.TIME_DOM_STAT_QUAL k) = d.getB (F.TIME_DOM_STAT_QUAL k) := hs.getB_eq (hapart k _ (by simp))
    rw [← hqn, ← hqual, Bool.and_eq_true, decide_eq_true_iff, Bool.not_eq_true']
  have hholdQ : d3.getB F.TIME_STAT_HOLDOVER = false :=
    (hq.getB_eq (hapart' k _ (by simp))).trans ((hs.getB_eq (hapart k _ (by simp))).trans (Dev.getB_of_get_zero hhold))
  have hdq : dq = if fresh = true then qualified k (sampled k th d) else sampled k th d :=
    if_congr Iff.rfl ((if_neg (by rw [show actDom d3 = l from hactQ]; exact hne)).trans (if_neg (by rw [hholdQ]; simp))) rfl
  have hactD : actDom dq = l := by
    rw [hdq]
    split
    · exact hactQ
    · exact hactS
  have hrevertD : dq.getB F.TIME_CTL_REVERT = false := by
    have hrevertS := (hs.getB_eq (g := F.TIME_CTL_REVERT) (hapart k _ (by simp))).trans (Dev.getB_of_get_zero hrevert)
    rw [hdq]
    split
    · exact (hq.getB_eq (hapart' k _ (by simp))).trans hrevertS
    · exact hrevertS
  have hdr : dr = dq := if_neg (by rw [hrevertD]; simp)
  rw [hdr, hdq, if_neg (by rw [← hdq, hactD]; simp [hne])]
  exact if_congr hfresh rfl rfl

/-- A complete Sync of a domain whose path delay is known gives an offset sample (R66). -/
theorem syncComplete_known {k : Nat} {t1 t2 m : Int} {d : Dev} (hm : (d.dom k).mpd = some m) :
    syncComplete k t1 t2 d = offsetSample k (t1 + m - t2) (d.setDom k ((d.dom k).measured t1 t2)) := by
  have hmpd : ((d.setDom k ((d.dom k).measured t1 t2)).dom k).mpd = some m := by
    rw [Dev.dom_setDom_same]
    exact hm
  unfold syncComplete
  extract_lets x e
  rw [show (e.dom k).mpd = some m from hmpd]
  rfl

/-- Domain `k` with a one-step Sync `bs` received on port `q` (R69). -/
def syncArrived (k q : Nat) (bs : List Byte) (d : Dev) : Dev :=
  d.setDom k ((d.dom k).syncSeen (beAt bs 30 2) (rxStamp d q) (toSigned 64 (beAt bs 8 8)) d.now)

/-- The same with the times that the Sync gives, before its offset sample (R66). -/
def syncTaken (k q : Nat) (bs : List Byte) (d : Dev) : Dev :=
  (syncArrived k q bs d).setDom k (((syncArrived k q bs d).dom k).measured (ptpTime bs 34 + toSigned 64 (beAt bs 8 8)) (rxStamp d q))

section
variable {k q : Nat} {bs : List Byte} {d : Dev}

theorem syncArrived_dom (k q : Nat) (bs : List Byte) (d : Dev) : (syncArrived k q bs d).dom k
    = (d.dom k).syncSeen (beAt bs 30 2) (rxStamp d q) (toSigned 64 (beAt bs 8 8)) d.now := Dev.dom_setDom_same ..

theorem syncTaken_calm (k q : Nat) (bs : List Byte) (d : Dev) : Calm [] d (syncTaken k q bs d) :=
  ⟨.of_regs rfl, rfl, rfl, rfl, rfl, rfl, rfl, rfl⟩

theorem syncTaken_dom (k q : Nat) (bs : List Byte) (d : Dev) :
    ((syncTaken k q bs d).dom k).good = (d.dom k).good ∧ ((syncTaken k q bs d).dom k).syncAt = d.now := by
  unfold syncTaken
  rw [Dev.dom_setDom_same, syncArrived_dom]
  exact ⟨rfl, rfl⟩

theorem syncTaken_clk (k q : Nat) (bs : List Byte) (d : Dev) : (syncTaken k q bs d).clk = d.clk := rfl

/-- A one-step Sync of the parent, on the slave port of a domain whose path delay `m` is known, gives an offset sample (R66, R69). -/
theorem ptpDomain_sync {m : Int} (htyp : byteAt bs 0 % 16 = 0) (hone : bit (byteAt bs 6) 1 = false)
    (hport : d.get (F.TIME_DOM_CFG_PORT k) = q) (hparent : beAt bs 20 10 = parentOf d k) (hm : (d.dom k).mpd = some m) :
    ptpDomain k q bs d
      = offsetSample k (ptpTime bs 34 + toSigned 64 (beAt bs 8 8) + m - rxStamp d q) (syncTaken k q bs d) := by
  have hmpd : ((syncArrived k q bs d).dom k).mpd = some m := by
    rw [syncArrived_dom]
    exact hm
  unfold ptpDomain
  simp only [htyp, hport, hparent, beq_self_eq_true, Bool.and_self, Bool.not_true, Bool.false_eq_true, if_false, hone]
  exact syncComplete_known hmpd
end

end Sys2Proof.Machine
end

section
/-! SUPPORT. The answer to a peer-delay request (R69, R76). -/
namespace Sys2Proof.Machine

/-- What a corrected message says: its correctionField, and everything else as before. -/
theorem corrected_read {m : List Byte} (c : Int) (hm : 44 ≤ m.length) :
    beAt (corrected c m) 8 8 = ofSigned 64 (toSigned 64 (beAt m 8 8) + c)
      ∧ ∀ p n, p + n ≤ 8 ∨ 16 ≤ p → beAt (corrected c m) p n = beAt m p n := by
  refine ⟨(beAt_putBe_same (by omega)).trans (ofSigned_mod 64 _), fun p n hp => ?_⟩
  rcases hp with hp | hp
  · exact beAt_putBe_before (by omega) hp
  · exact beAt_putBe_after (by omega) hp

/-- The Pdelay_Resp that answers the request `bs` on port `q`. -/
def ownAnswer (q : Nat) (bs : List Byte) (d : Dev) : List Byte :=
  ptpMessage 3 (byteAt bs 4) (beAt bs 8 8) (ownIdentity d q) (beAt bs 30 2) 5 0x7F (beBytes 10 0 ++ (bs.drop 20).take 10)

/-- The answer gives back the request's domain, correction, sequence and requester. -/
theorem ownAnswer_read {bs : List Byte} (hbs : 44 ≤ bs.length) (q : Nat) (d : Dev) :
    (ownAnswer q bs d).length = 54 ∧ beAt (ownAnswer q bs d) 0 1 = 3 ∧ beAt (ownAnswer q bs d) 4 1 = byteAt bs 4
      ∧ beAt (ownAnswer q bs d) 8 8 = beAt bs 8 8 ∧ beAt (ownAnswer q bs d) 30 2 = beAt bs 30 2
      ∧ beAt (ownAnswer q bs d) 44 10 = beAt bs 20 10 := by
  obtain ⟨hlen, htyp, hdom, hcorr, -, hseq, htail⟩ := ptpMessage_read 3 (byteAt bs 4) (beAt bs 8 8) (ownIdentity d q) (beAt bs 30 2) 5 0x7F
    (beBytes 10 0 ++ (bs.drop 20).take 10)
  refine ⟨hlen.trans ?_, htyp, hdom.trans (Nat.mod_eq_of_lt ?_), hcorr.trans (Nat.mod_eq_of_lt (beAt_lt bs 8 8)),
    hseq.trans (Nat.mod_eq_of_lt (beAt_lt bs 30 2)), (htail 10 10).trans ?_⟩
  · rw [List.length_append, beBytes_length, List.length_take, List.length_drop]
    omega
  · rw [byteAt_eq_beAt]
    exact beAt_lt bs 4 1
  · rw [beAt_skip (le_refl _), Nat.sub_self, beAt_take (by omega), beAt_drop]

/-- A peer-delay request noted among the latest received (R76). -/
def requestNoted (r : Nat × Nat × Nat × Int) (d : Dev) : Dev := { d with tm := { d.tm with pdReq := (r :: d.tm.pdReq).take 16 } }

section
variable {q : Nat} {bs : List Byte} {d : Dev}

theorem requestNoted_calm (r : Nat × Nat × Nat × Int) (d : Dev) : Calm [] d (requestNoted r d) :=
  ⟨.of_regs rfl, rfl, rfl, rfl, rfl, rfl, rfl, rfl⟩

/-- A request for the one domain `k` that uses its number is answered by that domain's transport. -/
theorem ptpRx_request {k l : Fin 2} (hkl : k ≠ l) (hlen : 44 ≤ bs.length) (hversion : byteAt bs 1 % 16 = 2) (htyp : byteAt bs 0 % 16 = 2)
    (hen : d.get (F.TIME_DOM_CFG_EN k) = 1) (hdom : d.get (F.TIME_DOM_CFG_DOMAIN k) = byteAt bs 4)
    (hother : d.get (F.TIME_DOM_CFG_DOMAIN l) ≠ byteAt bs 4) (hp2p : d.get (F.TIME_DOM_CFG_P2P k) = 1) :
    ptpRx none q bs d = ptpSend (d.get (F.TIME_DOM_CFG_TRANSPORT k)) q true (ownAnswer q bs d)
      (requestNoted (q, beAt bs 20 10, beAt bs 30 2, rxStamp d q) d) := by
  have hk (r : Nat × Nat × Nat × Int) : (ptpForDomain none (byteAt bs 4) k (requestNoted r d)
      && (requestNoted r d).getB (F.TIME_DOM_CFG_P2P k)) = true := by
    rw [ptpForDomain_own (d := requestNoted r d) hen hdom, show (requestNoted r d).getB _ = true from Dev.getB_of_get_one hp2p]
    rfl
  have hl (r : Nat × Nat × Nat × Int) : (ptpForDomain none (byteAt bs 4) l (requestNoted r d)
      && (requestNoted r d).getB (F.TIME_DOM_CFG_P2P l)) = false := by
    rw [ptpForDomain_other (d := requestNoted r d) hother, Bool.false_and]
  have hfind (r : Nat × Nat × Nat × Int) : pdelayDomain none (byteAt bs 4) (requestNoted r d) = some k.val := by
    unfold pdelayDomain
    fin_cases k <;> fin_cases l
    · exact absurd rfl hkl
    · exact List.find?_cons_of_pos (hk r)
    · exact (List.find?_cons_of_neg (by rw [hl r]; decide)).trans (List.find?_cons_of_pos (hk r))
    · exact absurd rfl hkl
  unfold ptpRx
  rw [if_neg (by omega), if_pos htyp]
  extract_lets r tm e
  rw [show pdelayDomain none (byteAt bs 4) e = some k.val from hfind r]
  rfl

/-- What leaves of the answer to the latest request (R69, R76). -/
theorem ownAnswer_leaves {fr : List Byte} {o tr : Nat} (hbs : 44 ≤ bs.length) (h : PtpIn fr o tr (ownAnswer q bs d)) (t rx : Int)
    (l : List (Nat × Nat × Nat × Int)) :
    PtpFrame (ptpStamp q t ((q, beAt bs 20 10, beAt bs 30 2, rx) :: l) fr) o tr 3 (byteAt bs 4) (beAt bs 30 2)
      ∧ beAt (ptpStamp q t ((q, beAt bs 20 10, beAt bs 30 2, rx) :: l) fr) (o + 44) 10 = beAt bs 20 10
      ∧ beAt (ptpStamp q t ((q, beAt bs 20 10, beAt bs 30 2, rx) :: l) fr) (o + 8) 8
          = ofSigned 64 (toSigned 64 (beAt bs 8 8) + (t - rx)) := by
  obtain ⟨hlen, htyp, hdom, hcorr, hseq, hident⟩ := ownAnswer_read hbs q d
  obtain ⟨hcorr', hkept⟩ := corrected_read (m := ownAnswer q bs d) (t - rx) (by omega)
  have hlen' : (corrected (t - rx) (ownAnswer q bs d)).length = 54 := (corrected_length (by omega)).trans hlen
  have hstamp := h.stampResp hlen.ge (by rw [htyp]) q t rx l
  rw [hident, hseq] at hstamp
  have hframe := hstamp.frame (by omega)
  rw [hkept 0 1 (by decide), hkept 4 1 (by decide), hkept 30 2 (by decide), htyp, hdom, hseq] at hframe
  refine ⟨hframe, (hstamp.read (by omega)).trans ((hkept 44 10 (by decide)).trans hident), (hstamp.read (by omega)).trans ?_⟩
  rw [hcorr', hcorr]
end

end Sys2Proof.Machine
end

section
/-! SUPPORT. Received PTP messages complete as R66, R69, R70 and R76 say. -/
namespace Sys2Proof.Machine

theorem endRegs_sample : ∀ k : Fin 2, ∀ a ∈ endRegs, a ∉ [R.TIME_DOM_OFS k, R.TIME_DOM_STAT k] := by decide

theorem sampleRegs_config : ∀ k l : Fin 2, R.TIME_DOM_CFG l ∉ [R.TIME_DOM_OFS k, R.TIME_DOM_STAT k] := by decide

/-- A sample of the standby domain, with what it does to QUAL (R70). -/
def sampleCounted (k : Nat) (th : Int) (d : Dev) : Dev :=
  if d.get (F.TIME_DOM_CFG_QUAL_N k) ≤ (d.dom k).good + 1 ∧ d.getB (F.TIME_DOM_STAT_QUAL k) = false
    then qualified k (sampled k th d) else sampled k th d

theorem sampleCounted_calm (k : Nat) (th : Int) (d : Dev) : Calm [R.TIME_DOM_OFS k, R.TIME_DOM_STAT k] d (sampleCounted k th d) :=
  have hs : Calm [R.TIME_DOM_OFS k, R.TIME_DOM_STAT k] d (sampled k th d) := (sampled_calm k th d).mono (by simp)
  .ite (hs.trans ((qualified_calm k _).mono (by simp))) hs

theorem sampleCounted_dom (k : Nat) (th : Int) (d : Dev) : (sampleCounted k th d).dom k = (d.dom k).oneGood := by
  unfold sampleCounted
  split
  · rw [qualified_dom, sampled_dom]
  · rw [sampled_dom]

theorem sampleCounted_clk (k : Nat) (th : Int) (d : Dev) : (sampleCounted k th d).clk = d.clk := by
  unfold sampleCounted
  split
  · rw [qualified_clk, sampled_clk]
  · rw [sampled_clk]

theorem sampleCounted_ofs (k : Nat) (th : Int) (d : Dev) : (sampleCounted k th d).getI (F.TIME_DOM_OFS_OFS k) = satS 32 (th / 256) := by
  unfold sampleCounted
  split
  · rw [Dev.getI, (qualified_calm k _).regs.get_eq (g := F.TIME_DOM_OFS_OFS k) (by simp)]
    exact sampled_ofs k th d
  · exact sampled_ofs k th d

theorem sampleCounted_qual (k : Nat) (th : Int) (d : Dev) : (sampleCounted k th d).get (F.TIME_DOM_STAT_QUAL k)
    = if d.get (F.TIME_DOM_CFG_QUAL_N k) ≤ (d.dom k).good + 1 then 1 else d.get (F.TIME_DOM_STAT_QUAL k) := by
  have hsame : (sampled k th d).get (F.TIME_DOM_STAT_QUAL k) = d.get (F.TIME_DOM_STAT_QUAL k) :=
    (sampled_calm k th d).regs.get_eq (by simp)
  unfold sampleCounted
  by_cases hn : d.get (F.TIME_DOM_CFG_QUAL_N k) ≤ (d.dom k).good + 1
  · rw [if_pos hn]
    by_cases hq : d.getB (F.TIME_DOM_STAT_QUAL k) = false
    · rw [if_pos ⟨hn, hq⟩, qualified_qual]
    · rw [if_neg (fun h => hq h.2), hsame]
      exact Dev.get_one_of_getB rfl (by simpa using hq)
  · rw [if_neg hn, if_neg (fun h => hn h.1), hsame]

/-- A one-step Sync of the standby domain is a sample of it, and of no other. -/
theorem ptpRx_sync {q k l : Fin 2} {msg : List Byte} {d : Dev} {m : Int} (hkl : k ≠ l) (hlen : 44 ≤ msg.length)
    (hversion : byteAt msg 1 % 16 = 2) (hen : d.get (F.TIME_DOM_CFG_EN k) = 1) (hdom : d.get (F.TIME_DOM_CFG_DOMAIN k) = byteAt msg 4)
    (hother : d.get (F.TIME_DOM_CFG_DOMAIN l) ≠ byteAt msg 4) (htyp : byteAt msg 0 % 16 = 0) (hone : bit (byteAt msg 6) 1 = false)
    (hport : d.get (F.TIME_DOM_CFG_PORT k) = q) (hparent : beAt msg 20 10 = parentOf d k) (hact : actDom d = l)
    (hrevert : d.get F.TIME_CTL_REVERT = 0) (hhold : d.get F.TIME_STAT_HOLDOVER = 0) (hm : (d.dom k).mpd = some m) :
    ptpRx none q msg d
      = sampleCounted k (ptpTime msg 34 + toSigned 64 (beAt msg 8 8) + m - rxStamp d q) (syncTaken k q msg d) := by
  have htaken : ptpDomain k q msg d
      = sampleCounted k (ptpTime msg 34 + toSigned 64 (beAt msg 8 8) + m - rxStamp d q) (syncTaken k q msg d) :=
    (ptpDomain_sync htyp hone hport hparent hm).trans (offsetSample_standby (d := syncTaken k q msg d) hkl hact hrevert hhold _)
  have hother' : (ptpDomain k q msg d).get (F.TIME_DOM_CFG_DOMAIN l) ≠ byteAt msg 4 := by
    rw [htaken, ((sampleCounted_calm k _ _).regs).get_eq (g := F.TIME_DOM_CFG_DOMAIN l) (sampleRegs_config k l)]
    exact hother
  have hown := ptpForDomain_own hen hdom
  unfold ptpRx
  rw [if_neg (by omega), if_neg (by omega), forN_two_only hkl, if_pos hown, htaken]
  · exact if_neg (by rw [ptpForDomain_other hother]; decide)
  · rw [if_pos hown]
    exact if_neg (by rw [ptpForDomain_other hother']; decide)

/-- Settles O5: the standby domain's Sync is one sample of it (`ptpRx_sync`), and the request's answer is read field by field
(`ownAnswer_leaves`). -/
theorem syncMeasuresTheStandbyDomain : Obligations.SyncMeasuresTheStandbyDomain := by
  unfold Obligations.SyncMeasuresTheStandbyDomain
  intro dt q k l msg s hready hkl hlen hversion hen hdom hother
  refine ⟨fun m th htyp hone hport hparent hact hrevert hhold hm hth => ?sync, fun htyp hp2p htr hnow => ?request⟩
  case sync =>
    have heffect := ptpRx_sync (d := s.dev.elapse dt) hkl hlen hversion hen hdom hother htyp hone hport hparent hact hrevert hhold hm
    rw [← hth] at heffect
    have htaken := syncTaken_calm k q msg (s.dev.elapse dt)
    obtain ⟨hgood, hat⟩ := syncTaken_dom k q msg (s.dev.elapse dt)
    obtain ⟨hnext, hregs, hmem⟩ := perform_effect hready heffect
      ((htaken.mono (List.nil_subset _)).trans (sampleCounted_calm k th _)) (endRegs_sample k)
    refine ⟨_, hnext, ?_, ?_, ?_, ?_, ?_, hregs, hmem⟩
    · exact sampleCounted_ofs k th _
    · rw [State.after_dom, sampleCounted_dom]
      exact hat
    · rw [State.after_dom, sampleCounted_dom]
      exact congrArg (· + 1) hgood
    · rw [State.after_get, sampleCounted_qual, hgood, htaken.regs.get_eq (g := F.TIME_DOM_CFG_QUAL_N k) (by simp),
        htaken.regs.get_eq (g := F.TIME_DOM_STAT_QUAL k) (by simp)]
      rfl
    · rw [State.after_clk, sampleCounted_clk, syncTaken_clk]
  case request =>
    have heffect := ptpRx_request (q := q.val) (d := s.dev.elapse dt) hkl hlen hversion htyp hen hdom hother hp2p
    obtain ⟨hsends, -⟩ := ptpSend_sends ((s.dev.elapse dt).get (F.TIME_DOM_CFG_TRANSPORT k)) q true (ownAnswer q msg (s.dev.elapse dt))
      (requestNoted (q, beAt msg 20 10, beAt msg 30 2, rxStamp (s.dev.elapse dt) q) (s.dev.elapse dt))
    obtain ⟨hnext, hregs, hmem⟩ := perform_effect hready heffect ((requestNoted_calm _ _).trans hsends.calm) (by simp)
    obtain ⟨fr, o, hwire, hin⟩ := ptpSend_wire (s := s)
      (d := requestNoted (q, beAt msg 20 10, beAt msg 30 2, rxStamp (s.dev.elapse dt) q) (s.dev.elapse dt)) hready.2.1.2.2 hnow htr true
      (m := ownAnswer q msg (s.dev.elapse dt)) (by rw [(ownAnswer_read hlen _ _).1]; decide)
    obtain ⟨hframe, hident, hcorr⟩ := ownAnswer_leaves hlen hin (txStamp (s.dev.elapse dt) q) (rxStamp (s.dev.elapse dt) q)
      ((s.dev.elapse dt).tm.pdReq.take 15)
    exact ⟨_, _, o, hnext, hwire, hframe, hident, hcorr, hregs, hmem⟩

end Sys2Proof.Machine
end

section
/-! SUPPORT. O9: before it looks at a frame, a command of an enabled port lets the position published by VENC be derived up to now
(R62). With no plan active the web still carries the marks of copies of ended plans on (R233): a mark whose point VENC has reached
leaves FIRE_STAT.REJ_PEND, which every frame of the statement lists as kept. -/
namespace Sys2Proof.Machine

/-- A frame received on a block that runs. -/
theorem exec_ethRxFrame_run (dt : Nat) (q : Fin 2) (fec : Nat) (ok : Bool) (fr : List Byte) (s : State) (h : s.dev.power = .run) :
    exec (.ethRxFrame dt q fec ok fr) s = .next (settle s (afterCommand (ethArrive q fec ok fr (s.dev.elapse dt)))) :=
  perform_run dt s (fun d => afterCommand (ethArrive q fec ok fr d)) h

/-- `markWaits` with Ethernet port 0 enabled and its link up. -/
def markWaitsOnPort : State :=
  { markWaits with dev := (markWaits.dev.put (F.PG_CTL_EN 0x0A) 1).put (F.ETH_LINK_LINK_UP 0) 1 }

/-- `markWaitsOnPort` once a frame that is too short has come on port 0, one sample instant of VENC later. -/
def markRisenOnPort : State :=
  settle markWaitsOnPort (afterCommand (ethArrive (0 : Fin 2) 0 true [] (markWaitsOnPort.dev.elapse 16000)))

set_option maxRecDepth 4000 in
theorem markWaitsOnPort_receives : Ready markWaitsOnPort ∧ markWaitsOnPort.dev.planActive = false
    ∧ markWaitsOnPort.dev.get (F.PG_CTL_EN (0x0A + (0 : Fin 2))) = 1 ∧ ethUp markWaitsOnPort.dev (0 : Fin 2) = true := by decide

theorem markWaitsOnPort_pending : markWaitsOnPort.dev.get F.FIRE_STAT_REJ_PEND = 1 := by decide

set_option maxRecDepth 20000 in
/-- The mark waits no longer (R233, R234). -/
theorem markRisenOnPort_pending : markRisenOnPort.dev.get F.FIRE_STAT_REJ_PEND = 0 := by decide

/-- Refutes O9: a frame that is too short arrives while the mark of a copy of an ended plan waits at a point that VENC has reached;
beside CNT_LEN the command changes FIRE_STAT, which counts one mark fewer. -/
theorem not_receivedFrames : ¬ Obligations.ReceivedFrames := by
  unfold Obligations.ReceivedFrames
  intro h
  obtain ⟨hready, hplan, hen, hup⟩ := markWaitsOnPort_receives
  obtain ⟨-, length, -⟩ := h 16000 0 [] markWaitsOnPort hready hplan hen hup
  obtain ⟨t, ht, -, kept, -⟩ := length (.inl (by decide))
  obtain rfl : markRisenOnPort = t := Host.Outcome.next.inj ((exec_ethRxFrame_run 16000 0 0 true [] markWaitsOnPort rfl).symm.trans ht)
  have same : markRisenOnPort.dev.get F.FIRE_STAT_REJ_PEND = markWaitsOnPort.dev.get F.FIRE_STAT_REJ_PEND := by
    unfold Dev.get
    rw [kept R.FIRE_STAT (by decide)]
  rw [markRisenOnPort_pending, markWaitsOnPort_pending] at same
  exact absurd same (by decide)

end Sys2Proof.Machine
end

section
/-! SUPPORT. O11: a snapshot whose check word does not match leaves the current one, and a new active that waits for it after a fault
of the old engine (cause 3) resumes from the one before (R99, log entry 112). It waits no longer then, though the clause of a
snapshot that is not sound says of every state that what it waits for stays. -/
namespace Sys2Proof.Machine

/-- A snapshot that arrives or times out on a block that runs. -/
theorem exec_snapshotComplete_run (dt : Nat) (sound : Bool) (s : State) (h : s.dev.power = .run) :
    exec (.snapshotComplete ⟨dt, sound⟩) s = .next (settle s (afterCommand (snapshotComplete sound (s.dev.elapse dt)))) :=
  perform_run dt s (fun d => afterCommand (snapshotComplete sound d)) h

/-- The reset state with a new active that waits, after a fault of the old engine, for the snapshot of beat 2, and holds that of
beat 1. -/
def snapAwaited : State :=
  { State.reset with dev := { Dev.reset with path := { Dev.reset.path with
      resume := some 3, cur := some { beat := 1 }, coming := some { beat := 2 } } } }

/-- `snapAwaited` once the snapshot of beat 2 has come with a check word that does not match. -/
def snapRefused : State := settle snapAwaited (afterCommand (snapshotComplete false (snapAwaited.dev.elapse 0)))

theorem snapAwaited_ready : Ready snapAwaited := by decide

theorem snapAwaited_resume : snapAwaited.dev.path.resume = some 3 := rfl

set_option maxRecDepth 20000 in
/-- The new active has resumed from the snapshot of beat 1 (R99). -/
theorem snapRefused_resume : snapRefused.dev.path.resume = none := by decide

/-- Refutes O11: a snapshot that is not sound arrives while a new active waits after a fault of the old engine; the new active
resumes from the one before, and waits no longer. -/
theorem not_portLinksAndHealth : ¬ Obligations.PortLinksAndHealth := by
  unfold Obligations.PortLinksAndHealth
  intro h
  obtain ⟨-, -, -, snapshot⟩ := h 0 0 false false false false snapAwaited snapAwaited_ready
  obtain ⟨-, ⟨t, ht, -, -, waits, -⟩, -⟩ := snapshot _ rfl
  obtain rfl : snapRefused = t := Host.Outcome.next.inj ((exec_snapshotComplete_run 0 false snapAwaited rfl).symm.trans ht)
  rw [snapRefused_resume, snapAwaited_resume] at waits
  exact absurd waits (by decide)

end Sys2Proof.Machine
end

section
/-! SUPPORT. PATH: its status, the decision on a switchover and the drill (R90, R91, R98, R100 to R103). -/
namespace Sys2Proof.Machine

theorem activePort_lt (d : Dev) : activePort d < 2 := Dev.get_lt d F.PATH_STAT_ACTIVE

theorem standbyPort_ne (d : Dev) : standbyPort d ≠ activePort d := by
  have := activePort_lt d
  unfold standbyPort
  omega

/-- One bit cleared: it reads 0, and the others read as before. -/
theorem bit_clearBit (x q k : Nat) : bit (clearBits x (2 ^ q)) k = (bit x k && decide (k ≠ q)) := by
  have hbit (w j : Nat) : bit w j = decide (bits w j 1 = 1) := Nat.testBit_eq_decide_div_mod_eq
  have hmask : clearBits x (2 ^ q) = setBits x q 1 0 := by
    unfold clearBits setBits
    rw [Nat.and_two_pow, Nat.testBit_eq_decide_div_mod_eq, Nat.zero_mod, Nat.zero_mul, Nat.add_zero]
    unfold bits
    have := Nat.mod_two_eq_zero_or_one (x / 2 ^ q)
    rcases this with h | h <;> simp [h]
  rw [hmask, hbit, hbit]
  rcases Nat.lt_trichotomy k q with h | rfl | h
  · rw [bits_setBits_below _ _ _ _ _ _ h, decide_eq_true h.ne, Bool.and_true]
  · rw [bits_setBits]
    simp
  · rw [bits_setBits_above _ _ _ _ _ _ h, decide_eq_true h.ne', Bool.and_true]

/-! ### Its status -/

/-- `p` is the state of PATH and the ports. -/
def withPath (p : PathSt) (d : Dev) : Dev := { d with path := p }

/-- The flags of PATH_STAT that follow the ports. -/
def pathFlags (d : Dev) : Dev :=
  (((d.putB F.PATH_STAT_STBY_HEALTHY (standbyHealthy d)).putB F.PATH_STAT_SOLO (!standbyHealthy d)).putB F.PATH_STAT_NO_PATH
    (!(ethUp d 0 || ethUp d 1))).putB F.PATH_STAT_UNDRILLED (d.get F.PATH_CFG_T_DRILL == 0)

/-- PATH with what its status notes: since when the standby is healthy (R101). -/
def healthNoted (d : Dev) : PathSt :=
  { d.path with healthyAt := if standbyHealthy d then some (d.path.healthyAt.getD d.now) else none }

theorem withPath_calm (p : PathSt) (d : Dev) : Calm [] d (withPath p d) := ⟨.of_regs rfl, rfl, rfl, rfl, rfl, rfl, rfl, rfl⟩

theorem withPath_get (p : PathSt) (d : Dev) (g : RegField) : (withPath p d).get g = d.get g := rfl

theorem pathFlags_calm (d : Dev) : Calm [R.PATH_STAT] d (pathFlags d) :=
  ((((Calm.refl [R.PATH_STAT] d).put (g := F.PATH_STAT_STBY_HEALTHY) _ (by simp)).put (g := F.PATH_STAT_SOLO) _ (by simp)).put
    (g := F.PATH_STAT_NO_PATH) _ (by simp)).put (g := F.PATH_STAT_UNDRILLED) _ (by simp)

theorem putB_kept {f : RegField} (d : Dev) (b : Bool) : Kept [f.addr] d (d.putB f b) := (Kept.refl _ d).put _ (by simp)

theorem pathFlags_path (d : Dev) : (pathFlags d).path = d.path := by
  unfold pathFlags Dev.putB
  simp only [Dev.put_path]

theorem pathFlags_now (d : Dev) : (pathFlags d).now = d.now := by
  unfold pathFlags Dev.putB
  simp only [Dev.put_now]

/-- PATH's status: the flags of PATH_STAT, and since when the standby is healthy. -/
theorem pathStatus_eq (d : Dev) : pathStatus d = withPath (healthNoted d) (pathFlags d) := by
  unfold pathStatus
  extract_lets h d1 d2 p
  have hdrill : d1.get F.PATH_CFG_T_DRILL = d.get F.PATH_CFG_T_DRILL :=
    ((putB_kept _ _).get_eq (by decide)).trans (((putB_kept _ _).get_eq (by decide)).trans ((putB_kept _ _).get_eq (by decide)))
  have hflags : d2 = pathFlags d := by
    unfold d2
    rw [hdrill]
    rfl
  have hpath : p = d.path := (congrArg Dev.path hflags).trans (pathFlags_path d)
  have hnow : d2.now = d.now := (congrArg Dev.now hflags).trans (pathFlags_now d)
  change withPath { p with healthyAt := if h then some (p.healthyAt.getD d2.now) else none } d2 = withPath (healthNoted d) _
  clear_value p d2
  subst hpath hflags
  rw [hnow]
  rfl

theorem pathStatus_calm (d : Dev) : Calm [R.PATH_STAT] d (pathStatus d) := by
  rw [pathStatus_eq]
  exact (pathFlags_calm d).trans ((withPath_calm _ _).mono (List.nil_subset _))

theorem pathStatus_path (d : Dev) : (pathStatus d).path = healthNoted d := by
  rw [pathStatus_eq]
  rfl
theorem pathStatus_now (d : Dev) : (pathStatus d).now = d.now := by
  rw [pathStatus_eq]
  exact pathFlags_now d

/-- A field of PATH_STAT that the status does not write. -/
theorem pathStatus_get {g : RegField} (d : Dev) (h0 : Apart F.PATH_STAT_STBY_HEALTHY g) (h1 : Apart F.PATH_STAT_SOLO g)
    (h2 : Apart F.PATH_STAT_NO_PATH g) (h3 : Apart F.PATH_STAT_UNDRILLED g) : (pathStatus d).get g = d.get g := by
  have hflags : (pathFlags d).get g = d.get g := by
    unfold pathFlags Dev.putB
    rw [Dev.get_put_apart _ _ _ _ (by decide) h3, Dev.get_put_apart _ _ _ _ (by decide) h2, Dev.get_put_apart _ _ _ _ (by decide) h1,
      Dev.get_put_apart _ _ _ _ (by decide) h0]
  rw [pathStatus_eq]
  exact hflags

theorem pathStatus_activePort (d : Dev) : activePort (pathStatus d) = activePort d :=
  pathStatus_get d (by decide) (by decide) (by decide) (by decide)

theorem Dev.getB_putB_same {f : RegField} (hf : f.lo + f.width ≤ 32) (hw : f.width = 1) (d : Dev) (b : Bool) : (d.putB f b).getB f = b := by
  have hfit : b2n b % 2 ^ f.width = b2n b := by
    rw [hw]
    exact Nat.mod_eq_of_lt (b2n_lt b)
  unfold Dev.getB Dev.putB
  rw [Dev.get_put_same _ _ _ hf, hfit]
  cases b <;> rfl

theorem pathStatus_solo (d : Dev) : (pathStatus d).getB F.PATH_STAT_SOLO = !standbyHealthy d := by
  have hflags : (pathFlags d).getB F.PATH_STAT_SOLO = !standbyHealthy d := by
    unfold pathFlags
    rw [Dev.putB, Dev.getB_put_apart _ _ _ _ (by decide) (by decide), Dev.putB, Dev.getB_put_apart _ _ _ _ (by decide) (by decide),
      Dev.getB_putB_same (by decide) rfl]
  rw [pathStatus_eq]
  exact hflags

/-- The standby's health is read from the ports' links, its island, its last check and its last duplicated message. -/
theorem standbyHealthy_congr {d e : Dev} (hact : activePort e = activePort d) (hlink : ethUp e (standbyPort d) = ethUp d (standbyPort d))
    (hbroken : bit e.path.broken (standbyPort d) = bit d.path.broken (standbyPort d))
    (hchecked : bit e.path.checked (standbyPort d) = bit d.path.checked (standbyPort d)) (hdup : e.path.dupAt = d.path.dupAt)
    (hnow : e.now = d.now) (htmo : e.get F.PATH_CFG_DUP_TMO = d.get F.PATH_CFG_DUP_TMO) : standbyHealthy e = standbyHealthy d := by
  have hport : standbyPort e = standbyPort d := by unfold standbyPort; rw [hact]
  unfold standbyHealthy
  simp only [hport, hlink, hbroken, hchecked, hdup, hnow, htmo]

theorem pathStatus_healthy (d : Dev) : standbyHealthy (pathStatus d) = standbyHealthy d := by
  have hkept := (pathStatus_calm d).regs
  have hlink : R.ETH_LINK (standbyPort d) ∉ [R.PATH_STAT] := by
    have hall : ∀ q, q < 2 → R.ETH_LINK q ∉ [R.PATH_STAT] := by decide
    exact hall _ (by unfold standbyPort; omega)
  have hpath := pathStatus_path d
  refine standbyHealthy_congr (pathStatus_activePort d) (hkept.getB_eq (g := F.ETH_LINK_LINK_UP _) hlink) ?_ ?_ ?_ (pathStatus_now d)
    (hkept.get_eq (by decide)) <;> rw [hpath] <;> rfl

/-! ### Decisions -/

/-- A switchover with cause `c` decided, or the lower code of one decided before; a fault cancels what is left of a drill (R98,
R100). -/
def switchDecided (c : Nat) (p : PathSt) : PathSt :=
  { p with decided := some (min (p.decided.getD c) c), drill := p.drill && decide (3 < c), post := if c ≤ 3 then none else p.post }

/-- The switchover whose new active still waits for its snapshot has cause `c`, unless its own code is lower (R100). -/
def causeLowered (c : Nat) (p : PathSt) : PathSt := { p with resume := p.resume.map (min c), drill := false }

/-- PATH goes on with `p`, and its status follows. -/
theorem pathStatus_with_calm (p : PathSt) (d : Dev) : Calm [R.PATH_STAT] d (pathStatus (withPath p d)) :=
  ((withPath_calm p d).mono (List.nil_subset _)).trans (pathStatus_calm _)

section
variable {c : Nat} {d : Dev} (hen : d.get (F.PG_CTL_EN 0x0C) = 1) (hauto : c ≤ 3 → d.get F.PATH_CFG_AUTO_SW = 1)
include hen hauto

theorem pathDecide_on : (!d.enabled 0x0C || (decide (c ≤ 3) && !d.getB F.PATH_CFG_AUTO_SW)) = false := by
  rw [show d.enabled 0x0C = true from Dev.getB_of_get_one hen]
  by_cases hc : c ≤ 3
  · rw [Dev.getB_of_get_one (hauto hc)]
    simp
  · simp [hc]

theorem pathDecide_takes (hresume : c ≤ 3 → d.path.resume = none) (hh : standbyHealthy d = true) :
    pathDecide c d = pathStatus (withPath (switchDecided c d.path) d) := by
  have hdecided : (match d.path.decided with
      | some x => min x c
      | none => c) = min (d.path.decided.getD c) c := by
    cases d.path.decided with
    | none => exact (min_self c).symm
    | some x => rfl
  unfold pathDecide switchDecided
  rw [if_neg (by rw [pathDecide_on hen hauto]; decide), if_neg (fun h => by simp [hresume h.1] at h), if_neg (by simp [hh]), ← hdecided]
  rfl

theorem pathDecide_refuses (hresume : c ≤ 3 → d.path.resume = none) (hh : standbyHealthy d = false) :
    pathDecide c d = (pathStatus d).raise 0x0C 1 := by
  unfold pathDecide
  rw [if_neg (by rw [pathDecide_on hen hauto]; decide), if_neg (fun h => by simp [hresume h.1] at h), if_pos (by simp [hh])]

theorem pathDecide_lowers (hc : c ≤ 3) {k : Nat} (hresume : d.path.resume = some k) :
    pathDecide c d = pathStatus (withPath (causeLowered c d.path) d) := by
  unfold pathDecide
  rw [if_neg (by rw [pathDecide_on hen hauto]; decide), if_pos ⟨hc, by rw [hresume]; rfl⟩]
  rfl
end

/-- The standby is refused: its event is raised (R98). -/
theorem refused_calm (d : Dev) : Calm (R.PATH_STAT :: eventRegs 0x0C) d ((pathStatus d).raise 0x0C 1) :=
  ((pathStatus_calm d).mono (by simp)).raise 0x0C 1 (List.subset_cons_self ..)

theorem refused_event (d : Dev) : ((pathStatus d).raise 0x0C 1).evtSet 0x0C 9 := Dev.evtSet_raiseBits _ 0x0C 9 (by omega)

theorem refused_path (d : Dev) : ((pathStatus d).raise 0x0C 1).path = healthNoted d := by rw [Dev.raise_path, pathStatus_path]

/-- The power island of the active engine has failed (R91). -/
def islandOff (d : Dev) : Dev := withPath { d.path with broken := setBit d.path.broken (activePort d) } d

theorem islandOff_healthy (d : Dev) : standbyHealthy (islandOff d) = standbyHealthy d := by
  refine standbyHealthy_congr rfl rfl ?_ rfl rfl rfl rfl
  change bit (setBit d.path.broken (activePort d)) (standbyPort d) = _
  rw [bit_setBit, decide_eq_false (standbyPort_ne d), Bool.or_false]

/-! ### The drill -/

/-- A drill starts at the next boundary (R101). -/
def drillAsked (p : PathSt) : PathSt := { p with drill := true, drillLate := false }

theorem drillWant_healthy {d : Dev} (hen : d.get (F.PG_CTL_EN 0x0C) = 1) (hh : standbyHealthy d = true) :
    drillWant d = withPath (drillAsked (healthNoted d)) (pathStatus d) := by
  unfold drillWant
  rw [if_neg (by rw [show d.enabled 0x0C = true from Dev.getB_of_get_one hen]; decide)]
  refine (if_neg (by rw [pathStatus_solo, hh]; decide)).trans ?_
  rw [← pathStatus_path]
  rfl

theorem drillWant_calm (d : Dev) : Calm [R.PATH_STAT] d (withPath (drillAsked (healthNoted d)) (pathStatus d)) :=
  (pathStatus_calm d).trans ((withPath_calm _ _).mono (List.nil_subset _))

/-- Port `q` is not checked any more, and no POST stage runs (R102, R103). -/
def checkFailed (q : Nat) (p : PathSt) : PathSt := { p with checked := clearBits p.checked (2 ^ q), post := none }

/-- The registers of a drill that has failed at `stage` (R102). -/
def drillCounted (stage : Nat) (d : Dev) : Dev :=
  ((d.put F.PATH_STAT_DRILL_FAIL 1).put F.PATH_STAT_LAST_STAGE stage).count F.PATH_DRILL_CNT_FAIL 1

/-- What the failure of a drill on port `q` leaves, before PATH's status follows. -/
def drillFailed (q stage : Nat) (d : Dev) : Dev :=
  ((withPath (checkFailed q d.path) (drillCounted stage d)).raise 0x0C 2).sendEvent 0x06 0xFF 0 stage 0

/-- The registers that the failure of a drill can change. -/
abbrev drillRegs : List Nat := [R.PATH_STAT, R.PATH_DRILL_CNT, R.CNT_EVT_DROP] ++ eventRegs 0x0C

theorem drillCounted_path (stage : Nat) (d : Dev) : (drillCounted stage d).path = d.path := by
  unfold drillCounted Dev.count
  simp only [Dev.put_path]

theorem drillCounted_now (stage : Nat) (d : Dev) : (drillCounted stage d).now = d.now := by
  unfold drillCounted Dev.count
  simp only [Dev.put_now]

theorem drillFail_eq (q stage : Nat) (d : Dev) : drillFail q stage d = pathStatus (drillFailed q stage d) := by
  have hpath := drillCounted_path stage d
  unfold drillFail drillFailed
  rw [show checkFailed q d.path = checkFailed q (drillCounted stage d).path by rw [hpath]]
  rfl

theorem drillCounted_calm (stage : Nat) (d : Dev) : Calm [R.PATH_STAT, R.PATH_DRILL_CNT] d (drillCounted stage d) :=
  (((Calm.refl _ d).put (g := F.PATH_STAT_DRILL_FAIL) _ (by simp)).put (g := F.PATH_STAT_LAST_STAGE) _ (by simp)).count
    (g := F.PATH_DRILL_CNT_FAIL) 1 (by simp)

theorem drillFailed_calm (q stage : Nat) (d : Dev) : Calm drillRegs d (drillFailed q stage d) :=
  ((((drillCounted_calm stage d).mono (by simp)).trans ((withPath_calm _ _).mono (List.nil_subset _))).raise 0x0C 2
    (List.subset_append_right _ _)).sendEvent _ _ _ _ _ (by simp)

theorem drillFailed_path (q stage : Nat) (d : Dev) : (drillFailed q stage d).path = checkFailed q d.path := by
  rw [drillFailed, Dev.sendEvent_path, Dev.raise_path]
  rfl

theorem drillFailed_get (q stage : Nat) (d : Dev) {g : RegField} (h1 : g.addr ∉ [R.CNT_EVT_DROP]) (h2 : g.addr ∉ eventRegs 0x0C) :
    (drillFailed q stage d).get g = (drillCounted stage d).get g :=
  (((Kept.refl [R.CNT_EVT_DROP] _).sendEvent 0x06 0xFF 0 stage 0 (by simp)).get_eq h1).trans
    ((((Kept.refl (eventRegs 0x0C) (withPath (checkFailed q d.path) (drillCounted stage d))).raise 0x0C 2 (List.Subset.refl _)).get_eq
      h2).trans (withPath_get _ _ g))

theorem drillFailed_activePort (q stage : Nat) (d : Dev) : activePort (drillFailed q stage d) = activePort d := by
  unfold activePort
  rw [drillFailed_get _ _ _ (by decide) (by decide), drillCounted, Dev.get_count_apart _ _ _ _ (by decide) (by decide),
    Dev.get_put_apart _ _ _ _ (by decide) (by decide), Dev.get_put_apart _ _ _ _ (by decide) (by decide)]

/-- What a drill that has failed shows: DRILL_FAIL, the stage, one failure more, its event, and the port's check undone. -/
theorem drillFailed_read (q : Nat) {stage : Nat} (hs : stage < 8) (d : Dev) :
    (drillFailed q stage d).get F.PATH_STAT_DRILL_FAIL = 1 ∧ (drillFailed q stage d).get F.PATH_STAT_LAST_STAGE = stage
      ∧ (drillFailed q stage d).get F.PATH_DRILL_CNT_FAIL = min (d.get F.PATH_DRILL_CNT_FAIL + 1) 0xFFFF
      ∧ (drillFailed q stage d).evtSet 0x0C 10 := by
  refine ⟨?_, ?_, ?_, ?_⟩
  · rw [drillFailed_get _ _ _ (by decide) (by decide), drillCounted, Dev.get_count_apart _ _ _ _ (by decide) (by decide),
      Dev.get_put_apart _ _ _ _ (by decide) (by decide), Dev.get_put_same _ _ _ (by decide)]
    rfl
  · rw [drillFailed_get _ _ _ (by decide) (by decide), drillCounted, Dev.get_count_apart _ _ _ _ (by decide) (by decide),
      Dev.get_put_same _ _ _ (by decide)]
    exact Nat.mod_eq_of_lt hs
  · rw [drillFailed_get _ _ _ (by decide) (by decide), drillCounted, Dev.get_count_same _ _ _ (by decide),
      Dev.get_put_apart _ _ _ _ (by decide) (by decide), Dev.get_put_apart _ _ _ _ (by decide) (by decide)]
    rfl
  · rw [Dev.evtSet, drillFailed, ((Kept.refl [R.CNT_EVT_DROP] _).sendEvent 0x06 0xFF 0 stage 0 (by simp)).reg_eq (by decide)]
    exact Dev.evtSet_raiseBits _ 0x0C 10 (by omega)

/-- The failure of a drill on the active port leaves the standby's health as it was. -/
theorem drillFail_healthy (stage : Nat) (d : Dev) : standbyHealthy (drillFail (activePort d) stage d) = standbyHealthy d := by
  have hkept := (drillFailed_calm (activePort d) stage d).regs
  have hlink : R.ETH_LINK (standbyPort d) ∉ drillRegs := by
    have hall : ∀ q, q < 2 → R.ETH_LINK q ∉ drillRegs := by decide
    exact hall _ (by unfold standbyPort; omega)
  have hact : activePort (drillFailed (activePort d) stage d) = activePort d := drillFailed_activePort ..
  rw [drillFail_eq, pathStatus_healthy]
  refine standbyHealthy_congr hact (hkept.getB_eq (g := F.ETH_LINK_LINK_UP _) hlink) ?_ ?_ ?_ ?_ (hkept.get_eq (by decide))
  · rw [drillFailed_path]
    rfl
  · rw [drillFailed_path]
    change bit (clearBits d.path.checked (2 ^ activePort d)) (standbyPort d) = _
    rw [bit_clearBit, decide_eq_true (standbyPort_ne d), Bool.and_true]
  · rw [drillFailed_path]
    rfl
  · rw [drillFailed, Dev.sendEvent_now, Dev.raise_now]
    exact drillCounted_now stage d

end Sys2Proof.Machine
end

section
/-! SUPPORT. O12: engine faults, the SWITCH command and the drill complete as R98, R100, R101 and R103 say. -/
namespace Sys2Proof.Machine

@[simp] theorem State.after_path (s : State) (e : Dev) : (s.after e).dev.path = e.path := rfl

section
variable {dt : Nat} {s : State} {c : Nat} {f : Dev → Dev} (hready : Ready s)
include hready

/-- A command whose effect is a switchover decided with cause `c`. -/
theorem decided_command (hen : s.dev.get (F.PG_CTL_EN 0x0C) = 1) (hauto : c ≤ 3 → s.dev.get F.PATH_CFG_AUTO_SW = 1)
    (hresume : c ≤ 3 → s.dev.path.resume = none) (hh : standbyHealthy (s.dev.elapse dt) = true)
    (hf : f (s.dev.elapse dt) = pathDecide c (s.dev.elapse dt)) :
    ∃ t, perform dt s (fun d => afterCommand (f d)) = .next t ∧ t.dev.path.decided = some (min (s.dev.path.decided.getD c) c)
      ∧ t.dev.path.drill = (s.dev.path.drill && decide (3 < c)) ∧ RegsKept [R.PATH_STAT] s t ∧ MemKept s t := by
  obtain ⟨hnext, hregs, hmem⟩ := perform_effect hready
    (hf.trans (pathDecide_takes (d := s.dev.elapse dt) hen hauto hresume hh)) (pathStatus_with_calm _ _) (by decide)
  refine ⟨_, hnext, ?_, ?_, hregs, hmem⟩ <;> rw [State.after_path, pathStatus_path] <;> rfl

/-- A command whose effect is a switchover with cause `c` refused. -/
theorem refused_command {d : Dev} (hen : d.get (F.PG_CTL_EN 0x0C) = 1) (hauto : c ≤ 3 → d.get F.PATH_CFG_AUTO_SW = 1)
    (hresume : c ≤ 3 → d.path.resume = none) (hh : standbyHealthy d = false) (hd : Calm [] (s.dev.elapse dt) d)
    (hf : f (s.dev.elapse dt) = pathDecide c d) :
    ∃ t, perform dt s (fun d => afterCommand (f d)) = .next t ∧ t.dev.path = healthNoted d ∧ EventSet t 0x0C 9
      ∧ RegsKept (R.PATH_STAT :: eventRegs 0x0C) s t ∧ MemKept s t := by
  obtain ⟨hnext, hregs, hmem⟩ := perform_effect hready (hf.trans (pathDecide_refuses hen hauto hresume hh))
    ((hd.mono (List.nil_subset _)).trans (refused_calm d)) (by decide)
  exact ⟨_, hnext, refused_path d, refused_event d, hregs, hmem⟩

/-- A command whose effect is a drill wanted of a healthy standby. -/
theorem drill_command (hen : s.dev.get (F.PG_CTL_EN 0x0C) = 1) (hh : standbyHealthy (s.dev.elapse dt) = true)
    (hf : f (s.dev.elapse dt) = drillWant (s.dev.elapse dt)) :
    ∃ t, perform dt s (fun d => afterCommand (f d)) = .next t ∧ t.dev.path.drill = true ∧ t.dev.path.drillLate = false
      ∧ RegsKept [R.PATH_STAT] s t ∧ MemKept s t := by
  obtain ⟨hnext, hregs, hmem⟩ := perform_effect hready (hf.trans (drillWant_healthy (d := s.dev.elapse dt) hen hh))
    (drillWant_calm _) (by decide)
  refine ⟨_, hnext, ?_, ?_, hregs, hmem⟩ <;> rfl
end

theorem drillTimer_due {d : Dev} (hlate : d.path.drillLate = false) (ht : d.get F.PATH_CFG_T_DRILL ≠ 0)
    (hdue : d.path.switchAt + d.get F.PATH_CFG_T_DRILL * 1000000000 ≤ d.now) : drillTimer d = drillWant d := by
  unfold drillTimer
  exact (if_neg (by simp [hlate])).trans (if_pos ⟨ht, by rwa [Nat.mul_comm]⟩)

/-- POST_TMO beats without a message: the stage fails on the active port, and the swap is to be reverted (R103). -/
theorem drillPostTimeout_fails {d : Dev} {b : Nat} (hpost : d.path.post = some b) (hdue : b + d.get F.PATH_ERRLIM_POST_TMO ≤ d.beatNum) :
    drillPostTimeout d = pathDecide 6 (drillFail (activePort d) 7 d) := by
  unfold drillPostTimeout
  rw [hpost]
  exact if_neg (Nat.not_lt.2 hdue)

/-- What reverting the swap of a failed drill leaves (R103). -/
def revertAsked (d : Dev) : Dev :=
  if standbyHealthy d then pathStatus (withPath (switchDecided 6 d.path) d) else (pathStatus d).raise 0x0C 1

theorem pathDecide_revert {d : Dev} (hen : d.get (F.PG_CTL_EN 0x0C) = 1) : pathDecide 6 d = revertAsked d := by
  unfold revertAsked
  by_cases hh : standbyHealthy d = true
  · rw [if_pos hh, pathDecide_takes hen (by omega) (by omega) hh]
  · rw [if_neg hh, pathDecide_refuses hen (by omega) (by omega) (by simpa using hh)]

theorem revertAsked_calm (d : Dev) : Calm (R.PATH_STAT :: eventRegs 0x0C) d (revertAsked d) :=
  .ite ((pathStatus_with_calm _ _).mono (by simp)) (refused_calm d)

/-- Fields of PATH_STAT that PATH's status does not write, and events raised before, stay as they are. -/
theorem revertAsked_kept (d : Dev) {g : RegField} (h0 : Apart F.PATH_STAT_STBY_HEALTHY g) (h1 : Apart F.PATH_STAT_SOLO g)
    (h2 : Apart F.PATH_STAT_NO_PATH g) (h3 : Apart F.PATH_STAT_UNDRILLED g) (hg : g.addr ∉ eventRegs 0x0C) :
    (revertAsked d).get g = d.get g := by
  unfold revertAsked
  split
  · rw [pathStatus_get _ h0 h1 h2 h3, withPath_get]
  · rw [((Kept.refl (eventRegs 0x0C) (pathStatus d)).raise 0x0C 1 (List.Subset.refl _)).get_eq hg, pathStatus_get _ h0 h1 h2 h3]

theorem revertAsked_event {d : Dev} {k : Nat} (h : d.evtSet 0x0C k) : (revertAsked d).evtSet 0x0C k := by
  have hstat : R.PG_EVT 0x0C ∉ [R.PATH_STAT] := by decide
  unfold revertAsked Dev.evtSet
  split
  · rw [(pathStatus_with_calm _ d).regs.reg_eq hstat]
    exact h
  · rw [Dev.raise, Dev.pgEvt_raiseBits, (pathStatus_calm d).regs.reg_eq hstat, bit, BitVec.toNat_or, Nat.testBit_or]
    rw [Dev.evtSet, bit] at h
    rw [h, Bool.true_or]

theorem revertAsked_path (d : Dev) : (revertAsked d).path.post = d.path.post ∧ (revertAsked d).path.checked = d.path.checked
    ∧ (standbyHealthy d = true → (revertAsked d).path.decided = some (min (d.path.decided.getD 6) 6)) := by
  unfold revertAsked
  split
  · rw [pathStatus_path]
    exact ⟨rfl, rfl, fun _ => rfl⟩
  · rw [refused_path]
    exact ⟨rfl, rfl, fun h => absurd h ‹_›⟩

/-- Settles O12: a fault and the SWITCH command decide a switchover or are refused (`pathDecide_takes`, `pathDecide_refuses`,
`pathDecide_lowers`), a drill is wanted (`drillWant_healthy`), and a POST stage that fails is recorded (`drillFailed_read`) and
reverted (`pathDecide_revert`). -/
theorem switchoverAndDrill : Obligations.SwitchoverAndDrill := by
  unfold Obligations.SwitchoverAndDrill
  intro dt s hready hen
  refine ⟨fun hauto hresume hh => ?fault, fun c hauto hresume => ?waiting, fun hauto hresume hh => ?island, fun hh => ?switch,
    fun hh => ?refused, fun hh hlate ht hdue => ?timer, fun hh => ?now, fun b hpost hdue => ?post⟩
  case fault =>
    obtain ⟨t, hnext, hdecided, hdrill, hregs, hmem⟩ :=
      decided_command (c := 3) (f := engineFault false) hready hen (fun _ => hauto) (fun _ => hresume) hh rfl
    exact ⟨t, hnext, hdecided, hdrill.trans (Bool.and_false _), hregs, hmem⟩
  case waiting =>
    obtain ⟨hnext, hregs, hmem⟩ := perform_effect (f := engineFault false) hready
      (pathDecide_lowers (c := 3) (d := s.dev.elapse dt) hen (fun _ => hauto) (by omega) hresume) (pathStatus_with_calm _ _) (by decide)
    have hpath := pathStatus_path (withPath (causeLowered 3 s.dev.path) (s.dev.elapse dt))
    refine ⟨_, hnext, ?_, ?_, ?_, hregs, hmem⟩
    · rw [State.after_path]
      refine (congrArg PathSt.resume hpath).trans ?_
      change s.dev.path.resume.map (min 3) = _
      rw [hresume]
      rfl
    · exact (congrArg PathSt.drill hpath).trans rfl
    · exact (congrArg PathSt.decided hpath).trans rfl
  case island =>
    obtain ⟨t, hnext, hpath, hevent, hregs, hmem⟩ := refused_command (c := 3) (f := engineFault true) (d := islandOff (s.dev.elapse dt))
      hready hen (fun _ => hauto) (fun _ => hresume) ((islandOff_healthy _).trans hh) (withPath_calm _ _) rfl
    refine ⟨t, hnext, (congrArg PathSt.decided hpath).trans rfl, ?_, hevent, hregs, hmem⟩
    rw [hpath]
    change bit (setBit s.dev.path.broken (activePort s.dev)) (activePort s.dev) = true
    rw [bit_setBit, decide_eq_true rfl, Bool.or_true]
  case switch =>
    obtain ⟨t, hnext, hdecided, -, hregs, hmem⟩ :=
      decided_command (c := 4) (f := pathCmd 1) hready hen (by omega) (by omega) hh rfl
    exact ⟨t, hnext, hdecided, hregs, hmem⟩
  case refused =>
    obtain ⟨t, hnext, hpath, hevent, hregs, hmem⟩ := refused_command (c := 4) (f := pathCmd 1) (d := s.dev.elapse dt)
      hready hen (by omega) (by omega) hh (.refl _ _) rfl
    exact ⟨t, hnext, (congrArg PathSt.decided hpath).trans rfl, hevent, hregs, hmem⟩
  case timer =>
    obtain ⟨t, hnext, hdrill, -, hregs, hmem⟩ :=
      drill_command (f := drillTimer) hready hen hh (drillTimer_due (d := s.dev.elapse dt) hlate ht hdue)
    exact ⟨t, hnext, hdrill, hregs, hmem⟩
  case now => exact drill_command (f := pathCmd 2) hready hen hh rfl
  case post =>
    have hcalm := drillFailed_calm (activePort s.dev) 7 (s.dev.elapse dt)
    have hen' : (drillFail (activePort s.dev) 7 (s.dev.elapse dt)).get (F.PG_CTL_EN 0x0C) = 1 := by
      rw [drillFail_eq, (pathStatus_calm _).regs.get_eq (by decide), hcalm.regs.get_eq (by decide)]
      exact hen
    have heffect : drillPostTimeout (s.dev.elapse dt) = revertAsked (drillFail (activePort s.dev) 7 (s.dev.elapse dt)) :=
      (drillPostTimeout_fails (d := s.dev.elapse dt) hpost hdue).trans (pathDecide_revert hen')
    have hhealthy : standbyHealthy (drillFail (activePort s.dev) 7 (s.dev.elapse dt)) = standbyHealthy (s.dev.elapse dt) :=
      drillFail_healthy 7 (s.dev.elapse dt)
    obtain ⟨hfail, hstage, hcount, hevent⟩ := drillFailed_read (activePort s.dev) (stage := 7) (by omega) (s.dev.elapse dt)
    have hpath := drillFailed_path (activePort s.dev) 7 (s.dev.elapse dt)
    have heq := drillFail_eq (activePort s.dev) 7 (s.dev.elapse dt)
    generalize drillFailed (activePort s.dev) 7 (s.dev.elapse dt) = e at hcalm hfail hstage hcount hevent hpath heq
    rw [heq] at heffect hhealthy
    have hsub : R.PATH_STAT :: eventRegs 0x0C ⊆ drillRegs := List.cons_subset.2 ⟨by simp, List.subset_append_right _ _⟩
    obtain ⟨hnext, hregs, hmem⟩ := perform_effect (l := drillRegs) hready heffect
      ((hcalm.trans ((pathStatus_calm e).mono (by simp))).trans ((revertAsked_calm _).mono hsub)) (by decide)
    obtain ⟨hpost', hchecked, hdecided⟩ := revertAsked_path (pathStatus e)
    rw [pathStatus_path] at hpost' hchecked hdecided
    refine ⟨_, hnext, ?_, ?_, ?_, ?_, ?_, ?_, fun hh => ?_, hregs, hmem⟩
    · rw [State.after_get, revertAsked_kept, pathStatus_get, hfail] <;> decide
    · rw [State.after_get, revertAsked_kept, pathStatus_get, hstage] <;> decide
    · rw [State.after_path, hpost']
      exact congrArg PathSt.post hpath
    · rw [State.after_get, revertAsked_kept, pathStatus_get, hcount]
      · rfl
      all_goals decide
    · rw [State.after_path, hchecked]
      refine (congrArg (fun p => bit p.checked (activePort s.dev)) hpath).trans ?_
      change bit (clearBits s.dev.path.checked (2 ^ activePort s.dev)) (activePort s.dev) = false
      rw [bit_clearBit]
      simp
    · refine revertAsked_event ?_
      rw [Dev.evtSet, (pathStatus_calm e).regs.reg_eq (by decide)]
      exact hevent
    · rw [State.after_path, hdecided (hhealthy.trans hh)]
      exact congrArg (fun p => some (min (p.decided.getD 6) 6)) hpath

end Sys2Proof.Machine
end

section
/-! SUPPORT. UDP datagrams of the device (R86, R106): what a receiver of the frame finds, and what sending one leaves (R81, R92). -/
namespace Sys2Proof.Machine

/-! ### A frame that carries a datagram -/

/-- Frame `fr` carries `bs` in a UDP datagram from port `sport` to port `dport`: `Carries` of two ports. -/
abbrev Datagram (sport dport : Nat) (fr bs : List Byte) : Prop :=
  ∃ i, ipView (ethView fr) = some i ∧ i.proto = 17 ∧ beAt i.l4 0 2 = sport ∧ beAt i.l4 2 2 = dport ∧ i.l4.drop 8 = bs

/-- `u` is the UDP header of a datagram from port `sport` to port `dport`. -/
def UdpHead (sport dport : Nat) (u : List Byte) : Prop := u.length = 8 ∧ beAt u 0 2 = sport % 65536 ∧ beAt u 2 2 = dport % 65536

theorem UdpHead.carries {sport dport : Nat} {u : List Byte} (h : UdpHead sport dport u) (bs : List Byte) :
    beAt (u ++ bs) 0 2 = sport % 65536 ∧ beAt (u ++ bs) 2 2 = dport % 65536 ∧ (u ++ bs).drop 8 = bs := by
  obtain ⟨hlen, hsport, hdport⟩ := h
  exact ⟨(beAt_append_left (by omega)).trans hsport, (beAt_append_left (by omega)).trans hdport, by rw [← hlen, List.drop_left]⟩

theorem udpHead_bytes (sport dport n c : Nat) : UdpHead sport dport (beBytes 2 sport ++ (beBytes 2 dport ++ (beBytes 2 n ++ beBytes 2 c))) := by
  refine ⟨by simp, beAt_here .., ?_⟩
  rw [beAt_skip (by decide)]
  exact beAt_here ..

/-- An IPv4 datagram is its header, the UDP header and the data. -/
theorem ipUdp_parts4 (src dst sport dport idn : Nat) (bs : List Byte) :
    ∃ h u, ipUdp false src dst sport dport idn bs = h ++ (u ++ bs) ∧ h.length = 20 ∧ UdpHead sport dport u
      ∧ beAt h 0 1 = 0x45 ∧ beAt h 2 2 = (28 + bs.length) % 65536 ∧ beAt h 9 1 = 17 := by
  refine ⟨beBytes 2 0x4500 ++ (beBytes 2 (20 + (8 + bs.length)) ++ (beBytes 2 idn ++ (beBytes 2 0x4000 ++ (beBytes 1 Config.ipTtl
      ++ (beBytes 1 17 ++ (beBytes 2 _ ++ (beBytes 4 src ++ beBytes 4 dst))))))), _,
    by simp only [ipUdp, ipUdpTtl, Bool.false_eq_true, if_false, List.append_assoc]; rfl, by simp,
    udpHead_bytes sport dport (8 + bs.length) _, ?_, ?_, ?_⟩
  · rw [beAt_append_left (by simp)]
    rfl
  · rw [beAt_skip (by decide), beAt_here, ← Nat.add_assoc]
    rfl
  · iterate 5 rw [beAt_skip (by decide)]
    rw [beAt_here]
    rfl

theorem ipUdp_parts6 (src dst sport dport idn : Nat) (bs : List Byte) :
    ∃ h u, ipUdp true src dst sport dport idn bs = h ++ (u ++ bs) ∧ h.length = 40 ∧ UdpHead sport dport u
      ∧ beAt h 4 2 = (8 + bs.length) % 65536 ∧ beAt h 6 1 = 17 := by
  refine ⟨beBytes 4 0x60000000 ++ (beBytes 2 (8 + bs.length) ++ (beBytes 1 17 ++ (beBytes 1 Config.ipTtl ++ (beBytes 16 src
      ++ beBytes 16 dst)))), _,
    by simp only [ipUdp, ipUdpTtl, if_true, List.append_assoc]; rfl, by simp, udpHead_bytes sport dport (8 + bs.length) _, ?_, ?_⟩
  · rw [beAt_skip (by decide), beAt_here]
    rfl
  · iterate 2 rw [beAt_skip (by decide)]
    rw [beAt_here]
    rfl

/-- What a receiver finds behind the Ethernet header of a frame of the device's own. -/
theorem ethFrame_view (d : Dev) (q dst pcp : Nat) {et : Nat} (h : et < 65536) (h1 : et ≠ 0x88A8) (h2 : et ≠ 0x8100) (body : List Byte) :
    ∃ pad, (ethView (ethFrame d q dst pcp et body)).etype = et ∧ (ethView (ethFrame d q dst pcp et body)).body = body ++ pad := by
  obtain ⟨a, pad, hfr, heth⟩ := ethFrame_split d q dst pcp h body
  obtain ⟨het, hbody⟩ := (heth.append (le_refl _) (body ++ pad)).view h1 h2
  rw [hfr]
  exact ⟨pad, het, hbody.trans List.drop_left⟩

section
variable (d : Dev) (q dst pcp src a sport dport idn : Nat) {bs : List Byte} (hlen : bs.length + 28 < 65536)
include hlen

/-- The datagram is found in its frame, whatever pads it. -/
theorem datagram_of4 : Datagram (sport % 65536) (dport % 65536)
    (ethFrame d q dst pcp 0x0800 (ipUdp false src a sport dport idn bs)) bs := by
  obtain ⟨h, u, hip, hhead, hudp, hversion, htotal, hproto⟩ := ipUdp_parts4 src a sport dport idn bs
  obtain ⟨pad, het, hbody⟩ :=
    ethFrame_view d q dst pcp (et := 0x0800) (by decide) (by decide) (by decide) (ipUdp false src a sport dport idn bs)
  rw [hip] at het hbody
  rw [List.append_assoc] at hbody
  have hread {j n : Nat} (hj : j + n ≤ 20) : beAt (h ++ (u ++ bs ++ pad)) j n = beAt h j n := beAt_append_left (by omega)
  have hdata : ((h ++ (u ++ bs ++ pad)).take (28 + bs.length)).drop 20 = u ++ bs := by
    have h28 : 28 + bs.length = h.length + (u ++ bs).length := by rw [List.length_append, hhead, hudp.1]; omega
    rw [h28, List.take_length_add_append, List.take_left, ← hhead, List.drop_left]
  rw [hip]
  unfold Datagram ipView
  simp only [het, hbody, if_true, byteAt_eq_beAt, hread (show 0 + 1 ≤ 20 by omega), hread (show 2 + 2 ≤ 20 by omega),
    hread (show 9 + 1 ≤ 20 by omega), hversion, htotal, hproto, Nat.mod_eq_of_lt (show 28 + bs.length < 65536 by omega)]
  refine ⟨_, rfl, rfl, ?_⟩
  simp only [Nat.reduceMod, Nat.reduceMul, hdata]
  exact hudp.carries bs

theorem datagram_of6 : Datagram (sport % 65536) (dport % 65536)
    (ethFrame d q dst pcp 0x86DD (ipUdp true src a sport dport idn bs)) bs := by
  obtain ⟨h, u, hip, hhead, hudp, hpayload, hproto⟩ := ipUdp_parts6 src a sport dport idn bs
  obtain ⟨pad, het, hbody⟩ :=
    ethFrame_view d q dst pcp (et := 0x86DD) (by decide) (by decide) (by decide) (ipUdp true src a sport dport idn bs)
  rw [hip] at het hbody
  rw [List.append_assoc] at hbody
  have hread {j n : Nat} (hj : j + n ≤ 40) : beAt (h ++ (u ++ bs ++ pad)) j n = beAt h j n := beAt_append_left (by omega)
  have hdata : ((h ++ (u ++ bs ++ pad)).drop 40).take (8 + bs.length) = u ++ bs := by
    rw [← hhead, List.drop_left, show 8 + bs.length = (u ++ bs).length by rw [List.length_append, hudp.1], List.take_left]
  have hwalk (l : List Byte) : extWalk 16 17 0 false l = (17, 0, false, l) := rfl
  rw [hip]
  unfold Datagram ipView
  simp only [het, hbody, byteAt_eq_beAt, hread (show 4 + 2 ≤ 40 by omega), hread (show 6 + 1 ≤ 40 by omega), hpayload, hproto,
    Nat.mod_eq_of_lt (show 8 + bs.length < 65536 by omega), hdata, hwalk]
  rw [if_neg (by decide)]
  exact ⟨_, rfl, rfl, hudp.carries bs⟩
end

/-- A datagram to another port than PTP's is no event message. -/
theorem Datagram.noEvent {sport dport : Nat} {fr bs : List Byte} (h : Datagram sport dport fr bs) (hp : dport ≠ 319) : ptpEvent fr = none := by
  obtain ⟨i, hview, -, -, hdport, -⟩ := h
  unfold ptpEvent
  simp only [hview]
  exact if_neg (fun hh => hp (hdport.symm.trans hh.2))

end Sys2Proof.Machine
end

section
/-! SUPPORT. A message in a session leaves on the ports of its class (R81, R87, R92, R106). -/
namespace Sys2Proof.Machine

/-! ### One port -/

/-- A frame with a message of `k` bytes in session `n` leaves port `q` at once: `PortSends` of the block. -/
abbrev Leaves (d : Dev) (n q k : Nat) : Prop :=
  Sends d q ∧ k + frameOver d n q ≤ d.get (F.ETH_CFG_MAX_FRAME q) ∧ d.get (F.SESS_CFG_PEER_PORT n) ≠ 319

/-- The registers that decide whether a message of session `n` leaves. -/
def leaveRegs (n : Nat) : List Nat :=
  [R.TXR_HEAD, R.TXR_TAIL, R.SESS_CFG n] ++ (List.range 2).flatMap (fun q => [R.ETH_LINK q, R.PG_CTL (portPage q), R.ETH_CFG q])

theorem Leaves.of_kept {l : List Nat} {d e : Dev} {n q k : Nat} (h : Leaves d n q k) (hq : q < 2) (hr : Kept l d e)
    (hl : ∀ a ∈ leaveRegs n, a ∉ l) (hw : e.path.txWait = d.path.txWait) : Leaves e n q k := by
  have hport {a : Nat} (ha : a ∈ [R.ETH_LINK q, R.PG_CTL (portPage q), R.ETH_CFG q]) : a ∉ l :=
    hl a (List.mem_append_right _ (List.mem_flatMap.2 ⟨q, List.mem_range.2 hq, ha⟩))
  have hsess : R.SESS_CFG n ∉ l := hl _ (by simp [leaveRegs])
  obtain ⟨⟨hup, hen, hwait, hring⟩, hfit, hpeer⟩ := h
  have hover : frameOver e n q = frameOver d n q := by
    unfold frameOver
    rw [hr.getB_eq (g := F.ETH_CFG_VLAN_EN q) (hport (by simp)), hr.getB_eq (g := F.SESS_CFG_IP6 n) hsess]
  refine ⟨⟨?_, ?_, hw.trans hwait, ?_⟩, ?_, ?_⟩
  · exact (hr.getB_eq (g := F.ETH_LINK_LINK_UP q) (hport (by simp))).trans hup
  · exact (hr.get_eq (g := F.PG_CTL_EN (portPage q)) (hport (by simp))).trans hen
  · rw [hr.get_eq (g := F.TXR_HEAD_HEAD) (hl _ (by simp [leaveRegs])), hr.get_eq (g := F.TXR_TAIL_TAIL) (hl _ (by simp [leaveRegs]))]
    exact hring
  · rw [hover, hr.get_eq (g := F.ETH_CFG_MAX_FRAME q) (hport (by simp))]
    exact hfit
  · rw [hr.get_eq (g := F.SESS_CFG_PEER_PORT n) hsess]
    exact hpeer

/-- A frame that carries no event message leaves as it is, and nothing but the wire takes note of it. -/
theorem sendEth_plain {q : Nat} {d : Dev} (h : Sends d q) {fr : List Byte} (hfr : ptpEvent fr = none) :
    sendEth q fr d = d.emit (.eth q fr) := by
  obtain ⟨hup, hen, hwait, hring⟩ := h
  have hon : (!(ethUp d q && d.enabled (portPage q))) = false := by
    rw [hup, show d.enabled (portPage q) = true from Dev.getB_of_get_one hen]
    rfl
  have hfree : (d.path.txWait.any (fun e => e.1 == q) || txBlocked d q fr.length) = false := by
    unfold txBlocked
    rw [hwait, show txTimed d q = none from if_pos hring]
    rfl
  have hsent (t : Int) : ptpSent q t fr d = d := by unfold ptpSent; rw [hfr]
  have hstamp (t : Int) (l : List (Nat × Nat × Nat × Int)) : ptpStamp q t l fr = fr := by unfold ptpStamp; rw [hfr]
  unfold sendEth
  rw [if_neg (by rw [hon]; decide), if_neg (by rw [hfree]; decide)]
  unfold departEth
  simp only [hsent, hstamp]

/-- `d` with another free value to draw next. -/
def drawn (c : Nat) (d : Dev) : Dev := { d with freeCtr := c }

theorem drawn_sends (c : Nat) (d : Dev) : OnlySends d (drawn c d) := ⟨_, _, _, _, rfl⟩

theorem sendOn_sends (n q pcp : Nat) (bs : List Byte) (d : Dev) : OnlySends d (sendOn n q pcp bs d) := by
  unfold sendOn
  refine .ite (.refl d) ?_
  refine .trans ?_ (sendEth_sends _ _ _)
  cases d.getB (F.SESS_CFG_IP6 n)
  · exact drawn_sends (d.freeCtr + 1) d
  · exact .refl d

/-- A message that fits leaves in a datagram to the peer. -/
theorem sendOn_leaves {n q pcp : Nat} {bs : List Byte} {d : Dev} (h : Leaves d n q bs.length) :
    ∃ fr c, sendOn n q pcp bs d = (drawn c d).emit (.eth q fr)
      ∧ Datagram (d.get F.JTP_CFG_UDP_PORT) (d.get (F.SESS_CFG_PEER_PORT n)) fr bs := by
  obtain ⟨hsends, hfit, hpeer⟩ := h
  have hup := hsends.1
  have hlen : bs.length + 28 < 65536 := by
    have hmax : d.get (F.ETH_CFG_MAX_FRAME q) < 16384 := Dev.get_lt d (F.ETH_CFG_MAX_FRAME q)
    have hover : 18 + 28 ≤ frameOver d n q := by unfold frameOver; split <;> split <;> omega
    omega
  have hsport : d.get F.JTP_CFG_UDP_PORT % 65536 = d.get F.JTP_CFG_UDP_PORT := Nat.mod_eq_of_lt (Dev.get_lt d F.JTP_CFG_UDP_PORT)
  have hdport : d.get (F.SESS_CFG_PEER_PORT n) % 65536 = d.get (F.SESS_CFG_PEER_PORT n) := Nat.mod_eq_of_lt (Dev.get_lt d (F.SESS_CFG_PEER_PORT n))
  have hgo : (!ethUp d q || decide (d.get (F.ETH_CFG_MAX_FRAME q) < bs.length + frameOver d n q)) = false := by
    rw [hup, decide_eq_false (Nat.not_lt.2 hfit)]
    rfl
  unfold sendOn
  rw [if_neg (by rw [hgo]; decide)]
  cases hv6 : d.getB (F.SESS_CFG_IP6 n) with
  | true =>
    simp only [if_true]
    have hcarries := datagram_of6 d q (d.get2 (F.PEER_MAC_LO_MAC n) (F.PEER_MAC_HI_MAC n)) pcp (jtpSource d q n) (peerIp6 d n)
      (d.get F.JTP_CFG_UDP_PORT) (d.get (F.SESS_CFG_PEER_PORT n)) 0 hlen
    rw [hsport, hdport] at hcarries
    exact ⟨_, d.freeCtr, sendEth_plain (d := d) hsends (hcarries.noEvent hpeer), hcarries⟩
  | false =>
    simp only [Bool.false_eq_true, if_false]
    have hcarries := datagram_of4 (drawn (d.freeCtr + 1) d) q (d.get2 (F.PEER_MAC_LO_MAC n) (F.PEER_MAC_HI_MAC n)) pcp (jtpSource d q n)
      (d.get (F.PEER_IP4_ADDR n)) (d.get F.JTP_CFG_UDP_PORT) (d.get (F.SESS_CFG_PEER_PORT n)) (d.free 16).1 hlen
    rw [hsport, hdport] at hcarries
    exact ⟨_, d.freeCtr + 1, sendEth_plain (d := drawn (d.freeCtr + 1) d) hsends (hcarries.noEvent hpeer), hcarries⟩

/-! ### The ports of a class -/

theorem sendClass_sends (n t : Nat) (bs : List Byte) (d : Dev) : OnlySends d (sendClass n t bs d) :=
  forL_induct (P := OnlySends d) _ (.refl d) fun _ _ _ h => h.trans (sendOn_sends ..)

/-- A frame with message `bs` of session `n`, as `d` is set up. -/
abbrev CarriesFrom (d : Dev) (n : Nat) (fr bs : List Byte) : Prop :=
  Datagram (d.get F.JTP_CFG_UDP_PORT) (d.get (F.SESS_CFG_PEER_PORT n)) fr bs

/-- The VLAN priority of a message of TYPE `t` on port `q` (R87). -/
def classPcp (t q : Nat) (d : Dev) : Nat :=
  if isControl t || t == tPosition then d.get (F.ETH_CFG_PCP_CTL q) else d.get (F.ETH_CFG_PCP_BULK q)

theorem sendClass_ports (n t : Nat) (bs : List Byte) (d : Dev) : sendClass n t bs d
    = forL (if t = tTelemetry ∨ t = tPrintLog then [activePort d] else [0, 1]) (fun q d => sendOn n q (classPcp t q d) bs d) d := rfl

/-- What is neither telemetry nor the print log leaves on both ports (R92). -/
theorem sendClass_both {n t : Nat} {bs : List Byte} {d : Dev} (ht : t ∉ [tTelemetry, tPrintLog]) (h0 : Leaves d n 0 bs.length)
    (h1 : Leaves d n 1 bs.length) :
    ∃ f0 f1, (sendClass n t bs d).out = .eth 1 f1 :: .eth 0 f0 :: d.out ∧ CarriesFrom d n f0 bs ∧ CarriesFrom d n f1 bs := by
  have hports : ¬(t = tTelemetry ∨ t = tPrintLog) := by simpa using ht
  rw [sendClass_ports]
  unfold forL
  simp only [hports, if_false, List.foldl_cons, List.foldl_nil]
  obtain ⟨f0, c0, hsend0, hcarries0⟩ := sendOn_leaves (pcp := classPcp t 0 d) h0
  obtain ⟨f1, c1, hsend1, hcarries1⟩ := sendOn_leaves (d := (drawn c0 d).emit (.eth 0 f0)) (pcp := classPcp t 1 d) h1
  rw [hsend0]
  refine ⟨f0, f1, ?_, hcarries0, hcarries1⟩
  exact congrArg Dev.out hsend1

/-- Telemetry leaves on the active port (R92). -/
theorem sendClass_active {n : Nat} {bs : List Byte} {d : Dev} (h : Leaves d n (activePort d) bs.length) :
    ∃ f, (sendClass n tTelemetry bs d).out = .eth (activePort d) f :: d.out ∧ CarriesFrom d n f bs := by
  rw [sendClass_ports]
  unfold forL
  simp only [true_or, if_true, List.foldl_cons, List.foldl_nil]
  obtain ⟨f, c, hsend, hcarries⟩ := sendOn_leaves (pcp := classPcp tTelemetry (activePort d) d) h
  exact ⟨f, congrArg Dev.out hsend, hcarries⟩

end Sys2Proof.Machine
end

section
/-! SUPPORT. Sessions that send (R107, R112, R118): what a message of the device takes from the block, what sending it leaves, and
what follows the command that sends. -/
namespace Sys2Proof.Machine

/-! ### Sessions -/

@[simp] theorem Dev.sess_setSess_same (d : Dev) (n : Nat) (x : Sess) : (d.setSess n x).sess n = x := cellGet_cellSet_same ..

theorem Dev.sess_setSess_ne (d : Dev) {k n : Nat} (h : k ≠ n) (x : Sess) : (d.setSess n x).sess k = d.sess k :=
  cellGet_cellSet_ne _ _ _ _ _ _ h

theorem Dev.sess_put (d : Dev) (g : RegField) (v k : Nat) : (d.put g v).sess k = d.sess k := rfl

theorem OnlySends.jtp {d e : Dev} (h : OnlySends d e) : e.jtp = d.jtp := by obtain ⟨_, _, _, _, rfl⟩ := h; rfl

theorem OnlySends.sess {d e : Dev} (h : OnlySends d e) (k : Nat) : e.sess k = d.sess k := by unfold Dev.sess; rw [h.jtp]

/-! ### What a command that sends leaves -/

/-- `e` is `d` but for registers of `l`, the state of JTP, what goes out and what sending a frame touches; no session has dealt with
a message that it received. -/
structure Spoken (l : List Nat) (d e : Dev) : Prop where
  frame : ∃ o w m c r j, e =
    { d with out := o, path := { d.path with txWait := w }, tm := { d.tm with doms := m }, freeCtr := c, regs := r, jtp := j }
  regs : Kept l d e
  todo : ∀ k, (e.sess k).todo = (d.sess k).todo

namespace Spoken
variable {l l' : List Nat} {d e f : Dev}

theorem refl (l : List Nat) (d : Dev) : Spoken l d d := ⟨⟨_, _, _, _, _, _, rfl⟩, .refl l d, fun _ => rfl⟩
theorem trans (h : Spoken l d e) (g : Spoken l e f) : Spoken l d f := by
  obtain ⟨⟨_, _, _, _, _, _, rfl⟩, k, t⟩ := h
  obtain ⟨⟨_, _, _, _, _, _, rfl⟩, k', t'⟩ := g
  exact ⟨⟨_, _, _, _, _, _, rfl⟩, k.trans k', fun i => (t' i).trans (t i)⟩
theorem mono (h : Spoken l d e) (hl : l ⊆ l') : Spoken l' d e := { h with regs := h.regs.mono hl }
theorem sends (h : Spoken l d e) (g : OnlySends e f) : Spoken l d f :=
  h.trans ⟨by obtain ⟨_, _, _, _, rfl⟩ := g; exact ⟨_, _, _, _, _, _, rfl⟩, .of_regs g.regs, fun k => congrArg Sess.todo (g.sess k)⟩
theorem put (h : Spoken l d e) {g : RegField} (v : Nat) (hg : g.addr ∈ l) : Spoken l d (e.put g v) :=
  h.trans ⟨⟨_, _, _, _, _, _, rfl⟩, (Kept.refl l e).put v hg, fun _ => rfl⟩
theorem setSess (h : Spoken l d e) (n : Nat) {x : Sess} (hx : x.todo = (e.sess n).todo) : Spoken l d (e.setSess n x) := by
  refine h.trans ⟨⟨_, _, _, _, _, _, rfl⟩, .of_regs rfl, fun k => ?_⟩
  by_cases hk : k = n
  · rw [hk, Dev.sess_setSess_same, hx]
  · rw [Dev.sess_setSess_ne _ hk]

theorem dram (h : Spoken l d e) : e.dram = d.dram := by obtain ⟨⟨_, _, _, _, _, _, rfl⟩, -, -⟩ := h; rfl
theorem l2 (h : Spoken l d e) : e.l2 = d.l2 := by obtain ⟨⟨_, _, _, _, _, _, rfl⟩, -, -⟩ := h; rfl
theorem banks (h : Spoken l d e) : e.banks = d.banks := by obtain ⟨⟨_, _, _, _, _, _, rfl⟩, -, -⟩ := h; rfl
theorem regWrites (h : Spoken l d e) : e.regWrites = d.regWrites := by obtain ⟨⟨_, _, _, _, _, _, rfl⟩, -, -⟩ := h; rfl
theorem sysReq (h : Spoken l d e) : e.sysReq = d.sysReq := by obtain ⟨⟨_, _, _, _, _, _, rfl⟩, -, -⟩ := h; rfl
theorem burnReq (h : Spoken l d e) : e.burnReq = d.burnReq := by obtain ⟨⟨_, _, _, _, _, _, rfl⟩, -, -⟩ := h; rfl
theorem now (h : Spoken l d e) : e.now = d.now := by obtain ⟨⟨_, _, _, _, _, _, rfl⟩, -, -⟩ := h; rfl
end Spoken

/-! ### What follows such a command -/

/-- `e` has what the end of a command reads of `d`, but for registers of `l` and the banks of DRAM: `Ends`, where sessions may have
sent. -/
structure Talked (l : List Nat) (d e : Dev) : Prop where
  regs : Kept l d e
  todo : ∀ k, (e.sess k).todo = (d.sess k).todo
  regWrites : e.regWrites = d.regWrites
  sysReq : e.sysReq = d.sysReq
  burnReq : e.burnReq = d.burnReq

namespace Talked
variable {l l' : List Nat} {d e f : Dev}

theorem trans (h : Talked l d e) (g : Talked l e f) : Talked l d f :=
  ⟨h.regs.trans g.regs, fun k => (g.todo k).trans (h.todo k), g.regWrites.trans h.regWrites, g.sysReq.trans h.sysReq,
    g.burnReq.trans h.burnReq⟩
theorem mono (h : Talked l d e) (hl : l ⊆ l') : Talked l' d e := { h with regs := h.regs.mono hl }
theorem of_spoken (h : Spoken l d e) : Talked l d e := ⟨h.regs, h.todo, h.regWrites, h.sysReq, h.burnReq⟩
theorem of_touch (h : DramTouch d e) : Talked memRegs d e :=
  ⟨h.regs, fun k => by unfold Dev.sess; rw [h.sess], h.regWrites, h.sysReq, h.burnReq⟩
end Talked

/-- Which session has a register request next depends on the messages that wait in each. -/
theorem regSession_todo {d e : Dev} (h : ∀ k, (e.sess k).todo = (d.sess k).todo)
    (hb : e.getB F.DRAMC_FCHG_BUSY = d.getB F.DRAMC_FCHG_BUSY) : regSession e = regSession d := by
  unfold regSession
  simp only [h, hb]

/-- A command of a ready block in which sessions may have sent: requests of DRAM are served behind it as far as may be, and nothing
else follows. -/
theorem perform_talked {dt : Nat} {s : State} {f : Dev → Dev} {e : Dev} {l : List Nat} (h : Ready s) (he : f (s.dev.elapse dt) = e)
    (k : Talked l (s.dev.elapse dt) e) (hl : ∀ a ∈ endRegs, a ∉ l) :
    DramTouch e (dramRun e) ∧ perform dt s (fun d => afterCommand (f d)) = .next (s.after (dramRun e)) := by
  subst he
  have q := Quiet.of_ready h dt
  have hrate : ((f (s.dev.elapse dt)).getB F.DRAMC_FCHG_BUSY && !(f (s.dev.elapse dt)).getB F.DRAMC_STAT_SELFREF) = false := by
    rw [k.regs.getB_eq (g := F.DRAMC_FCHG_BUSY) (hl _ (by simp)), k.regs.getB_eq (g := F.DRAMC_STAT_SELFREF) (hl _ (by simp))]
    exact q.rate
  have t := dramRun_touch _ hrate
  refine ⟨t, ?_⟩
  rw [perform_run _ _ _ h.1, afterCommand_dram, settle_plain _ _ (t.sysReq.trans (k.sysReq.trans q.sysReq))
    (t.burnReq.trans (k.burnReq.trans q.burnReq))]
  · rfl
  · rw [regSession_todo k.todo (k.regs.getB_eq (hl _ (by simp)))]
    exact q.requests
  · exact k.regWrites.trans q.regWrites
  · rw [quiet_congr (s.dev.elapse dt) _ (k.regs.get_eq (hl _ (by simp))) (cleated_low (k.regs.reg_eq (hl _ (by simp))) (by omega))]
    exact q.cleat
  · exact hrate

/-- A command of a ready block in which sessions send, and no memory is read: its effect is its outcome. -/
theorem perform_spoken {dt : Nat} {s : State} {f : Dev → Dev} {e : Dev} {l : List Nat} (h : Ready s) (he : f (s.dev.elapse dt) = e)
    (k : Spoken l (s.dev.elapse dt) e) (hl : ∀ a ∈ endRegs, a ∉ l) :
    perform dt s (fun d => afterCommand (f d)) = .next (s.after e) ∧ RegsKept l s (s.after e) ∧ MemKept s (s.after e) := by
  have q := Quiet.of_ready h dt
  obtain ⟨-, hnext⟩ := perform_talked h he (.of_spoken k) hl
  rw [dramRun_none _ (k.banks.trans q.banks)] at hnext
  · exact ⟨hnext, k.regs, memKept_of_same k.dram k.l2⟩
  · rw [k.regs.getB_eq (g := F.DRAMC_FCHG_BUSY) (hl _ (by simp)), k.regs.getB_eq (g := F.DRAMC_STAT_SELFREF) (hl _ (by simp))]
    exact q.rate

/-! ### A message of an unauthenticated session -/

/-- The registers that a message of session `n` is made from, where it does not authenticate. -/
def msgRegs (n : Nat) : List Nat := [R.SESS_CFG n, R.PATH_STAT, R.EPOCH_NOW]

section
variable {n : Nat} {d e : Dev} (hauth : d.get (F.SESS_CFG_AUTH_REQ n) = 0)
include hauth

/-- A message is made of registers and of the plan's JOB. -/
theorem deviceMsg_kept {l : List Nat} (hr : Kept l d e) (hl : ∀ a ∈ msgRegs n, a ∉ l) (hj : e.planJob = d.planJob) (t k : Nat)
    (resp : Bool) (p : List Byte) : deviceMsg e n t k resp p = deviceMsg d n t k resp p := by
  have hd : d.getB (F.SESS_CFG_AUTH_REQ n) = false := Dev.getB_of_get_zero hauth
  have he : e.getB (F.SESS_CFG_AUTH_REQ n) = false := (hr.getB_eq (hl _ (by simp [msgRegs]))).trans hd
  have hactive : activePort e = activePort d := hr.get_eq (g := F.PATH_STAT_ACTIVE) (hl _ (by simp [msgRegs]))
  unfold deviceMsg
  rw [hd, he, hactive, hj, hr.get_eq (g := F.EPOCH_NOW_EPOCH) (hl _ (by simp [msgRegs]))]
  rfl

theorem deviceMsg_length (t k : Nat) (resp : Bool) (p : List Byte) : (deviceMsg d n t k resp p).length = 28 + p.length := by
  unfold deviceMsg
  rw [Dev.getB_of_get_zero hauth]
  simp only [Bool.false_eq_true, if_false, jtpBytes, jtpHeader, List.length_append, beBytes_length]
  omega

theorem maySend_plain (fb k : Nat) : maySend d n fb k = true := by
  unfold maySend
  rw [Dev.getB_of_get_zero hauth]
  rfl

theorem keyNote_plain (fb k : Nat) : keyNote n fb k d = d := by
  unfold keyNote
  rw [Dev.getB_of_get_zero hauth]
  rfl
end

/-! ### Both ports -/

/-- A message of session `n` that goes out from `d`, which has the ports and the session as the block has them, leaves on both
ports. -/
theorem bothSent_after {dt : Nat} {s : State} {d e : Dev} {l : List Nat} {n t : Nat} {bs : List Byte} (hready : Ready s)
    (hr : Kept l (s.dev.elapse dt) d) (hl : ∀ a ∈ R.JTP_CFG :: leaveRegs n, a ∉ l) (hpath : d.path = s.dev.path) (hout : d.out = s.dev.out)
    (ht : t ∉ [tTelemetry, tPrintLog]) (he : e.out = (sendClass n t bs d).out) (hsend : BothSend s n bs.length) :
    BothSent s (s.after e) n bs := by
  obtain ⟨-, ⟨-, -, hidle⟩, -⟩ := hready
  have hleaves {q : Nat} (hq : q < 2) (h : PortSends s n q bs.length) : Leaves d n q bs.length :=
    Leaves.of_kept (d := s.dev.elapse dt) h hq hr (fun a ha => hl a (List.mem_cons_of_mem _ ha)) (congrArg PathSt.txWait hpath)
  have hport : d.get F.JTP_CFG_UDP_PORT = s.dev.get F.JTP_CFG_UDP_PORT := hr.get_eq (hl _ (by simp))
  have hpeer : d.get (F.SESS_CFG_PEER_PORT n) = s.dev.get (F.SESS_CFG_PEER_PORT n) := hr.get_eq (hl _ (by simp [leaveRegs]))
  obtain ⟨f0, f1, hsent, hc0, hc1⟩ := sendClass_both ht (hleaves (by omega) hsend.1) (hleaves (by omega) hsend.2)
  unfold CarriesFrom at hc0 hc1
  rw [hport, hpeer] at hc0 hc1
  have hwire : e.out = [.eth 1 f1, .eth 0 f0] := he.trans (hsent.trans (congrArg (fun o => _ :: _ :: o) (hout.trans hidle)))
  exact ⟨f0, f1, congrArg (· ++ s.wire) hwire, hc0, hc1⟩

end Sys2Proof.Machine
end

section
/-! SUPPORT. O19: the timers of a session, and what waits to be sent (R115, R118). -/
namespace Sys2Proof.Machine

/-! ### Feedback -/

/-- A session whose feedback of TYPE `t`, crediting `g`, covers everything accepted; a NAK GAP is noted. -/
def covered (t g cum now : Nat) (x : Sess) : Sess :=
  let y : Sess := { x with since := 0, firstAt := none, creditSent := g }
  if t = tNak && y.got != 0 then { y with nakCum := some cum, nakAt := now } else y

/-- The session once that feedback has gone out. -/
def fedBack (t g cum now : Nat) (x : Sess) : Sess := { covered t g cum now x with fbNum := x.fbNum + 1 }

theorem covered_keeps (t g cum now : Nat) (x : Sess) :
    (covered t g cum now x).todo = x.todo ∧ (covered t g cum now x).fbNum = x.fbNum := by
  unfold covered; dsimp only; split <;> exact ⟨rfl, rfl⟩

theorem fedBack_fbNum (t g cum now : Nat) (x : Sess) : (fedBack t g cum now x).fbNum = x.fbNum + 1 := rfl

theorem fedBack_covers (t g cum now : Nat) (x : Sess) : (fedBack t g cum now x).firstAt = none ∧ (fedBack t g cum now x).since = 0 := by
  unfold fedBack covered; dsimp only; split <;> exact ⟨rfl, rfl⟩

theorem fedBack_gap {x : Sess} (hx : x.got ≠ 0) (g cum now : Nat) :
    (fedBack tNak g cum now x).nakCum = some cum ∧ (fedBack tNak g cum now x).nakAt = now := by
  unfold fedBack covered
  dsimp only
  rw [if_pos (by simpa using hx)]
  exact ⟨rfl, rfl⟩

/-- The payload of an ACK or a NAK (R114). -/
def feedbackBody (d : Dev) (n reason bad : Nat) : List Byte :=
  beBytes 4 (d.get (F.RX_CUM_CUM n)) ++ beBytes 8 (d.sess n).got ++ beBytes 4 (grant d n) ++ beBytes 1 reason ++ beBytes 3 0 ++ beBytes 4 bad

/-- The message that carries it. -/
def feedbackMsg (d : Dev) (n t reason bad : Nat) : List Byte :=
  deviceMsg d n t ((d.sess n).fbNum % 2 ^ 32) false (feedbackBody d n reason bad)

/-- The block once the session has noted its feedback of TYPE `t`, and its counter. -/
def feedbackNoted (n t : Nat) (d : Dev) : Dev :=
  (d.setSess n (covered t (grant d n) (d.get (F.RX_CUM_CUM n)) d.now (d.sess n))).setSess n
    (fedBack t (grant d n) (d.get (F.RX_CUM_CUM n)) d.now (d.sess n))

theorem feedbackNoted_spoken (n t : Nat) (d : Dev) : Spoken [] d (feedbackNoted n t d) := by
  have htodo := (covered_keeps t (grant d n) (d.get (F.RX_CUM_CUM n)) d.now (d.sess n)).1
  exact ((Spoken.refl [] d).setSess n htodo).setSess n (by rw [Dev.sess_setSess_same]; rfl)

section
variable {n t : Nat} {d : Dev} (hauth : d.get (F.SESS_CFG_AUTH_REQ n) = 0)
include hauth

theorem sendFeedback_plain (t : Nat) (resp : Bool) (p : List Byte) : sendFeedback n t resp p d
    = sendClass n t (deviceMsg d n t ((d.sess n).fbNum % 2 ^ 32) resp p) (d.setSess n { d.sess n with fbNum := (d.sess n).fbNum + 1 }) := by
  have hnote (x : Sess) : keyNote n 1 (d.sess n).fbNum (d.setSess n x) = d.setSess n x := keyNote_plain (d := d.setSess n x) hauth _ _
  unfold sendFeedback
  simp only [maySend_plain hauth, Bool.not_true, Bool.false_eq_true, if_false, hnote]

/-- Feedback goes out in an unauthenticated session, on the ports of its class. -/
theorem feedback_plain (ht : t ≠ tCredit) (reason bad : Nat) :
    feedback n t reason bad d = sendClass n t (feedbackMsg d n t reason bad) (feedbackNoted n t d) := by
  have heq : feedback n t reason bad d = sendFeedback n t false (feedbackBody d n reason bad)
      (d.setSess n (covered t (grant d n) (d.get (F.RX_CUM_CUM n)) d.now (d.sess n))) := by
    unfold feedback
    simp only [if_neg ht]
    rfl
  have hnum := (covered_keeps t (grant d n) (d.get (F.RX_CUM_CUM n)) d.now (d.sess n)).2
  have hmsg (x : Sess) (k : Nat) (p : List Byte) : deviceMsg (d.setSess n x) n t k false p = deviceMsg d n t k false p :=
    deviceMsg_kept hauth (l := []) (e := d.setSess n x) (.of_regs rfl) (by simp) rfl ..
  rw [heq, sendFeedback_plain (by exact hauth), Dev.sess_setSess_same, hnum, hmsg]
  rfl
end

/-- The timer of a session that sends feedback of TYPE `t`. -/
theorem feedback_command {dt : Nat} {n : Fin 16} {t reason bad : Nat} {s : State} {f : Dev → Dev} (hready : Ready s)
    (hauth : s.dev.get (F.SESS_CFG_AUTH_REQ n) = 0) (ht : t ∉ [tCredit, tTelemetry, tPrintLog])
    (hf : f (s.dev.elapse dt) = feedback n t reason bad (s.dev.elapse dt)) :
    ∃ u, perform dt s (fun d => afterCommand (f d)) = .next u
      ∧ u.dev.sess n = fedBack t (grant s.dev n) (s.dev.get (F.RX_CUM_CUM n)) (s.dev.now + dt) (s.dev.sess n)
      ∧ (BothSend s n 52 → BothSent s u n (feedbackMsg s.dev n t reason bad)) ∧ RegsKept [] s u ∧ MemKept s u := by
  have hcredit : t ≠ tCredit := fun h => ht (by simp [h])
  have hclass : t ∉ [tTelemetry, tPrintLog] := fun h => ht (List.mem_cons_of_mem _ h)
  have heq := feedback_plain (d := s.dev.elapse dt) hauth hcredit reason bad
  have hmsg : feedbackMsg (s.dev.elapse dt) n t reason bad = feedbackMsg s.dev n t reason bad :=
    deviceMsg_kept (d := s.dev) hauth (l := []) (.of_regs rfl) (by simp) rfl ..
  rw [hmsg] at heq
  have hnoted := feedbackNoted_spoken n t (s.dev.elapse dt)
  have hsends := sendClass_sends n t (feedbackMsg s.dev n t reason bad) (feedbackNoted n t (s.dev.elapse dt))
  obtain ⟨hnext, hregs, hmem⟩ := perform_spoken hready (hf.trans heq) (hnoted.sends hsends) (by simp)
  refine ⟨_, hnext, (hsends.sess n).trans (Dev.sess_setSess_same ..), fun hsend => ?_, hregs, hmem⟩
  have hlen : (feedbackMsg s.dev n t reason bad).length = 52 := by
    unfold feedbackMsg feedbackBody
    rw [deviceMsg_length hauth]
    simp only [List.length_append, beBytes_length]
  exact bothSent_after hready hnoted.regs (by simp) rfl rfl hclass rfl (by rwa [hlen])

/-- The bytes behind CREDIT in an ACK are 0. -/
theorem ackBody_eq (d : Dev) (n : Nat) : feedbackBody d n 0 0
    = beBytes 4 (d.get (F.RX_CUM_CUM n)) ++ beBytes 8 (d.sess n).got ++ beBytes 4 (grant d n) ++ List.replicate 8 0#8 := by
  unfold feedbackBody
  simp only [List.append_assoc]
  rfl

/-- Those of a NAK GAP are the reason, 1, and CUM. -/
theorem nakBody_eq (d : Dev) (n bad : Nat) : feedbackBody d n 1 bad
    = beBytes 4 (d.get (F.RX_CUM_CUM n)) ++ beBytes 8 (d.sess n).got ++ beBytes 4 (grant d n) ++ beBytes 4 0x01000000 ++ beBytes 4 bad := by
  unfold feedbackBody
  simp only [List.append_assoc]
  rfl

/-! ### Messages that go again -/

/-- Message `m` as it stands once it has gone again at `now`. -/
def SentMsg.goneAgain (now : Nat) (m : SentMsg) : SentMsg := { m with at_ := now, again := some now }

/-- The same for the messages with sequences `qs`. -/
def sentAgain (now : Nat) (qs : List Nat) (m : SentMsg) : SentMsg := if m.seq ∈ qs then m.goneAgain now else m

theorem sentAgain_none (now : Nat) (m : SentMsg) : sentAgain now [] m = m := if_neg (List.not_mem_nil)

theorem sentAgain_cons (now q : Nat) (qs : List Nat) (m : SentMsg) : sentAgain now qs (sentAgain now [q] m) = sentAgain now (q :: qs) m := by
  unfold sentAgain
  simp only [List.mem_cons, List.not_mem_nil, or_false]
  by_cases hq : m.seq = q
  · simp only [hq, if_true, true_or]
    split <;> rfl
  · simp only [hq, if_false, false_or]

/-- The session once message `m` has gone again. -/
def sentOnce (n : Nat) (m : SentMsg) (d : Dev) : Dev :=
  d.setSess n { d.sess n with sent := (d.sess n).sent.map (sentAgain d.now [m.seq]) }

theorem resend_eq (n : Nat) (m : SentMsg) (d : Dev) : resend n m d = sendClass n m.type m.bytes (sentOnce n m d) := by
  unfold resend sentOnce sentAgain
  simp only [List.mem_singleton]
  rfl

theorem sentOnce_spoken (n : Nat) (m : SentMsg) (d : Dev) : Spoken [] d (sentOnce n m d) := (Spoken.refl [] d).setSess n rfl

theorem resend_spoken (n : Nat) (m : SentMsg) (d : Dev) : Spoken [] d (resend n m d)
    ∧ (resend n m d).sess n = { d.sess n with sent := (d.sess n).sent.map (sentAgain d.now [m.seq]) } := by
  have hsends := sendClass_sends n m.type m.bytes (sentOnce n m d)
  rw [resend_eq]
  exact ⟨(sentOnce_spoken n m d).sends hsends, (hsends.sess n).trans (Dev.sess_setSess_same ..)⟩

theorem forL_resend (n : Nat) (l : List SentMsg) (d : Dev) : Spoken [] d (forL l (resend n) d)
    ∧ (forL l (resend n) d).sess n = { d.sess n with sent := (d.sess n).sent.map (sentAgain d.now (l.map SentMsg.seq)) } := by
  induction l generalizing d with
  | nil =>
    refine ⟨.refl _ d, ?_⟩
    simp only [List.map_nil, funext (sentAgain_none d.now), List.map_id']
    rfl
  | cons m l ih =>
    obtain ⟨hspoken, hsess⟩ := resend_spoken n m d
    obtain ⟨hrest, hall⟩ := ih (resend n m d)
    refine ⟨hspoken.trans hrest, ?_⟩
    rw [hsess, hspoken.now] at hall
    refine hall.trans ?_
    simp only [List.map_map, List.map_cons]
    congr 2
    exact funext (sentAgain_cons d.now m.seq (l.map SentMsg.seq))

/-- Message `m` of session `n` is due to go again: it is outstanding, and was last sent JTP_RTO ago (R118). -/
abbrev DueAgain (d : Dev) (n now : Nat) (m : SentMsg) : Prop :=
  marked (d.sess n) m.seq = false ∧ m.at_ + d.get F.JTP_RTO_RTO * 1000 ≤ now

/-- The messages of session `n` that are due. -/
def dueMsgs (d : Dev) (n : Nat) : List SentMsg :=
  (outstanding (d.sess n)).filter (fun m => decide (m.at_ + d.get F.JTP_RTO_RTO * 1000 ≤ d.now))

theorem mem_dueMsgs {d : Dev} {n : Nat} {m : SentMsg} : m ∈ dueMsgs d n ↔ m ∈ (d.sess n).sent ∧ DueAgain d n d.now m := by
  unfold dueMsgs outstanding
  simp only [List.mem_filter, Bool.not_eq_true', decide_eq_true_eq, and_assoc]

theorem retransmitTimer_open {d : Dev} {n : Nat} (hopen : d.get (F.SESS_STAT_STATE n) = 2) :
    retransmitTimer n d = forL (dueMsgs d n) (resend n) d := by
  unfold retransmitTimer sessOpen
  rw [hopen]
  rfl

/-- Of messages with sequences of their own, those due go again. -/
theorem sentAgain_due {d : Dev} {n : Nat} (hseq : (d.sess n).sent.Pairwise (fun x y => x.seq ≠ y.seq)) :
    (d.sess n).sent.map (sentAgain d.now ((dueMsgs d n).map SentMsg.seq))
      = (d.sess n).sent.map (fun m => if DueAgain d n d.now m then m.goneAgain d.now else m) := by
  refine List.map_congr_left fun m hm => ?_
  have hown : ∀ x ∈ (d.sess n).sent, x.seq = m.seq → x = m := fun x hx h =>
    List.inj_on_of_nodup_map (List.pairwise_map.2 hseq) hx hm h
  have hdue : m.seq ∈ (dueMsgs d n).map SentMsg.seq ↔ DueAgain d n d.now m := by
    refine ⟨fun h => ?_, fun h => List.mem_map_of_mem (mem_dueMsgs.2 ⟨hm, h⟩)⟩
    obtain ⟨x, hx, hxm⟩ := List.mem_map.1 h
    obtain ⟨hsent, hd⟩ := mem_dueMsgs.1 hx
    exact hown x hsent hxm ▸ hd
  unfold sentAgain
  simp only [hdue]

theorem retransmit_command {dt : Nat} {n : Fin 16} {s : State} {f : Dev → Dev} (hready : Ready s)
    (hopen : s.dev.get (F.SESS_STAT_STATE n) = 2) (hseq : (s.dev.sess n).sent.Pairwise (fun x y => x.seq ≠ y.seq))
    (hf : f (s.dev.elapse dt) = retransmitTimer n (s.dev.elapse dt)) :
    ∃ u, perform dt s (fun d => afterCommand (f d)) = .next u
      ∧ (u.dev.sess n).sent
        = (s.dev.sess n).sent.map (fun m => if DueAgain s.dev n (s.dev.now + dt) m then m.goneAgain (s.dev.now + dt) else m)
      ∧ (∀ m : SentMsg, (s.dev.sess n).sent = [m] → marked (s.dev.sess n) m.seq = false → m.type ∉ [tTelemetry, tPrintLog] →
          m.at_ + s.dev.get F.JTP_RTO_RTO * 1000 ≤ s.dev.now + dt → BothSend s n m.bytes.length → BothSent s u n m.bytes)
      ∧ RegsKept [] s u ∧ MemKept s u := by
  obtain ⟨hspoken, hsess⟩ := forL_resend n (dueMsgs (s.dev.elapse dt) n) (s.dev.elapse dt)
  have heq := hf.trans (retransmitTimer_open (d := s.dev.elapse dt) hopen)
  obtain ⟨hnext, hregs, hmem⟩ := perform_spoken hready heq hspoken (by simp)
  refine ⟨_, hnext, (congrArg Sess.sent hsess).trans (sentAgain_due (d := s.dev.elapse dt) hseq), ?_, hregs, hmem⟩
  intro m hone hmark hclass hdue hsend
  have hsent : ((s.dev.elapse dt).sess n).sent = [m] := hone
  have hdue1 : dueMsgs (s.dev.elapse dt) n = [m] := by
    unfold dueMsgs outstanding
    rw [hsent]
    have hmark' : marked ((s.dev.elapse dt).sess n) m.seq = false := hmark
    have hdue' : m.at_ + (s.dev.elapse dt).get F.JTP_RTO_RTO * 1000 ≤ (s.dev.elapse dt).now := hdue
    simp only [List.filter_cons, List.filter_nil, hmark', hdue', Bool.not_false, decide_true, if_true]
  have hout : (forL (dueMsgs (s.dev.elapse dt) n) (resend n) (s.dev.elapse dt)).out
      = (sendClass n m.type m.bytes (sentOnce n m (s.dev.elapse dt))).out := by
    rw [hdue1, ← resend_eq]
    rfl
  exact bothSent_after hready (sentOnce_spoken n m (s.dev.elapse dt)).regs (by simp) rfl rfl hclass hout hsend

/-! ### A message of the data space -/

/-- Message of TYPE `t` with payload `p` that session `n` sends next. -/
def dataMsg (d : Dev) (n t : Nat) (resp : Bool) (p : List Byte) : SentMsg :=
  { seq := (d.sess n).txNum % 2 ^ 32, type := t, cost := jtpCost p.length false, at_ := d.now
    bytes := deviceMsg d n t ((d.sess n).txNum % 2 ^ 32) resp p, records := 0 }

/-- Session `n` has sent `m`: it is in the window, and the counter goes on. -/
def messageNoted (n : Nat) (m : SentMsg) (d : Dev) : Dev :=
  (d.setSess n { d.sess n with txNum := (d.sess n).txNum + 1, sent := (d.sess n).sent ++ [m] }).put (F.TX_NEXT_NEXT n) (m.seq + 1)

theorem messageNoted_spoken (n : Nat) (m : SentMsg) (d : Dev) : Spoken [R.TX_NEXT n] d (messageNoted n m d) :=
  ((Spoken.refl [R.TX_NEXT n] d).setSess n (x := { d.sess n with txNum := (d.sess n).txNum + 1, sent := (d.sess n).sent ++ [m] }) rfl).put
    (g := F.TX_NEXT_NEXT n) _ List.mem_cons_self

theorem messageNoted_sess (n : Nat) (m : SentMsg) (d : Dev) : (messageNoted n m d).sess n
    = { d.sess n with txNum := (d.sess n).txNum + 1, sent := (d.sess n).sent ++ [m] } :=
  (Dev.sess_put ..).trans (Dev.sess_setSess_same ..)

theorem messageNoted_next (n t : Nat) (resp : Bool) (p : List Byte) (d : Dev) :
    (messageNoted n (dataMsg d n t resp p) d).get (F.TX_NEXT_NEXT n) = ((d.sess n).txNum + 1) % 2 ^ 32 :=
  (Dev.get_put_same _ _ _ (le_refl 32)).trans (Nat.mod_add_mod ..)

/-- An OPEN unauthenticated session with window and credit sends. -/
theorem sendData_goes {d : Dev} {n : Nat} {p : List Byte} (hauth : d.get (F.SESS_CFG_AUTH_REQ n) = 0)
    (hopen : d.get (F.SESS_STAT_STATE n) = 2) (hroom : hasRoom d n (jtpCost p.length false) = true) (t : Nat) (resp : Bool) :
    sendData n t resp p 0 d
      = (true, sendClass n t (dataMsg d n t resp p).bytes (messageNoted n (dataMsg d n t resp p) d)) := by
  have hplain : d.getB (F.SESS_CFG_AUTH_REQ n) = false := Dev.getB_of_get_zero hauth
  have hup : sessOpen d n = true := by unfold sessOpen; rw [hopen]; rfl
  have hnote (x : Sess) : keyNote n 0 (d.sess n).txNum (d.setSess n x) = d.setSess n x := keyNote_plain (d := d.setSess n x) hauth _ _
  unfold sendData
  simp only [hplain, hup, hroom, maySend_plain hauth, hnote, Bool.not_true, Bool.or_false, Bool.false_eq_true, if_false]
  rfl

theorem reportSend_waiting {d : Dev} {n t c : Nat} {p : List Byte} {l : List (Nat × List Byte)}
    (hauth : d.get (F.SESS_CFG_AUTH_REQ n) = 0) (hopen : d.get (F.SESS_STAT_STATE n) = 2) (hqueue : (d.sess n).queue = (t, p) :: l)
    (hroom : hasRoom d n (jtpCost p.length false) = true) {e : Dev}
    (he : e = sendClass n t (dataMsg d n t (isResponse t) p).bytes (messageNoted n (dataMsg d n t (isResponse t) p) d)) :
    reportSend n 0 c d = e.setSess n { e.sess n with queue := l } := by
  have hup : sessOpen d n = true := by unfold sessOpen; rw [hopen]; rfl
  unfold reportSend
  simp only [hup, hqueue, sendData_goes hauth hopen hroom, ← he, Bool.not_true, Bool.false_eq_true, if_false, if_true]

theorem reportSend_command {dt : Nat} {n : Fin 16} {c t : Nat} {p : List Byte} {l : List (Nat × List Byte)} {s : State} {f : Dev → Dev}
    (hready : Ready s) (hauth : s.dev.get (F.SESS_CFG_AUTH_REQ n) = 0) (hopen : s.dev.get (F.SESS_STAT_STATE n) = 2)
    (hqueue : (s.dev.sess n).queue = (t, p) :: l) (hroom : hasRoom s.dev n (jtpCost p.length false) = true)
    (hf : f (s.dev.elapse dt) = reportSend n 0 c (s.dev.elapse dt)) :
    ∃ u m, perform dt s (fun d => afterCommand (f d)) = .next u ∧ (u.dev.sess n).queue = l
      ∧ (u.dev.sess n).sent = (s.dev.sess n).sent ++ [m] ∧ m.type = t ∧ m.at_ = s.dev.now + dt
      ∧ m.bytes = deviceMsg s.dev n t ((s.dev.sess n).txNum % 2 ^ 32) (isResponse t) p
      ∧ (t ∉ [tTelemetry, tPrintLog] → BothSend s n m.bytes.length → BothSent s u n m.bytes)
      ∧ u.dev.get (F.TX_NEXT_NEXT n) = ((s.dev.sess n).txNum + 1) % 2 ^ 32
      ∧ RegsKept [R.TX_NEXT n] s u ∧ MemKept s u := by
  have hbytes : (dataMsg (s.dev.elapse dt) n t (isResponse t) p).bytes
      = deviceMsg s.dev n t ((s.dev.sess n).txNum % 2 ^ 32) (isResponse t) p :=
    deviceMsg_kept (d := s.dev) hauth (l := []) (.of_regs rfl) (by simp) rfl ..
  have hnext0 := messageNoted_next n t (isResponse t) p (s.dev.elapse dt)
  have htype : (dataMsg (s.dev.elapse dt) n t (isResponse t) p).type = t := rfl
  have hat : (dataMsg (s.dev.elapse dt) n t (isResponse t) p).at_ = s.dev.now + dt := rfl
  have hsent := sendClass_sends n t (dataMsg (s.dev.elapse dt) n t (isResponse t) p).bytes
    (messageNoted n (dataMsg (s.dev.elapse dt) n t (isResponse t) p) (s.dev.elapse dt))
  have heq := reportSend_waiting (d := s.dev.elapse dt) (c := c) hauth hopen hqueue hroom rfl
  generalize dataMsg (s.dev.elapse dt) n t (isResponse t) p = m at *
  have hnoted := messageNoted_spoken n m (s.dev.elapse dt)
  have hsess := (hsent.sess n).trans (messageNoted_sess n m (s.dev.elapse dt))
  have hend : ∀ n : Fin 16, ∀ a ∈ endRegs, a ∉ [R.TX_NEXT n] := by decide
  have hleave : ∀ n : Fin 16, ∀ a ∈ R.JTP_CFG :: leaveRegs n, a ∉ [R.TX_NEXT n] := by decide
  obtain ⟨hperf, hregs, hmem⟩ := perform_spoken hready (hf.trans heq) ((hnoted.sends hsent).setSess n rfl) (hend n)
  refine ⟨_, m, hperf, congrArg Sess.queue (Dev.sess_setSess_same ..), ?_, htype, hat, hbytes, fun hclass hsend => ?_, ?_, hregs, hmem⟩
  · exact (congrArg Sess.sent (Dev.sess_setSess_same ..)).trans (congrArg Sess.sent hsess)
  · exact bothSent_after hready hnoted.regs (hleave n) rfl rfl hclass rfl hsend
  · exact (Dev.get_congr _ _ hsent.regs _).trans hnext0

end Sys2Proof.Machine
end

section
/-! SUPPORT. What an engine's read of memory finds (R322, R338): it depends on the bytes and on what is known of poison alone. -/
namespace Sys2Proof.Machine

/-! ### What decides whether memory is reached -/

/-- The registers that decide what master `m`, not a core, may reach. -/
def reachRegs (m : Nat) : List Nat :=
  [R.SHROUD_CLEAT_LO, R.SHROUD_CFG, R.SHROUD_MASTER m, R.DRAMC_CFG, R.DRAMC_STAT, R.DRAMC_FCHG]

/-- What a write of another register leaves reachable. -/
theorem Reachable.of_kept {l : List Nat} {d e : Dev} {m kind a n : Nat} (h : Reachable d m kind a n) (hr : Kept l d e)
    (hl : ∀ x ∈ reachRegs m, x ∉ l) (hcore : ¬ m < 4) (hm : m < 18) (hram : e.l2Ram = d.l2Ram) (hregions : e.regions = d.regions)
    (hheld : e.heldSteps = d.heldSteps) : Reachable e m kind a n := by
  obtain ⟨hcleat, hsteps, hbytes⟩ := h
  have hlevel : masterLevel e m = masterLevel d m := by
    unfold masterLevel
    rw [if_neg hcore, if_neg hcore, hr.get_eq (g := F.SHROUD_MASTER_LVL m) (hl _ (by simp [reachRegs]))]
  have hshroud (x : Nat) : shroudCheck e m kind x false = shroudCheck d m kind x false := by
    unfold shroudCheck unmapped decidingRegion regionHas regionPerm regionWord
    rw [hlevel, hram, hregions, hr.getB_eq (g := F.SHROUD_CFG_EN) (hl _ (by simp [reachRegs])),
      hr.get_eq (g := F.SHROUD_MASTER_GROUP m) (hl _ (by simp [reachRegs]))]
  have hserves (x : Nat) : dramServes e x = dramServes d x := by
    unfold dramServes dramCap
    rw [hr.getB_eq (g := F.DRAMC_STAT_READY) (hl _ (by simp [reachRegs])), hr.get_eq (g := F.DRAMC_CFG_RANKS) (hl _ (by simp [reachRegs])),
      hr.get_eq (g := F.DRAMC_CFG_WIDTH) (hl _ (by simp [reachRegs])), hr.get_eq (g := F.DRAMC_CFG_DENS) (hl _ (by simp [reachRegs]))]
  refine ⟨(cleated_low (hr.reg_eq (hl _ (by simp [reachRegs]))) (by omega)).trans hcleat, ?_, fun i hi => ?_⟩
  · unfold stepsHeld
    rw [hheld]
    exact hsteps
  · rw [hshroud, hserves, hram, hr.getB_eq (g := F.DRAMC_FCHG_BUSY) (hl _ (by simp [reachRegs]))]
    exact hbytes i hi

/-! ### What is found -/

/-- What a read of `n` bytes at `a`, within one line, finds: none where one is poison. -/
def pieceFound (d : Dev) (a n : Nat) : Option (List Byte) :=
  if inDram a then (if dramPoisoned d a n then none else some ((List.range n).map (fun i => cellGet 0 d.dram (a + i))))
  else (if l2Poisoned d (a - 0x20000000) n then none else some ((List.range n).map (fun i => cellGet 0 d.l2 (a - 0x20000000 + i))))

/-- Two parts of what a read finds. -/
def joinFound : Option (List Byte) → Option (List Byte) → Option (List Byte)
  | some x, some y => some (x ++ y)
  | _, _ => none

/-- What a read of `n` bytes from `a` finds. -/
def found (d : Dev) (a n : Nat) : Option (List Byte) :=
  (linePieces (n + 1) a n).foldl (fun x q => joinFound x (pieceFound d q.1 q.2)) (some [])

/-- `e` holds the same bytes of memory as `d`, and knows the same of their poison. -/
structure SameBytes (d e : Dev) : Prop where
  dram : e.dram = d.dram
  l2 : e.l2 = d.l2
  ue : e.ue = d.ue
  remap : e.remap = d.remap

theorem DramTouch.sameBytes {d e : Dev} (h : DramTouch d e) : SameBytes d e := ⟨h.dram, h.l2, h.ue, h.remap⟩

theorem SameBytes.piece {d e : Dev} (h : SameBytes d e) (a n : Nat) : pieceFound e a n = pieceFound d a n := by
  unfold pieceFound dramPoisoned spareBad l2Poisoned poisoned
  rw [h.dram, h.l2, h.ue, h.remap]

theorem SameBytes.found {d e : Dev} (h : SameBytes d e) (a n : Nat) : Machine.found e a n = Machine.found d a n := by
  unfold Machine.found
  simp only [h.piece]

/-! ### Reading it -/

theorem engineRead1_found {m a n k : Nat} {d : Dev} (h : Reachable d m kindRead a n) (hn : 0 < n) :
    (engineRead1 m a k d).1 = pieceFound d a k := by
  obtain ⟨hs, -, -, hb⟩ := h.backed hn
  unfold engineRead1
  rw [if_neg (by simp [h.1])]
  simp only [hs, if_true]
  unfold targetRead pieceFound
  rcases hb with ⟨hdram, -, hserves, hbusy⟩ | ⟨hdram, hl2, hram⟩
  · have t := dramAccept_touch m a false d
    simp only [hdram, if_true, hserves]
    unfold dramPoisoned spareBad dramLoad dramView
    rw [t.ue, t.remap, t.busy, t.dram, hbusy]
    rfl
  · simp only [hdram, hl2, hram, Bool.true_and, if_true, Bool.false_eq_true, if_false]

/-- One piece of an engine's read, behind what the pieces before it found. -/
def readPiece (m : Nat) (p : Option (List Byte) × Dev) (q : Nat × Nat) : Option (List Byte) × Dev :=
  (joinFound p.1 (engineRead1 m q.1 q.2 p.2).1, (engineRead1 m q.1 q.2 p.2).2)

theorem engineRead_pieces (m a n : Nat) (d : Dev) : engineRead m a n d
    = (((linePieces (n + 1) a n).foldl (readPiece m) (some [], d)).1, dramRun ((linePieces (n + 1) a n).foldl (readPiece m) (some [], d)).2) :=
  rfl

/-- A read of memory that the engine may reach gives what is found there. -/
theorem engineRead_found {m a n : Nat} {d : Dev} (hm : m < 18) (h : Reachable d m kindRead a n) : (engineRead m a n d).1 = found d a n := by
  have hfold (l : List (Nat × Nat)) (hl : ∀ q ∈ l, 0 < q.2 ∧ a ≤ q.1 ∧ q.1 + q.2 ≤ a + n) (x : Option (List Byte)) (e : Dev)
      (he : DramTouch d e) : (l.foldl (readPiece m) (x, e)).1 = l.foldl (fun x q => joinFound x (pieceFound d q.1 q.2)) x := by
    induction l generalizing x e with
    | nil => rfl
    | cons q l ih =>
      obtain ⟨hpos, hlo, hhi⟩ := hl q List.mem_cons_self
      have hq := (he.reachable hm h).sub hlo hhi
      have hpiece : (engineRead1 m q.1 q.2 e).1 = pieceFound d q.1 q.2 := (engineRead1_found hq hpos).trans (he.sameBytes.piece _ _)
      rw [List.foldl_cons, List.foldl_cons, readPiece, hpiece]
      exact ih (fun q hq => hl q (List.mem_cons_of_mem _ hq)) _ _ (he.trans (engineRead1_reachable hq hpos))
  rw [engineRead_pieces]
  exact hfold _ (linePieces_within (n + 1) a n) (some []) d (.refl d)

end Sys2Proof.Machine
end

section
/-! SUPPORT. O19: the management transmit ring (R118, R135), and the obligation. -/
namespace Sys2Proof.Machine

/-! ### MTX_TAIL -/

theorem pageWrite_jtp {a : Nat} (h : a / 0x1000 = 0x0D) (v : Nat) (d : Dev) : pageWrite a v d = writeJtp a v d := by
  unfold pageWrite
  rw [h]
  rfl

/-- A write of MTX_TAIL moves the tail, and the ring is dealt with (R118). -/
theorem registerWrite_mtxTail (v : Nat) (d : Dev) : registerWrite R.MTX_TAIL v d = mtxTailWrite v d := by
  have hdesc : ∃ r, regDesc (R.MTX_TAIL / 0x1000) (R.MTX_TAIL % 0x1000) = some r ∧ r.ranges = [] := by decide
  have hshadow : pageShadow (R.MTX_TAIL / 0x1000) = false := by decide
  have hcross : crossRangeOk R.MTX_TAIL v d = true := by
    unfold crossRangeOk
    rw [if_neg (by decide), if_neg (by decide), show whichOf 8 R.VIEW_CFG R.MTX_TAIL = none by decide]
    rfl
  have hpage : pageWrite R.MTX_TAIL v d = mtxTailWrite v d := by
    rw [pageWrite_jtp (by decide)]
    unfold writeJtp
    rw [if_neg (by decide), if_neg (by decide), if_pos rfl]
  obtain ⟨r, hr, hranges⟩ := hdesc
  unfold registerWrite
  rw [if_neg (by decide), if_neg (by decide)]
  simp only [hshadow, Bool.false_eq_true, if_false, hr, hcross]
  rw [if_neg (by decide), if_neg (by decide), if_neg (by simp [rangesOk, hranges]), hpage]

theorem DramTouch.planJob {d e : Dev} (h : DramTouch d e) : e.planJob = d.planJob := by obtain ⟨⟨_, _, _, _, _, _, _, rfl⟩, -⟩ := h; rfl

theorem DramTouch.sess_eq {d e : Dev} (h : DramTouch d e) (k : Nat) : e.sess k = d.sess k := by unfold Dev.sess; rw [h.sess]

/-! ### What a message may be -/

/-- The registers that bound the payload of session `n`. -/
def payloadRegs (n : Nat) : List Nat := [R.SESS_CFG n, R.ETH_CFG 0, R.ETH_CFG 1, R.PATH_STAT]

theorem payloadMax_kept {l : List Nat} {d e : Dev} {n : Nat} (hr : Kept l d e) (hl : ∀ a ∈ payloadRegs n, a ∉ l) (hs : e.sess n = d.sess n)
    (t : Nat) : payloadMax e n t = payloadMax d n t := by
  have hsess : R.SESS_CFG n ∉ l := hl _ (by simp [payloadRegs])
  have hactive : activePort e = activePort d := hr.get_eq (g := F.PATH_STAT_ACTIVE) (hl _ (by simp [payloadRegs]))
  have hfit {q : Nat} (hq : q < 2) : e.get (F.ETH_CFG_MAX_FRAME q) = d.get (F.ETH_CFG_MAX_FRAME q) ∧ frameOver e n q = frameOver d n q := by
    have hport : R.ETH_CFG q ∉ l := by
      obtain rfl | rfl : q = 0 ∨ q = 1 := by omega
      · exact hl _ (by simp [payloadRegs])
      · exact hl _ (by simp [payloadRegs])
    refine ⟨hr.get_eq (g := F.ETH_CFG_MAX_FRAME q) hport, ?_⟩
    unfold frameOver
    rw [hr.getB_eq (g := F.ETH_CFG_VLAN_EN q) hport, hr.getB_eq (g := F.SESS_CFG_IP6 n) hsess]
  unfold payloadMax
  simp only [hactive, hs, hr.getB_eq (g := F.SESS_CFG_AUTH_REQ n) hsess, (hfit (q := 0) (by omega)).1, (hfit (q := 0) (by omega)).2,
    (hfit (q := 1) (by omega)).1, (hfit (q := 1) (by omega)).2, (hfit (activePort_lt d)).1, (hfit (activePort_lt d)).2]

theorem hasRoom_congr {d e : Dev} {n : Nat} (h : e.sess n = d.sess n) (cost : Nat) : hasRoom e n cost = hasRoom d n cost := by
  unfold hasRoom
  rw [h]

/-! ### A record of the ring -/

/-- A recursion on a number unfolds by one step, whatever its step is. -/
theorem brecOn_succ {α : Type} (step : ∀ k, Nat.below (motive := fun _ => α → α) k → α → α) (k : Nat) :
    ∃ x : Nat.below (motive := fun _ => α → α) (k + 1), ∀ a,
      Nat.brecOn (motive := fun _ => α → α) (k + 1) step a = step (k + 1) x a ∧ Nat.brecOn (motive := fun _ => α → α) k step a = x.1 a :=
  ⟨_, fun _ => ⟨rfl, rfl⟩⟩

/-- The ring unfolds by one record. Its equation lemma is out of the kernel's reach, which evaluates the read of the record's 16 bytes
to compare what follows: `x` keeps what follows apart. -/
theorem mtxRun_step (k : Nat) : ∃ x, ∀ d, mtxRun (k + 1) d = mtxRun._f (k + 1) x d ∧ mtxRun k d = x.1 d := by
  delta mtxRun
  exact brecOn_succ mtxRun._f k

theorem mtxRun_empty {d : Dev} (h : d.get F.MTX_HEAD_HEAD = d.get F.MTX_TAIL_TAIL) (k : Nat) : mtxRun k d = d := by
  cases k with
  | zero => rfl
  | succ k =>
    obtain ⟨x, hstep⟩ := mtxRun_step k
    rw [(hstep d).1]
    exact if_pos (.inl h)

/-- Telemetry `p` of session `n` has gone from the ring of `d`. -/
def telemetrySent (n : Nat) (p : List Byte) (d : Dev) : Dev :=
  (sendClass n tTelemetry (dataMsg d n tTelemetry false p).bytes (messageNoted n (dataMsg d n tTelemetry false p) d))

/-- MTX_HEAD stands at `h`. -/
def headMoved (h : Nat) (d : Dev) : Dev := d.put F.MTX_HEAD_HEAD h

/-- What the ring needs to send telemetry `p` in session `n`: it is OPEN without authentication, nothing waits before it, and window,
credit and the RIP's largest payload allow it. -/
structure MaySendTelemetry (d : Dev) (n : Nat) (p : List Byte) : Prop where
  auth : d.get (F.SESS_CFG_AUTH_REQ n) = 0
  opened : d.get (F.SESS_STAT_STATE n) = 2
  fits : p.length ≤ payloadMax d n tTelemetry
  first : (d.sess n).queue = []
  room : hasRoom d n (jtpCost p.length false) = true

theorem MaySendTelemetry.of_kept {l : List Nat} {d e : Dev} {n : Nat} {p : List Byte} (h : MaySendTelemetry d n p) (hr : Kept l d e)
    (hl : ∀ a ∈ R.SESS_STAT n :: payloadRegs n, a ∉ l) (hs : e.sess n = d.sess n) : MaySendTelemetry e n p where
  auth := (hr.get_eq (g := F.SESS_CFG_AUTH_REQ n) (hl _ (by simp [payloadRegs]))).trans h.auth
  opened := (hr.get_eq (g := F.SESS_STAT_STATE n) (hl _ (by simp))).trans h.opened
  fits := by
    rw [payloadMax_kept hr (fun a ha => hl a (List.mem_cons_of_mem _ ha)) hs]
    exact h.fits
  first := (congrArg Sess.queue hs).trans h.first
  room := (hasRoom_congr hs _).trans h.room

/-- The record at the head of the ring, at `a` of memory, is `rec`, of telemetry `p` of session `n`; the ring may read it, and it can
go. -/
structure TelemetryDue (d : Dev) (n a : Nat) (rec p : List Byte) : Prop where
  addr : a = d.get2 F.MTX_BASE_LO_BASE F.MTX_BASE_HI_BASE + 16 * d.get F.MTX_HEAD_HEAD
  rate : (d.getB F.DRAMC_FCHG_BUSY && !d.getB F.DRAMC_STAT_SELFREF) = false
  reach : Reachable d mJtpRings kindRead a 16
  record : found d a 16 = some rec
  type : byteAt rec 10 = tTelemetry
  session : byteAt rec 11 = n
  buffer : Reachable d mJtpRings kindRead (leAt rec 0 5) (leAt rec 8 2)
  data : found d (leAt rec 0 5) (leAt rec 8 2) = some p
  may : MaySendTelemetry d n p

/-- Telemetry in memory that the ring may read goes at once. -/
theorem mtxRun_telemetry {d : Dev} {n : Fin 16} {a : Nat} {rec p : List Byte} (hdue : d.get F.MTX_HEAD_HEAD ≠ d.get F.MTX_TAIL_TAIL)
    (h : TelemetryDue d n a rec p) (k : Nat) :
    ∃ e, DramTouch d e ∧ mtxRun (k + 1) d = mtxRun k (headMoved ((d.get F.MTX_HEAD_HEAD + 1)
      % max 1 ((telemetrySent n p e).get F.MTX_SIZE_SIZE)) (telemetrySent n p e)) := by
  obtain ⟨rfl, hrate, hreach, hrec, htype, hsess, hbuf, hdata, hmay⟩ := h
  have t1 := engineRead_touch (by decide) hreach hrate
  have t2 := engineRead_touch (by decide) (t1.reachable (by decide) hbuf) (t1.rate hrate)
  have hrec1 := (engineRead_found (by decide) hreach).trans hrec
  have hdata1 := (engineRead_found (by decide) (t1.reachable (by decide) hbuf)).trans ((t1.sameBytes.found _ _).trans hdata)
  refine ⟨_, t1.trans t2, ?_⟩
  have hapart : ∀ n : Fin 16, ∀ x ∈ R.SESS_STAT n :: payloadRegs n, x ∉ memRegs := by decide
  have hmay2 := hmay.of_kept (t1.trans t2).regs (hapart n) ((t1.trans t2).sess_eq n)
  generalize he : (engineRead mJtpRings (leAt rec 0 5) (leAt rec 8 2) _).2 = e at hmay2 ⊢
  have hopen : sessOpen e n = true := by unfold sessOpen; rw [hmay2.opened]; rfl
  have hgo : (!sessOpen e n || decide (payloadMax e n tTelemetry < p.length)) = false := by
    rw [hopen, decide_eq_false (Nat.not_lt.2 hmay2.fits)]
    rfl
  have hsend : sendData n tTelemetry false p 0 e = (true, telemetrySent n p e) := sendData_goes hmay2.auth hmay2.opened hmay2.room _ _
  obtain ⟨x, hstep⟩ := mtxRun_step k
  rw [(hstep d).1, (hstep _).2]
  refine (if_neg (by simp [hdue, hreach.1])).trans ?_
  simp only [hrec1, hdata1, he, htype, hsess, hgo, hmay2.first, hsend, List.isEmpty_nil, Bool.false_eq_true, if_true, if_false]
  rfl

/-! ### The tail is written -/

/-- MTX_TAIL stands at `v`. -/
def tailMoved (v : Nat) (d : Dev) : Dev := d.put F.MTX_TAIL_TAIL v

theorem tailMoved_spoken (v : Nat) (d : Dev) : Spoken [R.MTX_TAIL] d (tailMoved v d) :=
  (Spoken.refl [R.MTX_TAIL] d).put (g := F.MTX_TAIL_TAIL) v List.mem_cons_self

theorem headMoved_spoken (h : Nat) (d : Dev) : Spoken [R.MTX_HEAD] d (headMoved h d) :=
  (Spoken.refl [R.MTX_HEAD] d).put (g := F.MTX_HEAD_HEAD) h List.mem_cons_self

theorem telemetrySent_spoken (n : Nat) (p : List Byte) (d : Dev) : Spoken [R.TX_NEXT n] d (telemetrySent n p d) :=
  (messageNoted_spoken ..).sends (sendClass_sends ..)

theorem telemetrySent_sent (n : Nat) (p : List Byte) (d : Dev) :
    ((telemetrySent n p d).sess n).sent = (d.sess n).sent ++ [dataMsg d n tTelemetry false p] :=
  congrArg Sess.sent (((sendClass_sends ..).sess n).trans (messageNoted_sess ..))

theorem TelemetryDue.tailMoved {d : Dev} {n : Fin 16} {a : Nat} {rec p : List Byte} (h : TelemetryDue d n a rec p) (v : Nat) :
    TelemetryDue (tailMoved v d) n a rec p := by
  have hr : Kept [R.MTX_TAIL] d (Machine.tailMoved v d) := (tailMoved_spoken v d).regs
  have hsame : SameBytes d (Machine.tailMoved v d) := ⟨rfl, rfl, rfl, rfl⟩
  have hreg : ∀ x ∈ reachRegs mJtpRings, x ∉ [R.MTX_TAIL] := by decide
  have hsend : ∀ n : Fin 16, ∀ x ∈ R.SESS_STAT n :: payloadRegs n, x ∉ [R.MTX_TAIL] := by decide
  have hbase : (Machine.tailMoved v d).get2 F.MTX_BASE_LO_BASE F.MTX_BASE_HI_BASE = d.get2 F.MTX_BASE_LO_BASE F.MTX_BASE_HI_BASE := by
    unfold Dev.get2
    rw [hr.get_eq (g := F.MTX_BASE_LO_BASE) (by decide), hr.get_eq (g := F.MTX_BASE_HI_BASE) (by decide)]
  exact {
    addr := by rw [hbase, hr.get_eq (g := F.MTX_HEAD_HEAD) (by decide)]; exact h.addr
    rate := by
      rw [hr.getB_eq (g := F.DRAMC_FCHG_BUSY) (by decide), hr.getB_eq (g := F.DRAMC_STAT_SELFREF) (by decide)]
      exact h.rate
    reach := h.reach.of_kept hr hreg (by decide) (by decide) rfl rfl rfl
    record := (hsame.found ..).trans h.record
    type := h.type
    session := h.session
    buffer := h.buffer.of_kept hr hreg (by decide) (by decide) rfl rfl rfl
    data := (hsame.found ..).trans h.data
    may := h.may.of_kept hr (hsend n) rfl }

/-- The tail moved on by one record, of telemetry that can go: it goes, and the head follows. -/
theorem mtxTailWrite_telemetry {d : Dev} {n : Fin 16} {v a : Nat} {rec p : List Byte} (hv : v < 65536) (hne : d.get F.MTX_HEAD_HEAD ≠ v)
    (hsize : 1 < d.get F.MTX_SIZE_SIZE) (hnext : v = (d.get F.MTX_HEAD_HEAD + 1) % d.get F.MTX_SIZE_SIZE)
    (h : TelemetryDue d n a rec p) :
    ∃ e, DramTouch (tailMoved v d) e ∧ mtxTailWrite v d = headMoved v (telemetrySent n p e)
      ∧ (headMoved v (telemetrySent n p e)).get F.MTX_HEAD_HEAD = v ∧ (headMoved v (telemetrySent n p e)).get F.MTX_TAIL_TAIL = v := by
  have hr : Kept [R.MTX_TAIL] d (tailMoved v d) := (tailMoved_spoken v d).regs
  have htail : (tailMoved v d).get F.MTX_TAIL_TAIL = v := (Dev.get_put_same d F.MTX_TAIL_TAIL v (by decide)).trans (Nat.mod_eq_of_lt hv)
  have hhead : (tailMoved v d).get F.MTX_HEAD_HEAD = d.get F.MTX_HEAD_HEAD := hr.get_eq (by decide)
  obtain ⟨k, hk⟩ : ∃ k, d.get F.MTX_SIZE_SIZE = k + 1 := ⟨_, (Nat.succ_pred_eq_of_pos (by omega)).symm⟩
  obtain ⟨e, t, hrun⟩ := mtxRun_telemetry (by rwa [hhead, htail]) (h.tailMoved v) k
  have hring : ∀ n : Fin 16, R.MTX_SIZE ∉ [R.TX_NEXT n] ∧ R.MTX_TAIL ∉ [R.TX_NEXT n] := by decide
  have hsent := (telemetrySent_spoken n p e).regs
  have hsize1 : (telemetrySent n p e).get F.MTX_SIZE_SIZE = d.get F.MTX_SIZE_SIZE :=
    (hsent.get_eq (hring n).1).trans ((t.regs.get_eq (by decide)).trans (hr.get_eq (by decide)))
  have htail1 : (headMoved v (telemetrySent n p e)).get F.MTX_TAIL_TAIL = v :=
    ((headMoved_spoken ..).regs.get_eq (by decide)).trans ((hsent.get_eq (hring n).2).trans ((t.regs.get_eq (by decide)).trans htail))
  have hhead1 : (headMoved v (telemetrySent n p e)).get F.MTX_HEAD_HEAD = v :=
    (Dev.get_put_same _ F.MTX_HEAD_HEAD v (by decide)).trans (Nat.mod_eq_of_lt hv)
  rw [hhead, hsize1, Nat.max_eq_right hsize.le, ← hnext, mtxRun_empty (hhead1.trans htail1.symm)] at hrun
  refine ⟨e, t, ?_, hhead1, htail1⟩
  unfold mtxTailWrite
  rw [hk]
  exact hrun

/-! ### The command -/

/-- The registers that telemetry of session `n` in the ring changes. -/
abbrev ringRegsOf (n : Nat) : List Nat := [R.MTX_TAIL, R.MTX_HEAD, R.TX_NEXT n] ++ memRegs

/-- What decides what becomes of the record, and what follows the command, is none of them. -/
theorem ringRegsOf_apart : ∀ n : Fin 16, (∀ x ∈ R.JTP_CFG :: R.PATH_STAT :: leaveRegs n, x ∉ ringRegsOf n)
    ∧ (∀ x ∈ msgRegs n, x ∉ ringRegsOf n) ∧ ∀ x ∈ endRegs, x ∉ ringRegsOf n := by decide

/-- Telemetry of session `n` that goes out from `d`, which has the ports and the session as the block has them, leaves on the active
port. -/
theorem telemetry_leaves {dt : Nat} {s : State} {d e : Dev} {l : List Nat} {n : Nat} {bs : List Byte} (hready : Ready s)
    (hl : ∀ a ∈ R.JTP_CFG :: R.PATH_STAT :: leaveRegs n, a ∉ l) (hr : Kept l (s.dev.elapse dt) d) (hpath : d.path = s.dev.path)
    (hout : d.out = s.dev.out) (hsend : PortSends s n (activePort s.dev) bs.length) (he : e.out = (sendClass n tTelemetry bs d).out) :
    ∃ f, (s.after e).wire = .eth (activePort s.dev) f :: s.wire ∧ Carries s n f bs := by
  obtain ⟨-, ⟨-, -, hidle⟩, -⟩ := hready
  have hleave : ∀ a ∈ leaveRegs n, a ∉ l := fun a ha => hl a (List.mem_cons_of_mem _ (List.mem_cons_of_mem _ ha))
  have hactive : activePort d = activePort s.dev := hr.get_eq (g := F.PATH_STAT_ACTIVE) (hl _ (by simp))
  have hport : d.get F.JTP_CFG_UDP_PORT = s.dev.get F.JTP_CFG_UDP_PORT := hr.get_eq (hl _ (by simp))
  have hpeer : d.get (F.SESS_CFG_PEER_PORT n) = s.dev.get (F.SESS_CFG_PEER_PORT n) := hr.get_eq (hleave _ (by simp [leaveRegs]))
  have hleaves : Leaves d n (activePort d) bs.length := by
    rw [hactive]
    exact Leaves.of_kept (d := s.dev.elapse dt) hsend (activePort_lt _) hr hleave (congrArg PathSt.txWait hpath)
  obtain ⟨f, hsent, hcarries⟩ := sendClass_active hleaves
  unfold CarriesFrom at hcarries
  rw [hport, hpeer] at hcarries
  rw [hactive] at hsent
  have hwire : e.out = [.eth (activePort s.dev) f] := he.trans (hsent.trans (congrArg (_ :: ·) (hout.trans hidle)))
  exact ⟨f, congrArg (· ++ s.wire) hwire, hcarries⟩

/-- A write of MTX_TAIL on a ready block whose ring holds telemetry that can go. -/
theorem mtxTail_command {dt : Nat} {n : Fin 16} {s : State} {v a : Nat} {rec p : List Byte} {f : Dev → Dev} (hready : Ready s)
    (hv : v < 65536) (hne : s.dev.get F.MTX_HEAD_HEAD ≠ v) (hsize : 1 < s.dev.get F.MTX_SIZE_SIZE)
    (hnext : v = (s.dev.get F.MTX_HEAD_HEAD + 1) % s.dev.get F.MTX_SIZE_SIZE) (h : TelemetryDue (s.dev.elapse dt) n a rec p)
    (hf : f (s.dev.elapse dt) = mtxTailWrite v (s.dev.elapse dt)) :
    ∃ u m, perform dt s (fun d => afterCommand (f d)) = .next u ∧ u.dev.get F.MTX_TAIL_TAIL = v ∧ u.dev.get F.MTX_HEAD_HEAD = v
      ∧ (u.dev.sess n).sent = (s.dev.sess n).sent ++ [m]
      ∧ m.bytes = deviceMsg s.dev n tTelemetry ((s.dev.sess n).txNum % 2 ^ 32) false p
      ∧ (PortSends s n (activePort s.dev) m.bytes.length →
          ∃ f, u.wire = .eth (activePort s.dev) f :: s.wire ∧ Carries s n f m.bytes)
      ∧ RegsKept (ringRegsOf n) s u ∧ MemKept s u := by
  obtain ⟨hleave, hmsg, hend⟩ := ringRegsOf_apart n
  obtain ⟨e, t, hwrite, hhead, htail⟩ := mtxTailWrite_telemetry (d := s.dev.elapse dt) hv hne hsize hnext h
  have hmoved := tailMoved_spoken v (s.dev.elapse dt)
  have hsent := telemetrySent_spoken n p e
  -- up to the message, and up to the end of the command
  have k1 : Talked (ringRegsOf n) (s.dev.elapse dt) e :=
    .trans (.mono (.of_spoken hmoved) (by simp)) (.mono (.of_touch t) (List.subset_append_right ..))
  have k2 : Talked (ringRegsOf n) e (headMoved v (telemetrySent n p e)) :=
    .trans (.mono (.of_spoken hsent) (by simp)) (.mono (.of_spoken (headMoved_spoken ..)) (by simp))
  obtain ⟨t2, hperf⟩ := perform_talked hready (hf.trans hwrite) (k1.trans k2) hend
  have hsess : e.sess n = s.dev.sess n := t.sess_eq n
  have hbytes : (dataMsg e n tTelemetry false p).bytes = deviceMsg s.dev n tTelemetry ((s.dev.sess n).txNum % 2 ^ 32) false p := by
    refine Eq.trans ?_ (deviceMsg_kept (d := s.dev) h.may.auth k1.regs hmsg t.planJob ..)
    rw [← hsess]
    rfl
  have hdram := (t2.dram.trans ((headMoved_spoken ..).dram.trans hsent.dram)).trans (t.dram.trans hmoved.dram)
  have hl2 := (t2.l2.trans ((headMoved_spoken ..).l2.trans hsent.l2)).trans (t.l2.trans hmoved.l2)
  refine ⟨_, dataMsg e n tTelemetry false p, hperf, ?_, ?_, ?_, hbytes, fun hports => ?_, ?_, memKept_of_same hdram hl2⟩
  · exact (t2.regs.get_eq (g := F.MTX_TAIL_TAIL) (by decide)).trans htail
  · exact (t2.regs.get_eq (g := F.MTX_HEAD_HEAD) (by decide)).trans hhead
  · have hmsgs := telemetrySent_sent n p e
    rw [hsess] at hmsgs
    exact (congrArg Sess.sent (t2.sess_eq n)).trans hmsgs
  · exact telemetry_leaves hready hleave (k1.regs.trans ((messageNoted_spoken n (dataMsg e n tTelemetry false p) e).regs.mono (by simp)))
      t.path t.out hports (t2.out.trans rfl)
  · exact (k1.trans k2).regs.trans (t2.regs.mono (List.subset_append_right ..))

end Sys2Proof.Machine
end

section
/-! SUPPORT. O19: the timers, the reports and the ring complete as R115, R118 and R135 say. -/
namespace Sys2Proof.Machine

theorem jtpOn_enabled {d : Dev} (h : d.get (F.PG_CTL_EN 0x0D) = 1) (f : Dev → Dev) : jtpOn f d = f d := if_pos (Dev.getB_of_get_one h)

theorem ackTimer_due {d : Dev} {n t : Nat} (hopen : d.get (F.SESS_STAT_STATE n) = 2) (hfirst : (d.sess n).firstAt = some t)
    (hdue : t + d.get F.JTP_TMR_ACK_TMO * 1000 ≤ d.now) : ackTimer n d = feedback n tAck 0 0 d := by
  unfold ackTimer sessOpen
  rw [hfirst, hopen]
  exact if_pos (by simp only [beq_self_eq_true, Bool.true_and, decide_eq_true hdue])

theorem nakHoldTimer_due {d : Dev} {n : Nat} (hopen : d.get (F.SESS_STAT_STATE n) = 2) (hgot : (d.sess n).got ≠ 0)
    (hcum : (d.sess n).nakCum = some (d.get (F.RX_CUM_CUM n))) (hdue : (d.sess n).nakAt + d.get F.JTP_TMR_NAK_HOLD * 1000 ≤ d.now) :
    nakHoldTimer n d = feedback n tNak 1 (d.get (F.RX_CUM_CUM n)) d := by
  unfold nakHoldTimer sessOpen
  exact if_pos (by simp only [hopen, hcum, beq_self_eq_true, Bool.true_and, bne_iff_ne.2 hgot, decide_eq_true hdue])

/-- The record that the engine reads is the one that memory holds. -/
theorem TelemetryDue.of_reads {dt : Nat} {s : State} {n a : Nat} {rec p : List Byte} (hready : Ready s)
    (haddr : a = s.dev.get2 F.MTX_BASE_LO_BASE F.MTX_BASE_HI_BASE + 16 * s.dev.get F.MTX_HEAD_HEAD)
    (hreach : Reach s mJtpRings kindRead a 16) (hrec : (engineRead mJtpRings a 16 (s.dev.elapse dt)).1 = some rec)
    (htype : byteAt rec 10 = tTelemetry) (hsess : byteAt rec 11 = n) (hbuf : Reach s mJtpRings kindRead (leAt rec 0 5) (leAt rec 8 2))
    (hdata : (engineRead mJtpRings (leAt rec 0 5) (leAt rec 8 2) (engineRead mJtpRings a 16 (s.dev.elapse dt)).2).1 = some p)
    (hmay : MaySendTelemetry s.dev n p) : TelemetryDue (s.dev.elapse dt) n a rec p := by
  have hreach' : Reachable (s.dev.elapse dt) mJtpRings kindRead a 16 := hreach
  have hbuf' : Reachable (s.dev.elapse dt) mJtpRings kindRead (leAt rec 0 5) (leAt rec 8 2) := hbuf
  have hrate := (Quiet.of_ready hready dt).rate
  have t := engineRead_touch (by decide) hreach' hrate
  exact {
    addr := haddr
    rate := hrate
    reach := hreach'
    record := (engineRead_found (by decide) hreach').symm.trans hrec
    type := htype
    session := hsess
    buffer := hbuf'
    data := (t.sameBytes.found _ _).symm.trans ((engineRead_found (by decide) (t.reachable (by decide) hbuf')).symm.trans hdata)
    may := hmay.of_kept (l := []) (.of_regs rfl) (by simp) rfl }

/-- Settles O19: each command is one effect on the session (the feedback, the messages that go again, the message sent), and what goes
out leaves as `sendClass` says; the record of the ring is read as memory holds it. -/
theorem transportTimersAndReports : Obligations.TransportTimersAndReports := by
  unfold Obligations.TransportTimersAndReports
  intro dt n s hready hen hopen hauth
  have hon (f : Dev → Dev) : jtpOn f (s.dev.elapse dt) = f (s.dev.elapse dt) := jtpOn_enabled (d := s.dev.elapse dt) hen f
  refine ⟨?_, ?_, ?_, ?_, ?_⟩
  · intro t hfirst hdue
    obtain ⟨u, hnext, hsess, hsent, hregs, hmem⟩ := feedback_command (reason := 0) (bad := 0) hready hauth (by decide)
      ((hon (ackTimer n)).trans (ackTimer_due (d := s.dev.elapse dt) hopen hfirst hdue))
    obtain ⟨hcovers, hsince⟩ := fedBack_covers tAck (grant s.dev n) (s.dev.get (F.RX_CUM_CUM n)) (s.dev.now + dt) (s.dev.sess n)
    rw [← ackBody_eq]
    refine ⟨u, hnext, ?_, ?_, ?_, hsent, hregs, hmem⟩ <;> rw [hsess]
    · exact hcovers
    · exact hsince
    · exact fedBack_fbNum ..
  · intro hgot hcum hdue
    obtain ⟨u, hnext, hsess, hsent, hregs, hmem⟩ := feedback_command hready hauth (by decide)
      ((hon (nakHoldTimer n)).trans (nakHoldTimer_due (d := s.dev.elapse dt) hopen hgot hcum hdue))
    obtain ⟨hnak, hat⟩ := fedBack_gap hgot (grant s.dev n) (s.dev.get (F.RX_CUM_CUM n)) (s.dev.now + dt)
    rw [← nakBody_eq]
    refine ⟨u, hnext, ?_, ?_, ?_, hsent, hregs, hmem⟩ <;> rw [hsess]
    · exact hat
    · exact hnak.trans hcum.symm
    · exact fedBack_fbNum ..
  · intro hseq
    exact retransmit_command hready hopen hseq (hon (retransmitTimer n))
  · intro c t p l hqueue hroom
    exact reportSend_command hready hauth hopen hqueue hroom (hon (reportSend n 0 c))
  · intro v a rec p hsize hnext hhead haddr hreach hrec htype hsess hbuf hdata hfits hqueue hroom
    have hbound : s.dev.get F.MTX_SIZE_SIZE < 65536 := Dev.get_lt s.dev F.MTX_SIZE_SIZE
    have hmod := succ_mod_wrap hhead
    have hv : v.toNat < 65536 := by rw [hnext]; exact (Nat.mod_lt _ (by omega)).trans hbound
    have hne : s.dev.get F.MTX_HEAD_HEAD ≠ v.toNat := by rw [hnext, hmod]; split <;> omega
    exact mtxTail_command hready hv hne hsize hnext
      (.of_reads hready haddr hreach hrec htype hsess hbuf hdata ⟨hauth, hopen, hfits, hqueue, hroom⟩)
      (registerWrite_mtxTail v.toNat (s.dev.elapse dt))

end Sys2Proof.Machine
end

section
/-! SUPPORT. What the arrival of a JTP message touches (R93, R99, R103): the paths' notes, and the state of JTP. -/
namespace Sys2Proof.Machine

/-! ### The paths' notes -/

/-- `e` is `d` but for the state of the paths and registers of `l`; a switchover under way and the active port are the same. -/
structure PathNoted (l : List Nat) (d e : Dev) : Prop where
  frame : ∃ p r, e = { d with path := p, regs := r }
  regs : Kept l d e
  active : activePort e = activePort d
  resume : e.path.resume = d.path.resume

namespace PathNoted
variable {l l' : List Nat} {d e f : Dev}

theorem refl (l : List Nat) (d : Dev) : PathNoted l d d := ⟨⟨_, _, rfl⟩, .refl l d, rfl, rfl⟩
theorem trans (h : PathNoted l d e) (g : PathNoted l e f) : PathNoted l d f := by
  obtain ⟨⟨_, _, rfl⟩, k, a, r⟩ := h
  obtain ⟨⟨_, _, rfl⟩, k', a', r'⟩ := g
  exact ⟨⟨_, _, rfl⟩, k.trans k', a'.trans a, r'.trans r⟩
theorem mono (h : PathNoted l d e) (hl : l ⊆ l') : PathNoted l' d e := { h with regs := h.regs.mono hl }
theorem ite {c : Prop} [Decidable c] (h : PathNoted l d e) (g : PathNoted l d f) : PathNoted l d (if c then e else f) := by
  split <;> assumption
theorem path (h : PathNoted l d e) {p : PathSt} (hp : p.resume = e.path.resume) : PathNoted l d { e with path := p } :=
  h.trans ⟨⟨_, _, rfl⟩, .of_regs rfl, rfl, hp⟩
theorem put (h : PathNoted l d e) {g : RegField} (v : Nat) (hg : g.addr ∈ l) (hw : g.lo + g.width ≤ 32)
    (ha : Apart g F.PATH_STAT_ACTIVE) : PathNoted l d (e.put g v) :=
  h.trans ⟨⟨_, _, rfl⟩, (Kept.refl l e).put v hg, Dev.get_put_apart e g F.PATH_STAT_ACTIVE v hw ha, rfl⟩

theorem jtp (h : PathNoted l d e) : e.jtp = d.jtp := by obtain ⟨⟨_, _, rfl⟩, -, -, -⟩ := h; rfl
theorem sess (h : PathNoted l d e) (k : Nat) : e.sess k = d.sess k := by unfold Dev.sess; rw [h.jtp]
end PathNoted

theorem drillHeard_noted (q : Nat) (d : Dev) : PathNoted [R.PATH_DRILL_CNT] d (drillHeard q d) := by
  have hpass {p : PathSt} (hp : p.resume = d.path.resume) :
      PathNoted [R.PATH_DRILL_CNT] d ({ d with path := p }.count F.PATH_DRILL_CNT_PASS 1) :=
    ((PathNoted.refl [R.PATH_DRILL_CNT] d).path hp).put (g := F.PATH_DRILL_CNT_PASS) _ (by simp) (by decide) (by decide)
  unfold drillHeard
  exact .ite (hpass rfl) (.refl _ d)

theorem controlSeen_noted (q : Nat) (d : Dev) : PathNoted [] d (controlSeen q d) := (PathNoted.refl _ d).path rfl

/-- A standby verdict that differs is noted (R93). -/
theorem mismatch_noted {l : List Nat} {d e : Dev} (h : PathNoted l d e) (hl : R.PATH_STAT ∈ l) :
    PathNoted l d { (e.put F.PATH_STAT_DRILL_FAIL 1).put F.PATH_STAT_LAST_STAGE 5 with
      path := { ((e.put F.PATH_STAT_DRILL_FAIL 1).put F.PATH_STAT_LAST_STAGE 5).path with mismatch := true } } :=
  ((h.put (g := F.PATH_STAT_DRILL_FAIL) 1 hl (by decide) (by decide)).put (g := F.PATH_STAT_LAST_STAGE) 5 hl (by decide)
    (by decide)).path rfl

theorem portVerdict_noted (q s k : Nat) (fb ok : Bool) (d : Dev) : PathNoted [R.PATH_STAT] d (portVerdict q s k fb ok d) := by
  unfold portVerdict
  extract_lets same v v' l p d'
  have h : PathNoted [R.PATH_STAT] d d' := (PathNoted.refl _ d).path rfl
  exact .ite (mismatch_noted h (by simp)) h

theorem standbyCheck_noted (m : JtpMsg) (d : Dev) : PathNoted [R.PATH_STAT] d (standbyCheck m d) := by
  unfold standbyCheck
  split
  · exact .refl _ d
  · exact .ite (.refl _ d) (.ite (.refl _ d) (mismatch_noted (.refl _ d) (by simp)))

theorem snapEnter_noted (s k : Nat) (d : Dev) : PathNoted [] d (snapEnter s k d) := (PathNoted.refl _ d).path rfl

theorem snapPassed_noted (m : JtpMsg) (d : Dev) : PathNoted [] d (snapPassed m d) := (PathNoted.refl _ d).path rfl

/-- What the port engines note of message `m` as it comes in. -/
def noticed (m : JtpMsg) (d : Dev) : Dev :=
  let d := drillHeard m.port d
  if isControl m.type then
    standbyCheck m (portVerdict m.port m.session m.seq (isFeedback m.type) true (controlSeen m.port d))
  else d

/-- The registers that it changes. -/
abbrev noticeRegs : List Nat := [R.PATH_STAT, R.PATH_DRILL_CNT]

theorem noticed_noted (m : JtpMsg) (d : Dev) : PathNoted noticeRegs d (noticed m d) := by
  have h1 : PathNoted noticeRegs d (drillHeard m.port d) := (drillHeard_noted m.port d).mono (by simp)
  have h2 (e : Dev) : PathNoted noticeRegs e (controlSeen m.port e) := (controlSeen_noted m.port e).mono (by simp)
  refine .ite (h1.trans ((h2 _).trans (.trans ?_ ((standbyCheck_noted m _).mono (by simp))))) h1
  exact (portVerdict_noted ..).mono (by simp)

/-! ### A message comes in -/

/-- What a session must be for its messages to be taken: JTP is enabled, no switchover is under way, and session `n` is enabled and
OPEN without authentication. -/
structure OpenPlain (d : Dev) (n : Nat) : Prop where
  enabled : d.get (F.PG_CTL_EN 0x0D) = 1
  resume : d.path.resume = none
  cfg : d.get (F.SESS_CFG_EN n) = 1
  opened : d.get (F.SESS_STAT_STATE n) = 2
  auth : d.get (F.SESS_CFG_AUTH_REQ n) = 0

/-- The registers that make it so. -/
abbrev openRegs (n : Nat) : List Nat := [R.PG_CTL 0x0D, R.SESS_CFG n, R.SESS_STAT n]

theorem OpenPlain.of_kept {l : List Nat} {d e : Dev} {n : Nat} (h : OpenPlain d n) (hr : Kept l d e) (hl : ∀ a ∈ openRegs n, a ∉ l)
    (hp : e.path.resume = d.path.resume) : OpenPlain e n where
  enabled := (hr.get_eq (g := F.PG_CTL_EN 0x0D) (hl _ (by simp))).trans h.enabled
  resume := hp.trans h.resume
  cfg := (hr.get_eq (g := F.SESS_CFG_EN n) (hl _ (by simp))).trans h.cfg
  opened := (hr.get_eq (g := F.SESS_STAT_STATE n) (hl _ (by simp))).trans h.opened
  auth := (hr.get_eq (g := F.SESS_CFG_AUTH_REQ n) (hl _ (by simp))).trans h.auth

theorem OpenPlain.isOpen {d : Dev} {n : Nat} (h : OpenPlain d n) : sessOpen d n = true := by
  unfold sessOpen; rw [h.opened]; rfl

/-- The message of TYPE `t` that an unauthenticated session `n` takes. -/
def plainMsg (q t n seq job epoch : Nat) (p : List Byte) : JtpMsg :=
  { port := q, type := t, session := n, seq := seq % 2 ^ 32, job := job % 2 ^ 32, epoch := epoch % 2 ^ 32, payload := p
    raw := jtpBytes t (b2n (isFeedback t) * 2) n (seq % 2 ^ 32) job epoch (if t = tPosition then 1 else 0) none p }

/-- A message of an unauthenticated session on a port whose link is up passes steps 1 to 4 of R124. -/
theorem jtpMessage_plain {q t seq job epoch : Nat} {p : List Byte} {d : Dev} {n : Fin 16} (hen : d.get (F.PG_CTL_EN 0x0D) = 1)
    (hresume : d.path.resume = none) (hcfg : d.get (F.SESS_CFG_EN n) = 1) (hauth : d.get (F.SESS_CFG_AUTH_REQ n) = 0)
    (hup : ethUp d q = true) (hlen : p.length ≤ 9216) :
    jtpMessage q t n seq job epoch p d = jtpInput (plainMsg q t n seq job epoch p) (drillHeard q d) := by
  have hnoted := drillHeard_noted q d
  have hapart : ∀ n : Fin 16, R.SESS_CFG n ∉ [R.PATH_DRILL_CNT] := by decide
  have hen' : d.enabled 0x0D = true := Dev.getB_of_get_one hen
  have hkey : d.getB (F.SESS_CFG_AUTH_REQ n) = false := Dev.getB_of_get_zero hauth
  have hcfg' : (drillHeard q d).getB (F.SESS_CFG_EN n) = true :=
    (hnoted.regs.getB_eq (hapart n)).trans (Dev.getB_of_get_one hcfg)
  have hkey' : (drillHeard q d).getB (F.SESS_CFG_AUTH_REQ n) = false := (hnoted.regs.getB_eq (hapart n)).trans hkey
  unfold jtpMessage
  simp only [hen', hup, hresume, hkey, hcfg', hkey', Bool.not_true, Bool.or_false, Option.isNone_none, Bool.false_and,
    Bool.false_eq_true, if_false, if_true]
  rw [if_neg (by omega), if_neg (by have := n.isLt; simp; omega)]
  unfold jtpArrive
  rw [hnoted.resume, hresume]
  rfl

/-- A message of an OPEN session other than session 0 goes to its space, behind the engines' notes. -/
theorem jtpInput_open {m : JtpMsg} {d : Dev} (hs : m.session ≠ 0) (ht : m.type ≠ tPosition) (hopen : sessOpen d m.session = true)
    (hn : R.SESS_STAT m.session ∉ noticeRegs) :
    jtpInput m d = if isFeedback m.type then feedbackRx m (noticed m d) else dataRx m (noticed m d) := by
  have hopen' : sessOpen (drillHeard m.port d) m.session = true := by
    unfold sessOpen at hopen ⊢
    rw [((drillHeard_noted m.port d).regs.mono (l' := noticeRegs) (by simp)).get_eq (g := F.SESS_STAT_STATE m.session) hn]
    exact hopen
  unfold jtpInput noticed
  simp only [hs, ht, hopen', if_false, false_or, false_and, Bool.true_eq_false]

end Sys2Proof.Machine
end

section
/-! SUPPORT. A message of the data space is accepted (R111, R113, R115): CUM moves past it, it is dealt with, and feedback goes out. -/
namespace Sys2Proof.Machine

/-! ### What JTP touches -/

/-- `e` is `d` but for registers of `l`, the state of JTP and of the paths, the slots that await a copy order, and what sending a frame
touches; sessions other than `n` wait for the same messages, the management ring holds as many records, and the active port is the
same. -/
structure Received (n : Nat) (l : List Nat) (d e : Dev) : Prop where
  frame : ∃ o p t c r j k, e = { d with out := o, path := p, tm := t, freeCtr := c, regs := r, jtp := j, corPending := k }
  regs : Kept l d e
  others : ∀ k, k ≠ n → (e.sess k).todo = (d.sess k).todo
  ring : e.jtp.mrxHeld = d.jtp.mrxHeld
  active : activePort e = activePort d

namespace Received
variable {n : Nat} {l l' : List Nat} {d e f : Dev}

theorem refl (n : Nat) (l : List Nat) (d : Dev) : Received n l d d := ⟨⟨_, _, _, _, _, _, _, rfl⟩, .refl l d, fun _ _ => rfl, rfl, rfl⟩
theorem trans (h : Received n l d e) (g : Received n l e f) : Received n l d f := by
  obtain ⟨⟨_, _, _, _, _, _, _, rfl⟩, k, t, m, a⟩ := h
  obtain ⟨⟨_, _, _, _, _, _, _, rfl⟩, k', t', m', a'⟩ := g
  exact ⟨⟨_, _, _, _, _, _, _, rfl⟩, k.trans k', fun i hi => (t' i hi).trans (t i hi), m'.trans m, a'.trans a⟩
theorem mono (h : Received n l d e) (hl : l ⊆ l') : Received n l' d e := { h with regs := h.regs.mono hl }
theorem ite {c : Prop} [Decidable c] (h : Received n l d e) (g : Received n l d f) : Received n l d (if c then e else f) := by
  split <;> assumption
theorem of_noted (h : PathNoted l d e) : Received n l d e :=
  ⟨by obtain ⟨⟨_, _, rfl⟩, -⟩ := h; exact ⟨_, _, _, _, _, _, _, rfl⟩, h.regs, fun _ _ => congrArg Sess.todo (h.sess _),
    congrArg JtpSt.mrxHeld h.jtp, h.active⟩
theorem of_sends (h : OnlySends d e) : Received n l d e :=
  ⟨by obtain ⟨_, _, _, _, rfl⟩ := h; exact ⟨_, _, _, _, _, _, _, rfl⟩, .of_regs h.regs, fun _ _ => congrArg Sess.todo (h.sess _),
    congrArg JtpSt.mrxHeld h.jtp, Dev.get_congr _ _ h.regs _⟩
theorem put (h : Received n l d e) {g : RegField} (v : Nat) (hg : g.addr ∈ l) (ha : g.addr ≠ R.PATH_STAT) : Received n l d (e.put g v) :=
  h.trans ⟨⟨_, _, _, _, _, _, _, rfl⟩, (Kept.refl l e).put v hg, fun _ _ => rfl, rfl,
    congrArg (fun w : Word => bits w.toNat _ _) (Dev.reg_put_ne e g v R.PATH_STAT ha.symm)⟩
theorem setSess (h : Received n l d e) (x : Sess) : Received n l d (e.setSess n x) :=
  h.trans ⟨⟨_, _, _, _, _, _, _, rfl⟩, .of_regs rfl, fun _ hk => congrArg Sess.todo (Dev.sess_setSess_ne e hk x), rfl, rfl⟩

theorem dram (h : Received n l d e) : e.dram = d.dram := by obtain ⟨⟨_, _, _, _, _, _, _, rfl⟩, -⟩ := h; rfl
theorem l2 (h : Received n l d e) : e.l2 = d.l2 := by obtain ⟨⟨_, _, _, _, _, _, _, rfl⟩, -⟩ := h; rfl
theorem ue (h : Received n l d e) : e.ue = d.ue := by obtain ⟨⟨_, _, _, _, _, _, _, rfl⟩, -⟩ := h; rfl
theorem remap (h : Received n l d e) : e.remap = d.remap := by obtain ⟨⟨_, _, _, _, _, _, _, rfl⟩, -⟩ := h; rfl
theorem l2Ram (h : Received n l d e) : e.l2Ram = d.l2Ram := by obtain ⟨⟨_, _, _, _, _, _, _, rfl⟩, -⟩ := h; rfl
theorem regions (h : Received n l d e) : e.regions = d.regions := by obtain ⟨⟨_, _, _, _, _, _, _, rfl⟩, -⟩ := h; rfl
theorem heldSteps (h : Received n l d e) : e.heldSteps = d.heldSteps := by obtain ⟨⟨_, _, _, _, _, _, _, rfl⟩, -⟩ := h; rfl
theorem banks (h : Received n l d e) : e.banks = d.banks := by obtain ⟨⟨_, _, _, _, _, _, _, rfl⟩, -⟩ := h; rfl
theorem regWrites (h : Received n l d e) : e.regWrites = d.regWrites := by obtain ⟨⟨_, _, _, _, _, _, _, rfl⟩, -⟩ := h; rfl
theorem sysReq (h : Received n l d e) : e.sysReq = d.sysReq := by obtain ⟨⟨_, _, _, _, _, _, _, rfl⟩, -⟩ := h; rfl
theorem burnReq (h : Received n l d e) : e.burnReq = d.burnReq := by obtain ⟨⟨_, _, _, _, _, _, _, rfl⟩, -⟩ := h; rfl
theorem now (h : Received n l d e) : e.now = d.now := by obtain ⟨⟨_, _, _, _, _, _, _, rfl⟩, -⟩ := h; rfl
theorem planJob (h : Received n l d e) : e.planJob = d.planJob := by obtain ⟨⟨_, _, _, _, _, _, _, rfl⟩, -⟩ := h; rfl
theorem armed (h : Received n l d e) : e.armed = d.armed := by obtain ⟨⟨_, _, _, _, _, _, _, rfl⟩, -⟩ := h; rfl
theorem streams (h : Received n l d e) : e.streams = d.streams := by obtain ⟨⟨_, _, _, _, _, _, _, rfl⟩, -⟩ := h; rfl
theorem tables (h : Received n l d e) :
    e.nozSh = d.nozSh ∧ e.tileSh = d.tileSh ∧ e.waveSh = d.waveSh ∧ e.ftrimSh = d.ftrimSh := by
  obtain ⟨⟨_, _, _, _, _, _, _, rfl⟩, -⟩ := h; exact ⟨rfl, rfl, rfl, rfl⟩

/-- A session that ends with the messages it began with. -/
theorem talked (h : Received n l d e) (ht : (e.sess n).todo = (d.sess n).todo) : Talked l d e where
  regs := h.regs
  todo := fun k => by
    by_cases hk : k = n
    · rw [hk, ht]
    · exact h.others k hk
  regWrites := h.regWrites
  sysReq := h.sysReq
  burnReq := h.burnReq
end Received

/-! ### Feedback -/

/-- `y` is session `x` but for what it notes of its feedback. -/
def OnlyFed (x y : Sess) : Prop :=
  ∃ si fa nc na cs fn, y = { x with since := si, firstAt := fa, nakCum := nc, nakAt := na, creditSent := cs, fbNum := fn }

theorem OnlyFed.refl (x : Sess) : OnlyFed x x := ⟨_, _, _, _, _, _, rfl⟩
theorem OnlyFed.trans {x y z : Sess} (h : OnlyFed x y) (g : OnlyFed y z) : OnlyFed x z := by
  obtain ⟨_, _, _, _, _, _, rfl⟩ := h
  obtain ⟨_, _, _, _, _, _, rfl⟩ := g
  exact ⟨_, _, _, _, _, _, rfl⟩

/-- `e` is `d` after feedback of session `n`, if any. -/
structure Fed (n : Nat) (d e : Dev) : Prop where
  received : Received n [] d e
  sess : OnlyFed (d.sess n) (e.sess n)

theorem Fed.refl (n : Nat) (d : Dev) : Fed n d d := ⟨.refl n [] d, .refl _⟩
theorem Fed.ite {n : Nat} {d e f : Dev} {c : Prop} [Decidable c] (h : Fed n d e) (g : Fed n d f) : Fed n d (if c then e else f) := by
  split <;> assumption

theorem Fed.keeps {n : Nat} {d e : Dev} (h : Fed n d e) : (e.sess n).todo = (d.sess n).todo ∧ (e.sess n).held = (d.sess n).held
    ∧ (e.sess n).sent = (d.sess n).sent := by
  obtain ⟨-, _, _, _, _, _, _, hs⟩ := h
  rw [hs]
  exact ⟨rfl, rfl, rfl⟩

theorem Fed.auth {n : Nat} {d e : Dev} (h : Fed n d e) {k : Nat} (hauth : d.get (F.SESS_CFG_AUTH_REQ n) = k) :
    e.get (F.SESS_CFG_AUTH_REQ n) = k := (h.received.regs.get_eq (by simp)).trans hauth

/-- Feedback goes out in an unauthenticated session. -/
theorem feedback_fed {n : Nat} {d : Dev} (hauth : d.get (F.SESS_CFG_AUTH_REQ n) = 0) (t reason bad : Nat) :
    Fed n d (feedback n t reason bad d) := by
  have hsend (x : Sess) (p : List Byte) (hx : OnlyFed (d.sess n) x) : Fed n d (sendFeedback n t false p (d.setSess n x)) := by
    rw [sendFeedback_plain (d := d.setSess n x) hauth]
    have hsends := sendClass_sends n t (deviceMsg (d.setSess n x) n t (((d.setSess n x).sess n).fbNum % 2 ^ 32) false p)
      ((d.setSess n x).setSess n { (d.setSess n x).sess n with fbNum := ((d.setSess n x).sess n).fbNum + 1 })
    refine ⟨(((Received.refl n [] d).setSess x).setSess _).trans (.of_sends hsends), ?_⟩
    rw [hsends.sess, Dev.sess_setSess_same, Dev.sess_setSess_same]
    exact hx.trans ⟨_, _, _, _, _, _, rfl⟩
  unfold feedback
  extract_lets x g cum body y z
  refine hsend z body ?_
  unfold z
  split
  · exact ⟨_, _, _, _, _, _, rfl⟩
  · exact ⟨_, _, _, _, _, _, rfl⟩

/-- What an accepted message calls for (R115). -/
theorem answerData_fed {n : Nat} {d : Dev} (hauth : d.get (F.SESS_CFG_AUTH_REQ n) = 0) (o seq reason : Nat) (filled ctl : Bool) :
    Fed n d (answerData n o seq reason filled ctl d) := by
  unfold answerData sendAck sendNak
  extract_lets x cum
  exact .ite (feedback_fed hauth ..) (.ite (feedback_fed hauth ..)
    (.ite (feedback_fed hauth ..) (.ite (feedback_fed hauth ..) (.refl n d))))

/-- Credit that has grown by CREDIT_STEP is granted (R115). -/
def credited (n : Nat) (d : Dev) : Dev :=
  if sessOpen d n && decide ((d.sess n).creditSent + d.get F.JTP_CFG_CREDIT_STEP ≤ grant d n) then feedback n tCredit 0 0 d else d

theorem credited_fed {n : Nat} {d : Dev} (hauth : d.get (F.SESS_CFG_AUTH_REQ n) = 0) : Fed n d (credited n d) :=
  .ite (feedback_fed hauth ..) (.refl n d)

/-! ### What waits in a session -/

theorem heldRun_none {n : Nat} {d : Dev} (h : (d.sess n).held = []) (f : Nat) : heldRun f n d = d := by
  cases f with
  | zero => rfl
  | succ f => unfold heldRun; rw [h]

theorem todoRun_none {n : Nat} {d : Dev} (h : (d.sess n).todo = []) (f : Nat) : todoRun f n d = d := by
  cases f with
  | zero => rfl
  | succ f => unfold todoRun; rw [h]

/-- The block once session `n` has no message to deal with. -/
def popped (n : Nat) (d : Dev) : Dev := d.setSess n { d.sess n with todo := [] }

theorem popped_received (n : Nat) (d : Dev) : Received n [] d (popped n d) := (Received.refl n [] d).setSess _

@[simp] theorem popped_sess (n : Nat) (d : Dev) : (popped n d).sess n = { d.sess n with todo := [] } := Dev.sess_setSess_same ..

/-- A message that need not wait is dealt with. -/
theorem sessWork_performs {n : Nat} {m : JtpMsg} {d : Dev} (hheld : (d.sess n).held = []) (htodo : (d.sess n).todo = [m])
    (hwait : mustWait d m = false) (hdone : ((performPassed m (popped n d)).sess n).todo = []) :
    sessWork n d = credited n (performPassed m (popped n d)) := by
  have hrun : todoRun todoFuel n d = performPassed m (popped n d) := by
    unfold todoFuel todoRun
    rw [htodo]
    simp only [hwait, Bool.false_eq_true, if_false]
    exact todoRun_none hdone _
  unfold sessWork credited
  rw [heldRun_none hheld, hrun]

/-- One that must wait does. -/
theorem sessWork_waits {n : Nat} {m : JtpMsg} {d : Dev} (hheld : (d.sess n).held = []) (htodo : (d.sess n).todo = [m])
    (hwait : mustWait d m = true) : sessWork n d = credited n d := by
  have hrun : todoRun todoFuel n d = d := by
    unfold todoFuel todoRun
    rw [htodo]
    simp only [hwait, if_true]
  unfold sessWork credited
  rw [heldRun_none hheld, hrun]

/-! ### Acceptance -/

/-- Message `m` is taken in: it waits for CUM, a bulk one to be performed too, and its JOB is noted (R107, R113). -/
def taken (m : JtpMsg) (d : Dev) : Dev :=
  let d := if isControl m.type then snapEnter m.session m.seq d else d
  let x := d.sess m.session
  let x := if isBulk m.type then { x with held := x.held ++ [⟨m, 0⟩] } else x
  let d := (d.setSess m.session { x with waiting := x.waiting ++ [m] }).put (F.JOB_JOB m.session) m.job
  if m.type = tCopyOrder then copyOrderPending (beAt m.payload 0 4) (beAt m.payload 4 2) d else d

/-- CUM moves past message `m`, which is to be dealt with next (R111). -/
def cumMoved (m : JtpMsg) (d : Dev) : Dev :=
  let x := d.sess m.session
  (d.setSess m.session { x with
    got := 0, waiting := [], todo := [m], since := x.since + 1, firstAt := some (x.firstAt.getD d.now)
    nakCum := if x.nakCum.isSome then none else x.nakCum }).put (F.RX_CUM_CUM m.session) (m.seq + 1)

theorem cumSteps_next (f : Nat) : cumSteps (f + 1) 0 = (1, 0) := rfl

/-- What acceptance of the next message `m` goes on with, once it has been taken in: CUM, the answer, and the work of its session. -/
def movedOn (m : JtpMsg) (d : Dev) : Dev :=
  let s := m.session
  let x := d.sess s
  let cum := d.get (F.RX_CUM_CUM s)
  let st := cumSteps 65536 x.got
  let passed := (List.range st.1).filterMap (fun k => x.waiting.find? (fun w => w.seq == (cum + k) % 2 ^ 32))
  let filled := decide (0 < st.1) && x.nakCum.isSome
  let e := (d.setSess s { x with
    got := st.2
    waiting := x.waiting.filter (fun w => !passed.contains w)
    todo := x.todo ++ passed
    since := x.since + 1
    firstAt := some (x.firstAt.getD d.now)
    nakCum := if filled then none else x.nakCum }).put (F.RX_CUM_CUM s) (cum + st.1)
  sessWork s (answerData s 0 m.seq 0 filled (passed.any (fun w => !isBulk w.type)) e)

theorem dataAccept_sound {m : JtpMsg} {d : Dev} (hcheck : contentCheck d m = 0) :
    dataAccept 0 m d = movedOn m (heldRun todoFuel m.session (taken m d)) := by
  unfold dataAccept
  rw [hcheck]
  rfl

theorem movedOn_next {m : JtpMsg} {d : Dev} (hwaiting : (d.sess m.session).waiting = [m]) (htodo : (d.sess m.session).todo = [])
    (hgot : (d.sess m.session).got = 0) (hseq : m.seq = d.get (F.RX_CUM_CUM m.session)) :
    movedOn m d = sessWork m.session
      (answerData m.session 0 m.seq 0 (d.sess m.session).nakCum.isSome (!isBulk m.type) (cumMoved m d)) := by
  have hmod : m.seq % 2 ^ 32 = m.seq := Nat.mod_eq_of_lt (hseq ▸ Dev.get_lt _ (F.RX_CUM_CUM m.session))
  have hpassed : (List.range 1).filterMap (fun k => [m].find? (fun w => w.seq == (m.seq + k) % 2 ^ 32)) = [m] := by
    simp only [List.range_one, List.filterMap_cons, List.filterMap_nil, List.find?_cons, Nat.add_zero, hmod, beq_self_eq_true]
  unfold movedOn
  simp only [hgot, cumSteps_next 65535, hwaiting, htodo, ← hseq, hpassed, List.nil_append]
  unfold cumMoved
  simp

end Sys2Proof.Machine
end

section
/-! SUPPORT. The next message of a calm session (R111, R113): taken in, passed by CUM and answered; and how its command ends. -/
namespace Sys2Proof.Machine

/-- Sessions `x` and `y` have the same window towards the RIP: what they may send, have sent and wait to send. -/
structure SameWindow (x y : Sess) : Prop where
  sent : y.sent = x.sent
  queue : y.queue = x.queue
  txNum : y.txNum = x.txNum
  peerCum : y.peerCum = x.peerCum
  peerMap : y.peerMap = x.peerMap
  credit : y.credit = x.credit
  maxPayload : y.maxPayload = x.maxPayload

theorem SameWindow.trans {x y z : Sess} (h : SameWindow x y) (g : SameWindow y z) : SameWindow x z :=
  ⟨g.sent.trans h.sent, g.queue.trans h.queue, g.txNum.trans h.txNum, g.peerCum.trans h.peerCum, g.peerMap.trans h.peerMap,
    g.credit.trans h.credit, g.maxPayload.trans h.maxPayload⟩

theorem OnlyFed.window {x y : Sess} (h : OnlyFed x y) : SameWindow x y := by
  obtain ⟨_, _, _, _, _, _, rfl⟩ := h
  exact ⟨rfl, rfl, rfl, rfl, rfl, rfl, rfl⟩

/-! ### Taken in -/

theorem copyOrderPending_received (n first count : Nat) (d : Dev) : Received n [] d (copyOrderPending first count d) := by
  unfold copyOrderPending
  exact forN_induct (.refl n [] d) fun _ _ h => h.trans ⟨⟨_, _, _, _, _, _, _, rfl⟩, .of_regs rfl, fun _ _ => rfl, rfl, rfl⟩

theorem copyOrderPending_jtp (first count : Nat) (d : Dev) : (copyOrderPending first count d).jtp = d.jtp := by
  unfold copyOrderPending
  exact forN_induct (P := fun e : Dev => e.jtp = d.jtp) rfl fun _ _ h => h

/-- The block with the engines' snapshots up to date (R96). -/
def entered (m : JtpMsg) (d : Dev) : Dev := if isControl m.type then snapEnter m.session m.seq d else d

theorem entered_noted (m : JtpMsg) (d : Dev) : PathNoted [] d (entered m d) := .ite (snapEnter_noted ..) (.refl _ d)

/-- Session `x` with message `m` taken in. -/
def sessTaken (m : JtpMsg) (x : Sess) : Sess :=
  let y : Sess := if isBulk m.type then { x with held := x.held ++ [⟨m, 0⟩] } else x
  { y with waiting := y.waiting ++ [m] }

theorem taken_eq (m : JtpMsg) (d : Dev) : taken m d
    = if m.type = tCopyOrder then copyOrderPending (beAt m.payload 0 4) (beAt m.payload 4 2)
        (((entered m d).setSess m.session (sessTaken m ((entered m d).sess m.session))).put (F.JOB_JOB m.session) m.job)
      else ((entered m d).setSess m.session (sessTaken m ((entered m d).sess m.session))).put (F.JOB_JOB m.session) m.job := rfl

/-- A message that is taken in: its JOB is noted, and nothing but JTP takes note of it. -/
theorem taken_received (m : JtpMsg) (d : Dev) : Received m.session [R.JOB m.session] d (taken m d)
    ∧ (taken m d).get (F.JOB_JOB m.session) = m.job % 2 ^ 32 ∧ (taken m d).sess m.session = sessTaken m (d.sess m.session) := by
  have h0 := entered_noted m d
  have hn : R.JOB m.session ≠ R.PATH_STAT := by simp only [R.JOB, R.PATH_STAT]; omega
  rw [taken_eq, h0.sess]
  generalize hx : sessTaken m (d.sess m.session) = x
  have h1 : Received m.session [R.JOB m.session] d
      (((entered m d).setSess m.session x).put (F.JOB_JOB m.session) m.job) :=
    (((Received.of_noted h0).mono (by simp)).setSess x).put (g := F.JOB_JOB m.session) _ (by simp) hn
  have hjob : (((entered m d).setSess m.session x).put (F.JOB_JOB m.session) m.job).get (F.JOB_JOB m.session) = m.job % 2 ^ 32 :=
    Dev.get_put_same _ _ _ (le_refl 32)
  have hsess : (((entered m d).setSess m.session x).put (F.JOB_JOB m.session) m.job).sess m.session = x :=
    (Dev.sess_put ..).trans (Dev.sess_setSess_same ..)
  generalize ((entered m d).setSess m.session x).put (F.JOB_JOB m.session) m.job = e at *
  split
  · have h2 := copyOrderPending_received m.session (beAt m.payload 0 4) (beAt m.payload 4 2) e
    refine ⟨h1.trans (h2.mono (by simp)), (h2.regs.get_eq (by simp)).trans hjob, ?_⟩
    unfold Dev.sess at hsess ⊢
    rw [copyOrderPending_jtp]
    exact hsess
  · exact ⟨h1, hjob, hsess⟩

/-! ### Passed by CUM -/

/-- CUM passes message `m`: nothing but JTP takes note of it. -/
theorem cumMoved_received (m : JtpMsg) (d : Dev) :
    Received m.session [R.RX_CUM m.session] d (cumMoved m d)
      ∧ (cumMoved m d).get (F.RX_CUM_CUM m.session) = (m.seq + 1) % 2 ^ 32
      ∧ ((cumMoved m d).sess m.session).todo = [m] ∧ ((cumMoved m d).sess m.session).held = (d.sess m.session).held
      ∧ SameWindow (d.sess m.session) ((cumMoved m d).sess m.session) := by
  have hn : R.RX_CUM m.session ≠ R.PATH_STAT := by simp only [R.RX_CUM, R.PATH_STAT]; omega
  unfold cumMoved
  refine ⟨((Received.refl ..).setSess _).put (g := F.RX_CUM_CUM m.session) _ (by simp) hn, Dev.get_put_same _ _ _ (le_refl 32), ?_⟩
  rw [Dev.sess_put, Dev.sess_setSess_same]
  exact ⟨rfl, rfl, rfl, rfl, rfl, rfl, rfl, rfl, rfl⟩

/-- `e` is `d` with CUM past message `m` and the answer gone out: `m` is to be dealt with next. -/
structure Passed (m : JtpMsg) (d e : Dev) : Prop where
  received : Received m.session [R.RX_CUM m.session] d e
  cum : e.get (F.RX_CUM_CUM m.session) = (m.seq + 1) % 2 ^ 32
  todo : (e.sess m.session).todo = [m]
  held : (e.sess m.session).held = (d.sess m.session).held
  window : SameWindow (d.sess m.session) (e.sess m.session)

/-- The next message of a session, taken in as `d` and, if it is a bulk message, performed as `e`: CUM passes it, and the session
goes on. -/
theorem dataAccept_passed {m : JtpMsg} {d e : Dev} (hauth : e.get (F.SESS_CFG_AUTH_REQ m.session) = 0)
    (hcheck : contentCheck d m = 0) (he : heldRun todoFuel m.session (taken m d) = e)
    (hwaiting : (e.sess m.session).waiting = [m]) (htodo : (e.sess m.session).todo = []) (hgot : (e.sess m.session).got = 0)
    (hseq : m.seq = e.get (F.RX_CUM_CUM m.session)) : ∃ f, Passed m e f ∧ dataAccept 0 m d = sessWork m.session f := by
  obtain ⟨hmoved, hcum, hnext, hheld, hwindow⟩ := cumMoved_received m e
  have hauth' : (cumMoved m e).get (F.SESS_CFG_AUTH_REQ m.session) = 0 := (hmoved.regs.get_eq (by simp)).trans hauth
  have hfed := answerData_fed hauth' 0 m.seq 0 (e.sess m.session).nakCum.isSome (!isBulk m.type)
  obtain ⟨ht, hh, -⟩ := hfed.keeps
  refine ⟨_, ⟨hmoved.trans (hfed.received.mono (by simp)), (hfed.received.regs.get_eq (by simp)).trans hcum, ht.trans hnext, hh.trans hheld,
    hwindow.trans hfed.sess.window⟩, ?_⟩
  rw [dataAccept_sound hcheck, he]
  exact movedOn_next hwaiting htodo hgot hseq

/-! ### The message arrives -/

/-- Session `x` has received everything up to its CUM, and holds nothing that it has not dealt with. -/
structure Clear (x : Sess) : Prop where
  todo : x.todo = []
  waiting : x.waiting = []
  held : x.held = []
  got : x.got = 0

/-- `CalmSession` of the block. -/
structure CalmOpen (d : Dev) (n : Nat) : Prop where
  inside : n ≠ 0
  plain : OpenPlain d n
  clear : Clear (d.sess n)

theorem CalmOpen.of_calm {s : State} {n : Nat} (h : CalmSession s n) (dt : Nat) : CalmOpen (s.dev.elapse dt) n := by
  obtain ⟨hn, hen, hres, hcfg, hopen, hauth, htodo, hwait, hheld, hgot⟩ := h
  exact ⟨hn, ⟨hen, hres, hcfg, hopen, hauth⟩, ⟨htodo, hwait, hheld, hgot⟩⟩

/-- None of the registers that a message changes makes a session OPEN, or enables it. -/
theorem openRegs_apart : ∀ n : Fin 16, ∀ a ∈ openRegs n, a ∉ jtpRegs n := by decide

theorem noticeRegs_sub (n : Nat) : noticeRegs ⊆ jtpRegs n := by simp [jtpRegs]

/-- What the engines note of a message leaves a calm session calm. -/
theorem CalmOpen.of_noted {d e : Dev} {n : Fin 16} (h : CalmOpen d n) (hn : PathNoted (jtpRegs n) d e) : CalmOpen e n :=
  ⟨h.inside, h.plain.of_kept hn.regs (openRegs_apart n) hn.resume, (hn.sess n).symm ▸ h.clear⟩

/-- A message of the data space of a calm session, the next that is due, passes the duplicate check and the window (R111), and a bulk
message the checks of its port and of the credit (R94, R116). -/
theorem dataRx_next {m : JtpMsg} {d : Dev} (hseq : m.seq = d.get (F.RX_CUM_CUM m.session))
    (hbulk : isBulk m.type = true → m.port = activePort d
      ∧ heldCost (d.sess m.session) + ceilDiv m.raw.length 4096 ≤ d.get (F.SESS_CFG_CREDIT_MAX m.session)) :
    dataRx m d = dataAccept 0 m d := by
  have ho : (m.seq + 2 ^ 32 - d.get (F.RX_CUM_CUM m.session)) % 2 ^ 32 = 0 := by rw [← hseq]; omega
  unfold dataRx
  simp only [ho]
  rw [if_pos ⟨by omega, .inl trivial⟩]
  by_cases hb : isBulk m.type = true
  · obtain ⟨hport, hcost⟩ := hbulk hb
    rw [if_neg (by simp [hport]), if_neg (by simp [hcost])]
  · rw [if_neg (by simp [hb]), if_neg (by simp [hb])]

/-- The message as a calm session notices it. -/
abbrev noticedAt (q : Nat) (m : JtpMsg) (d : Dev) : Dev := noticed m (drillHeard q d)

theorem noticedAt_noted (q n : Nat) (m : JtpMsg) (d : Dev) : PathNoted (jtpRegs n) d (noticedAt q m d) :=
  .trans ((drillHeard_noted q d).mono (by simp [jtpRegs])) ((noticed_noted m _).mono (noticeRegs_sub n))

/-- A message of a calm session comes in: what is not feedback goes to the data space, behind the engines' notes. -/
theorem jtpMessage_calm {q t seq job epoch : Nat} {p : List Byte} {d : Dev} {n : Fin 16} (h : CalmOpen d n) (hup : ethUp d q = true)
    (hlen : p.length ≤ 9216) (ht : t ≠ tPosition) :
    jtpMessage q t n seq job epoch p d
      = if isFeedback t then feedbackRx (plainMsg q t n seq job epoch p) (noticedAt q (plainMsg q t n seq job epoch p) d)
        else dataRx (plainMsg q t n seq job epoch p) (noticedAt q (plainMsg q t n seq job epoch p) d) := by
  have hnote : ∀ n : Fin 16, R.SESS_STAT n ∉ noticeRegs := by decide
  have hopen := h.plain.of_kept ((drillHeard_noted q d).regs.mono (l' := jtpRegs n) (by simp [jtpRegs])) (openRegs_apart n)
    (drillHeard_noted q d).resume
  rw [jtpMessage_plain h.plain.enabled h.plain.resume h.plain.cfg h.plain.auth hup hlen]
  exact jtpInput_open (m := plainMsg q t n seq job epoch p) h.inside ht hopen.isOpen (hnote n)

/-! ### Messages other than bulk -/

/-- `e` is `d` with message `m` of its session accepted and answered: it is to be dealt with next. -/
structure Arrived (m : JtpMsg) (d e : Dev) : Prop where
  received : Received m.session (jtpRegs m.session) d e
  cum : e.get (F.RX_CUM_CUM m.session) = (m.seq + 1) % 2 ^ 32
  job : e.get (F.JOB_JOB m.session) = m.job % 2 ^ 32
  todo : (e.sess m.session).todo = [m]
  held : (e.sess m.session).held = []
  window : SameWindow (d.sess m.session) (e.sess m.session)

/-- The next message of a calm session, a control message sound in its content, is accepted; the session goes on. -/
theorem jtpMessage_accepted {q t seq job epoch : Nat} {p : List Byte} {d : Dev} {n : Fin 16} (h : CalmOpen d n) (hup : ethUp d q = true)
    (hlen : p.length ≤ 9216) (ht : isControl t = true ∧ isFeedback t = false ∧ isBulk t = false ∧ t ≠ tPosition ∧ t ≠ tCopyOrder)
    (hseq : seq = d.get (F.RX_CUM_CUM n))
    (hcheck : ∀ e, Kept (jtpRegs n) d e → contentCheck e (plainMsg q t n seq job epoch p) = 0) :
    ∃ e, Arrived (plainMsg q t n seq job epoch p) d e ∧ jtpMessage q t n seq job epoch p d = sessWork n e := by
  obtain ⟨-, hfb, hbulk, hpos, hcopy⟩ := ht
  have hapart : ∀ n : Fin 16, R.RX_CUM n ∉ noticeRegs ∧ R.RX_CUM n ∉ [R.JOB n] ∧ R.SESS_CFG n ∉ [R.JOB n] ∧ R.JOB n ∉ [R.RX_CUM n] := by
    decide
  obtain ⟨hn1, hn2, hn3, hn4⟩ := hapart n
  have hmod : seq % 2 ^ 32 = seq := Nat.mod_eq_of_lt (hseq ▸ Dev.get_lt _ (F.RX_CUM_CUM n))
  rw [jtpMessage_calm h hup hlen hpos, hfb]
  generalize hm : plainMsg q t n seq job epoch p = m
  have hs : m.session = n := by rw [← hm]; rfl
  have hms : m.seq = seq := by rw [← hm]; exact hmod
  have hmt : m.type = t := by rw [← hm]; rfl
  rw [hm] at hcheck
  have hnoted := noticedAt_noted q n m d
  have hcalm := h.of_noted hnoted
  have hcheck' := hcheck _ hnoted.regs
  have hcum : (noticedAt q m d).get (F.RX_CUM_CUM n) = seq := by
    have hk := (((drillHeard_noted q d).mono (l' := noticeRegs) (by simp)).trans (noticed_noted m _)).regs
    exact (hk.get_eq hn1).trans hseq.symm
  generalize noticedAt q m d = d1 at *
  obtain ⟨htaken, hjob, hsess⟩ := taken_received m d1
  have hx : sessTaken m (d1.sess n) = { d1.sess n with waiting := [m] } := by
    unfold sessTaken
    simp only [hmt, hbulk, Bool.false_eq_true, if_false, hcalm.clear.waiting, List.nil_append]
  rw [hs] at htaken hjob hsess
  rw [hx] at hsess
  have hidle : heldRun todoFuel m.session (taken m d1) = taken m d1 := by
    rw [hs]
    exact heldRun_none (by rw [hsess]; exact hcalm.clear.held) _
  obtain ⟨f, hf, hgo⟩ := dataAccept_passed (m := m) (d := d1) (e := taken m d1)
    (by rw [hs]; exact (htaken.regs.get_eq hn3).trans hcalm.plain.auth) hcheck' hidle (by rw [hs, hsess])
    (by rw [hs, hsess]; exact hcalm.clear.todo) (by rw [hs, hsess]; exact hcalm.clear.got)
    (by rw [hs, hms]; exact ((htaken.regs.get_eq hn2).trans hcum).symm)
  rw [hs] at hgo
  refine ⟨f, ?_, ?_⟩
  · obtain ⟨hr, hc, htodo, hheld, hwin⟩ := hf
    rw [hs] at hr hc htodo hheld hwin
    rw [hsess] at hheld hwin
    have hsame : SameWindow (d.sess n) { d1.sess n with waiting := [m] } := by
      rw [← hnoted.sess n]
      exact ⟨rfl, rfl, rfl, rfl, rfl, rfl, rfl⟩
    exact ⟨hs ▸ .trans (.of_noted hnoted) (.trans (htaken.mono (by simp [jtpRegs])) (hr.mono (by simp [jtpRegs]))),
      hs ▸ hc, hs ▸ (hr.regs.get_eq hn4).trans hjob, hs ▸ htodo, hs ▸ hheld.trans hcalm.clear.held, hs ▸ hsame.trans hwin⟩
  · rw [if_neg (by simp), dataRx_next (by rw [hs, hms, hcum]) (by rw [hmt, hbulk]; simp)]
    exact hgo

end Sys2Proof.Machine
end

section
/-! SUPPORT. Responses (R118, R122), and how a command that takes a message ends. -/
namespace Sys2Proof.Machine

/-! ### What a message and its bounds are made from -/

/-- The registers that bound what session `n` may send, and that its messages are made from, but for PATH_STAT. -/
abbrev sendRegs (n : Nat) : List Nat := [R.SESS_CFG n, R.SESS_STAT n, R.ETH_CFG 0, R.ETH_CFG 1, R.EPOCH_NOW]

/-- In `e` session `n` may send what it may send in `d`, and would send the same. -/
structure SameSends (n : Nat) (d e : Dev) : Prop where
  regs : ∀ a ∈ sendRegs n, e.reg a = d.reg a
  active : activePort e = activePort d
  planJob : e.planJob = d.planJob
  window : SameWindow (d.sess n) (e.sess n)

namespace SameSends
variable {n : Nat} {d e f : Dev}

theorem trans (h : SameSends n d e) (g : SameSends n e f) : SameSends n d f :=
  ⟨fun a ha => (g.regs a ha).trans (h.regs a ha), g.active.trans h.active, g.planJob.trans h.planJob, h.window.trans g.window⟩

theorem get_eq (h : SameSends n d e) {g : RegField} (hg : g.addr ∈ sendRegs n) : e.get g = d.get g := by
  unfold Dev.get; rw [h.regs _ hg]
theorem getB_eq (h : SameSends n d e) {g : RegField} (hg : g.addr ∈ sendRegs n) : e.getB g = d.getB g := by
  unfold Dev.getB; rw [h.get_eq hg]

theorem deviceMsg (h : SameSends n d e) (hauth : d.get (F.SESS_CFG_AUTH_REQ n) = 0) (t k : Nat) (resp : Bool) (p : List Byte) :
    Machine.deviceMsg e n t k resp p = Machine.deviceMsg d n t k resp p := by
  have hd : d.getB (F.SESS_CFG_AUTH_REQ n) = false := Dev.getB_of_get_zero hauth
  have he : e.getB (F.SESS_CFG_AUTH_REQ n) = false := (h.getB_eq (by simp)).trans hd
  unfold Machine.deviceMsg
  rw [hd, he, h.active, h.planJob, h.get_eq (g := F.EPOCH_NOW_EPOCH) (by simp)]
  rfl

theorem payloadMax (h : SameSends n d e) (t : Nat) : Machine.payloadMax e n t = Machine.payloadMax d n t := by
  have hfit {q : Nat} (hq : q < 2) : e.get (F.ETH_CFG_MAX_FRAME q) = d.get (F.ETH_CFG_MAX_FRAME q) ∧ frameOver e n q = frameOver d n q := by
    have hport : R.ETH_CFG q ∈ sendRegs n := by
      obtain rfl | rfl : q = 0 ∨ q = 1 := by omega
      · simp
      · simp
    refine ⟨h.get_eq (g := F.ETH_CFG_MAX_FRAME q) hport, ?_⟩
    unfold frameOver
    rw [h.getB_eq (g := F.ETH_CFG_VLAN_EN q) hport, h.getB_eq (g := F.SESS_CFG_IP6 n) (by simp)]
  unfold Machine.payloadMax
  simp only [h.active, h.window.maxPayload, h.getB_eq (g := F.SESS_CFG_AUTH_REQ n) (by simp), (hfit (q := 0) (by omega)).1,
    (hfit (q := 0) (by omega)).2, (hfit (q := 1) (by omega)).1, (hfit (q := 1) (by omega)).2, (hfit (activePort_lt d)).1,
    (hfit (activePort_lt d)).2]

theorem hasRoom (h : SameSends n d e) (cost : Nat) : Machine.hasRoom e n cost = Machine.hasRoom d n cost := by
  obtain ⟨hsent, -, hnum, hcum, hmap, hcredit, -⟩ := h.window
  simp only [Machine.hasRoom, outstanding, marked, hsent, hnum, hcum, hmap, hcredit]
  rfl
end SameSends

theorem Received.sends {n : Nat} {l : List Nat} {d e : Dev} (h : Received n l d e) (hl : ∀ a ∈ sendRegs n, a ∉ l)
    (hw : SameWindow (d.sess n) (e.sess n)) : SameSends n d e :=
  ⟨fun a ha => h.regs.reg_eq (hl a ha), h.active, h.planJob, hw⟩

/-! ### Responses -/

/-- Session `n` may answer a request at once, with up to `k` bytes of payload in one unit of credit. -/
structure MayAnswer (d : Dev) (n k : Nat) : Prop where
  auth : d.get (F.SESS_CFG_AUTH_REQ n) = 0
  opened : d.get (F.SESS_STAT_STATE n) = 2
  fits : k ≤ payloadMax d n tRegRead
  first : (d.sess n).queue = []
  room : hasRoom d n 1 = true

theorem MayAnswer.of_same {n k : Nat} {d e : Dev} (h : MayAnswer d n k) (hs : SameSends n d e) : MayAnswer e n k where
  auth := (hs.get_eq (g := F.SESS_CFG_AUTH_REQ n) (by simp)).trans h.auth
  opened := (hs.get_eq (g := F.SESS_STAT_STATE n) (by simp)).trans h.opened
  fits := (hs.payloadMax _).symm ▸ h.fits
  first := hs.window.queue.trans h.first
  room := (hs.hasRoom 1).trans h.room

/-- `e` is `d` after the response of TYPE `t` with payload `p` to a request in session `n`. -/
structure Answered (n t : Nat) (p : List Byte) (d e : Dev) : Prop where
  received : Received n [R.TX_NEXT n] d e
  sent : (e.sess n).sent = (d.sess n).sent ++ [dataMsg d n t true p]
  todo : (e.sess n).todo = (d.sess n).todo
  held : (e.sess n).held = (d.sess n).held
  next : e.get (F.TX_NEXT_NEXT n) = ((d.sess n).txNum + 1) % 2 ^ 32

theorem messageNoted_received (n : Nat) (m : SentMsg) (d : Dev) : Received n [R.TX_NEXT n] d (messageNoted n m d) := by
  have hn : R.TX_NEXT n ≠ R.PATH_STAT := by simp only [R.TX_NEXT, R.PATH_STAT]; omega
  exact ((Received.refl ..).setSess _).put (g := F.TX_NEXT_NEXT n) _ (by simp) hn

/-- A response goes at once where the session may answer. -/
theorem respond_answered {n t k : Nat} {p : List Byte} {d : Dev} (h : MayAnswer d n k) (ht : isResponse t = true) (hlen : p.length ≤ k)
    (hcost : jtpCost p.length false = 1) : Answered n t p d (respond n t p d) := by
  have hopen : sessOpen d n = true := by unfold sessOpen; rw [h.opened]; rfl
  have hmax : payloadMax d n t = payloadMax d n tRegRead := by
    have hclass : ¬(t = tTelemetry ∨ t = tPrintLog) := by rintro (rfl | rfl) <;> exact absurd ht (by decide)
    unfold payloadMax
    simp only [if_neg hclass]
    rfl
  have hgo := sendData_goes h.auth h.opened (hcost.symm ▸ h.room) t true
  have hresp : respond n t p d = sendClass n t (dataMsg d n t true p).bytes (messageNoted n (dataMsg d n t true p) d) := by
    unfold respond
    have hbound : (!sessOpen d n || decide (payloadMax d n t < p.length)) = false := by
      rw [hopen, hmax, decide_eq_false (by have := h.fits; omega)]; rfl
    simp only [hbound, h.first, ht, hgo, List.isEmpty_nil, Bool.false_eq_true, if_false, if_true]
  have hnoted := messageNoted_received n (dataMsg d n t true p) d
  have hsends := sendClass_sends n t (dataMsg d n t true p).bytes (messageNoted n (dataMsg d n t true p) d)
  have hsess := (hsends.sess n).trans (messageNoted_sess n (dataMsg d n t true p) d)
  rw [hresp]
  refine ⟨hnoted.trans (.of_sends hsends), ?_, ?_, ?_, ?_⟩
  · rw [hsess]
  · rw [hsess]
  · rw [hsess]
  · exact (Dev.get_congr _ _ hsends.regs _).trans (messageNoted_next n t true p d)

/-- `e` is `d` after the response, and the credit that may be granted behind it. -/
structure Replied (n t : Nat) (p : List Byte) (d e : Dev) : Prop where
  received : Received n [R.TX_NEXT n] d e
  sent : ∃ m, (e.sess n).sent = (d.sess n).sent ++ [m] ∧ m.type = t
    ∧ m.bytes = deviceMsg d n t ((d.sess n).txNum % 2 ^ 32) true p
  todo : (e.sess n).todo = (d.sess n).todo
  next : e.get (F.TX_NEXT_NEXT n) = ((d.sess n).txNum + 1) % 2 ^ 32

theorem Answered.credited {n : Fin 16} {t : Nat} {p : List Byte} {d e : Dev} (h : Answered n t p d e) (hauth : d.get (F.SESS_CFG_AUTH_REQ n) = 0) :
    Replied n t p d (credited n e) := by
  have hapart : ∀ n : Fin 16, R.SESS_CFG n ∉ [R.TX_NEXT n] := by decide
  have hfed := credited_fed ((h.received.regs.get_eq (g := F.SESS_CFG_AUTH_REQ n) (hapart n)).trans hauth)
  obtain ⟨htodo, -, hsent⟩ := hfed.keeps
  exact ⟨h.received.trans (hfed.received.mono (by simp)), ⟨_, hsent.trans h.sent, rfl, rfl⟩, htodo.trans h.todo,
    (hfed.received.regs.get_eq (by simp)).trans h.next⟩

/-- What a response sends, of a block that would send the same. -/
theorem Replied.of_same {n t : Nat} {p : List Byte} {d e f : Dev} (h : Replied n t p e f) (hs : SameSends n d e)
    (hauth : d.get (F.SESS_CFG_AUTH_REQ n) = 0) :
    (∃ m, (f.sess n).sent = (d.sess n).sent ++ [m] ∧ m.type = t ∧ m.bytes = deviceMsg d n t ((d.sess n).txNum % 2 ^ 32) true p)
      ∧ f.get (F.TX_NEXT_NEXT n) = ((d.sess n).txNum + 1) % 2 ^ 32 := by
  obtain ⟨m, hsent, htype, hbytes⟩ := h.sent
  obtain ⟨hws, -, hwn, -⟩ := hs.window
  rw [hws] at hsent
  rw [hwn, hs.deviceMsg hauth] at hbytes
  exact ⟨⟨m, hsent, htype, hbytes⟩, hwn ▸ h.next⟩

/-! ### The end of the command -/

/-- A command of a ready block that leaves memory and DRAM's schedule as they are: its effect is its outcome. -/
theorem perform_still {dt : Nat} {s : State} {f : Dev → Dev} {e : Dev} {l : List Nat} (h : Ready s) (he : f (s.dev.elapse dt) = e)
    (k : Talked l (s.dev.elapse dt) e) (hl : ∀ a ∈ endRegs, a ∉ l) (hbanks : e.banks = s.dev.banks) (hdram : e.dram = s.dev.dram)
    (hl2 : e.l2 = s.dev.l2) :
    perform dt s (fun d => afterCommand (f d)) = .next (s.after e) ∧ RegsKept l s (s.after e) ∧ MemKept s (s.after e) := by
  have q := Quiet.of_ready h dt
  obtain ⟨-, hnext⟩ := perform_talked h he k hl
  rw [dramRun_none _ (hbanks.trans q.banks)] at hnext
  · exact ⟨hnext, k.regs, memKept_of_same hdram hl2⟩
  · rw [k.regs.getB_eq (g := F.DRAMC_FCHG_BUSY) (hl _ (by simp)), k.regs.getB_eq (g := F.DRAMC_STAT_SELFREF) (hl _ (by simp))]
    exact q.rate

end Sys2Proof.Machine
end

section
/-! SUPPORT. EPOCH_COMMIT (R130): arming a page AT_EPOCH, and the answer. -/
namespace Sys2Proof.Machine

/-! ### A page is armed -/

/-- The commit of page `g` that a message with EPOCH 0 and JOB `job` arms: AT_EPOCH for the first epoch whose cut-off it meets. -/
def armedCommit (job : Nat) (d : Dev) : Armed := { mode := 3, target := none, source := 1, job := job, at_ := d.now }

/-- The block with that commit armed. -/
def armedPage (g job : Nat) (d : Dev) : Dev :=
  let d := replaceArmed g (commitMode g 3 1 d)
  ({ d with armed := cellSet none d.armed g (some (armedCommit job d)) }).put (F.PG_COMMIT_STAT_STATUS g) stArmed

/-- A status that reports neither APPLIED nor a failure raises no event. -/
theorem commitStatus_quiet (p : Nat) {st : Nat} (d : Dev) (h : st ≠ stApplied) (h5 : st < 5) :
    commitStatus p st d = d.put (F.PG_COMMIT_STAT_STATUS p) st := by
  unfold commitStatus
  rw [if_neg h, if_neg (by omega)]

/-- `e` is `d` but for registers of `l` and the commits armed. -/
structure Rearmed (l : List Nat) (d e : Dev) : Prop where
  frame : ∃ r a, e = { d with regs := r, armed := a }
  regs : Kept l d e

namespace Rearmed
variable {l : List Nat} {d e f : Dev}

theorem refl (l : List Nat) (d : Dev) : Rearmed l d d := ⟨⟨_, _, rfl⟩, .refl l d⟩
theorem put (h : Rearmed l d e) {g : RegField} (v : Nat) (hg : g.addr ∈ l) : Rearmed l d (e.put g v) := by
  obtain ⟨⟨_, _, rfl⟩, k⟩ := h
  exact ⟨⟨_, _, rfl⟩, k.put v hg⟩
theorem armed (h : Rearmed l d e) (a : Cells (Option Armed)) : Rearmed l d { e with armed := a } := by
  obtain ⟨⟨_, _, rfl⟩, k⟩ := h
  exact ⟨⟨_, _, rfl⟩, k.trans (.of_regs rfl)⟩

theorem calm (h : Rearmed l d e) : Calm l d e := by
  obtain ⟨⟨_, _, rfl⟩, k⟩ := h
  exact ⟨k, rfl, rfl, rfl, rfl, rfl, rfl, rfl⟩
theorem sends {n : Nat} (h : Rearmed l d e) (hl : ∀ a ∈ sendRegs n, a ∉ l) (hp : R.PATH_STAT ∉ l) : SameSends n d e := by
  obtain ⟨⟨_, _, rfl⟩, k⟩ := h
  exact ⟨fun a ha => k.reg_eq (hl a ha), congrArg (fun w : Word => bits w.toNat _ _) (k.reg_eq hp), rfl, ⟨rfl, rfl, rfl, rfl, rfl, rfl, rfl⟩⟩
end Rearmed

theorem commitMode_rearmed (g : Nat) (d : Dev) : Rearmed [R.PG_COMMIT_STAT g] d (commitMode g 3 1 d) :=
  ((Rearmed.refl _ d).put (g := F.PG_COMMIT_STAT_MODE g) 3 (by simp)).put (g := F.PG_COMMIT_STAT_SOURCE g) 1 (by simp)

theorem replaceArmed_rearmed {g : Nat} {d e : Dev} (h : Rearmed [R.PG_COMMIT_STAT g] d e) : Rearmed [R.PG_COMMIT_STAT g] d (replaceArmed g e) := by
  unfold replaceArmed
  split
  · rw [commitStatus_quiet g _ (by decide) (by decide)]
    exact (h.armed _).put (g := F.PG_COMMIT_STAT_STATUS g) stReplaced (by simp)
  · exact h

theorem armedPage_rearmed (g job : Nat) (d : Dev) : Rearmed [R.PG_COMMIT_STAT g] d (armedPage g job d) :=
  ((replaceArmed_rearmed (commitMode_rearmed g d)).armed _).put (g := F.PG_COMMIT_STAT_STATUS g) stArmed (by simp)

/-- Replacing a commit leaves MODE and SOURCE, which the new one has set. -/
theorem replaceArmed_get {g : Nat} {d : Dev} {f : RegField} (h : Apart (F.PG_COMMIT_STAT_STATUS g) f) : (replaceArmed g d).get f = d.get f := by
  unfold replaceArmed
  split
  · rw [commitStatus_quiet g _ (by decide) (by decide), Dev.get_put_apart _ _ _ _ (by decide : (0 : Nat) + 4 ≤ 32) h]
    rfl
  · rfl

/-- What the page shows of its new commit (R438). -/
theorem armedPage_get (g job : Nat) (d : Dev) :
    (armedPage g job d).get (F.PG_COMMIT_STAT_STATUS g) = stArmed ∧ (armedPage g job d).get (F.PG_COMMIT_STAT_MODE g) = 3
      ∧ (armedPage g job d).get (F.PG_COMMIT_STAT_SOURCE g) = 1 := by
  have hput {f : RegField} (h : Apart (F.PG_COMMIT_STAT_STATUS g) f) :
      (armedPage g job d).get f = (commitMode g 3 1 d).get f :=
    (Dev.get_put_apart _ (F.PG_COMMIT_STAT_STATUS g) _ _ (by decide : (0 : Nat) + 4 ≤ 32) h).trans (replaceArmed_get h)
  refine ⟨Dev.get_put_same _ _ _ (by decide : (0 : Nat) + 4 ≤ 32), (hput (.inr (.inl (by decide : 0 + 4 ≤ 5)))).trans ?_,
    (hput (.inr (.inl (by decide : 0 + 4 ≤ 8)))).trans ?_⟩
  · unfold commitMode
    rw [Dev.get_put_apart _ _ _ _ (by decide : (8 : Nat) + 2 ≤ 32) (.inr (.inr (by decide : 5 + 3 ≤ 8)))]
    exact Dev.get_put_same _ _ _ (by decide : (5 : Nat) + 3 ≤ 32)
  · exact Dev.get_put_same _ _ _ (by decide : (8 : Nat) + 2 ≤ 32)

theorem armedPage_armed (g job : Nat) (d : Dev) : cellGet none (armedPage g job d).armed g = some (armedCommit job d) := by
  obtain ⟨⟨_, _, h⟩, -⟩ := replaceArmed_rearmed (commitMode_rearmed g d)
  have hnow : armedCommit job (replaceArmed g (commitMode g 3 1 d)) = armedCommit job d := by rw [h]; rfl
  exact (cellGet_cellSet_same ..).trans (congrArg some hnow)

/-- A message that selects one page, with a shadow half and no arming check, arms it under an active plan. -/
theorem epochCommit_armed {g : Nat} {d : Dev} (hlisted : pageListed g = true) (hshadow : pageShadow g = true)
    (hg : g ∉ [0x04, 0x09, 0x14, 0x48]) (hactive : d.planActive = true) (job : Nat) (reply : Nat × Nat) :
    epochCommit [g] 0 job reply d = (some { status := 0 }, armedPage g job d) := by
  have hplan : (commitMode g 3 1 d).planActive = true := by
    have hapart : R.PLAN_CHK ∉ [R.PG_COMMIT_STAT g] := by simp only [List.mem_singleton, R.PLAN_CHK, R.PG_COMMIT_STAT]; omega
    exact ((commitMode_rearmed g d).regs.getB_eq (g := F.PLAN_CHK_ACTIVE) hapart).trans hactive
  simp only [List.mem_cons, List.not_mem_nil, or_false, not_or] at hg
  obtain ⟨h4, h9, h14, h48⟩ := hg
  have hcheck (e : Dev) : armCheck g e = none := by
    unfold armCheck
    split
    · exact absurd rfl h9
    · exact absurd rfl h14
    · exact absurd rfl h48
    · rfl
  have hfind : [g].find? (fun p => !pageListed p || !pageShadow p) = none := by
    simp [hlisted, hshadow]
  have hcontains : [g].contains 0x04 = false := by simpa using fun h => h4 h.symm
  have harm : armPages [g] 3 none 1 job (commitMode g 3 1 d) = (false, armedPage g job d) := by
    unfold armPages armedPage
    rw [if_neg (by simp [hplan])]
    simp only [Bool.false_eq_true, if_false, forL, List.foldl_cons, List.foldl_nil]
    rw [commitStatus_quiet g _ (by decide) (by decide)]
    rfl
  unfold epochCommit
  simp only [hfind, if_true, Bool.and_false, Bool.false_eq_true, if_false]
  simp only [forL, List.foldl_cons, List.foldl_nil, List.findSome?_cons, List.findSome?_nil, hcheck, hcontains, harm, Option.map_none,
    Bool.false_eq_true, if_false]


/-! ### The message -/

theorem Talked.of_calm {l : List Nat} {d e : Dev} (h : Calm l d e) : Talked l d e where
  regs := h.regs
  todo := fun k => by unfold Dev.sess; rw [h.sess]
  regWrites := h.regWrites
  sysReq := h.sysReq
  burnReq := h.burnReq

/-- Neither a session's bounds nor what makes it OPEN is among the registers that JTP changes. -/
theorem sendRegs_apart : ∀ n : Fin 16, (∀ a ∈ sendRegs n, a ∉ jtpRegs n) ∧ R.SESS_CFG n ∉ jtpRegs n := by decide

/-- The registers of a page's commit are none of a session's. -/
theorem commitStat_apart (g : Nat) : ∀ n : Fin 16, ∀ a ∈ [R.RX_CUM n, R.JOB n, R.TX_NEXT n, R.PATH_STAT] ++ sendRegs n, a ≠ R.PG_COMMIT_STAT g := by
  intro n a ha h
  have hoffset : ∀ n : Fin 16, ∀ a ∈ [R.RX_CUM n, R.JOB n, R.TX_NEXT n, R.PATH_STAT] ++ sendRegs n, a % 0x1000 ≠ 0x24 := by decide
  exact hoffset n a ha (by rw [h]; simp only [R.PG_COMMIT_STAT]; omega)

theorem CalmOpen.mayAnswer {d : Dev} {n : Nat} {k : Nat} (h : CalmOpen d n) (hqueue : (d.sess n).queue = []) (hroom : hasRoom d n 1 = true)
    (hfits : k ≤ payloadMax d n tRegRead) : MayAnswer d n k := ⟨h.plain.auth, h.plain.opened, hfits, hqueue, hroom⟩

/-- `e` is `d` with the next message of calm session `n` taken from it: CUM is past it, and it is to be performed. -/
structure Due (n seq job : Nat) (d e : Dev) : Prop where
  received : Received n (jtpRegs n) d e
  cum : e.get (F.RX_CUM_CUM n) = (seq + 1) % 2 ^ 32
  job : e.get (F.JOB_JOB n) = job % 2 ^ 32
  todo : (e.sess n).todo = []
  window : SameWindow (d.sess n) (e.sess n)

theorem Due.sends {n : Fin 16} {seq job : Nat} {d e : Dev} (h : Due n seq job d e) : SameSends n d e :=
  h.received.sends (sendRegs_apart n).1 h.window

/-- The next message of a calm session, a control message sound in its content that need not wait, is performed. -/
theorem jtpMessage_performed {q t seq job epoch : Nat} {p : List Byte} {d : Dev} {n : Fin 16} (h : CalmOpen d n) (hup : ethUp d q = true)
    (hlen : p.length ≤ 9216) (ht : isControl t = true ∧ isFeedback t = false ∧ isBulk t = false ∧ t ≠ tPosition ∧ t ≠ tCopyOrder)
    (hseq : seq = d.get (F.RX_CUM_CUM n)) (hcheck : ∀ e, Kept (jtpRegs n) d e → contentCheck e (plainMsg q t n seq job epoch p) = 0)
    (hwait : ∀ e, mustWait e (plainMsg q t n seq job epoch p) = false) :
    ∃ e, Due n seq job d e ∧ (((performPassed (plainMsg q t n seq job epoch p) e).sess n).todo = [] →
      jtpMessage q t n seq job epoch p d = credited n (performPassed (plainMsg q t n seq job epoch p) e)) := by
  have hmod : seq % 2 ^ 32 = seq := Nat.mod_eq_of_lt (hseq ▸ Dev.get_lt _ (F.RX_CUM_CUM n))
  obtain ⟨e, ⟨hrec, hcum, hjob, htodo, hheld, hwindow⟩, hgo⟩ := jtpMessage_accepted h hup hlen ht hseq hcheck
  refine ⟨popped n e, ⟨hrec.trans ((popped_received n e).mono (by simp)), ?_, ?_, by rw [popped_sess], ?_⟩,
    fun hdone => hgo.trans (sessWork_performs hheld htodo (hwait e) hdone)⟩
  · exact hcum.trans (by simp only [plainMsg, hmod])
  · exact hjob.trans (Nat.mod_mod ..)
  · rw [popped_sess]
    obtain ⟨h1, h2, h3, h4, h5, h6, h7⟩ := hwindow
    exact ⟨h1, h2, h3, h4, h5, h6, h7⟩

/-- An EPOCH_COMMIT of one page, the next message of a calm session, arms the page and is answered. -/
theorem jtpMessage_commit {q g seq job : Nat} {p : List Byte} {d : Dev} {n : Fin 16} (h : CalmOpen d n) (hup : ethUp d q = true)
    (hseq : seq = d.get (F.RX_CUM_CUM n)) (hpages : commitPages p = [g]) (hlen : p.length = 16) (hlisted : pageListed g = true)
    (hshadow : pageShadow g = true) (hg : g ∉ [0x04, 0x09, 0x14, 0x48]) (hactive : d.planActive = true) (hanswer : MayAnswer d n 16) :
    ∃ e, Due n seq job d e ∧ Replied n tEpochCommit (commitAnswerBytes { status := 0 } seq) (armedPage g (job % 2 ^ 32) e)
      (jtpMessage q tEpochCommit n seq job 0 p d) := by
  have hmod : seq % 2 ^ 32 = seq := Nat.mod_eq_of_lt (hseq ▸ Dev.get_lt _ (F.RX_CUM_CUM n))
  have hplan : ∀ n : Fin 16, R.PLAN_CHK ∉ jtpRegs n := by decide
  have hwait (e : Dev) : mustWait e (plainMsg q tEpochCommit n seq job 0 p) = false := by
    have h4 : [g].contains 0x04 = false := by
      rw [List.contains_eq_mem, decide_eq_false]
      intro h4
      exact hg (List.mem_singleton.mp h4 ▸ by simp)
    unfold mustWait
    simp only [plainMsg, hpages, h4, Bool.and_false, Bool.or_false]
    rfl
  obtain ⟨e, hdue, hgo⟩ := jtpMessage_performed (q := q) (t := tEpochCommit) (job := job) (epoch := 0) (p := p) h hup (by omega)
    ⟨rfl, rfl, rfl, by decide, by decide⟩ hseq (fun e _ => if_pos hlen) hwait
  have hactive' : e.planActive = true := (hdue.received.regs.getB_eq (hplan n)).trans hactive
  have hperform : performPassed (plainMsg q tEpochCommit n seq job 0 p) e
      = respond n tEpochCommit (commitAnswerBytes { status := 0 } seq) (armedPage g (job % 2 ^ 32) e) := by
    have hcommit := epochCommit_armed hlisted hshadow hg hactive' (job % 2 ^ 32) ((n : Nat), seq % 2 ^ 32)
    rw [← hpages, hmod] at hcommit
    simp only [performPassed, plainMsg, tEpochCommit, hmod, Nat.zero_mod, hcommit]
  have hre := armedPage_rearmed g (job % 2 ^ 32) e
  have hstat : ∀ a ∈ [R.RX_CUM n, R.JOB n, R.TX_NEXT n, R.PATH_STAT] ++ sendRegs n, a ∉ [R.PG_COMMIT_STAT g] :=
    fun a ha => by simpa using commitStat_apart g n a ha
  have hsame := hdue.sends.trans (hre.sends (fun a ha => hstat a (List.mem_append_right _ ha)) (hstat _ (by simp)))
  have hmay := hanswer.of_same hsame
  have hlen' : (commitAnswerBytes { status := 0 } seq).length = 16 := by simp [commitAnswerBytes, beBytes_length]
  have hans := respond_answered (t := tEpochCommit) (p := commitAnswerBytes { status := 0 } seq) hmay rfl hlen'.le
    (by rw [hlen']; decide)
  have htodo : ((armedPage g (job % 2 ^ 32) e).sess n).todo = [] := by
    unfold Dev.sess; rw [hre.calm.sess]; exact hdue.todo
  refine ⟨e, hdue, ?_⟩
  rw [hgo (by rw [hperform, hans.todo, htodo]), hperform]
  exact hans.credited hmay.auth

/-- The clause of O16 about EPOCH_COMMIT. -/
theorem execEpochCommit_arms {dt g : Nat} {q : Fin 2} {n : Fin 16} {seq job : Word} {p : List Byte} {s : State} (hready : Ready s)
    (hcalm : CalmSession s n) (hup : ethUp s.dev q = true) (hseq : seq.toNat = s.dev.get (F.RX_CUM_CUM n)) (hpages : commitPages p = [g])
    (hlen : p.length = 16) (hlisted : pageListed g = true) (hshadow : pageShadow g = true) (hg : g ∉ [0x04, 0x09, 0x14, 0x48])
    (hactive : s.dev.planActive = true) (hanswer : MayAnswer (s.dev.elapse dt) n 16) :
    ∃ t m, execEpochCommit dt q n seq job 0 p s = .next t
      ∧ cellGet none t.dev.armed g = some { mode := 3, target := none, source := 1, job := job.toNat, at_ := s.dev.now + dt }
      ∧ t.dev.get (F.PG_COMMIT_STAT_STATUS g) = stArmed ∧ t.dev.get (F.PG_COMMIT_STAT_MODE g) = 3
      ∧ t.dev.get (F.PG_COMMIT_STAT_SOURCE g) = 1 ∧ (t.dev.sess n).sent = (s.dev.sess n).sent ++ [m]
      ∧ m.bytes = deviceMsg s.dev n tEpochCommit ((s.dev.sess n).txNum % 2 ^ 32) true (commitAnswerBytes { status := 0 } seq.toNat)
      ∧ t.dev.get (F.RX_CUM_CUM n) = (seq.toNat + 1) % 2 ^ 32 ∧ t.dev.get (F.JOB_JOB n) = job.toNat
      ∧ RegsKept (R.PG_COMMIT_STAT g :: R.TX_NEXT n :: jtpRegs n) s t ∧ MemKept s t := by
  have hopen := CalmOpen.of_calm hcalm dt
  have hjob : job.toNat % 2 ^ 32 = job.toNat := Nat.mod_eq_of_lt job.isLt
  obtain ⟨e, hdue, hrep⟩ := jtpMessage_commit (job := job.toNat) hopen hup hseq hpages hlen hlisted hshadow hg hactive hanswer
  have hre := armedPage_rearmed g (job.toNat % 2 ^ 32) e
  obtain ⟨hstatus, hmode, hsource⟩ := armedPage_get g (job.toNat % 2 ^ 32) e
  have hcell := armedPage_armed g (job.toNat % 2 ^ 32) e
  have hstat : ∀ a ∈ [R.RX_CUM n, R.JOB n, R.TX_NEXT n, R.PATH_STAT] ++ sendRegs n, a ∉ [R.PG_COMMIT_STAT g] :=
    fun a ha => by simpa using commitStat_apart g n a ha
  have hsame := hdue.sends.trans (hre.sends (fun a ha => hstat a (List.mem_append_right _ ha)) (hstat _ (by simp)))
  obtain ⟨⟨m, hsent, -, hbytes⟩, -⟩ := hrep.of_same hsame hopen.plain.auth
  generalize armedPage g (job.toNat % 2 ^ 32) e = e1 at *
  generalize hf : jtpMessage q tEpochCommit n seq.toNat job.toNat 0 p (s.dev.elapse dt) = f at *
  have hnext : ∀ n : Fin 16, R.RX_CUM n ∉ [R.TX_NEXT n] ∧ R.JOB n ∉ [R.TX_NEXT n] := by decide
  have hcommit : R.PG_COMMIT_STAT g ∉ [R.TX_NEXT n] := by simpa using (commitStat_apart g n (R.TX_NEXT n) (by simp)).symm
  have hkept {x : RegField} (hx : x.addr ∉ [R.TX_NEXT n]) : f.get x = e1.get x := hrep.received.regs.get_eq hx
  have htalk : Talked (R.PG_COMMIT_STAT g :: R.TX_NEXT n :: jtpRegs n) (s.dev.elapse dt) f :=
    ((hdue.received.talked (hdue.todo.trans hopen.clear.todo.symm)).mono (by simp)).trans
      (((Talked.of_calm hre.calm).mono (by simp)).trans ((hrep.received.talked hrep.todo).mono (by simp)))
  have hend : ∀ a ∈ endRegs, a ∉ R.PG_COMMIT_STAT g :: R.TX_NEXT n :: jtpRegs n := by
    have h : ∀ n : Fin 16, ∀ a ∈ endRegs, a ∉ R.TX_NEXT n :: jtpRegs n ∧ a % 0x1000 ≠ 0x24 := by decide
    intro a ha
    rw [List.mem_cons, not_or]
    refine ⟨fun hg => (h n a ha).2 (by rw [hg]; simp only [R.PG_COMMIT_STAT]; omega), (h n a ha).1⟩
  obtain ⟨hdo, hregs, hmem⟩ := perform_still (dt := dt)
    (f := jtpMessage q tEpochCommit n seq.toNat job.toNat 0 p) hready hf htalk hend
    (hrep.received.banks.trans (hre.calm.banks.trans hdue.received.banks))
    (hrep.received.dram.trans (hre.calm.dram.trans hdue.received.dram)) (hrep.received.l2.trans (hre.calm.l2.trans hdue.received.l2))
  refine ⟨_, m, hdo, ?_, (hkept hcommit).trans hstatus, (hkept hcommit).trans hmode, (hkept hcommit).trans hsource, hsent, hbytes, ?_, ?_,
    hregs, hmem⟩
  · have hnow : armedCommit (job.toNat % 2 ^ 32) e = { mode := 3, target := none, source := 1, job := job.toNat, at_ := s.dev.now + dt } := by
      unfold armedCommit; rw [hjob, hdue.received.now]; rfl
    exact (congrArg (cellGet none · g) hrep.received.armed).trans (hcell.trans (congrArg some hnow))
  · exact (hkept (hnext n).1).trans ((hre.regs.get_eq (hstat _ (by simp))).trans hdue.cum)
  · exact (hkept (hnext n).2).trans ((hre.regs.get_eq (hstat _ (by simp))).trans (hdue.job.trans hjob))

end Sys2Proof.Machine
end

section
/-! SUPPORT. Writes of several bytes of memory by an engine that may reach it (R322, R369, R370): one transaction per line, each byte
where it belongs. -/
namespace Sys2Proof.Machine

/-- `State.byte` of the block. -/
def memByte (d : Dev) (a : Nat) : Byte := State.byte { dev := d } a

theorem byte_eq_memByte (s : State) (a : Nat) : s.byte a = memByte s.dev a := rfl

theorem memByte_congr {d e : Dev} (hd : e.dram = d.dram) (hl : e.l2 = d.l2) (a : Nat) : memByte e a = memByte d a :=
  memKept_of_same (s := { dev := d }) (t := { dev := e }) hd hl a

/-- `e` is `d` with `bs` put into memory from `a` on, but for DRAM's schedule, what is known of poison, what the shadows were before
this cycle, and the registers of row protection and of the warm image. -/
structure MemPut (a : Nat) (bs : List Byte) (d e : Dev) : Prop where
  frame : ∃ r b la th ro rd ru u rm m l sa so, e = { d with
    regs := r, banks := b, lastAct := la, throttled := th, rows := ro, rankDown := rd, rankUsed := ru, ue := u, remap := rm
    dram := m, l2 := l, shAt := sa, shOld := so }
  regs : Kept memRegs d e
  inside : ∀ i, i < bs.length → memByte e (a + i) = bs.getD i 0
  outside : ∀ x, x < a ∨ a + bs.length ≤ x → memByte e x = memByte d x

namespace MemPut
variable {a : Nat} {bs cs : List Byte} {d e f : Dev}

theorem nil (a : Nat) (d : Dev) : MemPut a [] d d :=
  ⟨⟨_, _, _, _, _, _, _, _, _, _, _, _, _, rfl⟩, .refl _ d, fun _ hi => absurd hi (Nat.not_lt_zero _), fun _ _ => rfl⟩

/-- What is put in one after the other. -/
theorem append (h : MemPut a bs d e) (g : MemPut (a + bs.length) cs e f) : MemPut a (bs ++ cs) d f := by
  obtain ⟨⟨_, _, _, _, _, _, _, _, _, _, _, _, _, rfl⟩, hk, hin, hout⟩ := h
  obtain ⟨⟨_, _, _, _, _, _, _, _, _, _, _, _, _, rfl⟩, gk, gin, gout⟩ := g
  refine ⟨⟨_, _, _, _, _, _, _, _, _, _, _, _, _, rfl⟩, hk.trans gk, fun i hi => ?_, fun x hx => ?_⟩
  · by_cases h : i < bs.length
    · rw [gout _ (.inl (by omega)), hin i h, List.getD_append _ _ _ _ h]
    · have hg := gin (i - bs.length) (by rw [List.length_append] at hi; omega)
      rw [show a + bs.length + (i - bs.length) = a + i by omega] at hg
      rw [hg, List.getD_append_right _ _ _ _ (by omega)]
  · rw [List.length_append] at hx
    rw [gout x (by omega), hout x (by omega)]

theorem touch (h : MemPut a bs d e) (g : DramTouch e f) : MemPut a bs d f := by
  have hsame := memByte_congr g.dram g.l2
  obtain ⟨⟨_, _, _, _, _, _, _, _, _, _, _, _, _, rfl⟩, hk, hin, hout⟩ := h
  obtain ⟨⟨_, _, _, _, _, _, _, rfl⟩, gk⟩ := g
  exact ⟨⟨_, _, _, _, _, _, _, _, _, _, _, _, _, rfl⟩, hk.trans gk, fun i hi => (hsame _).trans (hin i hi),
    fun x hx => (hsame _).trans (hout x hx)⟩

theorem l2Ram (h : MemPut a bs d e) : e.l2Ram = d.l2Ram := by obtain ⟨⟨_, _, _, _, _, _, _, _, _, _, _, _, _, rfl⟩, -⟩ := h; rfl
theorem regions (h : MemPut a bs d e) : e.regions = d.regions := by obtain ⟨⟨_, _, _, _, _, _, _, _, _, _, _, _, _, rfl⟩, -⟩ := h; rfl
theorem heldSteps (h : MemPut a bs d e) : e.heldSteps = d.heldSteps := by
  obtain ⟨⟨_, _, _, _, _, _, _, _, _, _, _, _, _, rfl⟩, -⟩ := h; rfl
theorem jtp (h : MemPut a bs d e) : e.jtp = d.jtp := by obtain ⟨⟨_, _, _, _, _, _, _, _, _, _, _, _, _, rfl⟩, -⟩ := h; rfl
theorem sess (h : MemPut a bs d e) (n : Nat) : e.sess n = d.sess n := by unfold Dev.sess; rw [h.jtp]
theorem path (h : MemPut a bs d e) : e.path = d.path := by obtain ⟨⟨_, _, _, _, _, _, _, _, _, _, _, _, _, rfl⟩, -⟩ := h; rfl
theorem streams (h : MemPut a bs d e) : e.streams = d.streams := by obtain ⟨⟨_, _, _, _, _, _, _, _, _, _, _, _, _, rfl⟩, -⟩ := h; rfl
theorem planJob (h : MemPut a bs d e) : e.planJob = d.planJob := by obtain ⟨⟨_, _, _, _, _, _, _, _, _, _, _, _, _, rfl⟩, -⟩ := h; rfl
theorem rate (h : MemPut a bs d e) (hr : (d.getB F.DRAMC_FCHG_BUSY && !d.getB F.DRAMC_STAT_SELFREF) = false) :
    (e.getB F.DRAMC_FCHG_BUSY && !e.getB F.DRAMC_STAT_SELFREF) = false := by
  rw [h.regs.getB_eq (g := F.DRAMC_FCHG_BUSY) (by decide), h.regs.getB_eq (g := F.DRAMC_STAT_SELFREF) (by decide), hr]

theorem talked (h : MemPut a bs d e) : Talked memRegs d e where
  regs := h.regs
  todo := fun k => congrArg Sess.todo (h.sess k)
  regWrites := by obtain ⟨⟨_, _, _, _, _, _, _, _, _, _, _, _, _, rfl⟩, -⟩ := h; rfl
  sysReq := by obtain ⟨⟨_, _, _, _, _, _, _, _, _, _, _, _, _, rfl⟩, -⟩ := h; rfl
  burnReq := by obtain ⟨⟨_, _, _, _, _, _, _, _, _, _, _, _, _, rfl⟩, -⟩ := h; rfl

/-- What is put into memory changes nothing about what a master of JTP may reach. -/
theorem reachable (h : MemPut a bs d e) {m kind b n : Nat} (hm : m ∈ [mJtpBulk, mJtpRemote, mJtpRings]) (hr : Reachable d m kind b n) :
    Reachable e m kind b n := by
  have hregs : ∀ m ∈ [mJtpBulk, mJtpRemote, mJtpRings], ∀ x ∈ reachRegs m, x ∉ memRegs := by decide
  have hmaster : ∀ m ∈ [mJtpBulk, mJtpRemote, mJtpRings], ¬ m < 4 ∧ m < 18 := by decide
  exact hr.of_kept h.regs (hregs m hm) (hmaster m hm).1 (hmaster m hm).2 h.l2Ram h.regions h.heldSteps
end MemPut

/-! ### One transaction -/

/-- The `n` bytes from `a` lie in DRAM, or all in L2. -/
def OneMemory (a n : Nat) : Prop := ∀ i, i < n → inRom (a + i) = false ∧ inDram (a + i) = inDram a ∧ inL2 (a + i) = !inDram a

/-- Memory within a line is of one kind. -/
theorem Reachable.oneMemory {d : Dev} {m kind a n : Nat} (h : Reachable d m kind a n) (hn : n ≤ 64) : OneMemory a n := by
  intro i hi
  have hat (j : Nat) (hj : j < n) := (h.sub (b := a + j) (k := 1) (by omega) (by omega)).backed one_pos
  obtain ⟨-, -, -, h0⟩ := hat 0 (by omega)
  obtain ⟨-, -, hrom, hi⟩ := hat i hi
  refine ⟨hrom, ?_⟩
  simp only [Nat.add_zero, inDram, inL2, Bool.and_eq_true, Bool.and_eq_false_iff, decide_eq_true_eq, decide_eq_false_iff_not] at h0 hi
  have hsame : (inDram (a + i) = true ↔ inDram a = true) ∧ (inL2 (a + i) = true ↔ inDram a = false) := by
    simp only [inDram, inL2, Bool.and_eq_true, Bool.and_eq_false_iff, decide_eq_true_eq, decide_eq_false_iff_not]
    omega
  exact ⟨Bool.eq_iff_iff.mpr hsame.1, Bool.eq_iff_iff.mpr (hsame.2.trans (by simp))⟩

/-- A store of bytes of L2 leaves those of other addresses of L2. -/
theorem l2Store_outside {a x : Nat} {bs : List Byte} {m : Cells Byte} (ha : ¬ inDram a = true) (hone : OneMemory a bs.length)
    (hxl : inL2 x = true) (hx : x < a ∨ a + bs.length ≤ x) :
    cellGet 0 (dramStore (a - 0x20000000) bs m) (x - 0x20000000) = cellGet 0 m (x - 0x20000000) := by
  cases bs with
  | nil => rfl
  | cons b bs =>
    have h0 := (hone 0 (by simp)).2.2
    rw [Bool.eq_false_iff.mpr ha] at h0
    simp only [inL2, Nat.add_zero, Bool.not_false, Bool.and_eq_true, decide_eq_true_eq] at h0 hxl
    rcases hx with hx | hx
    · exact dramStore_below _ _ _ _ (by omega)
    · exact dramStore_above _ _ _ _ (by omega)

/-- A store of memory of one kind, byte by byte. -/
theorem MemWritten.put {a : Nat} {bs : List Byte} {d e : Dev} (h : MemWritten a bs d e) (hone : OneMemory a bs.length) : MemPut a bs d e := by
  have hdram := h.dram_eq
  have hl2 := h.l2_eq
  obtain ⟨⟨_, _, _, _, _, _, _, _, _, rfl⟩, hk⟩ := h
  refine ⟨⟨_, _, _, _, _, _, _, _, _, _, _, _, _, rfl⟩, hk, fun i hi => ?_, fun x hx => ?_⟩
  · obtain ⟨hrom, hd, hl⟩ := hone i hi
    unfold memByte State.byte
    rw [hdram, hl2, hrom, hl]
    by_cases ha : inDram a = true
    · simp only [ha, Bool.not_true, Bool.false_eq_true, if_false, if_true]
      exact dramStore_read bs a _ i hi
    · have hlow : 0x20000000 ≤ a + i ∧ 0x20000000 ≤ a := by
        have h0 := (hone 0 (by omega)).2.2
        rw [Bool.eq_false_iff.mpr ha] at hl h0
        simp only [inL2, Nat.add_zero, Bool.not_false, Bool.and_eq_true, decide_eq_true_eq] at hl h0
        exact ⟨hl.1, h0.1⟩
      simp only [Bool.eq_false_iff.mpr ha, Bool.not_false, Bool.false_eq_true, if_false, if_true]
      rw [show a + i - 0x20000000 = a - 0x20000000 + i by omega]
      exact dramStore_read bs _ _ i hi
  · unfold memByte State.byte
    rw [hdram, hl2]
    by_cases ha : inDram a = true
    · simp only [ha, if_true]
      rcases hx with hx | hx
      · rw [dramStore_below _ _ _ _ hx]
      · rw [dramStore_above _ _ _ _ hx]
    · simp only [Bool.eq_false_iff.mpr ha, Bool.false_eq_true, if_false]
      by_cases hxl : inL2 x = true
      · rw [l2Store_outside ha hone hxl hx]
      · simp only [hxl, Bool.false_eq_true, if_false]

/-- The transaction of a piece that the master may reach. -/
theorem targetWrite_put {m m' a : Nat} {bs : List Byte} {d : Dev} (h : Reachable d m kindWrite a bs.length) (hpos : 0 < bs.length)
    (hline : bs.length ≤ 64) : MemPut a bs d (targetWrite m' a bs d) := by
  obtain ⟨-, -, -, hb⟩ := h.backed hpos
  exact (targetWrite_written bs (hb.imp (fun h => ⟨h.1, h.2.2.1⟩) id)).put (h.oneMemory hline)

theorem engineWrite1_put {m a : Nat} {bs : List Byte} {d : Dev} (h : Reachable d m kindWrite a bs.length) (hpos : 0 < bs.length)
    (hline : bs.length ≤ 64) : MemPut a bs d (engineWrite1 m a bs d) := by
  obtain ⟨hs, hreg, -, hb⟩ := h.backed hpos
  have hrwm : reachesRwm a bs.length = false := by unfold reachesRwm; rw [hreg]
  have hwrite : engineWrite1 m a bs d = targetWrite m a bs d := by
    unfold engineWrite1
    simp only [hrwm, hs, h.1, h.2.1, Bool.not_true, Bool.or_false, Bool.false_eq_true, if_false]
    rcases hb with ⟨-, -, -, hbusy⟩ | ⟨hdram, -, -⟩
    · simp [hbusy]
    · simp [hdram]
  rw [hwrite]
  exact targetWrite_put h hpos hline

/-! ### A write in its lines -/

/-- The pieces of a write of `bs` from `a`, each within a line, with their bytes: `linePieces`. -/
def lineParts : Nat → Nat → List Byte → List (Nat × List Byte)
  | 0, _, _ => []
  | fuel + 1, a, bs =>
    if bs.length = 0 then [] else
    let k := min bs.length (64 - a % 64)
    (a, bs.take k) :: lineParts fuel (a + k) (bs.drop k)

/-- A write is made piece by piece. -/
theorem lineParts_put {step : Nat × List Byte → Dev → Dev} {m kind : Nat} (hm : m ∈ [mJtpBulk, mJtpRemote, mJtpRings])
    (hstep : ∀ q e, Reachable e m kind q.1 q.2.length → 0 < q.2.length → q.2.length ≤ 64 → MemPut q.1 q.2 e (step q e)) {fuel a : Nat}
    {bs : List Byte} {d : Dev} (hfuel : bs.length < fuel) (h : Reachable d m kind a bs.length) :
    MemPut a bs d ((lineParts fuel a bs).foldl (fun e q => step q e) d) := by
  induction fuel generalizing a bs d with
  | zero => omega
  | succ fuel ih =>
    unfold lineParts
    split
    · next hnil =>
      rw [List.length_eq_zero_iff.mp hnil]
      exact .nil a d
    · next hne =>
      have hmod := Nat.mod_lt a (show 0 < 64 by omega)
      generalize hk : min bs.length (64 - a % 64) = k
      have hlen : (bs.take k).length = k := by rw [List.length_take]; omega
      have hrest : (bs.drop k).length = bs.length - k := List.length_drop
      have h1 : MemPut a (bs.take k) d (step (a, bs.take k) d) :=
        hstep (a, bs.take k) d (h.sub (le_refl a) (by rw [hlen]; omega)) (by rw [hlen]; omega) (by rw [hlen]; omega)
      have h2 := ih (a := a + k) (bs := bs.drop k) (by rw [hrest]; omega)
        ((h1.reachable hm h).sub (by omega) (by rw [hrest]; omega))
      have happ := h1.append (cs := bs.drop k) (by rw [hlen]; exact h2)
      rwa [List.take_append_drop] at happ

theorem engineWrite_parts (m a : Nat) (bs : List Byte) (d : Dev) : engineWrite m a bs d
    = dramRun ((lineParts (bs.length + 1) a bs).foldl (fun e q => engineWrite1 m q.1 q.2 e) d) := by
  have hfold (fuel a : Nat) (bs : List Byte) (d : Dev) : ((linePieces fuel a bs.length).foldl
      (fun (p : List Byte × Dev) q => (p.1.drop q.2, engineWrite1 m q.1 (p.1.take q.2) p.2)) (bs, d)).2
        = (lineParts fuel a bs).foldl (fun e q => engineWrite1 m q.1 q.2 e) d := by
    induction fuel generalizing a bs d with
    | zero => rfl
    | succ fuel ih =>
      unfold linePieces lineParts
      split
      · rfl
      · rw [List.foldl_cons, List.foldl_cons, ← List.length_drop]
        exact ih _ _ _
  unfold engineWrite
  rw [hfold]

/-- A write of memory that an engine of JTP may reach puts its bytes there. -/
theorem engineWrite_put {m a : Nat} {bs : List Byte} {d : Dev} (hm : m ∈ [mJtpBulk, mJtpRemote, mJtpRings])
    (h : Reachable d m kindWrite a bs.length) (hrate : (d.getB F.DRAMC_FCHG_BUSY && !d.getB F.DRAMC_STAT_SELFREF) = false) :
    MemPut a bs d (engineWrite m a bs d) := by
  have hput := lineParts_put (step := fun q e => engineWrite1 m q.1 q.2 e) hm (fun q e => engineWrite1_put) (Nat.lt_succ_self _) h
  rw [engineWrite_parts]
  exact hput.touch (dramRun_touch _ (hput.rate hrate))

/-- The writes of a bulk message to memory are those pieces. -/
theorem lineWrites_parts (a : Nat) (bs : List Byte) :
    lineWrites a bs = (lineParts (bs.length + 1) a bs).map (fun q => (q.1, targetWrite mJtpBulk q.1 q.2)) := by
  have hmap (fuel o : Nat) (ho : o ≤ bs.length) : (linePieces fuel (a + o) (bs.length - o)).map
      (fun q => (q.1, targetWrite mJtpBulk q.1 ((bs.drop (q.1 - a)).take q.2)))
        = (lineParts fuel (a + o) (bs.drop o)).map (fun q => (q.1, targetWrite mJtpBulk q.1 q.2)) := by
    induction fuel generalizing o with
    | zero => rfl
    | succ fuel ih =>
      unfold linePieces lineParts
      rw [List.length_drop]
      split
      · rfl
      · generalize hk : min (bs.length - o) (64 - (a + o) % 64) = k
        have hnext := ih (o + k) (by omega)
        simp only [List.map_cons, Nat.add_sub_cancel_left]
        rw [List.drop_drop, Nat.sub_sub, Nat.add_assoc, hnext]
  exact hmap _ 0 (Nat.zero_le _)

theorem lineParts_within (fuel a : Nat) (bs : List Byte) : ∀ q ∈ lineParts fuel a bs,
    0 < q.2.length ∧ q.2.length ≤ 64 ∧ a ≤ q.1 ∧ q.1 + q.2.length ≤ a + bs.length := by
  induction fuel generalizing a bs with
  | zero => simp [lineParts]
  | succ fuel ih =>
    unfold lineParts
    split
    · simp
    · intro q hq
      have := Nat.mod_lt a (show 0 < 64 by omega)
      rcases List.mem_cons.1 hq with rfl | hq
      · simp only [List.length_take]
        omega
      · have hin := ih _ _ q hq
        rw [List.length_drop] at hin
        omega

end Sys2Proof.Machine
end

section
/-! SUPPORT. DOORBELL (R132, R137): a record and its message in the management receive ring. -/
namespace Sys2Proof.Machine

/-! ### A source rings -/

/-- What ringing source 26 or 25 can change. -/
abbrev ringedRegs : List Nat := [R.EVT_PEND 0, R.EVTC_CNT 0, R.EVTC_CNT 1, R.EVTC_CNT 2, R.EVTC_CNT 3]

theorem Kept.ring {l : List Nat} {d e : Dev} (h : Kept l d e) {n : Nat} (hn : n < 32) (hl : ringedRegs ⊆ l) : Kept l d (e.ring n) := by
  refine fun a ha => (Dev.reg_ring e n a fun hr => ha (hl ?_)).trans (h a ha)
  unfold ringRegs at hr
  have hroute := Dev.routeOf_lt e n
  generalize e.routeOf n = r at hr hroute
  rcases hr with rfl | rfl
  · rw [show n / 32 = 0 by omega]; simp
  · interval_cases r <;> simp

theorem ring_frame (n : Nat) (d : Dev) : ∃ r, d.ring n = { d with regs := r } := by
  unfold Dev.ring Dev.setSharedPending
  split
  · exact ⟨_, rfl⟩
  · exact ⟨_, rfl⟩

/-- A source that has rung is pending (R349). -/
theorem ring_pending {n : Nat} (hn : n < 32) (d : Dev) : (d.ring n).sharedPending n = true := by
  by_cases h : d.sharedPending n = true
  · have hapart : Apart (F.EVTC_CNT_COAL (d.routeOf n)) (F.EVT_PEND_PEND (n / 32)) := by
      refine .inl ?_
      simp only [R.EVT_PEND, R.EVTC_CNT]
      omega
    unfold Dev.ring
    rw [if_pos h]
    unfold Dev.sharedPending at h ⊢
    rw [Dev.get_count_apart _ _ _ _ (by decide : 16 + 16 ≤ 32) hapart]
    exact h
  · unfold Dev.ring Dev.setSharedPending
    rw [if_neg h]
    unfold Dev.sharedPending
    rw [Dev.get_put_same _ _ _ (by decide : 0 + 32 ≤ 32), if_pos rfl]
    unfold bit
    rw [Nat.testBit_mod_two_pow]
    have := bit_setBit (d.get (F.EVT_PEND_PEND (n / 32))) (n % 32) (n % 32)
    unfold bit at this
    simp [this]; omega

/-! ### The other sources -/

theorem sharedPending_congr {d e : Dev} (h : e.regs = d.regs) (k : Nat) : e.sharedPending k = d.sharedPending k := by
  unfold Dev.sharedPending
  rw [Dev.get_congr _ _ h]

theorem sharedPending_of_reg {d e : Dev} {k : Nat} (h : e.reg (R.EVT_PEND (k / 32)) = d.reg (R.EVT_PEND (k / 32))) :
    e.sharedPending k = d.sharedPending k := by
  unfold Dev.sharedPending Dev.get
  rw [h]

theorem setSharedPending_other {j k : Nat} (h : k ≠ j) (b : Bool) (d : Dev) :
    (d.setSharedPending j b).sharedPending k = d.sharedPending k := by
  unfold Dev.setSharedPending Dev.sharedPending
  by_cases hword : k / 32 = j / 32
  · have hbit : k % 32 ≠ j % 32 := by omega
    have hlt : d.get (F.EVT_PEND_PEND (j / 32)) < 2 ^ 32 := Dev.get_lt d (F.EVT_PEND_PEND (j / 32))
    rw [hword, Dev.get_put_same _ _ _ (by decide : 0 + 32 ≤ 32)]
    have hmod (x : Nat) : bit (x % 2 ^ 32) (k % 32) = bit x (k % 32) := by
      unfold bit
      rw [Nat.testBit_mod_two_pow, decide_eq_true (Nat.mod_lt _ (by decide)), Bool.true_and]
    refine (hmod _).trans ?_
    cases b
    · rw [if_neg Bool.false_ne_true, bit_clearBit]
      simp [hbit]
    · rw [if_pos rfl, bit_setBit]
      simp [hbit]
  · rw [Dev.get_put_apart _ _ _ _ (by decide : 0 + 32 ≤ 32) (.inl (by simp only [R.EVT_PEND]; omega))]

theorem ring_other {j k : Nat} (h : k ≠ j) (hk : k < 32) (d : Dev) : (d.ring j).sharedPending k = d.sharedPending k := by
  unfold Dev.ring
  split
  · exact sharedPending_of_reg (Dev.reg_count_ne _ _ _ _ (by simp only [R.EVT_PEND, R.EVTC_CNT]; omega))
  · exact setSharedPending_other h true d

/-- A block event of page 0x50 leaves every source but that of its page as it is. -/
theorem raise_other {k : Nat} (h : k ≠ pageSource 0x50) (hk : k < 32) (j : Nat) (d : Dev) :
    (d.raise 0x50 j).sharedPending k = d.sharedPending k := by
  have hset (w : Word) : (d.setReg (R.PG_EVT 0x50) w).sharedPending k = d.sharedPending k :=
    sharedPending_of_reg (Dev.reg_setReg_ne _ _ _ _ (by simp only [R.EVT_PEND, R.PG_EVT]; omega))
  unfold Dev.raise Dev.raiseBits Dev.withSource
  simp only
  split
  · exact (ring_other h hk _).trans (hset _)
  · split
    · exact (setSharedPending_other h _ _).trans (hset _)
    · exact hset _

theorem dramActivate_other {k : Nat} (h : k ≠ pageSource 0x50) (hk : k < 32) (m b r : Nat) (d : Dev) :
    (dramActivate m b r d).sharedPending k = d.sharedPending k := by
  have hput {e : Dev} (g : RegField) (v : Nat) (hg : g.addr = R.DRAMC_RH_STAT) : (e.put g v).sharedPending k = e.sharedPending k :=
    sharedPending_of_reg (Dev.reg_put_ne _ _ _ _ (by rw [hg]; simp only [R.EVT_PEND, R.DRAMC_RH_STAT]; omega))
  unfold dramActivate
  extract_lets d1 mine rest n others low others2 d2 d3 d4
  have h2 : d2.sharedPending k = d.sharedPending k := sharedPending_congr rfl k
  have h3 : d3.sharedPending k = d.sharedPending k := by
    unfold d3
    split
    · exact h2
    · exact (sharedPending_congr rfl k).trans h2
  split
  · exact sharedPending_congr rfl k
  · exact (raise_other h hk _ _).trans ((hput _ _ rfl).trans ((hput F.DRAMC_RH_STAT_COUNT _ rfl).trans ((hput _ _ rfl).trans h3)))

theorem dramServe_other {k : Nat} (h : k ≠ pageSource 0x50) (hk : k < 32) (b : Nat) (r : DramReq) (d : Dev) :
    (dramServe b r d).sharedPending k = d.sharedPending k := by
  unfold dramServe
  extract_lets x o y z rank d1 d2
  have h2 : d2.sharedPending k = d.sharedPending k := sharedPending_congr rfl k
  split
  · exact h2
  · exact (dramActivate_other h hk _ _ _ _).trans h2

theorem dramServeAll_other {k : Nat} (h : k ≠ pageSource 0x50) (hk : k < 32) (n sub : Nat) (d : Dev) :
    (dramServeAll n sub d).sharedPending k = d.sharedPending k := by
  induction n generalizing d with
  | zero => rfl
  | succ n ih =>
    unfold dramServeAll
    split
    · rfl
    · exact (ih _).trans (dramServe_other h hk _ _ _)

/-- DRAM's work rings no source but that of its page. -/
theorem dramRun_other {k : Nat} (h : k ≠ pageSource 0x50) (hk : k < 32) (d : Dev) : (dramRun d).sharedPending k = d.sharedPending k := by
  have hself {e : Dev} (he : e.sharedPending k = d.sharedPending k) : (selfRefresh e).sharedPending k = d.sharedPending k := by
    have hreg : ((e.put F.DRAMC_STAT_SELFREF 1).put F.CLK_STAT_LOCK_D 0).reg (R.EVT_PEND (k / 32)) = e.reg (R.EVT_PEND (k / 32)) := by
      rw [Dev.reg_put_ne _ _ _ _ (by simp only [R.EVT_PEND, R.CLK_STAT]; omega),
        Dev.reg_put_ne _ _ _ _ (by simp only [R.EVT_PEND, R.DRAMC_STAT]; omega)]
    exact (sharedPending_of_reg hreg).trans he
  unfold dramRun
  extract_lets d1 d2
  have h1 : d1.sharedPending k = d.sharedPending k := by
    unfold d1
    split
    · exact sharedPending_congr rfl k
    · exact rfl
  have h2 : d2.sharedPending k = d.sharedPending k := by
    unfold d2
    split
    · rfl
    · exact (dramServeAll_other h hk _ _ _).trans ((dramServeAll_other h hk _ _ _).trans h1)
  split
  · exact hself h2
  · exact h2

/-! ### The record is written -/

/-- The ring's next record is there to be read, and its buffer `buf` and the record itself may be written. -/
structure MrxReady (d : Dev) (a buf len : Nat) : Prop where
  space : d.jtp.mrxHeld < d.get F.MRX_WMARK_WMARK
  free : d.get F.MRX_HEAD_HEAD ≠ d.get F.MRX_TAIL_TAIL
  address : a = d.get2 F.MRX_BASE_LO_BASE F.MRX_BASE_HI_BASE + 16 * d.get F.MRX_HEAD_HEAD
  reads : Reachable d mJtpRings kindRead a 8
  record : ∃ b, found d a 8 = some b ∧ buf = leAt b 0 5
  buffer : Reachable d mJtpRings kindWrite buf len
  writes : Reachable d mJtpRings kindWrite (a + 8) 8

/-- The registers that make it so. -/
abbrev mrxReadyRegs : List Nat :=
  [R.MRX_WMARK, R.MRX_HEAD, R.MRX_TAIL, R.MRX_BASE_LO, R.MRX_BASE_HI] ++ reachRegs mJtpRings

theorem MrxReady.of_received {n : Nat} {l : List Nat} {d e : Dev} {a buf len : Nat} (h : MrxReady d a buf len) (hr : Received n l d e)
    (hl : ∀ x ∈ mrxReadyRegs, x ∉ l) : MrxReady e a buf len := by
  have hreach {kind b k : Nat} (h : Reachable d mJtpRings kind b k) : Reachable e mJtpRings kind b k :=
    h.of_kept hr.regs (fun x hx => hl x (List.mem_append_right _ hx)) (by decide) (by decide) hr.l2Ram hr.regions hr.heldSteps
  have hget {g : RegField} (hg : g.addr ∈ mrxReadyRegs) : e.get g = d.get g := hr.regs.get_eq (hl _ hg)
  have hsame : SameBytes d e := ⟨hr.dram, hr.l2, hr.ue, hr.remap⟩
  obtain ⟨hspace, hfree, haddress, hreads, ⟨b, hb, hbuf⟩, hbuffer, hwrites⟩ := h
  refine ⟨?_, ?_, ?_, hreach hreads, ⟨b, (hsame.found a 8).trans hb, hbuf⟩, hreach hbuffer, hreach hwrites⟩
  · rw [hr.ring, hget (g := F.MRX_WMARK_WMARK) (by simp)]
    exact hspace
  · rw [hget (g := F.MRX_HEAD_HEAD) (by simp), hget (g := F.MRX_TAIL_TAIL) (by simp)]
    exact hfree
  · unfold Dev.get2 at haddress ⊢
    rw [hget (g := F.MRX_BASE_LO_BASE) (by simp), hget (g := F.MRX_BASE_HI_BASE) (by simp), hget (g := F.MRX_HEAD_HEAD) (by simp)]
    exact haddress

/-- The record of a message in the ring: length, TYPE, session, SEQ (R137). -/
def mrxRecord (t n seq len : Nat) : List Byte := leBytes 2 len ++ leBytes 1 t ++ leBytes 1 n ++ leBytes 4 seq

/-- `e` is `d` with message `raw` of the session in the ring's buffer `buf`, and its record behind `a`. -/
structure MrxPlaced (a buf : Nat) (raw record : List Byte) (d e : Dev) : Prop where
  talked : Talked memRegs d e
  jtp : e.jtp = d.jtp
  path : e.path = d.path
  message : ∀ i, i < raw.length → memByte e (buf + i) = raw.getD i 0
  entry : ∀ i, i < record.length → memByte e (a + 8 + i) = record.getD i 0
  outside : ∀ x, x < buf ∨ buf + raw.length ≤ x → x < a + 8 ∨ a + 8 + record.length ≤ x → memByte e x = memByte d x

theorem afterWrite_now {m : Nat} {x : AfterWrite} {f : Dev → Dev} {d : Dev} (hcleat : cleated d m = false) (hsteps : stepsHeld d m = false) :
    afterWrite m x f d = f d := by
  unfold afterWrite
  rw [hcleat, hsteps, if_neg Bool.false_ne_true, if_neg Bool.false_ne_true]

theorem mgmtPlace_read {d : Dev} {a buf t n seq : Nat} {raw b : List Byte} (hspace : d.jtp.mrxHeld < d.get F.MRX_WMARK_WMARK)
    (hfree : d.get F.MRX_HEAD_HEAD ≠ d.get F.MRX_TAIL_TAIL) (hcleat : cleated d mJtpRings = false)
    (haddress : a = d.get2 F.MRX_BASE_LO_BASE F.MRX_BASE_HI_BASE + 16 * d.get F.MRX_HEAD_HEAD)
    (hread : (engineRead mJtpRings a 8 d).1 = some b) (hbuf : buf = leAt b 0 5)
    (hstill : cleated (engineWrite mJtpRings (a + 8) (mrxRecord t n seq raw.length)
      (engineWrite mJtpRings buf raw (engineRead mJtpRings a 8 d).2)) mJtpRings = false)
    (hsteps : stepsHeld (engineWrite mJtpRings (a + 8) (mrxRecord t n seq raw.length)
      (engineWrite mJtpRings buf raw (engineRead mJtpRings a 8 d).2)) mJtpRings = false) :
    mgmtPlace t n seq raw d = mrxWrote t (engineWrite mJtpRings (a + 8) (mrxRecord t n seq raw.length)
      (engineWrite mJtpRings buf raw (engineRead mJtpRings a 8 d).2)) := by
  have hgo : ¬(d.get F.MRX_WMARK_WMARK ≤ d.jtp.mrxHeld ∨ d.get F.MRX_HEAD_HEAD = d.get F.MRX_TAIL_TAIL ∨ cleated d mJtpRings = true) := by
    rw [hcleat]
    simp only [not_or]
    exact ⟨by omega, hfree, Bool.false_ne_true⟩
  subst haddress hbuf
  unfold mgmtPlace
  extract_lets h drop a r
  have hr : r.1 = some b := hread
  rw [if_neg hgo, hr]
  exact afterWrite_now hstill hsteps

/-- A message for which there is room is placed in the ring. -/
theorem mgmtPlace_placed {d : Dev} {a buf t n seq : Nat} {raw : List Byte} (h : MrxReady d a buf raw.length)
    (hrate : (d.getB F.DRAMC_FCHG_BUSY && !d.getB F.DRAMC_STAT_SELFREF) = false) (happart : buf + raw.length ≤ a + 8 ∨ a + 16 ≤ buf) :
    ∃ e, MrxPlaced a buf raw (mrxRecord t n seq raw.length) d e ∧ mgmtPlace t n seq raw d = mrxWrote t e := by
  have hm : mJtpRings ∈ [mJtpBulk, mJtpRemote, mJtpRings] := by decide
  obtain ⟨hspace, hfree, haddress, hreads, ⟨b, hb, hbuf⟩, hbuffer, hwrites⟩ := h
  have hread : (engineRead mJtpRings a 8 d).1 = some b := (engineRead_found (by decide) hreads).trans hb
  have t1 := engineRead_touch (by decide) hreads hrate
  have hlen : (mrxRecord t n seq raw.length).length = 8 := by simp [mrxRecord]
  have p2 := engineWrite_put hm (t1.reachable (by decide) hbuffer) (t1.rate hrate)
  have hwrites2 := p2.reachable hm (t1.reachable (by decide) hwrites)
  have p3 := engineWrite_put (bs := mrxRecord t n seq raw.length) hm (hlen.symm ▸ hwrites2) (p2.rate (t1.rate hrate))
  have hstill := p3.reachable hm hwrites2
  have hgo := mgmtPlace_read (t := t) (n := n) (seq := seq) hspace hfree hreads.1 haddress hread hbuf hstill.1 hstill.2.1
  refine ⟨_, ⟨(Talked.of_touch t1).trans (p2.talked.trans p3.talked), ?_, ?_, fun i hi => ?_, p3.inside, fun x hx hx' => ?_⟩, hgo⟩
  · rw [p3.jtp, p2.jtp]
    obtain ⟨⟨_, _, _, _, _, _, _, ht⟩, -⟩ := t1
    rw [ht]
  · rw [p3.path, p2.path, t1.path]
  · rw [p3.outside _ (by omega), p2.inside i hi]
  · rw [p3.outside x hx', p2.outside x hx, memByte_congr t1.dram t1.l2]

/-! ### The ring moves on -/

/-- The registers that a record put into the ring changes. -/
abbrev mrxRegs : List Nat := R.MRX_HEAD :: ringedRegs

/-- The ring with one record more. -/
def mrxMoved (d : Dev) : Dev :=
  { d.put F.MRX_HEAD_HEAD ((d.get F.MRX_HEAD_HEAD + 1) % max 1 (d.get F.MRX_SIZE_SIZE)) with
    jtp := { d.jtp with mrxHeld := d.jtp.mrxHeld + 1 } }

theorem mrxWrote_eq (d : Dev) : mrxWrote tDoorbell d = (mrxMoved d).ring 26 := rfl

theorem mrxMoved_kept (d : Dev) : Kept [R.MRX_HEAD] d (mrxMoved d) :=
  ((Kept.refl [R.MRX_HEAD] d).put (g := F.MRX_HEAD_HEAD) _ (by simp)).trans (.of_regs rfl)

theorem mrxWrote_frame (d : Dev) : ∃ r, mrxWrote tDoorbell d = { d with regs := r, jtp := { d.jtp with mrxHeld := d.jtp.mrxHeld + 1 } } := by
  obtain ⟨r, hr⟩ := ring_frame 26 (mrxMoved d)
  exact ⟨r, hr⟩

theorem mrxWrote_kept (d : Dev) : Kept mrxRegs d (mrxWrote tDoorbell d) := by
  rw [mrxWrote_eq]
  exact ((mrxMoved_kept d).mono (by simp)).ring (by decide) (by simp)

theorem mrxWrote_pending (d : Dev) : (mrxWrote tDoorbell d).sharedPending 26 = true := ring_pending (by decide) _

theorem mrxWrote_head {d : Dev} (h : d.get F.MRX_SIZE_SIZE ≠ 0) :
    (mrxWrote tDoorbell d).get F.MRX_HEAD_HEAD = (d.get F.MRX_HEAD_HEAD + 1) % d.get F.MRX_SIZE_SIZE := by
  have hsize := Dev.get_lt d F.MRX_SIZE_SIZE
  have hlt := Nat.mod_lt (d.get F.MRX_HEAD_HEAD + 1) (Nat.pos_of_ne_zero h)
  have hring {e : Dev} : (e.ring 26).get F.MRX_HEAD_HEAD = e.get F.MRX_HEAD_HEAD :=
    ((Kept.refl ringedRegs e).ring (by decide) (List.Subset.refl _)).get_eq (by decide)
  have hmax : max 1 (d.get F.MRX_SIZE_SIZE) = d.get F.MRX_SIZE_SIZE := by omega
  refine hring.trans ?_
  rw [hmax]
  refine (Dev.get_put_same d F.MRX_HEAD_HEAD _ (by decide)).trans ?_
  exact Nat.mod_eq_of_lt (hlt.trans hsize)

theorem mrxWrote_talked (d : Dev) : Talked mrxRegs d (mrxWrote tDoorbell d) := by
  have hk := mrxWrote_kept d
  obtain ⟨r, hr⟩ := mrxWrote_frame d
  rw [hr] at hk ⊢
  exact ⟨hk, fun _ => rfl, rfl, rfl, rfl⟩

/-! ### The message -/

theorem jtpHeader_length (type flags sess len seq job epoch key : Nat) : (jtpHeader type flags sess len seq job epoch key).length = 24 := by
  simp [jtpHeader]

/-- A message whole: 24 bytes of header, the payload, the CRC (R107). -/
theorem jtpBytes_plain (t flags n seq job epoch dir : Nat) (p : List Byte) : (jtpBytes t flags n seq job epoch dir none p).length = 28 + p.length
    ∧ ∀ i, i < p.length → (jtpBytes t flags n seq job epoch dir none p).getD (24 + i) 0 = p.getD i 0 := by
  unfold jtpBytes
  refine ⟨by simp only [List.length_append, jtpHeader_length, beBytes_length]; omega, fun i hi => ?_⟩
  rw [List.getD_append _ _ _ _ (by rw [List.length_append, jtpHeader_length]; omega),
    List.getD_append_right _ _ _ _ (by rw [jtpHeader_length]; omega), jtpHeader_length, Nat.add_sub_cancel_left]

/-- The bytes of the record. -/
theorem mrxRecord_bytes (t n seq len : Nat) : (mrxRecord t n seq len).length = 8 ∧ (mrxRecord t n seq len).getD 0 0 = BitVec.ofNat 8 len
    ∧ (mrxRecord t n seq len).getD 1 0 = BitVec.ofNat 8 (len / 256) ∧ (mrxRecord t n seq len).getD 2 0 = BitVec.ofNat 8 t
    ∧ (mrxRecord t n seq len).getD 3 0 = BitVec.ofNat 8 n
    ∧ ∀ i, i < 4 → (mrxRecord t n seq len).getD (4 + i) 0 = BitVec.ofNat 8 (seq / 256 ^ i) := by
  refine ⟨by simp [mrxRecord], rfl, rfl, rfl, rfl, fun i hi => ?_⟩
  interval_cases i
  · simp [mrxRecord, leBytes]
  · simp [mrxRecord, leBytes]
  · simp [mrxRecord, leBytes, Nat.div_div_eq_div_mul]
  · simp [mrxRecord, leBytes, Nat.div_div_eq_div_mul]

/-- A DOORBELL, the next message of a calm session, goes into the ring. -/
theorem jtpMessage_doorbell {q seq job epoch a buf : Nat} {p : List Byte} {d : Dev} {n : Fin 16} (h : CalmOpen d n) (hup : ethUp d q = true)
    (hseq : seq = d.get (F.RX_CUM_CUM n)) (hlen : p.length = 8) (hfirst : beAt p 4 2 ≤ 15) (hring : MrxReady d a buf 36)
    (hrate : (d.getB F.DRAMC_FCHG_BUSY && !d.getB F.DRAMC_STAT_SELFREF) = false) (happart : buf + 36 ≤ a + 8 ∨ a + 16 ≤ buf) :
    ∃ e f raw, Due n seq job d e ∧ raw.length = 36 ∧ (∀ i, i < 8 → raw.getD (24 + i) 0 = p.getD i 0)
      ∧ MrxPlaced a buf raw (mrxRecord tDoorbell n seq 36) e f ∧ Fed n (mrxWrote tDoorbell f) (jtpMessage q tDoorbell n seq job epoch p d) := by
  have hmod : seq % 2 ^ 32 = seq := Nat.mod_eq_of_lt (hseq ▸ Dev.get_lt _ (F.RX_CUM_CUM n))
  have hregs : ∀ n : Fin 16, (∀ x ∈ mrxReadyRegs, x ∉ jtpRegs n) ∧ R.DRAMC_FCHG ∉ jtpRegs n ∧ R.DRAMC_STAT ∉ jtpRegs n
      ∧ R.SESS_CFG n ∉ jtpRegs n ++ (memRegs ++ mrxRegs) := by decide
  obtain ⟨hready, hfchg, hstat, hcfg⟩ := hregs n
  obtain ⟨e, hdue, hgo⟩ := jtpMessage_performed (q := q) (t := tDoorbell) (job := job) (epoch := epoch) (p := p) h hup (by omega)
    ⟨rfl, rfl, rfl, by decide, by decide⟩ hseq (fun e _ => if_pos ⟨hlen, hfirst⟩) (fun e => rfl)
  generalize hm : plainMsg q tDoorbell n seq job epoch p = m at hgo
  obtain ⟨hrawlen, hpayload⟩ := jtpBytes_plain tDoorbell 0 n seq job epoch 0 p
  have hmraw : m.raw = jtpBytes tDoorbell 0 n seq job epoch 0 none p := by
    rw [← hm]
    simp only [plainMsg, hmod]
    rfl
  have hperform (x : Dev) : performPassed m x = mgmtPlace tDoorbell n seq m.raw x := by
    rw [← hm]
    simp only [performPassed, plainMsg, tDoorbell, hmod]
  have hraw : m.raw.length = 36 := by rw [hmraw, hrawlen, hlen]
  rw [← hmraw, hlen] at hpayload
  have hrate' : (e.getB F.DRAMC_FCHG_BUSY && !e.getB F.DRAMC_STAT_SELFREF) = false := by
    rw [hdue.received.regs.getB_eq (g := F.DRAMC_FCHG_BUSY) hfchg, hdue.received.regs.getB_eq (g := F.DRAMC_STAT_SELFREF) hstat, hrate]
  obtain ⟨f, hf, hplace⟩ := mgmtPlace_placed (t := tDoorbell) (n := n) (seq := seq) (hraw.symm ▸ hring.of_received hdue.received hready) hrate'
    (hraw.symm ▸ happart)
  rw [hperform, hplace] at hgo
  rw [hraw] at hf
  have hauth : (mrxWrote tDoorbell f).get (F.SESS_CFG_AUTH_REQ n) = 0 := by
    have hk := (hdue.received.regs.mono (l' := jtpRegs n ++ (memRegs ++ mrxRegs)) (by simp)).trans
      ((hf.talked.regs.mono (by simp)).trans ((mrxWrote_kept f).mono (by simp)))
    exact (hk.get_eq hcfg).trans h.plain.auth
  have hdone : ((mrxWrote tDoorbell f).sess n).todo = [] := by
    rw [(mrxWrote_talked f).todo, hf.talked.todo, hdue.todo]
  exact ⟨e, f, m.raw, hdue, hraw, hpayload, hf, hgo hdone ▸ credited_fed hauth⟩

theorem reachable_of_reach {s : State} {dt m kind a n : Nat} (h : Reach s m kind a n) : Reachable (s.dev.elapse dt) m kind a n := h

/-- The clause of O16 about DOORBELL. -/
theorem execDoorbell_places {dt a buf : Nat} {q : Fin 2} {n : Fin 16} {seq job epoch : Word} {p : List Byte} {s : State} (hready : Ready s)
    (hcalm : CalmSession s n) (hup : ethUp s.dev q = true) (hseq : seq.toNat = s.dev.get (F.RX_CUM_CUM n)) (hlen : p.length = 8)
    (hfirst : beAt p 4 2 ≤ 15) (hring : MrxReady (s.dev.elapse dt) a buf 36) (hsize : s.dev.get F.MRX_SIZE_SIZE ≠ 0)
    (happart : buf + 36 ≤ a + 8 ∨ a + 16 ≤ buf) :
    ∃ t, execDoorbell dt q n seq job epoch p s = .next t
      ∧ (∀ i, i < 8 → t.byte (buf + 24 + i) = p.getD i 0)
      ∧ (∀ i, i < 8 → t.byte (a + 8 + i) = (mrxRecord tDoorbell n seq.toNat 36).getD i 0)
      ∧ t.dev.get F.MRX_HEAD_HEAD = (s.dev.get F.MRX_HEAD_HEAD + 1) % s.dev.get F.MRX_SIZE_SIZE
      ∧ t.dev.jtp.mrxHeld = s.dev.jtp.mrxHeld + 1 ∧ t.dev.sharedPending 26 = true
      ∧ t.dev.get (F.RX_CUM_CUM n) = (seq.toNat + 1) % 2 ^ 32 ∧ t.dev.get (F.JOB_JOB n) = job.toNat
      ∧ RegsKept (mrxRegs ++ jtpRegs n ++ memRegs) s t
      ∧ (∀ x, (x < buf ∨ buf + 36 ≤ x) → (x < a + 8 ∨ a + 16 ≤ x) → t.byte x = s.byte x) := by
  have hapart : ∀ n : Fin 16, (∀ x ∈ endRegs, x ∉ mrxRegs ++ jtpRegs n ++ memRegs) ∧ R.MRX_HEAD ∉ memRegs
      ∧ (∀ x ∈ [R.RX_CUM n, R.JOB n], x ∉ mrxRegs ++ memRegs) ∧ (∀ x ∈ [R.MRX_HEAD, R.MRX_SIZE], x ∉ jtpRegs n ++ memRegs) := by decide
  obtain ⟨hend, hmrx, hsess, hhead⟩ := hapart n
  have hopen := CalmOpen.of_calm hcalm dt
  obtain ⟨e, f, raw, hdue, hraw, hpayload, hf, hfed⟩ := jtpMessage_doorbell (job := job.toNat) (epoch := epoch.toNat) hopen hup hseq hlen
    hfirst hring (Quiet.of_ready hready dt).rate happart
  generalize hg : jtpMessage q tDoorbell n seq.toNat job.toNat epoch.toNat p (s.dev.elapse dt) = g at hfed
  obtain ⟨htodo, -, -⟩ := hfed.keeps
  have hmoved := mrxWrote_talked f
  have hjtp : jtpRegs n ⊆ mrxRegs ++ jtpRegs n ++ memRegs := fun x hx => List.mem_append_left _ (List.mem_append_right _ hx)
  have hmem : memRegs ⊆ mrxRegs ++ jtpRegs n ++ memRegs := List.subset_append_right ..
  have hring : mrxRegs ⊆ mrxRegs ++ jtpRegs n ++ memRegs := fun x hx => List.mem_append_left _ (List.mem_append_left _ hx)
  have htalk : Talked (mrxRegs ++ jtpRegs n ++ memRegs) (s.dev.elapse dt) g :=
    ((hdue.received.talked (hdue.todo.trans hopen.clear.todo.symm)).mono hjtp).trans ((hf.talked.mono hmem).trans
      ((hmoved.mono hring).trans ((hfed.received.talked htodo).mono (by simp))))
  obtain ⟨htouch, hdo⟩ := perform_talked (dt := dt) (f := jtpMessage q tDoorbell n seq.toNat job.toNat epoch.toNat p) hready hg htalk hend
  generalize ht : dramRun g = t at htouch hdo
  obtain ⟨r, hframe⟩ := mrxWrote_frame f
  have hbyte (x : Nat) : memByte t x = memByte f x := by
    rw [memByte_congr htouch.dram htouch.l2, memByte_congr hfed.received.dram hfed.received.l2, hframe]
    rfl
  have hfrom {x : RegField} (hx : x.addr ∉ memRegs) : t.get x = (mrxWrote tDoorbell f).get x :=
    (htouch.regs.get_eq hx).trans (hfed.received.regs.get_eq (by simp))
  have hback {x : RegField} (hx : x.addr ∉ mrxRegs ++ memRegs) : t.get x = e.get x := by
    rw [List.mem_append, not_or] at hx
    exact (hfrom hx.2).trans ((hmoved.regs.get_eq hx.1).trans (hf.talked.regs.get_eq hx.2))
  have hold {x : RegField} (hx : x.addr ∉ jtpRegs n ++ memRegs) : f.get x = s.dev.get x := by
    rw [List.mem_append, not_or] at hx
    exact (hf.talked.regs.get_eq hx.2).trans (hdue.received.regs.get_eq hx.1)
  refine ⟨_, hdo, fun i hi => ?_, fun i hi => ?_, ?_, ?_, ?_, ?_, ?_, ?_, fun x hx hx' => ?_⟩
  · rw [Nat.add_assoc]
    exact (hbyte _).trans ((hf.message _ (by omega)).trans (hpayload i hi))
  · exact (hbyte _).trans (hf.entry i hi)
  · have hnext := mrxWrote_head (d := f) (by rw [hold (x := F.MRX_SIZE_SIZE) (hhead _ (by simp))]; exact hsize)
    rw [hold (x := F.MRX_SIZE_SIZE) (hhead _ (by simp)), hold (x := F.MRX_HEAD_HEAD) (hhead _ (by simp))] at hnext
    exact (hfrom hmrx).trans hnext
  · have htj : t.jtp = g.jtp := by obtain ⟨⟨_, _, _, _, _, _, _, ht⟩, -⟩ := htouch; rw [ht]
    have hmj : (mrxWrote tDoorbell f).jtp.mrxHeld = f.jtp.mrxHeld + 1 := by rw [hframe]
    exact (congrArg JtpSt.mrxHeld htj).trans (hfed.received.ring.trans (hmj.trans (by rw [hf.jtp, hdue.received.ring]; rfl)))
  · exact (congrArg (Dev.sharedPending · 26) ht.symm).trans ((dramRun_other (by decide) (by decide) g).trans ((sharedPending_of_reg (hfed.received.regs.reg_eq (by simp))).trans
      (mrxWrote_pending f)))
  · exact (hback (hsess _ (by simp))).trans hdue.cum
  · exact (hback (hsess _ (by simp))).trans (hdue.job.trans (Nat.mod_eq_of_lt job.isLt))
  · exact htalk.regs.trans (htouch.regs.mono hmem)
  · refine (hbyte x).trans ((hf.outside x (by rw [hraw]; exact hx) ?_).trans (memByte_congr hdue.received.dram hdue.received.l2 x))
    rw [(mrxRecord_bytes ..).1]
    omega

end Sys2Proof.Machine
end

section
/-! SUPPORT. O16: commits and doorbells by message. -/
namespace Sys2Proof.Machine

/-- Settles O16: an EPOCH_COMMIT arms its page and is answered, a DOORBELL reaches the management ring. -/
theorem commitAndDoorbellMessages : Obligations.CommitAndDoorbellMessages := by
  unfold Obligations.CommitAndDoorbellMessages
  intro dt q n seq job epoch p s hready hcalm hup hlen hseq
  refine ⟨fun g hpages hp hlisted hshadow hg hepoch hactive hqueue hroom hfits => ?_,
    fun a buf len b hp hfirst hspace hfree hsize ha hl hreads hfound hbuf hbuffer hwrites happart => ?_⟩
  · subst hepoch
    exact execEpochCommit_arms hready hcalm hup hseq hpages hp hlisted hshadow hg hactive
      ((CalmOpen.of_calm hcalm dt).mayAnswer hqueue hroom hfits)
  · subst hl
    have hread := reachable_of_reach (dt := dt) hreads
    have hring : MrxReady (s.dev.elapse dt) a buf 36 := ⟨hspace, hfree, ha, hread,
      ⟨b, (engineRead_found (by decide) hread).symm.trans hfound, hbuf⟩, reachable_of_reach hbuffer, reachable_of_reach hwrites⟩
    obtain ⟨t, hdo, hpayload, hentry, hrest⟩ := execDoorbell_places (job := job) (epoch := epoch) hready hcalm hup hseq hp hfirst hring hsize happart
    obtain ⟨-, h0, h1, h2, h3, h4⟩ := mrxRecord_bytes tDoorbell n seq.toNat 36
    refine ⟨t, hdo, hpayload, (hentry 0 (by omega)).trans h0, (hentry 1 (by omega)).trans h1, (hentry 2 (by omega)).trans h2,
      (hentry 3 (by omega)).trans h3, fun i hi => ?_, hrest⟩
    have hb := hentry (4 + i) (by omega)
    rw [h4 i hi] at hb
    rwa [← Nat.add_assoc] at hb

end Sys2Proof.Machine
end

section
/-! SUPPORT. Bulk messages (R113, R116): the next message of a calm session is written as it comes in, CUM passes it, and what CUM has
passed is performed. -/
namespace Sys2Proof.Machine

/-! ### Its writes -/

/-- The writes of a bulk message, one after the other. -/
def writesDone (ws : List (Nat × (Dev → Dev))) (d : Dev) : Dev := ws.foldl (fun e w => w.2 (shadowNote e)) d

/-- Writes that Shroud permits, and that no cleat and no change of rate holds, are all made. -/
theorem runWrites_permitted {I : Dev → Prop} {ws : List (Nat × (Dev → Dev))} {d : Dev} (n : Nat) (hd : I d)
    (h : ∀ w ∈ ws, ∀ e, I e → bulkBlocked e = false ∧ (shroudCheck e mJtpBulk kindWrite w.1 false).1 = true ∧ I (w.2 (shadowNote e))) :
    runWrites ws n d = (n + ws.length, writesDone ws d) ∧ I (writesDone ws d) := by
  induction ws generalizing n d with
  | nil => exact ⟨rfl, hd⟩
  | cons w ws ih =>
    obtain ⟨hfree, hpermit, hnext⟩ := h w List.mem_cons_self d hd
    obtain ⟨hrun, hkept⟩ := ih (n + 1) hnext fun w hw => h w (List.mem_cons_of_mem _ hw)
    refine ⟨?_, hkept⟩
    unfold runWrites
    simp only [hfree, hpermit, Bool.false_eq_true, if_false, if_true]
    rw [hrun, List.length_cons]
    simp only [Prod.mk.injEq]
    exact ⟨by omega, rfl⟩

/-- The block with the bulk message of session `n` that was held performed. -/
def heldDone (n : Nat) (d : Dev) : Dev := d.setSess n { d.sess n with held := [] }

theorem heldRun_writes {n : Nat} {m : JtpMsg} {d x : Dev} (hheld : (d.sess n).held = [⟨m, 0⟩]) (hen : d.enabled 0x0D = true)
    (hrun : runWrites (bulkWrites d m) 0 d = ((bulkWrites d m).length, x)) : heldRun todoFuel n d = heldDone n x := by
  have hdone : ((heldDone n x).sess n).held = [] := by
    unfold heldDone
    rw [Dev.sess_setSess_same]
  unfold todoFuel heldRun
  rw [hheld]
  simp only [hen, List.drop_zero, Bool.not_true, Bool.false_and, Bool.false_eq_true, if_false, hrun, Nat.lt_irrefl]
  exact heldRun_none hdone _

/-- `e` is `d` after writes of a bulk message: registers of `l` apart, what JTP reads is the same. -/
structure BulkMade (l : List Nat) (d e : Dev) : Prop where
  talked : Talked l d e
  jtp : e.jtp = d.jtp

/-- The registers that the course of a bulk message of session `n` reads after its writes. -/
abbrev bulkRegs (n : Nat) : List Nat := [R.PG_CTL 0x0D, R.RX_CUM n, R.SESS_CFG n, R.JOB n]

/-- A session whose bulk message `m` has been written is past it: `e` is `d` with what is left to perform of the message next. -/
structure BulkPassed (n seq : Nat) (d e : Dev) : Prop where
  received : Received n (jtpRegs n) d e
  cum : e.get (F.RX_CUM_CUM n) = (seq + 1) % 2 ^ 32
  job : e.get (F.JOB_JOB n) = d.get (F.JOB_JOB n)
  auth : e.get (F.SESS_CFG_AUTH_REQ n) = 0
  todo : (e.sess n).todo = []

/-- `e` is `d` with the next message of calm session `n` taken in: its writes come next. -/
structure BulkTaken (n job : Nat) (d e : Dev) : Prop where
  received : Received n (jtpRegs n) d e
  job : e.get (F.JOB_JOB n) = job % 2 ^ 32
  todo : (e.sess n).todo = []

theorem plainMsg_raw (q t n seq job epoch : Nat) (p : List Byte) : (plainMsg q t n seq job epoch p).raw.length = 28 + p.length :=
  (jtpBytes_plain t (b2n (isFeedback t) * 2) n (seq % 2 ^ 32) job epoch (if t = tPosition then 1 else 0) p).1

/-- The next message of a calm session, a bulk message sound in its content on the active port and within the credit: it is written,
passed and performed. -/
theorem jtpMessage_bulk {q t seq job epoch : Nat} {p : List Byte} {d : Dev} {n : Fin 16} {l : List Nat} (h : CalmOpen d n)
    (hup : ethUp d q = true) (hlen : p.length ≤ 9216) (ht : isBulk t = true ∧ isFeedback t = false ∧ t ≠ tPosition)
    (hseq : seq = d.get (F.RX_CUM_CUM n)) (hport : activePort d = q)
    (hcredit : ceilDiv (28 + p.length) 4096 ≤ d.get (F.SESS_CFG_CREDIT_MAX n)) (hl : ∀ a ∈ bulkRegs n, a ∉ l)
    (hcheck : ∀ e, PathNoted noticeRegs d e → contentCheck e (plainMsg q t n seq job epoch p) = 0)
    (hwrites : ∀ e, BulkTaken n job d e → BulkMade l e (writesDone (bulkWrites e (plainMsg q t n seq job epoch p)) e)
      ∧ runWrites (bulkWrites e (plainMsg q t n seq job epoch p)) 0 e
        = ((bulkWrites e (plainMsg q t n seq job epoch p)).length, writesDone (bulkWrites e (plainMsg q t n seq job epoch p)) e)) :
    ∃ e f, BulkTaken n job d e ∧ BulkPassed n seq (writesDone (bulkWrites e (plainMsg q t n seq job epoch p)) e) f
      ∧ (((performPassed (plainMsg q t n seq job epoch p) f).sess n).todo = [] →
        jtpMessage q t n seq job epoch p d = credited n (performPassed (plainMsg q t n seq job epoch p) f)) := by
  obtain ⟨hbulk, hfb, hpos⟩ := ht
  have hmod : seq % 2 ^ 32 = seq := Nat.mod_eq_of_lt (hseq ▸ Dev.get_lt _ (F.RX_CUM_CUM n))
  have hapart : ∀ n : Fin 16, R.RX_CUM n ∉ noticeRegs ∧ R.RX_CUM n ∉ [R.JOB n] ∧ R.SESS_CFG n ∉ [R.JOB n] ∧ R.JOB n ∉ [R.RX_CUM n]
      ∧ R.PG_CTL 0x0D ∉ [R.JOB n] ∧ R.SESS_CFG n ∉ noticeRegs ∧ R.SESS_CFG n ∉ [R.RX_CUM n] := by decide
  obtain ⟨hn1, hn2, hn3, hn4, hn5, hn6, hn7⟩ := hapart n
  rw [jtpMessage_calm h hup hlen hpos, hfb]
  generalize hm : plainMsg q t n seq job epoch p = m at *
  have hs : m.session = n := by rw [← hm]; rfl
  have hms : m.seq = seq := by rw [← hm]; exact hmod
  have hmt : m.type = t := by rw [← hm]; rfl
  have hmp : m.port = q := by rw [← hm]; rfl
  have hmj : m.job = job % 2 ^ 32 := by rw [← hm]; rfl
  have hraw : m.raw.length = 28 + p.length := by rw [← hm]; exact plainMsg_raw ..
  have hnoted : PathNoted noticeRegs d (noticedAt q m d) := ((drillHeard_noted q d).mono (by simp)).trans (noticed_noted m _)
  have hcalm := h.of_noted (hnoted.mono (noticeRegs_sub n))
  have hsound := hcheck _ hnoted
  have hcum : (noticedAt q m d).get (F.RX_CUM_CUM n) = seq := (hnoted.regs.get_eq hn1).trans hseq.symm
  have hflow : isBulk m.type = true → m.port = activePort (noticedAt q m d)
      ∧ heldCost ((noticedAt q m d).sess m.session) + ceilDiv m.raw.length 4096
        ≤ (noticedAt q m d).get (F.SESS_CFG_CREDIT_MAX m.session) := by
    intro _
    refine ⟨hmp.trans (hport.symm.trans hnoted.active.symm), ?_⟩
    rw [hs, hraw, hnoted.regs.get_eq (g := F.SESS_CFG_CREDIT_MAX n) hn6]
    unfold heldCost
    rw [hcalm.clear.held, List.foldl_nil, Nat.zero_add]
    exact hcredit
  generalize hd1 : noticedAt q m d = d1 at *
  obtain ⟨htaken, hjob, hsess⟩ := taken_received m d1
  rw [hs] at htaken hjob hsess
  have hx : sessTaken m (d1.sess n) = { d1.sess n with waiting := [m], held := [⟨m, 0⟩] } := by
    unfold sessTaken
    simp only [hmt, hbulk, if_true, hcalm.clear.waiting, hcalm.clear.held, List.nil_append]
  rw [hx] at hsess
  have hin : BulkTaken n job d (taken m d1) :=
    ⟨(Received.of_noted (hnoted.mono (noticeRegs_sub n))).trans (htaken.mono (by simp [jtpRegs])),
      hjob.trans (by rw [hmj, Nat.mod_mod]), by rw [hsess]; exact hcalm.clear.todo⟩
  obtain ⟨hmade, hrun⟩ := hwrites _ hin
  generalize hx2 : writesDone (bulkWrites (taken m d1) m) (taken m d1) = x at hmade hrun
  have hen : (taken m d1).enabled 0x0D = true := Dev.getB_of_get_one ((htaken.regs.get_eq hn5).trans hcalm.plain.enabled)
  have hheld := heldRun_writes (n := n) (by rw [hsess]) hen hrun
  have hxs : (heldDone n x).sess n = { d1.sess n with waiting := [m], held := [] } := by
    unfold heldDone
    rw [Dev.sess_setSess_same]
    have : x.sess n = (taken m d1).sess n := by unfold Dev.sess; rw [hmade.jtp]
    rw [this, hsess]
  have hxr {g : RegField} (hg : g.addr ∉ l) (hg' : g.addr ∉ [R.JOB n]) : (heldDone n x).get g = d1.get g :=
    (hmade.talked.regs.get_eq hg).trans (htaken.regs.get_eq hg')
  obtain ⟨f, hf, hgo⟩ := dataAccept_passed (m := m) (d := d1) (e := heldDone n x)
    (by rw [hs]; exact (hxr (hl _ (by simp)) hn3).trans hcalm.plain.auth) hsound (by rw [hs]; exact hheld) (by rw [hs, hxs])
    (by rw [hs, hxs]; exact hcalm.clear.todo) (by rw [hs, hxs]; exact hcalm.clear.got)
    (by rw [hs, hms]; exact ((hxr (hl _ (by simp)) hn2).trans hcum).symm)
  obtain ⟨hr, hc, htodo, hheld', -⟩ := hf
  rw [hs] at hr hc htodo hheld' hgo
  rw [hxs] at hheld'
  have hwait : mustWait f m = false := by
    have htype : t ≠ tRegRead ∧ t ≠ tRegWrite ∧ t ≠ tEpochCommit := by
      refine ⟨?_, ?_, ?_⟩
      all_goals rintro rfl; exact absurd hbulk (by decide)
    unfold mustWait
    rw [hs, hheld', hmt]
    simp [htype]
  have hrec : Received n (jtpRegs n) x (popped n f) :=
    (((Received.refl n _ x).setSess _).trans (hr.mono (by simp [jtpRegs]))).trans ((popped_received n f).mono (by simp))
  refine ⟨taken m d1, popped n f, hin, hx2 ▸ ⟨hrec, hc.trans (by rw [hms]), ?_, ?_, by rw [popped_sess]⟩, fun hdone => ?_⟩
  · exact (hr.regs.get_eq hn4).trans rfl
  · exact (hr.regs.get_eq hn7).trans ((hxr (hl _ (by simp)) hn3).trans hcalm.plain.auth)
  · rw [if_neg (by simp), dataRx_next (by rw [hs, hms, hcum]) hflow, hgo]
    exact sessWork_performs hheld' htodo hwait hdone

end Sys2Proof.Machine
end

section
/-! SUPPORT. LAYER_SEGMENT and COPY_ORDER (R127, R128, R162, R166): their checks, their writes, and what follows CUM. -/
namespace Sys2Proof.Machine

/-! ### The checks do not read what the ports note -/

theorem layerStreams_congr {f g : RegField → Nat} {p : Nat} (h : ∀ x ∈ [F.LAYER_BG_EN p, F.LAYER_BG_STREAM p, F.LAYER_OV_VAL_STREAM p,
    F.LAYER_OV_MASK_STREAM p], f x = g x) (ovl : Bool) : layerStreams f ovl p = layerStreams g ovl p := by
  unfold layerStreams
  rw [h (F.LAYER_BG_EN p) (by simp), h (F.LAYER_BG_STREAM p) (by simp), h (F.LAYER_OV_VAL_STREAM p) (by simp),
    h (F.LAYER_OV_MASK_STREAM p) (by simp)]

/-- Plane `p` uses stream `i` (R163): a term of `streamInUse`. -/
def usesStream (d : Dev) (i p : Nat) : Bool :=
  let ovl := d.getB (F.PLAN_PLANE_A_OVL p) || d.getB (shadowOf (F.PLAN_PLANE_A_OVL p))
  (layerStreams d.get ovl p).contains i ||
  (isArmed d 0x0F && (layerStreams (fun f => d.get (shadowOf f)) ovl p).contains i) ||
  (d.planActive &&
    (let o := ordOfLine d p (d.plane p).next
     let old := (d.versions.find? (fun v => decide (v.ord ≤ o))).toList
     let vs := d.versions.filter (fun v => decide (o < v.ord)) ++ old
     vs.any (fun v => (layerStreams (cfgGet v.cfg) (ovl || cfgGetB v.cfg (F.PLAN_PLANE_A_OVL p)) p).contains i)))

theorem streamInUse_planes (d : Dev) (i : Nat) : streamInUse d i = (List.range 8).any (usesStream d i) := rfl

/-- The registers of plane `p` that say which streams it uses. -/
abbrev streamRegs (p : Nat) : List Nat :=
  [R.PLAN_PLANE_A p, R.PLAN_PLANE_A p + 0x800, R.LAYER_BG p, R.LAYER_OV p, R.LAYER_BG p + 0x800, R.LAYER_OV p + 0x800, R.LEV_PITCH p, R.PLAN_CHK]

theorem usesStream_noted {l : List Nat} {d e : Dev} {p : Nat} (h : PathNoted l d e) (hl : ∀ a ∈ streamRegs p, a ∉ l) (i : Nat) :
    usesStream e i p = usesStream d i p := by
  obtain ⟨hcopies, hversions, harmed, hplanes⟩ : e.copies = d.copies ∧ e.versions = d.versions ∧ e.armed = d.armed ∧ e.planes = d.planes := by
    obtain ⟨⟨_, _, rfl⟩, -⟩ := h
    exact ⟨rfl, rfl, rfl, rfl⟩
  have hget {g : RegField} (hg : g.addr ∈ streamRegs p) : e.get g = d.get g := h.regs.get_eq (hl _ hg)
  have hgetB {g : RegField} (hg : g.addr ∈ streamRegs p) : e.getB g = d.getB g := h.regs.getB_eq (hl _ hg)
  have hpitch : pitchOf e p = pitchOf d p := hget (g := F.LEV_PITCH_PITCH p) (by simp)
  have hord (n : Nat) : ordOfLine e p n = ordOfLine d p n := by
    unfold ordOfLine captured firstLine copyStart Dev.copyAt
    simp only [hcopies, hpitch]
  have hlive (ovl : Bool) : layerStreams e.get ovl p = layerStreams d.get ovl p :=
    layerStreams_congr (fun x hx => hget (by
      simp only [List.mem_cons, List.not_mem_nil, or_false] at hx
      rcases hx with rfl | rfl | rfl | rfl <;> simp)) ovl
  have hshadow (ovl : Bool) : layerStreams (fun f => e.get (shadowOf f)) ovl p = layerStreams (fun f => d.get (shadowOf f)) ovl p :=
    layerStreams_congr (fun x hx => hget (by
      simp only [List.mem_cons, List.not_mem_nil, or_false] at hx
      rcases hx with rfl | rfl | rfl | rfl <;> simp [shadowOf])) ovl
  unfold usesStream Dev.planActive isArmed Dev.plane
  simp only [hgetB (g := F.PLAN_PLANE_A_OVL p) (by simp), hgetB (g := shadowOf (F.PLAN_PLANE_A_OVL p)) (by simp [shadowOf]),
    hgetB (g := F.PLAN_CHK_ACTIVE) (by simp), hord, hlive, hshadow, hversions, harmed, hplanes]

theorem streamInUse_noted {d e : Dev} (h : PathNoted noticeRegs d e) (i : Nat) : streamInUse e i = streamInUse d i := by
  have hl : ∀ p < 8, ∀ a ∈ streamRegs p, a ∉ noticeRegs := by decide
  have hp (p : Nat) (hp : p ∈ List.range 8) : usesStream e i p = usesStream d i p :=
    usesStream_noted h (hl p (List.mem_range.mp hp)) i
  rw [streamInUse_planes, streamInUse_planes, Bool.eq_iff_iff]
  simp only [List.any_eq_true]
  exact exists_congr fun p => and_congr_right fun h => by rw [hp p h]

theorem layerCheck_noted {d e : Dev} (h : PathNoted noticeRegs d e) (wb ws addr i kind plane copy n : Nat) :
    layerCheck e wb ws addr i kind plane copy n = layerCheck d wb ws addr i kind plane copy n := by
  have hstream : e.stream i = d.stream i := by obtain ⟨⟨_, _, rfl⟩, -⟩ := h; rfl
  unfold layerCheck
  rw [hstream, streamInUse_noted h]

theorem copyOrderCheck_noted {d e : Dev} (h : PathNoted noticeRegs d e) (first count len : Nat) :
    copyOrderCheck e first count len = copyOrderCheck d first count len := by
  have hactive : e.planActive = d.planActive := h.regs.getB_eq (g := F.PLAN_CHK_ACTIVE) (by decide)
  have hslot (k : Nat) : slotBusy e k = slotBusy d k := by
    unfold slotBusy
    rw [hactive]
    obtain ⟨⟨_, _, rfl⟩, -⟩ := h
    rfl
  unfold copyOrderCheck
  simp only [hslot]

/-! ### The writes to memory -/

theorem shadowNote_put (a : Nat) (d : Dev) : MemPut a [] d (shadowNote d) := by
  unfold shadowNote
  split
  · exact .nil a d
  · exact ⟨⟨_, _, _, _, _, _, _, _, _, _, _, _, _, rfl⟩, .of_regs rfl, fun _ hi => absurd hi (Nat.not_lt_zero _), fun _ _ => rfl⟩

theorem targetWrite_noted {a : Nat} {bs : List Byte} {d : Dev} (h : Reachable d mJtpBulk kindWrite a bs.length) (hpos : 0 < bs.length)
    (hline : bs.length ≤ 64) : MemPut a bs d (targetWrite mJtpBulk a bs (shadowNote d)) := by
  have h0 := shadowNote_put a d
  exact h0.append (cs := bs) (targetWrite_put (h0.reachable (by decide) h) hpos hline)

/-- The writes of a bulk message to memory that JTP bulk may reach are all made. -/
theorem lineWrites_made {a : Nat} {bs : List Byte} {d : Dev} (h : Reachable d mJtpBulk kindWrite a bs.length)
    (hbusy : d.getB F.DRAMC_FCHG_BUSY = false) : MemPut a bs d (writesDone (lineWrites a bs) d)
      ∧ runWrites (lineWrites a bs) 0 d = ((lineWrites a bs).length, writesDone (lineWrites a bs) d) := by
  have hm : mJtpBulk ∈ [mJtpBulk, mJtpRemote, mJtpRings] := by decide
  have hput := lineParts_put (step := fun q e => targetWrite mJtpBulk q.1 q.2 (shadowNote e)) hm (fun q e => targetWrite_noted)
    (Nat.lt_succ_self _) h
  have hdone : writesDone (lineWrites a bs) d
      = (lineParts (bs.length + 1) a bs).foldl (fun e q => targetWrite mJtpBulk q.1 q.2 (shadowNote e)) d := by
    rw [lineWrites_parts, writesDone, List.foldl_map]
  have hwrites (w : Nat × (Dev → Dev)) (hw : w ∈ lineWrites a bs) (e : Dev)
      (he : Reachable e mJtpBulk kindWrite a bs.length ∧ e.getB F.DRAMC_FCHG_BUSY = false) :
      bulkBlocked e = false ∧ (shroudCheck e mJtpBulk kindWrite w.1 false).1 = true
        ∧ (Reachable (w.2 (shadowNote e)) mJtpBulk kindWrite a bs.length ∧ (w.2 (shadowNote e)).getB F.DRAMC_FCHG_BUSY = false) := by
    rw [lineWrites_parts, List.mem_map] at hw
    obtain ⟨q, hq, rfl⟩ := hw
    obtain ⟨hreach, hfree⟩ := he
    obtain ⟨hpos, hline, hlo, hhi⟩ := lineParts_within _ _ _ q hq
    have hpart : Reachable e mJtpBulk kindWrite q.1 q.2.length := hreach.sub hlo hhi
    have hnext := targetWrite_noted hpart hpos hline
    refine ⟨?_, (hpart.backed hpos).1, hnext.reachable hm hreach, (hnext.regs.getB_eq (by decide)).trans hfree⟩
    unfold bulkBlocked
    rw [hreach.1, hfree]
    rfl
  have hrun := (runWrites_permitted (I := fun e => Reachable e mJtpBulk kindWrite a bs.length ∧ e.getB F.DRAMC_FCHG_BUSY = false) 0
    ⟨h, hbusy⟩ hwrites).1
  rw [Nat.zero_add] at hrun
  exact ⟨hdone ▸ hput, hrun⟩

end Sys2Proof.Machine
end

section
/-! SUPPORT. O13: the two bulk messages that write memory. -/
namespace Sys2Proof.Machine

/-! ### The end of their command -/

/-- `e` is `d` at the end of a command whose last act was to grant credit. -/
structure Settles (n : Nat) (d e : Dev) : Prop where
  kept : Kept memRegs d e
  memory : ∀ a, memByte e a = memByte d a
  streams : e.streams = d.streams
  sess : OnlyFed (d.sess n) (e.sess n)

theorem perform_credited {dt n : Nat} {s : State} {f : Dev → Dev} {g : Dev} {l : List Nat} (hready : Ready s)
    (hf : f (s.dev.elapse dt) = credited n g) (hauth : g.get (F.SESS_CFG_AUTH_REQ n) = 0) (htalk : Talked l (s.dev.elapse dt) g)
    (hend : ∀ a ∈ endRegs, a ∉ l) (hmem : memRegs ⊆ l) :
    ∃ e, perform dt s (fun d => afterCommand (f d)) = .next (s.after e) ∧ Settles n g e ∧ RegsKept l s (s.after e) := by
  have hfed := credited_fed hauth
  have htalk' := htalk.trans ((hfed.received.talked hfed.keeps.1).mono (by simp))
  obtain ⟨htouch, hdo⟩ := perform_talked hready hf htalk' hend
  generalize dramRun (credited n g) = e at htouch hdo
  have hstreams : e.streams = (credited n g).streams := by obtain ⟨⟨_, _, _, _, _, _, _, ht⟩, -⟩ := htouch; rw [ht]
  have hsess : e.sess n = (credited n g).sess n := by unfold Dev.sess; rw [htouch.sess]
  refine ⟨e, hdo, ⟨(hfed.received.regs.mono (by simp)).trans htouch.regs, fun a => ?_, hstreams.trans hfed.received.streams,
    hsess.symm ▸ hfed.sess⟩, htalk'.regs.trans (htouch.regs.mono hmem)⟩
  rw [memByte_congr htouch.dram htouch.l2, memByte_congr hfed.received.dram hfed.received.l2]

/-! ### LAYER_SEGMENT -/

/-- `e` is `d` but for the streams' state, the paths' and registers of `l`. -/
structure StreamMoved (l : List Nat) (d e : Dev) : Prop where
  frame : ∃ r s p, e = { d with regs := r, streams := s, path := p }
  regs : Kept l d e

theorem StreamMoved.talked {l : List Nat} {d e : Dev} (h : StreamMoved l d e) : Talked l d e := by
  obtain ⟨⟨_, _, _, rfl⟩, hk⟩ := h
  exact ⟨hk, fun _ => rfl, rfl, rfl, rfl⟩

theorem StreamMoved.memory {l : List Nat} {d e : Dev} (h : StreamMoved l d e) (a : Nat) : memByte e a = memByte d a := by
  obtain ⟨⟨_, _, _, rfl⟩, -⟩ := h
  rfl

theorem stream_setStream (d : Dev) (i : Nat) (s : Stream) : (d.setStream i s).stream i = s := cellGet_cellSet_same ..

/-- A segment that starts at the mark of its stream advances it (R162). -/
theorem fillAdvance_next {d : Dev} {i a copy n : Nat} (m : JtpMsg) (h : a = streamBase (d.stream i) + (d.stream i).fill) :
    StreamMoved [] d (snapPassed m (fillAdvance i a copy n d))
      ∧ ((d.stream i).ring = false → ((snapPassed m (fillAdvance i a copy n d)).stream i).fill = (d.stream i).fill + n)
      ∧ ((snapPassed m (fillAdvance i a copy n d)).stream i).err = (d.stream i).err := by
  have hmoved : fillAdvance i a copy n d = d.setStream i { d.stream i with
      fill := if (d.stream i).ring && (d.stream i).fill + n == streamCap (d.stream i) then 0 else (d.stream i).fill + n
      held := (d.stream i).held + n, copy := copy } := by
    unfold fillAdvance
    rw [if_pos h]
  have hs (x : Stream) : (snapPassed m (d.setStream i x)).stream i = x := stream_setStream d i x
  rw [hmoved, hs]
  refine ⟨⟨⟨_, _, _, rfl⟩, .of_regs rfl⟩, fun hring => ?_, rfl⟩
  simp [hring]

/-- One that does not sets the stream's order error. -/
theorem fillAdvance_apart {d : Dev} {i a copy n : Nat} (m : JtpMsg) (h : a ≠ streamBase (d.stream i) + (d.stream i).fill) :
    StreamMoved (eventRegs 0x0E) d (snapPassed m (fillAdvance i a copy n d))
      ∧ ((snapPassed m (fillAdvance i a copy n d)).stream i).fill = (d.stream i).fill
      ∧ ((snapPassed m (fillAdvance i a copy n d)).stream i).err = true
      ∧ (snapPassed m (fillAdvance i a copy n d)).evtSet 0x0E 8 := by
  have hmoved : fillAdvance i a copy n d = (d.setStream i { d.stream i with err := true }).raise 0x0E 0 := by
    unfold fillAdvance
    rw [if_neg h]
  have hset := Dev.evtSet_raiseBits (d.setStream i { d.stream i with err := true }) 0x0E 8 (by omega)
  have hkept : Kept (eventRegs 0x0E) d ((d.setStream i { d.stream i with err := true }).raise 0x0E 0) :=
    (Kept.of_regs rfl).raise 0x0E 0 (List.Subset.refl _)
  have hs : (snapPassed m ((d.setStream i { d.stream i with err := true }).raise 0x0E 0)).stream i = { d.stream i with err := true } := by
    rw [Dev.raise_frame]
    exact stream_setStream d i _
  rw [hmoved, hs]
  refine ⟨⟨?_, hkept⟩, rfl, rfl, hset⟩
  rw [Dev.raise_frame]
  exact ⟨_, _, _, rfl⟩

/-- `f` is `d` with `bs` put into memory from `a` on by the bulk message of session `n` with sequence number `seq`, which CUM has passed. -/
structure BulkWritten (n seq job a : Nat) (bs : List Byte) (d f : Dev) : Prop where
  talked : Talked (jtpRegs n ++ memRegs) d f
  cum : f.get (F.RX_CUM_CUM n) = (seq + 1) % 2 ^ 32
  job : f.get (F.JOB_JOB n) = job % 2 ^ 32
  auth : f.get (F.SESS_CFG_AUTH_REQ n) = 0
  todo : (f.sess n).todo = []
  streams : f.streams = d.streams
  inside : ∀ i, i < bs.length → memByte f (a + i) = bs.getD i 0
  outside : ∀ x, x < a ∨ a + bs.length ≤ x → memByte f x = memByte d x

/-- A bulk message of a calm session that writes `bs` to memory from `a` on. -/
theorem jtpMessage_written {q t seq job epoch a : Nat} {p bs : List Byte} {d : Dev} {n : Fin 16} (h : CalmOpen d n)
    (hup : ethUp d q = true) (hlen : p.length ≤ 9216) (ht : isBulk t = true ∧ isFeedback t = false ∧ t ≠ tPosition)
    (hseq : seq = d.get (F.RX_CUM_CUM n)) (hport : activePort d = q)
    (hcredit : ceilDiv (28 + p.length) 4096 ≤ d.get (F.SESS_CFG_CREDIT_MAX n)) (hfree : bulkBlocked d = false)
    (hcheck : ∀ e, PathNoted noticeRegs d e → contentCheck e (plainMsg q t n seq job epoch p) = 0)
    (hwrites : ∀ e, Kept (jtpRegs n) d e → bulkWrites e (plainMsg q t n seq job epoch p) = lineWrites a bs)
    (hreach : Reachable d mJtpBulk kindWrite a bs.length) :
    ∃ f, BulkWritten n seq job a bs d f ∧ (((performPassed (plainMsg q t n seq job epoch p) f).sess n).todo = [] →
        jtpMessage q t n seq job epoch p d = credited n (performPassed (plainMsg q t n seq job epoch p) f)) := by
  have hapart : ∀ n : Fin 16, (∀ x ∈ reachRegs mJtpBulk, x ∉ jtpRegs n) ∧ (∀ x ∈ bulkRegs n, x ∉ memRegs) := by decide
  obtain ⟨hregs, hbulk⟩ := hapart n
  have hbusy : d.getB F.DRAMC_FCHG_BUSY = false := by
    unfold bulkBlocked at hfree
    exact (Bool.or_eq_false_iff.mp hfree).2
  have hput (e : Dev) (he : BulkTaken n job d e) := lineWrites_made (a := a) (bs := bs)
    (hreach.of_kept he.received.regs hregs (by decide) (by decide) he.received.l2Ram he.received.regions he.received.heldSteps)
    ((he.received.regs.getB_eq (g := F.DRAMC_FCHG_BUSY) (hregs _ (by simp [reachRegs]))).trans hbusy)
  obtain ⟨e, f, hin, hpassed, hgo⟩ := jtpMessage_bulk (l := memRegs) h hup hlen ht hseq hport hcredit hbulk hcheck fun e he => by
    rw [hwrites e he.received.regs]
    exact ⟨⟨(hput e he).1.talked, (hput e he).1.jtp⟩, (hput e he).2⟩
  obtain ⟨hmem, -⟩ := hput e hin
  rw [hwrites e hin.received.regs] at hpassed
  generalize writesDone (lineWrites a bs) e = x at hpassed hmem
  have hxtodo : (x.sess n).todo = [] := by rw [hmem.sess, hin.todo]
  have hbyte := memByte_congr hpassed.received.dram hpassed.received.l2
  refine ⟨f, ⟨?_, hpassed.cum, ?_, hpassed.auth, hpassed.todo, ?_, fun i hi => ?_, fun y hy => ?_⟩, hgo⟩
  · exact ((hin.received.talked (hin.todo.trans h.clear.todo.symm)).mono (List.subset_append_left ..)).trans
      ((hmem.talked.mono (List.subset_append_right ..)).trans
        ((hpassed.received.talked (hpassed.todo.trans hxtodo.symm)).mono (List.subset_append_left ..)))
  · exact hpassed.job.trans ((hmem.regs.get_eq (g := F.JOB_JOB n) (hbulk _ (by simp))).trans hin.job)
  · exact hpassed.received.streams.trans (hmem.streams.trans hin.received.streams)
  · rw [hbyte, hmem.inside i hi]
  · rw [hbyte, hmem.outside y hy, memByte_congr hin.received.dram hin.received.l2]

end Sys2Proof.Machine
end

section
/-! SUPPORT. O13: segments and copy orders. -/
namespace Sys2Proof.Machine

/-! ### LAYER_SEGMENT -/

/-- What `endRegs` are apart from, in a command of a bulk message that writes memory. -/
theorem endRegs_bulk : ∀ n : Fin 16, ∀ x ∈ endRegs, x ∉ R.STORE_COR_FILL :: (jtpRegs n ++ memRegs ++ eventRegs 0x0E) := by decide

/-- The next message of a calm session, of `p` bytes on port `q`, may be performed as it comes in. -/
structure BulkDue (s : State) (q : Fin 2) (n : Fin 16) (seq : Word) (p : List Byte) : Prop where
  ready : Ready s
  calm : CalmSession s n
  up : ethUp s.dev q = true
  length : p.length ≤ 9216
  next : seq.toNat = s.dev.get (F.RX_CUM_CUM n)
  flows : BulkFlows s n q p.length

/-- The stream, the bytes and the registers after a LAYER_SEGMENT. -/
theorem execLayerSegment_writes {dt a : Nat} {q : Fin 2} {n : Fin 16} {seq job epoch : Word} {p : List Byte} {s : State}
    (h : BulkDue s q n seq p) (hlen : 16 ≤ p.length) (ha : a = beAt p 0 8) (hlow : a < 2 ^ 40)
    (hcheck : layerCheck s.dev (winBase s.dev n) (winSize s.dev n) a (beAt p 8 2) (byteAt p 10) (byteAt p 11) (beAt p 12 4) (p.length - 16) = 0)
    (hreach : Reach s mJtpBulk kindWrite a (p.length - 16)) :
    ∃ t, execLayerSegment dt q n seq job epoch p s = .next t
      ∧ (∀ j, j < p.length - 16 → t.byte (a + j) = p.getD (16 + j) 0) ∧ MemKeptOutside a (p.length - 16) s t
      ∧ t.dev.get (F.RX_CUM_CUM n) = (seq.toNat + 1) % 2 ^ 32 ∧ t.dev.get (F.JOB_JOB n) = job.toNat
      ∧ (a = streamBase (s.dev.stream (beAt p 8 2)) + (s.dev.stream (beAt p 8 2)).fill → (s.dev.stream (beAt p 8 2)).ring = false →
          (t.dev.stream (beAt p 8 2)).fill = (s.dev.stream (beAt p 8 2)).fill + (p.length - 16)
            ∧ (t.dev.stream (beAt p 8 2)).err = (s.dev.stream (beAt p 8 2)).err ∧ RegsKept (jtpRegs n ++ memRegs) s t)
      ∧ (a ≠ streamBase (s.dev.stream (beAt p 8 2)) + (s.dev.stream (beAt p 8 2)).fill →
          (t.dev.stream (beAt p 8 2)).fill = (s.dev.stream (beAt p 8 2)).fill ∧ (t.dev.stream (beAt p 8 2)).err = true
            ∧ EventSet t 0x0E 8 ∧ RegsKept (jtpRegs n ++ memRegs ++ eventRegs 0x0E) s t) := by
  obtain ⟨hready, hcalm, hup, hp, hseq, hport, hcredit, hfree⟩ := h
  have hopen := CalmOpen.of_calm hcalm dt
  have hapart : ∀ n : Fin 16, (∀ x ∈ [R.WIN_BASE_LO n, R.WIN_BASE_HI n, R.WIN_SIZE n], x ∉ noticeRegs)
      ∧ (∀ x ∈ [R.RX_CUM n, R.JOB n, R.SESS_CFG n], x ∉ memRegs ++ eventRegs 0x0E) := by decide
  obtain ⟨hwin, hback⟩ := hapart n
  have hdrop : (p.drop 16).length = p.length - 16 := List.length_drop
  have hsound (e : Dev) (he : PathNoted noticeRegs (s.dev.elapse dt) e) :
      contentCheck e (plainMsg q tLayerSegment n seq.toNat job.toNat epoch.toNat p) = 0 := by
    have hbase : winBase e n = winBase s.dev n := by
      unfold winBase Dev.get2
      rw [he.regs.get_eq (g := F.WIN_BASE_LO_BASE n) (hwin _ (by simp)), he.regs.get_eq (g := F.WIN_BASE_HI_BASE n) (hwin _ (by simp))]
      rfl
    have hsize : winSize e n = winSize s.dev n := by
      unfold winSize
      rw [he.regs.get_eq (g := F.WIN_SIZE_SIZE n) (hwin _ (by simp))]
      rfl
    have hlayer := (layerCheck_noted he (winBase s.dev n) (winSize s.dev n) a (beAt p 8 2) (byteAt p 10) (byteAt p 11) (beAt p 12 4)
      (p.length - 16)).trans hcheck
    simp only [contentCheck, plainMsg, tLayerSegment, ← ha, hbase, hsize, hlayer]
    rw [if_neg (by omega), if_neg (by omega)]
  obtain ⟨f, hf, hgo⟩ := jtpMessage_written (t := tLayerSegment) (job := job.toNat) (epoch := epoch.toNat) (a := a) (bs := p.drop 16) hopen hup hp
    ⟨rfl, rfl, by decide⟩ hseq hport hcredit hfree hsound (fun e _ => by simp only [bulkWrites, plainMsg, tLayerSegment, ← ha])
    (hdrop.symm ▸ reachable_of_reach hreach)
  have hperform : performPassed (plainMsg q tLayerSegment n seq.toNat job.toNat epoch.toNat p) f
      = snapPassed (plainMsg q tLayerSegment n seq.toNat job.toNat epoch.toNat p)
          (fillAdvance (beAt p 8 2) a (beAt p 12 4) (p.length - 16) f) := by
    simp only [performPassed, plainMsg, tLayerSegment, ← ha]
  rw [hperform] at hgo
  have hstream : f.stream (beAt p 8 2) = s.dev.stream (beAt p 8 2) := by unfold Dev.stream; rw [hf.streams]; rfl
  have hwhole {l : List Nat} {g : Dev}
      (hg : g = snapPassed (plainMsg q tLayerSegment n seq.toNat job.toNat epoch.toNat p)
        (fillAdvance (beAt p 8 2) a (beAt p 12 4) (p.length - 16) f)) (hmoved : StreamMoved l f g)
      (hl : l ⊆ eventRegs 0x0E) : ∃ e, execLayerSegment dt q n seq job epoch p s = .next (s.after e)
        ∧ (∀ j, j < p.length - 16 → (s.after e).byte (a + j) = p.getD (16 + j) 0) ∧ MemKeptOutside a (p.length - 16) s (s.after e)
        ∧ e.get (F.RX_CUM_CUM n) = (seq.toNat + 1) % 2 ^ 32 ∧ e.get (F.JOB_JOB n) = job.toNat
        ∧ e.stream (beAt p 8 2) = g.stream (beAt p 8 2) ∧ Kept memRegs g e ∧ RegsKept (jtpRegs n ++ memRegs ++ l) s (s.after e) := by
    rw [← hg] at hgo
    have hkeep {x : RegField} (hx : x.addr ∉ memRegs ++ eventRegs 0x0E) : g.get x = f.get x :=
      hmoved.regs.get_eq fun h => hx (List.mem_append_right _ (hl h))
    obtain ⟨e, hdo, hend, hregs⟩ := perform_credited (l := jtpRegs n ++ memRegs ++ l) (f := jtpMessage q tLayerSegment n seq.toNat job.toNat epoch.toNat p)
      hready (hgo ((hmoved.talked.todo n).trans hf.todo)) ((hkeep (hback _ (by simp))).trans hf.auth)
      ((hf.talked.mono (List.subset_append_left ..)).trans (hmoved.talked.mono (List.subset_append_right ..)))
      (fun x hx hin => endRegs_bulk n x hx (List.mem_cons_of_mem _ (by
        rcases List.mem_append.mp hin with h | h
        · exact List.mem_append_left _ h
        · exact List.mem_append_right _ (hl h))))
      (fun x hx => List.mem_append_left _ (List.mem_append_right _ hx))
    have hget {x : RegField} (hx : x.addr ∉ memRegs ++ eventRegs 0x0E) : e.get x = f.get x :=
      (hend.kept.get_eq fun h => hx (List.mem_append_left _ h)).trans (hkeep hx)
    have hbyte (x : Nat) : memByte e x = memByte f x := (hend.memory x).trans (hmoved.memory x)
    refine ⟨e, hdo, fun j hj => ?_, fun x hx => ?_, (hget (hback _ (by simp))).trans hf.cum,
      (hget (hback _ (by simp))).trans (hf.job.trans (Nat.mod_eq_of_lt job.isLt)), ?_, hend.kept, hregs⟩
    · refine (hbyte _).trans ((hf.inside j (by omega)).trans ?_)
      rw [List.getD_eq_getElem?_getD, List.getD_eq_getElem?_getD, List.getElem?_drop]
    · exact (hbyte x).trans (hf.outside x (by rw [hdrop]; exact hx))
    · unfold Dev.stream
      rw [hend.streams]
  by_cases hmark : a = streamBase (s.dev.stream (beAt p 8 2)) + (s.dev.stream (beAt p 8 2)).fill
  · obtain ⟨hmoved, hfill, herr⟩ := fillAdvance_next (copy := beAt p 12 4) (n := p.length - 16)
      (plainMsg q tLayerSegment n seq.toNat job.toNat epoch.toNat p) (hstream.symm ▸ hmark)
    obtain ⟨e, hdo, hin, hout, hcum, hjob, hs, -, hregs⟩ := hwhole rfl hmoved (by simp)
    rw [List.append_nil] at hregs
    rw [hstream] at hfill herr
    exact ⟨_, hdo, hin, hout, hcum, hjob,
      fun _ hring => ⟨(congrArg Stream.fill hs).trans (hfill hring), (congrArg Stream.err hs).trans herr, hregs⟩, fun hne => absurd hmark hne⟩
  · obtain ⟨hmoved, hfill, herr, hevent⟩ := fillAdvance_apart (copy := beAt p 12 4) (n := p.length - 16)
      (plainMsg q tLayerSegment n seq.toNat job.toNat epoch.toNat p) (hstream.symm ▸ hmark)
    obtain ⟨e, hdo, hin, hout, hcum, hjob, hs, hkept, hregs⟩ := hwhole rfl hmoved (List.Subset.refl _)
    rw [hstream] at hfill
    refine ⟨_, hdo, hin, hout, hcum, hjob, fun h => absurd h hmark,
      fun _ => ⟨(congrArg Stream.fill hs).trans hfill, (congrArg Stream.err hs).trans herr, ?_, hregs⟩⟩
    unfold Dev.evtSet at hevent
    rw [← hkept.reg_eq (by decide)] at hevent
    exact hevent

/-! ### COPY_ORDER -/

theorem wordsLe_length (f : Nat) (bs : List Byte) (h : bs.length ≤ f) : (wordsLe f bs).length = bs.length := by
  induction f generalizing bs with
  | zero => simp [wordsLe]; omega
  | succ f ih =>
    unfold wordsLe
    by_cases hnil : bs = []
    · rw [hnil]
      rfl
    · have hpos := List.length_pos_iff.mpr hnil
      rw [if_neg (by simpa using hnil), List.length_append, List.length_reverse, ih _ (by rw [List.length_drop]; omega), List.length_take,
        List.length_drop]
      omega

/-- Each word of the payload goes out least significant byte first (R106). -/
theorem wordsLe_getD (f : Nat) (bs : List Byte) (h : bs.length ≤ f) (h4 : bs.length % 4 = 0) (j : Nat) (hj : j < bs.length) :
    (wordsLe f bs).getD j 0 = bs.getD (j / 4 * 4 + (3 - j % 4)) 0 := by
  induction f generalizing bs j with
  | zero => omega
  | succ f ih =>
    have hrev : ((bs.take 4).reverse).length = 4 := by rw [List.length_reverse, List.length_take]; omega
    unfold wordsLe
    rw [if_neg (by simp only [List.isEmpty_iff]; rintro rfl; simp at hj)]
    by_cases hj4 : j < 4
    · rw [List.getD_append _ _ _ _ (by omega), List.getD_eq_getElem?_getD, List.getElem?_reverse (by rw [List.length_take]; omega),
        List.length_take, List.getElem?_take_of_lt (by omega), List.getD_eq_getElem?_getD]
      congr 2
      omega
    · rw [List.getD_append_right _ _ _ _ (by omega), hrev, ih _ (by rw [List.length_drop]; omega) (by rw [List.length_drop]; omega) _
        (by rw [List.length_drop]; omega), List.getD_eq_getElem?_getD, List.getElem?_drop, List.getD_eq_getElem?_getD]
      congr 2
      omega

theorem lineWrites_nil (a : Nat) : lineWrites a [] = [] := rfl

/-- The slots of a copy order that CUM has passed are filled (R166). -/
theorem copyOrderPassed_moved (m : JtpMsg) (first count : Nat) (d : Dev) :
    (∃ r k p, snapPassed m (copyOrderPassed first count d) = { d with regs := r, corPending := k, path := p })
      ∧ Kept [R.STORE_COR_FILL] d (snapPassed m (copyOrderPassed first count d))
      ∧ (snapPassed m (copyOrderPassed first count d)).get F.STORE_COR_FILL_FILL = (first + count) % 2 ^ 16 := by
  have hpending : ∃ k, forN count (fun k d =>
      { d with corPending := cellSet 0 d.corPending ((first + k) % 65536) (cellGet 0 d.corPending ((first + k) % 65536) - 1) }) d
        = { d with corPending := k } :=
    forN_induct (P := fun e : Dev => ∃ k, e = { d with corPending := k }) ⟨_, rfl⟩
      fun _ _ ⟨_, h⟩ => by subst h; exact ⟨_, rfl⟩
  obtain ⟨k, hk⟩ := hpending
  have hfill : copyOrderPassed first count d = ({ d with corPending := k } : Dev).put F.STORE_COR_FILL_FILL (first + count) := by
    rw [← hk]
    rfl
  rw [hfill]
  exact ⟨⟨_, _, _, rfl⟩, (Kept.of_regs rfl).put (d := d) (e := { d with corPending := k }) (g := F.STORE_COR_FILL_FILL) _ (by simp),
    Dev.get_put_same { d with corPending := k } F.STORE_COR_FILL_FILL _ (by decide)⟩

/-- The descriptors and the registers after a COPY_ORDER. -/
theorem execCopyOrder_writes {dt a : Nat} {q : Fin 2} {n : Fin 16} {seq job epoch : Word} {p : List Byte} {s : State}
    (h : BulkDue s q n seq p) (hlen : 8 ≤ p.length) (hcheck : copyOrderCheck s.dev (beAt p 0 4) (beAt p 4 2) p.length = 0)
    (hfits : beAt p 0 4 + beAt p 4 2 ≤ 65536) (ha : a = corBase s.dev + 32 * beAt p 0 4)
    (hreach : Reach s mJtpBulk kindWrite a (32 * beAt p 4 2)) :
    ∃ t, execCopyOrder dt q n seq job epoch p s = .next t
      ∧ (∀ j, j < 32 * beAt p 4 2 → t.byte (a + j) = p.getD (8 + j / 4 * 4 + (3 - j % 4)) 0)
      ∧ MemKeptOutside a (32 * beAt p 4 2) s t
      ∧ t.dev.get (F.RX_CUM_CUM n) = (seq.toNat + 1) % 2 ^ 32 ∧ t.dev.get (F.JOB_JOB n) = job.toNat
      ∧ t.dev.get F.STORE_COR_FILL_FILL = (beAt p 0 4 + beAt p 4 2) % 2 ^ 16
      ∧ RegsKept (R.STORE_COR_FILL :: jtpRegs n ++ memRegs) s t := by
  obtain ⟨hready, hcalm, hup, hp, hseq, hport, hcredit, hfree⟩ := h
  have hopen := CalmOpen.of_calm hcalm dt
  have hapart : ∀ n : Fin 16, (∀ x ∈ [R.STORE_COR_BASE_LO, R.STORE_COR_BASE_HI], x ∉ jtpRegs n)
      ∧ (∀ x ∈ [R.RX_CUM n, R.JOB n, R.SESS_CFG n], x ∉ memRegs ∧ x ∉ [R.STORE_COR_FILL]) ∧ R.STORE_COR_FILL ∉ memRegs := by decide
  obtain ⟨hbase, hback, hfillReg⟩ := hapart n
  have hcount : p.length = 8 + 32 * beAt p 4 2 := by
    unfold copyOrderCheck at hcheck
    by_contra hne
    rw [if_pos (.inr (.inr hne) : beAt p 4 2 = 0 ∨ 287 < beAt p 4 2 ∨ p.length ≠ 8 + 32 * beAt p 4 2)] at hcheck
    split at hcheck
    · exact absurd hcheck (by decide)
    · exact absurd hcheck (by decide)
  have hdrop : (p.drop 8).length = 32 * beAt p 4 2 := by rw [List.length_drop]; omega
  have hwords : (wordsLe (p.length + 1) (p.drop 8)).length = 32 * beAt p 4 2 :=
    (wordsLe_length _ _ (by omega)).trans hdrop
  have hwrites (e : Dev) (he : Kept (jtpRegs n) (s.dev.elapse dt) e) :
      bulkWrites e (plainMsg q tCopyOrder n seq.toNat job.toNat epoch.toNat p) = lineWrites a (wordsLe (p.length + 1) (p.drop 8)) := by
    have hcor : corBase e = corBase s.dev := by
      unfold corBase Dev.get2
      rw [he.get_eq (g := F.STORE_COR_BASE_LO_BASE) (hbase _ (by simp)), he.get_eq (g := F.STORE_COR_BASE_HI_BASE) (hbase _ (by simp))]
      rfl
    have hmin : min (beAt p 4 2) (65536 - beAt p 0 4) = beAt p 4 2 := by omega
    simp only [bulkWrites, plainMsg, tCopyOrder, hcor, hmin, ← ha]
    rw [List.take_of_length_le hwords.le, List.drop_of_length_le hwords.le, lineWrites_nil, List.append_nil]
  obtain ⟨f, hf, hgo⟩ := jtpMessage_written (t := tCopyOrder) (job := job.toNat) (epoch := epoch.toNat) (a := a)
    (bs := wordsLe (p.length + 1) (p.drop 8)) hopen hup hp ⟨rfl, rfl, by decide⟩ hseq hport hcredit hfree
    (fun e he => by
      simp only [contentCheck, plainMsg, tCopyOrder, (copyOrderCheck_noted he (beAt p 0 4) (beAt p 4 2) p.length).trans hcheck]
      rw [if_neg (by omega)])
    hwrites (hwords.symm ▸ reachable_of_reach hreach)
  have hperform : performPassed (plainMsg q tCopyOrder n seq.toNat job.toNat epoch.toNat p) f
      = snapPassed (plainMsg q tCopyOrder n seq.toNat job.toNat epoch.toNat p) (copyOrderPassed (beAt p 0 4) (beAt p 4 2) f) := rfl
  obtain ⟨⟨r, k, pa, hframe⟩, hkept, hfill⟩ := copyOrderPassed_moved (plainMsg q tCopyOrder n seq.toNat job.toNat epoch.toNat p)
    (beAt p 0 4) (beAt p 4 2) f
  rw [← hperform] at hframe hkept hfill
  generalize performPassed (plainMsg q tCopyOrder n seq.toNat job.toNat epoch.toNat p) f = g at hgo hframe hkept hfill
  have htodo (i : Nat) : (g.sess i).todo = (f.sess i).todo := by rw [hframe]; rfl
  have htalk : Talked [R.STORE_COR_FILL] f g := ⟨hkept, htodo, by rw [hframe], by rw [hframe], by rw [hframe]⟩
  obtain ⟨e, hdo, hend, hregs⟩ := perform_credited (l := R.STORE_COR_FILL :: jtpRegs n ++ memRegs)
    (f := jtpMessage q tCopyOrder n seq.toNat job.toNat epoch.toNat p) hready (hgo ((htodo n).trans hf.todo))
    ((hkept.get_eq (hback _ (by simp)).2).trans hf.auth)
    ((hf.talked.mono (List.subset_cons_self ..)).trans (htalk.mono (by simp)))
    (fun x hx hin => endRegs_bulk n x hx (by
      simp only [List.cons_append, List.mem_cons, List.mem_append] at hin ⊢
      tauto))
    (List.subset_append_right ..)
  have hget {x : RegField} (hx : x.addr ∉ memRegs ∧ x.addr ∉ [R.STORE_COR_FILL]) : e.get x = f.get x :=
    (hend.kept.get_eq hx.1).trans (hkept.get_eq hx.2)
  have hbyte (x : Nat) : memByte e x = memByte f x := by
    rw [hend.memory, hframe]
    rfl
  refine ⟨_, hdo, fun j hj => ?_, fun x hx => ?_, (hget (hback _ (by simp))).trans hf.cum,
    (hget (hback _ (by simp))).trans (hf.job.trans (Nat.mod_eq_of_lt job.isLt)), (hend.kept.get_eq hfillReg).trans hfill, hregs⟩
  · refine (hbyte _).trans ((hf.inside j (by omega)).trans ?_)
    rw [wordsLe_getD _ _ (by omega) (by omega) j (by omega), List.getD_eq_getElem?_getD, List.getElem?_drop,
      List.getD_eq_getElem?_getD]
    congr 2
    omega
  · exact (hbyte x).trans (hf.outside x (by rw [hwords]; exact hx))

end Sys2Proof.Machine
end

section
/-! SUPPORT. O13: bulk messages to memory. -/
namespace Sys2Proof.Machine

/-- Settles O13: segments and copy orders put their payload in memory, and nothing else. -/
theorem bulkToMemory : Obligations.BulkToMemory := by
  unfold Obligations.BulkToMemory
  intro dt q n seq job epoch p s hready hcalm hup hp hseq hflows
  have hdue : BulkDue s q n seq p := ⟨hready, hcalm, hup, hp, hseq, hflows⟩
  exact ⟨fun a hlen ha hlow hcheck hreach => execLayerSegment_writes hdue hlen ha hlow hcheck hreach,
    fun a hlen hcheck hfits ha hreach => execCopyOrder_writes hdue hlen hcheck hfits ha hreach⟩

end Sys2Proof.Machine
end

section
/-! SUPPORT. O14: PLAN_LOAD and TABLE_WRITE (R125, R126) write shadow halves. -/
namespace Sys2Proof.Machine

/-! ### What Shroud permits does not depend on shadows -/

theorem shroudCheck_kept {l : List Nat} {d e : Dev} {m : Nat} (hr : Kept l d e) (hl : ∀ x ∈ reachRegs m, x ∉ l) (hcore : ¬ m < 4)
    (hram : e.l2Ram = d.l2Ram) (hregions : e.regions = d.regions) (kind a : Nat) (rwm : Bool) :
    shroudCheck e m kind a rwm = shroudCheck d m kind a rwm := by
  have hlevel : masterLevel e m = masterLevel d m := by
    unfold masterLevel
    rw [if_neg hcore, if_neg hcore, hr.get_eq (g := F.SHROUD_MASTER_LVL m) (hl _ (by simp [reachRegs]))]
  unfold shroudCheck unmapped decidingRegion regionHas regionPerm regionWord
  rw [hlevel, hram, hregions, hr.getB_eq (g := F.SHROUD_CFG_EN) (hl _ (by simp [reachRegs])),
    hr.get_eq (g := F.SHROUD_MASTER_GROUP m) (hl _ (by simp [reachRegs]))]

/-- `e` is `d` but for the shadow tables, what is known of their poison, what the shadows were before this cycle, and registers
of `l`. -/
structure ShadowMoved (l : List Nat) (d e : Dev) : Prop where
  frame : ∃ r no ti wa ft u rm sa so, e = { d with
    regs := r, nozSh := no, tileSh := ti, waveSh := wa, ftrimSh := ft, ue := u, remap := rm, shAt := sa, shOld := so }
  regs : Kept l d e

namespace ShadowMoved
variable {l : List Nat} {d e f : Dev}

theorem refl (l : List Nat) (d : Dev) : ShadowMoved l d d := ⟨⟨_, _, _, _, _, _, _, _, _, rfl⟩, .refl l d⟩
theorem trans (h : ShadowMoved l d e) (g : ShadowMoved l e f) : ShadowMoved l d f := by
  obtain ⟨⟨_, _, _, _, _, _, _, _, _, rfl⟩, k⟩ := h
  obtain ⟨⟨_, _, _, _, _, _, _, _, _, rfl⟩, k'⟩ := g
  exact ⟨⟨_, _, _, _, _, _, _, _, _, rfl⟩, k.trans k'⟩
theorem note (h : ShadowMoved l d e) : ShadowMoved l d (shadowNote e) := by
  refine h.trans ?_
  unfold shadowNote
  split
  · exact .refl l e
  · exact ⟨⟨_, _, _, _, _, _, _, _, _, rfl⟩, .of_regs rfl⟩
theorem setReg (h : ShadowMoved l d e) {a : Nat} (w : Word) (ha : a ∈ l) : ShadowMoved l d (e.setReg a w) :=
  h.trans ⟨⟨_, _, _, _, _, _, _, _, _, rfl⟩, (Kept.refl l e).setReg w ha⟩
theorem of_poison (h : OnlyPoison d e) : ShadowMoved l d e := by
  obtain ⟨_, _, rfl⟩ := h
  exact ⟨⟨_, _, _, _, _, _, _, _, _, rfl⟩, .of_regs rfl⟩
theorem mono {l' : List Nat} (h : ShadowMoved l d e) (hl : l ⊆ l') : ShadowMoved l' d e := { h with regs := h.regs.mono hl }

theorem made (h : ShadowMoved l d e) : BulkMade l d e := by
  obtain ⟨⟨_, _, _, _, _, _, _, _, _, rfl⟩, k⟩ := h
  exact ⟨⟨k, fun _ => rfl, rfl, rfl, rfl⟩, rfl⟩
theorem banks (h : ShadowMoved l d e) : e.banks = d.banks := by obtain ⟨⟨_, _, _, _, _, _, _, _, _, rfl⟩, -⟩ := h; rfl
theorem dram (h : ShadowMoved l d e) : e.dram = d.dram := by obtain ⟨⟨_, _, _, _, _, _, _, _, _, rfl⟩, -⟩ := h; rfl
theorem l2 (h : ShadowMoved l d e) : e.l2 = d.l2 := by obtain ⟨⟨_, _, _, _, _, _, _, _, _, rfl⟩, -⟩ := h; rfl
theorem l2Ram (h : ShadowMoved l d e) : e.l2Ram = d.l2Ram := by obtain ⟨⟨_, _, _, _, _, _, _, _, _, rfl⟩, -⟩ := h; rfl
theorem regions (h : ShadowMoved l d e) : e.regions = d.regions := by obtain ⟨⟨_, _, _, _, _, _, _, _, _, rfl⟩, -⟩ := h; rfl

theorem permits (h : ShadowMoved l d e) (hl : ∀ x ∈ reachRegs mJtpBulk, x ∉ l) (a : Nat) :
    bulkBlocked e = bulkBlocked d ∧ shroudCheck e mJtpBulk kindWrite a false = shroudCheck d mJtpBulk kindWrite a false := by
  refine ⟨?_, shroudCheck_kept h.regs hl (by decide) h.l2Ram h.regions _ _ _⟩
  unfold bulkBlocked
  rw [cleated_low (h.regs.reg_eq (hl _ (by simp [reachRegs]))) (by decide), h.regs.getB_eq (g := F.DRAMC_FCHG_BUSY) (hl _ (by simp [reachRegs]))]
end ShadowMoved

/-! ### A message of such writes -/

/-- The writes `w 0 … w (c − 1)` of a message, behind the address of each. -/
abbrev shadowWrites (at_ : Nat → Nat) (w : Nat → Dev → Dev) (c : Nat) : List (Nat × (Dev → Dev)) :=
  (List.range c).map (fun k => (at_ k, w k))

theorem writesDone_succ (at_ : Nat → Nat) (w : Nat → Dev → Dev) (c : Nat) (d : Dev) :
    writesDone (shadowWrites at_ w (c + 1)) d = w c (shadowNote (writesDone (shadowWrites at_ w c) d)) := by
  unfold writesDone shadowWrites
  rw [List.range_succ, List.map_append, List.foldl_append]
  rfl

theorem writesDone_moved {l : List Nat} {at_ : Nat → Nat} {w : Nat → Dev → Dev} {c : Nat} (d : Dev)
    (hw : ∀ k, k < c → ∀ e, ShadowMoved l e (w k e)) : ShadowMoved l d (writesDone (shadowWrites at_ w c) d) := by
  induction c with
  | zero => exact .refl l d
  | succ c ih =>
    rw [writesDone_succ]
    exact ((ih fun k hk => hw k (by omega)).note).trans (hw c (by omega) _)

/-- `f` is `d` after the bulk message of session `n` that made the writes of `x` from `e`: nothing but feedback has followed. -/
structure ShadowsWritten (l : List Nat) (n : Nat) (job : Nat) (d e x : Dev) (s t : State) : Prop where
  taken : BulkTaken n job d e
  cum : t.dev.get (F.RX_CUM_CUM n) = (d.get (F.RX_CUM_CUM n) + 1) % 2 ^ 32
  job : t.dev.get (F.JOB_JOB n) = job % 2 ^ 32
  tables : t.dev.nozSh = x.nozSh ∧ t.dev.tileSh = x.tileSh ∧ t.dev.waveSh = x.waveSh ∧ t.dev.ftrimSh = x.ftrimSh
  later : Kept (jtpRegs n) x t.dev
  regs : RegsKept (l ++ jtpRegs n) s t
  mem : MemKept s t

/-- The registers that a bulk message of session `n` reads, up to the end of its command. -/
abbrev shadowCourse (n : Nat) : List Nat := endRegs ++ bulkRegs n ++ reachRegs mJtpBulk

theorem shadowCourse_apart : ∀ n : Fin 16, (∀ x ∈ endRegs, x ∉ jtpRegs n) ∧ (∀ x ∈ reachRegs mJtpBulk, x ∉ jtpRegs n) := by decide

/-- PLAN_LOAD and TABLE_WRITE, the next message of a calm session: Shroud permits each write, and nothing else follows. -/
theorem exec_shadows {dt t c : Nat} {q : Fin 2} {n : Fin 16} {seq job epoch : Word} {p : List Byte} {s : State} {l : List Nat}
    {at_ : Nat → Nat} {w : Nat → Dev → Dev} (h : BulkDue s q n seq p) (ht : t = tPlanLoad ∨ t = tTableWrite)
    (hl : ∀ x ∈ shadowCourse n, x ∉ l)
    (hcheck : ∀ e, contentCheck e (plainMsg q t n seq.toNat job.toNat epoch.toNat p) = 0)
    (hwrites : ∀ e, bulkWrites e (plainMsg q t n seq.toNat job.toNat epoch.toNat p) = shadowWrites at_ w c)
    (hmoved : ∀ k, k < c → ∀ e, ShadowMoved l e (w k e))
    (hpermit : ∀ k, k < c → (shroudCheck s.dev mJtpBulk kindWrite (at_ k) false).1 = true) :
    ∃ e u, perform dt s (fun d => afterCommand (jtpMessage q t n seq.toNat job.toNat epoch.toNat p d)) = .next u
      ∧ ShadowsWritten l n job.toNat (s.dev.elapse dt) e (writesDone (shadowWrites at_ w c) e) s u := by
  obtain ⟨hready, hcalm, hup, hp, hseq, hport, hcredit, hfree⟩ := h
  have hopen := CalmOpen.of_calm hcalm dt
  obtain ⟨hend, hreach⟩ := shadowCourse_apart n
  have htype : isBulk t = true ∧ isFeedback t = false ∧ t ≠ tPosition := by
    rcases ht with rfl | rfl
    · exact ⟨rfl, rfl, by decide⟩
    · exact ⟨rfl, rfl, by decide⟩
  have hrun (e : Dev) (he : BulkTaken n job.toNat (s.dev.elapse dt) e) :
      runWrites (shadowWrites at_ w c) 0 e = ((shadowWrites at_ w c).length, writesDone (shadowWrites at_ w c) e) := by
    have hbase (a : Nat) : bulkBlocked e = bulkBlocked s.dev
        ∧ shroudCheck e mJtpBulk kindWrite a false = shroudCheck s.dev mJtpBulk kindWrite a false := by
      refine ⟨?_, shroudCheck_kept he.received.regs hreach (by decide) he.received.l2Ram he.received.regions _ _ _⟩
      unfold bulkBlocked
      rw [cleated_low (he.received.regs.reg_eq (hreach _ (by simp [reachRegs]))) (by decide),
        he.received.regs.getB_eq (g := F.DRAMC_FCHG_BUSY) (hreach _ (by simp [reachRegs]))]
      rfl
    have hgo := (runWrites_permitted (I := ShadowMoved l e) (ws := shadowWrites at_ w c) 0 (.refl l e) fun x hx y hy => by
      simp only [shadowWrites, List.mem_map] at hx
      obtain ⟨k, hk, rfl⟩ := hx
      obtain ⟨hb, hs⟩ := hy.permits (fun z hz => hl z (List.mem_append_right _ hz)) (at_ k)
      obtain ⟨hb', hs'⟩ := hbase (at_ k)
      refine ⟨hb.trans (hb'.trans hfree), ?_, hy.note.trans (hmoved k (List.mem_range.mp hk) _)⟩
      rw [hs, hs']
      exact hpermit k (List.mem_range.mp hk)).1
    rw [Nat.zero_add] at hgo
    exact hgo
  obtain ⟨e, f, hin, hpassed, hgo⟩ := jtpMessage_bulk (epoch := epoch.toNat) (l := l) hopen hup hp htype hseq hport hcredit
    (fun a ha => hl a (List.mem_append_left _ (List.mem_append_right _ ha))) (fun e _ => hcheck e) fun e he => by
      rw [hwrites e]
      exact ⟨(writesDone_moved e hmoved).made, hrun e he⟩
  have hmove := writesDone_moved (at_ := at_) e hmoved
  rw [hwrites e] at hpassed
  generalize hx : writesDone (shadowWrites at_ w c) e = x at hpassed hmove
  have hperform : performPassed (plainMsg q t n seq.toNat job.toNat epoch.toNat p) f = f := by
    rcases ht with rfl | rfl
    · rfl
    · rfl
  rw [hperform] at hgo
  have hfed := credited_fed hpassed.auth
  have hxtodo : (x.sess n).todo = [] := by
    have : x.sess n = e.sess n := by unfold Dev.sess; rw [hmove.made.jtp]
    rw [this, hin.todo]
  have htalk : Talked (l ++ jtpRegs n) (s.dev.elapse dt) (credited n f) :=
    ((hin.received.talked (hin.todo.trans hopen.clear.todo.symm)).mono (List.subset_append_right ..)).trans
      ((hmove.made.talked.mono (List.subset_append_left ..)).trans
        (((hpassed.received.talked (hpassed.todo.trans hxtodo.symm)).mono (List.subset_append_right ..)).trans
          ((hfed.received.talked hfed.keeps.1).mono (by simp))))
  obtain ⟨hdo, hregs, hmem⟩ := perform_still (f := jtpMessage q t n seq.toNat job.toNat epoch.toNat p) hready (hgo hpassed.todo) htalk
    (fun a ha hin => (List.mem_append.mp hin).elim (hl a (List.mem_append_left _ (List.mem_append_left _ ha))) (hend a ha))
    (hfed.received.banks.trans (hpassed.received.banks.trans (hmove.banks.trans hin.received.banks)))
    (hfed.received.dram.trans (hpassed.received.dram.trans (hmove.dram.trans hin.received.dram)))
    (hfed.received.l2.trans (hpassed.received.l2.trans (hmove.l2.trans hin.received.l2)))
  have hget {g : RegField} : (credited n f).get g = f.get g := hfed.received.regs.get_eq (by simp)
  obtain ⟨h1, h2, h3, h4⟩ := hfed.received.tables
  obtain ⟨g1, g2, g3, g4⟩ := hpassed.received.tables
  subst hx
  refine ⟨e, _, hdo, hin, hget.trans (hpassed.cum.trans (by rw [hseq]; rfl)), hget.trans (hpassed.job.trans ?_),
    ⟨h1.trans g1, h2.trans g2, h3.trans g3, h4.trans g4⟩, hpassed.received.regs.trans (hfed.received.regs.mono (by simp)), hregs, hmem⟩
  exact (hmove.regs.get_eq (g := F.JOB_JOB n) (hl _ (by simp))).trans hin.job

end Sys2Proof.Machine
end

section
/-! SUPPORT. O14: the words of a plan and the entries of each table. -/
namespace Sys2Proof.Machine

/-! ### Entries of a table -/

/-- Cells `m` with entries `first` to `first + c − 1` of the instance that begins at `base` put in, each by `v`. -/
def entriesPut {α : Type} [DecidableEq α] (rst : Nat → α) (base first : Nat) (v : Nat → α) : Nat → Cells α → Cells α
  | 0, m => m
  | c + 1, m => cellSet (rst (first + c)) (entriesPut rst base first v c m) (base + (first + c)) (v c)

theorem cellGet_entriesPut {α : Type} [DecidableEq α] (rst : Nat → α) (base first : Nat) (v : Nat → α) (c : Nat) (m : Cells α) (z : Nat → α)
    (hz : ∀ i, i < first + c → z (base + i) = rst i) (x : Nat) :
    cellGet (z x) (entriesPut rst base first v c m) x
      = if base + first ≤ x ∧ x < base + first + c then v (x - (base + first)) else cellGet (z x) m x := by
  induction c with
  | zero => rw [if_neg (by omega)]; rfl
  | succ c ih =>
    unfold entriesPut
    by_cases hx : x = base + (first + c)
    · rw [if_pos (by omega), hx, hz _ (by omega), cellGet_cellSet_same]
      congr 1
      omega
    · rw [cellGet_cellSet_ne _ _ _ _ _ _ hx, ih fun i hi => hz i (by omega)]
      by_cases hin : base + first ≤ x ∧ x < base + first + c
      · rw [if_pos hin, if_pos (by omega)]
      · rw [if_neg hin, if_neg (by omega)]

/-- What shadow tables the writes of a message leave: `tables` names the four of the block. -/
abbrev shadowTables (d : Dev) : Cells Nat × Cells Word × Cells Word × Cells Word := (d.nozSh, d.tileSh, d.waveSh, d.ftrimSh)

theorem shadowTables_poison {d e : Dev} (h : OnlyPoison d e) : shadowTables e = shadowTables d := by
  obtain ⟨_, _, rfl⟩ := h
  rfl

theorem shadowTables_note (d : Dev) : shadowTables (shadowNote d) = shadowTables d := by
  unfold shadowNote
  split
  · rfl
  · rfl

/-- Entry `k` of a message for a table, as `bulkWrites` writes it. -/
theorem tableWrite_one (table inst i : Nat) (p : List Byte) (o : Nat) (d : Dev) : tableWrite table inst i 1 (p.drop o) d
    = match table with
      | 1 => nozShadowSet i (beAt p o 4 + beAt p (o + 4) 4 * 2 ^ 32) d
      | 2 => tileShadowSet i (beAt p o 4) d
      | 3 => waveShadowSet inst i (beAt p o 4) d
      | _ => ftrimShadowSet inst i (beAt p o 4) d := by
  simp only [tableWrite, forN, List.range_one, List.foldl_cons, List.foldl_nil, beAt_drop, Nat.mul_zero, Nat.add_zero, Nat.zero_add,
    Nat.mul_one] <;> rfl

/-- A table's entry set: nothing but shadow tables changes. -/
theorem tableWrite_moved (l : List Nat) (table inst i : Nat) (p : List Byte) (o : Nat) (d : Dev) :
    ShadowMoved l d (tableWrite table inst i 1 (p.drop o) d) := by
  have hset {e : Dev} (he : ShadowMoved l d e) (c i o n : Nat) : ShadowMoved l d (ueRewrite c i o n e) :=
    he.trans (.of_poison (ueRewrite_poison c i o n e))
  rw [tableWrite_one]
  split
  · unfold nozShadowSet nozShadowPut
    refine hset ?_ _ _ _ _
    exact ⟨⟨_, _, _, _, _, _, _, _, _, rfl⟩, .of_regs rfl⟩
  · unfold tileShadowSet
    refine hset ?_ _ _ _ _
    exact ⟨⟨_, _, _, _, _, _, _, _, _, rfl⟩, .of_regs rfl⟩
  · unfold waveShadowSet
    refine hset ?_ _ _ _ _
    exact ⟨⟨_, _, _, _, _, _, _, _, _, rfl⟩, .of_regs rfl⟩
  · exact ⟨⟨_, _, _, _, _, _, _, _, _, rfl⟩, .of_regs rfl⟩

/-- The entries of a message of TABLE_WRITE, from `first` on. -/
abbrev tableEntries (table inst first sz : Nat) (p : List Byte) (k : Nat) : Dev → Dev :=
  tableWrite table inst (first + k) 1 (p.drop (8 + sz * k))

/-- The four tables after `c` writes, from what each does to them. -/
theorem writesDone_tables {at_ : Nat → Nat} {w : Nat → Dev → Dev} {d : Dev} {T : Nat → Cells Nat × Cells Word × Cells Word × Cells Word} (c : Nat)
    (h0 : shadowTables d = T 0) (hw : ∀ k e, shadowTables e = T k → shadowTables (w k e) = T (k + 1)) :
    shadowTables (writesDone (shadowWrites at_ w c) d) = T c := by
  induction c with
  | zero => exact h0
  | succ c ih =>
    rw [writesDone_succ]
    exact hw c _ ((shadowTables_note _).trans ih)

theorem nozEntries_tables (inst first : Nat) (at_ : Nat → Nat) (p : List Byte) (c : Nat) (d : Dev) :
    shadowTables (writesDone (shadowWrites at_ (tableEntries 1 inst first 8 p) c) d)
      = (entriesPut (fun _ => 0) 0 first (fun k => nozClean (beAt p (8 + 8 * k) 4 + beAt p (12 + 8 * k) 4 * 2 ^ 32)) c d.nozSh,
        d.tileSh, d.waveSh, d.ftrimSh) := by
  refine writesDone_tables (T := fun c => (entriesPut _ 0 first _ c d.nozSh, d.tileSh, d.waveSh, d.ftrimSh)) c rfl fun k e he => ?_
  simp only [Prod.mk.injEq] at he
  obtain ⟨h1, h2, h3, h4⟩ := he
  rw [tableEntries, tableWrite_one]
  refine (shadowTables_poison (ueRewrite_poison ..)).trans ?_
  simp only [nozShadowPut, entriesPut, h1, h2, h3, h4, Nat.zero_add, show 8 + 8 * k + 4 = 12 + 8 * k by omega]

theorem tileEntries_tables (inst first : Nat) (at_ : Nat → Nat) (p : List Byte) (c : Nat) (d : Dev) :
    shadowTables (writesDone (shadowWrites at_ (tableEntries 2 inst first 4 p) c) d)
      = (d.nozSh, entriesPut (fun _ => tileReset) 0 first (fun k => BitVec.ofNat 32 (beAt p (8 + 4 * k) 4) &&& tileReset) c d.tileSh,
        d.waveSh, d.ftrimSh) := by
  refine writesDone_tables (T := fun c => (d.nozSh, entriesPut _ 0 first _ c d.tileSh, d.waveSh, d.ftrimSh)) c rfl fun k e he => ?_
  simp only [Prod.mk.injEq] at he
  obtain ⟨h1, h2, h3, h4⟩ := he
  rw [tableEntries, tableWrite_one]
  refine (shadowTables_poison (ueRewrite_poison ..)).trans ?_
  simp only [entriesPut, h1, h2, h3, h4, Nat.zero_add]

theorem waveEntries_tables (inst first : Nat) (at_ : Nat → Nat) (p : List Byte) (c : Nat) (d : Dev) :
    shadowTables (writesDone (shadowWrites at_ (tableEntries 3 inst first 4 p) c) d)
      = (d.nozSh, d.tileSh, entriesPut waveReset (inst * 512) first
          (fun k => BitVec.ofNat 32 (beAt p (8 + 4 * k) 4) &&& waveMask (first + k)) c d.waveSh, d.ftrimSh) := by
  refine writesDone_tables (T := fun c => (d.nozSh, d.tileSh, entriesPut waveReset (inst * 512) first _ c d.waveSh, d.ftrimSh)) c rfl
    fun k e he => ?_
  simp only [Prod.mk.injEq] at he
  obtain ⟨h1, h2, h3, h4⟩ := he
  rw [tableEntries, tableWrite_one]
  refine (shadowTables_poison (ueRewrite_poison ..)).trans ?_
  simp only [entriesPut, h1, h2, h3, h4]

theorem ftrimEntries_tables (inst first : Nat) (at_ : Nat → Nat) (p : List Byte) (c : Nat) (d : Dev) :
    shadowTables (writesDone (shadowWrites at_ (tableEntries 4 inst first 4 p) c) d)
      = (d.nozSh, d.tileSh, d.waveSh, entriesPut ftrimReset (inst * 256) first
          (fun k => BitVec.ofNat 32 (beAt p (8 + 4 * k) 4) &&& ftrimMask (first + k)) c d.ftrimSh) := by
  refine writesDone_tables (T := fun c => (d.nozSh, d.tileSh, d.waveSh, entriesPut ftrimReset (inst * 256) first _ c d.ftrimSh)) c rfl
    fun k e he => ?_
  simp only [Prod.mk.injEq] at he
  obtain ⟨h1, h2, h3, h4⟩ := he
  rw [tableEntries, tableWrite_one]
  simp only [ftrimShadowSet, entriesPut, h1, h2, h3, h4]

end Sys2Proof.Machine
end

section
/-! SUPPORT. O14: the messages. -/
namespace Sys2Proof.Machine

/-! ### PLAN_LOAD -/

/-- The byte offset of word `k` of a PLAN_LOAD from `off` on, in the shadow half of page 0x04. -/
abbrev planAt (off k : Nat) : Nat := 0x4800 + off + 4 * k

/-- The words of a PLAN_LOAD. -/
abbrev planWords (off : Nat) (p : List Byte) (k : Nat) : Dev → Dev := planWord (off + 4 * k) (beAt p (4 + 4 * k) 4)

theorem planWord_eq (off v : Nat) (d : Dev) : planWord off v d = d.setReg (0x4800 + off)
    ((d.reg (0x4800 + off) &&& ~~~BitVec.ofNat 32 (rwsMask (0x4000 + off))) ||| (BitVec.ofNat 32 v &&& BitVec.ofNat 32 (rwsMask (0x4000 + off)))) := by
  have haddr : 0x4000 + off + 0x800 = 0x4800 + off := by omega
  simp only [planWord, haddr]

theorem planWords_moved {off c k : Nat} (hk : k < c) (p : List Byte) (d : Dev) :
    ShadowMoved ((List.range c).map (planAt off)) d (planWords off p k d) := by
  unfold planWords
  rw [planWord_eq]
  refine (ShadowMoved.refl _ d).setReg _ (List.mem_map.mpr ⟨k, List.mem_range.mpr hk, ?_⟩)
  simp only [planAt]
  omega

/-- Each word lands in the RWS bits of its shadow, once. -/
theorem planWords_reg (off : Nat) (at_ : Nat → Nat) (p : List Byte) (c : Nat) (d : Dev) : ∀ k, k < c →
    (writesDone (shadowWrites at_ (planWords off p) c) d).reg (planAt off k)
      = (d.reg (planAt off k) &&& ~~~BitVec.ofNat 32 (rwsMask (0x4000 + off + 4 * k)))
        ||| (BitVec.ofNat 32 (beAt p (4 + 4 * k) 4) &&& BitVec.ofNat 32 (rwsMask (0x4000 + off + 4 * k))) := by
  induction c with
  | zero => intro k hk; omega
  | succ c ih =>
    intro k hk
    have hnote (e : Dev) (a : Nat) : (shadowNote e).reg a = e.reg a :=
      (ShadowMoved.note (ShadowMoved.refl [] e)).regs.reg_eq (by simp)
    have haddr : 0x4800 + (off + 4 * c) = planAt off c := by simp only [planAt]; omega
    rw [writesDone_succ, planWords, planWord_eq, haddr]
    by_cases hkc : k = c
    · subst hkc
      have hbefore : (writesDone (shadowWrites at_ (planWords off p) k) d).reg (planAt off k) = d.reg (planAt off k) :=
        (writesDone_moved d fun j hj => planWords_moved hj p).regs.reg_eq (by simp [planAt])
      rw [Dev.reg_setReg_same, hnote, hbefore, Nat.add_assoc]
    · rw [Dev.reg_setReg_ne _ _ _ _ (by simp only [planAt]; omega), hnote, ih k (by omega)]

/-- What a PLAN_LOAD of words within the page leaves alone. -/
theorem shadowCourse_plan {off c : Nat} (h : off + 4 * c ≤ 0x384) (n : Fin 16) :
    ∀ x ∈ shadowCourse n, x ∉ (List.range c).map (planAt off) := by
  have hpage : ∀ n : Fin 16, ∀ x ∈ shadowCourse n, x < 0x4800 ∨ 0x5000 ≤ x := by decide
  intro x hx hin
  obtain ⟨k, hk, rfl⟩ := List.mem_map.mp hin
  have hlt := List.mem_range.mp hk
  have := hpage n _ hx
  simp only [planAt] at this
  omega

/-- The clause of O14 about PLAN_LOAD. -/
theorem execPlanLoad_writes {dt off c : Nat} {q : Fin 2} {n : Fin 16} {seq job epoch : Word} {p : List Byte} {s : State}
    (h : BulkDue s q n seq p) (hoff : off = beAt p 0 2) (hc : c = beAt p 2 2) (hlen : p.length = 4 + 4 * c) (hpos : 0 < c)
    (h4 : off % 4 = 0) (hlow : 0x40 ≤ off) (hhigh : off + 4 * c ≤ 0x384)
    (hpermit : ∀ k, k < c → (shroudCheck s.dev mJtpBulk kindWrite (0x40004800 + off + 4 * k) false).1 = true) :
    ∃ t, execPlanLoad dt q n seq job epoch p s = .next t
      ∧ (∀ k, k < c → t.dev.reg (0x4800 + off + 4 * k)
          = (s.dev.reg (0x4800 + off + 4 * k) &&& ~~~BitVec.ofNat 32 (rwsMask (0x4000 + off + 4 * k)))
            ||| (BitVec.ofNat 32 (beAt p (4 + 4 * k) 4) &&& BitVec.ofNat 32 (rwsMask (0x4000 + off + 4 * k))))
      ∧ t.dev.get (F.RX_CUM_CUM n) = (seq.toNat + 1) % 2 ^ 32 ∧ t.dev.get (F.JOB_JOB n) = job.toNat
      ∧ RegsKept ((List.range c).map (fun k => 0x4800 + off + 4 * k) ++ jtpRegs n) s t ∧ MemKept s t := by
  have hcheck (e : Dev) : contentCheck e (plainMsg q tPlanLoad n seq.toNat job.toNat epoch.toNat p) = 0 := by
    simp only [contentCheck, plainMsg, tPlanLoad, ← hoff, ← hc]
    rw [if_neg (by omega), if_neg (by omega)]
  have hwrites (e : Dev) : bulkWrites e (plainMsg q tPlanLoad n seq.toNat job.toNat epoch.toNat p)
      = shadowWrites (fun k => 0x40004800 + off + 4 * k) (planWords off p) c := by
    simp only [bulkWrites, plainMsg, tPlanLoad, ← hoff, ← hc]
  obtain ⟨e, t, hdo, hin, hcum, hjob, -, hlater, hregs, hmem⟩ := exec_shadows (dt := dt) h (.inl rfl) (shadowCourse_plan hhigh n) hcheck hwrites
    (fun k hk d => planWords_moved hk p d) hpermit
  have hsess : ∀ n : Fin 16, ∀ x ∈ jtpRegs n, x < 0x4800 ∨ 0x5000 ≤ x := by decide
  refine ⟨t, hdo, fun k hk => ?_, hcum.trans (by rw [h.next]; rfl), hjob.trans (Nat.mod_eq_of_lt job.isLt), hregs, hmem⟩
  have hapart : planAt off k ∉ jtpRegs n := fun hin => by
    have := hsess n _ hin
    simp only [planAt] at this
    omega
  have hreg := planWords_reg off (fun k => 0x40004800 + off + 4 * k) p c e k hk
  rw [← hlater.reg_eq hapart, hin.received.regs.reg_eq hapart] at hreg
  exact hreg

/-! ### TABLE_WRITE -/

theorem shadowCourse_none (n : Fin 16) : ∀ x ∈ shadowCourse n, x ∉ ([] : List Nat) := fun _ _ => List.not_mem_nil

/-- A TABLE_WRITE that its table takes, and that Shroud permits: the shadow tables hold its entries. -/
theorem execTableWrite_writes {dt table inst insts entries words first c : Nat} {q : Fin 2} {n : Fin 16} {seq job epoch : Word}
    {p : List Byte} {s : State} (h : BulkDue s q n seq p) (htable : table = byteAt p 0) (hinst : inst = byteAt p 1)
    (hshape : tableShape table = some (insts, entries, words)) (hin : inst < insts) (hc : c = beAt p 2 2) (hfirst : first = beAt p 4 4)
    (hlen : p.length = 8 + 4 * words * c) (hfits : first + c ≤ entries) (hwords : 4 * words = if table = 1 then 8 else 4)
    (hpermit : (shroudCheck s.dev mJtpBulk kindWrite (0x40000000 + 0x1000 * tablePage table) false).1 = true) :
    ∃ t e, execTableWrite dt q n seq job epoch p s = .next t ∧ shadowTables e = shadowTables s.dev
      ∧ shadowTables t.dev = shadowTables (writesDone (shadowWrites (fun _ => 0x40000000 + 0x1000 * tablePage table)
        (tableEntries table inst first (4 * words) p) c) e)
      ∧ t.dev.get (F.RX_CUM_CUM n) = (seq.toNat + 1) % 2 ^ 32 ∧ t.dev.get (F.JOB_JOB n) = job.toNat ∧ RegsKept (jtpRegs n) s t ∧ MemKept s t := by
  have hcheck (e : Dev) : contentCheck e (plainMsg q tTableWrite n seq.toNat job.toNat epoch.toNat p) = 0 := by
    simp only [contentCheck, plainMsg, tTableWrite, ← htable, ← hinst, ← hc, ← hfirst, hshape]
    rw [if_neg (by omega), if_neg (by omega)]
  have hwrites (e : Dev) : bulkWrites e (plainMsg q tTableWrite n seq.toNat job.toNat epoch.toNat p)
      = shadowWrites (fun _ => 0x40000000 + 0x1000 * tablePage table) (tableEntries table inst first (4 * words) p) c := by
    simp only [bulkWrites, plainMsg, tTableWrite, ← htable, ← hinst, ← hc, ← hfirst, hwords]
  obtain ⟨e, t, hdo, htaken, hcum, hjob, htables, -, hregs, hmem⟩ := exec_shadows (dt := dt) h (.inr rfl) (shadowCourse_none n) hcheck hwrites
    (fun k _ d => tableWrite_moved [] table inst (first + k) p (8 + 4 * words * k) d) fun _ _ => hpermit
  obtain ⟨t1, t2, t3, t4⟩ := htables
  obtain ⟨e1, e2, e3, e4⟩ := htaken.received.tables
  refine ⟨t, e, hdo, ?_, ?_, hcum.trans (by rw [h.next]; rfl), hjob.trans (Nat.mod_eq_of_lt job.isLt), hregs, hmem⟩
  · simp only [shadowTables, e1, e2, e3, e4]
    rfl
  · simp only [shadowTables, t1, t2, t3, t4]

/-- What an entry of the table reads after entries `first` to `first + c − 1` of the instance at `base` were put. -/
theorem cellGet_instance {α : Type} [DecidableEq α] {rst : Nat → α} {size first c : Nat} (v : Nat → α) (m : Cells α) (hfits : first + c ≤ size)
    (inst j i : Nat) (hi : i < size) :
    cellGet (rst i) (entriesPut rst (inst * size) first v c m) (j * size + i)
      = if j = inst ∧ first ≤ i ∧ i < first + c then v (i - first) else cellGet (rst i) m (j * size + i) := by
  have hmod (k : Nat) (a : Nat) (hk : k < size) : (a * size + k) % size = k := by
    rw [Nat.mul_comm, Nat.mul_add_mod, Nat.mod_eq_of_lt hk]
  have hput := cellGet_entriesPut rst (inst * size) first v c m (fun x => rst (x % size)) (fun k hk => by rw [hmod k inst (by omega)]) (j * size + i)
  simp only [hmod i j hi] at hput
  have hwhere : (inst * size + first ≤ j * size + i ∧ j * size + i < inst * size + first + c) ↔ (j = inst ∧ first ≤ i ∧ i < first + c) := by
    constructor
    · rintro ⟨hlo, hhi⟩
      have hji : j = inst := by
        rcases Nat.lt_trichotomy j inst with h | h | h
        · have := Nat.mul_le_mul_right size (Nat.succ_le_of_lt h)
          rw [Nat.succ_mul] at this
          omega
        · exact h
        · have := Nat.mul_le_mul_right size (Nat.succ_le_of_lt h)
          rw [Nat.succ_mul] at this
          omega
      subst hji
      omega
    · rintro ⟨rfl, hlo, hhi⟩
      omega
  rw [hput]
  by_cases hin : j = inst ∧ first ≤ i ∧ i < first + c
  · rw [if_pos (hwhere.mpr hin), if_pos hin, hin.1]
    congr 1
    omega
  · rw [if_neg (hwhere.not.mpr hin), if_neg hin]

/-- The tables of one instance size and word size by number. -/
theorem tableShape_one {table insts entries : Nat} (h : tableShape table = some (insts, entries, 1)) :
    (table = 2 ∧ insts = 1 ∧ entries = 1048576) ∨ (table = 3 ∧ insts = 64 ∧ entries = 512) ∨ (table = 4 ∧ insts = 32 ∧ entries = 256) := by
  unfold tableShape at h
  split at h
  · simp at h
  · simp only [Option.some.injEq, Prod.mk.injEq] at h
    omega
  · simp only [Option.some.injEq, Prod.mk.injEq] at h
    omega
  · simp only [Option.some.injEq, Prod.mk.injEq] at h
    omega
  · simp at h

end Sys2Proof.Machine
end

section
/-! SUPPORT. O14: bulk messages to shadow halves. -/
namespace Sys2Proof.Machine

/-- Settles O14: PLAN_LOAD and TABLE_WRITE put their words and entries in shadow halves, and nothing else. -/
theorem bulkToShadows : Obligations.BulkToShadows := by
  unfold Obligations.BulkToShadows
  intro dt q n seq job epoch p s hready hcalm hup hp hseq hflows
  have hdue : BulkDue s q n seq p := ⟨hready, hcalm, hup, hp, hseq, hflows⟩
  refine ⟨fun off c hoff hc hlen hpos h4 hlow hhigh hpermit => execPlanLoad_writes hdue hoff hc hlen hpos h4 hlow hhigh hpermit,
    fun first c htable hinst hc hfirst hlen hfits hpermit => ?_,
    fun table inst insts first c entries htable hinst hshape hin hc hfirst hlen hfits hpermit => ?_⟩
  case refine_1 =>
    obtain ⟨t, e, hdo, he, ht, hcum, hjob, hregs, hmem⟩ := execTableWrite_writes (dt := dt) (job := job) (epoch := epoch) (words := 2) hdue
      htable.symm hinst.symm rfl one_pos hc hfirst hlen hfits rfl hpermit
    rw [nozEntries_tables] at ht
    simp only [Prod.mk.injEq] at he ht
    have hget (x : Nat) := cellGet_entriesPut (fun _ => 0) 0 first
      (fun k => nozClean (beAt p (8 + 8 * k) 4 + beAt p (12 + 8 * k) 4 * 2 ^ 32)) c e.nozSh (fun _ => 0) (fun _ _ => rfl) x
    rw [← ht.1, he.1] at hget
    refine ⟨t, hdo, fun k hk => (hget _).trans ?_, fun g hg => (hget g).trans (if_neg (by omega)), hcum, hjob, hregs, hmem⟩
    rw [if_pos (by omega), Nat.zero_add, Nat.add_sub_cancel_left]
  case refine_2 =>
    have hone := tableShape_one hshape
    obtain ⟨t, e, hdo, he, ht, hcum, hjob, hregs, hmem⟩ := execTableWrite_writes (dt := dt) (job := job) (epoch := epoch) (words := 1) hdue
      htable hinst hshape hin hc hfirst hlen hfits (by rw [if_neg (by omega)]) hpermit
    simp only [Prod.mk.injEq] at he
    obtain ⟨he1, he2, he3, he4⟩ := he
    rcases hone with ⟨rfl, -, rfl⟩ | ⟨rfl, -, rfl⟩ | ⟨rfl, -, rfl⟩
    · rw [tileEntries_tables, he1, he2, he3, he4] at ht
      simp only [Prod.mk.injEq] at ht
      obtain ⟨h1, h2, h3, h4⟩ := ht
      refine ⟨t, hdo, h1, fun a => ?_, fun j i _ => ?_, fun j i _ => ?_, hcum, hjob, hregs, hmem⟩
      · rw [h2, cellGet_entriesPut (fun _ => tileReset) 0 first _ c s.dev.tileSh (fun _ => tileReset) (fun _ _ => rfl) a]
        simp
      · unfold waveShadow
        rw [h3, if_neg (by simp)]
      · rw [h4, if_neg (by simp)]
    · rw [waveEntries_tables, he1, he2, he3, he4] at ht
      simp only [Prod.mk.injEq] at ht
      obtain ⟨h1, h2, h3, h4⟩ := ht
      refine ⟨t, hdo, h1, fun a => ?_, fun j i hi => ?_, fun j i _ => ?_, hcum, hjob, hregs, hmem⟩
      · rw [h2, if_neg (by simp)]
      · unfold waveShadow
        rw [h3, cellGet_instance _ _ hfits inst j i hi]
        by_cases h : j = inst ∧ first ≤ i ∧ i < first + c
        · rw [if_pos h, if_pos ⟨rfl, h⟩, Nat.add_sub_cancel' h.2.1]
        · rw [if_neg h, if_neg fun g => h g.2]
      · rw [h4, if_neg (by simp)]
    · rw [ftrimEntries_tables, he1, he2, he3, he4] at ht
      simp only [Prod.mk.injEq] at ht
      obtain ⟨h1, h2, h3, h4⟩ := ht
      refine ⟨t, hdo, h1, fun a => ?_, fun j i _ => ?_, fun j i hi => ?_, hcum, hjob, hregs, hmem⟩
      · rw [h2, if_neg (by simp)]
      · unfold waveShadow
        rw [h3, if_neg (by simp)]
      · rw [h4, Nat.mul_comm 256 j, cellGet_instance _ _ hfits inst j i hi]
        by_cases h : j = inst ∧ first ≤ i ∧ i < first + c
        · rw [if_pos h, if_pos ⟨rfl, h⟩, Nat.add_sub_cancel' h.2.1]
        · rw [if_neg h, if_neg fun g => h g.2]

end Sys2Proof.Machine
end

section
/-! SUPPORT. O17: feedback of the RIP (R112, R114, R116, R118). -/
namespace Sys2Proof.Machine

/-! ### A fresh message of the feedback space -/

/-- The block that has noted feedback message `m`: its port, and its counter (R93, R112). -/
def fedMark (m : JtpMsg) (d : Dev) : Dev :=
  let d := noteCopy m.session (m.seq + 2 ^ 32) m.port d
  d.setSess m.session { d.sess m.session with fbRx := some m.seq }

theorem fedMark_received (m : JtpMsg) (d : Dev) : Received m.session [] d (fedMark m d) :=
  ((Received.refl m.session [] d).setSess _).setSess _

theorem fedMark_sess (m : JtpMsg) (d : Dev) :
    ∃ c, (fedMark m d).sess m.session = { d.sess m.session with copies := c, fbRx := some m.seq } := by
  unfold fedMark noteCopy
  simp only [Dev.sess_setSess_same]
  exact ⟨_, rfl⟩

/-- What a message of the feedback space, other than HELLO, comes to once it has been noted. -/
def feedbackContent (m : JtpMsg) (d : Dev) : Dev :=
  let p := m.payload
  match m.type with
  | 0x07 => peerFeedback m.session (beAt p 0 4) (beAt p 4 8) (beAt p 12 4) none d
  | 0x08 => peerFeedback m.session (beAt p 0 4) (beAt p 4 8) (beAt p 12 4) (if byteAt p 16 = 1 then some (beAt p 20 4) else none) d
  | 0x09 => peerFeedback m.session (beAt p 0 4) (shiftedMap (d.sess m.session) (beAt p 0 4)) (beAt p 4 4) none d
  | _ => vencAccept p d

/-- `FreshFeedback` of the session. -/
structure Fresh (x : Sess) (m : JtpMsg) : Prop where
  counter : ∀ c ∈ x.fbRx, follows m.seq c = true
  copy : secondCopy x (m.seq + 2 ^ 32) m.port = false

theorem feedbackRx_fresh {m : JtpMsg} {d : Dev} (h : Fresh (d.sess m.session) m) (ht : m.type ≠ tHello)
    (hlen : m.payload.length = if m.type = tCredit then 8 else if m.type = tPosition then 32 else 24) :
    feedbackRx m d = feedbackContent m (fedMark m d) := by
  have hlen' : ¬ m.payload.length ≠ if m.type = tHello then 28 else if m.type = tCredit then 8 else if m.type = tPosition then 32 else 24 := by
    rw [if_neg ht, ← hlen]
    exact not_not.mpr rfl
  unfold feedbackRx
  cases hc : (d.sess m.session).fbRx with
  | none =>
    simp only [hc, h.copy, Bool.or_false, Bool.false_eq_true, if_false]
    rw [if_neg hlen', if_neg ht]
    rfl
  | some c =>
    have hnext := h.counter c (by rw [hc]; rfl)
    simp only [hc, hnext, h.copy, Bool.not_true, Bool.and_false, Bool.or_false, Bool.false_eq_true, if_false]
    rw [if_neg hlen', if_neg ht]
    rfl

/-! ### ACK, NAK and CREDIT -/

theorem forL_releaseRecords {l : List SentMsg} {d : Dev} (h : ∀ m ∈ l, m.type ≠ tVerdict ∧ m.type ≠ tPrintLog) :
    forL l releaseRecords d = d := by
  induction l with
  | nil => rfl
  | cons m l ih =>
    obtain ⟨hv, hp⟩ := h m List.mem_cons_self
    have hm : releaseRecords m d = d := by
      unfold releaseRecords
      rw [if_neg hv, if_neg hp]
    unfold forL at ih ⊢
    rw [List.foldl_cons, hm]
    exact ih fun x hx => h x (List.mem_cons_of_mem _ hx)

/-- The session with what the RIP reports taken, and what CUM has passed gone from the window. -/
def reported (n cum map credit : Nat) (d : Dev) : Dev :=
  d.setSess n { d.sess n with
    peerCum := cum, peerMap := map, credit := credit, sent := (d.sess n).sent.filter (fun m => !precedes m.seq cum) }

/-- The messages of session `n` that the report shows missing and that may go again. -/
def missingMsgs (n cum map : Nat) (bad : Option Nat) (d : Dev) : List SentMsg :=
  ((outstanding (d.sess n)).filter (fun m =>
    decide ((m.seq + 2 ^ 32 - cum) % 2 ^ 32 < map.log2 + (if map = 0 then 0 else 1)) || bad == some m.seq)).filter (mayAgain d)

theorem peerFeedback_plain {n cum map credit : Nat} {bad : Option Nat} {d : Dev}
    (h : ∀ m ∈ (d.sess n).sent, m.type ≠ tVerdict ∧ m.type ≠ tPrintLog) :
    peerFeedback n cum map credit bad d
      = forL (missingMsgs n cum map bad (reported n cum map credit d)) (resend n) (reported n cum map credit d) := by
  unfold peerFeedback
  simp only
  rw [forL_releaseRecords fun m hm => h m (List.mem_of_mem_filter hm)]
  rfl

/-- A bit at or above `o` is set just when `o` is below the number of bits of the map. -/
theorem exists_bit_iff (map o : Nat) : (∃ j, o ≤ j ∧ bit map j = true) ↔ o < map.log2 + (if map = 0 then 0 else 1) := by
  unfold bit
  by_cases h0 : map = 0
  · simp [h0]
  · rw [if_neg h0]
    constructor
    · rintro ⟨j, hj, hbit⟩
      have hlog := (Nat.le_log2 h0).mpr (Nat.ge_two_pow_of_testBit hbit)
      omega
    · intro h
      exact ⟨map.log2, by omega, Nat.testBit_log2 h0⟩

/-- Message `m`, last sent again at `m.again`, may go again at `now` (R118). -/
abbrev MayAgain (rto now : Nat) (m : SentMsg) : Prop := ∀ a, m.again = some a → a + rto * 1000 ≤ now

theorem mayAgain_iff (d : Dev) (m : SentMsg) : mayAgain d m = true ↔ MayAgain (d.get F.JTP_RTO_RTO) d.now m := by
  unfold mayAgain MayAgain
  cases m.again with
  | none => simp
  | some a => simp

/-- What `ShownMissing` means of the messages that are still in the window. -/
theorem mem_missingMsgs {n cum map credit : Nat} {bad : Option Nat} {d : Dev} {m : SentMsg} :
    m ∈ missingMsgs n cum map bad (reported n cum map credit d) ↔ (m ∈ (d.sess n).sent ∧ precedes m.seq cum = false)
      ∧ ShownMissing cum map bad m ∧ MayAgain (d.get F.JTP_RTO_RTO) d.now m := by
  have hmark (x : Sess) (hc : x.peerCum = cum) (hm : x.peerMap = map) : marked x m.seq = false
      ↔ ¬(∃ i, i < 64 ∧ (m.seq + 2 ^ 32 - cum) % 2 ^ 32 = i + 1 ∧ bit map i = true) := by
    unfold marked
    rw [hc, hm, ← Bool.not_eq_true]
    refine not_congr ?_
    simp only [Bool.and_eq_true, decide_eq_true_eq]
    constructor
    · rintro ⟨⟨h1, h64⟩, hbit⟩
      exact ⟨_, by omega, by omega, hbit⟩
    · rintro ⟨i, hi, ho, hbit⟩
      rw [ho]
      exact ⟨⟨by omega, by omega⟩, by simpa using hbit⟩
  have hsess : (reported n cum map credit d).sess n = { d.sess n with
      peerCum := cum, peerMap := map, credit := credit, sent := (d.sess n).sent.filter (fun m => !precedes m.seq cum) } :=
    Dev.sess_setSess_same ..
  unfold missingMsgs outstanding
  rw [List.mem_filter, List.mem_filter, List.mem_filter, mayAgain_iff, hsess]
  simp only [List.mem_filter, Bool.not_eq_true', Bool.or_eq_true, decide_eq_true_eq, beq_iff_eq,
    hmark { d.sess n with peerCum := cum, peerMap := map, credit := credit, sent := (d.sess n).sent.filter (fun m => !precedes m.seq cum) } rfl rfl,
    ← exists_bit_iff]
  constructor
  · rintro ⟨⟨⟨hin, hmarked⟩, hmissing⟩, hagain⟩
    exact ⟨hin, ⟨hmarked, hmissing⟩, hagain⟩
  · rintro ⟨hin, ⟨hmarked, hmissing⟩, hagain⟩
    exact ⟨⟨⟨hin, hmarked⟩, hmissing⟩, hagain⟩

/-- Session `y` is `x` once it has taken the report (R114, R116, R118). -/
structure ReportTaken (x y : Sess) (cum map credit : Nat) (bad : Option Nat) (rto now : Nat) : Prop where
  fbRx : y.fbRx = x.fbRx
  cumTaken : y.peerCum = cum
  mapTaken : y.peerMap = map
  creditTaken : y.credit = credit
  again : ∀ m ∈ x.sent, precedes m.seq cum = false → ShownMissing cum map bad m → MayAgain rto now m → m.goneAgain now ∈ y.sent
  stays : ∀ m ∈ x.sent, precedes m.seq cum = false → ¬(ShownMissing cum map bad m ∧ MayAgain rto now m) → m ∈ y.sent
  only : ∀ z ∈ y.sent, ∃ m ∈ x.sent, precedes m.seq cum = false ∧ z.seq = m.seq ∧ z.bytes = m.bytes

theorem peerFeedback_taken {n cum map credit : Nat} {bad : Option Nat} {d : Dev}
    (htypes : ∀ m ∈ (d.sess n).sent, m.type ≠ tVerdict ∧ m.type ≠ tPrintLog) (hseq : (d.sess n).sent.Pairwise (fun x y => x.seq ≠ y.seq)) :
    Spoken [] d (peerFeedback n cum map credit bad d)
      ∧ ReportTaken (d.sess n) ((peerFeedback n cum map credit bad d).sess n) cum map credit bad (d.get F.JTP_RTO_RTO) d.now := by
  have hreport : Spoken [] d (reported n cum map credit d) := (Spoken.refl [] d).setSess n rfl
  obtain ⟨hspoken, hsess⟩ := forL_resend n (missingMsgs n cum map bad (reported n cum map credit d)) (reported n cum map credit d)
  rw [← peerFeedback_plain htypes] at hspoken hsess
  have hx : (reported n cum map credit d).sess n = { d.sess n with
      peerCum := cum, peerMap := map, credit := credit, sent := (d.sess n).sent.filter (fun m => !precedes m.seq cum) } :=
    Dev.sess_setSess_same ..
  have hnow : (reported n cum map credit d).now = d.now := rfl
  rw [hx, hnow] at hsess
  generalize hqs : (missingMsgs n cum map bad (reported n cum map credit d)).map SentMsg.seq = qs at hsess
  generalize peerFeedback n cum map credit bad d = e at hspoken hsess
  have hdue (m : SentMsg) (hm : m ∈ (d.sess n).sent) (hp : precedes m.seq cum = false) :
      m.seq ∈ qs ↔ ShownMissing cum map bad m ∧ MayAgain (d.get F.JTP_RTO_RTO) d.now m := by
    rw [← hqs]
    refine ⟨fun h => ?_, fun h => List.mem_map_of_mem (mem_missingMsgs.mpr ⟨⟨hm, hp⟩, h⟩)⟩
    obtain ⟨x, hx, hxm⟩ := List.mem_map.1 h
    obtain ⟨⟨hxs, -⟩, hshown⟩ := mem_missingMsgs.1 hx
    exact List.inj_on_of_nodup_map (List.pairwise_map.2 hseq) hxs hm hxm ▸ hshown
  have hsent : (e.sess n).sent = ((d.sess n).sent.filter (fun m => !precedes m.seq cum)).map (sentAgain d.now qs) := by rw [hsess]
  have hin {m : SentMsg} (hm : m ∈ (d.sess n).sent) (hp : precedes m.seq cum = false) : sentAgain d.now qs m ∈ (e.sess n).sent := by
    rw [hsent]
    exact List.mem_map_of_mem (List.mem_filter.mpr ⟨hm, by rw [hp]; rfl⟩)
  refine ⟨hreport.trans hspoken, ⟨by rw [hsess], by rw [hsess], by rw [hsess], by rw [hsess], fun m hm hp hshown hmay => ?_,
    fun m hm hp hnot => ?_, fun z hz => ?_⟩⟩
  · have := hin hm hp
    rwa [sentAgain, if_pos ((hdue m hm hp).mpr ⟨hshown, hmay⟩)] at this
  · have := hin hm hp
    rwa [sentAgain, if_neg fun h => hnot ((hdue m hm hp).mp h)] at this
  · rw [hsent] at hz
    obtain ⟨m, hm, rfl⟩ := List.mem_map.mp hz
    obtain ⟨hm, hp⟩ := List.mem_filter.mp hm
    refine ⟨m, hm, by simpa using hp, ?_⟩
    unfold sentAgain
    split
    · exact ⟨rfl, rfl⟩
    · exact ⟨rfl, rfl⟩

/-! ### The message -/

/-- The block that has noted feedback message `m` of its session, as it came in by port `q`. -/
abbrev feedbackIn (q : Nat) (m : JtpMsg) (d : Dev) : Dev := fedMark m (noticedAt q m d)

theorem feedbackIn_received (q : Nat) (m : JtpMsg) (d : Dev) : Received m.session noticeRegs d (feedbackIn q m d) :=
  .trans (.of_noted (((drillHeard_noted q d).mono (by simp)).trans (noticed_noted m _))) ((fedMark_received m _).mono (by simp))

theorem feedbackIn_sess (q : Nat) (m : JtpMsg) (d : Dev) :
    ∃ c, (feedbackIn q m d).sess m.session = { d.sess m.session with copies := c, fbRx := some m.seq } := by
  obtain ⟨c, hc⟩ := fedMark_sess m (noticedAt q m d)
  exact ⟨c, hc.trans (by rw [(noticed_noted m _).sess, (drillHeard_noted q d).sess])⟩

/-- A fresh feedback message of a calm session is noted, and does what its content says. -/
theorem jtpMessage_feedback {q t seq job epoch : Nat} {p : List Byte} {d : Dev} {n : Fin 16} (h : CalmOpen d n) (hup : ethUp d q = true)
    (hfresh : Fresh (d.sess n) (plainMsg q t n seq job epoch p)) (ht : isFeedback t = true ∧ t ≠ tHello ∧ t ≠ tPosition)
    (hlen : p.length = if t = tCredit then 8 else 24) :
    jtpMessage q t n seq job epoch p d
      = feedbackContent (plainMsg q t n seq job epoch p) (feedbackIn q (plainMsg q t n seq job epoch p) d) := by
  obtain ⟨hfb, hhello, hpos⟩ := ht
  have hshort : p.length ≤ 9216 := by
    rw [hlen]
    split <;> omega
  have hfresh' : Fresh ((noticedAt q (plainMsg q t n seq job epoch p) d).sess n) (plainMsg q t n seq job epoch p) := by
    rwa [noticedAt, (noticed_noted _ _).sess, (drillHeard_noted q d).sess]
  have hlen' : p.length = if t = tCredit then 8 else if t = tPosition then 32 else 24 := by rwa [if_neg hpos]
  rw [jtpMessage_calm h hup hshort hpos, if_pos hfb]
  exact feedbackRx_fresh (m := plainMsg q t n seq job epoch p) hfresh' hhello hlen'

section
variable {dt : Nat} {q : Fin 2} {n : Fin 16} {seq job epoch : Word} {p : List Byte} {s : State}

/-- `FreshFeedback` of the message that arrives. -/
theorem Fresh.of_message (t : Nat) (job epoch : Nat) (p : List Byte) (h : FreshFeedback s n q seq.toNat) :
    Fresh (s.dev.sess n) (plainMsg q t n seq.toNat job epoch p) := by
  obtain ⟨hcounter, hcopy⟩ := h
  have hmod : (plainMsg q t n seq.toNat job epoch p).seq = seq.toNat := Nat.mod_eq_of_lt seq.isLt
  refine ⟨fun c hc => ?_, ?_⟩
  · rw [hmod]; exact hcounter c hc
  · rw [hmod]; exact hcopy

/-- ACK, NAK or CREDIT: a fresh feedback message whose content is a report. -/
theorem perform_reported {t cum map credit : Nat} {bad : Option Nat} (hready : Ready s) (hup : ethUp s.dev q = true)
    (hcalm : CalmSession s n) (hfresh : FreshFeedback s n q seq.toNat)
    (htypes : ∀ m ∈ (s.dev.sess n).sent, m.type ≠ tVerdict ∧ m.type ≠ tPrintLog)
    (hseqs : (s.dev.sess n).sent.Pairwise (fun x y => x.seq ≠ y.seq))
    (ht : isFeedback t = true ∧ t ≠ tHello ∧ t ≠ tPosition) (hlen : p.length = if t = tCredit then 8 else 24)
    (hcontent : ∀ e : Dev, (e.sess n).peerCum = (s.dev.sess n).peerCum → (e.sess n).peerMap = (s.dev.sess n).peerMap →
      feedbackContent (plainMsg q t n seq.toNat job.toNat epoch.toNat p) e = peerFeedback n cum map credit bad e) :
    ∃ u, perform dt s (fun d => afterCommand (jtpMessage q t n seq.toNat job.toNat epoch.toNat p d)) = .next u
      ∧ (u.dev.sess n).fbRx = some seq.toNat ∧ FeedbackTaken s u n cum map credit bad (s.dev.now + dt)
      ∧ RegsKept [R.PATH_STAT, R.PATH_DRILL_CNT] s u ∧ MemKept s u := by
  have hmod : (plainMsg q t n seq.toNat job.toNat epoch.toNat p).seq = seq.toNat := Nat.mod_eq_of_lt seq.isLt
  have hgo := jtpMessage_feedback (d := s.dev.elapse dt) (job := job.toNat) (epoch := epoch.toNat) (.of_calm hcalm dt) hup
    (Fresh.of_message t job.toNat epoch.toNat p hfresh) ht hlen
  have hrec := feedbackIn_received q (plainMsg q t n seq.toNat job.toNat epoch.toNat p) (s.dev.elapse dt)
  obtain ⟨c, hsess⟩ := feedbackIn_sess q (plainMsg q t n seq.toNat job.toNat epoch.toNat p) (s.dev.elapse dt)
  rw [hmod] at hsess
  generalize feedbackIn q (plainMsg q t n seq.toNat job.toNat epoch.toNat p) (s.dev.elapse dt) = e at hgo hrec hsess
  change e.sess n = { s.dev.sess n with copies := c, fbRx := some seq.toNat } at hsess
  rw [hcontent e (by rw [hsess]) (by rw [hsess])] at hgo
  obtain ⟨hspoken, htaken⟩ := peerFeedback_taken (n := n) (cum := cum) (map := map) (credit := credit) (bad := bad) (d := e)
    (by rwa [hsess]) (by rwa [hsess])
  have htalk : Talked noticeRegs (s.dev.elapse dt) (peerFeedback n cum map credit bad e) :=
    (hrec.talked (by show (e.sess n).todo = _; rw [hsess]; rfl)).trans ((Talked.of_spoken hspoken).mono (by simp))
  obtain ⟨hnext, hregs, hmem⟩ := perform_still hready hgo htalk (by decide) (hspoken.banks.trans hrec.banks)
    (hspoken.dram.trans hrec.dram) (hspoken.l2.trans hrec.l2)
  rw [hsess, show e.now = s.dev.now + dt from hrec.now,
    show e.get F.JTP_RTO_RTO = s.dev.get F.JTP_RTO_RTO from hrec.regs.get_eq (by decide)] at htaken
  obtain ⟨hfb, hcum, hmap, hcredit, hagain, hstays, honly⟩ := htaken
  refine ⟨_, hnext, hfb, ⟨hcum, hmap, hcredit, fun m hm hp => ⟨hagain m hm hp, fun hnot => hstays m hm hp ?_⟩, honly⟩, hregs, hmem⟩
  rintro ⟨hshown, hmay⟩
  obtain hnot | ⟨a, ha, hlate⟩ := hnot
  · exact hnot hshown
  · have := hmay a ha
    omega
end

end Sys2Proof.Machine
end

section
/-! SUPPORT. O17: a position sample of session 0 (R60, R136), and the statement. -/
namespace Sys2Proof.Machine

/-- The registers that a fresh POSITION changes. -/
abbrev positionRegs : List Nat := [R.VENC_STAT, R.PATH_DRILL_CNT]

/-- A POSITION is no control message: the engines note no more than that their port hears it (R103). -/
theorem noticedAt_position (q seq job epoch : Nat) (p : List Byte) (d : Dev) :
    noticedAt q (plainMsg q tPosition 0 seq job epoch p) d = drillHeard q (drillHeard q d) := by
  unfold noticedAt noticed
  exact if_neg (by decide : ¬isControl tPosition = true)

theorem jtpInput_position {m : JtpMsg} {d : Dev} (hs : m.session = 0) (ht : m.type = tPosition) : jtpInput m d = feedbackRx m (noticed m d) := by
  have hfb : isFeedback m.type = true := by rw [ht]; decide
  unfold jtpInput noticed
  simp only [hs, ht, if_true, ne_eq, not_true_eq_false, if_false]
  rw [← ht, if_pos hfb]

/-- A fresh POSITION is noted, and taken as a sample. -/
theorem jtpMessage_position {q seq job epoch : Nat} {p : List Byte} {d : Dev} (hen : d.get (F.PG_CTL_EN 0x0D) = 1)
    (hresume : d.path.resume = none) (hcfg : d.get (F.SESS_CFG_EN 0) = 1) (hauth : d.get (F.SESS_CFG_AUTH_REQ 0) = 0)
    (hup : ethUp d q = true) (hfresh : Fresh (d.sess 0) (plainMsg q tPosition 0 seq job epoch p)) (hlen : p.length = 32) :
    jtpMessage q tPosition 0 seq job epoch p d = vencAccept p (feedbackIn q (plainMsg q tPosition 0 seq job epoch p) d) := by
  have hfresh' : Fresh ((noticedAt q (plainMsg q tPosition 0 seq job epoch p) d).sess 0) (plainMsg q tPosition 0 seq job epoch p) := by
    rwa [noticedAt, (noticed_noted _ _).sess, (drillHeard_noted q d).sess]
  refine (jtpMessage_plain (n := 0) hen hresume hcfg hauth hup (by omega)).trans ((jtpInput_position rfl rfl).trans ?_)
  exact feedbackRx_fresh (m := plainMsg q tPosition 0 seq job epoch p) hfresh' (by decide : tPosition ≠ tHello) hlen

theorem positionIn_received (q seq job epoch : Nat) (p : List Byte) (d : Dev) :
    Received 0 [R.PATH_DRILL_CNT] d (feedbackIn q (plainMsg q tPosition 0 seq job epoch p) d) := by
  refine .trans (e := noticedAt q (plainMsg q tPosition 0 seq job epoch p) d) ?_
    ((fedMark_received (plainMsg q tPosition 0 seq job epoch p) _).mono (by simp))
  rw [noticedAt_position]
  exact .of_noted ((drillHeard_noted q d).trans (drillHeard_noted q _))

/-- JTP's note of a message leaves the position side as it is. -/
theorem Received.venc {n : Nat} {l : List Nat} {d e : Dev} (h : Received n l d e) :
    e.vencSeqs = d.vencSeqs ∧ e.rejectPts = d.rejectPts := by
  obtain ⟨⟨_, _, _, _, _, _, _, rfl⟩, -⟩ := h
  exact ⟨rfl, rfl⟩

/-- The clause of O17 about POSITION. -/
theorem execPosition_taken {dt : Nat} {q : Fin 2} {seq job epoch : Word} {p : List Byte} {s : State} (hready : Ready s)
    (hup : ethUp s.dev q = true) (ha : PositionAlone s) (hen : s.dev.get (F.PG_CTL_EN 0x0D) = 1) (hresume : s.dev.path.resume = none)
    (hcfg : s.dev.get (F.SESS_CFG_EN 0) = 1) (hauth : s.dev.get (F.SESS_CFG_AUTH_REQ 0) = 0) (hfresh : FreshFeedback s 0 q seq.toNat)
    (hlen : p.length = 32) (hfmt : byteAt p 0 = 1) (hsrc : s.dev.get F.TIME_CTL_SRC = 0) (hdom : byteAt p 2 = activeDomain s.dev)
    (hnew : s.dev.vencSeqs.contains (beAt p 4 4) = false) :
    ∃ t, execPosition dt q 0 seq job epoch p s = .next t ∧ (∃ e, t.dev.venc = some (sampleOf p e))
      ∧ t.dev.get F.VENC_STAT_LOST = 0 ∧ (t.dev.sess 0).fbRx = some seq.toNat
      ∧ RegsKept [R.VENC_STAT, R.PATH_DRILL_CNT] s t ∧ MemKept s t := by
  have hmod : (plainMsg q tPosition 0 seq.toNat job.toNat epoch.toNat p).seq = seq.toNat := Nat.mod_eq_of_lt seq.isLt
  have hgo := jtpMessage_position (d := vencUpTo dt s.dev) (job := job.toNat) (epoch := epoch.toNat) hen hresume hcfg hauth hup
    (Fresh.of_message (n := 0) tPosition job.toNat epoch.toNat p hfresh) hlen
  have hrec := positionIn_received q seq.toNat job.toNat epoch.toNat p (vencUpTo dt s.dev)
  obtain ⟨c, hsess⟩ := feedbackIn_sess q (plainMsg q tPosition 0 seq.toNat job.toNat epoch.toNat p) (vencUpTo dt s.dev)
  rw [hmod] at hsess
  generalize feedbackIn q (plainMsg q tPosition 0 seq.toNat job.toNat epoch.toNat p) (vencUpTo dt s.dev) = e at hgo hrec hsess
  change e.sess 0 = { s.dev.sess 0 with copies := c, fbRx := some seq.toNat } at hsess
  obtain ⟨hseqs, hpts⟩ := hrec.venc
  have hdoms (k : Nat) (hk : k ≤ 1) : R.TIME_DOM_CFG k ∉ [R.PATH_DRILL_CNT] := by
    obtain rfl | rfl : k = 0 ∨ k = 1 := by omega
    · decide
    · decide
  have hactive : e.get (F.TIME_DOM_STAT_ACTIVE 1) = s.dev.get (F.TIME_DOM_STAT_ACTIVE 1) := hrec.regs.get_eq (by decide)
  have hdom' : byteAt p 2 = activeDomain e := by
    rw [hdom, activeDomain, activeDomain, hactive]
    exact (hrec.regs.get_eq (g := F.TIME_DOM_CFG_DOMAIN _)
      (hdoms _ (Nat.le_of_lt_succ (Dev.get_lt s.dev (F.TIME_DOM_STAT_ACTIVE 1))))).symm
  have haccept := vencAccept_known (d := e) (bs := p) (Alone.of_kept (d := vencUpTo dt s.dev) ha hrec.regs hpts (by decide))
    ((hrec.regs.get_eq (g := F.TIME_CTL_SRC) (by decide)).trans hsrc) hlen hfmt (by rw [hseqs]; exact hnew) (.inl hdom')
  rw [haccept] at hgo
  have hcalm := sampleTaken_calm p e
  have hplan : (sampleTaken p e).planActive = false :=
    (hcalm.regs.getB_eq (g := F.PLAN_CHK_ACTIVE) (by decide)).trans ((hrec.regs.getB_eq (g := F.PLAN_CHK_ACTIVE) (by decide)).trans ha.1)
  have htalk : Talked positionRegs (s.dev.elapse dt) (sampleTaken p e) :=
    ((Talked.of_calm (vencAt_calm (s.dev.elapse dt) _)).mono (by simp)).trans
      (((hrec.talked (by rw [hsess]; rfl)).mono (by simp)).trans ((Talked.of_calm hcalm).mono (by simp)))
  have heffect : camsFollow (jtpMessage q tPosition 0 seq.toNat job.toNat epoch.toNat p (vencRun (s.dev.elapse dt))) = sampleTaken p e := by
    rw [vencRun_alone ha, hgo, camsFollow_noPlan hplan]
  obtain ⟨hnext, hregs, hmem⟩ := perform_still
    (f := fun d => camsFollow (jtpMessage q tPosition 0 seq.toNat job.toNat epoch.toNat p (vencRun d))) hready heffect htalk (by decide)
    (hcalm.banks.trans hrec.banks) (hcalm.dram.trans hrec.dram) (hcalm.l2.trans hrec.l2)
  refine ⟨_, hnext, ⟨e, (State.after_venc ..).trans (sampleTaken_venc _ _)⟩, (State.after_get ..).trans (sampleTaken_get p e).1, ?_, hregs, hmem⟩
  have hkept : (sampleTaken p e).sess 0 = e.sess 0 := by
    unfold Dev.sess
    rw [hcalm.sess]
  exact (congrArg Sess.fbRx (hkept.trans hsess)).trans rfl

/-- Settles O17: a fresh feedback message is noted and does what its content says; a report releases what CUM has passed and resends what
is due, and a POSITION is a sample of its domain. -/
theorem feedbackMessages : Obligations.FeedbackMessages := by
  unfold Obligations.FeedbackMessages
  intro dt q n seq job epoch p s hready hup
  refine ⟨fun hcalm hfresh htypes hseqs => ⟨fun hlen => ⟨?_, ?_⟩, fun o hlen ho => ?_⟩, ?_⟩
  · exact perform_reported hready hup hcalm hfresh htypes hseqs (t := tAck) (by decide) hlen fun _ _ _ => rfl
  · exact perform_reported hready hup hcalm hfresh htypes hseqs (t := tNak) (by decide) hlen fun _ _ _ => rfl
  · refine perform_reported hready hup hcalm hfresh htypes hseqs (t := tCredit) (by decide) hlen fun e hcum hmap => ?_
    have hshift : shiftedMap (e.sess n) (beAt p 0 4) = if o < 65 then (s.dev.sess n).peerMap / 2 ^ o else 0 := by
      unfold shiftedMap
      rw [hcum, hmap, ho]
    exact congrArg (fun map => peerFeedback n (beAt p 0 4) map (beAt p 4 4) none e) hshift
  · intro ha hen hresume hcfg hauth hfresh hlen hfmt hsrc hdom hnew
    obtain ⟨t, hnext, ⟨e, hvenc⟩, hlost, hfb, hregs, hmem⟩ :=
      execPosition_taken (dt := dt) (job := job) (epoch := epoch) hready hup ha hen hresume hcfg hauth hfresh hlen hfmt hsrc hdom hnew
    exact ⟨t, _, hnext, hvenc, rfl, rfl, rfl, rfl, hlost, hfb, hregs, hmem⟩

end Sys2Proof.Machine
end

section
/-! SUPPORT. A register request of the RIP (R131): the message waits in its session, the end of the command performs it. -/
namespace Sys2Proof.Machine

/-! ### What the access of a request changes -/

/-- `e` is `d` after an access on the bus that changes registers of `l` and nothing that JTP, the paths or the plan hold. -/
structure Accessed (l : List Nat) (d e : Dev) : Prop where
  talked : Talked l d e
  jtp : e.jtp = d.jtp
  planJob : e.planJob = d.planJob

/-- The registers that a request and its answer depend on. -/
abbrev requestRegs (n : Nat) : List Nat := endRegs ++ [R.RX_CUM n, R.JOB n, R.PATH_STAT] ++ sendRegs n

namespace Accessed
variable {l : List Nat} {d e f : Dev}

theorem refl (l : List Nat) (d : Dev) : Accessed l d d := ⟨⟨.refl l d, fun _ => rfl, rfl, rfl, rfl⟩, rfl, rfl⟩

theorem sess (h : Accessed l d e) (n : Nat) : e.sess n = d.sess n := by unfold Dev.sess; rw [h.jtp]

theorem sends {n : Nat} (h : Accessed l d e) (hl : ∀ a ∈ requestRegs n, a ∉ l) : SameSends n d e where
  regs := fun a ha => h.talked.regs.reg_eq (hl a (List.mem_append_right _ ha))
  active := h.talked.regs.get_eq (g := F.PATH_STAT_ACTIVE) (hl _ (by simp))
  planJob := h.planJob
  window := by
    rw [h.sess]
    exact ⟨rfl, rfl, rfl, rfl, rfl, rfl, rfl⟩

theorem of_put {a : Nat} {bs : List Byte} (h : MemPut a bs d e) : Accessed memRegs d e := ⟨h.talked, h.jtp, h.planJob⟩

theorem of_touch (h : DramTouch d e) : Accessed memRegs d e := by
  refine ⟨.of_touch h, ?_, ?_⟩
  · obtain ⟨⟨_, _, _, _, _, _, _, ht⟩, -⟩ := h
    rw [ht]
  · obtain ⟨⟨_, _, _, _, _, _, _, ht⟩, -⟩ := h
    rw [ht]
end Accessed

/-! ### The message waits -/

/-- A register request of a calm session waits at its head, accepted. -/
theorem jtpMessage_waits {q t seq job epoch : Nat} {p : List Byte} {d : Dev} {n : Fin 16} (h : CalmOpen d n) (hup : ethUp d q = true)
    (hlen : p.length ≤ 9216) (ht : t = tRegRead ∨ t = tRegWrite) (hseq : seq = d.get (F.RX_CUM_CUM n))
    (hcheck : ∀ e, Kept (jtpRegs n) d e → contentCheck e (plainMsg q t n seq job epoch p) = 0) :
    Due n seq job d (popped n (jtpMessage q t n seq job epoch p d))
      ∧ Received n (jtpRegs n) d (jtpMessage q t n seq job epoch p d)
      ∧ ((jtpMessage q t n seq job epoch p d).sess n).todo = [plainMsg q t n seq job epoch p]
      ∧ ((jtpMessage q t n seq job epoch p d).sess n).held = [] := by
  have hmod : seq % 2 ^ 32 = seq := Nat.mod_eq_of_lt (hseq ▸ Dev.get_lt _ (F.RX_CUM_CUM n))
  have hkind : isControl t = true ∧ isFeedback t = false ∧ isBulk t = false ∧ t ≠ tPosition ∧ t ≠ tCopyOrder := by
    obtain rfl | rfl := ht
    · decide
    · decide
  have hwait (e : Dev) : mustWait e (plainMsg q t n seq job epoch p) = true := by
    unfold mustWait
    obtain rfl | rfl := ht
    · simp [plainMsg]
    · simp [plainMsg]
  obtain ⟨e, ⟨hrec, hcum, hjob, htodo, hheld, hwindow⟩, hgo⟩ := jtpMessage_accepted (job := job) (epoch := epoch) h hup hlen hkind hseq hcheck
  have hwaits : sessWork n e = credited n e := sessWork_waits hheld htodo (hwait e)
  rw [hgo, hwaits]
  have hauth : e.get (F.SESS_CFG_AUTH_REQ n) = 0 := (hrec.regs.get_eq (sendRegs_apart n).2).trans h.plain.auth
  have hfed := credited_fed hauth
  obtain ⟨htodo', hheld', -⟩ := hfed.keeps
  have hrec' := hrec.trans (hfed.received.mono (by simp))
  refine ⟨⟨hrec'.trans ((popped_received n _).mono (by simp)), ?_, ?_, by rw [popped_sess], ?_⟩, hrec', htodo'.trans htodo, hheld'.trans hheld⟩
  · exact (hfed.received.regs.get_eq (by simp)).trans (hcum.trans (by simp only [plainMsg, hmod]))
  · exact (hfed.received.regs.get_eq (by simp)).trans (hjob.trans (Nat.mod_mod ..))
  · rw [popped_sess]
    obtain ⟨h1, h2, h3, h4, h5, h6, h7⟩ := hwindow.trans hfed.sess.window
    exact ⟨h1, h2, h3, h4, h5, h6, h7⟩

/-! ### The end of the command performs it -/

/-- Whether the next message of session `k` is a register request that may be performed now. -/
def nextRequest (d : Dev) (k : Nat) : Bool :=
  match (d.sess k).todo with
  | m :: _ => (m.type == tRegRead || m.type == tRegWrite) && !(inDram (beAt m.payload 0 8) && d.getB F.DRAMC_FCHG_BUSY)
  | [] => false

theorem regSession_eq (d : Dev) : regSession d = (List.range 16).find? (nextRequest d) := rfl

/-- A session that alone has gained a request is the one whose turn it is. -/
theorem regSession_one {d e : Dev} {n : Fin 16} (h : regSession d = none) (hothers : ∀ k, k ≠ n.val → (e.sess k).todo = (d.sess k).todo)
    (hbusy : e.getB F.DRAMC_FCHG_BUSY = d.getB F.DRAMC_FCHG_BUSY) (hn : nextRequest e n = true) : regSession e = some n.val := by
  rw [regSession_eq, List.find?_eq_none] at h
  have hother (k : Nat) (hk : k ≠ n.val) : nextRequest e k = nextRequest d k := by
    unfold nextRequest
    rw [hothers k hk, hbusy]
  rw [regSession_eq]
  cases hfind : (List.range 16).find? (nextRequest e) with
  | none => exact absurd hn (List.find?_eq_none.mp hfind n (List.mem_range.mpr n.isLt))
  | some k =>
    by_cases hk : k = n.val
    · rw [hk]
    · exact absurd ((hother k hk).symm.trans (List.find?_some hfind)) (h k (List.mem_of_find?_eq_some hfind))

/-- The messages that wait in all sessions are no fewer than those in one. -/
theorem todo_le_count (l : Cells Sess) (n k : Nat) :
    k + (cellGet {} l n).todo.length ≤ l.foldl (fun k e => k + e.2.todo.length) k := by
  induction l generalizing k with
  | nil => exact le_refl k
  | cons x l ih =>
    obtain ⟨i, y⟩ := x
    rw [List.foldl_cons, cellGet]
    split
    · exact (Nat.le_add_right _ _).trans (ih _)
    · exact (Nat.add_le_add_right (Nat.le_add_right k y.todo.length) _).trans (ih _)

/-- The one request that is next is performed, with what waited behind it. -/
theorem jtpDrain_one {fuel n : Nat} {m : JtpMsg} {d e : Dev} (hfuel : 0 < fuel) (hnext : regSession d = some n)
    (htodo : (d.sess n).todo = [m]) (he : sessWork n (regRequest m (popped n d)) = e) (hdone : regSession e = none) :
    jtpDrain fuel d = e := by
  obtain ⟨f, rfl⟩ := Nat.exists_eq_succ_of_ne_zero hfuel.ne'
  unfold jtpDrain
  simp only [hnext, htodo]
  exact (congrArg (jtpDrain f) he).trans (jtpDrain_none f e hdone)

/-- A command that leaves a request next ends as one that has performed it. -/
theorem afterCommand_request {n : Nat} {m : JtpMsg} {d e : Dev} (hnext : regSession d = some n) (htodo : (d.sess n).todo = [m])
    (he : sessWork n (regRequest m (popped n d)) = e) (hdone : regSession e = none) (hd : d.regWrites = []) (hw : e.regWrites = []) :
    afterCommand d = afterCommand e := by
  have hfuel := todo_le_count d.jtp.sess n 0
  rw [show cellGet {} d.jtp.sess n = d.sess n from rfl, htodo] at hfuel
  unfold afterCommand
  simp only [regWritesRun_none _ hd, regWritesRun_none _ hw, jtpDrain_none _ _ hdone]
  rw [jtpDrain_one (Nat.lt_of_lt_of_le (by simp) hfuel) hnext htodo he hdone]

/-! ### What a request comes to -/

theorem regReads_one {a v : Nat} {d e : Dev} (h : busAccess mJtpRemote kindRead a 4 0 d = (.ok v, false, e)) :
    regReads 1 a [] 0 d = (beBytes 4 v, 1, false, e) := by
  unfold regReads regReads
  simp only [h, Bool.false_eq_true, if_false, List.nil_append]

theorem regWrites_one {a v : Nat} {r : BusResp} {d e : Dev} (h : busAccess mJtpRemote kindWrite a 4 v d = (r, false, e)) :
    regWrites [v] a 0 d = (1, false, e) := by
  unfold regWrites regWrites
  simp only [h, Bool.false_eq_true, if_false]

/-- A request to read one word, which the bus gives, is answered with it. -/
theorem regRequest_read {m : JtpMsg} {d e : Dev} {v : Nat} (hcleat : cleated d mJtpRemote = false) (hone : beAt m.payload 8 2 = 1)
    (ht : m.type = tRegRead) (hbus : busAccess mJtpRemote kindRead (beAt m.payload 0 8) 4 0 d = (.ok v, false, e)) :
    regRequest m d = respond m.session tRegRead (regAnswer m.payload 0 1 (beBytes 4 v)) e := by
  unfold regRequest
  simp only [hcleat, hone, ht, Bool.false_eq_true, if_false]
  rw [if_neg (by omega), if_pos trivial, regReads_one hbus]
  rfl

/-- A request to write one word, which the bus performs, is answered. -/
theorem regRequest_write {m : JtpMsg} {d e : Dev} {r : BusResp} (hcleat : cleated d mJtpRemote = false) (hone : beAt m.payload 8 2 = 1)
    (ht : m.type = tRegWrite)
    (hbus : busAccess mJtpRemote kindWrite (beAt m.payload 0 8) 4 (beAt m.payload 16 4) d = (r, false, e)) :
    regRequest m d = respond m.session tRegWrite (regAnswer m.payload 0 1 []) e := by
  have hwords : (List.range 1).map (fun i => beAt m.payload (16 + 4 * i) 4) = [beAt m.payload 16 4] := rfl
  unfold regRequest
  simp only [hcleat, hone, ht, hwords, Bool.false_eq_true, if_false]
  rw [if_neg (by omega), if_neg (by decide), regWrites_one hbus]
  rfl

/-- A transaction that is issued and permitted is performed. -/
theorem busAccess_permitted {m kind a n v : Nat} {d : Dev} (hissues : issues d m = true)
    (hcheck : (shroudCheck d m kind a (kind == kindWrite && reachesRwm a n)).1 = true) :
    busAccess m kind a n v d = ((busPerform m kind a n v d).1, false, (busPerform m kind a n v d).2) := by
  have hissue : busIssue m kind a n (busPerform m kind a n v) d
      = ((busPerform m kind a n v d).1, false, (busPerform m kind a n v d).2) := by
    unfold busIssue
    simp only [hissues, hcheck, Bool.not_true, Bool.false_eq_true, if_false]
  unfold busAccess
  simp only [hissue, Bool.false_and, Bool.false_eq_true, if_false]

end Sys2Proof.Machine
end

section
/-! SUPPORT. The command that brings a register request performs it, and answers (R131). -/
namespace Sys2Proof.Machine

theorem sessWork_settled {n : Nat} {d : Dev} (hheld : (d.sess n).held = []) (htodo : (d.sess n).todo = []) : sessWork n d = credited n d := by
  unfold sessWork credited
  rw [heldRun_none hheld, todoRun_none htodo]

/-- The registers that a request changes beside those of its access. -/
abbrev askedRegs (n : Nat) : List Nat := R.TX_NEXT n :: jtpRegs n

/-- `u` is `s` after a request of TYPE `t` in session `n`, answered with `ans`; its access made the block `f`, registers of `l` changed,
and DRAM's work behind it changes registers of `m`. -/
structure Asked (n t seq job : Nat) (ans : List Byte) (l m : List Nat) (s : State) (f : Dev) (u : State) : Prop where
  sent : ∃ m, (u.dev.sess n).sent = (s.dev.sess n).sent ++ [m] ∧ m.type = t
    ∧ m.bytes = deviceMsg s.dev n t ((s.dev.sess n).txNum % 2 ^ 32) true ans
  next : u.dev.get (F.TX_NEXT_NEXT n) = ((s.dev.sess n).txNum + 1) % 2 ^ 32
  cum : u.dev.get (F.RX_CUM_CUM n) = (seq + 1) % 2 ^ 32
  job : u.dev.get (F.JOB_JOB n) = job % 2 ^ 32
  regs : RegsKept (askedRegs n ++ l) s u
  memory : ∀ a, u.byte a = memByte f a
  after : Kept (R.TX_NEXT n :: m) f u.dev

theorem askedRegs_apart : ∀ n : Fin 16, (∀ a ∈ endRegs, a ∉ askedRegs n) ∧ R.RX_CUM n ∉ R.TX_NEXT n :: memRegs
    ∧ R.JOB n ∉ R.TX_NEXT n :: memRegs ∧ R.TX_NEXT n ∉ memRegs ∧ R.DRAMC_FCHG ∉ jtpRegs n := by decide

/-- A register request of one word, the next message of a calm session, whose access `act` the bus performs, is answered. -/
theorem perform_request {dt t : Nat} {q : Fin 2} {n : Fin 16} {seq job epoch : Word} {p data : List Byte} {s : State} {l m : List Nat}
    {act : Dev → Dev} (hready : Ready s) (hcalm : CalmSession s n) (hup : ethUp s.dev q = true) (hlen : p.length ≤ 9216)
    (ht : t = tRegRead ∨ t = tRegWrite) (hseq : seq.toNat = s.dev.get (F.RX_CUM_CUM n))
    (hcheck : ∀ e, Kept (jtpRegs n) (s.dev.elapse dt) e → contentCheck e (plainMsg q t n seq.toNat job.toNat epoch.toNat p) = 0)
    (hfree : (inDram (beAt p 0 8) && s.dev.getB F.DRAMC_FCHG_BUSY) = false) (hanswer : MayAnswer (s.dev.elapse dt) n 20)
    (hdata : data.length ≤ 4) (hl : ∀ a ∈ requestRegs n, a ∉ l) (hm : m ⊆ memRegs) (hml : m ⊆ l)
    (hact : ∀ e, Due n seq.toNat job.toNat (s.dev.elapse dt) e → Accessed l e (act e) ∧ (memRegs ⊆ m ∨ (act e).banks = [])
      ∧ regRequest (plainMsg q t n seq.toNat job.toNat epoch.toNat p) e = respond n t (regAnswer p 0 1 data) (act e)) :
    ∃ e u, Due n seq.toNat job.toNat (s.dev.elapse dt) e
      ∧ perform dt s (fun d => afterCommand (jtpMessage q t n seq.toNat job.toNat epoch.toNat p d)) = .next u
      ∧ Asked n t seq.toNat job.toNat (regAnswer p 0 1 data) l m s (act e) u := by
  have hopen := CalmOpen.of_calm hcalm dt
  have hquiet := Quiet.of_ready hready dt
  obtain ⟨hend, hcumApart, hjobApart, hnextApart, hbusyApart⟩ := askedRegs_apart n
  have hanslen : (regAnswer p 0 1 data).length ≤ 20 := by
    simp only [regAnswer, List.length_append, List.length_take, beBytes_length]
    omega
  have hcost : jtpCost (regAnswer p 0 1 data).length false = 1 := by
    unfold jtpCost ceilDiv
    simp only [Bool.false_eq_true, if_false]
    omega
  have hresp : isResponse t = true := by
    obtain rfl | rfl := ht
    · rfl
    · rfl
  obtain ⟨hdue, hrec, htodo, hheld⟩ := jtpMessage_waits (job := job.toNat) (epoch := epoch.toNat) hopen hup hlen ht hseq hcheck
  have hrun := perform_run dt s (fun d => afterCommand (jtpMessage q t n seq.toNat job.toNat epoch.toNat p d)) hready.1
  generalize jtpMessage q t n seq.toNat job.toNat epoch.toNat p (s.dev.elapse dt) = d at hdue hrec htodo hheld hrun
  obtain ⟨hacc, hbanks, hreq⟩ := hact _ hdue
  generalize hf : act (popped n d) = f at hacc hbanks hreq
  have hsame : SameSends n (s.dev.elapse dt) f := hdue.sends.trans (hacc.sends hl)
  have hmay := hanswer.of_same hsame
  have hans := respond_answered hmay hresp hanslen hcost
  have hfheld : (f.sess n).held = [] := by rw [hacc.sess, popped_sess]; exact hheld
  have hftodo : (f.sess n).todo = [] := by rw [hacc.sess, popped_sess]
  have hrep := hans.credited hmay.auth
  have hwork : sessWork n (regRequest (plainMsg q t n seq.toNat job.toNat epoch.toNat p) (popped n d))
      = credited n (respond n t (regAnswer p 0 1 data) f) := by
    rw [hreq]
    exact sessWork_settled (hans.held.trans hfheld) (hans.todo.trans hftodo)
  generalize credited n (respond n t (regAnswer p 0 1 data) f) = g at hrep hwork
  have htalk : Talked (askedRegs n ++ l) (s.dev.elapse dt) g :=
    ((hdue.received.talked (hdue.todo.trans hopen.clear.todo.symm)).mono (by simp)).trans
      ((hacc.talked.mono (List.subset_append_right ..)).trans ((hrep.received.talked hrep.todo).mono (by simp)))
  have hend' : ∀ a ∈ endRegs, a ∉ askedRegs n ++ l := fun a ha hin => (List.mem_append.mp hin).elim (hend a ha)
    (hl a (List.mem_append_left _ (List.mem_append_left _ ha)))
  have hbusy : d.getB F.DRAMC_FCHG_BUSY = s.dev.getB F.DRAMC_FCHG_BUSY := hrec.regs.getB_eq hbusyApart
  have hnext : regSession d = some n.val := by
    refine regSession_one hquiet.requests hrec.others hbusy ?_
    unfold nextRequest
    simp only [htodo, hbusy]
    rw [show (plainMsg q t n seq.toNat job.toNat epoch.toNat p).payload = p from rfl, hfree]
    obtain rfl | rfl := ht
    · rfl
    · rfl
  have hdone : regSession g = none := (regSession_todo htalk.todo (htalk.regs.getB_eq (hend' _ (by simp)))).trans hquiet.requests
  have hafter := afterCommand_request hnext htodo hwork hdone (hrec.regWrites.trans hquiet.regWrites) (htalk.regWrites.trans hquiet.regWrites)
  obtain ⟨htouch, hdo⟩ := perform_talked (dt := dt) (f := fun _ => g) hready rfl htalk hend'
  rw [perform_run _ _ _ hready.1, ← hafter] at hdo
  have hkept : Kept m g (dramRun g) := by
    rcases hbanks with hmem | hnone
    · exact htouch.regs.mono hmem
    · rw [dramRun_none g (hrep.received.banks.trans hnone)]
      · exact .refl _ _
      · rw [htalk.regs.getB_eq (g := F.DRAMC_FCHG_BUSY) (hend' _ (by simp)), htalk.regs.getB_eq (g := F.DRAMC_STAT_SELFREF) (hend' _ (by simp))]
        exact hquiet.rate
  have hfrom : Kept (R.TX_NEXT n :: m) f (dramRun g) :=
    (hrep.received.regs.mono (by simp)).trans (hkept.mono (List.subset_cons_self ..))
  have hfrom' : Kept (R.TX_NEXT n :: memRegs) f (dramRun g) := hfrom.mono (List.cons_subset_cons _ hm)
  have hsess : (dramRun g).sess n = g.sess n := by unfold Dev.sess; rw [htouch.sess]
  obtain ⟨hsent, hcount⟩ := hrep.of_same hsame hanswer.auth
  refine ⟨popped n d, _, hdue, hrun.trans hdo, hf ▸ ⟨?_, ?_, ?_, ?_, ?_, fun a => ?_, hfrom⟩⟩
  · exact hsess.symm ▸ hsent
  · exact (htouch.regs.get_eq hnextApart).trans hcount
  · exact (hfrom'.get_eq hcumApart).trans ((hacc.talked.regs.get_eq (hl _ (by simp))).trans hdue.cum)
  · exact (hfrom'.get_eq hjobApart).trans ((hacc.talked.regs.get_eq (hl _ (by simp))).trans hdue.job)
  · exact htalk.regs.trans (hkept.mono (fun _ ha => List.mem_append_right _ (hml ha)))
  · exact (memByte_congr htouch.dram htouch.l2 a).trans (memByte_congr hrep.received.dram hrep.received.l2 a)

end Sys2Proof.Machine
end

section
/-! SUPPORT. Register requests to memory (R131, R322). -/
namespace Sys2Proof.Machine

/-! ### What the RIP may reach -/

theorem Reachable.remote_issues {d : Dev} {kind a n : Nat} (h : Reachable d mJtpRemote kind a n) : issues d mJtpRemote = true := by
  unfold issues
  rw [h.1]
  rfl

/-- A transaction of the RIP with memory that it may reach is performed. -/
theorem busAccess_memory {kind a n v : Nat} {d : Dev} (h : Reachable d mJtpRemote kind a n) (hn : 0 < n) :
    busAccess mJtpRemote kind a n v d = ((busPerform mJtpRemote kind a n v d).1, false, (busPerform mJtpRemote kind a n v d).2) := by
  obtain ⟨hcheck, hreg, -, -⟩ := h.backed hn
  have hrwm : reachesRwm a n = false := by unfold reachesRwm; rw [hreg]
  refine busAccess_permitted h.remote_issues ?_
  rw [hrwm, Bool.and_false]
  exact hcheck

theorem busAccess_memoryWrite {a n v : Nat} {d : Dev} (h : Reachable d mJtpRemote kindWrite a n) (hn : 0 < n) :
    busAccess mJtpRemote kindWrite a n v d = (.none, false, targetWrite mJtpRemote a (leBytes n v) d) := by
  obtain ⟨-, hreg, -, -⟩ := h.backed hn
  rw [busAccess_memory h hn]
  unfold busPerform
  simp only [if_true, hreg]

/-- An engine's read of memory that it may reach is the target's. -/
theorem engineRead1_target {m a n k : Nat} {d : Dev} (h : Reachable d m kindRead a n) (hn : 0 < n) : engineRead1 m a k d = targetRead m a k d := by
  obtain ⟨hcheck, -, -, -⟩ := h.backed hn
  unfold engineRead1
  simp only [h.1, hcheck, Bool.false_eq_true, if_false, if_true]

theorem busAccess_memoryRead {a n : Nat} {d : Dev} {b : List Byte} (h : Reachable d mJtpRemote kindRead a n) (hn : 0 < n)
    (hb : pieceFound d a n = some b) :
    busAccess mJtpRemote kindRead a n 0 d = (.ok (leNat b), false, (targetRead mJtpRemote a n d).2) := by
  obtain ⟨-, hreg, -, -⟩ := h.backed hn
  have hread : (targetRead mJtpRemote a n d).1 = some b := by rw [← engineRead1_target h hn, engineRead1_found h hn, hb]
  rw [busAccess_memory h hn]
  unfold busPerform
  simp only [hreg, hread, kindRead, kindWrite]
  rfl

/-! ### A word in a line -/

theorem linePieces_word {a : Nat} (h : a % 4 = 0) : linePieces 5 a 4 = [(a, 4)] := by
  have hmin : min 4 (64 - a % 64) = 4 := by omega
  unfold linePieces linePieces
  simp only [hmin, Nat.sub_self, if_true]
  rfl

theorem found_word {a : Nat} {d : Dev} (h : a % 4 = 0) : found d a 4 = pieceFound d a 4 := by
  unfold found
  rw [linePieces_word h]
  simp only [List.foldl_cons, List.foldl_nil]
  cases pieceFound d a 4 with
  | none => rfl
  | some b => rfl

theorem pieceFound_length {a n : Nat} {d : Dev} {b : List Byte} (h : pieceFound d a n = some b) : b.length = n := by
  unfold pieceFound at h
  split at h
  · split at h
    · exact absurd h (by simp)
    · rw [← Option.some.inj h, List.length_map, List.length_range]
  · split at h
    · exact absurd h (by simp)
    · rw [← Option.some.inj h, List.length_map, List.length_range]

theorem leBytes_leNat (b : List Byte) : leBytes b.length (leNat b) = b := by
  induction b with
  | nil => rfl
  | cons x b ih =>
    have hx := x.isLt
    have hlow : BitVec.ofNat 8 (leNat (x :: b)) = x := by
      apply BitVec.eq_of_toNat_eq
      rw [BitVec.toNat_ofNat, leNat]
      omega
    have hrest : leNat (x :: b) / 256 = leNat b := by
      rw [leNat]
      omega
    rw [List.length_cons, leBytes, hlow, hrest, ih]

theorem leBytes_getD {n i : Nat} (h : i < n) (v : Nat) : (leBytes n v).getD i 0 = BitVec.ofNat 8 (v / 256 ^ i) := by
  induction n generalizing i v with
  | zero => omega
  | succ n ih =>
    cases i with
    | zero => simp [leBytes]
    | succ i =>
      rw [leBytes, List.getD_cons_succ, ih (by omega), Nat.div_div_eq_div_mul, Nat.pow_succ, Nat.mul_comm]

/-! ### The messages -/

/-- A request of one word, in a session with REG_EN, is sound in its content (R131). -/
theorem contentCheck_request {t q seq job epoch : Nat} {p : List Byte} {n : Fin 16} {d : Dev} (ht : t = tRegRead ∨ t = tRegWrite)
    (hen : d.get (F.SESS_CFG_REG_EN n) = 1) (hone : beAt p 8 2 = 1) (halign : beAt p 0 8 % 4 = 0) (hin : beAt p 0 8 < 2 ^ 40)
    (hlen : p.length = 16 + if t = tRegWrite then 4 else 0) :
    ∀ e, Kept (jtpRegs n) d e → contentCheck e (plainMsg q t n seq job epoch p) = 0 := by
  intro e he
  have hreg : e.getB (F.SESS_CFG_REG_EN n) = true := (he.getB_eq (sendRegs_apart n).2).trans (Dev.getB_of_get_one hen)
  have hcheck : contentCheck e (plainMsg q t n seq job epoch p) = if !e.getB (F.SESS_CFG_REG_EN n) then rejState
      else if p.length < 16 then rejFormat
      else if beAt p 8 2 = 0 ∨ 256 < beAt p 8 2 then rejRange
      else if beAt p 0 8 % 4 ≠ 0 ∨ 2 ^ 40 ≤ beAt p 0 8 ∨ p.length ≠ 16 + (if t = tRegWrite then 4 * beAt p 8 2 else 0) then rejFormat
      else 0 := by
    obtain rfl | rfl := ht
    · rfl
    · rfl
  have hwhole : p.length = 16 + (if t = tRegWrite then 4 * beAt p 8 2 else 0) := by rw [hone]; exact hlen
  rw [hcheck, hreg, if_neg (by decide), if_neg (by omega), if_neg (by omega), if_neg]
  simp only [not_or, not_not]
  exact ⟨halign, by omega, hwhole⟩

section
variable {dt : Nat} {q : Fin 2} {n : Fin 16} {seq job epoch : Word} {p : List Byte} {s : State}

/-- The next message of a calm session with REG_EN that may answer: the head of O15. -/
structure RequestNext (s : State) (dt : Nat) (q : Fin 2) (n : Fin 16) (seq : Word) (p : List Byte) : Prop where
  ready : Ready s
  calm : CalmSession s n
  up : ethUp s.dev q = true
  length : p.length ≤ 9216
  seq : seq.toNat = s.dev.get (F.RX_CUM_CUM n)
  enabled : s.dev.get (F.SESS_CFG_REG_EN n) = 1
  answers : MayAnswer (s.dev.elapse dt) n 20
  one : beAt p 8 2 = 1
  aligned : beAt p 0 8 % 4 = 0
  inside : beAt p 0 8 < 2 ^ 40

theorem requestRegs_apart : ∀ n : Fin 16, (∀ a ∈ requestRegs n, a ∉ memRegs) ∧ (∀ a ∈ reachRegs mJtpRemote, a ∉ jtpRegs n) := by decide

theorem remote_reach {kind a : Nat} {e : Dev} (hr : Reach s mJtpRemote kind a 4) (he : Due n seq.toNat job.toNat (s.dev.elapse dt) e) :
    Reachable e mJtpRemote kind a 4 :=
  (reachable_of_reach (dt := dt) hr).of_kept he.received.regs (requestRegs_apart n).2 (by decide) (by decide) he.received.l2Ram
    he.received.regions he.received.heldSteps

theorem remote_free {kind a : Nat} (hr : Reach s mJtpRemote kind a 4) : (inDram a && s.dev.getB F.DRAMC_FCHG_BUSY) = false := by
  obtain ⟨-, -, -, hb⟩ := Reachable.backed (d := s.dev) hr (by omega)
  rcases hb with ⟨-, -, -, hbusy⟩ | ⟨hdram, -, -⟩
  · rw [hbusy, Bool.and_false]
  · rw [hdram, Bool.false_and]

/-- The clause of O15 about a word written to memory. -/
theorem execRegWrite_memory (h : RequestNext s dt q n seq p) (hlen : p.length = 20) (hr : Reach s mJtpRemote kindWrite (beAt p 0 8) 4) :
    ∃ e u, Due n seq.toNat job.toNat (s.dev.elapse dt) e ∧ execRegWrite dt q n seq job epoch p s = .next u
      ∧ Asked n tRegWrite seq.toNat job.toNat (regAnswer p 0 1 []) memRegs memRegs s (targetWrite mJtpRemote (beAt p 0 8) (leBytes 4 (beAt p 16 4)) e) u
      ∧ MemPut (beAt p 0 8) (leBytes 4 (beAt p 16 4)) e (targetWrite mJtpRemote (beAt p 0 8) (leBytes 4 (beAt p 16 4)) e) := by
  have hput {e : Dev} (he : Due n seq.toNat job.toNat (s.dev.elapse dt) e) :
      MemPut (beAt p 0 8) (leBytes 4 (beAt p 16 4)) e (targetWrite mJtpRemote (beAt p 0 8) (leBytes 4 (beAt p 16 4)) e) :=
    targetWrite_put (m := mJtpRemote) (by rw [leBytes_length]; exact remote_reach hr he) (by rw [leBytes_length]; omega)
      (by rw [leBytes_length]; omega)
  obtain ⟨e, u, hdue, hdo, hasked⟩ := perform_request (t := tRegWrite) (data := []) (job := job) (epoch := epoch) (l := memRegs) (m := memRegs)
    (act := targetWrite mJtpRemote (beAt p 0 8) (leBytes 4 (beAt p 16 4))) h.ready h.calm h.up h.length (.inr rfl) h.seq
    (contentCheck_request (d := s.dev.elapse dt) (.inr rfl) h.enabled h.one h.aligned h.inside hlen) (remote_free hr) h.answers (by simp)
    (requestRegs_apart n).1 (List.Subset.refl _) (List.Subset.refl _) fun e he => ⟨.of_put (hput he), .inl (List.Subset.refl _),
      regRequest_write (remote_reach hr he).1 h.one rfl (busAccess_memoryWrite (remote_reach hr he) (by omega))⟩
  exact ⟨e, u, hdue, hdo, hasked, hput hdue⟩

/-- The clause of O15 about a word read from memory. -/
theorem execRegRead_memory {b : List Byte} (h : RequestNext s dt q n seq p) (hlen : p.length = 16)
    (hr : Reach s mJtpRemote kindRead (beAt p 0 8) 4) (hb : (engineRead mJtpRemote (beAt p 0 8) 4 (s.dev.elapse dt)).1 = some b) :
    ∃ e u, Due n seq.toNat job.toNat (s.dev.elapse dt) e ∧ execRegRead dt q n seq job epoch p s = .next u
      ∧ Asked n tRegRead seq.toNat job.toNat (regAnswer p 0 1 b.reverse) memRegs memRegs s (targetRead mJtpRemote (beAt p 0 8) 4 e).2 u
      ∧ DramTouch e (targetRead mJtpRemote (beAt p 0 8) 4 e).2 := by
  have htouch {e : Dev} (he : Due n seq.toNat job.toNat (s.dev.elapse dt) e) : DramTouch e (targetRead mJtpRemote (beAt p 0 8) 4 e).2 := by
    rw [← engineRead1_target (remote_reach hr he) (by omega)]
    exact engineRead1_reachable (remote_reach hr he) (by omega)
  have hpiece : pieceFound (s.dev.elapse dt) (beAt p 0 8) 4 = some b := by
    rw [← found_word h.aligned]
    exact (engineRead_found (by decide) (reachable_of_reach (dt := dt) hr)).symm.trans hb
  have hlen4 := pieceFound_length hpiece
  have hword : beBytes 4 (leNat b) = b.reverse := by
    unfold beBytes
    rw [← hlen4, leBytes_leNat]
  have hsame {e : Dev} (he : Due n seq.toNat job.toNat (s.dev.elapse dt) e) : SameBytes (s.dev.elapse dt) e :=
    ⟨he.received.dram, he.received.l2, he.received.ue, he.received.remap⟩
  obtain ⟨e, u, hdue, hdo, hasked⟩ := perform_request (t := tRegRead) (data := b.reverse) (job := job) (epoch := epoch) (l := memRegs) (m := memRegs)
    (act := fun e => (targetRead mJtpRemote (beAt p 0 8) 4 e).2) h.ready h.calm h.up h.length (.inl rfl) h.seq
    (contentCheck_request (d := s.dev.elapse dt) (.inl rfl) h.enabled h.one h.aligned h.inside hlen) (remote_free hr) h.answers
    (by rw [List.length_reverse]; omega)
    (requestRegs_apart n).1 (List.Subset.refl _) (List.Subset.refl _) fun e he => ⟨.of_touch (htouch he), .inl (List.Subset.refl _),
      hword ▸ regRequest_read (remote_reach hr he).1 h.one rfl
        (busAccess_memoryRead (remote_reach hr he) (by omega) (((hsame he).piece _ _).trans hpiece))⟩
  exact ⟨e, u, hdue, hdo, hasked, htouch hdue⟩
end

end Sys2Proof.Machine
end

section
/-! SUPPORT. Register requests to the register window (R131, R422, R426, R432): what they read and write. -/
namespace Sys2Proof.Machine

/-! ### What a live register reads depends on its page alone, among those of JTP -/

/-- The registers outside the pages of PATH and JTP read the same. -/
def SameOutside (d e : Dev) : Prop := ∀ a, a < 0xC000 ∨ 0xE000 ≤ a → e.reg a = d.reg a

theorem jtpRegs_inside : ∀ n : Fin 16, ∀ a ∈ jtpRegs n, 0xC000 ≤ a ∧ a < 0xE000 := by decide

theorem Received.sameOutside {n : Fin 16} {d e : Dev} (h : Received n (jtpRegs n) d e) : SameOutside d e :=
  fun a ha => h.regs.reg_eq fun hin => by
    obtain ⟨hlo, hhi⟩ := jtpRegs_inside n a hin
    omega

namespace SameOutside
variable {d e : Dev}

theorem get_eq (h : SameOutside d e) {g : RegField} (hg : 0xE000 ≤ g.addr) : e.get g = d.get g := by unfold Dev.get; rw [h _ (.inr hg)]
theorem getB_eq (h : SameOutside d e) {g : RegField} (hg : 0xE000 ≤ g.addr) : e.getB g = d.getB g := by unfold Dev.getB; rw [h.get_eq hg]

theorem presented (h : SameOutside d e) (c : Nat) : Machine.presented e c = Machine.presented d c := by
  have hable : presentable e c = presentable d c := by
    funext n
    unfold presentable Dev.sharedPending Dev.routeOf
    rw [h.get_eq (g := F.EVT_PEND_PEND (n / 32)) (by simp only [R.EVT_PEND]; omega),
      h.get_eq (g := F.EVT_MASK_MASK (n / 32)) (by simp only [R.EVT_MASK]; omega),
      h.get_eq (g := F.EVT_ROUTE_CORE n) (by simp only [R.EVT_ROUTE]; omega),
      h.get_eq (g := F.EVTC_PEND_PEND c) (by simp only [R.EVTC_PEND]; omega),
      h.get_eq (g := F.EVTC_MASK_MASK c) (by simp only [R.EVTC_MASK]; omega)]
  unfold Machine.presented
  rw [hable, h.getB_eq (g := F.EVTC_ACTIVE_VALID c) (by simp only [R.EVTC_ACTIVE]; omega)]

theorem shroudMaster (h : SameOutside d e) (m : Nat) : shroudMasterRead e m = shroudMasterRead d m := by
  unfold shroudMasterRead masterLevel
  rw [h (R.SHROUD_MASTER m) (.inr (by simp only [R.SHROUD_MASTER]; omega)),
    h.get_eq (g := F.EVTC_CORE_LVL m) (by simp only [R.EVTC_CORE]; omega),
    h.get_eq (g := F.SHROUD_MASTER_LVL m) (by simp only [R.SHROUD_MASTER]; omega)]
end SameOutside

/-- What a register outside the pages of PATH and JTP reads is the same once a message has come in. -/
theorem liveValue_received {n : Fin 16} {d e : Dev} {o : Nat} (h : Received n (jtpRegs n) d e) (hpage : o < 0xC000 ∨ 0xE000 ≤ o)
    (ho : o ∉ readPorts) : liveValue e o = liveValue d o := by
  have hsame := h.sameOutside
  have hout (a : Nat) (ha : a ∈ readPorts) : o ≠ a := fun hoa => ho (hoa ▸ ha)
  have htap (i : Nat) : e.get (F.HP_TAP_SEL_TAP i) = d.get (F.HP_TAP_SEL_TAP i) := hsame.get_eq (by simp only [R.HP_TAP_SEL]; omega)
  have hpres (c : Nat) : evtcPresRead e c = evtcPresRead d c := by unfold evtcPresRead; rw [hsame.presented]
  have hmaster (m : Nat) : shroudMasterRead e m = shroudMasterRead d m := hsame.shroudMaster m
  have hsidx : e.get F.STORE_SIDX_IDX = d.get F.STORE_SIDX_IDX := hsame.get_eq (by decide)
  have hlsel : e.get F.DPHY_LSEL_LANE = d.get F.DPHY_LSEL_LANE := hsame.get_eq (by decide)
  have hwsel : e.get F.WEAR_SEL_IND = d.get F.WEAR_SEL_IND := hsame.get_eq (by decide)
  have hstream (i : Nat) : e.stream i = d.stream i := by unfold Dev.stream; rw [h.streams]
  have hremap : remapEntRead e = remapEntRead d := by
    unfold remapEntRead
    rw [h.remap, hsame.get_eq (g := F.REMAP_SEL_GROUP) (by decide), hsame.get_eq (g := F.REMAP_SEL_ENTRY) (by decide),
      hsame.get_eq (g := F.REMAP_ENT_INDEX) (by decide)]
  have hsdata (k : Nat) : sdataRead e k = sdataRead d k := by unfold sdataRead; rw [hsidx, hstream]
  have hrest : e.eyes = d.eyes ∧ e.trim = d.trim ∧ e.taus = d.taus := by
    obtain ⟨⟨_, _, _, _, _, _, _, rfl⟩, -⟩ := h
    exact ⟨rfl, rfl, rfl⟩
  obtain ⟨heyes, htrim, htaus⟩ := hrest
  have htau (i t : Nat) : tauOf e i t = tauOf d i t := by unfold tauOf; rw [htaus]
  have hage : ageStale e = ageStale d := by unfold ageStale; rw [htrim, h.now]
  have hind (j : Nat) : indicator e j = indicator d j := by unfold indicator; rw [htrim]
  unfold liveValue
  simp only [hout R.BEAT_NUM_LO (by decide), hout R.TIME_NS (by decide), hout R.TSQ_DATA0 (by decide), hout R.SCR_TDATA (by decide),
    hout R.NOZ_SH_LO (by decide), hout R.NOZ_LIVE_LO (by decide), hout R.NOZ_WEAR_LO (by decide), hout R.WAVE_TDATA (by decide),
    hout R.INS_SHD_DATA (by decide), hout R.INS_MAP_A (by decide), hout R.INS_MAP_B (by decide), hout R.LOOP_CDATA (by decide),
    hout R.TRIM_DDATA (by decide), hout R.TRIM_FDATA (by decide), if_false, hsame o hpage, hsdata, hstream, hsidx, hlsel, hwsel, heyes,
    hremap, hage, hind, htap, htau, hmaster, hpres]

end Sys2Proof.Machine
end

section
/-! SUPPORT. Register requests to the register window (R131): the accesses, and the messages. -/
namespace Sys2Proof.Machine

/-! ### An access of the register window -/

/-- `e` is `d` but for registers of `l`, and what the shadows were before this cycle. -/
structure WindowMoved (l : List Nat) (d e : Dev) : Prop where
  frame : ∃ r sa so pw, e = { d with regs := r, shAt := sa, shOld := so, passWritten := pw }
  regs : Kept l d e

namespace WindowMoved
variable {l : List Nat} {d e f : Dev}

theorem refl (l : List Nat) (d : Dev) : WindowMoved l d d := ⟨⟨_, _, _, _, rfl⟩, .refl l d⟩
theorem trans (h : WindowMoved l d e) (g : WindowMoved l e f) : WindowMoved l d f := by
  obtain ⟨⟨_, _, _, _, rfl⟩, k⟩ := h
  obtain ⟨⟨_, _, _, _, rfl⟩, k'⟩ := g
  exact ⟨⟨_, _, _, _, rfl⟩, k.trans k'⟩
theorem setReg (h : WindowMoved l d e) {a : Nat} (w : Word) (ha : a ∈ l) : WindowMoved l d (e.setReg a w) :=
  h.trans ⟨⟨_, _, _, _, rfl⟩, (Kept.refl l e).setReg w ha⟩
theorem pass (h : WindowMoved l d e) (b : Bool) : WindowMoved l d { e with passWritten := b } :=
  h.trans ⟨⟨_, _, _, _, rfl⟩, .of_regs rfl⟩

theorem accessed (h : WindowMoved l d e) : Accessed l d e := by
  obtain ⟨⟨_, _, _, _, rfl⟩, k⟩ := h
  exact ⟨⟨k, fun _ => rfl, rfl, rfl, rfl⟩, rfl, rfl⟩
theorem banks (h : WindowMoved l d e) : e.banks = d.banks := by obtain ⟨⟨_, _, _, _, rfl⟩, -⟩ := h; rfl
theorem memory (h : WindowMoved l d e) (a : Nat) : memByte e a = memByte d a := by obtain ⟨⟨_, _, _, _, rfl⟩, -⟩ := h; rfl
end WindowMoved

/-! ### The tables of registers -/

/-- Every register of the tables lies at a multiple of four bytes. -/
theorem descs_aligned : (List.range 128).all (fun p =>
    ((pageDescs p).getD []).all (fun d => d.off % 4 == 0 && d.s1 % 4 == 0 && d.s2 % 4 == 0)) = true := by decide

theorem descCovers_aligned {d : RegDesc} {off : Nat} (hd : d.off % 4 = 0 ∧ d.s1 % 4 = 0 ∧ d.s2 % 4 = 0) (h : descCovers d off = true) :
    off % 4 = 0 := by
  obtain ⟨ho, h1, h2⟩ := hd
  unfold descCovers at h
  simp only [Bool.and_eq_true, decide_eq_true_eq, beq_iff_eq] at h
  obtain ⟨hle, -, hz⟩ := h
  have hmod {r k : Nat} (hk : k % 4 = 0) : (if k = 0 then r else r % k) % 4 = r % 4 := by
    split
    · rfl
    · exact Nat.mod_mod_of_dvd r (Nat.dvd_of_mod_eq_zero hk)
  have hrest : (off - d.off) % 4 = 0 := by rw [← hmod (r := off - d.off) h1, ← hmod h2, hz]
  omega

/-- A register of the tables: its page is listed, and its offset a multiple of four. -/
theorem regDesc_some {p off : Nat} {r : RegDesc} (hp : p < 128) (h : regDesc p off = some r) : pageListed p = true ∧ off % 4 = 0 := by
  unfold regDesc at h
  refine ⟨?_, descCovers_aligned ?_ (List.find?_some (p := fun d => descCovers d off) h)⟩
  · unfold pageListed
    cases hd : pageDescs p with
    | none => rw [hd] at h; exact absurd h (by simp)
    | some l => rfl
  · have hall := List.all_eq_true.mp (List.all_eq_true.mp descs_aligned p (List.mem_range.mpr hp)) r (List.mem_of_find?_eq_some h)
    simp only [Bool.and_eq_true, beq_iff_eq] at hall
    exact ⟨hall.1.1, hall.1.2, hall.2⟩

/-! ### Writes -/

/-- Bits cleared of a word are those of the mask. -/
theorem ofNat_clearBits (w : Word) (m : Nat) : BitVec.ofNat 32 (clearBits w.toNat m) = w &&& ~~~BitVec.ofNat 32 m := by
  have hand : w.toNat &&& m = (w &&& BitVec.ofNat 32 m).toNat := by
    rw [BitVec.toNat_and, BitVec.toNat_ofNat]
    apply Nat.eq_of_testBit_eq
    intro i
    rw [Nat.testBit_and, Nat.testBit_and, Nat.testBit_mod_two_pow]
    by_cases hi : i < 32
    · simp [hi]
    · simp [BitVec.testBit_toNat, BitVec.getLsbD_of_ge w i (by omega)]
  have hsplit : w = (w &&& BitVec.ofNat 32 m) + (w &&& ~~~BitVec.ofNat 32 m) := by
    rw [BitVec.add_eq_or_of_and_eq_zero]
    · ext i hi
      simp only [BitVec.getElem_or, BitVec.getElem_and, BitVec.getElem_not]
      cases w[i] <;> cases (BitVec.ofNat 32 m)[i] <;> rfl
    · ext i hi
      simp only [BitVec.getElem_and, BitVec.getElem_not, BitVec.getElem_zero]
      cases w[i] <;> cases (BitVec.ofNat 32 m)[i] <;> rfl
  have hle : (w &&& BitVec.ofNat 32 m).toNat ≤ w.toNat := hand ▸ Nat.and_le_left
  generalize w &&& BitVec.ofNat 32 m = x at hand hsplit hle
  generalize w &&& ~~~BitVec.ofNat 32 m = y at hsplit
  unfold clearBits
  rw [hand]
  bv_omega

theorem ofNat_mergeBits (w v : Word) (m : Nat) :
    BitVec.ofNat 32 (mergeBits w.toNat v.toNat m) = (w &&& ~~~BitVec.ofNat 32 m) ||| (v &&& BitVec.ofNat 32 m) := by
  unfold mergeBits
  rw [BitVec.ofNat_or, BitVec.ofNat_and, ofNat_clearBits, BitVec.ofNat_toNat, BitVec.setWidth_eq]

/-- The ranges that depend on other registers do so outside the pages of PATH and JTP. -/
theorem crossRangeOk_kept {d e : Dev} (h : SameOutside d e) (o v : Nat) (ho : o ≠ R.LOOP_CDATA) : crossRangeOk o v e = crossRangeOk o v d := by
  have hc : bits v 1 1 < 2 := Nat.mod_lt _ (by omega)
  have hplanes : e.get (shadowOf (F.PLAN_CAM_A_NPLANES (bits v 1 1))) = d.get (shadowOf (F.PLAN_CAM_A_NPLANES (bits v 1 1))) := by
    unfold Dev.get
    rw [h _ (.inl (by simp only [shadowOf, R.PLAN_CAM_A]; omega))]
  have hchannel (ch : Nat) : viewChannelOk e (bits v 1 1) ch = viewChannelOk d (bits v 1 1) ch := by
    unfold viewChannelOk
    rw [hplanes]
  unfold crossRangeOk
  rw [if_neg ho, if_neg ho, hchannel]

theorem reg_pass (d : Dev) (b : Bool) (a : Nat) : ({ d with passWritten := b } : Dev).reg a = d.reg a := rfl

/-- A permitted write of the shadow of a register with RWS fields writes those (R432). -/
theorem windowWrite_shadow {o : Nat} {r : RegDesc} {v : Word} {d : Dev} (hlow : 0x40 ≤ o % 0x1000) (hhigh : o % 0x1000 < 0x800)
    (hp : o < 0x80000) (hr : regDesc (o / 0x1000) (o % 0x1000) = some r) (hrws : r.rws ≠ 0) (hrange : rangesOk r r.rws v.toNat = true)
    (hcross : ∀ e, e.regs = d.regs → crossRangeOk o v.toNat e = true) (hport : o ∉ shadowPorts) :
    WindowMoved [o + 0x800] d (windowWrite (o + 0x800) 4 v.toNat d) ∧ (windowWrite (o + 0x800) 4 v.toNat d).reg (o + 0x800)
      = (d.reg (o + 0x800) &&& ~~~BitVec.ofNat 32 r.rws) ||| (v &&& BitVec.ofNat 32 r.rws) := by
  obtain ⟨hlisted, h4⟩ := regDesc_some (by omega) hr
  have hpage : (o + 0x800) / 0x1000 = o / 0x1000 := by omega
  have hoff : (o + 0x800) % 0x1000 = o % 0x1000 + 0x800 := by omega
  have hmod : v.toNat % 2 ^ 32 = v.toNat := Nat.mod_eq_of_lt v.isLt
  generalize hnote : (if pageShadow (o / 0x1000) then shadowNote d else d) = e
  have hmoved : WindowMoved [o + 0x800] d e := by
    rw [← hnote]
    unfold shadowNote
    split
    · split
      · exact .refl _ d
      · exact ⟨⟨_, _, _, _, rfl⟩, .of_regs rfl⟩
    · exact .refl _ d
  have hregs : e.regs = d.regs := by
    rw [← hnote]
    unfold shadowNote
    split
    · split
      · rfl
      · rfl
    · rfl
  have hwrite : windowWrite (o + 0x800) 4 v.toNat d = shadowWrite o v.toNat e := by
    unfold windowWrite registerWrite
    simp only [hpage, hoff, hlisted, hmod, hnote, Bool.not_true, Bool.false_eq_true, if_false]
    rw [if_pos ⟨trivial, by omega⟩, if_neg (by omega), if_pos (by omega), Nat.add_sub_cancel]
  have hreg : e.reg (o + 0x800) = d.reg (o + 0x800) := Dev.reg_congr e d hregs _
  generalize hw : (d.reg (o + 0x800) &&& ~~~BitVec.ofNat 32 r.rws) ||| (v &&& BitVec.ofNat 32 r.rws) = w
  have hstore : shadowWrite o v.toNat e
      = if o = R.SCR_PASS then { e.setReg (o + 0x800) w with passWritten := true } else e.setReg (o + 0x800) w := by
    unfold shadowWrite
    simp only [hr, if_neg hrws, hrange, hcross e hregs, Bool.and_self, Bool.not_true, Bool.false_eq_true, if_false, ofNat_mergeBits, hreg, hw]
    rw [if_neg (by simpa using hport)]
  have hset := hmoved.setReg w (List.mem_singleton_self (o + 0x800))
  have hsame := Dev.reg_setReg_same e (o + 0x800) w
  rw [hwrite, hstore]
  split
  · exact ⟨hset.pass true, (reg_pass _ true _).trans hsame⟩
  · exact ⟨hset, hsame⟩

theorem clearEvt_moved (g : Nat) (w : Word) (d : Dev) : WindowMoved (eventRegs g) d (d.clearEvt g w) := by
  refine ⟨⟨_, _, _, _, Dev.clearEvt_frame d g w⟩, fun a ha => ?_⟩
  unfold Dev.clearEvt
  rw [Dev.reg_withSource _ _ _ _ (fun x => ha (ringRegs_eventRegs x)), Dev.reg_setReg_ne]
  rintro rfl
  exact ha (by simp [eventRegs])

theorem pgEvt_clearEvt (g : Nat) (w : Word) (d : Dev) : (d.clearEvt g w).reg (R.PG_EVT g) = d.reg (R.PG_EVT g) &&& ~~~w := by
  unfold Dev.clearEvt
  rw [Dev.reg_withSource _ _ _ _ (pgEvt_not_ring _ g g), Dev.reg_setReg_same]

/-- The offset of PG_EVT in its page. -/
theorem pgEvt_offset (g : Nat) : R.PG_EVT g / 0x1000 = g ∧ R.PG_EVT g % 0x1000 = 0x14 ∧ R.PG_EVT g % 4 = 0 := by
  simp only [R.PG_EVT]
  omega

/-- A write of PG_EVT clears the bits written 1 (R429). -/
theorem windowWrite_evt {g : Nat} (hlisted : pageListed g = true) (v : Word) (d : Dev) :
    windowWrite (R.PG_EVT g) 4 v.toNat d = d.clearEvt g v := by
  obtain ⟨hpage, hoff, h4⟩ := pgEvt_offset g
  have hmod : v.toNat % 2 ^ 32 = v.toNat := Nat.mod_eq_of_lt v.isLt
  unfold windowWrite registerWrite headerWrite
  simp only [hpage, hoff, h4, hlisted, hmod, Bool.not_true, Bool.false_eq_true, if_false, and_self, if_true, BitVec.ofNat_toNat,
    BitVec.setWidth_eq]
  rfl

end Sys2Proof.Machine
end

section
/-! SUPPORT. O15: register requests to the register window, and the statement (R131). -/
namespace Sys2Proof.Machine

theorem regOffset_window {x : Nat} (h : x < 0x80000) : regOffset (0x40000000 + x) = some x := by
  unfold regOffset
  rw [if_pos (by omega), Nat.add_sub_cancel_left]

theorem inDram_window {x : Nat} (h : x < 0x80000) : inDram (0x40000000 + x) = false := by
  simp only [inDram, Bool.and_eq_false_iff, decide_eq_false_iff_not]
  omega

/-! ### Reads -/

/-- A word read of the register window (R424). -/
theorem windowRead_word {x v : Nat} {d : Dev} (hlisted : pageListed (x / 0x1000) = true) (h4 : x % 4 = 0)
    (hread : registerRead mJtpRemote x d = (v, d)) : windowRead mJtpRemote x 4 d = (.ok (v % 2 ^ 32), d) := by
  have haligned : aligned x 4 = true := by
    unfold aligned
    simp [h4]
  unfold windowRead
  simp only [hlisted, haligned, h4, Bool.not_true, Bool.false_eq_true, if_false, Nat.sub_zero, hread]
  rw [if_neg (by decide)]
  unfold bits
  rw [Nat.mul_zero, Nat.pow_zero, Nat.div_one]

section
variable {o : Nat} {r : RegDesc} {d : Dev}

/-- A register whose read has no effect of its own, nor bits that clear on it, is read alone. -/
theorem readEffect_none (hr : regDesc (o / 0x1000) (o % 0x1000) = some r) (hcor : r.cor = 0) (ho : o ∉ readPorts) : readEffect o d = d := by
  have hout (a : Nat) (ha : a ∈ readPorts) : o ≠ a := fun hoa => ho (hoa ▸ ha)
  have hpos : whichOf 2 R.ENC_POS_LO o = none := by
    unfold whichOf
    rw [List.find?_eq_none]
    intro i hi
    have h0 := hout (R.ENC_POS_LO 0) (by decide)
    have h1 := hout (R.ENC_POS_LO 1) (by decide)
    rw [List.mem_range] at hi
    interval_cases i
    · simpa using h0.symm
    · simpa using h1.symm
  unfold readEffect clearOnRead latchUpper
  simp only [hout R.BEAT_NUM_LO (by decide), hout R.TIME_NS (by decide), hout R.TSQ_DATA0 (by decide), hout R.SCR_TDATA (by decide),
    hout R.NOZ_SH_LO (by decide), hout R.NOZ_LIVE_LO (by decide), hout R.NOZ_WEAR_LO (by decide), hout R.WAVE_TDATA (by decide),
    hout R.INS_SHD_DATA (by decide), hout R.INS_MAP_A (by decide), hout R.INS_MAP_B (by decide), hout R.LOOP_CDATA (by decide),
    hout R.TRIM_DDATA (by decide), hout R.TRIM_FDATA (by decide), hout R.CODEC_ERR_CNT (by decide), if_false, hr, hcor, hpos, if_true]

theorem registerRead_live (hlow : 0x40 ≤ o % 0x1000) (hhigh : o % 0x1000 < 0x800) (hp : o < 0x80000)
    (hr : regDesc (o / 0x1000) (o % 0x1000) = some r) (hcor : r.cor = 0) (ho : o ∉ readPorts) :
    registerRead mJtpRemote o d = (liveValue d o, d) := by
  obtain ⟨hlisted, -⟩ := regDesc_some (by omega) hr
  unfold registerRead
  simp only [hlisted, Bool.not_true, Bool.false_eq_true, if_false, hr, Option.isSome_some, if_true, readEffect_none hr hcor ho]
  rw [if_neg (by omega), if_neg (by omega), if_neg (by omega)]

theorem registerRead_shadow (hlow : 0x40 ≤ o % 0x1000) (hhigh : o % 0x1000 < 0x800) (hp : o < 0x80000)
    (hr : regDesc (o / 0x1000) (o % 0x1000) = some r) (ho : o ∉ readPorts) :
    registerRead mJtpRemote (o + 0x800) d = (mergeBits (liveValue d o) (d.reg (o + 0x800)).toNat r.rws, d) := by
  have hout (a : Nat) (ha : a ∈ readPorts) : o ≠ a := fun hoa => ho (hoa ▸ ha)
  obtain ⟨hlisted, -⟩ := regDesc_some (by omega) hr
  have hpage : (o + 0x800) / 0x1000 = o / 0x1000 := by omega
  have hoff : (o + 0x800) % 0x1000 = o % 0x1000 + 0x800 := by omega
  have hmask : rwsMask o = r.rws := by unfold rwsMask; rw [hr]; rfl
  have hvalue : shadowValue d o = mergeBits (liveValue d o) (d.reg (o + 0x800)).toNat r.rws := by
    unfold shadowValue
    rw [if_neg (hout R.INS_SHD_DATA (by decide)), if_neg (hout R.INS_MAP_A (by decide)), if_neg (hout R.INS_MAP_B (by decide)),
      if_neg (hout R.LOOP_CDATA (by decide)), if_neg (hout R.TRIM_DDATA (by decide)), if_neg (hout R.TRIM_FDATA (by decide)), hmask]
  unfold registerRead
  simp only [hpage, hoff, hlisted, Bool.not_true, Bool.false_eq_true, if_false, Nat.add_sub_cancel, hr, Option.isSome_some, if_true, hvalue]
  rw [if_neg (by omega), if_pos (by omega)]

theorem registerRead_evt {g : Nat} (hlisted : pageListed g = true) : registerRead mJtpRemote (R.PG_EVT g) d = ((d.reg (R.PG_EVT g)).toNat, d) := by
  obtain ⟨hpage, hoff, -⟩ := pgEvt_offset g
  have haddr : 0x1000 * g + 0x14 = R.PG_EVT g := by simp only [R.PG_EVT]; omega
  unfold registerRead headerRead
  simp only [hpage, hoff, hlisted, haddr, Bool.not_true, Bool.false_eq_true, if_false]
  rfl
end

/-! ### The accesses of a request -/

section
variable {dt x : Nat} {q : Fin 2} {n : Fin 16} {seq job epoch : Word} {p : List Byte} {s : State} {e : Dev}

/-- What the RIP may do before its message came, it may do when the request is performed. -/
theorem remote_permitted {kind a : Nat} (hp : Permitted s mJtpRemote kind a 4) (he : Due n seq.toNat job.toNat (s.dev.elapse dt) e) :
    cleated e mJtpRemote = false ∧ issues e mJtpRemote = true
      ∧ (shroudCheck e mJtpRemote kind a (kind == kindWrite && reachesRwm a 4)).1 = true := by
  obtain ⟨hissues, hcheck⟩ := hp
  have hregs := (requestRegs_apart n).2
  have hcleat : cleated e mJtpRemote = cleated s.dev mJtpRemote := cleated_low (he.received.regs.reg_eq (hregs _ (by simp [reachRegs]))) (by decide)
  have hfree : cleated s.dev mJtpRemote = false := by
    unfold issues at hissues
    simp only [Bool.and_eq_true, Bool.not_eq_true'] at hissues
    exact hissues.1.2
  refine ⟨hcleat.trans hfree, ?_, ?_⟩
  · unfold issues
    rw [hcleat, hfree]
    rfl
  · rw [shroudCheck_kept he.received.regs hregs (by decide) he.received.l2Ram he.received.regions]
    exact hcheck

theorem busAccess_windowWrite {v : Nat} (hx : x < 0x80000) (hp : Permitted s mJtpRemote kindWrite (0x40000000 + x) 4)
    (he : Due n seq.toNat job.toNat (s.dev.elapse dt) e) :
    busAccess mJtpRemote kindWrite (0x40000000 + x) 4 v e = (.none, false, windowWrite x 4 v e) := by
  obtain ⟨-, hissues, hcheck⟩ := remote_permitted hp he
  rw [busAccess_permitted hissues hcheck]
  unfold busPerform
  rw [if_pos rfl, regOffset_window hx]

theorem busAccess_windowRead (hx : x < 0x80000) (hp : Permitted s mJtpRemote kindRead (0x40000000 + x) 4)
    (he : Due n seq.toNat job.toNat (s.dev.elapse dt) e) :
    busAccess mJtpRemote kindRead (0x40000000 + x) 4 0 e = ((windowRead mJtpRemote x 4 e).1, false, (windowRead mJtpRemote x 4 e).2) := by
  obtain ⟨-, hissues, hcheck⟩ := remote_permitted hp he
  rw [busAccess_permitted hissues hcheck]
  unfold busPerform
  rw [if_neg (by decide), regOffset_window hx]

/-- What a request to the register window leaves of memory. -/
theorem Asked.memKept {t : Nat} {ans : List Byte} {l : List Nat} {f : Dev} {u : State} (h : Asked n t seq.toNat job.toNat ans l [] s f u)
    (hf : ∀ a, memByte f a = memByte e a) (he : Due n seq.toNat job.toNat (s.dev.elapse dt) e) : MemKept s u :=
  fun a => (h.memory a).trans ((hf a).trans (memByte_congr he.received.dram he.received.l2 a))

/-- A word that a request writes to the register window. -/
theorem execRegWrite_window {l : List Nat} (h : RequestNext s dt q n seq p) (hlen : p.length = 20) (hx : beAt p 0 8 = 0x40000000 + x)
    (hin : x < 0x80000) (hp : Permitted s mJtpRemote kindWrite (0x40000000 + x) 4) (hl : ∀ a ∈ requestRegs n, a ∉ l)
    (hmoved : ∀ e, Due n seq.toNat job.toNat (s.dev.elapse dt) e → WindowMoved l e (windowWrite x 4 (beAt p 16 4) e)) :
    ∃ e u, Due n seq.toNat job.toNat (s.dev.elapse dt) e ∧ execRegWrite dt q n seq job epoch p s = .next u
      ∧ Asked n tRegWrite seq.toNat job.toNat (regAnswer p 0 1 []) l [] s (windowWrite x 4 (beAt p 16 4) e) u ∧ MemKept s u := by
  have hbanks := (Quiet.of_ready h.ready dt).banks
  obtain ⟨e, u, hdue, hdo, hasked⟩ := perform_request (t := tRegWrite) (data := []) (job := job) (epoch := epoch) (l := l) (m := [])
    (act := windowWrite x 4 (beAt p 16 4)) h.ready h.calm h.up h.length (.inr rfl) h.seq
    (contentCheck_request (d := s.dev.elapse dt) (.inr rfl) h.enabled h.one h.aligned h.inside hlen)
    (by rw [hx, inDram_window hin, Bool.false_and]) h.answers (by simp) hl (List.nil_subset _) (List.nil_subset _) fun e he =>
      ⟨(hmoved e he).accessed, .inr ((hmoved e he).banks.trans (he.received.banks.trans hbanks)),
        regRequest_write (remote_permitted hp he).1 h.one rfl ((congrArg (busAccess _ _ · _ _ _) hx).trans (busAccess_windowWrite hin hp he))⟩
  exact ⟨e, u, hdue, hdo, hasked, hasked.memKept (hmoved e hdue).memory hdue⟩

/-- A word that a request reads from the register window. -/
theorem execRegRead_window {w : Word} (h : RequestNext s dt q n seq p) (hlen : p.length = 16) (hx : beAt p 0 8 = 0x40000000 + x)
    (hin : x < 0x80000) (hp : Permitted s mJtpRemote kindRead (0x40000000 + x) 4)
    (hread : ∀ e, Due n seq.toNat job.toNat (s.dev.elapse dt) e → windowRead mJtpRemote x 4 e = (.ok w.toNat, e)) :
    ∃ e u, execRegRead dt q n seq job epoch p s = .next u
      ∧ Asked n tRegRead seq.toNat job.toNat (regAnswer p 0 1 (beBytes 4 w.toNat)) [] [] s e u ∧ MemKept s u := by
  have hbanks := (Quiet.of_ready h.ready dt).banks
  obtain ⟨e, u, hdue, hdo, hasked⟩ := perform_request (t := tRegRead) (data := beBytes 4 w.toNat) (job := job) (epoch := epoch) (l := []) (m := [])
    (act := id) h.ready h.calm h.up h.length (.inl rfl) h.seq
    (contentCheck_request (d := s.dev.elapse dt) (.inl rfl) h.enabled h.one h.aligned h.inside hlen)
    (by rw [hx, inDram_window hin, Bool.false_and]) h.answers (by simp) (fun _ _ => List.not_mem_nil) (List.nil_subset _)
    (List.nil_subset _) fun e he =>
      ⟨.refl _ e, .inr (he.received.banks.trans hbanks), regRequest_read (remote_permitted hp he).1 h.one rfl
        ((congrArg (busAccess _ _ · _ _ _) hx).trans ((busAccess_windowRead hin hp he).trans (by rw [hread e he]; rfl)))⟩
  exact ⟨e, u, hdo, hasked, hasked.memKept (fun _ => rfl) hdue⟩
end

end Sys2Proof.Machine
end

section
/-! SUPPORT. O15: the statement (R131). -/
namespace Sys2Proof.Machine

/-- No register of a session, nor one that a command's end reads, is a shadow or a PG_EVT, or raises an event. -/
theorem requestRegs_kind : ∀ n : Fin 16, ∀ a ∈ requestRegs n ++ askedRegs n, a % 0x1000 < 0x800 ∧ a % 0x1000 ≠ 0x14
    ∧ a / 0x1000 ∉ [0x55, 0x56, 0x57, 0x58, 0x59] := by decide

theorem eventRegs_kind {g a : Nat} (h : a ∈ eventRegs g) : a % 0x1000 = 0x14 ∨ a / 0x1000 ∈ [0x55, 0x56, 0x57, 0x58, 0x59] := by
  have hs := pageSource_lt g
  simp only [eventRegs, R.PG_EVT, R.EVT_PEND, R.EVTC_CNT, List.mem_cons, List.not_mem_nil, or_false] at h ⊢
  omega

section
variable {dt : Nat} {q : Fin 2} {n : Fin 16} {seq job epoch : Word} {p : List Byte} {s : State}

/-- The clause of O15 about the shadow of a register. -/
theorem execRegWrite_shadow {o : Nat} {r : RegDesc} {v : Word} (h : RequestNext s dt q n seq p) (hlen : p.length = 20)
    (hv : v.toNat = beAt p 16 4) (ha : beAt p 0 8 = 0x40000000 + (o + 0x800)) (hp : Permitted s mJtpRemote kindWrite (0x40000000 + (o + 0x800)) 4)
    (hin : o < 0x80000) (hlow : 0x40 ≤ o % 0x1000) (hhigh : o % 0x1000 < 0x800) (hr : regDesc (o / 0x1000) (o % 0x1000) = some r)
    (hrws : r.rws ≠ 0) (hrange : rangesOk r r.rws v.toNat = true) (hcross : crossRangeOk o v.toNat s.dev = true) (hport : o ∉ shadowPorts) :
    ∃ f u, execRegWrite dt q n seq job epoch p s = .next u
      ∧ Asked n tRegWrite seq.toNat job.toNat (regAnswer p 0 1 []) [o + 0x800] [] s f u ∧ MemKept s u
      ∧ u.dev.reg (o + 0x800) = (s.dev.reg (o + 0x800) &&& ~~~BitVec.ofNat 32 r.rws) ||| (v &&& BitVec.ofNat 32 r.rws) := by
  have hkind := requestRegs_kind n
  have hshadow (a : Nat) (hk : a % 0x1000 < 0x800) : a ≠ o + 0x800 := by omega
  have hin' : o + 0x800 < 0x80000 := by omega
  have hwrite (e : Dev) (he : Due n seq.toNat job.toNat (s.dev.elapse dt) e) := windowWrite_shadow (d := e) hlow hhigh hin hr hrws hrange
    (fun f hf => (crossRangeOk_kept (d := s.dev) (fun a ha => (Dev.reg_congr f e hf a).trans (he.received.sameOutside a ha)) o v.toNat
      fun hne => hport (hne ▸ by decide)).trans hcross) hport
  rw [hv] at hwrite
  obtain ⟨e, u, hdue, hdo, hasked, hmem⟩ := execRegWrite_window (job := job) (epoch := epoch) h hlen ha hin' hp
    (fun a ha => by
      rw [List.mem_singleton]
      exact hshadow a (hkind a (List.mem_append_left _ ha)).1) (fun e he => (hwrite e he).1)
  refine ⟨_, u, hdo, hasked, hmem, ?_⟩
  have hold : e.reg (o + 0x800) = s.dev.reg (o + 0x800) := hdue.received.regs.reg_eq fun hin =>
    hshadow _ (hkind _ (List.mem_append_right _ (List.mem_cons_of_mem _ hin))).1 rfl
  have hnew := (hwrite e hdue).2
  rw [hold] at hnew
  refine (hasked.after.reg_eq ?_).trans hnew
  rw [List.mem_singleton]
  exact (hshadow _ (hkind (R.TX_NEXT n) (by simp)).1).symm

/-- The clause of O15 about PG_EVT. -/
theorem execRegWrite_evt {g : Fin 128} {v : Word} (h : RequestNext s dt q n seq p) (hlen : p.length = 20) (hv : v.toNat = beAt p 16 4)
    (ha : beAt p 0 8 = 0x40000000 + R.PG_EVT g) (hp : Permitted s mJtpRemote kindWrite (0x40000000 + R.PG_EVT g) 4)
    (hlisted : pageListed g = true) :
    ∃ f u, execRegWrite dt q n seq job epoch p s = .next u
      ∧ Asked n tRegWrite seq.toNat job.toNat (regAnswer p 0 1 []) (eventRegs g) [] s f u ∧ MemKept s u
      ∧ u.dev.reg (R.PG_EVT g) = s.dev.reg (R.PG_EVT g) &&& ~~~v := by
  have hkind := requestRegs_kind n
  obtain ⟨-, hoff, -⟩ := pgEvt_offset g
  have hin : R.PG_EVT g < 0x80000 := by
    have := g.isLt
    simp only [R.PG_EVT]
    omega
  have hout (a : Nat) (ha : a ∈ requestRegs n ++ askedRegs n) : a ∉ eventRegs g := fun hin => by
    obtain ⟨-, h14, hpage⟩ := hkind a ha
    exact (eventRegs_kind hin).elim h14 hpage
  have hwrite (e : Dev) : windowWrite (R.PG_EVT g) 4 (beAt p 16 4) e = e.clearEvt g v := hv ▸ windowWrite_evt hlisted v e
  obtain ⟨e, u, hdue, hdo, hasked, hmem⟩ := execRegWrite_window (job := job) (epoch := epoch) h hlen ha hin hp
    (fun a ha => hout a (List.mem_append_left _ ha)) (fun e _ => hwrite e ▸ clearEvt_moved g v e)
  refine ⟨_, u, hdo, hasked, hmem, ?_⟩
  have hold : e.reg (R.PG_EVT g) = s.dev.reg (R.PG_EVT g) := hdue.received.regs.reg_eq fun hin =>
    (hkind _ (List.mem_append_right _ (List.mem_cons_of_mem _ hin))).2.1 hoff
  have hnext : R.PG_EVT g ≠ R.TX_NEXT n := fun heq => (hkind (R.TX_NEXT n) (by simp)).2.1 (heq ▸ hoff)
  refine (hasked.after.reg_eq (by rwa [List.mem_singleton])).trans ?_
  rw [hwrite, pgEvt_clearEvt, hold]

/-- What a request of one word reads of the register window, and where. -/
theorem windowRead_request {o : Nat} {r : RegDesc} {w : Word} {g : Fin 128} {a : Nat} (hin : o < 0x80000) (hlow : 0x40 ≤ o % 0x1000)
    (hhigh : o % 0x1000 < 0x800) (hC : o / 0x1000 ≠ 0x0C) (hD : o / 0x1000 ≠ 0x0D) (hr : regDesc (o / 0x1000) (o % 0x1000) = some r)
    (hlisted : pageListed g = true)
    (hword : (a = 0x40000000 + o ∧ r.cor = 0 ∧ o ∉ readPorts ∧ w = BitVec.ofNat 32 (liveValue (s.dev.elapse dt) o))
      ∨ (a = 0x40000800 + o ∧ o ∉ readPorts ∧ w = BitVec.ofNat 32 (mergeBits (liveValue (s.dev.elapse dt) o) (s.dev.reg (o + 0x800)).toNat r.rws))
      ∨ (a = 0x40000000 + R.PG_EVT g ∧ w = s.dev.reg (R.PG_EVT g))) :
    ∃ x, a = 0x40000000 + x ∧ x < 0x80000 ∧ x % 4 = 0
      ∧ ∀ e, Due n seq.toNat job.toNat (s.dev.elapse dt) e → windowRead mJtpRemote x 4 e = (.ok w.toNat, e) := by
  have hkind := requestRegs_kind n
  obtain ⟨hpage, h4⟩ := regDesc_some (by omega) hr
  have hlive {e : Dev} (he : Due n seq.toNat job.toNat (s.dev.elapse dt) e) (ho : o ∉ readPorts) : liveValue e o = liveValue (s.dev.elapse dt) o :=
    liveValue_received he.received (by omega) ho
  rcases hword with ⟨ha, hcor, ho, rfl⟩ | ⟨ha, ho, rfl⟩ | ⟨ha, rfl⟩
  · refine ⟨o, ha, hin, by omega, fun e he => ?_⟩
    rw [windowRead_word hpage (by omega) (registerRead_live hlow hhigh hin hr hcor ho), hlive he ho, BitVec.toNat_ofNat]
  · have hpage' : (o + 0x800) / 0x1000 = o / 0x1000 := by omega
    refine ⟨o + 0x800, by omega, by omega, by omega, fun e he => ?_⟩
    have hold : e.reg (o + 0x800) = s.dev.reg (o + 0x800) := he.received.regs.reg_eq fun hin => by
      have := (hkind _ (List.mem_append_right _ (List.mem_cons_of_mem _ hin))).1
      omega
    rw [windowRead_word (hpage'.symm ▸ hpage) (by omega) (registerRead_shadow hlow hhigh hin hr ho), hlive he ho, hold, BitVec.toNat_ofNat]
  · obtain ⟨hg, hoff, h4⟩ := pgEvt_offset g
    have hsmall : R.PG_EVT g < 0x80000 := by
      have := g.isLt
      simp only [R.PG_EVT]
      omega
    refine ⟨R.PG_EVT g, ha, hsmall, h4, fun e he => ?_⟩
    have hold : e.reg (R.PG_EVT g) = s.dev.reg (R.PG_EVT g) := he.received.regs.reg_eq fun hin =>
      (hkind _ (List.mem_append_right _ (List.mem_cons_of_mem _ hin))).2.1 hoff
    rw [windowRead_word (hg.symm ▸ hlisted) h4 (registerRead_evt hlisted), hold, Nat.mod_eq_of_lt (s.dev.reg (R.PG_EVT g)).isLt]
end

/-- Settles O15: a register request waits in its session, the end of its command performs its access on the bus as remote access, and
answers. -/
theorem registerRequests : Obligations.RegisterRequests := by
  unfold Obligations.RegisterRequests
  intro dt q n seq job epoch p s hready hcalm hup hlen hseq hen hqueue hroom hfits
  have hanswer := (CalmOpen.of_calm hcalm dt).mayAnswer hqueue hroom hfits
  have hnext (hone : beAt p 8 2 = 1) (h4 : beAt p 0 8 % 4 = 0) (hin : beAt p 0 8 < 2 ^ 40) : RequestNext s dt q n seq p :=
    ⟨hready, hcalm, hup, hlen, hseq, hen, hanswer, hone, h4, hin⟩
  have hjob : job.toNat % 2 ^ 32 = job.toNat := Nat.mod_eq_of_lt job.isLt
  refine ⟨?_, ?_, ?_, ?_⟩
  · rintro a rfl h4 hin hone hp hr
    obtain ⟨e, u, hdue, hdo, hasked, hput⟩ := execRegWrite_memory (job := job) (epoch := epoch) (hnext hone h4 hin) hp hr
    obtain ⟨⟨m, hsent, htype, hbytes⟩, htx, hcum, hj, hregs, hmem, -⟩ := hasked
    refine ⟨u, m, hdo, fun i hi => ?_, fun x hx => ?_, hcum, hj.trans hjob, hsent, htype, hbytes, htx, hregs⟩
    · exact (hmem _).trans ((hput.inside i (by rwa [leBytes_length])).trans (leBytes_getD hi _))
    · exact (hmem x).trans ((hput.outside x (by rwa [leBytes_length])).trans (memByte_congr hdue.received.dram hdue.received.l2 x))
  · rintro a b rfl h4 hin hone hp hr hb
    obtain ⟨e, u, hdue, hdo, hasked, htouch⟩ := execRegRead_memory (job := job) (epoch := epoch) (hnext hone h4 hin) hp hr hb
    obtain ⟨⟨m, hsent, htype, hbytes⟩, htx, hcum, hj, hregs, hmem, -⟩ := hasked
    refine ⟨u, m, hdo, hsent, htype, hbytes, hcum, hj.trans hjob, htx, hregs, fun x => ?_⟩
    exact (hmem x).trans ((memByte_congr htouch.dram htouch.l2 x).trans (memByte_congr hdue.received.dram hdue.received.l2 x))
  · intro a o r v ha hone hp hv hpermit
    refine ⟨fun hao hin hlow hhigh hr hrws hrange hcross hport => ?_, fun g hlisted hag => ?_⟩
    · obtain ⟨-, h4⟩ := regDesc_some (by omega) hr
      have hao' : a = 0x40000000 + (o + 0x800) := by omega
      rw [hao'] at hpermit
      obtain ⟨f, u, hdo, ⟨⟨m, hsent, -, hbytes⟩, -, hcum, hj, hregs, -, -⟩, hmem, hreg⟩ := execRegWrite_shadow (job := job) (epoch := epoch)
        (hnext hone (by omega) (by omega)) hp hv (ha.symm.trans hao') hpermit hin hlow hhigh hr hrws hrange hcross hport
      refine ⟨u, m, hdo, hreg, hsent, hbytes, hcum, hj.trans hjob, fun x hx => hregs x fun hin => hx ?_, hmem⟩
      rcases List.mem_append.mp hin with hin | hin
      · rcases List.mem_cons.mp hin with rfl | hin
        · exact List.mem_append_left _ (List.mem_cons_of_mem _ List.mem_cons_self)
        · exact List.mem_append_right _ hin
      · exact List.mem_append_left _ (List.mem_singleton.mp hin ▸ List.mem_cons_self)
    · have hsmall : R.PG_EVT g < 0x80000 := by
        have := g.isLt
        simp only [R.PG_EVT]
        omega
      obtain ⟨-, -, h4⟩ := pgEvt_offset g
      rw [hag] at hpermit
      obtain ⟨f, u, hdo, ⟨⟨m, hsent, -, hbytes⟩, -, hcum, hj, hregs, -, -⟩, hmem, hreg⟩ := execRegWrite_evt (job := job) (epoch := epoch)
        (hnext hone (by omega) (by omega)) hp hv (ha.symm.trans hag) hpermit hlisted
      exact ⟨u, m, hdo, hreg, hsent, hbytes, hcum, hj.trans hjob, hregs, hmem⟩
  · intro a o r g w ha hone hp hpermit hin hlow hhigh hC hD hr hlisted hword
    obtain ⟨x, hax, hsmall, h4, hread⟩ := windowRead_request (n := n) (seq := seq) (job := job) hin hlow hhigh hC hD hr hlisted hword
    rw [hax] at hpermit
    obtain ⟨e, u, hdo, ⟨⟨m, hsent, -, hbytes⟩, htx, hcum, hj, hregs, -, -⟩, hmem⟩ := execRegRead_window (job := job) (epoch := epoch)
      (hnext hone (by omega) (by omega)) hp (ha.symm.trans hax) hsmall hpermit hread
    exact ⟨u, m, hdo, hsent, hbytes, hcum, hj.trans hjob, htx, fun x hx => hregs x (by rwa [List.append_nil]), hmem⟩

end Sys2Proof.Machine
end
